-- ==== Sys2Proof/Word.lean ====
section
/-! DEFINITION. The word types of the SH-960 and their plainest arithmetic: register words (R4), bytes, and two's complement
views of fields (R13). -/
namespace Sys2Proof

/-- A register word: 32 bits (R4). -/
abbrev Word := BitVec 32

/-- A byte of memory. -/
abbrev Byte := BitVec 8

end Sys2Proof
end

