-- ==== Sys2Proof/Syntax.lean ====
section
/-! DEFINITION. The commands of the SH-960: one constructor of Instr for every row of the spec's table of operations and events,
with the row's operands: who sends it, which of several like units it concerns, the value written, and what the
outside world or the analogue side brings (a measured value, a received frame). -/
namespace Sys2Proof

/-- Who reads or writes a register (R35): the debug port, the host, SQM, and SQ0 to SQ9. -/
inductive Reader where
  | debug | host | sqm | sq (n : Fin 10)
deriving DecidableEq, Repr

/-- The eleven sequencers by number: 0 to 9 SQ0 to SQ9, 10 SQM (R394 SQID). -/
abbrev SeqId := Fin 11

/-- Operand forms of LDA (R374): immediate, direct page, absolute, [X+d8], [Y+d8], [X+]. -/
inductive LdaSrc where
  | imm (n : Byte) | dir (d : Byte) | abs (a : BitVec 16) | ix (d : Byte) | iy (d : Byte) | xinc
deriving DecidableEq, Repr

/-- Operand forms of STA (R374). -/
inductive StaDst where
  | dir (d : Byte) | abs (a : BitVec 16) | ix (d : Byte) | iy (d : Byte) | xinc
deriving DecidableEq, Repr

/-- Operand forms of LDB (R374). -/
inductive LdbSrc where
  | imm (n : Byte) | dir (d : Byte) | abs (a : BitVec 16) | ix (d : Byte)
deriving DecidableEq, Repr

/-- Operand forms of STB, INC, DEC, CLR and TST (R374). -/
inductive MemDax where
  | dir (d : Byte) | abs (a : BitVec 16) | ix (d : Byte)
deriving DecidableEq, Repr

/-- Operand forms of LDX (R374): 16-bit immediate, direct page, absolute, [Y+d8]. -/
inductive LdxSrc where
  | imm (n : BitVec 16) | dir (d : Byte) | abs (a : BitVec 16) | iy (d : Byte)
deriving DecidableEq, Repr

/-- Operand forms of LDY (R374): 16-bit immediate, direct page, absolute, [X+d8]. -/
inductive LdySrc where
  | imm (n : BitVec 16) | dir (d : Byte) | abs (a : BitVec 16) | ix (d : Byte)
deriving DecidableEq, Repr

/-- Operand forms of LDCT (R374). -/
inductive LdctSrc where
  | imm (n : BitVec 16) | dir (d : Byte)
deriving DecidableEq, Repr

/-- Operand forms of STX and STY (R374). -/
inductive MemDa where
  | dir (d : Byte) | abs (a : BitVec 16)
deriving DecidableEq, Repr

/-- Operand forms of ADD, SUB, AND, OR, XOR, CEQ, CLTU and CLTS (R374). -/
inductive AluSrc where
  | imm (n : Byte) | dir (d : Byte) | abs (a : BitVec 16) | ix (d : Byte) | iy (d : Byte)
deriving DecidableEq, Repr

/-- Operand forms of ADC and SBC (R374). -/
inductive AdcSrc where
  | imm (n : Byte) | dir (d : Byte) | ix (d : Byte) | iy (d : Byte)
deriving DecidableEq, Repr

/-- Operand forms of SHL, SHR, ASR, ROL, MUL and DIV (R374). -/
inductive ImmDir where
  | imm (n : Byte) | dir (d : Byte)
deriving DecidableEq, Repr

/-- Targets of JMP and JSR (R374): an address or X. -/
inductive JmpDst where
  | abs (a : BitVec 16) | x
deriving DecidableEq, Repr

/-- Operand forms of ADX (R374): a sign-extended immediate or A. -/
inductive AdxSrc where
  | imm (n : Byte) | a
deriving DecidableEq, Repr

/-- Registers PUSH and POP move (R374). -/
inductive StackReg where
  | a | b | x | y | ct
deriving DecidableEq, Repr

/-- Forms of MOV (R374): direct to direct, absolute to absolute, [X+] from [Y+]; destination first. -/
inductive MovForm where
  | dir (dst src : Byte) | abs (dst src : BitVec 16) | inc
deriving DecidableEq, Repr

/-- Operand forms of ADDM, SUBM, ANDM, ORM and XORM (R374). -/
inductive MemDx where
  | dir (d : Byte) | ix (d : Byte)
deriving DecidableEq, Repr

/-- Forms of the repeat prefix (R381). -/
inductive RepSrc where
  | imm (n : Byte) | ct
deriving DecidableEq, Repr

/-- Causes of a sequencer fault (R391). -/
inductive DxCause where
  | illegalOpcode | illegalSequence | priv | prot | rmwIo | stack | arith | break_ | coproc
deriving DecidableEq, Repr

/-- CP0's mode M (R403): the width and signedness of a wide operation. -/
inductive WideMode where
  | u32 | s32 | u48 | s48
deriving DecidableEq, Repr


/-- An operand that an event names and a command does not bring: the device forms its value from what its state holds (assumption 13). -/
inductive Formed where
  | byDevice
deriving DecidableEq, Repr

/-- The end of a lane pass: the lane, and whether a calibration pass gave its known answer (R255). -/
structure PassEnd where
  lane : Fin 64
  good : Bool
deriving DecidableEq, Repr

/-- The levels that a card holds on UA1's line 10.5, 11 and 11.5 bit times after a start edge (R492). -/
structure CardLevels where
  first : Bool
  second : Bool
  third : Bool
deriving DecidableEq, Repr

/-- The result of a synthesiser calibration: die temperature in °C, VCO band and gain trim (R81). -/
structure CalResult where
  temp : BitVec 8
  band : BitVec 7
  trim : BitVec 5
deriving DecidableEq, Repr

/-- Why a profile becomes stale (R81): the die temperature now read, or the tuning voltage left its window. -/
inductive StaleCause where
  | temperature (now : BitVec 8) | tuning
deriving DecidableEq, Repr

/-- A configuration write of the MSI-X control word (enable, function mask), or a return to D0 (R441). -/
inductive MsixWrite where
  | control (enable functionMask : Bool) | d0
deriving DecidableEq, Repr

/-- The writable configuration words of a ring (R428). -/
inductive RingWord where
  | baseLo | baseHi | cfg
deriving DecidableEq, Repr

/-- What the detectors see of REFIN (R313): CK_MAIN cycles since its last rising edge; how far the latest reference edges lay from
the ring edges they replace, newest first, in 2^-16 of a CK_MAIN period, with REFIN's error in 10^-9; or for how many ns its swing
has stayed below the threshold. -/
inductive LossCause where
  | miss (cycles : Nat)
  | phase (ppb : Int) (errs : List Int)
  | amp (ns : Nat)
deriving DecidableEq, Repr

/-- A request to a register of BAR 0 (R422): its offset, and whether it is a single DWORD with all four byte enables set. -/
structure RegReq where
  off : BitVec 24
  whole : Bool
deriving DecidableEq, Repr

/-- What configuration space reports of the function (R419, R421, R444). -/
inductive CfgField where
  | vendorId | deviceId | classCode | subsystemIds | serial | bar0Bytes | bar2Bytes | msixVectors | maxPayload | noSoftReset
deriving DecidableEq, Repr

/-- A read (R35, R422, R424): of a register, of one to four bytes of the device map, which a longer request reads one after another, or
of configuration space. -/
inductive ReadReq where
  | reg (r : RegReq)
  | map (a : BitVec 26) (more : BitVec 2)
  | cfg (f : CfgField)
deriving DecidableEq, Repr

/-- A received frame as the line carries it (R447): its bytes from the header to the padding, and the reserved bytes and bits of its
body as one number. The other operands of a frame's command are its body's fields (assumption 13). -/
structure FrameHead where
  line : List Byte
  rest : Nat
deriving DecidableEq, Repr

/-- The body of a HELLO frame (R451). -/
structure HelloBody where
  majors : BitVec 16
  minor : Byte
  port : Byte
  feat : BitVec 32
  serial : BitVec 64
  role : Byte
deriving DecidableEq, Repr

/-- The body of a TIME_RESP frame (R465): time stamps in 2^-48 s. -/
structure TimeResp where
  exno : BitVec 16
  flags : Byte
  t1 : BitVec 96
  t2 : BitVec 96
  t3 : BitVec 96
  ofs : BitVec 64
  unc : BitVec 32
  func : BitVec 32
deriving DecidableEq, Repr

/-- Why a port sends a mirror (R460): one is waiting; the second of TIMEPARM; the rolling refresh. -/
inductive MirrorDue where
  | waiting | second | rolling
deriving DecidableEq, Repr


/-- What wakes the device from HIBERNATE (R540). -/
inductive WakeCause where
  | alarm | uart | mains | pin
deriving DecidableEq, Repr

/-- The commands, in the order of the table. -/
inductive Instr where
  /-- REGISTER_WRITE (R5): A write to a register field that has no row of its own is applied under the field's access code, lock and VLT rules. -/
  | registerWrite (who : Reader) (off : RegReq) (v : Word)
  /-- LATCH_CAPTURE (R35): A read of the lowest word of a latch group captures the whole group into the reader's shadow. -/
  | latchCapture (who : Reader) (off : ReadReq)
  /-- LATCH_RELEASE (R35): A read of the highest word of a latch group returns the captured value and releases the capture. -/
  | latchRelease (who : Reader) (off : BitVec 24)
  /-- ARM_SECOND (R39): A TB_STEP_CMD write with ARM_SECOND latches the operands and arms a step for the next whole second. -/
  | armSecond (who : Reader) (v : Word)
  /-- ARM_NOW (R39): A TB_STEP_CMD write with ARM_NOW latches the operands and arms a step for the next FS tick. -/
  | armNow (who : Reader) (v : Word)
  /-- CANCEL (R39): A TB_STEP_CMD write with CANCEL withdraws the armed step, if any. -/
  | stepCancel (who : Reader) (v : Word)
  /-- STEP_APPLY (R40): An armed step reaches its tick and is added to the timebase, incrementing STEP_SEQ and updating SOURCE and VALID. -/
  | stepApply
  /-- LEAP_EFFECTIVE (R44): When the timebase reaches the effective leap instant, NEXT is copied into CUR. -/
  | leapEffective
  /-- BACKUP_REALIGN (R45): At each whole timebase second while VALID is 1 and the source is not BACKUP, the backup counter is realigned to the timebase. -/
  | backupRealign
  /-- NONE (R48): A dispatched timetable occurrence with action NONE fires and is logged only. -/
  | ttNone (i : BitVec 12)
  /-- RAISE_EVENT (R48): A dispatched RAISE_EVENT occurrence raises the user event TT_USER_u. -/
  | raiseEvent (i : BitVec 12)
  /-- BURST_OPEN (R88): A dispatched BURST_OPEN sets IN_WINDOW and target RECEIVE for each chain in its mask. -/
  | burstOpen (i : BitVec 12)
  /-- BURST_CLOSE (R88): A dispatched BURST_CLOSE clears IN_WINDOW and sets the chain target to GAP_STATE, with AUTO_CAL marking stale profiles pending. -/
  | burstClose (i : BitVec 12)
  /-- BEACON_FRAME (R352): A dispatched BEACON_FRAME copies the descriptor and checks it, holding the frame or failing it. -/
  | beaconFrame (i : BitVec 12)
  /-- ARM_PULSE (R51): A dispatched ARM_PULSE arms one pulse edge on TP0 or TP1, dropped if dispatched later than 1 µs before its due time. -/
  | armPulse (i : BitVec 12)
  /-- WAKE_SEQ (R383): A dispatched WAKE_SEQ sets the named latched interrupt input of the named sequencer. -/
  | wakeSeq (i : BitVec 12)
  /-- START_CAL (R83): A dispatched START_CAL requests calibration of its target code. -/
  | startCal (i : BitVec 12)
  /-- FLASH_STORE (R555): A dispatched FLASH_STORE queues a flash store of its record kind. -/
  | flashStore (i : BitVec 12)
  /-- TT_PORT_READ (R61): A READ command on a timetable entry port copies the selected entry into the window. -/
  | ttPortRead (who : Reader) (i : BitVec 12)
  /-- TT_PORT_WRITE (R61): A WRITE command on a timetable entry port copies the window into the entry, clearing word 7 and arming it if ARMED is set. -/
  | ttPortWrite (who : Reader) (i : BitVec 12)
  /-- TT_PORT_DISARM (R61): A DISARM command on a timetable entry port clears ARMED. -/
  | ttPortDisarm (who : Reader) (i : BitVec 12)
  /-- TT_PORT_COMPLETE (R61): A timetable port command completes two FS ticks after its write and writes RESULT. -/
  | ttPortComplete
  /-- EVT_EDGE (R65): An accepted edge on EVT_INn is stamped into its FIFO, or refused or dropped with MISSED or OVERRUN. -/
  | evtEdge (n : Fin 4) (rising : Bool) (sub : BitVec 44)
  /-- EVT_POP (R66): A write of POP removes the oldest timestamp from an event input FIFO. -/
  | evtPop (who : Reader) (n : Fin 4) (v : Word)
  /-- CHAIN_TARGET_WRITE (R77): A write of GRF_CH_x_CTRL.TARGET sets the state toward which the chain steps. -/
  | chainTargetWrite (who : Reader) (x : Fin 4) (v : Word)
  /-- CHAIN_TRANSITION_DONE (R76): A chain state transition or hop completes after its stated time and the chain continues toward the latest target. -/
  | chainTransitionDone (x : Fin 4) (locked : Bool)
  /-- PROFILE_WRITE (R92): A write of CTRL.PROFILE in RECEIVE outside a sequenced window starts a hop. -/
  | profileWrite (who : Reader) (x : Fin 4) (v : Word)
  /-- STALE_LOCK_TIMEOUT (R78): A lock or hop on a stale calibration fails to lock in its stated time, and the profile is calibrated cold. -/
  | staleLockTimeout (x : Fin 4)
  /-- CAL_REQUEST (R83): A GRF_CAL_CTRL write with GO requests calibration of the target code, run at once or marked pending. -/
  | calRequest (who : Reader) (v : Word)
  /-- PENDING_CAL_START (R84): A pending chain calibration starts 1 ms after the chain entered STANDBY outside a burst window. -/
  | pendingCalStart (x : Fin 4)
  /-- CAL_DONE (R81): A 400 µs chain calibration completes, setting CAL_VALID and CAL_TEMP or CAL_FAILED. -/
  | calDone (x : Fin 4) (r : Option CalResult)
  /-- CAL_STALE (R81): A profile becomes stale on a temperature change or tuning-voltage excursion. -/
  | calStale (x n : Fin 4) (why : StaleCause)
  /-- LOCK_LOST (R87): The synthesiser loses lock in RECEIVE; samples go invalid and the chain relocks on its stored result. -/
  | lockLost (x : Fin 4)
  /-- SEGMENT_START (R91): A burst window segment starts and the hop chain hops if the segment's profile differs. -/
  | segmentStart (x : Fin 4)
  /-- ANT_SHORT (R95): Two consecutive bias current samples at or above SHORT_TH enter SHORT_WAIT or SHORT_LATCHED and open the switch. -/
  | antShort (x : Fin 4) (first second : BitVec 10)
  /-- ANT_OPEN (R95): 1,000 consecutive samples below OPEN_TH enter the OPEN state. -/
  | antOpen (x : Fin 4) (last : BitVec 10)
  /-- ANT_OK (R95): 1,000 consecutive samples within the window enter the OK state. -/
  | antOk (x : Fin 4) (last : BitVec 10)
  /-- ANT_RETRY (R96): After RETRY_INT × 10 ms in SHORT_WAIT the bias switch closes again and RETRIES increments. -/
  | antRetry (x : Fin 4)
  /-- ANT_CFG_WRITE (R96): A write of ANT_CFG clears RETRIES and SHORT_LATCHED and closes the switch if the mode calls for bias. -/
  | antCfgWrite (who : Reader) (x : Fin 4) (v : Word)
  /-- AGC_WINDOW_END (R102): At the end of each 4,096-tick window AGC steps GAIN and the jamming indicator updates. -/
  | agcWindowEnd (x : Fin 4) (usable magSum clipped : Formed)
  /-- BLANK_INTERVAL_END (R105): At the end of each 1 ms interval the blanker updates COUNT and suspends or resumes blanking. -/
  | blankIntervalEnd (x : Fin 4) (count : Formed)
  /-- NOTCH_ALLOCATE (R107): A completed detector average allocates a free adaptive notch to the strongest unserved candidate. -/
  | notchAllocate (x : Fin 4) (spectrum : Formed) (carriers : List (Fin 8 × BitVec 32))
  /-- NOTCH_RELEASE (R108): An adaptive notch releases when its carrier leaves, its power stays low for RELEASE_T, or the profile changes. -/
  | notchRelease (x : Fin 4) (n : Fin 8) (carrier : Option (BitVec 32))
  /-- SPECTRUM_COMPLETE (R111): A completed spectrum swaps the monitor banks and increments SEQ unless FREEZE is set. -/
  | spectrumComplete (x : Fin 4) (bins : Formed)
  /-- LEARN (R114): A write of LEARN starts averaging GAIN over the next second. -/
  | ifcLearn (who : Reader) (x : Fin 4)
  /-- LEARN_DONE (R114): After one second of learning GAIN_REF is written, or the result discarded if STATE left CLEAR. -/
  | learnDone (x : Fin 4)
  /-- FSM_EPOCH (R115): At each measurement epoch the false-signal monitor evaluates its checks and updates verdicts and ALERT. -/
  | fsmEpoch (obs : Formed)
  /-- FSM_CLEAR (R120): A write of CLEAR to a satellite sets it UNVERIFIED and clears its failure flags. -/
  | fsmClear (who : Reader) (n : BitVec 8)
  /-- ROOT_OK_WRITE (R116): A write of ROOT_OK; clearing it turns every TRUSTED verdict into UNVERIFIED at once. -/
  | rootOkWrite (who : Reader) (v : Word)
  /-- RING_POWER (R125): A write of TRK_RING_n_CTRL.PWR requests a ring domain start, or turns the ring off and aborts its channels. -/
  | ringPower (who : Reader) (n : Fin 10) (v : Word)
  /-- DOMAIN_START_GRANT (R533): The start budget grants a queued domain start once spacing and inrush limits allow. -/
  | domainStartGrant
  /-- CHANNEL_START (R138): Setting a channel's EN checks its settings and starts it in RUN or WAIT, resetting its navigation decoder state. -/
  | channelStart (who : Reader) (k : Fin 320) (v : Word)
  /-- TIMED_START (R138): A channel in WAIT enters RUN at the first tick at or after its START time. -/
  | timedStart (k : Fin 320)
  /-- CHANNEL_STOP (R140): Clearing EN stops the channel at the next tick, discarding its integration and stopping any follower. -/
  | channelStop (who : Reader) (k : Fin 320)
  /-- RATE_WRITE (R134): A write of a rate HI word commits the pending rate pair for the next dump boundary. -/
  | rateWrite (who : Reader) (k : Fin 320) (carrier : Bool) (hi : Word)
  /-- CODE_ADJ (R136): A write of CODE_ADJ sets a pending code phase adjustment for the next dump boundary. -/
  | codeAdj (who : Reader) (k : Fin 320) (v : Word)
  /-- SEC_SET (R131): A write of SEC with SET loads the secondary index at the next primary code epoch. -/
  | secSet (who : Reader) (k : Fin 320) (v : Word)
  /-- ALIGN_GO (R144): A write of INT with ALIGN_GO makes the current integration end at the a-th unit boundary. -/
  | alignGo (who : Reader) (k : Fin 320) (v : Word)
  /-- DUMP (R147): At the end of an integration the channel writes its dump record, applies pending rates, adjustments and taps, and sets DUMP_PEND. -/
  | trkDump (k : Fin 320) (sums : Formed)
  /-- EPOCH_CAPTURE (R163): At each epoch instant the ring captures every channel's NCO state and sets EPOCH_STAT.PEND. -/
  | epochCapture (n : Fin 10)
  /-- MEAS_PUBLISH (R165): A write of MEAS_CTRL.PUBLISH delivers the epoch's records to the fix solver and host stream, or sets MEAS_LATE. -/
  | measPublish (who : Reader) (n : Fin 10)
  /-- SYMBOL_WRITE (R170): A write to a symbol port queues the symbol word or refuses it with REJ. -/
  | symbolWrite (who : Reader) (n : Fin 10) (v : Word)
  /-- SYMBOL_DEQUEUE (R178): The navigation path takes a queued symbol and advances synchronisation and decoding for its channel. -/
  | symbolDequeue (n : Fin 10) (unit : Formed)
  /-- UNIT_STAGE (R184): A decoded unit is written to the staging ring with its verdict and transmit time, or dropped when the ring is full. -/
  | unitStage
  /-- STG_RD_WRITE (R182): A write of NAV_STG_RD consumes staged records, or is ignored with BADRD if it passes WR. -/
  | stgRdWrite (who : Reader) (v : Word)
  /-- DROP_CLEAR (R182): Clearing NAV_STG_STAT.DROP also clears DROP_CNT. -/
  | dropClear (who : Reader) (v : Word)
  /-- SIEVE_PORT_READ (R201): A READ command on a Sieve port copies a plan entry into the window. -/
  | sievePortRead (who : Reader) (i : BitVec 7)
  /-- SIEVE_PORT_WRITE (R201): A WRITE command on a Sieve port checks and writes a plan entry, ending any search in progress and queueing the request. -/
  | sievePortWrite (who : Reader) (i : BitVec 7)
  /-- SIEVE_PORT_DISARM (R201): A DISARM command on a Sieve port ends the entry's search with ST_ABORT. -/
  | sievePortDisarm (who : Reader) (i : BitVec 7)
  /-- SIEVE_PORT_COMPLETE (R201): A Sieve port command completes two FS ticks after its write and writes RESULT. -/
  | sievePortComplete
  /-- SIEVE_CAPTURE_START (R191): A queued entry reaching the head of its chain's queue starts its capture and sets its windows. -/
  | sieveCaptureStart (i : BitVec 7)
  /-- SIEVE_CAPTURE_DONE (R191): A capture completes and is searched, or discarded and retaken, or the entry ends with ST_NOSIG after 3 retries. -/
  | sieveCaptureDone (i : BitVec 7) (samples invalid : Formed)
  /-- SIEVE_TRANSFORM_START (R198): A Sieve transform starts on the next lane boundary if the budget allows, or waits with CAPPED set. -/
  | sieveTransformStart (lane : Fin 64)
  /-- SIEVE_SEARCH_DONE (R194): A search completes, detecting, confirming, or ending the entry with ST_NOSIG or ST_WEAK. -/
  | sieveSearchDone (i : BitVec 7)
  /-- SIEVE_HANDOFF (R196): A detection is placed in a free hand-off slot of the chosen ring and HANDOFF_PEND is set. -/
  | sieveHandoff (i : BitVec 7)
  /-- SIEVE_HANDOFF_TIMEOUT (R196): With no free slot by T + 100 ms the entry completes with ST_BUSY. -/
  | sieveHandoffTimeout (i : BitVec 7)
  /-- SIEVE_STALE (R197): A write of an HSEQ to SIEVE_STALE re-arms the entry that issued it. -/
  | sieveStale (who : Reader) (h : BitVec 16)
  /-- AUTO_PLAN (R200): At every PERIOD the automatic planner writes candidate signals into free entries 64 upward. -/
  | autoPlan
  /-- LANE_WINDOW (R198): Every 100 ms a new lane-time window starts and Sieve and Carousel usage restart. -/
  | laneWindow
  /-- LEAN_GROUP0_STOP (R199): In LEAN, lane group 0 stops 10 ms after the Sieve's last transform. -/
  | leanGroup0Stop
  /-- DESCRIPTOR_TAKE (R213): The Carousel takes a descriptor from a served source and runs checks 1 to 6, giving it a slot. -/
  | descriptorTake (j : Fin 32) (desc : List Byte)
  /-- STAGE_BLOCKS_GRANT (R217): A job waiting in STAGING receives its staging blocks and its snapshot fetch starts. -/
  | stageBlocksGrant
  /-- SNAPSHOT_STAGED (R213): A snapshot fetch completes and checks 7 to 9 run; a passing job enters QUEUED. -/
  | snapshotStaged (slot : BitVec 14) (block : Option (List Byte))
  /-- WINDOWS_ENTRY (R254): A source's oldest QUEUED job enters WINDOWS, takes scratch and runs checks 10 to 12 and window computation. -/
  | windowsEntry (j : Fin 34)
  /-- PASS_START (R252): At a pass boundary a free lane starts a Sieve pass or the next Carousel pass chosen by virtual time. -/
  | passStart (lane : Fin 64)
  /-- PASS_DONE (R233): A lane pass completes and its results reach the peak unit or accumulator. -/
  | passDone (p : PassEnd)
  /-- SOLVE_START (R285): A job whose passes are done takes a free solver engine for measurement building and the fix. -/
  | solveStart (slot : BitVec 14)
  /-- SOLVE_DONE (R282): A solve completes with its outcome and the job's status is decided. -/
  | solveDone (slot : BitVec 14)
  /-- RESULT_RECORD_WRITE (R222): A job in REPORT writes its result record once the destination has room, then frees its slot. -/
  | resultRecordWrite (slot : BitVec 14)
  /-- DEADLINE (R223): A deadline comparison finds the deadline passed and ends the job with ST_DEADLINE. -/
  | jobDeadline (slot : BitVec 14)
  /-- CAR_CANCEL (R224): A CAR_CANCEL_CTRL write with GO cancels matching jobs of SOURCE with ST_ABORT. -/
  | carCancel (who : Reader) (v : Word)
  /-- FWD_TIMEOUT (R229): A FORWARDED job with no result after TIMEOUT ms is taken back and worked locally. -/
  | fwdTimeout (slot : BitVec 14)
  /-- PROFILE_VALID_SET (R236): Setting a code spectrum profile's VALID checks it and puts it in use or refuses it. -/
  | profileValidSet (who : Reader) (p : Fin 3) (v : Word)
  /-- PROFILE_VALID_CLEAR (R239): Clearing VALID makes the profile DRAINING while jobs hold it. -/
  | profileValidClear (who : Reader) (p : Fin 3) (v : Word)
  /-- PROFILE_DRAINED (R239): A DRAINING profile becomes IDLE when its last job leaves CORRELATE. -/
  | profileDrained (p : Fin 3)
  /-- STORE_WRITE (R239): A write into the code spectrum store is applied, or ignored with STORE_WR when its profile is in use. -/
  | storeWrite (who : Reader) (a : BitVec 26) (v : List Byte)
  /-- LANE_GROUP_REQUEST (R257): With 8 or more passes ready and all powered lanes busy a further lane group start is requested. -/
  | laneGroupRequest
  /-- LANE_GROUP_GATE (R257): A lane group idle for IDLE_T × 10 µs is gated. -/
  | laneGroupGate (g : Fin 8)
  /-- LANE_TEST (R255): A lane untested for TEST_INT seconds runs a test pass, and a failing lane is taken out of service. -/
  | laneTest (lane : Fin 64) (pass : Bool)
  /-- SKY_PORT_READ (R265): A READ command copies a sky slot from the current or pending bank into the window. -/
  | skyPortRead (who : Reader) (pending : Bool) (i : Byte)
  /-- SKY_PORT_WRITE (R262): A WRITE command checks the window and copies it into the pending bank. -/
  | skyPortWrite (who : Reader) (i : Byte)
  /-- SKY_PORT_CLEAR (R265): A CLEAR command makes the pending slot EMPTY. -/
  | skyPortClear (who : Reader) (i : Byte)
  /-- SKY_PORT_COMPLETE (R265): A sky port command completes two FS ticks after its write and writes RESULT. -/
  | skyPortComplete
  /-- SKY_COMMIT (R263): At each whole GPST second the pending bank becomes the current epoch and device fields are recomputed. -/
  | skyCommit
  /-- IONO_AGE_EXPIRY (R272): IONO_VALID falls when the model's age exceeds IONO_AGE. -/
  | ionoAgeExpiry
  /-- SKY_QUERY (R269): A SKY_QRY_CTRL write with GO evaluates a slot at the given time. -/
  | skyQuery (who : Reader) (v : Word)
  /-- SKY_QUERY_DONE (R269): Within 1 µs the query writes RESULT and the result words. -/
  | skyQueryDone (who : Reader)
  /-- LIVE_SOLVE (R283): A live solve of epoch E starts when every capturing ring has published or at the next capture. -/
  | liveSolve (e : BitVec 64)
  /-- LIVE_SOLVE_DONE (R283): A live solve ends, writing its fix record and handing it to the time discipline. -/
  | liveSolveDone
  /-- SURVEY_START (R284): A write of MODE SURVEY after release starts a survey. -/
  | surveyStart (who : Reader) (v : Word)
  /-- ANNOUNCED_STEP_ARM (R303): At I − 10 ms the discipline arms the announced step with ARM_SECOND. -/
  | announcedStepArm
  /-- HOLDOVER (R300): LOSS_T seconds without an accepted measurement move LOCKED to HOLDOVER and drop the slew term. -/
  | holdoverEnter
  /-- HOLDOVER_EXPIRED (R300): The Sandglass time reaching EXPIRY moves the level to HOLDOVER_EXPIRED. -/
  | holdoverExpired
  /-- SANDGLASS_UPDATE (R301): Every 1 ms TP_UNC, TP_FUNC and TP_HOLD_T are updated from the Sandglass. -/
  | sandglassUpdate
  /-- DISC_EN_WRITE (R299): Clearing DISC_EN ends steering and enters HOLDOVER; setting it resumes acceptance. -/
  | discEnWrite (who : Reader) (v : Word)
  /-- PULSE_EDGE (R290): An armed leading edge leaves TP0 or TP1 at its instant, or is suppressed under the spacing and squelch rules. -/
  | pulseEdge (n : Fin 2)
  /-- PULSE_TRAIL (R290): The trailing edge follows WIDTH µs after the leading edge. -/
  | pulseTrail (n : Fin 2)
  /-- FOUT_DIV (R295): A write of FOUT DIV starts, stops or changes FOUT on a whole output period. -/
  | foutDiv (who : Reader) (v : Word)
  /-- TAKEOVER (R308): After ten missed heartbeats the standby takes the active role at the next pulse-safe point. -/
  | takeover (pin : Bool)
  /-- YIELD (R309): An active device seeing TWIN_ACTIVE_IN from a higher-serial peer deasserts ACTIVE and releases TP0. -/
  | twinYield
  /-- HOLDOVER_REFRESH (R311): At each level change and every 10 s the holdover record is refreshed in backup RAM. -/
  | holdoverRefresh
  /-- REF_LOSS (R314): REFIN is declared lost; injection stops, CK_MAIN coasts and the discipline enters HOLDOVER. -/
  | refLoss (why : LossCause) (part : BitVec 12)
  /-- QUALIFY (R315): Qualification of a returning reference starts at its first edge. -/
  | refQualify
  /-- RETURN (R315): A write of CK_CTRL.RETURN starts qualification in COAST when AUTO_RETURN is 0. -/
  | refReturn (who : Reader) (v : Word)
  /-- QUALIFY_DONE (R315): 1 ms of reference periods is timed and the result passes or fails qualification. -/
  | refQualifyDone (err : BitVec 32)
  /-- RAMP_DONE (R317): The 64-cycle injection ramp ends, absorbing the phase jump and returning to LOCKED. -/
  | rampDone (phi : BitVec 12)
  /-- REF_SEL_WRITE (R319): A write of a new REF_SEL starts an N change on the holding oscillator. -/
  | refSelWrite (who : Reader) (v : Word)
  /-- LOCK_HOLD_DONE (R319): Lock held for 256 cycles returns the core domains to CK_MAIN and starts the TSYN ramp. -/
  | lockHoldDone
  /-- LOCK_TIMEOUT (R321): Lock not reached in 20 µs counts a qualification failure and restarts the change. -/
  | lockTimeout
  /-- REF_PROBE (R322): With no reference found at boot the device probes REFIN every 1 s. -/
  | refProbe (found : Fin 4)
  /-- DIV_COMMIT (R324): A CK_DIV_COMMIT write with GO checks the shadow dividers and sets PEND or DIV_REFUSED. -/
  | divCommit (who : Reader) (v : Word)
  /-- DIV_APPLY (R324): Committed dividers take effect together at the first frame boundary allowed. -/
  | divApply
  /-- TSYN_FAULT (R327): TSYN phase beyond a quarter period on 16 cycles clears TSYN_LOCK and re-injects it. -/
  | tsynFault
  /-- BCN_TARGET_WRITE (R340): A write of BCN_CTRL TARGET or CHAN sets the radio's target state and idle channel, or sets REFUSED. -/
  | bcnTargetWrite (who : Reader) (v : Word)
  /-- BCN_TRANSITION_DONE (R339): A beacon radio state transition or relock completes after its stated time. -/
  | bcnTransitionDone (locked : Bool)
  /-- BCN_CAL_START (R345): A pending beacon calibration starts when the radio is idle in STANDBY or SYNTHON. -/
  | bcnCalStart
  /-- BCN_CAL_DONE (R345): A 400 µs beacon calibration completes, setting its result or CAL_FAILED. -/
  | bcnCalDone (r : Option CalResult)
  /-- BCN_CAL_STALE (R343): A beacon channel calibration becomes stale and CAL_PEND is set. -/
  | bcnCalStale (n : Fin 64) (why : StaleCause)
  /-- TUNER_SEARCH (R346): A pending tuner search transmits its probe burst and stores the best setting. -/
  | tunerSearch (energy : BitVec 8) (probes : List (BitVec 12 × BitVec 12))
  /-- FRAME_START (R353): A held frame starts listening or ramp-up when the radio is ready, or ends with ST_LATE or ST_DUTY. -/
  | frameStart (fwd ref : BitVec 12)
  /-- LBT_END (R354): Listening ends; a busy channel ends the frame with ST_LBT, otherwise ramp-up starts. -/
  | lbtEnd (energy : BitVec 8) (fwd ref : BitVec 12)
  /-- FRAME_DONE (R357): A frame ends after ramp-down and its result fields are written. -/
  | frameDone
  /-- OVERPOWER (R349): Forward power above the limit on two samples ends the transmission with ST_CHARTER. -/
  | bcnOverpower (first second : BitVec 12)
  /-- TRIP (R349): Return loss below RL_TRIP on two samples ends the transmission with ST_TUNE. -/
  | bcnTrip (first second : BitVec 12 × BitVec 12)
  /-- DUTY_MINUTE (R355): At each minute of the duty clock the duty bins roll and the backup duty block is rewritten. -/
  | dutyMinute
  /-- KEY_WRITE (R359): A BCN_KEY_CTRL WRITE command stores a key and its index in the key store. -/
  | keyWrite (who : Reader) (v : Word)
  /-- KEY_ERASE (R359): A BCN_KEY_CTRL ERASE command erases a key store entry. -/
  | keyErase (who : Reader) (v : Word)
  /-- CHAIN_INTERVAL (R359): At each key-chain interval keys more than one below it are erased and key supply is checked. -/
  | chainInterval
  /-- BCN_CYC_READ (R361): A READ command copies a cycle table record into the window. -/
  | bcnCycRead (who : Reader) (i : Byte)
  /-- BCN_CYC_WRITE (R361): A WRITE command checks a cycle record and stores it at CYCLE mod 256. -/
  | bcnCycWrite (who : Reader)
  /-- BCN_CYC_INVALIDATE (R361): An INVALIDATE command clears a cycle table entry. -/
  | bcnCycInvalidate (who : Reader) (i : Byte)
  /-- BCN_CYC_COMPLETE (R361): A cycle table command completes two FS ticks after its write and writes RESULT. -/
  | bcnCycComplete
  /-- CHARTER_QUERY (R337): A write of BCN_CHT_QRY.CHAN selects the channel whose effective charter limits are shown. -/
  | charterQuery (who : Reader) (v : Word)
  /-- NOP (R375): Instruction NOP does nothing. -/
  | dxNop (q : SeqId)
  /-- TAB (R375): Instruction TAB copies A into B. -/
  | dxTab (q : SeqId)
  /-- TBA (R375): Instruction TBA copies B into A. -/
  | dxTba (q : SeqId)
  /-- TAX (R375): Instruction TAX loads X with A zero-extended. -/
  | dxTax (q : SeqId)
  /-- TAY (R375): Instruction TAY loads Y with A zero-extended. -/
  | dxTay (q : SeqId)
  /-- TXA (R375): Instruction TXA loads A with X[7:0]. -/
  | dxTxa (q : SeqId)
  /-- TYA (R375): Instruction TYA loads A with Y[7:0]. -/
  | dxTya (q : SeqId)
  /-- TSX (R375): Instruction TSX copies SP into X. -/
  | dxTsx (q : SeqId)
  /-- TXS (R375): Instruction TXS copies X into SP. -/
  | dxTxs (q : SeqId)
  /-- XXY (R375): Instruction XXY exchanges X and Y. -/
  | dxXxy (q : SeqId)
  /-- LDA (R375): Instruction LDA loads A from its operand. -/
  | dxLda (q : SeqId) (src : LdaSrc)
  /-- STA (R375): Instruction STA stores A to its operand. -/
  | dxSta (q : SeqId) (dst : StaDst)
  /-- LDB (R375): Instruction LDB loads B from its operand. -/
  | dxLdb (q : SeqId) (src : LdbSrc)
  /-- STB (R375): Instruction STB stores B to its operand. -/
  | dxStb (q : SeqId) (dst : MemDax)
  /-- LDX (R375): Instruction LDX makes a 16-bit load into X. -/
  | dxLdx (q : SeqId) (src : LdxSrc)
  /-- LDY (R375): Instruction LDY makes a 16-bit load into Y. -/
  | dxLdy (q : SeqId) (src : LdySrc)
  /-- LDCT (R375): Instruction LDCT makes a 16-bit load into CT. -/
  | dxLdct (q : SeqId) (src : LdctSrc)
  /-- LDSP (R375): Instruction LDSP loads SP with an immediate. -/
  | dxLdsp (q : SeqId) (n : BitVec 16)
  /-- STX (R375): Instruction STX makes a 16-bit store of X. -/
  | dxStx (q : SeqId) (dst : MemDa)
  /-- STY (R375): Instruction STY makes a 16-bit store of Y. -/
  | dxSty (q : SeqId) (dst : MemDa)
  /-- STCT (R375): Instruction STCT makes a 16-bit store of CT. -/
  | dxStct (q : SeqId) (d : Byte)
  /-- ADD (R377): Instruction ADD adds the operand to A with the carry into B. -/
  | dxAdd (q : SeqId) (src : AluSrc)
  /-- SUB (R377): Instruction SUB subtracts the operand from A with the borrow into B. -/
  | dxSub (q : SeqId) (src : AluSrc)
  /-- ADC (R377): Instruction ADC adds the operand and B's carry to A. -/
  | dxAdc (q : SeqId) (src : AdcSrc)
  /-- SBC (R377): Instruction SBC subtracts the operand and B's borrow from A. -/
  | dxSbc (q : SeqId) (src : AdcSrc)
  /-- AND (R375): Instruction AND ands the operand into A. -/
  | dxAnd (q : SeqId) (src : AluSrc)
  /-- OR (R375): Instruction OR ors the operand into A. -/
  | dxOr (q : SeqId) (src : AluSrc)
  /-- XOR (R375): Instruction XOR exclusive-ors the operand into A. -/
  | dxXor (q : SeqId) (src : AluSrc)
  /-- CEQ (R375): Instruction CEQ sets B when A equals the operand. -/
  | dxCeq (q : SeqId) (src : AluSrc)
  /-- CLTU (R375): Instruction CLTU sets B when A is less than the operand, unsigned. -/
  | dxCltu (q : SeqId) (src : AluSrc)
  /-- CLTS (R375): Instruction CLTS sets B when A is less than the operand, signed. -/
  | dxClts (q : SeqId) (src : AluSrc)
  /-- INC (R375): Instruction INC increments a memory operand, refused on register space. -/
  | dxInc (q : SeqId) (dst : MemDax)
  /-- DEC (R375): Instruction DEC decrements a memory operand, refused on register space. -/
  | dxDec (q : SeqId) (dst : MemDax)
  /-- CLR (R375): Instruction CLR writes 0 to its operand. -/
  | dxClr (q : SeqId) (dst : MemDax)
  /-- TST (R375): Instruction TST reads its operand and sets B when it is 0. -/
  | dxTst (q : SeqId) (src : MemDax)
  /-- NEG (R377): Instruction NEG negates A. -/
  | dxNeg (q : SeqId)
  /-- NOT (R375): Instruction NOT complements A. -/
  | dxNot (q : SeqId)
  /-- INCA (R375): Instruction INCA increments A. -/
  | dxInca (q : SeqId)
  /-- DECA (R375): Instruction DECA decrements A. -/
  | dxDeca (q : SeqId)
  /-- SHL (R378): Instruction SHL shifts A left by the count. -/
  | dxShl (q : SeqId) (src : ImmDir)
  /-- SHR (R378): Instruction SHR shifts A right logically by the count. -/
  | dxShr (q : SeqId) (src : ImmDir)
  /-- ASR (R378): Instruction ASR shifts A right arithmetically by the count. -/
  | dxAsr (q : SeqId) (src : ImmDir)
  /-- ROL (R378): Instruction ROL rotates A left by the count modulo 8. -/
  | dxRol (q : SeqId) (src : ImmDir)
  /-- MUL (R375): Instruction MUL writes A times the operand into X. -/
  | dxMul (q : SeqId) (src : ImmDir)
  /-- DIV (R379): Instruction DIV divides X by the operand into A and X. -/
  | dxDiv (q : SeqId) (src : ImmDir)
  /-- BRA (R375): Instruction BRA branches unconditionally. -/
  | dxBra (q : SeqId) (r : Byte)
  /-- BT (R375): Instruction BT branches when B is nonzero. -/
  | dxBt (q : SeqId) (r : Byte)
  /-- BF (R375): Instruction BF branches when B is zero. -/
  | dxBf (q : SeqId) (r : Byte)
  /-- DBNZ (R375): Instruction DBNZ decrements CT and branches while it is nonzero. -/
  | dxDbnz (q : SeqId) (r : Byte)
  /-- JMP (R375): Instruction JMP jumps to an address or to X. -/
  | dxJmp (q : SeqId) (dst : JmpDst)
  /-- JSR (R375): Instruction JSR pushes the return address and jumps. -/
  | dxJsr (q : SeqId) (dst : JmpDst)
  /-- RTS (R375): Instruction RTS pops PC. -/
  | dxRts (q : SeqId)
  /-- INX (R375): Instruction INX increments X. -/
  | dxInx (q : SeqId)
  /-- DEX (R375): Instruction DEX decrements X. -/
  | dxDex (q : SeqId)
  /-- INY (R375): Instruction INY increments Y. -/
  | dxIny (q : SeqId)
  /-- DEY (R375): Instruction DEY decrements Y. -/
  | dxDey (q : SeqId)
  /-- ADX (R375): Instruction ADX adds an immediate or A to X. -/
  | dxAdx (q : SeqId) (src : AdxSrc)
  /-- ADY (R375): Instruction ADY adds a sign-extended immediate to Y. -/
  | dxAdy (q : SeqId) (n : Byte)
  /-- CPX (R375): Instruction CPX sets B when X equals a 16-bit immediate. -/
  | dxCpx (q : SeqId) (n : BitVec 16)
  /-- CPY (R375): Instruction CPY sets B when Y equals a 16-bit immediate. -/
  | dxCpy (q : SeqId) (n : BitVec 16)
  /-- PUSH (R380): Instruction PUSH stores a register on the stack. -/
  | dxPush (q : SeqId) (r : StackReg)
  /-- POP (R380): Instruction POP loads a register from the stack. -/
  | dxPop (q : SeqId) (r : StackReg)
  /-- MOV (R375): Instruction MOV copies a byte from source to destination. -/
  | dxMov (q : SeqId) (f : MovForm)
  /-- MOVW (R375): Instruction MOVW copies 4 bytes from Y to X as one access on each side. -/
  | dxMovw (q : SeqId)
  /-- XCH (R375): Instruction XCH exchanges A and a direct-page operand. -/
  | dxXch (q : SeqId) (d : Byte)
  /-- ADDM (R375): Instruction ADDM adds A into a memory operand. -/
  | dxAddm (q : SeqId) (dst : MemDx)
  /-- SUBM (R375): Instruction SUBM subtracts A from a memory operand. -/
  | dxSubm (q : SeqId) (dst : MemDx)
  /-- ANDM (R375): Instruction ANDM ands A into a memory operand. -/
  | dxAndm (q : SeqId) (dst : MemDx)
  /-- ORM (R375): Instruction ORM ors A into a memory operand. -/
  | dxOrm (q : SeqId) (dst : MemDx)
  /-- XORM (R375): Instruction XORM exclusive-ors A into a memory operand. -/
  | dxXorm (q : SeqId) (dst : MemDx)
  /-- BTST (R375): Instruction BTST reads a bit into B. -/
  | dxBtst (q : SeqId) (src : MemDax) (bit : Byte)
  /-- BSET (R375): Instruction BSET sets a bit indivisibly, returning its previous value in B. -/
  | dxBset (q : SeqId) (dst : MemDax) (bit : Byte)
  /-- BCLR (R375): Instruction BCLR clears a bit indivisibly, returning its previous value in B. -/
  | dxBclr (q : SeqId) (dst : MemDax) (bit : Byte)
  /-- REP (R381): Prefix REP repeats the following instruction using CT. -/
  | dxRep (q : SeqId) (src : RepSrc)
  /-- MFS (R394): Instruction MFS loads A from a special register. -/
  | dxMfs (q : SeqId) (sr : Byte)
  /-- MTS (R394): Instruction MTS writes A to a special register under the privilege rules. -/
  | dxMts (q : SeqId) (sr : Byte)
  /-- SVC (R390): Instruction SVC enters vector 14 with its number in A. -/
  | dxSvc (q : SeqId) (n : Byte)
  /-- VCALL (R390): Instruction VCALL on SQM enters Vault mode at VENTRY. -/
  | dxVcall (q : SeqId) (n : Byte)
  /-- RTI (R386): Instruction RTI pops B, MODE and PC. -/
  | dxRti (q : SeqId)
  /-- EI (R375): Instruction EI sets MODE.IE. -/
  | dxEi (q : SeqId)
  /-- DI (R375): Instruction DI clears MODE.IE. -/
  | dxDi (q : SeqId)
  /-- WAIT (R387): Instruction WAIT stops fetching until an enabled input is pending. -/
  | dxWait (q : SeqId)
  /-- WAIT_WAKE (R387): An enabled input becoming pending ends a WAIT. -/
  | dxWaitWake (q : SeqId)
  /-- SETB (R375): Instruction SETB sets B to 1. -/
  | dxSetb (q : SeqId)
  /-- CLRB (R375): Instruction CLRB sets B to 0. -/
  | dxClrb (q : SeqId)
  /-- NOTB (R375): Instruction NOTB inverts the truth of B. -/
  | dxNotb (q : SeqId)
  /-- BRK (R388): Instruction BRK halts for the debug port or raises a BREAK fault. -/
  | dxBrk (q : SeqId)
  /-- INTERRUPT_ENTRY (R385): A qualifying interrupt input is taken at an instruction boundary and its vector entered. -/
  | dxInterruptEntry (q : SeqId) (input : Fin 16)
  /-- FAULT_ENTRY (R391): A fault enters vector 15, recording FCAUSE and FADDR. -/
  | dxFaultEntry (q : SeqId) (cause : DxCause) (addr : Option (BitVec 16))
  /-- TIMER (R389): The sequencer timer reaches 0, sets input 12 and reloads. -/
  | dxTimer (q : SeqId)
  /-- MAILBOX (R369): A write to byte 0xFF of a mailbox sets its owner's input 13. -/
  | dxMailbox (who : Reader) (box : Fin 16) (v : Byte)
  /-- SEQ_RUN_START (R395): Writing RUN from 0 to 1 starts a sequencer at SQ_n_START with reset register values. -/
  | seqRunStart (who : Reader) (n : SeqId) (dbgBrk : Bool)
  /-- SEQ_RUN_STOP (R395): Clearing RUN stops a sequencer at its next instruction boundary. -/
  | seqRunStop (who : Reader) (n : SeqId) (dbgBrk : Bool)
  /-- CP0_VER (R402): CP0 function VER writes the coprocessor version at X. -/
  | cp0Ver (q : SeqId) (m : WideMode)
  /-- CP0_STAT (R402): CP0 function STAT returns the last fault detail in A. -/
  | cp0Stat (q : SeqId) (m : WideMode)
  /-- CP0_LD (R404): CP0 function LD loads a wide register from memory. -/
  | cp0Ld (q : SeqId) (m : WideMode) (r d8 : Byte)
  /-- CP0_ST (R404): CP0 function ST stores a wide register to memory. -/
  | cp0St (q : SeqId) (m : WideMode) (r d8 : Byte)
  /-- CP0_MOV (R404): CP0 function MOV copies a wide register. -/
  | cp0Mov (q : SeqId) (m : WideMode) (r : Byte)
  /-- LDI (R404): CP0 function LDI loads a sign-extended 16-bit immediate. -/
  | cp0Ldi (q : SeqId) (m : WideMode) (r : Byte) (n : BitVec 16)
  /-- CP0_ADD (R404): CP0 function ADD adds wide registers. -/
  | cp0Add (q : SeqId) (m : WideMode) (r : Byte)
  /-- CP0_SUB (R404): CP0 function SUB subtracts wide registers. -/
  | cp0Sub (q : SeqId) (m : WideMode) (r : Byte)
  /-- CP0_NEG (R406): CP0 function NEG negates a wide register. -/
  | cp0Neg (q : SeqId) (m : WideMode) (r : Byte)
  /-- ABS (R406): CP0 function ABS takes the magnitude of a wide register. -/
  | cp0Abs (q : SeqId) (m : WideMode) (r : Byte)
  /-- CP0_MUL (R405): CP0 function MUL multiplies wide registers. -/
  | cp0Mul (q : SeqId) (m : WideMode) (r : Byte)
  /-- MULQ (R405): CP0 function MULQ multiplies and shifts the exact product right. -/
  | cp0Mulq (q : SeqId) (m : WideMode) (r sh : Byte)
  /-- CP0_DIV (R406): CP0 function DIV divides wide registers, writing remainder then quotient. -/
  | cp0Div (q : SeqId) (m : WideMode) (r t : Byte)
  /-- CP0_SHL (R407): CP0 function SHL shifts a wide register left. -/
  | cp0Shl (q : SeqId) (m : WideMode) (r n : Byte)
  /-- CP0_SHR (R407): CP0 function SHR shifts a wide register right logically. -/
  | cp0Shr (q : SeqId) (m : WideMode) (r n : Byte)
  /-- CP0_ASR (R407): CP0 function ASR shifts a wide register right arithmetically. -/
  | cp0Asr (q : SeqId) (m : WideMode) (r n : Byte)
  /-- CP0_ROL (R407): CP0 function ROL rotates a wide register left. -/
  | cp0Rol (q : SeqId) (m : WideMode) (r n : Byte)
  /-- ROR (R407): CP0 function ROR rotates a wide register right. -/
  | cp0Ror (q : SeqId) (m : WideMode) (r n : Byte)
  /-- CLT (R404): CP0 function CLT sets B when Wd is less than Ws. -/
  | cp0Clt (q : SeqId) (m : WideMode) (r : Byte)
  /-- CP0_CEQ (R404): CP0 function CEQ sets B when Wd equals Ws at the width. -/
  | cp0Ceq (q : SeqId) (m : WideMode) (r : Byte)
  /-- MIN (R404): CP0 function MIN keeps the smaller of two wide registers. -/
  | cp0Min (q : SeqId) (m : WideMode) (r : Byte)
  /-- MAX (R404): CP0 function MAX keeps the larger of two wide registers. -/
  | cp0Max (q : SeqId) (m : WideMode) (r : Byte)
  /-- TOA (R404): CP0 function TOA copies byte k of a wide register into A. -/
  | cp0Toa (q : SeqId) (m : WideMode) (r k : Byte)
  /-- FROMA (R404): CP0 function FROMA writes A into byte k of a wide register. -/
  | cp0Froma (q : SeqId) (m : WideMode) (r k : Byte)
  /-- DLL_EL (R154): CP0 discriminator DLL_EL computes the early-late code error of a dump record. -/
  | cp0DllEl (q : SeqId) (m : WideMode) (r k he : Byte)
  /-- PLL_C (R154): CP0 discriminator PLL_C computes the Costas phase error. -/
  | cp0PllC (q : SeqId) (m : WideMode) (r : Byte)
  /-- PLL_A (R154): CP0 discriminator PLL_A computes the four-quadrant phase error. -/
  | cp0PllA (q : SeqId) (m : WideMode) (r : Byte)
  /-- FLL_C (R154): CP0 discriminator FLL_C computes the frequency error from two slots. -/
  | cp0FllC (q : SeqId) (m : WideMode) (r : Byte)
  /-- FLL_A (R154): CP0 discriminator FLL_A computes the four-quadrant frequency error. -/
  | cp0FllA (q : SeqId) (m : WideMode) (r : Byte)
  /-- CN0_MB (R154): CP0 function CN0_MB updates its averages and computes C/N0. -/
  | cp0Cn0Mb (q : SeqId) (m : WideMode) (r a : Byte)
  /-- PLI (R154): CP0 function PLI updates its averages and computes the phase lock indicator. -/
  | cp0Pli (q : SeqId) (m : WideMode) (r a : Byte)
  /-- CP1_VER (R402): CP1 function VER writes the coprocessor version. -/
  | cp1Ver (q : SeqId)
  /-- CP1_STAT (R402): CP1 function STAT returns the last fault detail. -/
  | cp1Stat (q : SeqId)
  /-- EVAL (R410): CP1 function EVAL evaluates a current-epoch slot at a given time. -/
  | cp1Eval (q : SeqId)
  /-- EVALP (R410): CP1 function EVALP evaluates a pending-bank slot at a given time. -/
  | cp1Evalp (q : SeqId)
  /-- ELAZ (R410): CP1 function ELAZ returns elevation and azimuth at the reference position. -/
  | cp1Elaz (q : SeqId)
  /-- CP2_VER (R402): CP2 function VER writes the coprocessor version. -/
  | cp2Ver (q : SeqId)
  /-- CP2_STAT (R402): CP2 function STAT returns the last fault detail. -/
  | cp2Stat (q : SeqId)
  /-- SUBMIT (R413): CP2 function SUBMIT starts a hash job on a free lane. -/
  | cp2Submit (q : SeqId)
  /-- POLL (R413): CP2 function POLL reports whether lane A runs a CP2 job. -/
  | cp2Poll (q : SeqId)
  /-- CP2_ABORT (R413): CP2 function ABORT ends lane A's job with ST_ABORT at its next block boundary. -/
  | cp2Abort (q : SeqId)
  /-- VERDICT (R414): CP2 function VERDICT delivers an OSNMA result to the false-signal monitor. -/
  | cp2Verdict (q : SeqId) (v : Byte)
  /-- CP2_JOB_DONE (R413): A hash job completes and writes STATUS and BLOCKS. -/
  | cp2JobDone (lane : Fin 4) (done : Word)
  /-- RING_CFG_WRITE (R428): A write of a ring's BASE or SIZE_E configures or enables it, or is ignored with RING_CFG. -/
  | ringCfgWrite (who : Reader) (n : Fin 67) (reg : RingWord) (v : Word)
  /-- JOB_DOORBELL (R430): A host write of a job ring's TAIL is accepted as a doorbell or refused. -/
  | jobDoorbell (who : Reader) (n : Fin 32) (tail : Word)
  /-- RESULT_HEAD_WRITE (R430): A host write of a result ring's or stream's HEAD frees units, or is refused. -/
  | resultHeadWrite (who : Reader) (n : Fin 35) (head : Word)
  /-- DESC_DMA_FAIL (R432): A failed descriptor read halts the job ring and sets DESC_DMA. -/
  | descDmaFail (n : Fin 32)
  /-- HALTED_CLEAR (R432): Clearing HALTED retries the same job ring entry. -/
  | haltedClear (who : Reader) (n : Fin 32)
  /-- COAL_TIMEOUT (R434): The oldest unnotified unit reaching COAL_US sets the ring's pending bit. -/
  | coalTimeout (n : Fin 35)
  /-- STREAM_RECORD (R436): A measurement, navigation or fix record is written to its stream or dropped. -/
  | streamRecord (q : Fin 3) (batch : List (List Byte))
  /-- COPY_GO (R437): A copy channel GO checks the request and starts the copy. -/
  | copyGo (who : Reader) (c : Fin 2) (v : Word)
  /-- COPY_ABORT (R437): A copy channel ABORT stops the copy at the next 512-byte boundary. -/
  | copyAbort (who : Reader) (c : Fin 2) (v : Word)
  /-- COPY_DONE (R437): A copy completes and writes RESULT. -/
  | copyDone (c : Fin 2) (moved : BitVec 25) (data : List Byte)
  /-- NEGOTIATE (R439): A HOST_NEG write with GO selects the common descriptor major. -/
  | negotiate (who : Reader) (v : Word)
  /-- EV_PEND_CLEAR (R442): A W1C of an event pending bit clears it unless an occurrence falls in the same tick. -/
  | evPendClear (who : Reader) (k : Fin 4) (v : Word)
  /-- MSIX_ENABLE (R441): Enabling MSI-X or returning to D0 sends one message per vector with a routed bit set. -/
  | msixEnable (w : MsixWrite)
  /-- D3HOT (R421): Entry to D3hot stops descriptor taking, host writes and MSI-X messages. -/
  | d3hotEntry
  /-- FUNCTION_LEVEL_RESET (R444): FLR, hot reset, link down or PCIE_PERST_N resets the host function and class F fields. -/
  | functionLevelReset
  /-- PORT_ENABLE (R450): A write of a Tightrope port's EN starts training or returns the port to OFF. -/
  | portEnable (who : Reader) (p : Fin 4) (v : Word)
  /-- BLOCK_LOCK (R450): Lane 0 gains block lock and the port enters LOCK. -/
  | blockLock (p : Fin 4)
  /-- LANE_ALIGN (R450): Lane alignment completes and the port enters HELLO. -/
  | laneAlign (p : Fin 4) (lane1 : Bool)
  /-- LANE1_LOSS (R446): Lane 1 without block lock makes the port run on lane 0 with WIDTH1. -/
  | lane1Loss (p : Fin 4)
  /-- HELLO_SEND (R450): Every 100 µs in HELLO the port sends a HELLO frame. -/
  | helloSend (p : Fin 4)
  /-- HELLO (R451): A received HELLO frame negotiates the protocol and brings the port UP, or sets VERSION or TOPOLOGY. -/
  | helloFrame (p : Fin 4) (h : FrameHead) (b : HelloBody)
  /-- LINK_TIMEOUT (R450): Loss of block lock for 10 µs or 100 µs without a valid frame takes the port out of UP. -/
  | linkTimeout (p : Fin 4) (lockLost : Bool)
  /-- REPLAY_TIMEOUT (R449): 20 µs without ACK progress resends unacknowledged reliable frames, leaving UP after 8 resends. -/
  | replayTimeout (p : Fin 4)
  /-- CREDIT_SEND (R450): At least every 50 µs an UP port sends a CREDIT frame. -/
  | creditSend (p : Fin 4)
  /-- CREDIT (R453): A received CREDIT frame updates the job, block and result credits held toward the peer. -/
  | creditFrame (p : Fin 4) (h : FrameHead) (jobs blocks results : BitVec 32)
  /-- JOB (R456): A received JOB frame admits a job of source 32 or 33, or is discarded as a credit violation. -/
  | jobFrame (p : Fin 4) (h : FrameHead) (body : List Byte)
  /-- RESULT (R228): A received RESULT frame is matched to a FORWARDED slot and relayed, or discarded as late. -/
  | resultFrame (p : Fin 4) (h : FrameHead) (tag : BitVec 32) (record : List Byte)
  /-- CANCEL_FRAME (R456): A received CANCEL frame ends the matching job with ST_ABORT and cancels it onward. -/
  | cancelFrame (p : Fin 4) (h : FrameHead) (tag : BitVec 32)
  /-- MIRROR (R461): A received MIRROR frame is applied as a sky, ionosphere, cycle or time-parameter write. -/
  | mirrorFrame (p : Fin 4) (h : FrameHead) (kind : Byte) (index : BitVec 16) (data : List Byte)
  /-- MIRROR_SEND (R460): A port with MIR_OUT sends due mirrors in priority order. -/
  | mirrorSend (p : Fin 4) (due : MirrorDue)
  /-- HEARTBEAT_SEND (R463): Within 10 µs after each whole millisecond a twin sends a HEARTBEAT frame. -/
  | heartbeatSend
  /-- HEARTBEAT (R463): A received HEARTBEAT frame updates PEER_ROLE and HB_SEQ. -/
  | heartbeatFrame (h : FrameHead) (hbSeq : BitVec 16) (role : Byte)
  /-- HEARTBEAT_CHECK (R464): 20 µs after each millisecond the standby counts a missed heartbeat or resets MISSED. -/
  | heartbeatCheck
  /-- TIME_REQ_SEND (R466): At each 1/16 s boundary a requester sends a TIME_REQ stamped t1. -/
  | timeReqSend (p : Fin 4) (sub : BitVec 44)
  /-- TIME_REQ (R465): A received TIME_REQ is stamped t2 and answered with a TIME_RESP within 2 µs. -/
  | timeReq (p : Fin 4) (h : FrameHead) (exno : BitVec 16) (t1 : BitVec 96) (sub : BitVec 44) (depart : BitVec 52)
  /-- TIME_RESP (R466): A received TIME_RESP is stamped t4 and its offset and delay computed or discarded. -/
  | timeResp (p : Fin 4) (h : FrameHead) (b : TimeResp) (sub : BitVec 44) (peerStepped : Bool)
  /-- TIME_MEASURE (R467): At each whole second the kept exchanges form a measurement for the discipline. -/
  | timeMeasure
  /-- BOOT_BLOCK (R500): A received boot block on a locked, non-UP T0 with TWIN_SERVE set is answered with the booted image. -/
  | bootBlock
  /-- SPIM_GO (R473): A SPIM_CMD_CTRL write with GO checks and queues a command transfer. -/
  | spimGo (who : Reader) (v : Word)
  /-- SPIM_TRANSFER_START (R474): When the bus frees, SPIM starts the next transfer by priority, leaving command-omit mode if needed. -/
  | spimTransferStart
  /-- SPIM_TRANSFER_DONE (R473): A SPIM command transfer completes, clearing BUSY and writing RESULT. -/
  | spimTransferDone (data : List Byte)
  /-- XIP_READ (R476): A read of the execute-in-place window is served from a prefetch line or starts a miss fill. -/
  | xipRead (who : Reader) (a : BitVec 24)
  /-- XIP_FILL_DONE (R476): A line fill completes and the waiting read is served. -/
  | xipFillDone
  /-- SPIM_XIP_WRITE (R476): A write to SPIM_XIP invalidates every prefetch line. -/
  | spimXipWrite (who : Reader) (v : Word)
  /-- REQUEST_SELECT (R479): An SPIS select with header bit 1 queues its units in the receive FIFO and sets REQ_DONE. -/
  | requestSelect (units : List Word) (broken : Bool)
  /-- POLL_SELECT (R479): An SPIS select with header bit 0 shifts out a pending response or busy units. -/
  | pollSelect (units : Byte) (broken : Bool)
  /-- RESP_READY (R480): A SPIS_RESP write with READY commits a response, or is refused with RESP_ERR. -/
  | respReady (who : Reader) (v : Word)
  /-- FLUSH (R480): A SPIS_RESP write with FLUSH discards the pending response and transmit FIFO. -/
  | spisFlush (who : Reader) (v : Word)
  /-- SPIS_TX_WRITE (R480): A write to SPIS_TX queues a transmit unit, or is refused. -/
  | spisTxWrite (who : Reader) (v : Word)
  /-- SPIS_RX_POP (R479): A write of POP removes the oldest SPIS receive unit. -/
  | spisRxPop (who : Reader) (v : Word)
  /-- UART_DIV_WRITE (R483): A write of UA_n_DIV takes effect at the next character start or at once on an idle side. -/
  | uartDivWrite (who : Reader) (n : Fin 2) (v : Word)
  /-- UART_RX_CHAR (R485): A received UART character is stored with its flags, signalled, or dropped with OVERRUN. -/
  | uartRxChar (n : Fin 2) (line : List Bool) (parity framing brk : Formed)
  /-- UART_TX_CHAR (R484): A UART character finishes transmission and the next queued character starts, or UA1 repeats it. -/
  | uartTxChar (n : Fin 2) (card : CardLevels)
  /-- UART_TX_WRITE (R486): A write to UA_n_TX queues a character or sets TX_OVF. -/
  | uartTxWrite (who : Reader) (n : Fin 2) (v : Word)
  /-- UART_RX_POP (R486): A write of POP removes the oldest UART receive entry. -/
  | uartRxPop (who : Reader) (n : Fin 2) (v : Word)
  /-- DE_TAIL (R489): TAIL sixteenths after the last stop bit UA0_DE deasserts. -/
  | deTail
  /-- BOOT (R498): After a reset the boot ROM tries image sources, verifies and applies an image and releases the device. -/
  | bootRom (readErr : BitVec 4) (twin : Option (List Byte)) (ms : BitVec 16) (found : Fin 4)
  /-- PUSH_GO (R501): A PUSH_GO write in recovery boots the image placed in the boot buffer. -/
  | pushGo (who : Reader) (v : Word)
  /-- OTP_PROGRAM (R497): A SEC_OTP_CTRL write with GO starts programming one OTP word, or is refused. -/
  | otpProgram (who : Reader) (v : Word)
  /-- OTP_PROGRAM_DONE (R497): Programming of an OTP word completes after 25 µs. -/
  | otpProgramDone
  /-- ADVANCE (R508): A SEC_RB write with ADVANCE sets the rollback count up to NEW, or is refused. -/
  | rbAdvance (who : Reader) (v : Word)
  /-- REVOKE (R509): A SEC_ROOT write with REVOKE sets a slot's revocation bit, or is refused. -/
  | rootRevoke (who : Reader) (v : Word)
  /-- ATTEST (R512): A SEC_ATT_CTRL write with GO starts signing an attestation report. -/
  | attestGo (who : Reader) (v : Word)
  /-- ATTEST_DONE (R512): The signed report is written to host memory and RESULT set. -/
  | attestDone (written : Bool)
  /-- PU_COMMIT (R515): A write of SEC_PU_n_PERM commits a protection entry with its staged bounds. -/
  | puCommit (who : Reader) (n : Fin 32) (v : Word)
  /-- LC_TRANSITION (R518): An LC_CTRL write with GO requests a lifecycle transition, or is refused. -/
  | lcTransition (who : Reader) (v : Word)
  /-- LC_TRANSITION_DONE (R518): A lifecycle transition completes and the new state applies at once. -/
  | lcTransitionDone
  /-- BYPASS (R521): JTAG instruction BYPASS selects the bypass register. -/
  | jtagBypass
  /-- IDCODE (R521): JTAG instruction IDCODE shifts out the identification code. -/
  | jtagIdcode
  /-- SAMPLE_PRELOAD (R521): JTAG instruction SAMPLE/PRELOAD samples and preloads the boundary scan. -/
  | jtagSamplePreload (pins cells : List Bool)
  /-- EXTEST (R521): JTAG instruction EXTEST drives the boundary at FULL, otherwise acts as BYPASS. -/
  | jtagExtest (pins cells : List Bool)
  /-- NONCE (R521): JTAG instruction NONCE shifts out the serial and debug nonce. -/
  | jtagNonce
  /-- CRED (R523): JTAG instruction CRED shifts in a credential for verification. -/
  | jtagCred (cred : List Byte)
  /-- CRED_VERIFY_DONE (R523): Credential verification ends, opening a session or writing LAST_RESULT. -/
  | credVerifyDone
  /-- ACC (R521): JTAG instruction ACC makes a read or write in a debug session. -/
  | jtagAcc (write space : Bool) (addr data : Word)
  /-- SESSION_EXPIRY (R526): A debug session ends when its expiry is reached on the timebase. -/
  | sessionExpiry
  /-- END (R526): A SEC_DBG_CTRL write of END from Vault mode ends the debug session. -/
  | dbgEnd (who : Reader) (v : Word)
  /-- POWER_STATE_GO (R537): A PWR_CTRL write with GO from SQM Supervisor or Vault requests a power state. -/
  | powerStateGo (who : Reader) (v : Word)
  /-- LEAN_ENTRY_DONE (R538): LEAN entry completes when the last admitted job has written its record. -/
  | leanEntryDone
  /-- BURST_EXIT_DONE (R538): Return from BURST completes when every restored start is granted. -/
  | burstExitDone
  /-- PWR_REQ_GO (R537): A host PWR_REQ write with GO sets REQ_PEND and asserts SQM input 3. -/
  | pwrReqGo (who : Reader) (v : Word)
  /-- REQ_CLR (R537): A write of REQ_CLR clears REQ_PEND. -/
  | reqClr (who : Reader) (v : Word)
  /-- HIBERNATE_ENTRY (R539): Entry to HIBERNATE ends debug, finishes stores, writes backup records and deasserts MAIN_EN. -/
  | hibernateEntry
  /-- HIBERNATE_WAKE (R540): An ALARM, UART, MAINS or RESET_N wake asserts MAIN_EN and leads to main POR. -/
  | hibernateWake (c : WakeCause)
  /-- BACKUP_POR (R530): VBAT below 1.65 V resets the backup and main domains and zeroes backup RAM. -/
  | backupPor
  /-- MAIN_POR (R530): A main supply monitor resets the main domain and the timebase. -/
  | mainPor
  /-- PIN_RESET (R586): An accepted low on RESET_N resets the main domain. -/
  | pinReset
  /-- WDT_KICK (R544): A write of 0x4B to RST_WDT_KICK from an allowed requester restarts the watchdog count. -/
  | wdtKick (who : Reader) (v : Word)
  /-- RST_WDT (R544): EV_031 is raised when half of TIMEOUT passes without a kick. -/
  | rstWdt
  /-- WATCHDOG_RESET (R544): TIMEOUT passing without a kick makes a watchdog reset. -/
  | watchdogReset
  /-- SOFT (R542): A write of RST_CTRL.SOFT from Vault mode makes a Vault soft reset. -/
  | softReset (who : Reader) (v : Word)
  /-- TWIN_CMD (R545): A write of RST_CTRL.TWIN_CMD sends a reset block on T0. -/
  | twinCmd (who : Reader) (v : Word)
  /-- RESET_BLOCK (R545): A received reset block with matching serial makes a twin-commanded reset when enabled. -/
  | resetBlock (serial : BitVec 64)
  /-- XTAL_FAIL (R548): No crystal oscillation for 2 ms clears the backup counter's VALID and sets XTAL_FAIL. -/
  | xtalFail
  /-- PWRFAIL_ASSERT (R552): PWRFAIL_N asserted for DEB µs sets PF and starts the power-fail action. -/
  | pwrfailAssert
  /-- PWRFAIL_DEASSERT (R554): PWRFAIL_N deasserted for DEB µs clears PF and may abandon HIBERNATE entry. -/
  | pwrfailDeassert
  /-- STORE (R555): A PWR_STORE_CTRL write with GO and CMD STORE queues a flash store of KIND. -/
  | storeGo (who : Reader) (v : Word)
  /-- RESTORE (R561): A PWR_STORE_CTRL write with GO and CMD RESTORE copies the newest valid record of KIND back. -/
  | restoreGo (who : Reader) (v : Word)
  /-- STORE_START (R555): A queued store starts when its turn comes if the hold-up energy reaches NEED, or is skipped with ST_ENERGY. -/
  | storeStart (a b c d : BitVec 12)
  /-- STORE_DONE (R559): A flash store finishes programming and verifying its record and writes RESULT. -/
  | storeDone (ok : Bool)
  /-- SLOT_ERASE (R559): The other slot of a stored kind is erased once no store is waiting. -/
  | slotErase
  /-- ROLE_CLAIM (R462): When neither twin is ACTIVE, the device with PREFER 1, or else the higher serial, takes the active role at its next pulse-safe point. -/
  | roleClaim (peerPrefer pin : Bool)
  /-- MSIX_UNMASK (R441): The host clears a vector mask or the function mask and the device sends the messages held in the Pending Bit Array. -/
  | msixUnmask (v : Option (Fin 64))
  /-- LINK_RETRAIN (R444): The PCI Express link retrains, and a retrain below the previous speed or width sets HOST_ERR.LINK and raises EV_007. -/
  | linkRetrain (degraded : Bool)
  /-- WINDOWS_DONE (R254): A job's WINDOWS stage finishes, returns the scratch of unused offsets and enters CORRELATE with its passes ready. -/
  | windowsDone (slot : BitVec 14)
deriving DecidableEq, Repr

end Sys2Proof
end

