-- ==== Sys2Proof/Decode.lean ====
section
/-! DEFINITION. Commands spelled as words: no row of the spec's table gives its command any bits, so no word spells one. -/
namespace Sys2Proof

/-- The command that a word spells by the table's bits: none. -/
def decodeTableWord (_nbits _w : Nat) : Option Instr := none

end Sys2Proof
end

