-- ==== Sys2Proof/Machine/Crc.lean ====
section
/-! DEFINITION. The cyclic redundancy checks of the spec: CRC-32 of IEEE 802.3 (R206) and the CRC-16 of the Hermor frame (R358). -/
namespace Sys2Proof.Machine

/-- One bit of the reflected CRC-32. -/
def crc32Bit (c : BitVec 32) : BitVec 32 := if c.getLsbD 0 then (c >>> 1) ^^^ 0xEDB88320 else c >>> 1

/-- `f` applied `n` times. -/
def times {α : Type} (f : α → α) : Nat → α → α
  | 0, a => a
  | n + 1, a => times f n (f a)

/-- CRC-32 with the IEEE 802.3 polynomial, initial value and final inversion (R206). -/
def crc32 (bs : List (BitVec 8)) : BitVec 32 :=
  ~~~ bs.foldl (fun c b => times crc32Bit 8 (c ^^^ b.setWidth 32)) 0xFFFFFFFF

/-- One bit of the CRC-16. -/
def crc16Bit (c : BitVec 16) : BitVec 16 := if c.msb then (c <<< 1) ^^^ 0x1021 else c <<< 1

/-- CRC-16 with polynomial 0x1021, initial value 0xFFFF and no final inversion (R358). -/
def crc16 (bs : List (BitVec 8)) : BitVec 16 :=
  bs.foldl (fun c b => times crc16Bit 8 (c ^^^ (BitVec.ofNat 16 (b.toNat * 256)))) 0xFFFF

end Sys2Proof.Machine
end

