-- ==== Sys2Proof/Config.lean ====
section
/-! DEFINITION. What the spec leaves to an implementation or leaves open. Free values have no body, so no proof can see
what they are; the numeric engines whose arithmetic the spec states only by its inputs and its accuracy are functions
without a body of the inputs they work on. -/
namespace Sys2Proof.Config

/-- A value the spec leaves undefined or does not state: the `n`-th one drawn (assumption 10). -/
opaque freeValue : Nat → Nat

/-- Whether the primary code store, as its bytes stand, holds the codes of a signal of a satellite (R128): the spec does
not give the store's layout (assumption 30). -/
opaque codeLoaded : (sig sat : Nat) → (store : List (Nat × Byte)) → Bool

/-- The same for the per-satellite secondary codes of a signal (R126, R128) (assumption 30). -/
opaque secLoaded : (sig sat : Nat) → (store : List (Nat × Byte)) → Bool

/-- A chip of a generator code of a satellite at an index of the code, in slots for a TM signal (R126, R128): the interface
specifications give the codes; true for the chip of level −1 (assumption 147). -/
opaque codeChip : (sig sat index : Nat) → Bool

/-- The same for a store code, read from the primary code store as its bytes stand (assumption 30). -/
opaque storeChip : (sig sat : Nat) → (store : List (Nat × Byte)) → (index : Nat) → Bool

/-- A chip of a per-satellite secondary code of the primary code store (R128) (assumption 30). -/
opaque storeSecChip : (sig sat : Nat) → (store : List (Nat × Byte)) → (index : Nat) → Bool

/-- A bit of an LDPC block of a navigation format after a number of iterations of belief propagation, and whether bits are a
codeword (R175): the codes are those of the interface specifications (assumption 153). -/
opaque ldpcBit : (fmt part iter : Nat) → (soft : List Int) → (i : Nat) → Bool
opaque ldpcValid : (fmt part : Nat) → (bits : List Bool) → Bool

/-- A symbol of the BCH codeword of a value of one of the codes of subframe 1 of a CNAV2 or BCNAV1 frame (R175): the codes are
those of the interface specifications (assumption 153). -/
opaque bchSymbol : (code value i : Nat) → Bool

/-- What the sum of a bin's squares is divided by for its power relative to one squared level unit (R110): the spec does not say
how the Hann window is levelled (assumption 148). -/
opaque binScale : Nat

/-- Where within its bound an output of the orbit unit lies about the algorithm's value (R268): of a slot, an instant and a
part of the answer (assumption 31). -/
opaque orbitError : (sat : Nat) → (slot : List Byte) → (t : Rat) → (part : Nat) → Int

/-- A tap of the resampling interpolator, of 32 phases and 8 taps (R235), whose values the spec does not give (assumption 33). -/
opaque resampleTap : (phase tap : Nat) → Int

/-- Where within a unit a lane's rounding of a turned point falls (R234): of the turn, the point and the component (assumption 33). -/
opaque laneError : (turn : Rat) → (i q : Int) → (part : Nat) → Nat

/-- The interpolation of a Sieve peak (R194) from the sums of its cell and of its neighbours: part 0 in code, in 1/16 sample,
part 1 in Doppler, in 1/8 of the bin spacing. The spec states the step, not the fit (assumption 35). -/
opaque sieveFit : (sums : List Nat) → (part : Nat) → Int

/-- Where in its region an item of OTP lies that the spec places by region only (R496) (assumption 172). -/
opaque otpPlace : (item : Nat) → Nat

/-- The 58 bits that a port's lane carried before the n-th output, a frame, the blocks since its latest alignment marker, and a
marker's payload, which carries the lane number in a form the spec does not give (R445) (assumption 171). -/
opaque laneHistory : (port lane n : Nat) → Nat
opaque laneCount : (port lane n : Nat) → Nat
opaque laneMarker : (lane : Nat) → Nat

/-- HashSLH-DSA verification under FIPS 205 with SHA-256 as the pre-hash (R507): parameter set, public key, digest and
signature. The spec names the standard, not its arithmetic (assumption 38). -/
opaque slhVerify : (param : Nat) → (pk digest sig : List Byte) → Bool

/-- The identity key's SLH-DSA-SHA2-128f (R510): PK.root of the three seeds as a number, and the signature of a message
(assumption 38). -/
opaque slhRoot : (seeds : List (List Byte)) → Nat
opaque slhSign : (seeds : List (List Byte)) → (message : List Byte) → Nat

/-- A byte of the boot ROM (R426), whose contents the spec does not give (assumption 39). -/
opaque romByte : (offset : Nat) → Nat

end Sys2Proof.Config
end

