-- ==== Sys2Proof/Machine/Fields.lean ====
section
/-! DEFINITION. The names of the registers' fields, one constant each: the BAR 0 offset of the field's register and its bits,
from the register tables of the chapters. A constant of an indexed register takes its indices as arguments. -/
namespace Sys2Proof.Machine

/-- A register field: the BAR 0 offset of its register and its bits `hi:lo`. -/
structure Fld where
  off : Nat
  hi : Nat
  lo : Nat
deriving DecidableEq, Repr

/-- Width of a field in bits. -/
abbrev Fld.w (f : Fld) : Nat := f.hi + 1 - f.lo

namespace F

abbrev DEV_ID_PART : Fld := ⟨0x0, 31, 16⟩
abbrev DEV_ID_STEP : Fld := ⟨0x0, 15, 8⟩
abbrev DEV_SERIAL_LO_SER_LO : Fld := ⟨0x4, 31, 0⟩
abbrev DEV_SERIAL_HI_SER_HI : Fld := ⟨0x8, 31, 0⟩
abbrev DEV_STATUS_READY : Fld := ⟨0xc, 31, 31⟩
abbrev DEV_STATUS_PSTATE : Fld := ⟨0xc, 30, 28⟩
abbrev DEV_STATUS_LC : Fld := ⟨0xc, 27, 25⟩
abbrev DEV_STATUS_BOOT_MS : Fld := ⟨0xc, 15, 0⟩
abbrev DEV_IF_VER_TRP : Fld := ⟨0x10, 31, 16⟩
abbrev DEV_IF_VER_HERMOR : Fld := ⟨0x10, 15, 8⟩
abbrev DEV_IF_VER_IMAGE : Fld := ⟨0x10, 7, 0⟩
abbrev MSIX_ADDR_LO_ADDR (v : Nat) : Fld := ⟨0x8000 + 0x10 * v, 31, 0⟩
abbrev MSIX_ADDR_HI_ADDR (v : Nat) : Fld := ⟨0x8004 + 0x10 * v, 31, 0⟩
abbrev MSIX_DATA_DATA (v : Nat) : Fld := ⟨0x8008 + 0x10 * v, 31, 0⟩
abbrev MSIX_CTL_MASK (v : Nat) : Fld := ⟨0x800c + 0x10 * v, 0, 0⟩
abbrev MSIX_PBA_PEND (k : Nat) : Fld := ⟨0x9000 + 0x4 * k, 31, 0⟩
abbrev TB_NOW_FRAC_FRAC : Fld := ⟨0x10000, 31, 0⟩
abbrev TB_NOW_SEC_LO_SEC_LO : Fld := ⟨0x10004, 31, 0⟩
abbrev TB_NOW_SEC_HI_SEC_HI : Fld := ⟨0x10008, 15, 0⟩
abbrev TB_VIEW_FRAC_FRAC : Fld := ⟨0x1000c, 31, 0⟩
abbrev TB_VIEW_SEC_LO_SEC_LO : Fld := ⟨0x10010, 31, 0⟩
abbrev TB_VIEW_SEC_HI_LEAP : Fld := ⟨0x10014, 31, 31⟩
abbrev TB_VIEW_SEC_HI_SEC_HI : Fld := ⟨0x10014, 15, 0⟩
abbrev TB_VIEW_SEL_SEL : Fld := ⟨0x10018, 1, 0⟩
abbrev TB_STATUS_STEP_SEQ : Fld := ⟨0x10020, 31, 24⟩
abbrev TB_STATUS_SOURCE : Fld := ⟨0x10020, 23, 20⟩
abbrev TB_STATUS_VALID : Fld := ⟨0x10020, 19, 19⟩
abbrev TB_STATUS_REF_LOST : Fld := ⟨0x10020, 18, 18⟩
abbrev TB_STATUS_COARSE : Fld := ⟨0x10020, 17, 17⟩
abbrev TB_STATUS_STEP_ARMED : Fld := ⟨0x10020, 16, 16⟩
abbrev TB_STATUS_LEAP_ARMED : Fld := ⟨0x10020, 15, 15⟩
abbrev TB_CTRL_LOCK : Fld := ⟨0x10024, 31, 31⟩
abbrev TB_CTRL_HOST_WRITE_EN : Fld := ⟨0x10024, 0, 0⟩
abbrev TB_RATE_RATE : Fld := ⟨0x10028, 31, 0⟩
abbrev TB_STEP_FRAC_FRAC : Fld := ⟨0x10030, 31, 0⟩
abbrev TB_STEP_SEC_SEC_LO : Fld := ⟨0x10034, 31, 0⟩
abbrev TB_STEP_CMD_STEP_SEC_HI : Fld := ⟨0x10038, 31, 16⟩
abbrev TB_STEP_CMD_SOURCE : Fld := ⟨0x10038, 15, 12⟩
abbrev TB_STEP_CMD_CANCEL : Fld := ⟨0x10038, 2, 2⟩
abbrev TB_STEP_CMD_ARM_NOW : Fld := ⟨0x10038, 1, 1⟩
abbrev TB_STEP_CMD_ARM_SECOND : Fld := ⟨0x10038, 0, 0⟩
abbrev TB_OFS_SYS_BDT_RES : Fld := ⟨0x10040, 31, 16⟩
abbrev TB_OFS_SYS_GST_OFS : Fld := ⟨0x10040, 15, 0⟩
abbrev TB_LEAP_UTC_RES : Fld := ⟨0x10044, 31, 16⟩
abbrev TB_LEAP_NEXT : Fld := ⟨0x10044, 15, 8⟩
abbrev TB_LEAP_CUR : Fld := ⟨0x10044, 7, 0⟩
abbrev TB_LEAP_AT_AT_SEC : Fld := ⟨0x10048, 31, 0⟩
abbrev TB_EVT_CTRL_POP (n : Nat) : Fld := ⟨0x10100 + 0x20 * n, 31, 31⟩
abbrev TB_EVT_CTRL_OVERRUN (n : Nat) : Fld := ⟨0x10100 + 0x20 * n, 30, 30⟩
abbrev TB_EVT_CTRL_MISSED (n : Nat) : Fld := ⟨0x10100 + 0x20 * n, 29, 29⟩
abbrev TB_EVT_CTRL_COUNT (n : Nat) : Fld := ⟨0x10100 + 0x20 * n, 11, 8⟩
abbrev TB_EVT_CTRL_EDGE (n : Nat) : Fld := ⟨0x10100 + 0x20 * n, 1, 0⟩
abbrev TB_EVT_TS0_SUB (n : Nat) : Fld := ⟨0x10104 + 0x20 * n, 31, 16⟩
abbrev TB_EVT_TS0_VALID (n : Nat) : Fld := ⟨0x10104 + 0x20 * n, 15, 15⟩
abbrev TB_EVT_TS0_REF_LOST (n : Nat) : Fld := ⟨0x10104 + 0x20 * n, 14, 14⟩
abbrev TB_EVT_TS0_RISING (n : Nat) : Fld := ⟨0x10104 + 0x20 * n, 13, 13⟩
abbrev TB_EVT_TS0_PRESENT (n : Nat) : Fld := ⟨0x10104 + 0x20 * n, 12, 12⟩
abbrev TB_EVT_TS0_STEP_SEQ (n : Nat) : Fld := ⟨0x10104 + 0x20 * n, 7, 4⟩
abbrev TB_EVT_TS1_FRAC (n : Nat) : Fld := ⟨0x10108 + 0x20 * n, 31, 0⟩
abbrev TB_EVT_TS2_SEC_LO (n : Nat) : Fld := ⟨0x1010c + 0x20 * n, 31, 0⟩
abbrev TB_EVT_TS3_SEC_HI (n : Nat) : Fld := ⟨0x10110 + 0x20 * n, 15, 0⟩
abbrev TT_STATUS_ARMED_CNT : Fld := ⟨0x10200, 31, 19⟩
abbrev TT_STATUS_DROP : Fld := ⟨0x10200, 1, 1⟩
abbrev TT_STATUS_LATE : Fld := ⟨0x10200, 0, 0⟩
abbrev TT_PORT_CTRL_BUSY : Fld := ⟨0x10204, 31, 31⟩
abbrev TT_PORT_CTRL_RESULT : Fld := ⟨0x10204, 23, 16⟩
abbrev TT_PORT_CTRL_CMD : Fld := ⟨0x10204, 13, 12⟩
abbrev TT_PORT_CTRL_INDEX : Fld := ⟨0x10204, 11, 0⟩
abbrev TT_PORT_W_WORD (k : Nat) : Fld := ⟨0x10208 + 0x4 * k, 31, 0⟩
abbrev TT_CLASS_WEIGHT_WEIGHT (n : Nat) : Fld := ⟨0x10240 + 0x4 * n, 7, 0⟩
abbrev TP_CTRL_DISC_EN : Fld := ⟨0x10400, 31, 31⟩
abbrev TP_CTRL_STEER : Fld := ⟨0x10400, 30, 30⟩
abbrev TP_CTRL_EXP_SQUELCH : Fld := ⟨0x10400, 29, 29⟩
abbrev TP_CTRL_FREE_OUT : Fld := ⟨0x10400, 28, 28⟩
abbrev TP_CTRL_SRC : Fld := ⟨0x10400, 23, 20⟩
abbrev TP_CTRL_ACQ_N : Fld := ⟨0x10400, 19, 16⟩
abbrev TP_CTRL_LOSS_T : Fld := ⟨0x10400, 15, 8⟩
abbrev TP_STEP_CFG_STEP_NOTICE : Fld := ⟨0x10404, 31, 24⟩
abbrev TP_STEP_CFG_SLEW_MAX : Fld := ⟨0x10404, 23, 16⟩
abbrev TP_STEP_CFG_STEP_LIMIT : Fld := ⟨0x10404, 15, 0⟩
abbrev TP_LOOP_CFG_TAU_F : Fld := ⟨0x10408, 31, 16⟩
abbrev TP_LOOP_CFG_TAU_P : Fld := ⟨0x10408, 15, 8⟩
abbrev TP_UNC_CFG_BURST_FLOOR : Fld := ⟨0x1040c, 31, 24⟩
abbrev TP_UNC_CFG_UNC_FLOOR : Fld := ⟨0x1040c, 23, 16⟩
abbrev TP_UNC_CFG_F_FLOOR : Fld := ⟨0x1040c, 15, 0⟩
abbrev TP_SG_CFG_REF_A : Fld := ⟨0x10410, 23, 16⟩
abbrev TP_SG_CFG_SG_A : Fld := ⟨0x10410, 15, 0⟩
abbrev TP_SG_B_SG_B : Fld := ⟨0x10414, 31, 0⟩
abbrev TP_HOLD_CFG_EXPIRY : Fld := ⟨0x10418, 23, 0⟩
abbrev TP_STATUS_LEVEL : Fld := ⟨0x10420, 31, 30⟩
abbrev TP_STATUS_STEP_PENDING : Fld := ⟨0x10420, 29, 29⟩
abbrev TP_STATUS_ACTIVE : Fld := ⟨0x10420, 28, 28⟩
abbrev TP_STATUS_BURST : Fld := ⟨0x10420, 27, 27⟩
abbrev TP_STATUS_SQUELCHED : Fld := ⟨0x10420, 26, 26⟩
abbrev TP_STATUS_LIMIT : Fld := ⟨0x10420, 25, 25⟩
abbrev TP_STATUS_SUPPRESSED : Fld := ⟨0x10420, 24, 24⟩
abbrev TP_STATUS_FOUT_LIMIT : Fld := ⟨0x10420, 23, 23⟩
abbrev TP_STATUS_CFG_ERR : Fld := ⟨0x10420, 22, 22⟩
abbrev TP_STATUS_TAKEOVER : Fld := ⟨0x10420, 21, 21⟩
abbrev TP_STATUS_YIELDED : Fld := ⟨0x10420, 20, 20⟩
abbrev TP_STATUS_SRC_ACT : Fld := ⟨0x10420, 19, 16⟩
abbrev TP_OFFSET_LO_OFS_LO : Fld := ⟨0x10428, 31, 0⟩
abbrev TP_OFFSET_HI_OFS_HI : Fld := ⟨0x1042c, 31, 0⟩
abbrev TP_UNC_UNC : Fld := ⟨0x10430, 31, 0⟩
abbrev TP_FUNC_FUNC : Fld := ⟨0x10434, 31, 0⟩
abbrev TP_HOLD_T_T : Fld := ⟨0x10438, 31, 0⟩
abbrev TP_OCXO_TUNE : Fld := ⟨0x10440, 19, 0⟩
abbrev TP_OCXO_K_K : Fld := ⟨0x10444, 31, 0⟩
abbrev TP_CFG_OE (n : Nat) : Fld := ⟨0x10480 + 0x10 * n, 31, 30⟩
abbrev TP_CFG_POL (n : Nat) : Fld := ⟨0x10480 + 0x10 * n, 29, 29⟩
abbrev TP_WIDTH_WIDTH (n : Nat) : Fld := ⟨0x10484 + 0x10 * n, 23, 0⟩
abbrev TP_DELAY_DELAY (n : Nat) : Fld := ⟨0x10488 + 0x10 * n, 31, 0⟩
abbrev TP_STAT_SUPP_CNT (n : Nat) : Fld := ⟨0x1048c + 0x10 * n, 31, 16⟩
abbrev TP_STAT_PULSES (n : Nat) : Fld := ⟨0x1048c + 0x10 * n, 15, 0⟩
abbrev TP_FOUT_CFG_BURST_ON : Fld := ⟨0x104a0, 31, 31⟩
abbrev TP_FOUT_CFG_FOLLOW : Fld := ⟨0x104a0, 30, 30⟩
abbrev TP_FOUT_CFG_DIV : Fld := ⟨0x104a0, 11, 0⟩
abbrev CK_CFG_AUTO_RETURN : Fld := ⟨0x20000, 31, 31⟩
abbrev CK_CFG_MISS_N : Fld := ⟨0x20000, 19, 16⟩
abbrev CK_CFG_PHASE_N : Fld := ⟨0x20000, 15, 12⟩
abbrev CK_CFG_PHASE_TH : Fld := ⟨0x20000, 11, 4⟩
abbrev CK_CFG_REF_SEL : Fld := ⟨0x20000, 1, 0⟩
abbrev CK_CTRL_RETURN : Fld := ⟨0x20004, 0, 0⟩
abbrev CK_STATUS_STATE : Fld := ⟨0x20008, 31, 29⟩
abbrev CK_STATUS_CORE_HOLD : Fld := ⟨0x20008, 28, 28⟩
abbrev CK_STATUS_REF_LOST : Fld := ⟨0x20008, 27, 27⟩
abbrev CK_STATUS_COARSE : Fld := ⟨0x20008, 26, 26⟩
abbrev CK_STATUS_TSYN_LOCK : Fld := ⟨0x20008, 25, 25⟩
abbrev CK_STATUS_NO_REF : Fld := ⟨0x20008, 24, 24⟩
abbrev CK_STATUS_TSYN_FAULT : Fld := ⟨0x20008, 23, 23⟩
abbrev CK_STATUS_QUAL_FAIL : Fld := ⟨0x20008, 22, 22⟩
abbrev CK_STATUS_DIV_REFUSED : Fld := ⟨0x20008, 21, 21⟩
abbrev CK_STATUS_LOSS_MISS : Fld := ⟨0x20008, 20, 20⟩
abbrev CK_STATUS_LOSS_PHASE : Fld := ⟨0x20008, 19, 19⟩
abbrev CK_STATUS_LOSS_AMP : Fld := ⟨0x20008, 18, 18⟩
abbrev CK_STATUS_LOSS_CNT : Fld := ⟨0x20008, 15, 0⟩
abbrev CK_REF_MEAS_ERR : Fld := ⟨0x2000c, 31, 0⟩
abbrev CK_JUMP_PHASE : Fld := ⟨0x20010, 15, 0⟩
abbrev CK_DIV_NEXT_SPIM : Fld := ⟨0x20014, 31, 24⟩
abbrev CK_DIV_NEXT_PER : Fld := ⟨0x20014, 23, 16⟩
abbrev CK_DIV_NEXT_FAB : Fld := ⟨0x20014, 15, 8⟩
abbrev CK_DIV_NEXT_SEQ : Fld := ⟨0x20014, 7, 0⟩
abbrev CK_DIV_NOW_SPIM : Fld := ⟨0x20018, 31, 24⟩
abbrev CK_DIV_NOW_PER : Fld := ⟨0x20018, 23, 16⟩
abbrev CK_DIV_NOW_FAB : Fld := ⟨0x20018, 15, 8⟩
abbrev CK_DIV_NOW_SEQ : Fld := ⟨0x20018, 7, 0⟩
abbrev CK_DIV_COMMIT_GO : Fld := ⟨0x2001c, 31, 31⟩
abbrev CK_DIV_COMMIT_PEND : Fld := ⟨0x2001c, 30, 30⟩
abbrev GRF_CH_CTRL_PROFILE (x : Nat) : Fld := ⟨0x30000 + 0x100 * x, 9, 8⟩
abbrev GRF_CH_CTRL_TARGET (x : Nat) : Fld := ⟨0x30000 + 0x100 * x, 1, 0⟩
abbrev GRF_CH_STATUS_FAULT (x : Nat) : Fld := ⟨0x30004 + 0x100 * x, 15, 15⟩
abbrev GRF_CH_STATUS_LOCK_LOST (x : Nat) : Fld := ⟨0x30004 + 0x100 * x, 14, 14⟩
abbrev GRF_CH_STATUS_REFUSED (x : Nat) : Fld := ⟨0x30004 + 0x100 * x, 13, 13⟩
abbrev GRF_CH_STATUS_LATE_OPEN (x : Nat) : Fld := ⟨0x30004 + 0x100 * x, 12, 12⟩
abbrev GRF_CH_STATUS_LOCKED (x : Nat) : Fld := ⟨0x30004 + 0x100 * x, 11, 11⟩
abbrev GRF_CH_STATUS_IN_WINDOW (x : Nat) : Fld := ⟨0x30004 + 0x100 * x, 10, 10⟩
abbrev GRF_CH_STATUS_PROFILE_ACT (x : Nat) : Fld := ⟨0x30004 + 0x100 * x, 9, 8⟩
abbrev GRF_CH_STATUS_BUSY (x : Nat) : Fld := ⟨0x30004 + 0x100 * x, 7, 7⟩
abbrev GRF_CH_STATUS_STATE (x : Nat) : Fld := ⟨0x30004 + 0x100 * x, 2, 0⟩
abbrev GRF_CH_ANT_CFG_RETRY_MAX (x : Nat) : Fld := ⟨0x30008 + 0x100 * x, 31, 24⟩
abbrev GRF_CH_ANT_CFG_RETRY_INT (x : Nat) : Fld := ⟨0x30008 + 0x100 * x, 23, 16⟩
abbrev GRF_CH_ANT_CFG_SHORT_TH (x : Nat) : Fld := ⟨0x30008 + 0x100 * x, 15, 8⟩
abbrev GRF_CH_ANT_CFG_OPEN_TH (x : Nat) : Fld := ⟨0x30008 + 0x100 * x, 7, 2⟩
abbrev GRF_CH_ANT_CFG_BIAS_MODE (x : Nat) : Fld := ⟨0x30008 + 0x100 * x, 1, 0⟩
abbrev GRF_CH_ANT_STAT_CURRENT (x : Nat) : Fld := ⟨0x3000c + 0x100 * x, 25, 16⟩
abbrev GRF_CH_ANT_STAT_RETRIES (x : Nat) : Fld := ⟨0x3000c + 0x100 * x, 15, 8⟩
abbrev GRF_CH_ANT_STAT_STATE (x : Nat) : Fld := ⟨0x3000c + 0x100 * x, 2, 0⟩
abbrev GRF_CH_PROF_LO_N_INT (x : Nat) (n : Nat) : Fld := ⟨0x30020 + 0x100 * x + 0x10 * n, 27, 24⟩
abbrev GRF_CH_PROF_LO_N_FRAC (x : Nat) (n : Nat) : Fld := ⟨0x30020 + 0x100 * x + 0x10 * n, 23, 0⟩
abbrev GRF_CH_PROF_CFG_DELAY_PS (x : Nat) (n : Nat) : Fld := ⟨0x30024 + 0x100 * x + 0x10 * n, 31, 12⟩
abbrev GRF_CH_PROF_CFG_IF_BW (x : Nat) (n : Nat) : Fld := ⟨0x30024 + 0x100 * x + 0x10 * n, 1, 0⟩
abbrev GRF_CH_PROF_CAL_CAL_TEMP (x : Nat) (n : Nat) : Fld := ⟨0x30028 + 0x100 * x + 0x10 * n, 31, 24⟩
abbrev GRF_CH_PROF_CAL_CAL_VALID (x : Nat) (n : Nat) : Fld := ⟨0x30028 + 0x100 * x + 0x10 * n, 16, 16⟩
abbrev GRF_CH_PROF_CAL_STALE (x : Nat) (n : Nat) : Fld := ⟨0x30028 + 0x100 * x + 0x10 * n, 15, 15⟩
abbrev GRF_CH_PROF_CAL_CAL_PEND (x : Nat) (n : Nat) : Fld := ⟨0x30028 + 0x100 * x + 0x10 * n, 14, 14⟩
abbrev GRF_CH_PROF_CAL_CAL_FAILED (x : Nat) (n : Nat) : Fld := ⟨0x30028 + 0x100 * x + 0x10 * n, 13, 13⟩
abbrev GRF_CH_PROF_CAL_KVCO_TRIM (x : Nat) (n : Nat) : Fld := ⟨0x30028 + 0x100 * x + 0x10 * n, 12, 8⟩
abbrev GRF_CH_PROF_CAL_VCO_BAND (x : Nat) (n : Nat) : Fld := ⟨0x30028 + 0x100 * x + 0x10 * n, 6, 0⟩
abbrev GRF_BURST_CTRL_HOP_CHAIN : Fld := ⟨0x30800, 9, 8⟩
abbrev GRF_BURST_CTRL_GAP_STATE : Fld := ⟨0x30800, 5, 4⟩
abbrev GRF_BURST_CTRL_AUTO_CAL : Fld := ⟨0x30800, 3, 3⟩
abbrev GRF_BURST_CTRL_SEG_COUNT : Fld := ⟨0x30800, 2, 0⟩
abbrev GRF_BURST_SEG_PROFILE (n : Nat) : Fld := ⟨0x30810 + 0x4 * n, 17, 16⟩
abbrev GRF_BURST_SEG_DUR (n : Nat) : Fld := ⟨0x30810 + 0x4 * n, 15, 0⟩
abbrev GRF_CAL_CTRL_GO : Fld := ⟨0x30820, 31, 31⟩
abbrev GRF_CAL_CTRL_TARGET : Fld := ⟨0x30820, 7, 0⟩
abbrev GRF_CAL_STATUS_ACTIVE : Fld := ⟨0x30824, 24, 24⟩
abbrev GRF_CAL_STATUS_LAST_RESULT : Fld := ⟨0x30824, 23, 16⟩
abbrev GRF_CAL_STATUS_PEND_MASK : Fld := ⟨0x30824, 15, 0⟩
abbrev IFC_CH_AGC_CFG_MODE (x : Nat) : Fld := ⟨0x40000 + 0x200 * x, 25, 24⟩
abbrev IFC_CH_AGC_CFG_MAX_STEP (x : Nat) : Fld := ⟨0x40000 + 0x200 * x, 18, 16⟩
abbrev IFC_CH_AGC_CFG_TARGET (x : Nat) : Fld := ⟨0x40000 + 0x200 * x, 12, 8⟩
abbrev IFC_CH_AGC_CFG_MAN_GAIN (x : Nat) : Fld := ⟨0x40000 + 0x200 * x, 5, 0⟩
abbrev IFC_CH_AGC_STAT_MEAN (x : Nat) : Fld := ⟨0x40004 + 0x200 * x, 23, 16⟩
abbrev IFC_CH_AGC_STAT_CLIP (x : Nat) : Fld := ⟨0x40004 + 0x200 * x, 13, 13⟩
abbrev IFC_CH_AGC_STAT_NO_DATA (x : Nat) : Fld := ⟨0x40004 + 0x200 * x, 12, 12⟩
abbrev IFC_CH_AGC_STAT_GAIN (x : Nat) : Fld := ⟨0x40004 + 0x200 * x, 5, 0⟩
abbrev IFC_CH_PGAIN_P3 (x : Nat) : Fld := ⟨0x40008 + 0x200 * x, 29, 24⟩
abbrev IFC_CH_PGAIN_P2 (x : Nat) : Fld := ⟨0x40008 + 0x200 * x, 21, 16⟩
abbrev IFC_CH_PGAIN_P1 (x : Nat) : Fld := ⟨0x40008 + 0x200 * x, 13, 8⟩
abbrev IFC_CH_PGAIN_P0 (x : Nat) : Fld := ⟨0x40008 + 0x200 * x, 5, 0⟩
abbrev IFC_CH_BLANK_CFG_EN (x : Nat) : Fld := ⟨0x40010 + 0x200 * x, 31, 31⟩
abbrev IFC_CH_BLANK_CFG_PRE (x : Nat) : Fld := ⟨0x40010 + 0x200 * x, 27, 24⟩
abbrev IFC_CH_BLANK_CFG_LEN (x : Nat) : Fld := ⟨0x40010 + 0x200 * x, 23, 16⟩
abbrev IFC_CH_BLANK_CFG_SAT_RATIO (x : Nat) : Fld := ⟨0x40010 + 0x200 * x, 15, 8⟩
abbrev IFC_CH_BLANK_CFG_TH (x : Nat) : Fld := ⟨0x40010 + 0x200 * x, 3, 0⟩
abbrev IFC_CH_BLANK_STAT_SUSPENDED (x : Nat) : Fld := ⟨0x40014 + 0x200 * x, 18, 18⟩
abbrev IFC_CH_BLANK_STAT_SATURATED (x : Nat) : Fld := ⟨0x40014 + 0x200 * x, 17, 17⟩
abbrev IFC_CH_BLANK_STAT_COUNT (x : Nat) : Fld := ⟨0x40014 + 0x200 * x, 16, 0⟩
abbrev IFC_CH_JAM_CFG_HYST (x : Nat) : Fld := ⟨0x40018 + 0x200 * x, 31, 26⟩
abbrev IFC_CH_JAM_CFG_ALARM (x : Nat) : Fld := ⟨0x40018 + 0x200 * x, 25, 16⟩
abbrev IFC_CH_JAM_CFG_GAIN_REF (x : Nat) : Fld := ⟨0x40018 + 0x200 * x, 15, 10⟩
abbrev IFC_CH_JAM_CFG_WARN (x : Nat) : Fld := ⟨0x40018 + 0x200 * x, 9, 0⟩
abbrev IFC_CH_JAM_STAT_LEARN (x : Nat) : Fld := ⟨0x4001c + 0x200 * x, 31, 31⟩
abbrev IFC_CH_JAM_STAT_LEARN_BUSY (x : Nat) : Fld := ⟨0x4001c + 0x200 * x, 30, 30⟩
abbrev IFC_CH_JAM_STAT_STATE (x : Nat) : Fld := ⟨0x4001c + 0x200 * x, 17, 16⟩
abbrev IFC_CH_JAM_STAT_JN (x : Nat) : Fld := ⟨0x4001c + 0x200 * x, 10, 0⟩
abbrev IFC_CH_NOTCH_CFG_AUTO (x : Nat) : Fld := ⟨0x40020 + 0x200 * x, 31, 31⟩
abbrev IFC_CH_NOTCH_CFG_NOTCH_FULL (x : Nat) : Fld := ⟨0x40020 + 0x200 * x, 30, 30⟩
abbrev IFC_CH_NOTCH_CFG_W (x : Nat) : Fld := ⟨0x40020 + 0x200 * x, 26, 24⟩
abbrev IFC_CH_NOTCH_CFG_RELEASE_T (x : Nat) : Fld := ⟨0x40020 + 0x200 * x, 23, 16⟩
abbrev IFC_CH_NOTCH_CFG_DETECT_TH (x : Nat) : Fld := ⟨0x40020 + 0x200 * x, 7, 0⟩
abbrev IFC_CH_NOTCH_CTRL_ACTIVE (x : Nat) (n : Nat) : Fld := ⟨0x40040 + 0x200 * x + 0x8 * n, 31, 31⟩
abbrev IFC_CH_NOTCH_CTRL_LEVEL (x : Nat) (n : Nat) : Fld := ⟨0x40040 + 0x200 * x + 0x8 * n, 23, 16⟩
abbrev IFC_CH_NOTCH_CTRL_PROF (x : Nat) (n : Nat) : Fld := ⟨0x40040 + 0x200 * x + 0x8 * n, 9, 8⟩
abbrev IFC_CH_NOTCH_CTRL_MODE (x : Nat) (n : Nat) : Fld := ⟨0x40040 + 0x200 * x + 0x8 * n, 1, 0⟩
abbrev IFC_CH_NOTCH_FREQ_FREQ (x : Nat) (n : Nat) : Fld := ⟨0x40044 + 0x200 * x + 0x8 * n, 31, 0⟩
abbrev IFC_CH_SPEC_CTRL_SEQ (x : Nat) : Fld := ⟨0x40080 + 0x200 * x, 31, 16⟩
abbrev IFC_CH_SPEC_CTRL_FREEZE (x : Nat) : Fld := ⟨0x40080 + 0x200 * x, 8, 8⟩
abbrev IFC_CH_SPEC_CTRL_AVG (x : Nat) : Fld := ⟨0x40080 + 0x200 * x, 7, 4⟩
abbrev IFC_CH_SPEC_CTRL_TAP (x : Nat) : Fld := ⟨0x40080 + 0x200 * x, 1, 1⟩
abbrev IFC_CH_SPEC_CTRL_EN (x : Nat) : Fld := ⟨0x40080 + 0x200 * x, 0, 0⟩
abbrev IFC_FSM_CFG_GATE_MODE : Fld := ⟨0x40800, 31, 30⟩
abbrev IFC_FSM_CFG_ROOT_OK : Fld := ⟨0x40800, 29, 29⟩
abbrev IFC_FSM_CFG_EN_OSNMA : Fld := ⟨0x40800, 28, 28⟩
abbrev IFC_FSM_CFG_EN_XB : Fld := ⟨0x40800, 27, 27⟩
abbrev IFC_FSM_CFG_EN_CLK : Fld := ⟨0x40800, 26, 26⟩
abbrev IFC_FSM_CFG_EN_DOP : Fld := ⟨0x40800, 25, 25⟩
abbrev IFC_FSM_CFG_EN_PWR : Fld := ⟨0x40800, 24, 24⟩
abbrev IFC_FSM_CFG_CLEAR_T : Fld := ⟨0x40800, 23, 16⟩
abbrev IFC_FSM_CFG_OSNMA_AGE : Fld := ⟨0x40800, 15, 8⟩
abbrev IFC_FSM_CFG_ALERT_N : Fld := ⟨0x40800, 7, 0⟩
abbrev IFC_FSM_TH_PWR_CN0_TH : Fld := ⟨0x40804, 31, 24⟩
abbrev IFC_FSM_TH_PWR_JN_TH : Fld := ⟨0x40804, 23, 16⟩
abbrev IFC_FSM_TH_DOP_TH : Fld := ⟨0x40804, 15, 10⟩
abbrev IFC_FSM_TH_XB_TH : Fld := ⟨0x40804, 9, 4⟩
abbrev IFC_FSM_TH_CLK_TH : Fld := ⟨0x40804, 3, 0⟩
abbrev IFC_FSM_STAT_ALERT : Fld := ⟨0x40808, 31, 31⟩
abbrev IFC_FSM_STAT_CLOCK : Fld := ⟨0x40808, 30, 30⟩
abbrev IFC_FSM_STAT_SUSPECT_CNT : Fld := ⟨0x40808, 23, 16⟩
abbrev IFC_FSM_STAT_TRUSTED_CNT : Fld := ⟨0x40808, 15, 8⟩
abbrev IFC_FSM_STAT_PWR_CHAINS : Fld := ⟨0x40808, 3, 0⟩
abbrev IFC_FSM_SAT_CLEAR (n : Nat) : Fld := ⟨0x40c00 + 0x4 * n, 31, 31⟩
abbrev IFC_FSM_SAT_OSNMA (n : Nat) : Fld := ⟨0x40c00 + 0x4 * n, 25, 24⟩
abbrev IFC_FSM_SAT_OSNMA_SEC (n : Nat) : Fld := ⟨0x40c00 + 0x4 * n, 23, 16⟩
abbrev IFC_FSM_SAT_PWR (n : Nat) : Fld := ⟨0x40c00 + 0x4 * n, 11, 11⟩
abbrev IFC_FSM_SAT_XB (n : Nat) : Fld := ⟨0x40c00 + 0x4 * n, 10, 10⟩
abbrev IFC_FSM_SAT_DOP (n : Nat) : Fld := ⟨0x40c00 + 0x4 * n, 9, 9⟩
abbrev IFC_FSM_SAT_VERDICT (n : Nat) : Fld := ⟨0x40c00 + 0x4 * n, 1, 0⟩
abbrev IFC_CH_SPEC_BIN_BIN_ODD (x : Nat) (j : Nat) : Fld := ⟨0x41000 + 0x1000 * x + 0x4 * j, 31, 16⟩
abbrev IFC_CH_SPEC_BIN_BIN_EVEN (x : Nat) (j : Nat) : Fld := ⟨0x41000 + 0x1000 * x + 0x4 * j, 15, 0⟩
abbrev BCN_CFG_EN : Fld := ⟨0x50000, 31, 31⟩
abbrev BCN_CFG_BURST_TX : Fld := ⟨0x50000, 30, 30⟩
abbrev BCN_CFG_PA_MODE : Fld := ⟨0x50000, 29, 29⟩
abbrev BCN_CFG_AUTO_TUNE : Fld := ⟨0x50000, 28, 28⟩
abbrev BCN_CFG_AUTO_CAL : Fld := ⟨0x50000, 27, 27⟩
abbrev BCN_CFG_PA_GAIN : Fld := ⟨0x50000, 7, 0⟩
abbrev BCN_CTRL_CHAN : Fld := ⟨0x50004, 13, 8⟩
abbrev BCN_CTRL_TARGET : Fld := ⟨0x50004, 1, 0⟩
abbrev BCN_STATUS_CAL_RESULT : Fld := ⟨0x50008, 31, 24⟩
abbrev BCN_STATUS_REFUSED : Fld := ⟨0x50008, 23, 23⟩
abbrev BCN_STATUS_MISMATCH : Fld := ⟨0x50008, 22, 22⟩
abbrev BCN_STATUS_PWR_LIMIT : Fld := ⟨0x50008, 21, 21⟩
abbrev BCN_STATUS_OVERPWR : Fld := ⟨0x50008, 20, 20⟩
abbrev BCN_STATUS_HELD : Fld := ⟨0x50008, 19, 19⟩
abbrev BCN_STATUS_CHT_STATE : Fld := ⟨0x50008, 18, 17⟩
abbrev BCN_STATUS_CHAN_ACT : Fld := ⟨0x50008, 13, 8⟩
abbrev BCN_STATUS_STATE : Fld := ⟨0x50008, 2, 0⟩
abbrev BCN_TX_CFG_TUNE_PWR : Fld := ⟨0x5000c, 31, 24⟩
abbrev BCN_TX_CFG_STEP_MAX : Fld := ⟨0x5000c, 19, 16⟩
abbrev BCN_TX_CFG_SLOT_TOL : Fld := ⟨0x5000c, 15, 0⟩
abbrev BCN_DELAY_DELAY : Fld := ⟨0x50010, 31, 0⟩
abbrev BCN_HUB_ID_HUB : Fld := ⟨0x50014, 31, 0⟩
abbrev BCN_DET_FWD_SLOPE : Fld := ⟨0x50018, 31, 16⟩
abbrev BCN_DET_FWD_OFS : Fld := ⟨0x50018, 11, 0⟩
abbrev BCN_DET_REF_SLOPE : Fld := ⟨0x5001c, 31, 16⟩
abbrev BCN_DET_REF_OFS : Fld := ⟨0x5001c, 11, 0⟩
abbrev BCN_PROT_LBT_TH : Fld := ⟨0x50020, 31, 24⟩
abbrev BCN_PROT_LBT_T : Fld := ⟨0x50020, 23, 16⟩
abbrev BCN_PROT_RL_TH : Fld := ⟨0x50020, 15, 8⟩
abbrev BCN_PROT_RL_TRIP : Fld := ⟨0x50020, 7, 0⟩
abbrev BCN_PA_BIAS : Fld := ⟨0x50024, 7, 0⟩
abbrev BCN_AUTH_CFG_CHAIN_INT : Fld := ⟨0x50030, 7, 0⟩
abbrev BCN_CHAIN_EPOCH_SEC_LO : Fld := ⟨0x50034, 31, 0⟩
abbrev BCN_KEY_CTRL_CMD : Fld := ⟨0x50040, 31, 30⟩
abbrev BCN_KEY_CTRL_ENTRY : Fld := ⟨0x50040, 2, 0⟩
abbrev BCN_KEY_W_WORD (k : Nat) : Fld := ⟨0x50044 + 0x4 * k, 31, 0⟩
abbrev BCN_CYC_CTRL_BUSY : Fld := ⟨0x50060, 31, 31⟩
abbrev BCN_CYC_CTRL_RESULT : Fld := ⟨0x50060, 23, 16⟩
abbrev BCN_CYC_CTRL_CMD : Fld := ⟨0x50060, 9, 8⟩
abbrev BCN_CYC_CTRL_INDEX : Fld := ⟨0x50060, 7, 0⟩
abbrev BCN_CYC_W_WORD (k : Nat) : Fld := ⟨0x50064 + 0x4 * k, 31, 0⟩
abbrev BCN_CHT_QRY_MAX_PWR : Fld := ⟨0x50100, 31, 24⟩
abbrev BCN_CHT_QRY_ENABLED : Fld := ⟨0x50100, 23, 23⟩
abbrev BCN_CHT_QRY_LBT : Fld := ⟨0x50100, 22, 22⟩
abbrev BCN_CHT_QRY_GFSK4 : Fld := ⟨0x50100, 21, 21⟩
abbrev BCN_CHT_QRY_RATE_MAX : Fld := ⟨0x50100, 20, 19⟩
abbrev BCN_CHT_QRY_CHAN : Fld := ⟨0x50100, 5, 0⟩
abbrev BCN_CHT_FREQ_FREQ_HZ : Fld := ⟨0x50104, 31, 0⟩
abbrev BCN_CHT_USED_DUTY : Fld := ⟨0x50108, 31, 16⟩
abbrev BCN_CHT_USED_USED_MS : Fld := ⟨0x50108, 15, 0⟩
abbrev BCN_CH_CAL_CAL_TEMP (n : Nat) : Fld := ⟨0x50200 + 0x8 * n, 31, 24⟩
abbrev BCN_CH_CAL_CAL_VALID (n : Nat) : Fld := ⟨0x50200 + 0x8 * n, 23, 23⟩
abbrev BCN_CH_CAL_STALE (n : Nat) : Fld := ⟨0x50200 + 0x8 * n, 22, 22⟩
abbrev BCN_CH_CAL_CAL_PEND (n : Nat) : Fld := ⟨0x50200 + 0x8 * n, 21, 21⟩
abbrev BCN_CH_CAL_CAL_FAILED (n : Nat) : Fld := ⟨0x50200 + 0x8 * n, 20, 20⟩
abbrev BCN_CH_CAL_KVCO_TRIM (n : Nat) : Fld := ⟨0x50200 + 0x8 * n, 11, 7⟩
abbrev BCN_CH_CAL_VCO_BAND (n : Nat) : Fld := ⟨0x50200 + 0x8 * n, 6, 0⟩
abbrev BCN_CH_TUNE_TUNE_PEND (n : Nat) : Fld := ⟨0x50204 + 0x8 * n, 31, 31⟩
abbrev BCN_CH_TUNE_TUNE_VALID (n : Nat) : Fld := ⟨0x50204 + 0x8 * n, 30, 30⟩
abbrev BCN_CH_TUNE_GAIN (n : Nat) : Fld := ⟨0x50204 + 0x8 * n, 22, 16⟩
abbrev BCN_CH_TUNE_SHUNT (n : Nat) : Fld := ⟨0x50204 + 0x8 * n, 13, 8⟩
abbrev BCN_CH_TUNE_SERIES (n : Nat) : Fld := ⟨0x50204 + 0x8 * n, 5, 0⟩
abbrev TRK_CH_CTRL_EN (k : Nat) : Fld := ⟨0x100000 + 0x10000 * (k / 32) + 0x80 * (k % 32), 31, 31⟩
abbrev TRK_CH_CTRL_START_MODE (k : Nat) : Fld := ⟨0x100000 + 0x10000 * (k / 32) + 0x80 * (k % 32), 30, 30⟩
abbrev TRK_CH_CTRL_PAIR (k : Nat) : Fld := ⟨0x100000 + 0x10000 * (k / 32) + 0x80 * (k % 32), 29, 29⟩
abbrev TRK_CH_CTRL_PROF_GATE (k : Nat) : Fld := ⟨0x100000 + 0x10000 * (k / 32) + 0x80 * (k % 32), 28, 28⟩
abbrev TRK_CH_CTRL_PROF (k : Nat) : Fld := ⟨0x100000 + 0x10000 * (k / 32) + 0x80 * (k % 32), 27, 26⟩
abbrev TRK_CH_CTRL_CHAIN (k : Nat) : Fld := ⟨0x100000 + 0x10000 * (k / 32) + 0x80 * (k % 32), 25, 24⟩
abbrev TRK_CH_CTRL_SC_MODE (k : Nat) : Fld := ⟨0x100000 + 0x10000 * (k / 32) + 0x80 * (k % 32), 21, 20⟩
abbrev TRK_CH_CTRL_SAT (k : Nat) : Fld := ⟨0x100000 + 0x10000 * (k / 32) + 0x80 * (k % 32), 15, 8⟩
abbrev TRK_CH_CTRL_SIG (k : Nat) : Fld := ⟨0x100000 + 0x10000 * (k / 32) + 0x80 * (k % 32), 5, 0⟩
abbrev TRK_CH_STATUS_DUMP_SEQ (k : Nat) : Fld := ⟨0x100004 + 0x10000 * (k / 32) + 0x80 * (k % 32), 31, 24⟩
abbrev TRK_CH_STATUS_RESULT (k : Nat) : Fld := ⟨0x100004 + 0x10000 * (k / 32) + 0x80 * (k % 32), 23, 16⟩
abbrev TRK_CH_STATUS_REASON (k : Nat) : Fld := ⟨0x100004 + 0x10000 * (k / 32) + 0x80 * (k % 32), 15, 12⟩
abbrev TRK_CH_STATUS_SAT_SEEN (k : Nat) : Fld := ⟨0x100004 + 0x10000 * (k / 32) + 0x80 * (k % 32), 11, 11⟩
abbrev TRK_CH_STATUS_STATE (k : Nat) : Fld := ⟨0x100004 + 0x10000 * (k / 32) + 0x80 * (k % 32), 1, 0⟩
abbrev TRK_CH_INT_ALIGN_GO (k : Nat) : Fld := ⟨0x100008 + 0x10000 * (k / 32) + 0x80 * (k % 32), 31, 31⟩
abbrev TRK_CH_INT_ALIGN (k : Nat) : Fld := ⟨0x100008 + 0x10000 * (k / 32) + 0x80 * (k % 32), 23, 16⟩
abbrev TRK_CH_INT_SHIFT (k : Nat) : Fld := ⟨0x100008 + 0x10000 * (k / 32) + 0x80 * (k % 32), 11, 8⟩
abbrev TRK_CH_INT_N (k : Nat) : Fld := ⟨0x100008 + 0x10000 * (k / 32) + 0x80 * (k % 32), 7, 0⟩
abbrev TRK_CH_TAPS_HV (k : Nat) : Fld := ⟨0x10000c + 0x10000 * (k / 32) + 0x80 * (k % 32), 24, 16⟩
abbrev TRK_CH_TAPS_HE (k : Nat) : Fld := ⟨0x10000c + 0x10000 * (k / 32) + 0x80 * (k % 32), 6, 0⟩
abbrev TRK_CH_TAP_M_MB (k : Nat) : Fld := ⟨0x100010 + 0x10000 * (k / 32) + 0x80 * (k % 32), 31, 16⟩
abbrev TRK_CH_TAP_M_MA (k : Nat) : Fld := ⟨0x100010 + 0x10000 * (k / 32) + 0x80 * (k % 32), 15, 0⟩
abbrev TRK_CH_SEC_EN (k : Nat) : Fld := ⟨0x100014 + 0x10000 * (k / 32) + 0x80 * (k % 32), 31, 31⟩
abbrev TRK_CH_SEC_SET (k : Nat) : Fld := ⟨0x100014 + 0x10000 * (k / 32) + 0x80 * (k % 32), 30, 30⟩
abbrev TRK_CH_SEC_IDX (k : Nat) : Fld := ⟨0x100014 + 0x10000 * (k / 32) + 0x80 * (k % 32), 10, 0⟩
abbrev TRK_CH_CODE_RATE_LO_RATE_LO (k : Nat) : Fld := ⟨0x100018 + 0x10000 * (k / 32) + 0x80 * (k % 32), 31, 0⟩
abbrev TRK_CH_CODE_RATE_HI_RATE_HI (k : Nat) : Fld := ⟨0x10001c + 0x10000 * (k / 32) + 0x80 * (k % 32), 15, 0⟩
abbrev TRK_CH_CARR_RATE_LO_RATE_LO (k : Nat) : Fld := ⟨0x100020 + 0x10000 * (k / 32) + 0x80 * (k % 32), 31, 0⟩
abbrev TRK_CH_CARR_RATE_HI_RATE_HI (k : Nat) : Fld := ⟨0x100024 + 0x10000 * (k / 32) + 0x80 * (k % 32), 15, 0⟩
abbrev TRK_CH_CODE_ADJ_ADJ (k : Nat) : Fld := ⟨0x100028 + 0x10000 * (k / 32) + 0x80 * (k % 32), 31, 0⟩
abbrev TRK_CH_START_FRAC_FRAC (k : Nat) : Fld := ⟨0x10002c + 0x10000 * (k / 32) + 0x80 * (k % 32), 31, 0⟩
abbrev TRK_CH_START_SEC_SEC_LO (k : Nat) : Fld := ⟨0x100030 + 0x10000 * (k / 32) + 0x80 * (k % 32), 31, 0⟩
abbrev TRK_CH_NCO_CARR_LO_FRAC_LO (k : Nat) : Fld := ⟨0x100040 + 0x10000 * (k / 32) + 0x80 * (k % 32), 31, 0⟩
abbrev TRK_CH_NCO_CARR_HI_FRAC_HI (k : Nat) : Fld := ⟨0x100044 + 0x10000 * (k / 32) + 0x80 * (k % 32), 15, 0⟩
abbrev TRK_CH_NCO_CYC_CYC (k : Nat) : Fld := ⟨0x100048 + 0x10000 * (k / 32) + 0x80 * (k % 32), 31, 0⟩
abbrev TRK_CH_NCO_CODE_LO_FRAC_LO (k : Nat) : Fld := ⟨0x10004c + 0x10000 * (k / 32) + 0x80 * (k % 32), 31, 0⟩
abbrev TRK_CH_NCO_CODE_HI_FRAC_HI (k : Nat) : Fld := ⟨0x100050 + 0x10000 * (k / 32) + 0x80 * (k % 32), 15, 0⟩
abbrev TRK_CH_NCO_CHIP_EPOCH (k : Nat) : Fld := ⟨0x100054 + 0x10000 * (k / 32) + 0x80 * (k % 32), 31, 24⟩
abbrev TRK_CH_NCO_CHIP_CHIP (k : Nat) : Fld := ⟨0x100054 + 0x10000 * (k / 32) + 0x80 * (k % 32), 23, 0⟩
abbrev TRK_CH_NCO_TAG_FRAC_FRAC (k : Nat) : Fld := ⟨0x100058 + 0x10000 * (k / 32) + 0x80 * (k % 32), 31, 0⟩
abbrev TRK_CH_NCO_TAG_SEC_SEC_LO (k : Nat) : Fld := ⟨0x10005c + 0x10000 * (k / 32) + 0x80 * (k % 32), 31, 0⟩
abbrev TRK_RING_CTRL_BUSY (n : Nat) : Fld := ⟨0x101000 + 0x10000 * n, 1, 1⟩
abbrev TRK_RING_CTRL_PWR (n : Nat) : Fld := ⟨0x101000 + 0x10000 * n, 0, 0⟩
abbrev TRK_RING_DUMP_PEND_PEND (n : Nat) : Fld := ⟨0x101004 + 0x10000 * n, 31, 0⟩
abbrev TRK_RING_DUMP_IEN_IEN (n : Nat) : Fld := ⟨0x101008 + 0x10000 * n, 31, 0⟩
abbrev TRK_RING_DUMP_LOST_LOST (n : Nat) : Fld := ⟨0x10100c + 0x10000 * n, 31, 0⟩
abbrev TRK_RING_ERR_PEND_ERR (n : Nat) : Fld := ⟨0x101010 + 0x10000 * n, 31, 0⟩
abbrev TRK_RING_RUN_RUN (n : Nat) : Fld := ⟨0x101014 + 0x10000 * n, 31, 0⟩
abbrev TRK_RING_EPOCH_CFG_RATE (n : Nat) : Fld := ⟨0x101018 + 0x10000 * n, 2, 0⟩
abbrev TRK_RING_EPOCH_STAT_CSEQ (n : Nat) : Fld := ⟨0x10101c + 0x10000 * n, 31, 16⟩
abbrev TRK_RING_EPOCH_STAT_MEAS_LATE (n : Nat) : Fld := ⟨0x10101c + 0x10000 * n, 3, 3⟩
abbrev TRK_RING_EPOCH_STAT_MISSED (n : Nat) : Fld := ⟨0x10101c + 0x10000 * n, 2, 2⟩
abbrev TRK_RING_EPOCH_STAT_STEPPED (n : Nat) : Fld := ⟨0x10101c + 0x10000 * n, 1, 1⟩
abbrev TRK_RING_EPOCH_STAT_PEND (n : Nat) : Fld := ⟨0x10101c + 0x10000 * n, 0, 0⟩
abbrev TRK_RING_EPOCH_FRAC_FRAC (n : Nat) : Fld := ⟨0x101020 + 0x10000 * n, 31, 0⟩
abbrev TRK_RING_EPOCH_SEC_SEC_LO (n : Nat) : Fld := ⟨0x101024 + 0x10000 * n, 31, 0⟩
abbrev TRK_RING_HANDOFF_PEND_PEND (n : Nat) : Fld := ⟨0x101028 + 0x10000 * n, 15, 0⟩
abbrev TRK_RING_MEAS_CTRL_PUBLISH (n : Nat) : Fld := ⟨0x10102c + 0x10000 * n, 31, 31⟩
abbrev TRK_RING_MEAS_CTRL_LAST_CSEQ (n : Nat) : Fld := ⟨0x10102c + 0x10000 * n, 15, 0⟩
abbrev NAV_CFG_LDPC_ITER : Fld := ⟨0x200000, 31, 24⟩
abbrev NAV_CFG_LOSS_N : Fld := ⟨0x200000, 23, 20⟩
abbrev NAV_CFG_HOST_COPY : Fld := ⟨0x200000, 16, 16⟩
abbrev NAV_CFG_EN_OSNMA : Fld := ⟨0x200000, 15, 15⟩
abbrev NAV_STG_WR_NSEQ : Fld := ⟨0x200004, 31, 16⟩
abbrev NAV_STG_WR_WR : Fld := ⟨0x200004, 8, 0⟩
abbrev NAV_STG_RD_RD : Fld := ⟨0x200008, 8, 0⟩
abbrev NAV_STG_STAT_FULL : Fld := ⟨0x20000c, 31, 31⟩
abbrev NAV_STG_STAT_DROP : Fld := ⟨0x20000c, 30, 30⟩
abbrev NAV_STG_STAT_BADRD : Fld := ⟨0x20000c, 29, 29⟩
abbrev NAV_STG_STAT_DROP_CNT : Fld := ⟨0x20000c, 15, 0⟩
abbrev NAV_RING_SYM_SYM (n : Nat) : Fld := ⟨0x200100 + 0x4 * n, 31, 0⟩
abbrev NAV_RING_STAT_OVF (n : Nat) : Fld := ⟨0x200140 + 0x4 * n, 31, 31⟩
abbrev NAV_RING_STAT_LEVEL (n : Nat) : Fld := ⟨0x200140 + 0x4 * n, 6, 0⟩
abbrev NAV_CH_STAT_FMT (k : Nat) : Fld := ⟨0x201000 + 0x8 * k, 31, 24⟩
abbrev NAV_CH_STAT_SYNC (k : Nat) : Fld := ⟨0x201000 + 0x8 * k, 23, 22⟩
abbrev NAV_CH_STAT_POL_VALID (k : Nat) : Fld := ⟨0x201000 + 0x8 * k, 21, 21⟩
abbrev NAV_CH_STAT_POL (k : Nat) : Fld := ⟨0x201000 + 0x8 * k, 20, 20⟩
abbrev NAV_CH_STAT_POL_CHG (k : Nat) : Fld := ⟨0x201000 + 0x8 * k, 19, 19⟩
abbrev NAV_CH_STAT_TIME (k : Nat) : Fld := ⟨0x201000 + 0x8 * k, 18, 18⟩
abbrev NAV_CH_STAT_SYNC_LOST (k : Nat) : Fld := ⟨0x201000 + 0x8 * k, 17, 17⟩
abbrev NAV_CH_STAT_REJ (k : Nat) : Fld := ⟨0x201000 + 0x8 * k, 16, 16⟩
abbrev NAV_CH_STAT_UNITS (k : Nat) : Fld := ⟨0x201000 + 0x8 * k, 7, 0⟩
abbrev NAV_CH_SYMIDX_SYMIDX (k : Nat) : Fld := ⟨0x201004 + 0x8 * k, 31, 0⟩
abbrev SIEVE_CFG_EN : Fld := ⟨0x280000, 31, 31⟩
abbrev SIEVE_CFG_AUTO : Fld := ⟨0x280000, 30, 30⟩
abbrev SIEVE_CFG_AUTO_NNC : Fld := ⟨0x280000, 22, 16⟩
abbrev SIEVE_CFG_PERIOD : Fld := ⟨0x280000, 15, 8⟩
abbrev SIEVE_CFG_ELEV_MIN : Fld := ⟨0x280000, 6, 0⟩
abbrev SIEVE_CAP_CAP : Fld := ⟨0x280004, 9, 0⟩
abbrev SIEVE_STAT_CAPPED : Fld := ⟨0x280008, 31, 31⟩
abbrev SIEVE_STAT_ARMED_CNT : Fld := ⟨0x280008, 23, 16⟩
abbrev SIEVE_STAT_USED : Fld := ⟨0x280008, 15, 0⟩
abbrev SIEVE_RING_MASK_MASK : Fld := ⟨0x28000c, 9, 0⟩
abbrev SIEVE_STALE_HSEQ : Fld := ⟨0x280010, 15, 0⟩
abbrev SIEVE_AUTO_SIG_EN3 : Fld := ⟨0x280014, 31, 31⟩
abbrev SIEVE_AUTO_SIG_SIG3 : Fld := ⟨0x280014, 29, 24⟩
abbrev SIEVE_AUTO_SIG_EN2 : Fld := ⟨0x280014, 23, 23⟩
abbrev SIEVE_AUTO_SIG_SIG2 : Fld := ⟨0x280014, 21, 16⟩
abbrev SIEVE_AUTO_SIG_EN1 : Fld := ⟨0x280014, 15, 15⟩
abbrev SIEVE_AUTO_SIG_SIG1 : Fld := ⟨0x280014, 13, 8⟩
abbrev SIEVE_AUTO_SIG_EN0 : Fld := ⟨0x280014, 7, 7⟩
abbrev SIEVE_AUTO_SIG_SIG0 : Fld := ⟨0x280014, 5, 0⟩
abbrev SIEVE_PORT_CTRL_BUSY : Fld := ⟨0x280020, 31, 31⟩
abbrev SIEVE_PORT_CTRL_RESULT : Fld := ⟨0x280020, 23, 16⟩
abbrev SIEVE_PORT_CTRL_CMD : Fld := ⟨0x280020, 13, 12⟩
abbrev SIEVE_PORT_CTRL_INDEX : Fld := ⟨0x280020, 6, 0⟩
abbrev SIEVE_PORT_W_WORD (k : Nat) : Fld := ⟨0x280040 + 0x4 * k, 31, 0⟩
abbrev CAR_CFG_EN : Fld := ⟨0x300000, 31, 31⟩
abbrev CAR_VER_DESC : Fld := ⟨0x300004, 31, 16⟩
abbrev CAR_VER_SNAP : Fld := ⟨0x300004, 15, 0⟩
abbrev CAR_VER_MIN_DESC_MAJ : Fld := ⟨0x300008, 15, 8⟩
abbrev CAR_VER_MIN_SNAP_MAJ : Fld := ⟨0x300008, 7, 0⟩
abbrev CAR_FEAT_OFFER_RESID : Fld := ⟨0x30000c, 1, 1⟩
abbrev CAR_FEAT_OFFER_DHW : Fld := ⟨0x30000c, 0, 0⟩
abbrev CAR_FEAT_GRANT_RESID : Fld := ⟨0x300010, 1, 1⟩
abbrev CAR_FEAT_GRANT_DHW : Fld := ⟨0x300010, 0, 0⟩
abbrev CAR_STAT_SLOTS_USED : Fld := ⟨0x300014, 29, 15⟩
abbrev CAR_STAT_STAGE_FREE : Fld := ⟨0x300014, 14, 0⟩
abbrev CAR_QSTAT_QUEUED : Fld := ⟨0x300018, 29, 15⟩
abbrev CAR_QSTAT_FORWARDED : Fld := ⟨0x300018, 14, 0⟩
abbrev CAR_ERR_VERSION : Fld := ⟨0x30001c, 6, 6⟩
abbrev CAR_ERR_FORMAT : Fld := ⟨0x30001c, 5, 5⟩
abbrev CAR_ERR_DEADLINE : Fld := ⟨0x30001c, 4, 4⟩
abbrev CAR_ERR_STAGE_WAIT : Fld := ⟨0x30001c, 3, 3⟩
abbrev CAR_ERR_STALL : Fld := ⟨0x30001c, 2, 2⟩
abbrev CAR_ERR_FWD_LOST : Fld := ⟨0x30001c, 1, 1⟩
abbrev CAR_ERR_LATE_RES : Fld := ⟨0x30001c, 0, 0⟩
abbrev CAR_DONE_LO_DONE_LO : Fld := ⟨0x300020, 31, 0⟩
abbrev CAR_DONE_HI_DONE_HI : Fld := ⟨0x300024, 31, 0⟩
abbrev CAR_FWD_CFG_EN_T3 : Fld := ⟨0x300030, 31, 31⟩
abbrev CAR_FWD_CFG_EN_T2 : Fld := ⟨0x300030, 30, 30⟩
abbrev CAR_FWD_CFG_EN_T0 : Fld := ⟨0x300030, 29, 29⟩
abbrev CAR_FWD_CFG_TIMEOUT : Fld := ⟨0x300030, 28, 16⟩
abbrev CAR_FWD_CFG_FWD_TH : Fld := ⟨0x300030, 14, 0⟩
abbrev CAR_FWD_STAT_LATE_RES : Fld := ⟨0x300034, 31, 16⟩
abbrev CAR_FWD_STAT_RETAKEN : Fld := ⟨0x300034, 15, 0⟩
abbrev CAR_CANCEL_TAG_LO_TAG_LO : Fld := ⟨0x300040, 31, 0⟩
abbrev CAR_CANCEL_TAG_HI_TAG_HI : Fld := ⟨0x300044, 31, 0⟩
abbrev CAR_CANCEL_CTRL_GO : Fld := ⟨0x300048, 31, 31⟩
abbrev CAR_CANCEL_CTRL_ALL : Fld := ⟨0x300048, 30, 30⟩
abbrev CAR_CANCEL_CTRL_COUNT : Fld := ⟨0x300048, 29, 16⟩
abbrev CAR_CANCEL_CTRL_SOURCE : Fld := ⟨0x300048, 5, 0⟩
abbrev CAR_SLOT_QRY_INDEX : Fld := ⟨0x300050, 13, 0⟩
abbrev CAR_SLOT_INFO0_STATE : Fld := ⟨0x300054, 31, 28⟩
abbrev CAR_SLOT_INFO0_SOURCE : Fld := ⟨0x300054, 27, 22⟩
abbrev CAR_SLOT_INFO0_GEN : Fld := ⟨0x300054, 21, 14⟩
abbrev CAR_SLOT_INFO0_BLOCKS : Fld := ⟨0x300054, 13, 0⟩
abbrev CAR_SLOT_INFO1_TAG_LO : Fld := ⟨0x300058, 31, 0⟩
abbrev CAR_SRC_LIMIT_INUSE (s : Nat) : Fld := ⟨0x300100 + 0x4 * s, 30, 16⟩
abbrev CAR_SRC_LIMIT_MAXSLOT (s : Nat) : Fld := ⟨0x300100 + 0x4 * s, 14, 0⟩
abbrev CAR_LANE_CFG_GATE_EN : Fld := ⟨0x300200, 31, 31⟩
abbrev CAR_LANE_CFG_MIN_ON : Fld := ⟨0x300200, 27, 24⟩
abbrev CAR_LANE_CFG_IDLE_T : Fld := ⟨0x300200, 23, 16⟩
abbrev CAR_LANE_CFG_BUDGET : Fld := ⟨0x300200, 9, 0⟩
abbrev CAR_LANE_STAT_POWERED : Fld := ⟨0x300204, 31, 24⟩
abbrev CAR_LANE_STAT_PENDING : Fld := ⟨0x300204, 23, 16⟩
abbrev CAR_LANE_STAT_USED : Fld := ⟨0x300204, 15, 0⟩
abbrev CAR_LANE_FAULT_LO_LANES : Fld := ⟨0x300208, 31, 0⟩
abbrev CAR_LANE_FAULT_HI_LANES : Fld := ⟨0x30020c, 31, 0⟩
abbrev CAR_WIN_CFG_BINS_MAX : Fld := ⟨0x300210, 31, 24⟩
abbrev CAR_WIN_CFG_CODE_GUARD : Fld := ⟨0x300210, 23, 16⟩
abbrev CAR_WIN_CFG_DOPP_GUARD : Fld := ⟨0x300210, 15, 0⟩
abbrev CAR_DET_CFG_THRESH : Fld := ⟨0x300214, 31, 16⟩
abbrev CAR_CORR_ERR_BUDGET_HIT : Fld := ⟨0x300218, 6, 6⟩
abbrev CAR_CORR_ERR_NOCODE : Fld := ⟨0x300218, 5, 5⟩
abbrev CAR_CORR_ERR_WIN_CUT : Fld := ⟨0x300218, 4, 4⟩
abbrev CAR_CORR_ERR_BINS_CLIP : Fld := ⟨0x300218, 3, 3⟩
abbrev CAR_CORR_ERR_PROF_REFUSED : Fld := ⟨0x300218, 2, 2⟩
abbrev CAR_CORR_ERR_STORE_WR : Fld := ⟨0x300218, 1, 1⟩
abbrev CAR_CORR_ERR_LANE_FAULT : Fld := ⟨0x300218, 0, 0⟩
abbrev CAR_SCRATCH_FREE_KIB : Fld := ⟨0x30021c, 10, 0⟩
abbrev CAR_PROF_RATE_RATE_HZ (p : Nat) : Fld := ⟨0x300240 + 0x10 * p, 31, 0⟩
abbrev CAR_PROF_CFG_VALID (p : Nat) : Fld := ⟨0x300244 + 0x10 * p, 31, 31⟩
abbrev CAR_PROF_CFG_DRAINING (p : Nat) : Fld := ⟨0x300244 + 0x10 * p, 30, 30⟩
abbrev CAR_PROF_CFG_GCODE (p : Nat) : Fld := ⟨0x300244 + 0x10 * p, 27, 26⟩
abbrev CAR_PROF_CFG_TSEG (p : Nat) : Fld := ⟨0x300244 + 0x10 * p, 25, 23⟩
abbrev CAR_PROF_CFG_JOBS (p : Nat) : Fld := ⟨0x300244 + 0x10 * p, 14, 0⟩
abbrev CAR_PROF_REGION_SIZE (p : Nat) : Fld := ⟨0x300248 + 0x10 * p, 31, 16⟩
abbrev CAR_PROF_REGION_BASE (p : Nat) : Fld := ⟨0x300248 + 0x10 * p, 15, 0⟩
abbrev CAR_ARB_GROUP (s : Nat) : Fld := ⟨0x300280 + 0x4 * s, 9, 8⟩
abbrev CAR_ARB_WEIGHT (s : Nat) : Fld := ⟨0x300280 + 0x4 * s, 7, 0⟩
abbrev CAR_ARB_CAL_TEST_INT : Fld := ⟨0x300310, 31, 24⟩
abbrev CAR_ARB_CAL_GROUP : Fld := ⟨0x300310, 9, 8⟩
abbrev CAR_ARB_CAL_WEIGHT : Fld := ⟨0x300310, 7, 0⟩
abbrev CAR_ARB_CFG_PREFETCH : Fld := ⟨0x300314, 7, 0⟩
abbrev CAR_GROUP_CFG_ADMIT (g : Nat) : Fld := ⟨0x300320 + 0x4 * g, 31, 31⟩
abbrev CAR_GROUP_CFG_PRIO (g : Nat) : Fld := ⟨0x300320 + 0x4 * g, 1, 0⟩
abbrev SKY_CFG_IONO_EN : Fld := ⟨0x380000, 31, 31⟩
abbrev SKY_CFG_IBB_LEARN : Fld := ⟨0x380000, 30, 30⟩
abbrev SKY_CFG_IONO_PERIOD : Fld := ⟨0x380000, 23, 16⟩
abbrev SKY_CFG_IONO_AGE : Fld := ⟨0x380000, 15, 0⟩
abbrev SKY_STAT_EPOCH : Fld := ⟨0x380004, 31, 16⟩
abbrev SKY_STAT_COMMIT_DEFER : Fld := ⟨0x380004, 15, 15⟩
abbrev SKY_STAT_IONO_VALID : Fld := ⟨0x380004, 14, 14⟩
abbrev SKY_STAT_EPH_CNT : Fld := ⟨0x380004, 8, 0⟩
abbrev SKY_PORT_CTRL_BUSY : Fld := ⟨0x380010, 31, 31⟩
abbrev SKY_PORT_CTRL_RESULT : Fld := ⟨0x380010, 23, 16⟩
abbrev SKY_PORT_CTRL_BANK : Fld := ⟨0x380010, 15, 15⟩
abbrev SKY_PORT_CTRL_CMD : Fld := ⟨0x380010, 13, 12⟩
abbrev SKY_PORT_CTRL_INDEX : Fld := ⟨0x380010, 7, 0⟩
abbrev SKY_IONO_C_COEF (j : Nat) : Fld := ⟨0x380040 + 0x4 * j, 31, 0⟩
abbrev SKY_IONO_REF_SEC_LO : Fld := ⟨0x380058, 31, 0⟩
abbrev SKY_IONO_ORIGIN_LAT : Fld := ⟨0x38005c, 31, 16⟩
abbrev SKY_IONO_ORIGIN_LON : Fld := ⟨0x38005c, 15, 0⟩
abbrev SKY_KLOB_A_ALPHA : Fld := ⟨0x380060, 31, 0⟩
abbrev SKY_KLOB_B_BETA : Fld := ⟨0x380064, 31, 0⟩
abbrev SKY_IBB_IBB (b : Nat) : Fld := ⟨0x380070 + 0x4 * b, 31, 0⟩
abbrev SKY_PORT_W_WORD (k : Nat) : Fld := ⟨0x380100 + 0x4 * k, 31, 0⟩
abbrev SKY_QRY_CTRL_GO : Fld := ⟨0x380200, 31, 31⟩
abbrev SKY_QRY_CTRL_BUSY : Fld := ⟨0x380200, 30, 30⟩
abbrev SKY_QRY_CTRL_RESULT : Fld := ⟨0x380200, 23, 16⟩
abbrev SKY_QRY_CTRL_SAT : Fld := ⟨0x380200, 7, 0⟩
abbrev SKY_QRY_T_FRAC_FRAC : Fld := ⟨0x380204, 31, 0⟩
abbrev SKY_QRY_T_SEC_SEC_LO : Fld := ⟨0x380208, 31, 0⟩
abbrev SKY_QRY_POS_POS (k : Nat) : Fld := ⟨0x38020c + 0x4 * k, 31, 0⟩
abbrev SKY_QRY_VEL_VEL (k : Nat) : Fld := ⟨0x380224 + 0x4 * k, 31, 0⟩
abbrev SKY_QRY_CLK_CLK (k : Nat) : Fld := ⟨0x380230 + 0x4 * k, 31, 0⟩
abbrev SKY_QRY_CRATE_CRATE : Fld := ⟨0x380238, 31, 0⟩
abbrev SOL_CFG_MAX_ITER : Fld := ⟨0x381000, 31, 28⟩
abbrev SOL_CFG_EXCL_MAX : Fld := ⟨0x381000, 27, 26⟩
abbrev SOL_CFG_ISB_HOLD : Fld := ⟨0x381000, 25, 25⟩
abbrev SOL_CFG_IF_COMB : Fld := ⟨0x381000, 24, 24⟩
abbrev SOL_CFG_SIG_B : Fld := ⟨0x381000, 23, 16⟩
abbrev SOL_CFG_SIG_A : Fld := ⟨0x381000, 15, 8⟩
abbrev SOL_CFG_ELEV_MIN : Fld := ⟨0x381000, 7, 0⟩
abbrev SOL_TH_GDOP_MAX : Fld := ⟨0x381004, 31, 24⟩
abbrev SOL_TH_RES_TH : Fld := ⟨0x381004, 23, 16⟩
abbrev SOL_TH_CONV_TH : Fld := ⟨0x381004, 15, 0⟩
abbrev SOL_LIVE_CFG_MODE : Fld := ⟨0x381008, 31, 30⟩
abbrev SOL_LIVE_CFG_TRUST_MIN : Fld := ⟨0x381008, 29, 28⟩
abbrev SOL_LIVE_CFG_SURVEY_T : Fld := ⟨0x381008, 15, 0⟩
abbrev SOL_SURVEY_POS_POS (k : Nat) : Fld := ⟨0x381010 + 0x4 * k, 31, 0⟩
abbrev SOL_SURVEY_UNC_UNC : Fld := ⟨0x381028, 31, 0⟩
abbrev SOL_STAT_OUTCOME : Fld := ⟨0x381030, 31, 24⟩
abbrev SOL_STAT_NUSED : Fld := ⟨0x381030, 23, 16⟩
abbrev SOL_STAT_SURVEYING : Fld := ⟨0x381030, 15, 15⟩
abbrev SOL_STAT_LIVE_FAIL : Fld := ⟨0x381030, 14, 14⟩
abbrev SOL_FIX_W_WORD (k : Nat) : Fld := ⟨0x381040 + 0x4 * k, 31, 0⟩
abbrev HOST_RING_BASE_LO_BASE (n : Nat) : Fld := ⟨0x400000 + 0x40 * n, 31, 12⟩
abbrev HOST_RING_BASE_HI_BASE_HI (n : Nat) : Fld := ⟨0x400004 + 0x40 * n, 31, 0⟩
abbrev HOST_RING_CFG_COAL_CNT (n : Nat) : Fld := ⟨0x400008 + 0x40 * n, 31, 24⟩
abbrev HOST_RING_CFG_COAL_US (n : Nat) : Fld := ⟨0x400008 + 0x40 * n, 23, 12⟩
abbrev HOST_RING_CFG_SPACE_IEN (n : Nat) : Fld := ⟨0x400008 + 0x40 * n, 11, 11⟩
abbrev HOST_RING_CFG_SIZE_E (n : Nat) : Fld := ⟨0x400008 + 0x40 * n, 4, 0⟩
abbrev HOST_RING_HEAD_HEAD (n : Nat) : Fld := ⟨0x40000c + 0x40 * n, 31, 0⟩
abbrev HOST_RING_TAIL_TAIL (n : Nat) : Fld := ⟨0x400010 + 0x40 * n, 31, 0⟩
abbrev HOST_RING_STAT_HALTED (n : Nat) : Fld := ⟨0x400014 + 0x40 * n, 31, 31⟩
abbrev HOST_RING_STAT_REFUSED (n : Nat) : Fld := ⟨0x400014 + 0x40 * n, 30, 30⟩
abbrev HOST_RING_STAT_DROPS (n : Nat) : Fld := ⟨0x400014 + 0x40 * n, 29, 17⟩
abbrev HOST_RING_STAT_LEVEL (n : Nat) : Fld := ⟨0x400014 + 0x40 * n, 16, 0⟩
abbrev HOST_COPY_ADDR_LO_ADDR (c : Nat) : Fld := ⟨0x401100 + 0x20 * c, 31, 0⟩
abbrev HOST_COPY_ADDR_HI_ADDR_HI (c : Nat) : Fld := ⟨0x401104 + 0x20 * c, 31, 0⟩
abbrev HOST_COPY_DEV_DEV (c : Nat) : Fld := ⟨0x401108 + 0x20 * c, 25, 0⟩
abbrev HOST_COPY_LEN_LEN (c : Nat) : Fld := ⟨0x40110c + 0x20 * c, 31, 0⟩
abbrev HOST_COPY_CTRL_GO (c : Nat) : Fld := ⟨0x401110 + 0x20 * c, 31, 31⟩
abbrev HOST_COPY_CTRL_ABORT (c : Nat) : Fld := ⟨0x401110 + 0x20 * c, 30, 30⟩
abbrev HOST_COPY_CTRL_BUSY (c : Nat) : Fld := ⟨0x401110 + 0x20 * c, 29, 29⟩
abbrev HOST_COPY_CTRL_TO_HOST (c : Nat) : Fld := ⟨0x401110 + 0x20 * c, 28, 28⟩
abbrev HOST_COPY_CTRL_RESULT (c : Nat) : Fld := ⟨0x401110 + 0x20 * c, 23, 16⟩
abbrev HOST_COPY_CTRL_WEIGHT (c : Nat) : Fld := ⟨0x401110 + 0x20 * c, 7, 0⟩
abbrev HOST_RES_PEND_PEND : Fld := ⟨0x401200, 31, 0⟩
abbrev HOST_SPACE_PEND_PEND : Fld := ⟨0x401204, 31, 0⟩
abbrev HOST_STREAM_PEND_PEND : Fld := ⟨0x401208, 2, 0⟩
abbrev HOST_NEG_GO : Fld := ⟨0x40120c, 31, 31⟩
abbrev HOST_NEG_NEGOTIATED : Fld := ⟨0x40120c, 24, 24⟩
abbrev HOST_NEG_RESULT : Fld := ⟨0x40120c, 23, 16⟩
abbrev HOST_NEG_MAJOR : Fld := ⟨0x40120c, 15, 8⟩
abbrev HOST_NEG_OFFER : Fld := ⟨0x40120c, 7, 0⟩
abbrev HOST_ERR_LINK : Fld := ⟨0x401210, 6, 6⟩
abbrev HOST_ERR_STREAM_DROP : Fld := ⟨0x401210, 5, 5⟩
abbrev HOST_ERR_DESC_DMA : Fld := ⟨0x401210, 4, 4⟩
abbrev HOST_ERR_RING_CFG : Fld := ⟨0x401210, 3, 3⟩
abbrev HOST_ERR_DOORBELL : Fld := ⟨0x401210, 2, 2⟩
abbrev HOST_ERR_BAD_ACCESS : Fld := ⟨0x401210, 1, 1⟩
abbrev HOST_ERR_VERSION : Fld := ⟨0x401210, 0, 0⟩
abbrev TRP_PORT_CFG_EN (p : Nat) : Fld := ⟨0x480000 + 0x100 * p, 31, 31⟩
abbrev TRP_PORT_CFG_BURST_KEEP (p : Nat) : Fld := ⟨0x480000 + 0x100 * p, 30, 30⟩
abbrev TRP_PORT_CFG_MIR_OUT (p : Nat) : Fld := ⟨0x480000 + 0x100 * p, 29, 29⟩
abbrev TRP_PORT_CFG_MIR_IN (p : Nat) : Fld := ⟨0x480000 + 0x100 * p, 28, 28⟩
abbrev TRP_PORT_CFG_MIR_SKY (p : Nat) : Fld := ⟨0x480000 + 0x100 * p, 27, 27⟩
abbrev TRP_PORT_CFG_CRED_RES (p : Nat) : Fld := ⟨0x480000 + 0x100 * p, 15, 8⟩
abbrev TRP_PORT_CFG_CRED_JOB (p : Nat) : Fld := ⟨0x480000 + 0x100 * p, 7, 0⟩
abbrev TRP_PORT_BLK_CRED_BLK (p : Nat) : Fld := ⟨0x480004 + 0x100 * p, 14, 0⟩
abbrev TRP_PORT_ASYM_ASYM (p : Nat) : Fld := ⟨0x480008 + 0x100 * p, 31, 0⟩
abbrev TRP_PORT_STAT_STATE (p : Nat) : Fld := ⟨0x48000c + 0x100 * p, 31, 29⟩
abbrev TRP_PORT_STAT_WIDTH1 (p : Nat) : Fld := ⟨0x48000c + 0x100 * p, 28, 28⟩
abbrev TRP_PORT_STAT_TOPOLOGY (p : Nat) : Fld := ⟨0x48000c + 0x100 * p, 27, 27⟩
abbrev TRP_PORT_STAT_VERSION (p : Nat) : Fld := ⟨0x48000c + 0x100 * p, 26, 26⟩
abbrev TRP_PORT_STAT_CREDIT_VIOL (p : Nat) : Fld := ⟨0x48000c + 0x100 * p, 25, 25⟩
abbrev TRP_PORT_STAT_REPLAY (p : Nat) : Fld := ⟨0x48000c + 0x100 * p, 24, 24⟩
abbrev TRP_PORT_STAT_MAJOR (p : Nat) : Fld := ⟨0x48000c + 0x100 * p, 23, 16⟩
abbrev TRP_PORT_STAT_MINOR (p : Nat) : Fld := ⟨0x48000c + 0x100 * p, 15, 8⟩
abbrev TRP_PORT_STAT_DOWN_CNT (p : Nat) : Fld := ⟨0x48000c + 0x100 * p, 7, 0⟩
abbrev TRP_PORT_FEAT_GRANT (p : Nat) : Fld := ⟨0x480010 + 0x100 * p, 31, 24⟩
abbrev TRP_PORT_FEAT_PEER (p : Nat) : Fld := ⟨0x480010 + 0x100 * p, 23, 16⟩
abbrev TRP_PORT_FEAT_OFFER (p : Nat) : Fld := ⟨0x480010 + 0x100 * p, 7, 0⟩
abbrev TRP_PORT_CRED_JOB_AVAIL (p : Nat) : Fld := ⟨0x480014 + 0x100 * p, 31, 24⟩
abbrev TRP_PORT_CRED_RES_AVAIL (p : Nat) : Fld := ⟨0x480014 + 0x100 * p, 23, 16⟩
abbrev TRP_PORT_CRED_BLK_AVAIL (p : Nat) : Fld := ⟨0x480014 + 0x100 * p, 15, 0⟩
abbrev TRP_PORT_PEER_LO_SER_LO (p : Nat) : Fld := ⟨0x480018 + 0x100 * p, 31, 0⟩
abbrev TRP_PORT_PEER_HI_SER_HI (p : Nat) : Fld := ⟨0x48001c + 0x100 * p, 31, 0⟩
abbrev TRP_PORT_DELAY_DELAY (p : Nat) : Fld := ⟨0x480020 + 0x100 * p, 31, 0⟩
abbrev TRP_PORT_ERRCNT_CRC_ERR (p : Nat) : Fld := ⟨0x480024 + 0x100 * p, 31, 16⟩
abbrev TRP_PORT_ERRCNT_RETX (p : Nat) : Fld := ⟨0x480024 + 0x100 * p, 15, 0⟩
abbrev TRP_TWIN_CFG_TWIN_EN : Fld := ⟨0x480800, 31, 31⟩
abbrev TRP_TWIN_CFG_PREFER : Fld := ⟨0x480800, 30, 30⟩
abbrev TRP_TWIN_STAT_ROLE : Fld := ⟨0x480804, 31, 30⟩
abbrev TRP_TWIN_STAT_PEER_ROLE : Fld := ⟨0x480804, 29, 28⟩
abbrev TRP_TWIN_STAT_MISSED : Fld := ⟨0x480804, 27, 24⟩
abbrev TRP_TWIN_STAT_MIR_REFUSED : Fld := ⟨0x480804, 23, 23⟩
abbrev TRP_TWIN_STAT_HB_SEQ : Fld := ⟨0x480804, 15, 0⟩
abbrev TRP_TIME_CFG_SPREAD : Fld := ⟨0x480808, 31, 16⟩
abbrev TRP_TIME_CFG_MIN_EX : Fld := ⟨0x480808, 3, 0⟩
abbrev TRP_TIME_STAT_EXCH : Fld := ⟨0x48080c, 31, 24⟩
abbrev TRP_TIME_STAT_TIME_REFUSED : Fld := ⟨0x48080c, 23, 23⟩
abbrev TRP_TIME_STAT_PORT : Fld := ⟨0x48080c, 1, 0⟩
abbrev TRP_TIME_OFS_LO_OFS_LO : Fld := ⟨0x480810, 31, 0⟩
abbrev TRP_TIME_OFS_HI_OFS_HI : Fld := ⟨0x480814, 31, 0⟩
abbrev SPIM_CFG_MODE3 : Fld := ⟨0x500000, 31, 31⟩
abbrev SPIM_CFG_RDLY : Fld := ⟨0x500000, 30, 28⟩
abbrev SPIM_CFG_CSH : Fld := ⟨0x500000, 27, 24⟩
abbrev SPIM_CFG_CDIV : Fld := ⟨0x500000, 7, 0⟩
abbrev SPIM_XIP_EN : Fld := ⟨0x500004, 31, 31⟩
abbrev SPIM_XIP_OMIT : Fld := ⟨0x500004, 30, 30⟩
abbrev SPIM_XIP_PREF_NEXT : Fld := ⟨0x500004, 29, 29⟩
abbrev SPIM_XIP_ADDR4 : Fld := ⟨0x500004, 28, 28⟩
abbrev SPIM_XIP_AW : Fld := ⟨0x500004, 27, 26⟩
abbrev SPIM_XIP_DW : Fld := ⟨0x500004, 25, 24⟩
abbrev SPIM_XIP_DUMMY : Fld := ⟨0x500004, 20, 16⟩
abbrev SPIM_XIP_MODE_ON : Fld := ⟨0x500004, 15, 8⟩
abbrev SPIM_XIP_CMD : Fld := ⟨0x500004, 7, 0⟩
abbrev SPIM_STAT_XIP_OFF : Fld := ⟨0x500008, 31, 31⟩
abbrev SPIM_STAT_XIP_WR : Fld := ⟨0x500008, 30, 30⟩
abbrev SPIM_STAT_OMIT_ACT : Fld := ⟨0x500008, 29, 29⟩
abbrev SPIM_STAT_MISS : Fld := ⟨0x500008, 15, 0⟩
abbrev SPIM_CMD_CTRL_GO : Fld := ⟨0x500010, 31, 31⟩
abbrev SPIM_CMD_CTRL_BUSY : Fld := ⟨0x500010, 30, 30⟩
abbrev SPIM_CMD_CTRL_WRITE : Fld := ⟨0x500010, 29, 29⟩
abbrev SPIM_CMD_CTRL_CW : Fld := ⟨0x500010, 28, 27⟩
abbrev SPIM_CMD_CTRL_AW : Fld := ⟨0x500010, 26, 25⟩
abbrev SPIM_CMD_CTRL_DW : Fld := ⟨0x500010, 24, 23⟩
abbrev SPIM_CMD_CTRL_ABYTES : Fld := ⟨0x500010, 22, 21⟩
abbrev SPIM_CMD_CTRL_DUMMY : Fld := ⟨0x500010, 20, 16⟩
abbrev SPIM_CMD_CTRL_OPCODE : Fld := ⟨0x500010, 15, 8⟩
abbrev SPIM_CMD_CTRL_DEV : Fld := ⟨0x500010, 7, 5⟩
abbrev SPIM_CMD_ADDR_ADDR : Fld := ⟨0x500014, 31, 0⟩
abbrev SPIM_CMD_LEN_RESULT : Fld := ⟨0x500018, 31, 24⟩
abbrev SPIM_CMD_LEN_LEN : Fld := ⟨0x500018, 8, 0⟩
abbrev SPIM_CMD_DATA_DATA (k : Nat) : Fld := ⟨0x500100 + 0x4 * k, 31, 0⟩
abbrev SPIS_CFG_EN : Fld := ⟨0x501000, 31, 31⟩
abbrev SPIS_CFG_CPOL : Fld := ⟨0x501000, 30, 30⟩
abbrev SPIS_CFG_CPHA : Fld := ⟨0x501000, 29, 29⟩
abbrev SPIS_CFG_UNIT : Fld := ⟨0x501000, 5, 0⟩
abbrev SPIS_RESP_READY : Fld := ⟨0x501004, 31, 31⟩
abbrev SPIS_RESP_FLUSH : Fld := ⟨0x501004, 30, 30⟩
abbrev SPIS_RESP_PENDING : Fld := ⟨0x501004, 29, 29⟩
abbrev SPIS_RESP_ATTN : Fld := ⟨0x501004, 28, 28⟩
abbrev SPIS_RESP_COUNT : Fld := ⟨0x501004, 22, 16⟩
abbrev SPIS_RESP_STATUS : Fld := ⟨0x501004, 15, 0⟩
abbrev SPIS_STAT_SEL_ABORT : Fld := ⟨0x501008, 31, 31⟩
abbrev SPIS_STAT_RX_OVF : Fld := ⟨0x501008, 30, 30⟩
abbrev SPIS_STAT_UNIT_ERR : Fld := ⟨0x501008, 29, 29⟩
abbrev SPIS_STAT_RESP_ERR : Fld := ⟨0x501008, 28, 28⟩
abbrev SPIS_STAT_REQ_DONE : Fld := ⟨0x501008, 27, 27⟩
abbrev SPIS_STAT_OVERCLK : Fld := ⟨0x501008, 23, 16⟩
abbrev SPIS_STAT_TX_LEVEL : Fld := ⟨0x501008, 15, 8⟩
abbrev SPIS_STAT_RX_LEVEL : Fld := ⟨0x501008, 7, 0⟩
abbrev SPIS_RX_CTRL_POP : Fld := ⟨0x50100c, 31, 31⟩
abbrev SPIS_RX_CTRL_VALID : Fld := ⟨0x50100c, 30, 30⟩
abbrev SPIS_RX_CTRL_FIRST : Fld := ⟨0x50100c, 29, 29⟩
abbrev SPIS_RX_DATA_UNIT : Fld := ⟨0x501010, 31, 0⟩
abbrev SPIS_TX_UNIT : Fld := ⟨0x501014, 31, 0⟩
abbrev UA_CFG_LOOP (n : Nat) : Fld := ⟨0x502000 + 0x1000 * n, 31, 31⟩
abbrev UA_CFG_ECHO (n : Nat) : Fld := ⟨0x502000 + 0x1000 * n, 30, 30⟩
abbrev UA_CFG_RS485 (n : Nat) : Fld := ⟨0x502000 + 0x1000 * n, 29, 29⟩
abbrev UA_CFG_RX_IN_TX (n : Nat) : Fld := ⟨0x502000 + 0x1000 * n, 28, 28⟩
abbrev UA_CFG_MSB (n : Nat) : Fld := ⟨0x502000 + 0x1000 * n, 27, 27⟩
abbrev UA_CFG_INV (n : Nat) : Fld := ⟨0x502000 + 0x1000 * n, 26, 26⟩
abbrev UA_CFG_STOP2 (n : Nat) : Fld := ⟨0x502000 + 0x1000 * n, 8, 8⟩
abbrev UA_CFG_PAR (n : Nat) : Fld := ⟨0x502000 + 0x1000 * n, 7, 5⟩
abbrev UA_CFG_DBITS (n : Nat) : Fld := ⟨0x502000 + 0x1000 * n, 1, 0⟩
abbrev UA_DIV_FRAC (n : Nat) : Fld := ⟨0x502004 + 0x1000 * n, 31, 24⟩
abbrev UA_DIV_INT (n : Nat) : Fld := ⟨0x502004 + 0x1000 * n, 15, 0⟩
abbrev UA_RX_POP (n : Nat) : Fld := ⟨0x502008 + 0x1000 * n, 31, 31⟩
abbrev UA_RX_VALID (n : Nat) : Fld := ⟨0x502008 + 0x1000 * n, 30, 30⟩
abbrev UA_RX_BRK (n : Nat) : Fld := ⟨0x502008 + 0x1000 * n, 12, 12⟩
abbrev UA_RX_FE (n : Nat) : Fld := ⟨0x502008 + 0x1000 * n, 11, 11⟩
abbrev UA_RX_PE (n : Nat) : Fld := ⟨0x502008 + 0x1000 * n, 10, 10⟩
abbrev UA_RX_DATA (n : Nat) : Fld := ⟨0x502008 + 0x1000 * n, 7, 0⟩
abbrev UA_TX_DATA (n : Nat) : Fld := ⟨0x50200c + 0x1000 * n, 7, 0⟩
abbrev UA_STAT_OVERRUN (n : Nat) : Fld := ⟨0x502010 + 0x1000 * n, 31, 31⟩
abbrev UA_STAT_TX_OVF (n : Nat) : Fld := ⟨0x502010 + 0x1000 * n, 30, 30⟩
abbrev UA_STAT_FE_SEEN (n : Nat) : Fld := ⟨0x502010 + 0x1000 * n, 29, 29⟩
abbrev UA_STAT_PE_SEEN (n : Nat) : Fld := ⟨0x502010 + 0x1000 * n, 28, 28⟩
abbrev UA_STAT_TX_FAIL (n : Nat) : Fld := ⟨0x502010 + 0x1000 * n, 27, 27⟩
abbrev UA_STAT_DE (n : Nat) : Fld := ⟨0x502010 + 0x1000 * n, 26, 26⟩
abbrev UA_STAT_TX_IDLE (n : Nat) : Fld := ⟨0x502010 + 0x1000 * n, 25, 25⟩
abbrev UA_STAT_CFG_ERR (n : Nat) : Fld := ⟨0x502010 + 0x1000 * n, 24, 24⟩
abbrev UA_STAT_TX_LEVEL (n : Nat) : Fld := ⟨0x502010 + 0x1000 * n, 12, 8⟩
abbrev UA_STAT_RX_LEVEL (n : Nat) : Fld := ⟨0x502010 + 0x1000 * n, 4, 0⟩
abbrev UA_IEN_RX_TH (n : Nat) : Fld := ⟨0x502014 + 0x1000 * n, 12, 8⟩
abbrev UA_IEN_ERR (n : Nat) : Fld := ⟨0x502014 + 0x1000 * n, 2, 2⟩
abbrev UA_IEN_TX_EMPTY (n : Nat) : Fld := ⟨0x502014 + 0x1000 * n, 1, 1⟩
abbrev UA_IEN_RX (n : Nat) : Fld := ⟨0x502014 + 0x1000 * n, 0, 0⟩
abbrev UA_0_DE_TAIL : Fld := ⟨0x502018, 27, 16⟩
abbrev UA_0_DE_LEAD : Fld := ⟨0x502018, 11, 0⟩
abbrev UA_0_WAKE_WOKE : Fld := ⟨0x50201c, 31, 31⟩
abbrev UA_0_WAKE_WAKE_EN : Fld := ⟨0x50201c, 0, 0⟩
abbrev UA_1_CARD_RST : Fld := ⟨0x503018, 31, 31⟩
abbrev UA_1_CARD_ERRSIG : Fld := ⟨0x503018, 30, 30⟩
abbrev UA_1_CARD_REP_MAX : Fld := ⟨0x503018, 29, 27⟩
abbrev UA_1_CARD_EGT : Fld := ⟨0x503018, 23, 16⟩
abbrev UA_1_CARD_CLKDIV : Fld := ⟨0x503018, 7, 0⟩
abbrev SQ_CTRL_RUN (n : Nat) : Fld := ⟨0x580000 + 0x100 * n, 31, 31⟩
abbrev SQ_CTRL_DBG_BRK (n : Nat) : Fld := ⟨0x580000 + 0x100 * n, 30, 30⟩
abbrev SQ_START_START (n : Nat) : Fld := ⟨0x580004 + 0x100 * n, 15, 0⟩
abbrev SQ_STAT_STATE (n : Nat) : Fld := ⟨0x580008 + 0x100 * n, 31, 30⟩
abbrev SQ_STAT_PRIV (n : Nat) : Fld := ⟨0x580008 + 0x100 * n, 29, 28⟩
abbrev SQ_STAT_DBG_HALT (n : Nat) : Fld := ⟨0x580008 + 0x100 * n, 27, 27⟩
abbrev SQ_STAT_WR_RUN (n : Nat) : Fld := ⟨0x580008 + 0x100 * n, 26, 26⟩
abbrev SQ_STAT_WR_DROP (n : Nat) : Fld := ⟨0x580008 + 0x100 * n, 25, 25⟩
abbrev SQ_STAT_FCAUSE (n : Nat) : Fld := ⟨0x580008 + 0x100 * n, 23, 16⟩
abbrev SQ_STAT_FAULT_CNT (n : Nat) : Fld := ⟨0x580008 + 0x100 * n, 15, 8⟩
abbrev SQ_PC_PC (n : Nat) : Fld := ⟨0x58000c + 0x100 * n, 15, 0⟩
abbrev SEC_BOOT_STAT_RECOVERY : Fld := ⟨0x600000, 31, 31⟩
abbrev SEC_BOOT_STAT_SRC : Fld := ⟨0x600000, 30, 28⟩
abbrev SEC_BOOT_STAT_KEY_SLOT : Fld := ⟨0x600000, 27, 26⟩
abbrev SEC_BOOT_STAT_PARAM : Fld := ⟨0x600000, 25, 24⟩
abbrev SEC_BOOT_STAT_LAST_FAIL : Fld := ⟨0x600000, 23, 16⟩
abbrev SEC_BOOT_STAT_TRIED : Fld := ⟨0x600000, 15, 12⟩
abbrev SEC_BOOT_CTRL_PUSH_GO : Fld := ⟨0x600004, 31, 31⟩
abbrev SEC_BOOT_CTRL_TWIN_SERVE : Fld := ⟨0x600004, 30, 30⟩
abbrev SEC_RB_ADVANCE : Fld := ⟨0x600008, 31, 31⟩
abbrev SEC_RB_NEW : Fld := ⟨0x600008, 23, 16⟩
abbrev SEC_RB_IMG : Fld := ⟨0x600008, 15, 8⟩
abbrev SEC_RB_COUNT : Fld := ⟨0x600008, 7, 0⟩
abbrev SEC_ROOT_REVOKE : Fld := ⟨0x60000c, 31, 31⟩
abbrev SEC_ROOT_SLOT : Fld := ⟨0x60000c, 18, 16⟩
abbrev SEC_ROOT_REVOKED : Fld := ⟨0x60000c, 13, 8⟩
abbrev SEC_ROOT_PROGRAMMED : Fld := ⟨0x60000c, 5, 0⟩
abbrev SEC_IMG_DIGEST_DIGEST (k : Nat) : Fld := ⟨0x600010 + 0x4 * k, 31, 0⟩
abbrev SEC_OTP_CTRL_GO : Fld := ⟨0x600030, 31, 31⟩
abbrev SEC_OTP_CTRL_BUSY : Fld := ⟨0x600030, 30, 30⟩
abbrev SEC_OTP_CTRL_RESULT : Fld := ⟨0x600030, 23, 16⟩
abbrev SEC_OTP_CTRL_ADDR : Fld := ⟨0x600030, 15, 0⟩
abbrev SEC_OTP_DATA_DATA : Fld := ⟨0x600034, 31, 0⟩
abbrev SEC_ID_PK_PK (k : Nat) : Fld := ⟨0x600040 + 0x4 * k, 31, 0⟩
abbrev SEC_ATT_CTRL_GO : Fld := ⟨0x600080, 31, 31⟩
abbrev SEC_ATT_CTRL_BUSY : Fld := ⟨0x600080, 30, 30⟩
abbrev SEC_ATT_CTRL_RESULT : Fld := ⟨0x600080, 23, 16⟩
abbrev SEC_ATT_ADDR_LO_ADDR : Fld := ⟨0x600084, 31, 0⟩
abbrev SEC_ATT_ADDR_HI_ADDR_HI : Fld := ⟨0x600088, 31, 0⟩
abbrev SEC_ATT_NONCE_NONCE (k : Nat) : Fld := ⟨0x600090 + 0x4 * k, 31, 0⟩
abbrev SEC_PROT_STAT_VALID : Fld := ⟨0x6000c0, 31, 31⟩
abbrev SEC_PROT_STAT_WRITE : Fld := ⟨0x6000c0, 30, 30⟩
abbrev SEC_PROT_STAT_SPACE : Fld := ⟨0x6000c0, 29, 28⟩
abbrev SEC_PROT_STAT_INIT : Fld := ⟨0x6000c0, 27, 24⟩
abbrev SEC_PROT_ADDR_ADDR : Fld := ⟨0x6000c4, 31, 0⟩
abbrev SEC_PU_BASE_SPACE (n : Nat) : Fld := ⟨0x600100 + 0x10 * n, 31, 31⟩
abbrev SEC_PU_BASE_BASE (n : Nat) : Fld := ⟨0x600100 + 0x10 * n, 25, 8⟩
abbrev SEC_PU_LIMIT_LIMIT (n : Nat) : Fld := ⟨0x600104 + 0x10 * n, 25, 8⟩
abbrev SEC_PU_PERM_EN (n : Nat) : Fld := ⟨0x600108 + 0x10 * n, 31, 31⟩
abbrev SEC_PU_PERM_SQMASK (n : Nat) : Fld := ⟨0x600108 + 0x10 * n, 26, 16⟩
abbrev SEC_PU_PERM_RIGHTS (n : Nat) : Fld := ⟨0x600108 + 0x10 * n, 7, 0⟩
abbrev SEC_DBG_STAT_LEVEL : Fld := ⟨0x600400, 31, 30⟩
abbrev SEC_DBG_STAT_SESSION : Fld := ⟨0x600400, 29, 29⟩
abbrev SEC_DBG_STAT_HOLD : Fld := ⟨0x600400, 28, 28⟩
abbrev SEC_DBG_STAT_LAST_RESULT : Fld := ⟨0x600400, 23, 16⟩
abbrev SEC_DBG_CTRL_END : Fld := ⟨0x600404, 31, 31⟩
abbrev SEC_DBG_CTRL_HOLD_AWAKE : Fld := ⟨0x600404, 30, 30⟩
abbrev SEC_DBG_NONCE_NONCE (k : Nat) : Fld := ⟨0x600410 + 0x4 * k, 31, 0⟩
abbrev SEC_DBG_EXP_LO_EXP_LO : Fld := ⟨0x600420, 31, 0⟩
abbrev SEC_DBG_EXP_HI_EXP_HI : Fld := ⟨0x600424, 31, 0⟩
abbrev LC_STATE_STATE : Fld := ⟨0x600800, 31, 29⟩
abbrev LC_STATE_RETURN_START : Fld := ⟨0x600800, 28, 28⟩
abbrev LC_CTRL_GO : Fld := ⟨0x600804, 31, 31⟩
abbrev LC_CTRL_BUSY : Fld := ⟨0x600804, 30, 30⟩
abbrev LC_CTRL_RESULT : Fld := ⟨0x600804, 23, 16⟩
abbrev LC_CTRL_CONFIRM : Fld := ⟨0x600804, 15, 8⟩
abbrev LC_CTRL_TARGET : Fld := ⟨0x600804, 2, 0⟩
abbrev PWR_CTRL_GO : Fld := ⟨0x680000, 31, 31⟩
abbrev PWR_CTRL_TARGET : Fld := ⟨0x680000, 1, 0⟩
abbrev PWR_REQ_GO : Fld := ⟨0x680004, 31, 31⟩
abbrev PWR_REQ_REQ_CLR : Fld := ⟨0x680004, 30, 30⟩
abbrev PWR_REQ_REQ_PEND : Fld := ⟨0x680004, 29, 29⟩
abbrev PWR_REQ_TARGET : Fld := ⟨0x680004, 1, 0⟩
abbrev PWR_STAT_STATE : Fld := ⟨0x680008, 31, 30⟩
abbrev PWR_STAT_TRANSIT : Fld := ⟨0x680008, 29, 29⟩
abbrev PWR_STAT_PF : Fld := ⟨0x680008, 28, 28⟩
abbrev PWR_STAT_LATCHED : Fld := ⟨0x680008, 1, 0⟩
abbrev PWR_CFG_BURST_PCIE : Fld := ⟨0x68000c, 31, 31⟩
abbrev PWR_START_DEFER_DEFER : Fld := ⟨0x680010, 31, 31⟩
abbrev PWR_START_DEFER_QUEUED : Fld := ⟨0x680010, 20, 16⟩
abbrev PWR_START_DEFER_MAX_US : Fld := ⟨0x680010, 15, 0⟩
abbrev PWR_DOMAIN_LANES : Fld := ⟨0x680014, 22, 15⟩
abbrev PWR_DOMAIN_RINGS : Fld := ⟨0x680014, 14, 5⟩
abbrev PWR_DOMAIN_BCN : Fld := ⟨0x680014, 4, 4⟩
abbrev PWR_DOMAIN_CHAINS : Fld := ⟨0x680014, 3, 0⟩
abbrev PWR_PF_CFG_ACTION : Fld := ⟨0x680020, 31, 30⟩
abbrev PWR_PF_CFG_STORE_MASK : Fld := ⟨0x680020, 23, 16⟩
abbrev PWR_PF_CFG_DEB : Fld := ⟨0x680020, 15, 0⟩
abbrev PWR_HOLDUP_CFG_CAP : Fld := ⟨0x680024, 23, 0⟩
abbrev PWR_HOLDUP_V_RATIO : Fld := ⟨0x680028, 31, 16⟩
abbrev PWR_HOLDUP_V_VMIN : Fld := ⟨0x680028, 15, 0⟩
abbrev PWR_HOLDUP_STAT_V_MV : Fld := ⟨0x68002c, 31, 16⟩
abbrev PWR_HOLDUP_STAT_E : Fld := ⟨0x68002c, 15, 0⟩
abbrev PWR_STORE_CTRL_GO : Fld := ⟨0x680030, 31, 31⟩
abbrev PWR_STORE_CTRL_BUSY : Fld := ⟨0x680030, 30, 30⟩
abbrev PWR_STORE_CTRL_RESULT : Fld := ⟨0x680030, 23, 16⟩
abbrev PWR_STORE_CTRL_CMD : Fld := ⟨0x680030, 8, 8⟩
abbrev PWR_STORE_CTRL_KIND : Fld := ⟨0x680030, 7, 0⟩
abbrev PWR_STORE_BASE_BASE : Fld := ⟨0x680034, 31, 12⟩
abbrev PWR_STORE_CFG_NEED (k : Nat) : Fld := ⟨0x680040 + 0x4 * k, 15, 0⟩
abbrev PWR_STORE_STAT_RESULT (k : Nat) : Fld := ⟨0x680060 + 0x4 * k, 31, 24⟩
abbrev PWR_STORE_STAT_SEQ (k : Nat) : Fld := ⟨0x680060 + 0x4 * k, 23, 0⟩
abbrev PWR_BK_SUB_VALID : Fld := ⟨0x680100, 31, 31⟩
abbrev PWR_BK_SUB_XTAL_OK : Fld := ⟨0x680100, 30, 30⟩
abbrev PWR_BK_SUB_XTAL_FAIL : Fld := ⟨0x680100, 29, 29⟩
abbrev PWR_BK_SUB_SUB : Fld := ⟨0x680100, 14, 0⟩
abbrev PWR_BK_SEC_LO_SEC_LO : Fld := ⟨0x680104, 31, 0⟩
abbrev PWR_BK_SEC_HI_SEC_HI : Fld := ⟨0x680108, 15, 0⟩
abbrev PWR_WAKE_AT_AT : Fld := ⟨0x680110, 31, 0⟩
abbrev PWR_WAKE_CFG_ALARM : Fld := ⟨0x680114, 31, 31⟩
abbrev PWR_WAKE_CFG_MAINS : Fld := ⟨0x680114, 30, 30⟩
abbrev PWR_WAKE_STAT_PIN : Fld := ⟨0x680118, 28, 28⟩
abbrev PWR_WAKE_STAT_UART : Fld := ⟨0x680118, 27, 27⟩
abbrev PWR_WAKE_STAT_MAINS : Fld := ⟨0x680118, 26, 26⟩
abbrev PWR_WAKE_STAT_ALARM : Fld := ⟨0x680118, 25, 25⟩
abbrev RST_CAUSE_LAST : Fld := ⟨0x680800, 31, 28⟩
abbrev RST_CAUSE_FLR : Fld := ⟨0x680800, 6, 6⟩
abbrev RST_CAUSE_TWIN : Fld := ⟨0x680800, 5, 5⟩
abbrev RST_CAUSE_SOFT : Fld := ⟨0x680800, 4, 4⟩
abbrev RST_CAUSE_WDT : Fld := ⟨0x680800, 3, 3⟩
abbrev RST_CAUSE_PIN : Fld := ⟨0x680800, 2, 2⟩
abbrev RST_CAUSE_MPOR : Fld := ⟨0x680800, 1, 1⟩
abbrev RST_CAUSE_BKPOR : Fld := ⟨0x680800, 0, 0⟩
abbrev RST_CTRL_SOFT : Fld := ⟨0x680804, 31, 31⟩
abbrev RST_CTRL_TWIN_CMD : Fld := ⟨0x680804, 30, 30⟩
abbrev RST_CTRL_TWIN_RESET_EN : Fld := ⟨0x680804, 29, 29⟩
abbrev RST_WDT_CFG_LOCK : Fld := ⟨0x680808, 31, 31⟩
abbrev RST_WDT_CFG_KICKER : Fld := ⟨0x680808, 17, 16⟩
abbrev RST_WDT_CFG_TIMEOUT : Fld := ⟨0x680808, 15, 0⟩
abbrev RST_WDT_KICK_KEY : Fld := ⟨0x68080c, 7, 0⟩
abbrev EV_ROUTE_EN_MSI (n : Nat) : Fld := ⟨0x700000 + 0x4 * n, 31, 31⟩
abbrev EV_ROUTE_EN_SQM (n : Nat) : Fld := ⟨0x700000 + 0x4 * n, 30, 30⟩
abbrev EV_ROUTE_VECTOR (n : Nat) : Fld := ⟨0x700000 + 0x4 * n, 5, 0⟩
abbrev EV_PEND_PEND (k : Nat) : Fld := ⟨0x700200 + 0x4 * k, 31, 0⟩
end F

/-! BAR 0 offsets of the registers, by name. -/
namespace R

/-- DEV_ID (chapter 16). -/
abbrev DEV_ID : Nat := 0x0
/-- DEV_SERIAL_LO (chapter 16). -/
abbrev DEV_SERIAL_LO : Nat := 0x4
/-- DEV_SERIAL_HI (chapter 16). -/
abbrev DEV_SERIAL_HI : Nat := 0x8
/-- DEV_STATUS (chapter 16). -/
abbrev DEV_STATUS : Nat := 0xc
/-- DEV_IF_VER (chapter 16). -/
abbrev DEV_IF_VER : Nat := 0x10
/-- MSIX_ADDR_LO (chapter 16). -/
abbrev MSIX_ADDR_LO (v : Nat) : Nat := 0x8000 + 0x10 * v
/-- MSIX_ADDR_HI (chapter 16). -/
abbrev MSIX_ADDR_HI (v : Nat) : Nat := 0x8004 + 0x10 * v
/-- MSIX_DATA (chapter 16). -/
abbrev MSIX_DATA (v : Nat) : Nat := 0x8008 + 0x10 * v
/-- MSIX_CTL (chapter 16). -/
abbrev MSIX_CTL (v : Nat) : Nat := 0x800c + 0x10 * v
/-- MSIX_PBA (chapter 16). -/
abbrev MSIX_PBA (k : Nat) : Nat := 0x9000 + 0x4 * k
/-- TB_NOW_FRAC (chapter 01). -/
abbrev TB_NOW_FRAC : Nat := 0x10000
/-- TB_NOW_SEC_LO (chapter 01). -/
abbrev TB_NOW_SEC_LO : Nat := 0x10004
/-- TB_NOW_SEC_HI (chapter 01). -/
abbrev TB_NOW_SEC_HI : Nat := 0x10008
/-- TB_VIEW_FRAC (chapter 01). -/
abbrev TB_VIEW_FRAC : Nat := 0x1000c
/-- TB_VIEW_SEC_LO (chapter 01). -/
abbrev TB_VIEW_SEC_LO : Nat := 0x10010
/-- TB_VIEW_SEC_HI (chapter 01). -/
abbrev TB_VIEW_SEC_HI : Nat := 0x10014
/-- TB_VIEW_SEL (chapter 01). -/
abbrev TB_VIEW_SEL : Nat := 0x10018
/-- TB_STATUS (chapter 01). -/
abbrev TB_STATUS : Nat := 0x10020
/-- TB_CTRL (chapter 01). -/
abbrev TB_CTRL : Nat := 0x10024
/-- TB_RATE (chapter 01). -/
abbrev TB_RATE : Nat := 0x10028
/-- TB_STEP_FRAC (chapter 01). -/
abbrev TB_STEP_FRAC : Nat := 0x10030
/-- TB_STEP_SEC (chapter 01). -/
abbrev TB_STEP_SEC : Nat := 0x10034
/-- TB_STEP_CMD (chapter 01). -/
abbrev TB_STEP_CMD : Nat := 0x10038
/-- TB_OFS_SYS (chapter 01). -/
abbrev TB_OFS_SYS : Nat := 0x10040
/-- TB_LEAP (chapter 01). -/
abbrev TB_LEAP : Nat := 0x10044
/-- TB_LEAP_AT (chapter 01). -/
abbrev TB_LEAP_AT : Nat := 0x10048
/-- TB_EVT_n_CTRL (chapter 01). -/
abbrev TB_EVT_CTRL (n : Nat) : Nat := 0x10100 + 0x20 * n
/-- TB_EVT_n_TS0 (chapter 01). -/
abbrev TB_EVT_TS0 (n : Nat) : Nat := 0x10104 + 0x20 * n
/-- TB_EVT_n_TS1 (chapter 01). -/
abbrev TB_EVT_TS1 (n : Nat) : Nat := 0x10108 + 0x20 * n
/-- TB_EVT_n_TS2 (chapter 01). -/
abbrev TB_EVT_TS2 (n : Nat) : Nat := 0x1010c + 0x20 * n
/-- TB_EVT_n_TS3 (chapter 01). -/
abbrev TB_EVT_TS3 (n : Nat) : Nat := 0x10110 + 0x20 * n
/-- TT_STATUS (chapter 01). -/
abbrev TT_STATUS : Nat := 0x10200
/-- TT_PORT_CTRL (chapter 01). -/
abbrev TT_PORT_CTRL : Nat := 0x10204
/-- TT_PORT_W_k (chapter 01). -/
abbrev TT_PORT_W (k : Nat) : Nat := 0x10208 + 0x4 * k
/-- TT_CLASS_WEIGHT_n (chapter 01). -/
abbrev TT_CLASS_WEIGHT (n : Nat) : Nat := 0x10240 + 0x4 * n
/-- TP_CTRL (chapter 11). -/
abbrev TP_CTRL : Nat := 0x10400
/-- TP_STEP_CFG (chapter 11). -/
abbrev TP_STEP_CFG : Nat := 0x10404
/-- TP_LOOP_CFG (chapter 11). -/
abbrev TP_LOOP_CFG : Nat := 0x10408
/-- TP_UNC_CFG (chapter 11). -/
abbrev TP_UNC_CFG : Nat := 0x1040c
/-- TP_SG_CFG (chapter 11). -/
abbrev TP_SG_CFG : Nat := 0x10410
/-- TP_SG_B (chapter 11). -/
abbrev TP_SG_B : Nat := 0x10414
/-- TP_HOLD_CFG (chapter 11). -/
abbrev TP_HOLD_CFG : Nat := 0x10418
/-- TP_STATUS (chapter 11). -/
abbrev TP_STATUS : Nat := 0x10420
/-- TP_OFFSET_LO (chapter 11). -/
abbrev TP_OFFSET_LO : Nat := 0x10428
/-- TP_OFFSET_HI (chapter 11). -/
abbrev TP_OFFSET_HI : Nat := 0x1042c
/-- TP_UNC (chapter 11). -/
abbrev TP_UNC : Nat := 0x10430
/-- TP_FUNC (chapter 11). -/
abbrev TP_FUNC : Nat := 0x10434
/-- TP_HOLD_T (chapter 11). -/
abbrev TP_HOLD_T : Nat := 0x10438
/-- TP_OCXO (chapter 11). -/
abbrev TP_OCXO : Nat := 0x10440
/-- TP_OCXO_K (chapter 11). -/
abbrev TP_OCXO_K : Nat := 0x10444
/-- TP_n_CFG (chapter 11). -/
abbrev TP_CFG (n : Nat) : Nat := 0x10480 + 0x10 * n
/-- TP_n_WIDTH (chapter 11). -/
abbrev TP_WIDTH (n : Nat) : Nat := 0x10484 + 0x10 * n
/-- TP_n_DELAY (chapter 11). -/
abbrev TP_DELAY (n : Nat) : Nat := 0x10488 + 0x10 * n
/-- TP_n_STAT (chapter 11). -/
abbrev TP_STAT (n : Nat) : Nat := 0x1048c + 0x10 * n
/-- TP_FOUT_CFG (chapter 11). -/
abbrev TP_FOUT_CFG : Nat := 0x104a0
/-- CK_CFG (chapter 12). -/
abbrev CK_CFG : Nat := 0x20000
/-- CK_CTRL (chapter 12). -/
abbrev CK_CTRL : Nat := 0x20004
/-- CK_STATUS (chapter 12). -/
abbrev CK_STATUS : Nat := 0x20008
/-- CK_REF_MEAS (chapter 12). -/
abbrev CK_REF_MEAS : Nat := 0x2000c
/-- CK_JUMP (chapter 12). -/
abbrev CK_JUMP : Nat := 0x20010
/-- CK_DIV_NEXT (chapter 12). -/
abbrev CK_DIV_NEXT : Nat := 0x20014
/-- CK_DIV_NOW (chapter 12). -/
abbrev CK_DIV_NOW : Nat := 0x20018
/-- CK_DIV_COMMIT (chapter 12). -/
abbrev CK_DIV_COMMIT : Nat := 0x2001c
/-- GRF_CH_x_CTRL (chapter 02). -/
abbrev GRF_CH_CTRL (x : Nat) : Nat := 0x30000 + 0x100 * x
/-- GRF_CH_x_STATUS (chapter 02). -/
abbrev GRF_CH_STATUS (x : Nat) : Nat := 0x30004 + 0x100 * x
/-- GRF_CH_x_ANT_CFG (chapter 02). -/
abbrev GRF_CH_ANT_CFG (x : Nat) : Nat := 0x30008 + 0x100 * x
/-- GRF_CH_x_ANT_STAT (chapter 02). -/
abbrev GRF_CH_ANT_STAT (x : Nat) : Nat := 0x3000c + 0x100 * x
/-- GRF_CH_x_PROF_n_LO (chapter 02). -/
abbrev GRF_CH_PROF_LO (x : Nat) (n : Nat) : Nat := 0x30020 + 0x100 * x + 0x10 * n
/-- GRF_CH_x_PROF_n_CFG (chapter 02). -/
abbrev GRF_CH_PROF_CFG (x : Nat) (n : Nat) : Nat := 0x30024 + 0x100 * x + 0x10 * n
/-- GRF_CH_x_PROF_n_CAL (chapter 02). -/
abbrev GRF_CH_PROF_CAL (x : Nat) (n : Nat) : Nat := 0x30028 + 0x100 * x + 0x10 * n
/-- GRF_BURST_CTRL (chapter 02). -/
abbrev GRF_BURST_CTRL : Nat := 0x30800
/-- GRF_BURST_SEG_n (chapter 02). -/
abbrev GRF_BURST_SEG (n : Nat) : Nat := 0x30810 + 0x4 * n
/-- GRF_CAL_CTRL (chapter 02). -/
abbrev GRF_CAL_CTRL : Nat := 0x30820
/-- GRF_CAL_STATUS (chapter 02). -/
abbrev GRF_CAL_STATUS : Nat := 0x30824
/-- IFC_CH_x_AGC_CFG (chapter 03). -/
abbrev IFC_CH_AGC_CFG (x : Nat) : Nat := 0x40000 + 0x200 * x
/-- IFC_CH_x_AGC_STAT (chapter 03). -/
abbrev IFC_CH_AGC_STAT (x : Nat) : Nat := 0x40004 + 0x200 * x
/-- IFC_CH_x_PGAIN (chapter 03). -/
abbrev IFC_CH_PGAIN (x : Nat) : Nat := 0x40008 + 0x200 * x
/-- IFC_CH_x_BLANK_CFG (chapter 03). -/
abbrev IFC_CH_BLANK_CFG (x : Nat) : Nat := 0x40010 + 0x200 * x
/-- IFC_CH_x_BLANK_STAT (chapter 03). -/
abbrev IFC_CH_BLANK_STAT (x : Nat) : Nat := 0x40014 + 0x200 * x
/-- IFC_CH_x_JAM_CFG (chapter 03). -/
abbrev IFC_CH_JAM_CFG (x : Nat) : Nat := 0x40018 + 0x200 * x
/-- IFC_CH_x_JAM_STAT (chapter 03). -/
abbrev IFC_CH_JAM_STAT (x : Nat) : Nat := 0x4001c + 0x200 * x
/-- IFC_CH_x_NOTCH_CFG (chapter 03). -/
abbrev IFC_CH_NOTCH_CFG (x : Nat) : Nat := 0x40020 + 0x200 * x
/-- IFC_CH_x_NOTCH_n_CTRL (chapter 03). -/
abbrev IFC_CH_NOTCH_CTRL (x : Nat) (n : Nat) : Nat := 0x40040 + 0x200 * x + 0x8 * n
/-- IFC_CH_x_NOTCH_n_FREQ (chapter 03). -/
abbrev IFC_CH_NOTCH_FREQ (x : Nat) (n : Nat) : Nat := 0x40044 + 0x200 * x + 0x8 * n
/-- IFC_CH_x_SPEC_CTRL (chapter 03). -/
abbrev IFC_CH_SPEC_CTRL (x : Nat) : Nat := 0x40080 + 0x200 * x
/-- IFC_FSM_CFG (chapter 03). -/
abbrev IFC_FSM_CFG : Nat := 0x40800
/-- IFC_FSM_TH (chapter 03). -/
abbrev IFC_FSM_TH : Nat := 0x40804
/-- IFC_FSM_STAT (chapter 03). -/
abbrev IFC_FSM_STAT : Nat := 0x40808
/-- IFC_FSM_SAT_n (chapter 03). -/
abbrev IFC_FSM_SAT (n : Nat) : Nat := 0x40c00 + 0x4 * n
/-- IFC_CH_x_SPEC_BIN_j (chapter 03). -/
abbrev IFC_CH_SPEC_BIN (x : Nat) (j : Nat) : Nat := 0x41000 + 0x1000 * x + 0x4 * j
/-- BCN_CFG (chapter 13). -/
abbrev BCN_CFG : Nat := 0x50000
/-- BCN_CTRL (chapter 13). -/
abbrev BCN_CTRL : Nat := 0x50004
/-- BCN_STATUS (chapter 13). -/
abbrev BCN_STATUS : Nat := 0x50008
/-- BCN_TX_CFG (chapter 13). -/
abbrev BCN_TX_CFG : Nat := 0x5000c
/-- BCN_DELAY (chapter 13). -/
abbrev BCN_DELAY : Nat := 0x50010
/-- BCN_HUB_ID (chapter 13). -/
abbrev BCN_HUB_ID : Nat := 0x50014
/-- BCN_DET_FWD (chapter 13). -/
abbrev BCN_DET_FWD : Nat := 0x50018
/-- BCN_DET_REF (chapter 13). -/
abbrev BCN_DET_REF : Nat := 0x5001c
/-- BCN_PROT (chapter 13). -/
abbrev BCN_PROT : Nat := 0x50020
/-- BCN_PA (chapter 13). -/
abbrev BCN_PA : Nat := 0x50024
/-- BCN_AUTH_CFG (chapter 13). -/
abbrev BCN_AUTH_CFG : Nat := 0x50030
/-- BCN_CHAIN_EPOCH (chapter 13). -/
abbrev BCN_CHAIN_EPOCH : Nat := 0x50034
/-- BCN_KEY_CTRL (chapter 13). -/
abbrev BCN_KEY_CTRL : Nat := 0x50040
/-- BCN_KEY_W_k (chapter 13). -/
abbrev BCN_KEY_W (k : Nat) : Nat := 0x50044 + 0x4 * k
/-- BCN_CYC_CTRL (chapter 13). -/
abbrev BCN_CYC_CTRL : Nat := 0x50060
/-- BCN_CYC_W_k (chapter 13). -/
abbrev BCN_CYC_W (k : Nat) : Nat := 0x50064 + 0x4 * k
/-- BCN_CHT_QRY (chapter 13). -/
abbrev BCN_CHT_QRY : Nat := 0x50100
/-- BCN_CHT_FREQ (chapter 13). -/
abbrev BCN_CHT_FREQ : Nat := 0x50104
/-- BCN_CHT_USED (chapter 13). -/
abbrev BCN_CHT_USED : Nat := 0x50108
/-- BCN_CH_n_CAL (chapter 13). -/
abbrev BCN_CH_CAL (n : Nat) : Nat := 0x50200 + 0x8 * n
/-- BCN_CH_n_TUNE (chapter 13). -/
abbrev BCN_CH_TUNE (n : Nat) : Nat := 0x50204 + 0x8 * n
/-- TRK_CH_k_CTRL (chapter 04). -/
abbrev TRK_CH_CTRL (k : Nat) : Nat := 0x100000 + 0x10000 * (k / 32) + 0x80 * (k % 32)
/-- TRK_CH_k_STATUS (chapter 04). -/
abbrev TRK_CH_STATUS (k : Nat) : Nat := 0x100004 + 0x10000 * (k / 32) + 0x80 * (k % 32)
/-- TRK_CH_k_INT (chapter 04). -/
abbrev TRK_CH_INT (k : Nat) : Nat := 0x100008 + 0x10000 * (k / 32) + 0x80 * (k % 32)
/-- TRK_CH_k_TAPS (chapter 04). -/
abbrev TRK_CH_TAPS (k : Nat) : Nat := 0x10000c + 0x10000 * (k / 32) + 0x80 * (k % 32)
/-- TRK_CH_k_TAP_M (chapter 04). -/
abbrev TRK_CH_TAP_M (k : Nat) : Nat := 0x100010 + 0x10000 * (k / 32) + 0x80 * (k % 32)
/-- TRK_CH_k_SEC (chapter 04). -/
abbrev TRK_CH_SEC (k : Nat) : Nat := 0x100014 + 0x10000 * (k / 32) + 0x80 * (k % 32)
/-- TRK_CH_k_CODE_RATE_LO (chapter 04). -/
abbrev TRK_CH_CODE_RATE_LO (k : Nat) : Nat := 0x100018 + 0x10000 * (k / 32) + 0x80 * (k % 32)
/-- TRK_CH_k_CODE_RATE_HI (chapter 04). -/
abbrev TRK_CH_CODE_RATE_HI (k : Nat) : Nat := 0x10001c + 0x10000 * (k / 32) + 0x80 * (k % 32)
/-- TRK_CH_k_CARR_RATE_LO (chapter 04). -/
abbrev TRK_CH_CARR_RATE_LO (k : Nat) : Nat := 0x100020 + 0x10000 * (k / 32) + 0x80 * (k % 32)
/-- TRK_CH_k_CARR_RATE_HI (chapter 04). -/
abbrev TRK_CH_CARR_RATE_HI (k : Nat) : Nat := 0x100024 + 0x10000 * (k / 32) + 0x80 * (k % 32)
/-- TRK_CH_k_CODE_ADJ (chapter 04). -/
abbrev TRK_CH_CODE_ADJ (k : Nat) : Nat := 0x100028 + 0x10000 * (k / 32) + 0x80 * (k % 32)
/-- TRK_CH_k_START_FRAC (chapter 04). -/
abbrev TRK_CH_START_FRAC (k : Nat) : Nat := 0x10002c + 0x10000 * (k / 32) + 0x80 * (k % 32)
/-- TRK_CH_k_START_SEC (chapter 04). -/
abbrev TRK_CH_START_SEC (k : Nat) : Nat := 0x100030 + 0x10000 * (k / 32) + 0x80 * (k % 32)
/-- TRK_CH_k_NCO_CARR_LO (chapter 04). -/
abbrev TRK_CH_NCO_CARR_LO (k : Nat) : Nat := 0x100040 + 0x10000 * (k / 32) + 0x80 * (k % 32)
/-- TRK_CH_k_NCO_CARR_HI (chapter 04). -/
abbrev TRK_CH_NCO_CARR_HI (k : Nat) : Nat := 0x100044 + 0x10000 * (k / 32) + 0x80 * (k % 32)
/-- TRK_CH_k_NCO_CYC (chapter 04). -/
abbrev TRK_CH_NCO_CYC (k : Nat) : Nat := 0x100048 + 0x10000 * (k / 32) + 0x80 * (k % 32)
/-- TRK_CH_k_NCO_CODE_LO (chapter 04). -/
abbrev TRK_CH_NCO_CODE_LO (k : Nat) : Nat := 0x10004c + 0x10000 * (k / 32) + 0x80 * (k % 32)
/-- TRK_CH_k_NCO_CODE_HI (chapter 04). -/
abbrev TRK_CH_NCO_CODE_HI (k : Nat) : Nat := 0x100050 + 0x10000 * (k / 32) + 0x80 * (k % 32)
/-- TRK_CH_k_NCO_CHIP (chapter 04). -/
abbrev TRK_CH_NCO_CHIP (k : Nat) : Nat := 0x100054 + 0x10000 * (k / 32) + 0x80 * (k % 32)
/-- TRK_CH_k_NCO_TAG_FRAC (chapter 04). -/
abbrev TRK_CH_NCO_TAG_FRAC (k : Nat) : Nat := 0x100058 + 0x10000 * (k / 32) + 0x80 * (k % 32)
/-- TRK_CH_k_NCO_TAG_SEC (chapter 04). -/
abbrev TRK_CH_NCO_TAG_SEC (k : Nat) : Nat := 0x10005c + 0x10000 * (k / 32) + 0x80 * (k % 32)
/-- TRK_RING_n_CTRL (chapter 04). -/
abbrev TRK_RING_CTRL (n : Nat) : Nat := 0x101000 + 0x10000 * n
/-- TRK_RING_n_DUMP_PEND (chapter 04). -/
abbrev TRK_RING_DUMP_PEND (n : Nat) : Nat := 0x101004 + 0x10000 * n
/-- TRK_RING_n_DUMP_IEN (chapter 04). -/
abbrev TRK_RING_DUMP_IEN (n : Nat) : Nat := 0x101008 + 0x10000 * n
/-- TRK_RING_n_DUMP_LOST (chapter 04). -/
abbrev TRK_RING_DUMP_LOST (n : Nat) : Nat := 0x10100c + 0x10000 * n
/-- TRK_RING_n_ERR_PEND (chapter 04). -/
abbrev TRK_RING_ERR_PEND (n : Nat) : Nat := 0x101010 + 0x10000 * n
/-- TRK_RING_n_RUN (chapter 04). -/
abbrev TRK_RING_RUN (n : Nat) : Nat := 0x101014 + 0x10000 * n
/-- TRK_RING_n_EPOCH_CFG (chapter 05). -/
abbrev TRK_RING_EPOCH_CFG (n : Nat) : Nat := 0x101018 + 0x10000 * n
/-- TRK_RING_n_EPOCH_STAT (chapter 05). -/
abbrev TRK_RING_EPOCH_STAT (n : Nat) : Nat := 0x10101c + 0x10000 * n
/-- TRK_RING_n_EPOCH_FRAC (chapter 05). -/
abbrev TRK_RING_EPOCH_FRAC (n : Nat) : Nat := 0x101020 + 0x10000 * n
/-- TRK_RING_n_EPOCH_SEC (chapter 05). -/
abbrev TRK_RING_EPOCH_SEC (n : Nat) : Nat := 0x101024 + 0x10000 * n
/-- TRK_RING_n_HANDOFF_PEND (chapter 05). -/
abbrev TRK_RING_HANDOFF_PEND (n : Nat) : Nat := 0x101028 + 0x10000 * n
/-- TRK_RING_n_MEAS_CTRL (chapter 05). -/
abbrev TRK_RING_MEAS_CTRL (n : Nat) : Nat := 0x10102c + 0x10000 * n
/-- NAV_CFG (chapter 06). -/
abbrev NAV_CFG : Nat := 0x200000
/-- NAV_STG_WR (chapter 06). -/
abbrev NAV_STG_WR : Nat := 0x200004
/-- NAV_STG_RD (chapter 06). -/
abbrev NAV_STG_RD : Nat := 0x200008
/-- NAV_STG_STAT (chapter 06). -/
abbrev NAV_STG_STAT : Nat := 0x20000c
/-- NAV_RING_n_SYM (chapter 06). -/
abbrev NAV_RING_SYM (n : Nat) : Nat := 0x200100 + 0x4 * n
/-- NAV_RING_n_STAT (chapter 06). -/
abbrev NAV_RING_STAT (n : Nat) : Nat := 0x200140 + 0x4 * n
/-- NAV_CH_k_STAT (chapter 06). -/
abbrev NAV_CH_STAT (k : Nat) : Nat := 0x201000 + 0x8 * k
/-- NAV_CH_k_SYMIDX (chapter 06). -/
abbrev NAV_CH_SYMIDX (k : Nat) : Nat := 0x201004 + 0x8 * k
/-- SIEVE_CFG (chapter 07). -/
abbrev SIEVE_CFG : Nat := 0x280000
/-- SIEVE_CAP (chapter 07). -/
abbrev SIEVE_CAP : Nat := 0x280004
/-- SIEVE_STAT (chapter 07). -/
abbrev SIEVE_STAT : Nat := 0x280008
/-- SIEVE_RING_MASK (chapter 07). -/
abbrev SIEVE_RING_MASK : Nat := 0x28000c
/-- SIEVE_STALE (chapter 07). -/
abbrev SIEVE_STALE : Nat := 0x280010
/-- SIEVE_AUTO_SIG (chapter 07). -/
abbrev SIEVE_AUTO_SIG : Nat := 0x280014
/-- SIEVE_PORT_CTRL (chapter 07). -/
abbrev SIEVE_PORT_CTRL : Nat := 0x280020
/-- SIEVE_PORT_W_k (chapter 07). -/
abbrev SIEVE_PORT_W (k : Nat) : Nat := 0x280040 + 0x4 * k
/-- CAR_CFG (chapter 08). -/
abbrev CAR_CFG : Nat := 0x300000
/-- CAR_VER (chapter 08). -/
abbrev CAR_VER : Nat := 0x300004
/-- CAR_VER_MIN (chapter 08). -/
abbrev CAR_VER_MIN : Nat := 0x300008
/-- CAR_FEAT_OFFER (chapter 08). -/
abbrev CAR_FEAT_OFFER : Nat := 0x30000c
/-- CAR_FEAT_GRANT (chapter 08). -/
abbrev CAR_FEAT_GRANT : Nat := 0x300010
/-- CAR_STAT (chapter 08). -/
abbrev CAR_STAT : Nat := 0x300014
/-- CAR_QSTAT (chapter 08). -/
abbrev CAR_QSTAT : Nat := 0x300018
/-- CAR_ERR (chapter 08). -/
abbrev CAR_ERR : Nat := 0x30001c
/-- CAR_DONE_LO (chapter 08). -/
abbrev CAR_DONE_LO : Nat := 0x300020
/-- CAR_DONE_HI (chapter 08). -/
abbrev CAR_DONE_HI : Nat := 0x300024
/-- CAR_FWD_CFG (chapter 08). -/
abbrev CAR_FWD_CFG : Nat := 0x300030
/-- CAR_FWD_STAT (chapter 08). -/
abbrev CAR_FWD_STAT : Nat := 0x300034
/-- CAR_CANCEL_TAG_LO (chapter 08). -/
abbrev CAR_CANCEL_TAG_LO : Nat := 0x300040
/-- CAR_CANCEL_TAG_HI (chapter 08). -/
abbrev CAR_CANCEL_TAG_HI : Nat := 0x300044
/-- CAR_CANCEL_CTRL (chapter 08). -/
abbrev CAR_CANCEL_CTRL : Nat := 0x300048
/-- CAR_SLOT_QRY (chapter 08). -/
abbrev CAR_SLOT_QRY : Nat := 0x300050
/-- CAR_SLOT_INFO0 (chapter 08). -/
abbrev CAR_SLOT_INFO0 : Nat := 0x300054
/-- CAR_SLOT_INFO1 (chapter 08). -/
abbrev CAR_SLOT_INFO1 : Nat := 0x300058
/-- CAR_SRC_s_LIMIT (chapter 08). -/
abbrev CAR_SRC_LIMIT (s : Nat) : Nat := 0x300100 + 0x4 * s
/-- CAR_LANE_CFG (chapter 09). -/
abbrev CAR_LANE_CFG : Nat := 0x300200
/-- CAR_LANE_STAT (chapter 09). -/
abbrev CAR_LANE_STAT : Nat := 0x300204
/-- CAR_LANE_FAULT_LO (chapter 09). -/
abbrev CAR_LANE_FAULT_LO : Nat := 0x300208
/-- CAR_LANE_FAULT_HI (chapter 09). -/
abbrev CAR_LANE_FAULT_HI : Nat := 0x30020c
/-- CAR_WIN_CFG (chapter 09). -/
abbrev CAR_WIN_CFG : Nat := 0x300210
/-- CAR_DET_CFG (chapter 09). -/
abbrev CAR_DET_CFG : Nat := 0x300214
/-- CAR_CORR_ERR (chapter 09). -/
abbrev CAR_CORR_ERR : Nat := 0x300218
/-- CAR_SCRATCH (chapter 09). -/
abbrev CAR_SCRATCH : Nat := 0x30021c
/-- CAR_PROF_p_RATE (chapter 09). -/
abbrev CAR_PROF_RATE (p : Nat) : Nat := 0x300240 + 0x10 * p
/-- CAR_PROF_p_CFG (chapter 09). -/
abbrev CAR_PROF_CFG (p : Nat) : Nat := 0x300244 + 0x10 * p
/-- CAR_PROF_p_REGION (chapter 09). -/
abbrev CAR_PROF_REGION (p : Nat) : Nat := 0x300248 + 0x10 * p
/-- CAR_ARB_s (chapter 09). -/
abbrev CAR_ARB (s : Nat) : Nat := 0x300280 + 0x4 * s
/-- CAR_ARB_CAL (chapter 09). -/
abbrev CAR_ARB_CAL : Nat := 0x300310
/-- CAR_ARB_CFG (chapter 09). -/
abbrev CAR_ARB_CFG : Nat := 0x300314
/-- CAR_GROUP_g_CFG (chapter 09). -/
abbrev CAR_GROUP_CFG (g : Nat) : Nat := 0x300320 + 0x4 * g
/-- SKY_CFG (chapter 10). -/
abbrev SKY_CFG : Nat := 0x380000
/-- SKY_STAT (chapter 10). -/
abbrev SKY_STAT : Nat := 0x380004
/-- SKY_PORT_CTRL (chapter 10). -/
abbrev SKY_PORT_CTRL : Nat := 0x380010
/-- SKY_IONO_C_j (chapter 10). -/
abbrev SKY_IONO_C (j : Nat) : Nat := 0x380040 + 0x4 * j
/-- SKY_IONO_REF (chapter 10). -/
abbrev SKY_IONO_REF : Nat := 0x380058
/-- SKY_IONO_ORIGIN (chapter 10). -/
abbrev SKY_IONO_ORIGIN : Nat := 0x38005c
/-- SKY_KLOB_A (chapter 10). -/
abbrev SKY_KLOB_A : Nat := 0x380060
/-- SKY_KLOB_B (chapter 10). -/
abbrev SKY_KLOB_B : Nat := 0x380064
/-- SKY_IBB_b (chapter 10). -/
abbrev SKY_IBB (b : Nat) : Nat := 0x380070 + 0x4 * b
/-- SKY_PORT_W_k (chapter 10). -/
abbrev SKY_PORT_W (k : Nat) : Nat := 0x380100 + 0x4 * k
/-- SKY_QRY_CTRL (chapter 10). -/
abbrev SKY_QRY_CTRL : Nat := 0x380200
/-- SKY_QRY_T_FRAC (chapter 10). -/
abbrev SKY_QRY_T_FRAC : Nat := 0x380204
/-- SKY_QRY_T_SEC (chapter 10). -/
abbrev SKY_QRY_T_SEC : Nat := 0x380208
/-- SKY_QRY_POS_k (chapter 10). -/
abbrev SKY_QRY_POS (k : Nat) : Nat := 0x38020c + 0x4 * k
/-- SKY_QRY_VEL_k (chapter 10). -/
abbrev SKY_QRY_VEL (k : Nat) : Nat := 0x380224 + 0x4 * k
/-- SKY_QRY_CLK_k (chapter 10). -/
abbrev SKY_QRY_CLK (k : Nat) : Nat := 0x380230 + 0x4 * k
/-- SKY_QRY_CRATE (chapter 10). -/
abbrev SKY_QRY_CRATE : Nat := 0x380238
/-- SOL_CFG (chapter 10). -/
abbrev SOL_CFG : Nat := 0x381000
/-- SOL_TH (chapter 10). -/
abbrev SOL_TH : Nat := 0x381004
/-- SOL_LIVE_CFG (chapter 10). -/
abbrev SOL_LIVE_CFG : Nat := 0x381008
/-- SOL_SURVEY_POS_k (chapter 10). -/
abbrev SOL_SURVEY_POS (k : Nat) : Nat := 0x381010 + 0x4 * k
/-- SOL_SURVEY_UNC (chapter 10). -/
abbrev SOL_SURVEY_UNC : Nat := 0x381028
/-- SOL_STAT (chapter 10). -/
abbrev SOL_STAT : Nat := 0x381030
/-- SOL_FIX_W_k (chapter 10). -/
abbrev SOL_FIX_W (k : Nat) : Nat := 0x381040 + 0x4 * k
/-- HOST_RING_n_BASE_LO (chapter 16). -/
abbrev HOST_RING_BASE_LO (n : Nat) : Nat := 0x400000 + 0x40 * n
/-- HOST_RING_n_BASE_HI (chapter 16). -/
abbrev HOST_RING_BASE_HI (n : Nat) : Nat := 0x400004 + 0x40 * n
/-- HOST_RING_n_CFG (chapter 16). -/
abbrev HOST_RING_CFG (n : Nat) : Nat := 0x400008 + 0x40 * n
/-- HOST_RING_n_HEAD (chapter 16). -/
abbrev HOST_RING_HEAD (n : Nat) : Nat := 0x40000c + 0x40 * n
/-- HOST_RING_n_TAIL (chapter 16). -/
abbrev HOST_RING_TAIL (n : Nat) : Nat := 0x400010 + 0x40 * n
/-- HOST_RING_n_STAT (chapter 16). -/
abbrev HOST_RING_STAT (n : Nat) : Nat := 0x400014 + 0x40 * n
/-- HOST_COPY_c_ADDR_LO (chapter 16). -/
abbrev HOST_COPY_ADDR_LO (c : Nat) : Nat := 0x401100 + 0x20 * c
/-- HOST_COPY_c_ADDR_HI (chapter 16). -/
abbrev HOST_COPY_ADDR_HI (c : Nat) : Nat := 0x401104 + 0x20 * c
/-- HOST_COPY_c_DEV (chapter 16). -/
abbrev HOST_COPY_DEV (c : Nat) : Nat := 0x401108 + 0x20 * c
/-- HOST_COPY_c_LEN (chapter 16). -/
abbrev HOST_COPY_LEN (c : Nat) : Nat := 0x40110c + 0x20 * c
/-- HOST_COPY_c_CTRL (chapter 16). -/
abbrev HOST_COPY_CTRL (c : Nat) : Nat := 0x401110 + 0x20 * c
/-- HOST_RES_PEND (chapter 16). -/
abbrev HOST_RES_PEND : Nat := 0x401200
/-- HOST_SPACE_PEND (chapter 16). -/
abbrev HOST_SPACE_PEND : Nat := 0x401204
/-- HOST_STREAM_PEND (chapter 16). -/
abbrev HOST_STREAM_PEND : Nat := 0x401208
/-- HOST_NEG (chapter 16). -/
abbrev HOST_NEG : Nat := 0x40120c
/-- HOST_ERR (chapter 16). -/
abbrev HOST_ERR : Nat := 0x401210
/-- TRP_PORT_p_CFG (chapter 17). -/
abbrev TRP_PORT_CFG (p : Nat) : Nat := 0x480000 + 0x100 * p
/-- TRP_PORT_p_BLK (chapter 17). -/
abbrev TRP_PORT_BLK (p : Nat) : Nat := 0x480004 + 0x100 * p
/-- TRP_PORT_p_ASYM (chapter 17). -/
abbrev TRP_PORT_ASYM (p : Nat) : Nat := 0x480008 + 0x100 * p
/-- TRP_PORT_p_STAT (chapter 17). -/
abbrev TRP_PORT_STAT (p : Nat) : Nat := 0x48000c + 0x100 * p
/-- TRP_PORT_p_FEAT (chapter 17). -/
abbrev TRP_PORT_FEAT (p : Nat) : Nat := 0x480010 + 0x100 * p
/-- TRP_PORT_p_CRED (chapter 17). -/
abbrev TRP_PORT_CRED (p : Nat) : Nat := 0x480014 + 0x100 * p
/-- TRP_PORT_p_PEER_LO (chapter 17). -/
abbrev TRP_PORT_PEER_LO (p : Nat) : Nat := 0x480018 + 0x100 * p
/-- TRP_PORT_p_PEER_HI (chapter 17). -/
abbrev TRP_PORT_PEER_HI (p : Nat) : Nat := 0x48001c + 0x100 * p
/-- TRP_PORT_p_DELAY (chapter 17). -/
abbrev TRP_PORT_DELAY (p : Nat) : Nat := 0x480020 + 0x100 * p
/-- TRP_PORT_p_ERRCNT (chapter 17). -/
abbrev TRP_PORT_ERRCNT (p : Nat) : Nat := 0x480024 + 0x100 * p
/-- TRP_TWIN_CFG (chapter 17). -/
abbrev TRP_TWIN_CFG : Nat := 0x480800
/-- TRP_TWIN_STAT (chapter 17). -/
abbrev TRP_TWIN_STAT : Nat := 0x480804
/-- TRP_TIME_CFG (chapter 17). -/
abbrev TRP_TIME_CFG : Nat := 0x480808
/-- TRP_TIME_STAT (chapter 17). -/
abbrev TRP_TIME_STAT : Nat := 0x48080c
/-- TRP_TIME_OFS_LO (chapter 17). -/
abbrev TRP_TIME_OFS_LO : Nat := 0x480810
/-- TRP_TIME_OFS_HI (chapter 17). -/
abbrev TRP_TIME_OFS_HI : Nat := 0x480814
/-- SPIM_CFG (chapter 18). -/
abbrev SPIM_CFG : Nat := 0x500000
/-- SPIM_XIP (chapter 18). -/
abbrev SPIM_XIP : Nat := 0x500004
/-- SPIM_STAT (chapter 18). -/
abbrev SPIM_STAT : Nat := 0x500008
/-- SPIM_CMD_CTRL (chapter 18). -/
abbrev SPIM_CMD_CTRL : Nat := 0x500010
/-- SPIM_CMD_ADDR (chapter 18). -/
abbrev SPIM_CMD_ADDR : Nat := 0x500014
/-- SPIM_CMD_LEN (chapter 18). -/
abbrev SPIM_CMD_LEN : Nat := 0x500018
/-- SPIM_CMD_DATA_k (chapter 18). -/
abbrev SPIM_CMD_DATA (k : Nat) : Nat := 0x500100 + 0x4 * k
/-- SPIS_CFG (chapter 18). -/
abbrev SPIS_CFG : Nat := 0x501000
/-- SPIS_RESP (chapter 18). -/
abbrev SPIS_RESP : Nat := 0x501004
/-- SPIS_STAT (chapter 18). -/
abbrev SPIS_STAT : Nat := 0x501008
/-- SPIS_RX_CTRL (chapter 18). -/
abbrev SPIS_RX_CTRL : Nat := 0x50100c
/-- SPIS_RX_DATA (chapter 18). -/
abbrev SPIS_RX_DATA : Nat := 0x501010
/-- SPIS_TX (chapter 18). -/
abbrev SPIS_TX : Nat := 0x501014
/-- UA_n_CFG (chapter 18). -/
abbrev UA_CFG (n : Nat) : Nat := 0x502000 + 0x1000 * n
/-- UA_n_DIV (chapter 18). -/
abbrev UA_DIV (n : Nat) : Nat := 0x502004 + 0x1000 * n
/-- UA_n_RX (chapter 18). -/
abbrev UA_RX (n : Nat) : Nat := 0x502008 + 0x1000 * n
/-- UA_n_TX (chapter 18). -/
abbrev UA_TX (n : Nat) : Nat := 0x50200c + 0x1000 * n
/-- UA_n_STAT (chapter 18). -/
abbrev UA_STAT (n : Nat) : Nat := 0x502010 + 0x1000 * n
/-- UA_n_IEN (chapter 18). -/
abbrev UA_IEN (n : Nat) : Nat := 0x502014 + 0x1000 * n
/-- UA_0_DE (chapter 18). -/
abbrev UA_0_DE : Nat := 0x502018
/-- UA_0_WAKE (chapter 18). -/
abbrev UA_0_WAKE : Nat := 0x50201c
/-- UA_1_CARD (chapter 18). -/
abbrev UA_1_CARD : Nat := 0x503018
/-- SQ_n_CTRL (chapter 14). -/
abbrev SQ_CTRL (n : Nat) : Nat := 0x580000 + 0x100 * n
/-- SQ_n_START (chapter 14). -/
abbrev SQ_START (n : Nat) : Nat := 0x580004 + 0x100 * n
/-- SQ_n_STAT (chapter 14). -/
abbrev SQ_STAT (n : Nat) : Nat := 0x580008 + 0x100 * n
/-- SQ_n_PC (chapter 14). -/
abbrev SQ_PC (n : Nat) : Nat := 0x58000c + 0x100 * n
/-- SEC_BOOT_STAT (chapter 19). -/
abbrev SEC_BOOT_STAT : Nat := 0x600000
/-- SEC_BOOT_CTRL (chapter 19). -/
abbrev SEC_BOOT_CTRL : Nat := 0x600004
/-- SEC_RB (chapter 19). -/
abbrev SEC_RB : Nat := 0x600008
/-- SEC_ROOT (chapter 19). -/
abbrev SEC_ROOT : Nat := 0x60000c
/-- SEC_IMG_DIGEST_k (chapter 19). -/
abbrev SEC_IMG_DIGEST (k : Nat) : Nat := 0x600010 + 0x4 * k
/-- SEC_OTP_CTRL (chapter 19). -/
abbrev SEC_OTP_CTRL : Nat := 0x600030
/-- SEC_OTP_DATA (chapter 19). -/
abbrev SEC_OTP_DATA : Nat := 0x600034
/-- SEC_ID_PK_k (chapter 19). -/
abbrev SEC_ID_PK (k : Nat) : Nat := 0x600040 + 0x4 * k
/-- SEC_ATT_CTRL (chapter 19). -/
abbrev SEC_ATT_CTRL : Nat := 0x600080
/-- SEC_ATT_ADDR_LO (chapter 19). -/
abbrev SEC_ATT_ADDR_LO : Nat := 0x600084
/-- SEC_ATT_ADDR_HI (chapter 19). -/
abbrev SEC_ATT_ADDR_HI : Nat := 0x600088
/-- SEC_ATT_NONCE_k (chapter 19). -/
abbrev SEC_ATT_NONCE (k : Nat) : Nat := 0x600090 + 0x4 * k
/-- SEC_PROT_STAT (chapter 19). -/
abbrev SEC_PROT_STAT : Nat := 0x6000c0
/-- SEC_PROT_ADDR (chapter 19). -/
abbrev SEC_PROT_ADDR : Nat := 0x6000c4
/-- SEC_PU_n_BASE (chapter 19). -/
abbrev SEC_PU_BASE (n : Nat) : Nat := 0x600100 + 0x10 * n
/-- SEC_PU_n_LIMIT (chapter 19). -/
abbrev SEC_PU_LIMIT (n : Nat) : Nat := 0x600104 + 0x10 * n
/-- SEC_PU_n_PERM (chapter 19). -/
abbrev SEC_PU_PERM (n : Nat) : Nat := 0x600108 + 0x10 * n
/-- SEC_DBG_STAT (chapter 19). -/
abbrev SEC_DBG_STAT : Nat := 0x600400
/-- SEC_DBG_CTRL (chapter 19). -/
abbrev SEC_DBG_CTRL : Nat := 0x600404
/-- SEC_DBG_NONCE_k (chapter 19). -/
abbrev SEC_DBG_NONCE (k : Nat) : Nat := 0x600410 + 0x4 * k
/-- SEC_DBG_EXP_LO (chapter 19). -/
abbrev SEC_DBG_EXP_LO : Nat := 0x600420
/-- SEC_DBG_EXP_HI (chapter 19). -/
abbrev SEC_DBG_EXP_HI : Nat := 0x600424
/-- LC_STATE (chapter 19). -/
abbrev LC_STATE : Nat := 0x600800
/-- LC_CTRL (chapter 19). -/
abbrev LC_CTRL : Nat := 0x600804
/-- PWR_CTRL (chapter 20). -/
abbrev PWR_CTRL : Nat := 0x680000
/-- PWR_REQ (chapter 20). -/
abbrev PWR_REQ : Nat := 0x680004
/-- PWR_STAT (chapter 20). -/
abbrev PWR_STAT : Nat := 0x680008
/-- PWR_CFG (chapter 20). -/
abbrev PWR_CFG : Nat := 0x68000c
/-- PWR_START_DEFER (chapter 20). -/
abbrev PWR_START_DEFER : Nat := 0x680010
/-- PWR_DOMAIN (chapter 20). -/
abbrev PWR_DOMAIN : Nat := 0x680014
/-- PWR_PF_CFG (chapter 20). -/
abbrev PWR_PF_CFG : Nat := 0x680020
/-- PWR_HOLDUP_CFG (chapter 20). -/
abbrev PWR_HOLDUP_CFG : Nat := 0x680024
/-- PWR_HOLDUP_V (chapter 20). -/
abbrev PWR_HOLDUP_V : Nat := 0x680028
/-- PWR_HOLDUP_STAT (chapter 20). -/
abbrev PWR_HOLDUP_STAT : Nat := 0x68002c
/-- PWR_STORE_CTRL (chapter 20). -/
abbrev PWR_STORE_CTRL : Nat := 0x680030
/-- PWR_STORE_BASE (chapter 20). -/
abbrev PWR_STORE_BASE : Nat := 0x680034
/-- PWR_STORE_k_CFG (chapter 20). -/
abbrev PWR_STORE_CFG (k : Nat) : Nat := 0x680040 + 0x4 * k
/-- PWR_STORE_k_STAT (chapter 20). -/
abbrev PWR_STORE_STAT (k : Nat) : Nat := 0x680060 + 0x4 * k
/-- PWR_BK_SUB (chapter 20). -/
abbrev PWR_BK_SUB : Nat := 0x680100
/-- PWR_BK_SEC_LO (chapter 20). -/
abbrev PWR_BK_SEC_LO : Nat := 0x680104
/-- PWR_BK_SEC_HI (chapter 20). -/
abbrev PWR_BK_SEC_HI : Nat := 0x680108
/-- PWR_WAKE_AT (chapter 20). -/
abbrev PWR_WAKE_AT : Nat := 0x680110
/-- PWR_WAKE_CFG (chapter 20). -/
abbrev PWR_WAKE_CFG : Nat := 0x680114
/-- PWR_WAKE_STAT (chapter 20). -/
abbrev PWR_WAKE_STAT : Nat := 0x680118
/-- RST_CAUSE (chapter 20). -/
abbrev RST_CAUSE : Nat := 0x680800
/-- RST_CTRL (chapter 20). -/
abbrev RST_CTRL : Nat := 0x680804
/-- RST_WDT_CFG (chapter 20). -/
abbrev RST_WDT_CFG : Nat := 0x680808
/-- RST_WDT_KICK (chapter 20). -/
abbrev RST_WDT_KICK : Nat := 0x68080c
/-- EV_n_ROUTE (chapter 16). -/
abbrev EV_ROUTE (n : Nat) : Nat := 0x700000 + 0x4 * n
/-- EV_PEND_k (chapter 16). -/
abbrev EV_PEND (k : Nat) : Nat := 0x700200 + 0x4 * k
end R

end Sys2Proof.Machine
end

