-- ==== Sys2Proof/Machine/RegTable.lean ====
section
/-! DEFINITION. The register table of BAR 0 (R4 to R8, R425): for every register the chapters lay out, its offset, its
index ranges, its retention class (R6), whether each reader has its own copy (R35), and its fields with their bits,
access codes (R5), reset values and the values a write of them ignores. Written from the register tables of the chapters.
Reset values: where a table says "img" the bedrock default stands (assumption 2); where it takes the bedrock default
from OTP the OTP is blank and the value is 0 (assumption 3); "—" is 0 (assumption 4). -/
namespace Sys2Proof.Machine

/-- The access codes of R5. `rwl b` is locked by bit `b` of the same word; `vltWo` is a write-only VLT field. -/
inductive Acc where
  | rw | ro | wo | w1c | w1s | rwl (lockBit : Nat) | vlt | vltWo
deriving DecidableEq, Repr

/-- Which written values a field takes; a write of another value leaves the field unchanged, as its table says. -/
inductive Legal where
  | any | ne (v : Nat) | le (v : Nat) | range (a b : Nat) | absLe (v : Nat) | evenGe2
deriving DecidableEq, Repr

/-- The retention classes of R6. -/
inductive RetClass where
  | b | s | d | f
deriving DecidableEq, Repr

/-- One field of a register: bits `hi:lo`, access code, reset value, writable values. -/
structure FieldSpec where
  hi : Nat
  lo : Nat
  acc : Acc
  rst : Nat
  legal : Legal
deriving DecidableEq, Repr

/-- One register, or an array of registers: `dims` holds a stride and a count for each index, largest stride first, and
the reset word of index `i` of the first dimension is the fields' word plus `i * inc`. -/
structure RegSpec where
  base : Nat
  dims : List (Nat × Nat)
  inc : Nat
  cls : RetClass
  perReader : Bool
  fields : List FieldSpec
deriving DecidableEq, Repr

/-- Short spelling of a field's row. -/
def fs (hi lo : Nat) (acc : Acc) (rst : Nat) (legal : Legal := .any) : FieldSpec := ⟨hi, lo, acc, rst, legal⟩

/-- Registers of BAR 0 from 0x00000000, part 0. -/
def regPage00_0 : List RegSpec := [
  -- DEV_ID
  ⟨0x0, [], 0, .s, false, [fs 31 16 .ro 0x960, fs 15 8 .ro 0xa1]⟩,
  -- DEV_SERIAL_LO
  ⟨0x4, [], 0, .s, false, [fs 31 0 .ro 0x0]⟩,
  -- DEV_SERIAL_HI
  ⟨0x8, [], 0, .s, false, [fs 31 0 .ro 0x0]⟩,
  -- DEV_STATUS
  ⟨0xc, [], 0, .s, false, [fs 31 31 .ro 0x0, fs 30 28 .ro 0x0, fs 27 25 .ro 0x0, fs 15 0 .ro 0x0]⟩,
  -- DEV_IF_VER
  ⟨0x10, [], 0, .s, false, [fs 31 16 .ro 0x300, fs 15 8 .ro 0x2, fs 7 0 .ro 0x4]⟩,
  -- MSIX_ADDR_LO
  ⟨0x8000, [(0x10, 64)], 0, .f, false, [fs 31 0 .rw 0x0]⟩,
  -- MSIX_ADDR_HI
  ⟨0x8004, [(0x10, 64)], 0, .f, false, [fs 31 0 .rw 0x0]⟩,
  -- MSIX_DATA
  ⟨0x8008, [(0x10, 64)], 0, .f, false, [fs 31 0 .rw 0x0]⟩,
  -- MSIX_CTL
  ⟨0x800c, [(0x10, 64)], 0, .f, false, [fs 0 0 .rw 0x1]⟩,
  -- MSIX_PBA
  ⟨0x9000, [(0x4, 2)], 0, .f, false, [fs 31 0 .ro 0x0]⟩
  ]

/-- All registers of BAR 0 from 0x00000000. -/
def regPage00 : List RegSpec := regPage00_0

/-- Registers of BAR 0 from 0x00010000, part 0. -/
def regPage01_0 : List RegSpec := [
  -- TB_NOW_FRAC
  ⟨0x10000, [], 0, .s, false, [fs 31 0 .ro 0x0]⟩,
  -- TB_NOW_SEC_LO
  ⟨0x10004, [], 0, .s, false, [fs 31 0 .ro 0x0]⟩,
  -- TB_NOW_SEC_HI
  ⟨0x10008, [], 0, .s, false, [fs 15 0 .ro 0x0]⟩,
  -- TB_VIEW_FRAC
  ⟨0x1000c, [], 0, .s, false, [fs 31 0 .ro 0x0]⟩,
  -- TB_VIEW_SEC_LO
  ⟨0x10010, [], 0, .s, false, [fs 31 0 .ro 0x0]⟩,
  -- TB_VIEW_SEC_HI
  ⟨0x10014, [], 0, .s, false, [fs 31 31 .ro 0x0, fs 15 0 .ro 0x0]⟩,
  -- TB_VIEW_SEL
  ⟨0x10018, [], 0, .f, true, [fs 1 0 .rw 0x0]⟩,
  -- TB_STATUS
  ⟨0x10020, [], 0, .s, false, [fs 31 24 .ro 0x0, fs 23 20 .ro 0x0, fs 19 19 .ro 0x0, fs 18 18 .ro 0x0, fs 17 17 .ro 0x0, fs 16 16 .ro 0x0, fs 15 15 .ro 0x0]⟩,
  -- TB_CTRL
  ⟨0x10024, [], 0, .s, false, [fs 31 31 .w1s 0x0, fs 0 0 (.rwl 31) 0x0]⟩,
  -- TB_RATE
  ⟨0x10028, [], 0, .s, false, [fs 31 0 .rw 0x0]⟩,
  -- TB_STEP_FRAC
  ⟨0x10030, [], 0, .f, false, [fs 31 0 .rw 0x0]⟩,
  -- TB_STEP_SEC
  ⟨0x10034, [], 0, .f, false, [fs 31 0 .rw 0x0]⟩,
  -- TB_STEP_CMD
  ⟨0x10038, [], 0, .f, false, [fs 31 16 .rw 0x0, fs 15 12 .rw 0x0, fs 2 2 .wo 0x0, fs 1 1 .wo 0x0, fs 0 0 .wo 0x0]⟩,
  -- TB_OFS_SYS
  ⟨0x10040, [], 0, .s, false, [fs 31 16 .rw 0x0, fs 15 0 .rw 0x0]⟩,
  -- TB_LEAP
  ⟨0x10044, [], 0, .s, false, [fs 31 16 .rw 0x0, fs 15 8 .rw 0x12, fs 7 0 .rw 0x12]⟩,
  -- TB_LEAP_AT
  ⟨0x10048, [], 0, .s, false, [fs 31 0 .rw 0x0]⟩,
  -- TB_EVT_CTRL
  ⟨0x10100, [(0x20, 4)], 0, .d, false, [fs 31 31 .wo 0x0, fs 30 30 .w1c 0x0, fs 29 29 .w1c 0x0, fs 11 8 .ro 0x0, fs 1 0 .rw 0x0]⟩,
  -- TB_EVT_TS0
  ⟨0x10104, [(0x20, 4)], 0, .d, false, [fs 31 16 .ro 0x0, fs 15 15 .ro 0x0, fs 14 14 .ro 0x0, fs 13 13 .ro 0x0, fs 12 12 .ro 0x0, fs 7 4 .ro 0x0]⟩,
  -- TB_EVT_TS1
  ⟨0x10108, [(0x20, 4)], 0, .d, false, [fs 31 0 .ro 0x0]⟩,
  -- TB_EVT_TS2
  ⟨0x1010c, [(0x20, 4)], 0, .d, false, [fs 31 0 .ro 0x0]⟩,
  -- TB_EVT_TS3
  ⟨0x10110, [(0x20, 4)], 0, .d, false, [fs 15 0 .ro 0x0]⟩,
  -- TT_STATUS
  ⟨0x10200, [], 0, .d, false, [fs 31 19 .ro 0x0, fs 1 1 .w1c 0x0, fs 0 0 .w1c 0x0]⟩,
  -- TT_PORT_CTRL
  ⟨0x10204, [], 0, .f, true, [fs 31 31 .ro 0x0, fs 23 16 .ro 0x0, fs 13 12 .wo 0x0, fs 11 0 .rw 0x0]⟩,
  -- TT_PORT_W
  ⟨0x10208, [(0x4, 8)], 0, .f, true, [fs 31 0 .rw 0x0]⟩,
  -- TT_CLASS_WEIGHT
  ⟨0x10240, [(0x4, 16)], 0, .s, false, [fs 7 0 .rw 0x1]⟩,
  -- TP_CTRL
  ⟨0x10400, [], 0, .d, false, [fs 31 31 .rw 0x1, fs 30 30 .rw 0x0, fs 29 29 .rw 0x0, fs 28 28 .rw 0x0, fs 23 20 .rw 0x2 (.range 2 4), fs 19 16 .rw 0x3 (.ne 0), fs 15 8 .rw 0x3]⟩,
  -- TP_STEP_CFG
  ⟨0x10404, [], 0, .d, false, [fs 31 24 .rw 0x2, fs 23 16 .rw 0xa, fs 15 0 .rw 0x3e8]⟩,
  -- TP_LOOP_CFG
  ⟨0x10408, [], 0, .d, false, [fs 31 16 .rw 0x3e8 (.ne 0), fs 15 8 .rw 0xa (.ne 0)]⟩,
  -- TP_UNC_CFG
  ⟨0x1040c, [], 0, .d, false, [fs 31 24 .rw 0x2d, fs 23 16 .rw 0xa, fs 15 0 .rw 0xc8]⟩,
  -- TP_SG_CFG
  ⟨0x10410, [], 0, .d, false, [fs 23 16 .rw 0x32, fs 15 0 .rw 0x64]⟩,
  -- TP_SG_B
  ⟨0x10414, [], 0, .d, false, [fs 31 0 .rw 0x1f4]⟩,
  -- TP_HOLD_CFG
  ⟨0x10418, [], 0, .d, false, [fs 23 0 .rw 0x15180]⟩,
  -- TP_STATUS
  ⟨0x10420, [], 0, .d, false, [fs 31 30 .ro 0x0, fs 29 29 .ro 0x0, fs 28 28 .ro 0x0, fs 27 27 .ro 0x0, fs 26 26 .ro 0x0, fs 25 25 .w1c 0x0, fs 24 24 .w1c 0x0, fs 23 23 .w1c 0x0, fs 22 22 .w1c 0x0, fs 21 21 .w1c 0x0, fs 20 20 .w1c 0x0, fs 19 16 .ro 0x0]⟩,
  -- TP_OFFSET_LO
  ⟨0x10428, [], 0, .d, false, [fs 31 0 .ro 0x0]⟩,
  -- TP_OFFSET_HI
  ⟨0x1042c, [], 0, .d, false, [fs 31 0 .ro 0x0]⟩,
  -- TP_UNC
  ⟨0x10430, [], 0, .d, false, [fs 31 0 .ro 0xffffffff]⟩,
  -- TP_FUNC
  ⟨0x10434, [], 0, .d, false, [fs 31 0 .ro 0xffffffff]⟩,
  -- TP_HOLD_T
  ⟨0x10438, [], 0, .d, false, [fs 31 0 .ro 0x0]⟩,
  -- TP_OCXO
  ⟨0x10440, [], 0, .s, false, [fs 19 0 .rw 0x80000]⟩,
  -- TP_OCXO_K
  ⟨0x10444, [], 0, .d, false, [fs 31 0 .rw 0x0]⟩
  ]

/-- Registers of BAR 0 from 0x00010000, part 1. -/
def regPage01_1 : List RegSpec := [
  -- TP_CFG
  ⟨0x10480, [(0x10, 2)], 0, .d, false, [fs 31 30 .rw 0x0, fs 29 29 .rw 0x0]⟩,
  -- TP_WIDTH
  ⟨0x10484, [(0x10, 2)], 0, .d, false, [fs 23 0 .rw 0x186a0]⟩,
  -- TP_DELAY
  ⟨0x10488, [(0x10, 2)], 0, .d, false, [fs 31 0 .rw 0x0 (.absLe 1000000)]⟩,
  -- TP_STAT
  ⟨0x1048c, [(0x10, 2)], 0, .d, false, [fs 31 16 .ro 0x0, fs 15 0 .ro 0x0]⟩,
  -- TP_FOUT_CFG
  ⟨0x104a0, [], 0, .d, false, [fs 31 31 .rw 0x0, fs 30 30 .rw 0x1, fs 11 0 .rw 0x0]⟩
  ]

/-- All registers of BAR 0 from 0x00010000. -/
def regPage01 : List RegSpec := regPage01_0 ++ regPage01_1

/-- Registers of BAR 0 from 0x00020000, part 0. -/
def regPage02_0 : List RegSpec := [
  -- CK_CFG
  ⟨0x20000, [], 0, .s, false, [fs 31 31 .rw 0x1, fs 19 16 .rw 0x2 (.ne 0), fs 15 12 .rw 0x4 (.ne 0), fs 11 4 .rw 0x20 (.ne 0), fs 1 0 .rw 0x0]⟩,
  -- CK_CTRL
  ⟨0x20004, [], 0, .d, false, [fs 0 0 .wo 0x0]⟩,
  -- CK_STATUS
  ⟨0x20008, [], 0, .s, false, [fs 31 29 .ro 0x0, fs 28 28 .ro 0x1, fs 27 27 .ro 0x1, fs 26 26 .ro 0x1, fs 25 25 .ro 0x0, fs 24 24 .ro 0x0, fs 23 23 .w1c 0x0, fs 22 22 .w1c 0x0, fs 21 21 .w1c 0x0, fs 20 20 .w1c 0x0, fs 19 19 .w1c 0x0, fs 18 18 .w1c 0x0, fs 15 0 .ro 0x0]⟩,
  -- CK_REF_MEAS
  ⟨0x2000c, [], 0, .s, false, [fs 31 0 .ro 0x0]⟩,
  -- CK_JUMP
  ⟨0x20010, [], 0, .s, false, [fs 15 0 .ro 0x0]⟩,
  -- CK_DIV_NEXT
  ⟨0x20014, [], 0, .d, false, [fs 31 24 .rw 0x4, fs 23 16 .rw 0x8, fs 15 8 .rw 0x2, fs 7 0 .rw 0x4]⟩,
  -- CK_DIV_NOW
  ⟨0x20018, [], 0, .d, false, [fs 31 24 .ro 0x4, fs 23 16 .ro 0x8, fs 15 8 .ro 0x2, fs 7 0 .ro 0x4]⟩,
  -- CK_DIV_COMMIT
  ⟨0x2001c, [], 0, .d, false, [fs 31 31 .wo 0x0, fs 30 30 .ro 0x0]⟩
  ]

/-- All registers of BAR 0 from 0x00020000. -/
def regPage02 : List RegSpec := regPage02_0

/-- Registers of BAR 0 from 0x00030000, part 0. -/
def regPage03_0 : List RegSpec := [
  -- GRF_CH_CTRL
  ⟨0x30000, [(0x100, 4)], 256, .d, false, [fs 9 8 .rw 0x0, fs 1 0 .rw 0x0]⟩,
  -- GRF_CH_STATUS
  ⟨0x30004, [(0x100, 4)], 0, .f, false, [fs 15 15 .w1c 0x0, fs 14 14 .w1c 0x0, fs 13 13 .w1c 0x0, fs 12 12 .w1c 0x0, fs 11 11 .ro 0x0, fs 10 10 .ro 0x0, fs 9 8 .ro 0x0, fs 7 7 .ro 0x0, fs 2 0 .ro 0x0]⟩,
  -- GRF_CH_ANT_CFG
  ⟨0x30008, [(0x100, 4)], 0, .d, false, [fs 31 24 .rw 0x3, fs 23 16 .rw 0x64, fs 15 8 .rw 0x78, fs 7 2 .rw 0x8, fs 1 0 .rw 0x0 (.ne 3)]⟩,
  -- GRF_CH_ANT_STAT
  ⟨0x3000c, [(0x100, 4)], 0, .f, false, [fs 25 16 .ro 0x0, fs 15 8 .ro 0x0, fs 2 0 .ro 0x0]⟩,
  -- GRF_CH_PROF_LO
  ⟨0x30020, [(0x100, 4)], 0, .d, false, [fs 27 24 .rw 0xd, fs 23 0 .rw 0x300000]⟩,
  -- GRF_CH_PROF_LO
  ⟨0x30030, [(0x100, 4)], 0, .d, false, [fs 27 24 .rw 0x9, fs 23 0 .rw 0xf00000]⟩,
  -- GRF_CH_PROF_LO
  ⟨0x30040, [(0x100, 4)], 0, .d, false, [fs 27 24 .rw 0xa, fs 23 0 .rw 0x500000]⟩,
  -- GRF_CH_PROF_LO
  ⟨0x30050, [(0x100, 4)], 0, .d, false, [fs 27 24 .rw 0xa, fs 23 0 .rw 0xa00000]⟩,
  -- GRF_CH_PROF_CFG
  ⟨0x30024, [(0x100, 4)], 0, .d, false, [fs 31 12 .rw 0x0, fs 1 0 .rw 0x3]⟩,
  -- GRF_CH_PROF_CFG
  ⟨0x30034, [(0x100, 4)], 0, .d, false, [fs 31 12 .rw 0x0, fs 1 0 .rw 0x3]⟩,
  -- GRF_CH_PROF_CFG
  ⟨0x30044, [(0x100, 4)], 0, .d, false, [fs 31 12 .rw 0x0, fs 1 0 .rw 0x2]⟩,
  -- GRF_CH_PROF_CFG
  ⟨0x30054, [(0x100, 4)], 0, .d, false, [fs 31 12 .rw 0x0, fs 1 0 .rw 0x3]⟩,
  -- GRF_CH_PROF_CAL
  ⟨0x30028, [(0x100, 4), (0x10, 4)], 0, .s, false, [fs 31 24 .ro 0x0, fs 16 16 .ro 0x0, fs 15 15 .ro 0x0, fs 14 14 .ro 0x0, fs 13 13 .ro 0x0, fs 12 8 .ro 0x0, fs 6 0 .ro 0x0]⟩,
  -- GRF_BURST_CTRL
  ⟨0x30800, [], 0, .d, false, [fs 9 8 .rw 0x0, fs 5 4 .rw 0x2 (.range 1 2), fs 3 3 .rw 0x1, fs 2 0 .rw 0x0 (.le 4)]⟩,
  -- GRF_BURST_SEG
  ⟨0x30810, [(0x4, 4)], 0, .d, false, [fs 17 16 .rw 0x0, fs 15 0 .rw 0x0]⟩,
  -- GRF_CAL_CTRL
  ⟨0x30820, [], 0, .f, false, [fs 31 31 .wo 0x0, fs 7 0 .rw 0x0]⟩,
  -- GRF_CAL_STATUS
  ⟨0x30824, [], 0, .f, false, [fs 24 24 .ro 0x0, fs 23 16 .ro 0x0, fs 15 0 .ro 0x0]⟩
  ]

/-- All registers of BAR 0 from 0x00030000. -/
def regPage03 : List RegSpec := regPage03_0

/-- Registers of BAR 0 from 0x00040000, part 0. -/
def regPage04_0 : List RegSpec := [
  -- IFC_CH_AGC_CFG
  ⟨0x40000, [(0x200, 4)], 0, .d, false, [fs 25 24 .rw 0x0 (.le 2), fs 18 16 .rw 0x4, fs 12 8 .rw 0x10 (.ne 0), fs 5 0 .rw 0x28]⟩,
  -- IFC_CH_AGC_STAT
  ⟨0x40004, [(0x200, 4)], 0, .f, false, [fs 23 16 .ro 0x0, fs 13 13 .ro 0x0, fs 12 12 .ro 0x0, fs 5 0 .ro 0x0]⟩,
  -- IFC_CH_PGAIN
  ⟨0x40008, [(0x200, 4)], 0, .d, false, [fs 29 24 .rw 0x28, fs 21 16 .rw 0x28, fs 13 8 .rw 0x28, fs 5 0 .rw 0x28]⟩,
  -- IFC_CH_BLANK_CFG
  ⟨0x40010, [(0x200, 4)], 0, .d, false, [fs 31 31 .rw 0x1, fs 27 24 .rw 0x2 (.le 8), fs 23 16 .rw 0x18, fs 15 8 .rw 0x40, fs 3 0 .rw 0xf]⟩,
  -- IFC_CH_BLANK_STAT
  ⟨0x40014, [(0x200, 4)], 0, .f, false, [fs 18 18 .ro 0x0, fs 17 17 .w1c 0x0, fs 16 0 .ro 0x0]⟩,
  -- IFC_CH_JAM_CFG
  ⟨0x40018, [(0x200, 4)], 0, .d, false, [fs 31 26 .rw 0x14, fs 25 16 .rw 0xfa, fs 15 10 .rw 0x0, fs 9 0 .rw 0x64]⟩,
  -- IFC_CH_JAM_STAT
  ⟨0x4001c, [(0x200, 4)], 0, .f, false, [fs 31 31 .wo 0x0, fs 30 30 .ro 0x0, fs 17 16 .ro 0x0, fs 10 0 .ro 0x738]⟩,
  -- IFC_CH_NOTCH_CFG
  ⟨0x40020, [(0x200, 4)], 0, .d, false, [fs 31 31 .rw 0x1, fs 30 30 .w1c 0x0, fs 26 24 .rw 0x3, fs 23 16 .rw 0xa, fs 7 0 .rw 0x1e]⟩,
  -- IFC_CH_NOTCH_CTRL
  ⟨0x40040, [(0x200, 4), (0x8, 8)], 0, .d, false, [fs 31 31 .ro 0x0, fs 23 16 .ro 0x0, fs 9 8 .rw 0x0, fs 1 0 .rw 0x1 (.le 2)]⟩,
  -- IFC_CH_NOTCH_FREQ
  ⟨0x40044, [(0x200, 4), (0x8, 8)], 0, .d, false, [fs 31 0 .rw 0x0]⟩,
  -- IFC_CH_SPEC_CTRL
  ⟨0x40080, [(0x200, 4)], 0, .d, false, [fs 31 16 .ro 0x0, fs 8 8 .rw 0x0, fs 7 4 .rw 0x6 (.le 10), fs 1 1 .rw 0x0, fs 0 0 .rw 0x1]⟩,
  -- IFC_FSM_CFG
  ⟨0x40800, [], 0, .d, false, [fs 31 30 .rw 0x1, fs 29 29 .rw 0x0, fs 28 28 .rw 0x1, fs 27 27 .rw 0x1, fs 26 26 .rw 0x1, fs 25 25 .rw 0x1, fs 24 24 .rw 0x1, fs 23 16 .rw 0x3c, fs 15 8 .rw 0x1e, fs 7 0 .rw 0x4]⟩,
  -- IFC_FSM_TH
  ⟨0x40804, [], 0, .d, false, [fs 31 24 .rw 0x35, fs 23 16 .rw 0x0, fs 15 10 .rw 0xa, fs 9 4 .rw 0x8, fs 3 0 .rw 0x3]⟩,
  -- IFC_FSM_STAT
  ⟨0x40808, [], 0, .d, false, [fs 31 31 .ro 0x0, fs 30 30 .ro 0x0, fs 23 16 .ro 0x0, fs 15 8 .ro 0x0, fs 3 0 .ro 0x0]⟩,
  -- IFC_FSM_SAT
  ⟨0x40c00, [(0x4, 256)], 0, .d, false, [fs 31 31 .wo 0x0, fs 25 24 .ro 0x0, fs 23 16 .ro 0xff, fs 11 11 .ro 0x0, fs 10 10 .ro 0x0, fs 9 9 .ro 0x0, fs 1 0 .ro 0x0]⟩,
  -- IFC_CH_SPEC_BIN
  ⟨0x41000, [(0x1000, 4), (0x4, 1024)], 0, .f, false, [fs 31 16 .ro 0x0, fs 15 0 .ro 0x0]⟩
  ]

/-- All registers of BAR 0 from 0x00040000. -/
def regPage04 : List RegSpec := regPage04_0

/-- Registers of BAR 0 from 0x00050000, part 0. -/
def regPage05_0 : List RegSpec := [
  -- BCN_CFG
  ⟨0x50000, [], 0, .d, false, [fs 31 31 .rw 0x0, fs 30 30 .rw 0x0, fs 29 29 .rw 0x0, fs 28 28 .rw 0x1, fs 27 27 .rw 0x1, fs 7 0 .rw 0x0]⟩,
  -- BCN_CTRL
  ⟨0x50004, [], 0, .d, false, [fs 13 8 .rw 0x0, fs 1 0 .rw 0x0]⟩,
  -- BCN_STATUS
  ⟨0x50008, [], 0, .d, false, [fs 31 24 .ro 0x0, fs 23 23 .w1c 0x0, fs 22 22 .w1c 0x0, fs 21 21 .w1c 0x0, fs 20 20 .w1c 0x0, fs 19 19 .ro 0x0, fs 18 17 .ro 0x0, fs 13 8 .ro 0x0, fs 2 0 .ro 0x0]⟩,
  -- BCN_TX_CFG
  ⟨0x5000c, [], 0, .d, false, [fs 31 24 .rw 0x0, fs 19 16 .rw 0x8, fs 15 0 .rw 0x32]⟩,
  -- BCN_DELAY
  ⟨0x50010, [], 0, .d, false, [fs 31 0 .rw 0x0 (.absLe 1000000)]⟩,
  -- BCN_HUB_ID
  ⟨0x50014, [], 0, .d, false, [fs 31 0 .rw 0x0]⟩,
  -- BCN_DET_FWD
  ⟨0x50018, [], 0, .s, false, [fs 31 16 .vlt 0x0, fs 11 0 .vlt 0x0]⟩,
  -- BCN_DET_REF
  ⟨0x5001c, [], 0, .s, false, [fs 31 16 .vlt 0x0, fs 11 0 .vlt 0x0]⟩,
  -- BCN_PROT
  ⟨0x50020, [], 0, .d, false, [fs 31 24 .rw 0xab, fs 23 16 .rw 0x0, fs 15 8 .rw 0x28, fs 7 0 .rw 0xc]⟩,
  -- BCN_PA
  ⟨0x50024, [], 0, .d, false, [fs 7 0 .rw 0x0]⟩,
  -- BCN_AUTH_CFG
  ⟨0x50030, [], 0, .d, false, [fs 7 0 .vlt 0xa]⟩,
  -- BCN_CHAIN_EPOCH
  ⟨0x50034, [], 0, .d, false, [fs 31 0 .vlt 0x0]⟩,
  -- BCN_KEY_CTRL
  ⟨0x50040, [], 0, .d, false, [fs 31 30 .vlt 0x0, fs 2 0 .vlt 0x0]⟩,
  -- BCN_KEY_W
  ⟨0x50044, [(0x4, 5)], 0, .d, false, [fs 31 0 .vltWo 0x0]⟩,
  -- BCN_CYC_CTRL
  ⟨0x50060, [], 0, .d, true, [fs 31 31 .ro 0x0, fs 23 16 .ro 0x0, fs 9 8 .wo 0x0, fs 7 0 .rw 0x0]⟩,
  -- BCN_CYC_W
  ⟨0x50064, [(0x4, 8)], 0, .d, true, [fs 31 0 .rw 0x0]⟩,
  -- BCN_CHT_QRY
  ⟨0x50100, [], 0, .d, true, [fs 31 24 .ro 0x0, fs 23 23 .ro 0x0, fs 22 22 .ro 0x0, fs 21 21 .ro 0x0, fs 20 19 .ro 0x0, fs 5 0 .rw 0x0]⟩,
  -- BCN_CHT_FREQ
  ⟨0x50104, [], 0, .d, true, [fs 31 0 .ro 0x0]⟩,
  -- BCN_CHT_USED
  ⟨0x50108, [], 0, .d, true, [fs 31 16 .ro 0x0, fs 15 0 .ro 0x0]⟩,
  -- BCN_CH_CAL
  ⟨0x50200, [(0x8, 64)], 0, .s, false, [fs 31 24 .ro 0x0, fs 23 23 .ro 0x0, fs 22 22 .ro 0x0, fs 21 21 .ro 0x0, fs 20 20 .ro 0x0, fs 11 7 .ro 0x0, fs 6 0 .ro 0x0]⟩,
  -- BCN_CH_TUNE
  ⟨0x50204, [(0x8, 64)], 0, .s, false, [fs 31 31 .ro 0x0, fs 30 30 .ro 0x0, fs 22 16 .rw 0x0, fs 13 8 .rw 0x20, fs 5 0 .rw 0x20]⟩
  ]

/-- All registers of BAR 0 from 0x00050000. -/
def regPage05 : List RegSpec := regPage05_0

/-- Registers of BAR 0 from 0x00100000, part 0. -/
def regPage10_0 : List RegSpec := [
  -- TRK_CH_CTRL
  ⟨0x100000, [(0x10000, 10), (0x80, 32)], 0, .d, false, [fs 31 31 .rw 0x0, fs 30 30 .rw 0x0, fs 29 29 .rw 0x0, fs 28 28 .rw 0x1, fs 27 26 .rw 0x0, fs 25 24 .rw 0x0, fs 21 20 .rw 0x0, fs 15 8 .rw 0x0, fs 5 0 .rw 0x0]⟩,
  -- TRK_CH_STATUS
  ⟨0x100004, [(0x10000, 10), (0x80, 32)], 0, .f, false, [fs 31 24 .ro 0x0, fs 23 16 .ro 0x0, fs 15 12 .ro 0x0, fs 11 11 .w1c 0x0, fs 1 0 .ro 0x0]⟩,
  -- TRK_CH_INT
  ⟨0x100008, [(0x10000, 10), (0x80, 32)], 0, .d, false, [fs 31 31 .wo 0x0, fs 23 16 .rw 0x0, fs 11 8 .rw 0x8, fs 7 0 .rw 0x1]⟩,
  -- TRK_CH_TAPS
  ⟨0x10000c, [(0x10000, 10), (0x80, 32)], 0, .d, false, [fs 24 16 .rw 0x80, fs 6 0 .rw 0x20]⟩,
  -- TRK_CH_TAP_M
  ⟨0x100010, [(0x10000, 10), (0x80, 32)], 0, .d, false, [fs 31 16 .rw 0x0, fs 15 0 .rw 0x0]⟩,
  -- TRK_CH_SEC
  ⟨0x100014, [(0x10000, 10), (0x80, 32)], 0, .d, false, [fs 31 31 .rw 0x0, fs 30 30 .wo 0x0, fs 10 0 .rw 0x0]⟩,
  -- TRK_CH_CODE_RATE_LO
  ⟨0x100018, [(0x10000, 10), (0x80, 32)], 0, .d, false, [fs 31 0 .rw 0x0]⟩,
  -- TRK_CH_CODE_RATE_HI
  ⟨0x10001c, [(0x10000, 10), (0x80, 32)], 0, .d, false, [fs 15 0 .rw 0x0]⟩,
  -- TRK_CH_CARR_RATE_LO
  ⟨0x100020, [(0x10000, 10), (0x80, 32)], 0, .d, false, [fs 31 0 .rw 0x0]⟩,
  -- TRK_CH_CARR_RATE_HI
  ⟨0x100024, [(0x10000, 10), (0x80, 32)], 0, .d, false, [fs 15 0 .rw 0x0]⟩,
  -- TRK_CH_CODE_ADJ
  ⟨0x100028, [(0x10000, 10), (0x80, 32)], 0, .f, false, [fs 31 0 .wo 0x0]⟩,
  -- TRK_CH_START_FRAC
  ⟨0x10002c, [(0x10000, 10), (0x80, 32)], 0, .d, false, [fs 31 0 .rw 0x0]⟩,
  -- TRK_CH_START_SEC
  ⟨0x100030, [(0x10000, 10), (0x80, 32)], 0, .d, false, [fs 31 0 .rw 0x0]⟩,
  -- TRK_CH_NCO_CARR_LO
  ⟨0x100040, [(0x10000, 10), (0x80, 32)], 0, .d, false, [fs 31 0 .rw 0x0]⟩,
  -- TRK_CH_NCO_CARR_HI
  ⟨0x100044, [(0x10000, 10), (0x80, 32)], 0, .d, false, [fs 15 0 .rw 0x0]⟩,
  -- TRK_CH_NCO_CYC
  ⟨0x100048, [(0x10000, 10), (0x80, 32)], 0, .d, false, [fs 31 0 .rw 0x0]⟩,
  -- TRK_CH_NCO_CODE_LO
  ⟨0x10004c, [(0x10000, 10), (0x80, 32)], 0, .d, false, [fs 31 0 .rw 0x0]⟩,
  -- TRK_CH_NCO_CODE_HI
  ⟨0x100050, [(0x10000, 10), (0x80, 32)], 0, .d, false, [fs 15 0 .rw 0x0]⟩,
  -- TRK_CH_NCO_CHIP
  ⟨0x100054, [(0x10000, 10), (0x80, 32)], 0, .d, false, [fs 31 24 .rw 0x0, fs 23 0 .rw 0x0]⟩,
  -- TRK_CH_NCO_TAG_FRAC
  ⟨0x100058, [(0x10000, 10), (0x80, 32)], 0, .d, false, [fs 31 0 .ro 0x0]⟩,
  -- TRK_CH_NCO_TAG_SEC
  ⟨0x10005c, [(0x10000, 10), (0x80, 32)], 0, .d, false, [fs 31 0 .ro 0x0]⟩,
  -- TRK_RING_CTRL
  ⟨0x101000, [(0x10000, 10)], 0, .d, false, [fs 1 1 .ro 0x0, fs 0 0 .rw 0x0]⟩,
  -- TRK_RING_DUMP_PEND
  ⟨0x101004, [(0x10000, 10)], 0, .f, false, [fs 31 0 .w1c 0x0]⟩,
  -- TRK_RING_DUMP_IEN
  ⟨0x101008, [(0x10000, 10)], 0, .d, false, [fs 31 0 .rw 0x0]⟩,
  -- TRK_RING_DUMP_LOST
  ⟨0x10100c, [(0x10000, 10)], 0, .f, false, [fs 31 0 .w1c 0x0]⟩,
  -- TRK_RING_ERR_PEND
  ⟨0x101010, [(0x10000, 10)], 0, .f, false, [fs 31 0 .w1c 0x0]⟩,
  -- TRK_RING_RUN
  ⟨0x101014, [(0x10000, 10)], 0, .f, false, [fs 31 0 .ro 0x0]⟩,
  -- TRK_RING_EPOCH_CFG
  ⟨0x101018, [(0x10000, 10)], 0, .d, false, [fs 2 0 .rw 0x4 (.ne 7)]⟩,
  -- TRK_RING_EPOCH_STAT
  ⟨0x10101c, [(0x10000, 10)], 0, .d, false, [fs 31 16 .ro 0x0, fs 3 3 .w1c 0x0, fs 2 2 .w1c 0x0, fs 1 1 .w1c 0x0, fs 0 0 .w1c 0x0]⟩,
  -- TRK_RING_EPOCH_FRAC
  ⟨0x101020, [(0x10000, 10)], 0, .d, false, [fs 31 0 .ro 0x0]⟩,
  -- TRK_RING_EPOCH_SEC
  ⟨0x101024, [(0x10000, 10)], 0, .d, false, [fs 31 0 .ro 0x0]⟩,
  -- TRK_RING_HANDOFF_PEND
  ⟨0x101028, [(0x10000, 10)], 0, .d, false, [fs 15 0 .w1c 0x0]⟩,
  -- TRK_RING_MEAS_CTRL
  ⟨0x10102c, [(0x10000, 10)], 0, .d, false, [fs 31 31 .wo 0x0, fs 15 0 .ro 0x0]⟩
  ]

/-- All registers of BAR 0 from 0x00100000. -/
def regPage10 : List RegSpec := regPage10_0

/-- Registers of BAR 0 from 0x00200000, part 0. -/
def regPage20_0 : List RegSpec := [
  -- NAV_CFG
  ⟨0x200000, [], 0, .d, false, [fs 31 24 .rw 0x19, fs 23 20 .rw 0x3, fs 16 16 .rw 0x0, fs 15 15 .rw 0x1]⟩,
  -- NAV_STG_WR
  ⟨0x200004, [], 0, .d, false, [fs 31 16 .ro 0x0, fs 8 0 .ro 0x0]⟩,
  -- NAV_STG_RD
  ⟨0x200008, [], 0, .d, false, [fs 8 0 .rw 0x0]⟩,
  -- NAV_STG_STAT
  ⟨0x20000c, [], 0, .d, false, [fs 31 31 .ro 0x0, fs 30 30 .w1c 0x0, fs 29 29 .w1c 0x0, fs 15 0 .ro 0x0]⟩,
  -- NAV_RING_SYM
  ⟨0x200100, [(0x4, 10)], 0, .d, false, [fs 31 0 .wo 0x0]⟩,
  -- NAV_RING_STAT
  ⟨0x200140, [(0x4, 10)], 0, .d, false, [fs 31 31 .w1c 0x0, fs 6 0 .ro 0x0]⟩,
  -- NAV_CH_STAT
  ⟨0x201000, [(0x8, 320)], 0, .d, false, [fs 31 24 .ro 0x0, fs 23 22 .ro 0x0, fs 21 21 .ro 0x0, fs 20 20 .ro 0x0, fs 19 19 .w1c 0x0, fs 18 18 .ro 0x0, fs 17 17 .w1c 0x0, fs 16 16 .w1c 0x0, fs 7 0 .ro 0x0]⟩,
  -- NAV_CH_SYMIDX
  ⟨0x201004, [(0x8, 320)], 0, .d, false, [fs 31 0 .ro 0x0]⟩
  ]

/-- All registers of BAR 0 from 0x00200000. -/
def regPage20 : List RegSpec := regPage20_0

/-- Registers of BAR 0 from 0x00280000, part 0. -/
def regPage28_0 : List RegSpec := [
  -- SIEVE_CFG
  ⟨0x280000, [], 0, .d, false, [fs 31 31 .rw 0x1, fs 30 30 .rw 0x1, fs 22 16 .rw 0x4 (.range 1 64), fs 15 8 .rw 0xa, fs 6 0 .rw 0x5 (.le 90)]⟩,
  -- SIEVE_CAP
  ⟨0x280004, [], 0, .d, false, [fs 9 0 .rw 0x64 (.le 1000)]⟩,
  -- SIEVE_STAT
  ⟨0x280008, [], 0, .f, false, [fs 31 31 .w1c 0x0, fs 23 16 .ro 0x0, fs 15 0 .ro 0x0]⟩,
  -- SIEVE_RING_MASK
  ⟨0x28000c, [], 0, .d, false, [fs 9 0 .rw 0x3ff]⟩,
  -- SIEVE_STALE
  ⟨0x280010, [], 0, .f, false, [fs 15 0 .wo 0x0]⟩,
  -- SIEVE_AUTO_SIG
  ⟨0x280014, [], 0, .d, false, [fs 31 31 .rw 0x0, fs 29 24 .rw 0x0, fs 23 23 .rw 0x0, fs 21 16 .rw 0x0, fs 15 15 .rw 0x1, fs 13 8 .rw 0x9, fs 7 7 .rw 0x1, fs 5 0 .rw 0x0]⟩,
  -- SIEVE_PORT_CTRL
  ⟨0x280020, [], 0, .f, true, [fs 31 31 .ro 0x0, fs 23 16 .ro 0x0, fs 13 12 .wo 0x0, fs 6 0 .rw 0x0]⟩,
  -- SIEVE_PORT_W
  ⟨0x280040, [(0x4, 16)], 0, .f, true, [fs 31 0 .rw 0x0]⟩
  ]

/-- All registers of BAR 0 from 0x00280000. -/
def regPage28 : List RegSpec := regPage28_0

/-- Registers of BAR 0 from 0x00300000, part 0. -/
def regPage30_0 : List RegSpec := [
  -- CAR_CFG
  ⟨0x300000, [], 0, .d, false, [fs 31 31 .rw 0x1]⟩,
  -- CAR_VER
  ⟨0x300004, [], 0, .f, false, [fs 31 16 .ro 0x201, fs 15 0 .ro 0x200]⟩,
  -- CAR_VER_MIN
  ⟨0x300008, [], 0, .f, false, [fs 15 8 .ro 0x1, fs 7 0 .ro 0x2]⟩,
  -- CAR_FEAT_OFFER
  ⟨0x30000c, [], 0, .f, false, [fs 1 1 .ro 0x1, fs 0 0 .ro 0x1]⟩,
  -- CAR_FEAT_GRANT
  ⟨0x300010, [], 0, .d, false, [fs 1 1 .rw 0x0, fs 0 0 .rw 0x0]⟩,
  -- CAR_STAT
  ⟨0x300014, [], 0, .f, false, [fs 29 15 .ro 0x0, fs 14 0 .ro 0x4000]⟩,
  -- CAR_QSTAT
  ⟨0x300018, [], 0, .f, false, [fs 29 15 .ro 0x0, fs 14 0 .ro 0x0]⟩,
  -- CAR_ERR
  ⟨0x30001c, [], 0, .f, false, [fs 6 6 .w1c 0x0, fs 5 5 .w1c 0x0, fs 4 4 .w1c 0x0, fs 3 3 .w1c 0x0, fs 2 2 .w1c 0x0, fs 1 1 .w1c 0x0, fs 0 0 .w1c 0x0]⟩,
  -- CAR_DONE_LO
  ⟨0x300020, [], 0, .f, false, [fs 31 0 .ro 0x0]⟩,
  -- CAR_DONE_HI
  ⟨0x300024, [], 0, .f, false, [fs 31 0 .ro 0x0]⟩,
  -- CAR_FWD_CFG
  ⟨0x300030, [], 0, .d, false, [fs 31 31 .rw 0x0, fs 30 30 .rw 0x0, fs 29 29 .rw 0x0, fs 28 16 .rw 0x7d0, fs 14 0 .rw 0x1000]⟩,
  -- CAR_FWD_STAT
  ⟨0x300034, [], 0, .f, false, [fs 31 16 .ro 0x0, fs 15 0 .ro 0x0]⟩,
  -- CAR_CANCEL_TAG_LO
  ⟨0x300040, [], 0, .f, false, [fs 31 0 .rw 0x0]⟩,
  -- CAR_CANCEL_TAG_HI
  ⟨0x300044, [], 0, .f, false, [fs 31 0 .rw 0x0]⟩,
  -- CAR_CANCEL_CTRL
  ⟨0x300048, [], 0, .f, false, [fs 31 31 .wo 0x0, fs 30 30 .rw 0x0, fs 29 16 .ro 0x0, fs 5 0 .rw 0x0]⟩,
  -- CAR_SLOT_QRY
  ⟨0x300050, [], 0, .f, true, [fs 13 0 .rw 0x0]⟩,
  -- CAR_SLOT_INFO0
  ⟨0x300054, [], 0, .f, true, [fs 31 28 .ro 0x0, fs 27 22 .ro 0x0, fs 21 14 .ro 0x0, fs 13 0 .ro 0x0]⟩,
  -- CAR_SLOT_INFO1
  ⟨0x300058, [], 0, .f, true, [fs 31 0 .ro 0x0]⟩,
  -- CAR_SRC_LIMIT
  ⟨0x300100, [(0x4, 32)], 0, .d, false, [fs 30 16 .ro 0x0, fs 14 0 .rw 0x800 (.le 16384)]⟩,
  -- CAR_SRC_LIMIT
  ⟨0x300180, [(0x4, 2)], 0, .d, false, [fs 30 16 .ro 0x0, fs 14 0 .rw 0x1000 (.le 16384)]⟩,
  -- CAR_LANE_CFG
  ⟨0x300200, [], 0, .d, false, [fs 31 31 .rw 0x1, fs 27 24 .rw 0x1 (.le 8), fs 23 16 .rw 0x64, fs 9 0 .rw 0x230 (.le 1000)]⟩,
  -- CAR_LANE_STAT
  ⟨0x300204, [], 0, .f, false, [fs 31 24 .ro 0x0, fs 23 16 .ro 0x0, fs 15 0 .ro 0x0]⟩,
  -- CAR_LANE_FAULT_LO
  ⟨0x300208, [], 0, .s, false, [fs 31 0 .ro 0x0]⟩,
  -- CAR_LANE_FAULT_HI
  ⟨0x30020c, [], 0, .s, false, [fs 31 0 .ro 0x0]⟩,
  -- CAR_WIN_CFG
  ⟨0x300210, [], 0, .d, false, [fs 31 24 .rw 0x40 (.evenGe2), fs 23 16 .rw 0x10, fs 15 0 .rw 0x64]⟩,
  -- CAR_DET_CFG
  ⟨0x300214, [], 0, .d, false, [fs 31 16 .rw 0x0]⟩,
  -- CAR_CORR_ERR
  ⟨0x300218, [], 0, .f, false, [fs 6 6 .w1c 0x0, fs 5 5 .w1c 0x0, fs 4 4 .w1c 0x0, fs 3 3 .w1c 0x0, fs 2 2 .w1c 0x0, fs 1 1 .w1c 0x0, fs 0 0 .w1c 0x0]⟩,
  -- CAR_SCRATCH
  ⟨0x30021c, [], 0, .f, false, [fs 10 0 .ro 0x400]⟩,
  -- CAR_PROF_RATE
  ⟨0x300240, [(0x10, 3)], 0, .s, false, [fs 31 0 .rw 0x0]⟩,
  -- CAR_PROF_CFG
  ⟨0x300244, [(0x10, 3)], 0, .s, false, [fs 31 31 .rw 0x0, fs 30 30 .ro 0x0, fs 27 26 .rw 0x0, fs 25 23 .rw 0x0, fs 14 0 .ro 0x0]⟩,
  -- CAR_PROF_REGION
  ⟨0x300248, [(0x10, 3)], 0, .s, false, [fs 31 16 .rw 0x0, fs 15 0 .rw 0x0]⟩,
  -- CAR_ARB
  ⟨0x300280, [(0x4, 32)], 0, .d, false, [fs 9 8 .rw 0x0, fs 7 0 .rw 0x10]⟩,
  -- CAR_ARB
  ⟨0x300300, [(0x4, 2)], 0, .d, false, [fs 9 8 .rw 0x1, fs 7 0 .rw 0x10]⟩,
  -- CAR_ARB_CAL
  ⟨0x300310, [], 0, .d, false, [fs 31 24 .rw 0xa, fs 9 8 .rw 0x3, fs 7 0 .rw 0x0]⟩,
  -- CAR_ARB_CFG
  ⟨0x300314, [], 0, .d, false, [fs 7 0 .rw 0x8]⟩,
  -- CAR_GROUP_CFG
  ⟨0x300320, [(0x4, 4)], 1, .d, false, [fs 31 31 .rw 0x1, fs 1 0 .rw 0x0]⟩
  ]

/-- All registers of BAR 0 from 0x00300000. -/
def regPage30 : List RegSpec := regPage30_0

/-- Registers of BAR 0 from 0x00380000, part 0. -/
def regPage38_0 : List RegSpec := [
  -- SKY_CFG
  ⟨0x380000, [], 0, .d, false, [fs 31 31 .rw 0x1, fs 30 30 .rw 0x1, fs 23 16 .rw 0x3c, fs 15 0 .rw 0x258]⟩,
  -- SKY_STAT
  ⟨0x380004, [], 0, .f, false, [fs 31 16 .ro 0x0, fs 15 15 .w1c 0x0, fs 14 14 .ro 0x0, fs 8 0 .ro 0x0]⟩,
  -- SKY_PORT_CTRL
  ⟨0x380010, [], 0, .f, true, [fs 31 31 .ro 0x0, fs 23 16 .ro 0x0, fs 15 15 .rw 0x0, fs 13 12 .wo 0x0, fs 7 0 .rw 0x0]⟩,
  -- SKY_IONO_C
  ⟨0x380040, [(0x4, 6)], 0, .s, false, [fs 31 0 .rw 0x0]⟩,
  -- SKY_IONO_REF
  ⟨0x380058, [], 0, .s, false, [fs 31 0 .rw 0x0]⟩,
  -- SKY_IONO_ORIGIN
  ⟨0x38005c, [], 0, .s, false, [fs 31 16 .rw 0x0, fs 15 0 .rw 0x0]⟩,
  -- SKY_KLOB_A
  ⟨0x380060, [], 0, .s, false, [fs 31 0 .rw 0x0]⟩,
  -- SKY_KLOB_B
  ⟨0x380064, [], 0, .s, false, [fs 31 0 .rw 0x0]⟩,
  -- SKY_IBB
  ⟨0x380074, [(0x4, 3)], 0, .s, false, [fs 31 0 .rw 0x0]⟩,
  -- SKY_PORT_W
  ⟨0x380100, [(0x4, 64)], 0, .f, true, [fs 31 0 .rw 0x0]⟩,
  -- SKY_QRY_CTRL
  ⟨0x380200, [], 0, .f, true, [fs 31 31 .wo 0x0, fs 30 30 .ro 0x0, fs 23 16 .ro 0x0, fs 7 0 .rw 0x0]⟩,
  -- SKY_QRY_T_FRAC
  ⟨0x380204, [], 0, .f, true, [fs 31 0 .rw 0x0]⟩,
  -- SKY_QRY_T_SEC
  ⟨0x380208, [], 0, .f, true, [fs 31 0 .rw 0x0]⟩,
  -- SKY_QRY_POS
  ⟨0x38020c, [(0x4, 6)], 0, .f, true, [fs 31 0 .ro 0x0]⟩,
  -- SKY_QRY_VEL
  ⟨0x380224, [(0x4, 3)], 0, .f, true, [fs 31 0 .ro 0x0]⟩,
  -- SKY_QRY_CLK
  ⟨0x380230, [(0x4, 2)], 0, .f, true, [fs 31 0 .ro 0x0]⟩,
  -- SKY_QRY_CRATE
  ⟨0x380238, [], 0, .f, true, [fs 31 0 .ro 0x0]⟩,
  -- SOL_CFG
  ⟨0x381000, [], 0, .d, false, [fs 31 28 .rw 0x8 (.ne 0), fs 27 26 .rw 0x2, fs 25 25 .rw 0x1, fs 24 24 .rw 0x1, fs 23 16 .rw 0x1e, fs 15 8 .rw 0xa, fs 7 0 .rw 0xa (.le 90)]⟩,
  -- SOL_TH
  ⟨0x381004, [], 0, .d, false, [fs 31 24 .rw 0x28, fs 23 16 .rw 0x24, fs 15 0 .rw 0xa (.ne 0)]⟩,
  -- SOL_LIVE_CFG
  ⟨0x381008, [], 0, .d, false, [fs 31 30 .rw 0x2 (.ne 3), fs 29 28 .rw 0x0 (.le 1), fs 15 0 .rw 0x5a0]⟩,
  -- SOL_SURVEY_POS
  ⟨0x381010, [(0x4, 6)], 0, .s, false, [fs 31 0 .rw 0x0]⟩,
  -- SOL_SURVEY_UNC
  ⟨0x381028, [], 0, .s, false, [fs 31 0 .rw 0xffffffff]⟩,
  -- SOL_STAT
  ⟨0x381030, [], 0, .f, false, [fs 31 24 .ro 0x0, fs 23 16 .ro 0x0, fs 15 15 .ro 0x0, fs 14 14 .w1c 0x0]⟩,
  -- SOL_FIX_W
  ⟨0x381040, [(0x4, 16)], 0, .f, false, [fs 31 0 .ro 0x0]⟩
  ]

/-- All registers of BAR 0 from 0x00380000. -/
def regPage38 : List RegSpec := regPage38_0

/-- Registers of BAR 0 from 0x00400000, part 0. -/
def regPage40_0 : List RegSpec := [
  -- HOST_RING_BASE_LO
  ⟨0x400000, [(0x40, 67)], 0, .f, false, [fs 31 12 .rw 0x0]⟩,
  -- HOST_RING_BASE_HI
  ⟨0x400004, [(0x40, 67)], 0, .f, false, [fs 31 0 .rw 0x0]⟩,
  -- HOST_RING_CFG
  ⟨0x400008, [(0x40, 67)], 0, .f, false, [fs 31 24 .rw 0x0, fs 23 12 .rw 0x0, fs 11 11 .rw 0x0, fs 4 0 .rw 0x0]⟩,
  -- HOST_RING_HEAD
  ⟨0x40000c, [(0x40, 67)], 0, .f, false, [fs 31 0 .ro 0x0]⟩,
  -- HOST_RING_TAIL
  ⟨0x400010, [(0x40, 67)], 0, .f, false, [fs 31 0 .ro 0x0]⟩,
  -- HOST_RING_STAT
  ⟨0x400014, [(0x40, 67)], 0, .f, false, [fs 31 31 .w1c 0x0, fs 30 30 .w1c 0x0, fs 29 17 .ro 0x0, fs 16 0 .ro 0x0]⟩,
  -- HOST_COPY_ADDR_LO
  ⟨0x401100, [(0x20, 2)], 0, .f, false, [fs 31 0 .rw 0x0]⟩,
  -- HOST_COPY_ADDR_HI
  ⟨0x401104, [(0x20, 2)], 0, .f, false, [fs 31 0 .rw 0x0]⟩,
  -- HOST_COPY_DEV
  ⟨0x401108, [(0x20, 2)], 0, .f, false, [fs 25 0 .rw 0x0]⟩,
  -- HOST_COPY_LEN
  ⟨0x40110c, [(0x20, 2)], 0, .f, false, [fs 31 0 .rw 0x0]⟩,
  -- HOST_COPY_CTRL
  ⟨0x401110, [(0x20, 2)], 0, .f, false, [fs 31 31 .wo 0x0, fs 30 30 .wo 0x0, fs 29 29 .ro 0x0, fs 28 28 .rw 0x0, fs 23 16 .ro 0x0, fs 7 0 .rw 0x10]⟩,
  -- HOST_RES_PEND
  ⟨0x401200, [], 0, .f, false, [fs 31 0 .w1c 0x0]⟩,
  -- HOST_SPACE_PEND
  ⟨0x401204, [], 0, .f, false, [fs 31 0 .w1c 0x0]⟩,
  -- HOST_STREAM_PEND
  ⟨0x401208, [], 0, .f, false, [fs 2 0 .w1c 0x0]⟩,
  -- HOST_NEG
  ⟨0x40120c, [], 0, .f, false, [fs 31 31 .wo 0x0, fs 24 24 .ro 0x0, fs 23 16 .ro 0x0, fs 15 8 .ro 0x0, fs 7 0 .rw 0x0]⟩,
  -- HOST_ERR
  ⟨0x401210, [], 0, .f, false, [fs 6 6 .w1c 0x0, fs 5 5 .w1c 0x0, fs 4 4 .w1c 0x0, fs 3 3 .w1c 0x0, fs 2 2 .w1c 0x0, fs 1 1 .w1c 0x0, fs 0 0 .w1c 0x0]⟩
  ]

/-- All registers of BAR 0 from 0x00400000. -/
def regPage40 : List RegSpec := regPage40_0

/-- Registers of BAR 0 from 0x00480000, part 0. -/
def regPage48_0 : List RegSpec := [
  -- TRP_PORT_CFG
  ⟨0x480000, [(0x100, 2)], 0, .d, false, [fs 31 31 .rw 0x0, fs 30 30 .rw 0x1, fs 29 29 .rw 0x1, fs 28 28 .rw 0x1, fs 27 27 .rw 0x0, fs 15 8 .rw 0x80, fs 7 0 .rw 0x40]⟩,
  -- TRP_PORT_CFG
  ⟨0x480200, [(0x100, 2)], 0, .d, false, [fs 31 31 .rw 0x0, fs 30 30 .rw 0x0, fs 29 29 .rw 0x1, fs 28 28 .rw 0x1, fs 27 27 .rw 0x0, fs 15 8 .rw 0x80, fs 7 0 .rw 0x40]⟩,
  -- TRP_PORT_BLK
  ⟨0x480004, [(0x100, 4)], 0, .d, false, [fs 14 0 .rw 0x800 (.le 16384)]⟩,
  -- TRP_PORT_ASYM
  ⟨0x480008, [(0x100, 4)], 0, .d, false, [fs 31 0 .rw 0x0 (.absLe 100000)]⟩,
  -- TRP_PORT_STAT
  ⟨0x48000c, [(0x100, 4)], 0, .f, false, [fs 31 29 .ro 0x0, fs 28 28 .ro 0x0, fs 27 27 .w1c 0x0, fs 26 26 .w1c 0x0, fs 25 25 .w1c 0x0, fs 24 24 .w1c 0x0, fs 23 16 .ro 0x0, fs 15 8 .ro 0x0, fs 7 0 .ro 0x0]⟩,
  -- TRP_PORT_FEAT
  ⟨0x480010, [(0x100, 4)], 0, .f, false, [fs 31 24 .ro 0x0, fs 23 16 .ro 0x0, fs 7 0 .ro 0x3]⟩,
  -- TRP_PORT_CRED
  ⟨0x480014, [(0x100, 4)], 0, .f, false, [fs 31 24 .ro 0x0, fs 23 16 .ro 0x0, fs 15 0 .ro 0x0]⟩,
  -- TRP_PORT_PEER_LO
  ⟨0x480018, [(0x100, 4)], 0, .f, false, [fs 31 0 .ro 0x0]⟩,
  -- TRP_PORT_PEER_HI
  ⟨0x48001c, [(0x100, 4)], 0, .f, false, [fs 31 0 .ro 0x0]⟩,
  -- TRP_PORT_DELAY
  ⟨0x480020, [(0x100, 4)], 0, .f, false, [fs 31 0 .ro 0x0]⟩,
  -- TRP_PORT_ERRCNT
  ⟨0x480024, [(0x100, 4)], 0, .f, false, [fs 31 16 .ro 0x0, fs 15 0 .ro 0x0]⟩,
  -- TRP_TWIN_CFG
  ⟨0x480800, [], 0, .d, false, [fs 31 31 .rw 0x0, fs 30 30 .rw 0x0]⟩,
  -- TRP_TWIN_STAT
  ⟨0x480804, [], 0, .f, false, [fs 31 30 .ro 0x0, fs 29 28 .ro 0x0, fs 27 24 .ro 0x0, fs 23 23 .w1c 0x0, fs 15 0 .ro 0x0]⟩,
  -- TRP_TIME_CFG
  ⟨0x480808, [], 0, .d, false, [fs 31 16 .rw 0x7d0, fs 3 0 .rw 0x4 (.ne 0)]⟩,
  -- TRP_TIME_STAT
  ⟨0x48080c, [], 0, .f, false, [fs 31 24 .ro 0x0, fs 23 23 .w1c 0x0, fs 1 0 .ro 0x0]⟩,
  -- TRP_TIME_OFS_LO
  ⟨0x480810, [], 0, .f, false, [fs 31 0 .ro 0x0]⟩,
  -- TRP_TIME_OFS_HI
  ⟨0x480814, [], 0, .f, false, [fs 31 0 .ro 0x0]⟩
  ]

/-- All registers of BAR 0 from 0x00480000. -/
def regPage48 : List RegSpec := regPage48_0

/-- Registers of BAR 0 from 0x00500000, part 0. -/
def regPage50_0 : List RegSpec := [
  -- SPIM_CFG
  ⟨0x500000, [], 0, .d, false, [fs 31 31 .rw 0x0, fs 30 28 .rw 0x2, fs 27 24 .rw 0x2 (.ne 0), fs 7 0 .rw 0x18 (.range 9 255)]⟩,
  -- SPIM_XIP
  ⟨0x500004, [], 0, .d, false, [fs 31 31 .rw 0x1, fs 30 30 .rw 0x0, fs 29 29 .rw 0x1, fs 28 28 .rw 0x0, fs 27 26 .rw 0x0 (.ne 3), fs 25 24 .rw 0x0 (.ne 3), fs 20 16 .rw 0x8, fs 15 8 .rw 0xa0, fs 7 0 .rw 0xb]⟩,
  -- SPIM_STAT
  ⟨0x500008, [], 0, .f, false, [fs 31 31 .w1c 0x0, fs 30 30 .w1c 0x0, fs 29 29 .ro 0x0, fs 15 0 .ro 0x0]⟩,
  -- SPIM_CMD_CTRL
  ⟨0x500010, [], 0, .f, true, [fs 31 31 .wo 0x0, fs 30 30 .ro 0x0, fs 29 29 .rw 0x0, fs 28 27 .rw 0x0, fs 26 25 .rw 0x0, fs 24 23 .rw 0x0, fs 22 21 .rw 0x0, fs 20 16 .rw 0x0, fs 15 8 .rw 0x0, fs 7 5 .rw 0x0]⟩,
  -- SPIM_CMD_ADDR
  ⟨0x500014, [], 0, .f, true, [fs 31 0 .rw 0x0]⟩,
  -- SPIM_CMD_LEN
  ⟨0x500018, [], 0, .f, true, [fs 31 24 .ro 0x0, fs 8 0 .rw 0x0]⟩,
  -- SPIM_CMD_DATA
  ⟨0x500100, [(0x4, 64)], 0, .f, true, [fs 31 0 .rw 0x0]⟩,
  -- SPIS_CFG
  ⟨0x501000, [], 0, .d, false, [fs 31 31 .rw 0x0, fs 30 30 .rw 0x0, fs 29 29 .rw 0x0, fs 5 0 .rw 0x8]⟩,
  -- SPIS_RESP
  ⟨0x501004, [], 0, .f, false, [fs 31 31 .wo 0x0, fs 30 30 .wo 0x0, fs 29 29 .ro 0x0, fs 28 28 .rw 0x0, fs 22 16 .rw 0x0, fs 15 0 .rw 0x0]⟩,
  -- SPIS_STAT
  ⟨0x501008, [], 0, .f, false, [fs 31 31 .w1c 0x0, fs 30 30 .w1c 0x0, fs 29 29 .w1c 0x0, fs 28 28 .w1c 0x0, fs 27 27 .w1c 0x0, fs 23 16 .ro 0x0, fs 15 8 .ro 0x0, fs 7 0 .ro 0x0]⟩,
  -- SPIS_RX_CTRL
  ⟨0x50100c, [], 0, .f, false, [fs 31 31 .wo 0x0, fs 30 30 .ro 0x0, fs 29 29 .ro 0x0]⟩,
  -- SPIS_RX_DATA
  ⟨0x501010, [], 0, .f, false, [fs 31 0 .ro 0x0]⟩,
  -- SPIS_TX
  ⟨0x501014, [], 0, .f, false, [fs 31 0 .wo 0x0]⟩,
  -- UA_CFG
  ⟨0x502000, [], 0, .d, false, [fs 31 31 .rw 0x0, fs 30 30 .rw 0x0, fs 29 29 .rw 0x1, fs 28 28 .rw 0x0, fs 27 27 .rw 0x0, fs 26 26 .rw 0x0, fs 8 8 .rw 0x0, fs 7 5 .rw 0x0 (.le 4), fs 1 0 .rw 0x3]⟩,
  -- UA_CFG
  ⟨0x503000, [], 0, .d, false, [fs 31 31 .rw 0x0, fs 30 30 .rw 0x0, fs 29 29 .rw 0x0, fs 28 28 .rw 0x0, fs 27 27 .rw 0x1, fs 26 26 .rw 0x1, fs 8 8 .rw 0x0, fs 7 5 .rw 0x0 (.le 4), fs 1 0 .rw 0x3]⟩,
  -- UA_DIV
  ⟨0x502004, [], 0, .d, false, [fs 31 24 .rw 0x61, fs 15 0 .rw 0x51]⟩,
  -- UA_DIV
  ⟨0x503004, [], 0, .d, false, [fs 31 24 .rw 0x0, fs 15 0 .rw 0x0]⟩,
  -- UA_RX
  ⟨0x502008, [(0x1000, 2)], 0, .f, false, [fs 31 31 .wo 0x0, fs 30 30 .ro 0x0, fs 12 12 .ro 0x0, fs 11 11 .ro 0x0, fs 10 10 .ro 0x0, fs 7 0 .ro 0x0]⟩,
  -- UA_TX
  ⟨0x50200c, [(0x1000, 2)], 0, .f, false, [fs 7 0 .wo 0x0]⟩,
  -- UA_STAT
  ⟨0x502010, [(0x1000, 2)], 0, .f, false, [fs 31 31 .w1c 0x0, fs 30 30 .w1c 0x0, fs 29 29 .w1c 0x0, fs 28 28 .w1c 0x0, fs 27 27 .w1c 0x0, fs 26 26 .ro 0x0, fs 25 25 .ro 0x1, fs 24 24 .w1c 0x0, fs 12 8 .ro 0x0, fs 4 0 .ro 0x0]⟩,
  -- UA_IEN
  ⟨0x502014, [(0x1000, 2)], 0, .d, false, [fs 12 8 .rw 0x1, fs 2 2 .rw 0x0, fs 1 1 .rw 0x0, fs 0 0 .rw 0x0]⟩,
  -- UA_0_DE
  ⟨0x502018, [], 0, .d, false, [fs 27 16 .rw 0x8, fs 11 0 .rw 0x18]⟩,
  -- UA_0_WAKE
  ⟨0x50201c, [], 0, .b, false, [fs 31 31 .w1c 0x0, fs 0 0 .rw 0x0]⟩,
  -- UA_1_CARD
  ⟨0x503018, [], 0, .d, false, [fs 31 31 .rw 0x0, fs 30 30 .rw 0x1, fs 29 27 .rw 0x3, fs 23 16 .rw 0x0, fs 7 0 .rw 0x0 (.ne 1)]⟩
  ]

/-- All registers of BAR 0 from 0x00500000. -/
def regPage50 : List RegSpec := regPage50_0

/-- Registers of BAR 0 from 0x00580000, part 0. -/
def regPage58_0 : List RegSpec := [
  -- SQ_CTRL
  ⟨0x580000, [(0x100, 10)], 0, .d, false, [fs 31 31 .vlt 0x0, fs 30 30 .rw 0x0]⟩,
  -- SQ_CTRL
  ⟨0x580a00, [], 0, .d, false, [fs 31 31 .vlt 0x1, fs 30 30 .rw 0x0]⟩,
  -- SQ_START
  ⟨0x580004, [(0x100, 11)], 0, .s, false, [fs 15 0 .vlt 0x100]⟩,
  -- SQ_STAT
  ⟨0x580008, [(0x100, 11)], 0, .f, false, [fs 31 30 .ro 0x0, fs 29 28 .ro 0x0, fs 27 27 .ro 0x0, fs 26 26 .w1c 0x0, fs 25 25 .w1c 0x0, fs 23 16 .ro 0x0, fs 15 8 .ro 0x0]⟩,
  -- SQ_PC
  ⟨0x58000c, [(0x100, 11)], 0, .f, false, [fs 15 0 .ro 0x0]⟩
  ]

/-- All registers of BAR 0 from 0x00580000. -/
def regPage58 : List RegSpec := regPage58_0

/-- Registers of BAR 0 from 0x00600000, part 0. -/
def regPage60_0 : List RegSpec := [
  -- SEC_BOOT_STAT
  ⟨0x600000, [], 0, .f, false, [fs 31 31 .ro 0x0, fs 30 28 .ro 0x0, fs 27 26 .ro 0x0, fs 25 24 .ro 0x0, fs 23 16 .ro 0x0, fs 15 12 .ro 0x0]⟩,
  -- SEC_BOOT_CTRL
  ⟨0x600004, [], 0, .f, false, [fs 31 31 .wo 0x0, fs 30 30 .vlt 0x1]⟩,
  -- SEC_RB
  ⟨0x600008, [], 0, .f, false, [fs 31 31 .vltWo 0x0, fs 23 16 .vlt 0x0, fs 15 8 .ro 0x0, fs 7 0 .ro 0x0]⟩,
  -- SEC_ROOT
  ⟨0x60000c, [], 0, .f, false, [fs 31 31 .vltWo 0x0, fs 18 16 .vlt 0x0, fs 13 8 .ro 0x0, fs 5 0 .ro 0x0]⟩,
  -- SEC_IMG_DIGEST
  ⟨0x600010, [(0x4, 8)], 0, .f, false, [fs 31 0 .ro 0x0]⟩,
  -- SEC_OTP_CTRL
  ⟨0x600030, [], 0, .f, false, [fs 31 31 .vltWo 0x0, fs 30 30 .ro 0x0, fs 23 16 .ro 0x0, fs 15 0 .vlt 0x0]⟩,
  -- SEC_OTP_DATA
  ⟨0x600034, [], 0, .f, false, [fs 31 0 .vlt 0x0]⟩,
  -- SEC_ID_PK
  ⟨0x600040, [(0x4, 8)], 0, .f, false, [fs 31 0 .ro 0x0]⟩,
  -- SEC_ATT_CTRL
  ⟨0x600080, [], 0, .f, false, [fs 31 31 .wo 0x0, fs 30 30 .ro 0x0, fs 23 16 .ro 0x0]⟩,
  -- SEC_ATT_ADDR_LO
  ⟨0x600084, [], 0, .f, false, [fs 31 0 .rw 0x0]⟩,
  -- SEC_ATT_ADDR_HI
  ⟨0x600088, [], 0, .f, false, [fs 31 0 .rw 0x0]⟩,
  -- SEC_ATT_NONCE
  ⟨0x600090, [(0x4, 8)], 0, .f, false, [fs 31 0 .rw 0x0]⟩,
  -- SEC_PROT_STAT
  ⟨0x6000c0, [], 0, .f, false, [fs 31 31 .w1c 0x0, fs 30 30 .ro 0x0, fs 29 28 .ro 0x0, fs 27 24 .ro 0x0]⟩,
  -- SEC_PROT_ADDR
  ⟨0x6000c4, [], 0, .f, false, [fs 31 0 .ro 0x0]⟩,
  -- SEC_PU_BASE
  ⟨0x600100, [(0x10, 32)], 0, .d, false, [fs 31 31 .vlt 0x0, fs 25 8 .vlt 0x0]⟩,
  -- SEC_PU_LIMIT
  ⟨0x600104, [(0x10, 32)], 0, .d, false, [fs 25 8 .vlt 0x0]⟩,
  -- SEC_PU_PERM
  ⟨0x600108, [(0x10, 32)], 0, .d, false, [fs 31 31 .vlt 0x0, fs 26 16 .vlt 0x7ff, fs 7 0 .vlt 0x0]⟩,
  -- SEC_DBG_STAT
  ⟨0x600400, [], 0, .f, false, [fs 31 30 .ro 0x0, fs 29 29 .ro 0x0, fs 28 28 .ro 0x0, fs 23 16 .ro 0x0]⟩,
  -- SEC_DBG_CTRL
  ⟨0x600404, [], 0, .f, false, [fs 31 31 .vltWo 0x0, fs 30 30 .rw 0x0]⟩,
  -- SEC_DBG_NONCE
  ⟨0x600410, [(0x4, 4)], 0, .f, false, [fs 31 0 .ro 0x0]⟩,
  -- SEC_DBG_EXP_LO
  ⟨0x600420, [], 0, .f, false, [fs 31 0 .ro 0x0]⟩,
  -- SEC_DBG_EXP_HI
  ⟨0x600424, [], 0, .f, false, [fs 31 0 .ro 0x0]⟩,
  -- LC_STATE
  ⟨0x600800, [], 0, .f, false, [fs 31 29 .ro 0x0, fs 28 28 .ro 0x0]⟩,
  -- LC_CTRL
  ⟨0x600804, [], 0, .f, false, [fs 31 31 .vltWo 0x0, fs 30 30 .ro 0x0, fs 23 16 .ro 0x0, fs 15 8 .vlt 0x0, fs 2 0 .vlt 0x0]⟩
  ]

/-- All registers of BAR 0 from 0x00600000. -/
def regPage60 : List RegSpec := regPage60_0

/-- Registers of BAR 0 from 0x00680000, part 0. -/
def regPage68_0 : List RegSpec := [
  -- PWR_CTRL
  ⟨0x680000, [], 0, .d, false, [fs 31 31 .wo 0x0, fs 1 0 .rw 0x0]⟩,
  -- PWR_REQ
  ⟨0x680004, [], 0, .f, false, [fs 31 31 .wo 0x0, fs 30 30 .wo 0x0, fs 29 29 .ro 0x0, fs 1 0 .rw 0x0]⟩,
  -- PWR_STAT
  ⟨0x680008, [], 0, .f, false, [fs 31 30 .ro 0x0, fs 29 29 .ro 0x0, fs 28 28 .ro 0x0, fs 1 0 .ro 0x0]⟩,
  -- PWR_CFG
  ⟨0x68000c, [], 0, .d, false, [fs 31 31 .rw 0x0]⟩,
  -- PWR_START_DEFER
  ⟨0x680010, [], 0, .f, false, [fs 31 31 .w1c 0x0, fs 20 16 .ro 0x0, fs 15 0 .ro 0x0]⟩,
  -- PWR_DOMAIN
  ⟨0x680014, [], 0, .f, false, [fs 22 15 .ro 0x0, fs 14 5 .ro 0x0, fs 4 4 .ro 0x0, fs 3 0 .ro 0x0]⟩,
  -- PWR_PF_CFG
  ⟨0x680020, [], 0, .d, false, [fs 31 30 .rw 0x1 (.ne 3), fs 23 16 .rw 0x6, fs 15 0 .rw 0x32]⟩,
  -- PWR_HOLDUP_CFG
  ⟨0x680024, [], 0, .d, false, [fs 23 0 .rw 0x0]⟩,
  -- PWR_HOLDUP_V
  ⟨0x680028, [], 0, .d, false, [fs 31 16 .rw 0xc00, fs 15 0 .rw 0x1b58]⟩,
  -- PWR_HOLDUP_STAT
  ⟨0x68002c, [], 0, .f, false, [fs 31 16 .ro 0x0, fs 15 0 .ro 0x0]⟩,
  -- PWR_STORE_CTRL
  ⟨0x680030, [], 0, .f, false, [fs 31 31 .wo 0x0, fs 30 30 .ro 0x0, fs 23 16 .ro 0x0, fs 8 8 .rw 0x0, fs 7 0 .rw 0x0]⟩,
  -- PWR_STORE_BASE
  ⟨0x680034, [], 0, .d, false, [fs 31 12 .rw 0x800 (.range 0x800 0xFFFFF)]⟩,
  -- PWR_STORE_CFG
  ⟨0x680044, [], 0, .d, false, [fs 15 0 .rw 0x50]⟩,
  -- PWR_STORE_CFG
  ⟨0x680048, [], 0, .d, false, [fs 15 0 .rw 0x12c]⟩,
  -- PWR_STORE_CFG
  ⟨0x68004c, [], 0, .d, false, [fs 15 0 .rw 0x78]⟩,
  -- PWR_STORE_CFG
  ⟨0x680050, [], 0, .d, false, [fs 15 0 .rw 0x2328]⟩,
  -- PWR_STORE_CFG
  ⟨0x680054, [], 0, .d, false, [fs 15 0 .rw 0xc8]⟩,
  -- PWR_STORE_STAT
  ⟨0x680064, [(0x4, 5)], 0, .f, false, [fs 31 24 .ro 0x0, fs 23 0 .ro 0x0]⟩,
  -- PWR_BK_SUB
  ⟨0x680100, [], 0, .b, false, [fs 31 31 .ro 0x0, fs 30 30 .ro 0x0, fs 29 29 .w1c 0x0, fs 14 0 .ro 0x0]⟩,
  -- PWR_BK_SEC_LO
  ⟨0x680104, [], 0, .b, false, [fs 31 0 .ro 0x0]⟩,
  -- PWR_BK_SEC_HI
  ⟨0x680108, [], 0, .b, false, [fs 15 0 .ro 0x0]⟩,
  -- PWR_WAKE_AT
  ⟨0x680110, [], 0, .b, false, [fs 31 0 .rw 0x0]⟩,
  -- PWR_WAKE_CFG
  ⟨0x680114, [], 0, .b, false, [fs 31 31 .rw 0x0, fs 30 30 .rw 0x0]⟩,
  -- PWR_WAKE_STAT
  ⟨0x680118, [], 0, .b, false, [fs 28 28 .w1c 0x0, fs 27 27 .w1c 0x0, fs 26 26 .w1c 0x0, fs 25 25 .w1c 0x0]⟩,
  -- RST_CAUSE
  ⟨0x680800, [], 0, .b, false, [fs 31 28 .ro 0x0, fs 6 6 .w1c 0x0, fs 5 5 .w1c 0x0, fs 4 4 .w1c 0x0, fs 3 3 .w1c 0x0, fs 2 2 .w1c 0x0, fs 1 1 .w1c 0x0, fs 0 0 .w1c 0x1]⟩,
  -- RST_CTRL
  ⟨0x680804, [], 0, .d, false, [fs 31 31 .vltWo 0x0, fs 30 30 .vltWo 0x0, fs 29 29 .vlt 0x0]⟩,
  -- RST_WDT_CFG
  ⟨0x680808, [], 0, .d, false, [fs 31 31 .w1s 0x0, fs 17 16 (.rwl 31) 0x0 (.ne 3), fs 15 0 (.rwl 31) 0x7d0]⟩,
  -- RST_WDT_KICK
  ⟨0x68080c, [], 0, .f, false, [fs 7 0 .wo 0x0]⟩
  ]

/-- All registers of BAR 0 from 0x00680000. -/
def regPage68 : List RegSpec := regPage68_0

/-- Registers of BAR 0 from 0x00700000, part 0. -/
def regPage70_0 : List RegSpec := [
  -- EV_ROUTE
  ⟨0x700000, [(0x4, 64)], 1, .d, false, [fs 31 31 .rw 0x1, fs 30 30 .rw 0x0, fs 5 0 .rw 0x0]⟩,
  -- EV_ROUTE
  ⟨0x700100, [(0x4, 64)], 1, .d, false, [fs 31 31 .rw 0x1, fs 30 30 .rw 0x0, fs 5 0 .rw 0x0]⟩,
  -- EV_PEND
  ⟨0x700200, [(0x4, 4)], 0, .f, false, [fs 31 0 .w1c 0x0]⟩
  ]

/-- All registers of BAR 0 from 0x00700000. -/
def regPage70 : List RegSpec := regPage70_0

/-- The registers of the block that holds a BAR 0 offset (R425). -/
def regPage (off : Nat) : List RegSpec :=
  let p := off / 0x10000
  if 0x10 ≤ p ∧ p < 0x1A then regPage10
  else if p = 0x0 then regPage00
  else if p = 0x1 then regPage01
  else if p = 0x2 then regPage02
  else if p = 0x3 then regPage03
  else if p = 0x4 then regPage04
  else if p = 0x5 then regPage05
  else if p = 0x20 then regPage20
  else if p = 0x28 then regPage28
  else if p = 0x30 then regPage30
  else if p = 0x38 then regPage38
  else if p = 0x40 then regPage40
  else if p = 0x48 then regPage48
  else if p = 0x50 then regPage50
  else if p = 0x58 then regPage58
  else if p = 0x60 then regPage60
  else if p = 0x68 then regPage68
  else if p = 0x70 then regPage70
  else []

/-- Whether an offset falls on an instance of an indexed register at `base`. -/
def coversDims : List (Nat × Nat) → Nat → Nat → Bool
  | [], base, off => off == base
  | (st, n) :: ds, base, off =>
    decide (base ≤ off) && decide ((off - base) / st < n) && coversDims ds (base + (off - base) / st * st) off

/-- Whether an offset is one of the register's instances. -/
def RegSpec.covers (r : RegSpec) (off : Nat) : Bool := coversDims r.dims r.base off

/-- The first index of the instance at an offset. -/
def RegSpec.index (r : RegSpec) (off : Nat) : Nat :=
  match r.dims with
  | [] => 0
  | (st, _) :: _ => (off - r.base) / st

/-- The register at a BAR 0 offset; none where the offset is reserved. -/
def regAt (off : Nat) : Option RegSpec := (regPage off).find? (fun r => r.covers off)

/-- The word a register's fields reset to. -/
def fieldsWord (fl : List FieldSpec) : Nat := fl.foldl (fun a f => a + f.rst * 2 ^ f.lo) 0

/-- The reset word of the register at a BAR 0 offset; a reserved offset reads 0 (R422). -/
def resetWord (off : Nat) : BitVec 32 :=
  match regAt off with
  | some r => BitVec.ofNat 32 (fieldsWord r.fields + r.index off * r.inc)
  | none => 0

end Sys2Proof.Machine
end

