-- ==== Sys2Proof/Machine/Sparse.lean ====
section
/-! DEFINITION. Finite tables with a value for every key, held as sorted association lists in one canonical form: keys strictly
rising, and no entry equal to what an unlisted key reads as. Memories, the register file and every indexed piece of
state use them, so equal tables are equal data. -/
namespace Sys2Proof.Machine

/-- A table from natural numbers to `α`. -/
abbrev Sparse (α : Type) := List (Nat × α)

/-- The entry of a key: what is listed, or what the key reads as unlisted. -/
def Sparse.get {α : Type} (d : Nat → α) : Sparse α → Nat → α
  | [], k => d k
  | (a, v) :: m, k => if k = a then v else Sparse.get d m k

/-- A table without any entry of a key. -/
def Sparse.drop {α : Type} : Sparse α → Nat → Sparse α
  | [], _ => []
  | (a, v) :: m, k => if k = a then Sparse.drop m k else (a, v) :: Sparse.drop m k

/-- A table with one entry more, before the first greater key. -/
def Sparse.insert {α : Type} : Sparse α → Nat → α → Sparse α
  | [], k, v => [(k, v)]
  | (a, w) :: m, k, v => if k < a then (k, v) :: (a, w) :: m else (a, w) :: Sparse.insert m k v

/-- A table with the entry of a key replaced; writing what the key reads as unlisted removes the entry. -/
def Sparse.put {α : Type} [DecidableEq α] (d : Nat → α) (m : Sparse α) (k : Nat) (v : α) : Sparse α :=
  if v = d k then Sparse.drop m k else Sparse.insert (Sparse.drop m k) k v

/-- The canonical form. -/
abbrev Sparse.wf {α : Type} (d : Nat → α) (m : Sparse α) : Prop :=
  m.Pairwise (fun p q => p.1 < q.1) ∧ ∀ p ∈ m, p.2 ≠ d p.1

/-- A table with only the entries whose key a test keeps. -/
def Sparse.keep {α : Type} (p : Nat → Bool) (m : Sparse α) : Sparse α := m.filter (fun e => p e.1)

/-- The bytes of a block of a byte memory, lowest address first. -/
def Sparse.bytes (d : Nat → Byte) (m : Sparse Byte) (a : Nat) : Nat → List Byte
  | 0 => []
  | n + 1 => Sparse.get d m a :: Sparse.bytes d m (a + 1) n

/-- A byte memory with a block of bytes written from an address on. -/
def Sparse.putBytes (d : Nat → Byte) : Sparse Byte → Nat → List Byte → Sparse Byte
  | m, _, [] => m
  | m, a, b :: bs => Sparse.putBytes d (Sparse.put d m a b) (a + 1) bs

/-- Little-endian value of a list of bytes (R10). -/
def leNat : List Byte → Nat
  | [] => 0
  | b :: bs => b.toNat + 256 * leNat bs

/-- A little-endian field of a block of bytes. -/
def leAt (bs : List Byte) (off n : Nat) : Nat := leNat ((bs.drop off).take n)

/-- The `n` bytes of a value, low byte first (R10). -/
def leBytes : Nat → Nat → List Byte
  | 0, _ => []
  | n + 1, v => BitVec.ofNat 8 v :: leBytes n (v / 256)

/-- Bits `hi:lo` of a number. -/
def bitsOf (v hi lo : Nat) : Nat := v / 2 ^ lo % 2 ^ (hi + 1 - lo)

/-- Two's complement reading of a `w`-bit field (R13). -/
def toSigned (w v : Nat) : Int := if v % 2 ^ w < 2 ^ (w - 1) then (v % 2 ^ w : Int) else (v % 2 ^ w : Int) - 2 ^ w

/-- The `w`-bit two's complement of an integer. -/
def ofSigned (w : Nat) (i : Int) : Nat := (i % (2 ^ w : Int)).toNat

/-- A number held at a limit. -/
def satNat (limit v : Nat) : Nat := if v < limit then v else limit

end Sys2Proof.Machine
end

