-- ==== Sys2Proof/Machine/State.lean ====
section
/-! DEFINITION. The machine's state: the register file, the memories, the state of each block that no register shows, the
queue of waiting commands, and the reasons a step can stop. State.reset is the machine after a backup POR, before the
boot ROM has run. Every field of every block is plain data. -/
namespace Sys2Proof.Machine

/-- Why the machine stops with a fault. No command of this model faults: an access to an address the spec gives nothing
at reads 0 and ignores writes (R422, R426), and every error the spec names is an effect on the state. The one reason
is kept for a step the model cannot continue. -/
inductive Fault where
  /-- Raised by no meaning: safe, since nothing is proved of it. -/
  | stuck
deriving DecidableEq, Repr

/-- Why the machine refuses a command. -/
inductive Refusal where
  /-- Raised by `exec` for a row of the table that has no meaning in the model yet: safe, the run stops. -/
  | notModelled (mnemonic : String)
deriving DecidableEq, Repr

/-- A phase of a SPIM transfer (R472): bytes sent, cycles with nothing on the lines, and bytes taken; with the lines it uses. -/
inductive SpimPhase where
  | send (lines : Nat) (bytes : List Byte)
  | idle (cycles : Nat)
  | take (lines : Nat) (bytes : Nat)
deriving DecidableEq, Repr

/-- How SPIM drives its clock and selects (R470, R471): the SPI mode, SCK's period and high phase and the sample delay in
quarter-periods of the kernel, and the SCK periods that SCS_N stays high before. -/
structure SpimClock where
  mode3 : Bool
  period : Nat
  high : Nat
  delay : Nat
  gap : Nat
deriving DecidableEq, Repr

/-- What the device emits: the record of its effects outside itself (assumption 11). -/
inductive Output where
  /-- An MSI-X message of a vector (R441). -/
  | msix (vector : Nat)
  /-- A leading edge of TP0 or TP1 at a timebase value in 2^-32 s, the instant it takes on the grid of 1/2,048 FCORE period counted
  from the model's first tick, and the level it goes to (R290). -/
  | pulse (output : Nat) (time : Nat) (grid : Nat) (level : Bool)
  /-- The trailing edge of TP0 or TP1 on the same grid, and the level it goes to (R290). -/
  | pulseEnd (output : Nat) (grid : Nat) (level : Bool)
  /-- FOUT takes a division, 0 to stop, its high phase in TSYN cycles and its correction a period, at an instant of the grid (R295,
  R296). -/
  | fout (div : Nat) (high : Nat) (follow : Rat) (grid : Rat)
  /-- A frame sent down a Tightrope port, as the bytes of its header, body, CRC and padding (R447), and as the 66-bit blocks that
  each of the port's lanes carries, bit 0 first (R445). -/
  | linkFrame (port : Nat) (frame : List Byte) (lanes : List (List (BitVec 66)))
  /-- A 64b/66b control block sent on T0: 0 a boot block answer, 1 a reset block (R500, R545). -/
  | linkBlock (kind : Nat) (payload : List Byte)
  /-- A beacon frame radiated on a channel at a power in 0.25 dBm, its carrier in Hz of CK_MAIN's seconds (R341), its symbols in
  units of a twelfth of the baud rate, the microseconds of a symbol, and the bytes they spell (R342, R358); a tuner search's carrier
  has none. -/
  | radio (chan : Nat) (power : Int) (carrier : Rat) (symUs : Nat) (symbols : List Int) (bytes : List Byte)
  /-- BCN_PA_EN, and the code of BCN_PA_BIAS (R340). -/
  | pa (on : Bool) (bias : Nat)
  /-- A transfer on the SPIM bus: the device selected, the clock and the phases (R470 to R472). -/
  | spim (device : Nat) (clock : SpimClock) (phases : List SpimPhase)
  /-- Units shifted out of SPIS during a select (R479). -/
  | spis (units : List Nat)
  /-- Levels that a UART drives on its line, each with its PER kernel cycles (R482, R484, R492). -/
  | uart (port : Nat) (wave : List (Bool × Nat))
  /-- UA1_CLK's division of PER, 0 for stopped low, and the level of UA1_RST_N (R491). -/
  | card (clkDiv : Nat) (rst : Bool)
  /-- Bits shifted out of the JTAG port (R521). -/
  | jtag (bits : Nat) (value : Nat)
  /-- A SIEVE, solver or beacon unit's request to another chip is none of these. The device asks the host for bytes at
  a bus address (R431, R432). -/
  | hostRead (addr : Nat) (len : Nat)
deriving DecidableEq, Repr


/-- An armed timebase step (R38, R39): its amount in units of 2^-44 tick, its SOURCE, and when it is due: at the whole
second named, or at the first FS tick after the one named. -/
structure ArmedStep where
  amount : Int
  source : Nat
  atSecond : Option Nat
  afterTick : Nat
deriving DecidableEq, Repr

/-- The timebase (R30): whole seconds, and the tick phase in units of 2^-44 tick. -/
structure Timebase where
  sec : Nat := 0
  phase : Nat := 0
  step : Option ArmedStep := none
  /-- The end of the last second inserted: LEAP shows in the second before it (R43). -/
  leapEnd : Option Nat := none
  /-- Fraction of a crystal cycle gathered, in 1/120,000,000 cycle: the crystal's count against FS (R33, R548). -/
  xtal : Nat := 0
deriving DecidableEq, Repr

/-- A dispatched occurrence that waits for its domain starts (R56): its lateness at dispatch and the tick of dispatch. -/
structure TtWait where
  late : Nat
  tick : Nat
deriving DecidableEq, Repr

/-- One timetable entry (R47), its words' fields by name; times are in 2^-32 s. -/
structure TtEntry where
  due : Nat := 0
  period : Nat := 0
  armed : Bool := false
  lateDrop : Bool := false
  cls : Nat := 0
  lateTol : Nat := 0
  action : Nat := 0
  param : Nat := 0
  lateTicks : Nat := 0
  deferred : Bool := false
  stepped : Bool := false
  dropped : Bool := false
  fired : Bool := false
  skip : Nat := 0
  /-- The occurrence to come was passed over by a step (R59). -/
  stepMark : Bool := false
  /-- The occurrence dispatched waits for its domain starts (R56). -/
  waiting : Option TtWait := none
  /-- The first FS tick at or after the due time, once it has come (R53). -/
  dueAt : Option Int := none
  /-- The tick in which a port command changed the entry: it is dispatched from the next one on (R61). -/
  changed : Option Nat := none
deriving DecidableEq, Repr

/-- A command in progress on an entry port, latched when it was written (R61, R63): the control word, the window, and the
tick the write completed in. -/
structure PortCmd where
  ctrl : Nat
  window : List Word
  tick : Nat
deriving DecidableEq, Repr

/-- The timetable's arbiter (R54, R55): each class's last virtual finish time, the virtual start of the classes now
backlogged, the system virtual time, and how many actions the present tick has fired. -/
structure TtArb where
  vfin : Sparse Rat := []
  vstart : Sparse (Option Rat) := []
  vnow : Rat := 0
  tick : Nat := 0
  fired : Nat := 0
  weighted : Bool := false
deriving DecidableEq, Repr

/-- One timestamp of an event input (R65, R67). -/
structure EvtStamp where
  sec : Nat
  frac : Nat
  sub : Nat
  valid : Bool
  refLost : Bool
  rising : Bool
  stepSeq : Nat
deriving DecidableEq, Repr

/-- An event input: its stored stamps, oldest first, and the instant of its last accepted edge in units of 2^-44 tick of
real time (R65, R66). -/
structure EvtIn where
  fifo : List EvtStamp := []
  last : Option Nat := none
deriving DecidableEq, Repr



/-- The step a chain is taking (R76): none; OFF to SLEEP; SLEEP to STANDBY; lock from STANDBY; hop to a profile; relock
of the active profile in RECEIVE; RECEIVE to STANDBY; STANDBY to SLEEP; SLEEP to OFF. -/
inductive ChainStep where
  | none | wake | standby | lock | hop (p : Nat) | relock | down | sleep | off
deriving DecidableEq, Repr

/-- Why a calibration runs (R76, R78, R84): requested or pending, or as part of the chain's step in progress. -/
inductive CalKind where
  | requested | inStep
deriving DecidableEq, Repr

/-- A GNSS chain outside its registers: the step in progress, the calibration running (its profile), whether the
calibration of this lock or hop was done cold already, the burst sequence (R91), the bias switch (R94), the tick from which
samples are valid again after an IF filter change (R71), and the dispatch tick of a window that has given no valid sample
yet (R89). -/
structure Chain where
  step : ChainStep := .none
  cal : Option (Nat × CalKind) := none
  cold : Bool := false
  seq : Bool := false
  seg : Nat := 0
  segProf : Nat := 0
  biasOn : Bool := false
  filterTill : Nat := 0
  openAt : Option Nat := none
deriving DecidableEq, Repr



/-- A sample word of a chain (R72): the codes Q and I of a sample that is VALID; the codes of an invalid sample, undefined,
are not held. -/
abbrev AdcWord := Option (BitVec 10)

/-- Frames of a spectrum (R107, R110): the samples of the frame in progress, newest first, the sums of the powers of the
frames taken, by bin, and how many they are. -/
structure SpecFrames where
  frame : List (Int × Int) := []
  sums : List Nat := []
  taken : Nat := 0
deriving DecidableEq, Repr

/-- The conditioning path of a chain (R99 to R114) outside its registers: the indicator's run counts, the learning
sums, and each adaptive notch's frequency at allocation and the tick its carrier went weak. -/
structure IfcChain where
  warnUp : Nat := 0
  alarmUp : Nat := 0
  warnDown : Nat := 0
  alarmDown : Nat := 0
  learnSum : Nat := 0
  learnCount : Nat := 0
  learnBad : Bool := false
  alloc : Sparse (BitVec 32) := []
  weakSince : Sparse (Option Nat) := []
  /-- The delay line, newest first, up to eight words, each with whether the blanker blanks it, and the samples after the
  last trigger still to blank (R99, R104). -/
  line : List (AdcWord × Bool) := []
  after : Nat := 0
  /-- The notches' filter state, real and imaginary, in 2^-32 of an output unit (R106). -/
  notch : Sparse (Int × Int) := []
  /-- The output stage's sixteen ticks, newest first, and the word it emits in this tick (R99). -/
  pipe : List (BitVec 17) := []
  word : BitVec 17 := 0
  /-- Usable samples, sum of level magnitudes and clipped samples of the AGC window in progress, and of the last one, until
  its end is taken (R101). -/
  agc : Nat × Nat × Nat := (0, 0, 0)
  agcEnd : Option (Nat × Nat × Nat) := none
  /-- PROFILE_ACT at the latest 25 samples, newest first (R124); how many samples were valid, and whether the latest was (R100). -/
  profs : List Nat := []
  validTicks : Nat := 0
  valid : Bool := false
  /-- Blanked samples of the 1 ms interval in progress, and of the last one, until its end is taken (R105). -/
  blanked : Nat := 0
  blankEnd : Option Nat := none
  /-- The monitor's and the detector's frames, and their averages, until they are taken (R107, R110). -/
  spec : SpecFrames := {}
  specEnd : Option (List (BitVec 16)) := none
  det : SpecFrames := {}
  detEnd : Option (List (BitVec 16)) := none
deriving DecidableEq, Repr

/-- The false-signal monitor outside its registers (R115 to R118): per satellite the tick of its last failure and of its
last OSNMA OK, the signals whose Doppler was beyond DOP_TH at the last epoch, the last solved drift, the tick ALERT's
conditions last held, the tick REF_LOST cleared, whether this epoch's verdict event is out, and the OSNMA verdicts
waiting for the next epoch (R414). -/
structure Fsm where
  failAt : Sparse (Option Nat) := []
  okAt : Sparse (Option Nat) := []
  dopOver : List (Nat × Nat) := []
  drift : Option Int := none
  alertAt : Option Nat := none
  refBackAt : Option Nat := none
  satEvent : Bool := false
  osnma : List (Nat × Bool) := []
deriving DecidableEq, Repr



/-- A stretch of a channel's NCO between changes (R161): from a tick on, its code and carrier phase there and its rates. -/
structure NcoSeg where
  at_ : Nat
  phase : Int
  carr : Int
  codeRate : Nat
  carrRate : Int
deriving DecidableEq, Repr

/-- A finished integration whose record is still to be written (R144 to R146): its valid samples, its taps VE, E, P, L, VL,
MA, MB, in-phase and quadrature, the shift in force, its flags and the epoch count at its end. -/
structure TrkDump where
  nvalid : Nat
  acc : List (BitVec 44 × BitVec 44)
  shift : Nat
  flags : Nat
  epoch : Nat
deriving DecidableEq, Repr

/-- A tracking channel outside its registers. Phases count from the load of the NCO words without wrapping: the code in
2^-48 chip (epoch count included), the carrier in 2^-48 cycle, both as they stand at tick `at_` (R132, R133). -/
structure TrkCh where
  at_ : Nat := 0
  phase : Int := 0
  carr : Int := 0
  codeRate : Nat := 0
  carrRate : Int := 0
  /-- Pending rate words, and the tick in which each HI word committed its pair (R134). -/
  codeLo : Nat := 0
  carrLo : Nat := 0
  codeNew : Option (Nat × Nat) := none
  carrNew : Option (Int × Nat) := none
  /-- Pending code adjustment in 2^-16 chip and the tick it was written in (R136). -/
  adj : Option (Int × Nat) := none
  /-- The secondary index: its value at an epoch count, and a value to load at an epoch count to come (R131). -/
  idx : Nat := 0
  idxAt : Int := 0
  secSet : Option (Nat × Int) := none
  /-- Tap words in use (R142): TAPS and TAP_M. -/
  taps : Word × Word := (0, 0)
  /-- The integration in progress: the unit boundary it began and ends at, its planned length in units (0 none), whether
  it is the first after a start, and the flags of its record (R144, R146). -/
  u0 : Int := 0
  uEnd : Int := 0
  n0 : Nat := 0
  first : Bool := false
  rateFlag : Bool := false
  adjFlag : Bool := false
  seq : Nat := 0
  /-- The integration's valid samples and taps so far (R145, R146). -/
  nvalid : Nat := 0
  acc : List (BitVec 44 × BitVec 44) := []
  /-- Integrations that ended and whose records are to be written, oldest first (R144). -/
  dumps : List TrkDump := []
  /-- The latest stretches of the NCO, newest first (R161). -/
  segs : List NcoSeg := []
deriving DecidableEq, Repr

/-- A ring's epoch capture (R163, R165): the last captured epoch, the two sides of each forward step since the last capture,
in units of the timebase, whether a step has not yet been marked on a capture, and the channels captured with RUN at the
last capture. -/
structure TrkRing where
  lastE : Option Nat := none
  passed : List (Nat × Nat) := []
  stepped : Bool := false
  captured : List Nat := []
deriving DecidableEq, Repr



/-- A symbol in a channel's buffer (R169, R170): its soft value (0 for an erasure), whether it carries FSTART, and its DSEQ
(none for an inserted erasure). -/
structure NavSym where
  x : Int
  mark : Bool
  dseq : Option Byte
deriving DecidableEq, Repr

/-- The navigation decoder of a channel for its present start (R170 to R181, R185): the start's tag, signal and satellite, the
symbols buffered, how
many of them synchronisation has taken, where the unit in progress begins and where the last match ended, the place in the
turn of its pattern, whether its polarity flipped and whether an expected pattern missed, the erasures owed for words dropped
since the last accepted one, consecutive FAIL units, the transmit-time anchor (2^-32 s, symbol index), and the OSNMA fields
of the GST subframe that ends at a given second, with the SYMIDX and DSEQ of the last page taken. -/
structure NavCh where
  tag : Nat := 0
  sig : Nat := 0x3F
  sat : Nat := 0
  buf : List NavSym := []
  seen : Nat := 0
  start : Nat := 0
  matchAt : Nat := 0
  turn : Nat := 0
  chg : Bool := false
  miss : Bool := false
  owed : Nat := 0
  fails : Nat := 0
  anchor : Option (Nat × Nat) := none
  osnEnd : Nat := 0
  osn : Sparse (Option (BitVec 40)) := []
  osnLast : Nat × Byte := (0, 0)
deriving DecidableEq, Repr

/-- A unit waiting to be staged (R183): all of its record but RXT and NSEQ, and its start's tag (R172). -/
structure NavRec where
  chan : Nat
  tag : Nat
  sat : Nat
  sig : Nat
  fmt : Nat
  flags : Nat
  len : Nat
  wmask : Nat
  qual : Nat
  dseq : Byte
  symidx : Nat
  tot : Nat
  payload : List Byte
deriving DecidableEq, Repr


/-- A plan entry of the Sieve (R188): its request words 0 to 7, its status fields, the order it was armed in, the windows set
at capture, the capture's samples, the transforms still to run and those running, and the detection under confirmation. -/
structure PlanEntry where
  req : List Word := []
  state : Nat := 0
  result : Nat := 0
  peak : Nat := 0
  cn0 : Nat := 0
  ring : Nat := 0
  hslot : Nat := 0
  mode : Nat := 0
  dopp : Word := 0
  code : Word := 0
  t : Nat := 0
  lcyc : Nat := 0
  hseq : Nat := 0
  retries : Nat := 0
  order : Nat := 0
  /-- The entry's last hand-off still stands for SIEVE_STALE (R197). -/
  issued : Bool := false
  /-- Centre and half-width of the Doppler window (2^-12 Hz) and of the code window (2^-8 chip) at T. -/
  dopC : Int := 0
  dopHW : Nat := 0
  codC : Nat := 0
  codHW : Nat := 0
  /-- Steps of the timebase counted when the capture began (R191). -/
  steps : Nat := 0
  samples : List (BitVec 16) := []
  /-- The capture in progress (R191): the tick of its first sample, its samples so far, newest first, and how many of them were
  invalid. -/
  start : Nat := 0
  got : List (BitVec 16) := []
  invalid : Nat := 0
  left : Nat := 0
  busy : Nat := 0
  conf : Bool := false
deriving DecidableEq, Repr

/-- The Sieve outside its registers (R188, R196, R198): the plan, HSEQ, the count of armings, the lane cycles used in this
window, whether its budget stopped a transform in it, and the tick of its last transform. -/
structure Sieve where
  plan : Sparse PlanEntry := []
  hseq : Nat := 0
  armings : Nat := 0
  used : Nat := 0
  capped : Bool := false
  last : Nat := 0
deriving DecidableEq, Repr


/-- A candidate of a snapshot job (R215, R242 to R245): satellite and signal, the predicted code phase in 2^-32 chip, its
correlated Doppler bins, the first lag and the number of lags of its window, and whether its code is held. -/
structure Cand where
  sat : Nat
  sig : Nat
  phi : Int := 0
  drift : Rat := 0
  bins : List Int := []
  lo : Int := 0
  lags : Nat := 0
  held : Bool := true
deriving DecidableEq, Repr

/-- A snapshot job in a slot (R216). -/
structure Job where
  src : Nat
  state : Nat
  desc : List Byte
  snap : List Byte := []
  /-- Staging blocks held; a job in STAGING without them waits (R217). -/
  blocks : Nat := 0
  /-- Order of entering STAGING, and of entering QUEUED. -/
  order : Nat := 0
  status : Nat := 0
  detail : Nat := 0
  /-- Where a status is decided (R225): the state before, the tick, and the precedence of the cause. -/
  was : Nat := 0
  endTick : Nat := 0
  rank : Nat := 0
  /-- A decision that waits for the fetch's end or the transform boundary (R223, R224). -/
  ending : Option (Nat × Nat) := none
  /-- The code spectrum profile chosen at check 9 (R239). -/
  prof : Option Nat := none
  /-- Port and tick of the forward; retaken jobs are not forwarded again (R226, R229). -/
  port : Nat := 0
  sentAt : Nat := 0
  retaken : Bool := false
  forwarded : Bool := false
  /-- Sky epoch of the stage in progress (R263). -/
  epoch : Option Nat := none
  tc : Option Nat := none
  cands : List Cand := []
  suspect : Bool := false
  segs : Nat := 0
  /-- Job scratch held, in bytes (R254). -/
  scratch : Nat := 0
  fwdLeft : Nat := 0
  fwdBusy : Nat := 0
  /-- Inverse work not started: candidate and bin, by index (R246). -/
  invLeft : List (Nat × Nat) := []
  invBusy : Nat := 0
  lcyc : Nat := 0
  /-- Measurement entries and fix record of the solve in progress. -/
  meas : List (List Byte) := []
  fix : List Byte := []
  tDone : Nat := 0
  /-- Cancelled by the parent: it sends no result (R456). -/
  silent : Bool := false
  /-- The record in REPORT, when the job produces one. -/
  record : Option (List Byte) := none
deriving DecidableEq, Repr

/-- What a lane runs (R233): a forward pass of a job; segment `k` of a job's inverse work on a candidate and bin; a Sieve
transform of an entry, with the entry's arming; a calibration pass. -/
inductive LaneWork where
  | fwd (slot gen : Nat)
  | inv (slot gen cand bin seg : Nat)
  | sieve (entry order : Nat)
  | cal
deriving DecidableEq, Repr

/-- A lane (R233, R246, R255): the pass it runs, the inverse work it must continue at its next pass, the tick of its last
passing test, the jobs that ran on it since, and the tick it went idle. -/
structure Lane where
  work : Option LaneWork := none
  next : Option LaneWork := none
  tested : Nat := 0
  since : List (Nat × Nat × Nat × Nat) := []
  idle : Nat := 0
deriving DecidableEq, Repr

/-- The Carousel outside its registers (R216, R250 to R257): slots, generations, the lanes, virtual times of the 34 sources
and of CAL (34), lane cycles used in the window, and the CRC-32 of each profile's spectra as loaded. -/
structure Carousel where
  jobs : Sparse (Option Job) := []
  gens : Sparse Nat := []
  seq : Nat := 0
  lanes : Sparse Lane := []
  vt : Sparse Rat := []
  vnow : Rat := 0
  backlog : List Nat := []
  used : Nat := 0
  hit : Bool := false
  crcs : Sparse (Option Nat) := []
  done : Nat := 0
  reading : Option Nat := none
deriving DecidableEq, Repr


/-- A live solve in progress (R283): its epoch as SPT64, the sky epoch it reads, and the record it will end with. -/
structure LiveSolve where
  e : Nat
  epoch : Nat
  record : List Byte
deriving DecidableEq, Repr

/-- A survey in progress (R284): its start on the tick count, the fixes gathered, the sums of their positions in mm and of
their squared uncertainties. -/
structure Survey where
  start : Nat
  n : Nat := 0
  x : Int := 0
  y : Int := 0
  z : Int := 0
  unc2 : Nat := 0
deriving DecidableEq, Repr

/-- The position, in mm, and uncertainty of a converged fix (R280, R284). -/
structure FixPos where
  x : Int
  y : Int
  z : Int
  unc : Nat
deriving DecidableEq, Repr

/-- An epoch (SPT64) that rings have captured and no live solve has covered (R283): the rings, and whether one of them has
captured again since. -/
structure CapEpoch where
  e : Nat
  rings : List Nat
  again : Bool
deriving DecidableEq, Repr

/-- The sky table and the fix solver outside their registers (R259 to R284): the slots of the current epoch and of the
pending bank, the count of epochs, whether ionosphere coefficients were ever set, the records published since the
previous fit, queries in progress (result and words) by reader, the live solves in progress, oldest first, and those that
wait for an engine, the epochs captured and not yet solved, whether the last live solve converged, the last converged live
fix and the survey. -/
structure Sky where
  cur : Sparse (List Byte) := []
  pend : Sparse (List Byte) := []
  epochs : Nat := 0
  ionoSet : Bool := false
  obs : List (List Byte) := []
  query : Sparse (Option (Nat × List Word)) := []
  live : List LiveSolve := []
  wait : List Nat := []
  epochsCap : List CapEpoch := []
  lastOk : Bool := false
  fix : Option FixPos := none
  survey : Option Survey := none
deriving DecidableEq, Repr


/-- An armed pulse edge (R290): the timebase instant at which it leaves, in units, and M of R291 in 2^-44 FS tick for an
edge armed by a periodic entry. -/
structure Edge where
  at_ : Int
  spacing : Option Nat
deriving DecidableEq, Repr

/-- A time pulse output outside its registers (R290, R291): edges armed, the real instant of its last emitted leading
edge, whether a pulse is in progress, where on the grid it ends, and whether a driven one was in progress at a reset (R310). -/
structure PulseOut where
  armed : List Edge := []
  last : Option Nat := none
  high : Bool := false
  ends : Nat := 0
  held : Bool := false
deriving DecidableEq, Repr

/-- The time discipline outside its registers (R297 to R304). Times on the timebase are in units and move with every
step; offsets are in ns. -/
structure Disc where
  freq : Rat := 0
  rest : Rat := 0
  /-- The slew term in force, in ns per second. -/
  slew : Rat := 0
  tuneBase : Nat := 0x80000
  /-- No measurement was accepted since boot or since DISC_EN was set. -/
  fresh : Bool := true
  /-- Consecutive measurements per source (R298). -/
  acq : Sparse Nat := []
  /-- The epoch of the latest measurement of each source. -/
  acqAt : Sparse (Option Int) := []
  /-- The epoch of the last accepted measurement, and TP_UNC then in 0.1 ns. -/
  ref : Option Int := none
  u0 : Nat := 0
  /-- The a·t term of the Sandglass in ns up to an instant (R301). -/
  aAcc : Rat := 0
  aMark : Int := 0
  /-- TP_OFFSET in ns and the instant it holds at. -/
  ofs : Rat := 0
  ofsMark : Int := 0
  /-- An announced step: the second it falls on, its source, and whether it is armed (R303). -/
  pend : Option (Nat × Nat) := none
  armed : Bool := false
  /-- The standby's takeover is due at its next pulse-safe point (R308), and the timebase when it fell due. -/
  takeover : Bool := false
  takeFrom : Nat := 0
deriving DecidableEq, Repr


/-- FOUT as it runs (R295, R296): its division, 0 when stopped; the correction of a period by FOLLOW in interpolator steps; and
where on the grid of 1/2,048 FCORE period both took effect, which a whole period follows. -/
structure Fout where
  div : Nat := 0
  follow : Rat := 0
  start : Rat := 0
deriving DecidableEq, Repr

/-- The clock synthesis outside its registers (R312 to R327): the REF_SEL value in use, whether an N change is in progress and
whether it is the one at boot (±1,000 ppm test), a RETURN written, a REF_SEL written in RAMP, the time that TSYN counts since
the switch to the holding oscillator (R320), the tick of entering LOCKING with the phase errors of the reference edges since (an input,
newest first, in 2^-16 of a CK_MAIN period, R319), whether software wrote REF_SEL (R322), the tick of a TSYN fault with the phase its re-injection absorbs, the phases of TSYN's last cycles
(an input, newest first, in interpolator steps, R327), the dividers latched at GO with
the tick of GO, the tick of the last main POR, from which frames count (R324), the interpolator steps absorbed since (R317), the code
that OCXO_TUNE carries (R329), and FOUT. -/
structure ClockSyn where
  inUse : Nat := 0
  change : Bool := true
  boot : Bool := true
  ret : Bool := false
  after : Option Nat := none
  holdU : Nat := 0
  lockAt : Nat := 0
  errs : List Int := []
  selBySw : Bool := false
  tsynAt : Option (Nat × Int) := none
  phases : List Int := []
  div : Option (Word × Nat) := none
  porTick : Nat := 0
  absorbed : Int := 0
  tuneOut : Nat := 0x80000
  fout : Fout := {}
deriving DecidableEq, Repr



/-- The step the beacon radio is taking (R339): none; OFF to SLEEP; SLEEP to STANDBY; locking on a channel; SYNTHON to
STANDBY; STANDBY to SLEEP; SLEEP to OFF. -/
inductive BcnStep where
  | none | wake | standby | lock (c : Nat) | down | sleep | off
deriving DecidableEq, Repr

/-- What the preamble decides at the start of symbol 24 (R348, R349): the tick, the driver code, whether it was held at 0 or 127,
and whether the return loss was below RL_TH. -/
structure BcnMid where
  at_ : Nat
  code : Nat
  limit : Bool
  mismatch : Bool
deriving DecidableEq, Repr

/-- A beacon frame from its dispatch on (R352 to R357): descriptor index, due time in 2^-32 s, the descriptor as copied;
once started the tick of its ramp-up (0 while listening), and its result fields as they will be written. -/
structure BcnFrame where
  index : Nat
  due : Nat
  desc : List Byte
  ramp : Option Nat := none
  /-- The tick at which listening began (R354), and what symbol 24 has still to decide. -/
  listen : Nat := 0
  mid : Option BcnMid := none
  status : Nat := 0
  rflags : Nat := 0
  airUs : Nat := 0
  tSent : Nat := 0
  lateNs : Nat := 0
  pwr : Int := 0
  rl : Nat := 0
  gain : Nat := 0
deriving DecidableEq, Repr

/-- The beacon outside its registers (chapter 13): the cycle table's records by index (R361), the key store and the
write-only key words (R359), whether KEY_LOW's condition holds, FSEQ; the held frame and the one listening or on air;
the radio's step, the calibration running (channel, whether within a lock), the channel of a tuner search, a channel
kept after a frame that did not start (R353), one whose calibration failed, the tick of the last ramp-down or listen,
whether AUTO_CAL has acted, the channels whose next frame is the first after a calibration (R348); the duty bins in µs:
61 × channel + minutes past, channel 64 the total (R355), and whether the stored ones have been taken since main POR (R363);
the effective charter: the region's bytes at the last build (R336). -/
structure Beacon where
  cyc : Sparse (List Byte) := []
  keys : Sparse (Option (Nat × List Byte)) := []
  keyW : Sparse Word := []
  keyLow : Bool := false
  fseq : Nat := 0
  held : Option BcnFrame := none
  tx : Option BcnFrame := none
  step : BcnStep := .none
  cal : Option (Nat × Bool) := none
  search : Option Nat := none
  stay : Option Nat := none
  fault : Option Nat := none
  quiet : Option Nat := none
  autoDone : Bool := false
  fresh : Sparse Bool := []
  duty : Sparse Nat := []
  dutyIn : Bool := false
  charter : List Byte := []
deriving DecidableEq, Repr


/-- What a sequencer is doing: SQ_n_STAT.STATE. -/
inductive SeqRun where
  | halted | run | wait | dfault
deriving DecidableEq, Repr

/-- One DX-8 sequencer: the registers of R364 and the special registers of R394, its register-access buffers (R370, R371),
its timer (R389) and the repeat prefix in progress (R381). -/
structure Seq where
  a : BitVec 8 := 0
  b : BitVec 8 := 0
  x : BitVec 16 := 0
  y : BitVec 16 := 0
  sp : BitVec 16 := 0x7FE0
  pc : BitVec 16 := 0
  ct : BitVec 16 := 0
  /-- MODE, laid out as in R365. -/
  mode : BitVec 8 := 0
  ctl : BitVec 8 := 0
  imask : BitVec 16 := 0
  /-- Latched inputs pending (R383); level inputs are read from their sources. -/
  ipend : BitVec 16 := 0
  bank : BitVec 10 := 0
  aper : BitVec 3 := 0
  rsel : BitVec 4 := 0
  splim : BitVec 16 := 0x0100
  fcause : BitVec 8 := 0
  faddr : BitVec 16 := 0
  /-- Timer reload TMR, the down-counter, and the cycles towards its next count (R389). -/
  tmr : BitVec 16 := 0
  timer : BitVec 16 := 0
  presc : Nat := 0
  /-- Cycle count CYC and its capture (R394). -/
  cyc : BitVec 32 := 0
  cycCap : Option (BitVec 32) := none
  /-- While it waits, the part of a cycle gathered since the last whole one, counted in parts of which 3 x its divider make a
  cycle: an FS tick is 30 of them, 10 from the holding oscillator (R320, R323). (Assumption 21, DEDUCED.) -/
  waitPart : Nat := 0
  ventry : BitVec 16 := 0
  /-- The read buffer: BAR 0 offset of the word and its value (R370). -/
  rdBuf : Option (Nat × Word) := none
  /-- The write buffer: BAR 0 offset of the word and the bytes gathered (R371). -/
  wrBuf : Option (Nat × Word) := none
  run : SeqRun := .halted
  /-- Halted by BRK for the debug port (R388). -/
  dbgHalt : Bool := false
  /-- The repeat prefix in progress: the prefix's address; the flag says no iteration has run yet (R381, R384). -/
  rep : Option (BitVec 16 × Bool) := none
  /-- Sixteen 48-bit wide registers of the loop coprocessor (R403); unlisted 0. -/
  wide : Sparse (BitVec 48) := []
  /-- Detail codes of the last COPROC fault of CP0, CP1 and CP2 (R401). -/
  cpStat : Sparse Nat := []
deriving DecidableEq, Repr

/-- A sequencer's state at main POR: SQM runs the boot ROM in Vault mode, SQ0 to SQ9 are HALTED (R395). -/
def Seq.dflt (n : Nat) : Seq :=
  if n = 10 then { mode := 2, pc := 0xC000, aper := 7, bank := 0x3F0, run := .run } else {}

/-- A CP2 hash job on a lane: where its descriptor lies, the descriptor's bytes, whether ABORT was issued (R412, R413). -/
structure HashJob where
  desc : BitVec 16
  bytes : List Byte
  /-- The job ends with ST_FORMAT without reading data: found at submission (R412). -/
  refused : Bool := false
  abort : Bool := false
deriving DecidableEq, Repr



/-- The host function's state outside its registers: MSI-X enable and function mask (configuration space) and the power
state D3hot (R421, R441). -/
structure HostFn where
  msixEn : Bool := false
  fnMask : Bool := false
  d3hot : Bool := false
deriving DecidableEq, Repr

/-- The notifier of a result ring or stream (R434): units written since its pending bit was last set, and the tick of the
oldest of them. -/
structure Notifier where
  count : Nat := 0
  oldest : Option Nat := none
deriving DecidableEq, Repr

/-- A copy in progress (R437), its operands as they stood at GO. -/
structure CopyJob where
  host : Nat
  dev : Nat
  len : Nat
  toHost : Bool
  /-- ABORT was written. -/
  abort : Bool
deriving DecidableEq, Repr


/-- A reliable frame sent and not yet acknowledged (R449). -/
structure TxFrame where
  seq : Nat
  kind : Nat
  body : List Byte
deriving DecidableEq, Repr

/-- A kept time exchange (R466): offset e and delay in ps, and the peer's TP_OFFSET, TP_UNC and TP_FUNC. -/
structure Exchange where
  e : Rat
  delay : Rat
  ofs : Int
  unc : Nat
  func : Nat
deriving DecidableEq, Repr

/-- A Tightrope port outside its registers (R445 to R467). -/
structure Link where
  txSeq : Nat := 0
  rxSeq : Nat := 0
  unacked : List TxFrame := []
  /-- Reliable frames that wait for room in the port's buffers: type and body, oldest first (R449). -/
  later : List (Nat × List Byte) := []
  progress : Nat := 0
  resends : Nat := 0
  /-- Credits granted to the peer since UP, cumulative, and how many the peer has used (R453). -/
  jobGrant : Nat := 0
  blkGrant : Nat := 0
  resGrant : Nat := 0
  jobUsed : Nat := 0
  blkUsed : Nat := 0
  resUsed : Nat := 0
  /-- Cumulative counts of the peer's last CREDIT frame, and what this side has used of them. -/
  jobGot : Nat := 0
  blkGot : Nat := 0
  resGot : Nat := 0
  jobSpent : Nat := 0
  blkSpent : Nat := 0
  resSpent : Nat := 0
  /-- Result credits reserved by job credits granted and by admitted jobs (R453, R454). -/
  resHeld : Nat := 0
  /-- JOB frames accepted whose descriptors the Carousel has not taken yet (R204). -/
  waiting : List (List Byte) := []
  /-- The exchange under way: its number, t1 in 2^-48 s and the steps counted then (R466). -/
  exNo : Nat := 0
  exOpen : Option (Nat × Nat × Nat) := none
  exs : List Exchange := []
  /-- Offsets of the last eight measurements with their seconds (R467), whether the last second gave one, and whether one
  is missing since. -/
  offs : List (Nat × Rat) := []
  had : Bool := false
  refused : Bool := false
  /-- Mirrors waiting: kind and index (R460), and the next slot of the rolling refresh. -/
  mirrors : List (Nat × Nat) := []
  roll : Nat := 0
  hbSeq : Nat := 0
  hbSeen : Bool := false
  /-- STEP_SEQ at the last whole second (R467), the tick of the last valid frame (R450), the peer's role in its HELLO or last HEARTBEAT (R462). -/
  stepMark : Nat := 0
  lastRx : Nat := 0
  peerRole : Nat := 0
deriving DecidableEq, Repr



/-- A command transfer of the SPIM, latched at GO (R473). -/
structure SpimCmd where
  ctrl : Word
  addr : Word
  len : Nat
  data : List Byte
deriving DecidableEq, Repr

/-- What runs on the SPIM bus (R474): a reader's command transfer, or the fill of a line, for a waiting read of a flash
address or as the following line (R476). -/
inductive SpimUse where
  | cmd (reader : Nat)
  | fill (line : Nat) (read : Option Nat)
deriving DecidableEq, Repr

/-- The SPIM outside its registers: queued transfers by reader, fills waiting, the transfer that runs, and the prefetch
lines, most recently used first (R473 to R476). -/
structure Spim where
  cmds : Sparse (Option SpimCmd) := []
  fills : List (Nat × Option Nat) := []
  bus : Option SpimUse := none
  lines : List (Nat × List Byte) := []
deriving DecidableEq, Repr

/-- The SPIS outside its registers: the receive FIFO with its header marks, and the transmit FIFO (R479, R480). -/
structure Spis where
  rx : List (Nat × Bool) := []
  tx : List Nat := []
  /-- COUNT and STATUS of the response committed (R480). -/
  count : Nat := 0
  status : Nat := 0
deriving DecidableEq, Repr

/-- A received character with its flags (R486). -/
structure UartChar where
  data : Nat
  pe : Bool
  fe : Bool
  brk : Bool
deriving DecidableEq, Repr

/-- A UART outside its registers: its FIFOs, the character in the shifter, the divider the transmitter uses (R483), and
UA1's repetitions sent and erroneous receptions in a row (R493, R494). -/
structure Uart where
  rx : List UartChar := []
  tx : List Nat := []
  shift : Option Nat := none
  txDiv : Word := 0
  /-- The levels of the character in the shifter and their cycles, its lead included (R484, R489), and the tick at which the last
  one was through. -/
  wave : List (Bool × Nat) := []
  txEnd : Nat := 0
  /-- The receiver (R485): the levels taken at each tick since a character's start edge, the divider it is
  received with (R483), the level of the last tick, and whether
  it waits for the line to go high after a break. -/
  rxCur : Option (List Bool) := none
  rxDiv : Word := 0
  rxHigh : Bool := true
  rxBrk : Bool := false
  reps : Nat := 0
  errs : Nat := 0
deriving DecidableEq, Repr


/-- A protection unit entry in force (R514, R515): committed by a write of PERM with its staged BASE and LIMIT. -/
structure PuEntry where
  en : Bool := false
  space : Nat := 0
  base : Nat := 0
  limit : Nat := 0
  sqmask : Nat := 0x7FF
  rights : Nat := 0
deriving DecidableEq, Repr

/-- An open debug session (R523, R524): its level, the kind of its credential (0 none, 1 certificate, 2 token) and its
expiry as SPT64, 0 for none. -/
structure DbgSession where
  level : Nat
  kind : Nat
  expiry : Nat
deriving DecidableEq, Repr



/-- The JTAG port (R521): the instruction in force, the boundary cells preloaded, and whether EXTEST drives them. -/
structure Jtag where
  ir : Nat := 0xFF
  cells : List Bool := []
  drives : Bool := false
deriving DecidableEq, Repr

/-- Boot and security outside the registers (chapter 19): what the boot ROM has to do (0 nothing, 1 the boot after a main
POR, 2 after another reset, 3 the push of R501), the OTP word being programmed (offset, data), the lifecycle transition in
progress, the report being signed with its host address, the credential being verified, the JTAG port, and whether no
release has come since the last main POR (R550). -/
structure Sec where
  boot : Nat := 1
  otp : Option (Nat × Word) := none
  lc : Option Nat := none
  att : Option (List Byte × Nat) := none
  cred : Option (List Byte) := none
  jtag : Jtag := {}
  firstRel : Bool := true
  /-- A release whose BACKUP step was applied in this FS tick: BOOT_MS of the READY that the next one sets (R45). -/
  ready : Option Nat := none
deriving DecidableEq, Repr



/-- A domain start waiting for the start budget (R533): the domain's bit number in PWR_DOMAIN, the tick it was requested
in, and the timetable entry whose action asked for it (R56). -/
structure StartReq where
  domain : Nat
  tick : Nat
  tt : Option Nat := none
deriving DecidableEq, Repr

/-- The start budget (R533): waiting requests, oldest first, and the starts granted lately (tick, inrush in mA). -/
structure Budget where
  queue : List StartReq := []
  grants : List (Nat × Nat) := []
deriving DecidableEq, Repr



/-- A flash store waiting (R555, R560): its kind, whether PF asked for it, whether FLASH_STORE or a register write did, and
whether a register write did. -/
structure StoreReq where
  kind : Nat
  pf : Bool
  other : Bool
  reg : Bool
deriving DecidableEq, Repr

/-- A flash store in progress (R559): its request, the slot (false A, true B), SEQ and the record. -/
structure StoreRun where
  req : StoreReq
  slot : Bool
  seq : Nat
  record : List Byte
deriving DecidableEq, Repr

/-- Power, reset and stores outside the registers (chapter 20): the transition in progress (its TARGET), the TARGET latched
behind it (R541), whether the host link is down for BURST (R538), what BURST saved (PWR of the rings as a mask, TARGET of the chains) (R538), whether the device is in
HIBERNATE, whether the power-fail action is to enter it (R554), the stores waiting and running, the slots whose erase
waits (kind, slot B) and those known erased (R559), the tick from which the watchdog counts and whether it has warned (R544),
and whether the crystal has stopped (R548). -/
structure Power where
  trans : Option Nat := none
  latch : Option Nat := none
  pcieOff : Bool := false
  savedRings : Nat := 0
  savedChains : List Nat := []
  hib : Bool := false
  pfHib : Bool := false
  queue : List StoreReq := []
  store : Option StoreRun := none
  erase : List (Nat × Bool) := []
  blank : List (Nat × Bool) := []
  wdtAt : Option Nat := none
  wdtHalf : Bool := false
  xtalOff : Bool := false
deriving DecidableEq, Repr


/-- The whole machine. -/
structure State where
  /-- Commands waiting to be taken, first in first out (the model's own queue). -/
  pending : List Instr := []
  /-- The register file: BAR 0 words that differ from their reset word, per-reader copies included (R4, R35). -/
  regs : Sparse Word := []
  /-- The device memory map behind BAR 2 (R426), byte by byte; an unlisted byte reads 0 (assumption 5). -/
  mem : Sparse Byte := []
  /-- Private RAM and mailboxes, at their BAR 0 offsets (R366, R369, R398); an unlisted byte reads 0 (assumption 5). -/
  ram : Sparse Byte := []
  /-- Host memory as far as the device has written it (R433); an unlisted byte reads 0 (assumption 5). -/
  hostMem : Sparse Byte := []
  /-- The flash of SPIM device 0 (R499, R558); an unlisted byte reads 0xFF, erased (assumption 6). -/
  flash : Sparse Byte := []
  /-- What the device has emitted, oldest first (assumption 11). -/
  out : List Output := []
  /-- The model's own counter of free values drawn (assumption 10). -/
  free : Nat := 0
  /-- FS ticks since reset: the model's own clock (assumption 8). -/
  tick : Nat := 0
  /-- The codes that the ADC of each chain will deliver with its next valid samples, the next one first: an input of the board
(R72); where it is empty the next code is a free value (assumption 10). -/
  adc : Sparse (List (BitVec 10)) := []
  /-- The word the last bus read returned (assumption 12). -/
  busData : Word := 0
  /-- The timebase count and the armed step (R30, R39). -/
  tb : Timebase := {}
  /-- Latch-group shadows (R35): the captured words by reader and lowest word; none is []. -/
  caps : Sparse (List Word) := []
  /-- The 4,096 timetable entries (R47); unlisted disarmed and clear. -/
  tt : Sparse TtEntry := []
  /-- The port command in progress of each family (16 × family) and reader (R61). -/
  ports : Sparse (Option PortCmd) := []
  /-- The timetable's arbiter (R54). -/
  arb : TtArb := {}
  /-- The four event inputs (R65). -/
  evt : Sparse EvtIn := []
  /-- The four GNSS chains (R75). -/
  chains : Sparse Chain := []
  /-- The four conditioning paths (chapter 03). -/
  ifc : Sparse IfcChain := []
  /-- The false-signal monitor (R115). -/
  fsm : Fsm := {}
  /-- The 320 tracking channels (R132 to R144). -/
  trk : Sparse TrkCh := []
  /-- The ten rings' epoch capture (R163). -/
  rings : Sparse TrkRing := []
  /-- Per ring, the last published epoch (SPT64) and its records, for the fix solver (R165). -/
  published : Sparse (Nat × List (List Byte)) := []
  /-- The navigation decoders of the 320 channels (R172). -/
  nav : Sparse NavCh := []
  /-- The ten symbol FIFOs, oldest word first, each with its start's tag and the erasures it owes (R171, R172). -/
  navFifo : Sparse (List (Word × Nat × Nat)) := []
  /-- Units decoded and not yet staged (R184). -/
  navUnits : List NavRec := []
  /-- The Sieve (R187). -/
  sieve : Sieve := {}
  /-- The Carousel (R203, R233). -/
  car : Carousel := {}
  /-- The sky table and the fix solver (R259, R283). -/
  sky : Sky := {}
  /-- The outputs TP0 and TP1 (R290). -/
  tp : Sparse PulseOut := []
  /-- The time discipline (R297). -/
  disc : Disc := {}
  /-- The TWIN_ACTIVE_IN pin (R309). -/
  twinPin : Bool := false
  /-- Clock synthesis (R312). -/
  ck : ClockSyn := {}
  /-- The field beacon (R332). -/
  bcn : Beacon := {}
  /-- The eleven sequencers SQ0 to SQ9 and SQM (number 10); unlisted as at main POR (R364, R394, R395). -/
  seqs : Sparse Seq := []
  /-- The hash engine's four lanes: the CP2 job on each (R411 to R413). -/
  hash : Sparse (Option HashJob) := []
  /-- The host function: MSI-X enable, function mask, power state D3hot (R421, R441). -/
  host : HostFn := {}
  /-- Per event, one more than the tick of its last occurrence; 0 for none (R442). -/
  evAt : Sparse Nat := []
  /-- The notifiers of result rings 32 to 63 and streams 64 to 66 (R434). -/
  notif : Sparse Notifier := []
  /-- The two copy channels (R437). -/
  copies : Sparse (Option CopyJob) := []
  /-- The four Tightrope ports (R445). -/
  links : Sparse Link := []
  /-- The SPIM (R473 to R477). -/
  spim : Spim := {}
  /-- The SPIS (R478 to R481). -/
  spis : Spis := {}
  /-- The two UARTs (R482 to R494). -/
  uarts : Sparse Uart := []
  /-- The protection unit's 32 committed entries (R514); unlisted not enabled. -/
  pu : Sparse PuEntry := []
  /-- The debug session (R523). -/
  dbg : Option DbgSession := none
  /-- Boot, OTP, lifecycle, attestation and debug port (chapter 19). -/
  sec : Sec := {}
  /-- The start budget (R533). -/
  budget : Budget := {}
  /-- Power states, stores, watchdog and crystal (chapter 20). -/
  pwr : Power := {}
deriving DecidableEq, Repr

/-- The machine right after a backup POR (R542, R546): every register at its reset value, every memory with nothing
listed, no command waiting; GAIN of each chain is the gain its PGAIN remembers (R121). -/
def State.reset : State :=
  { regs := [(0x40004, 0x28), (0x40204, 0x28), (0x40404, 0x28), (0x40604, 0x28), (0x680800, 0x10000001)] }

end Sys2Proof.Machine
end

