-- ==== Sys2Proof/Machine/Ops.lean ====
section
/-! DEFINITION. The named operations every meaning is written over: reading and writing the register file and its fields,
the memories, drawing a free value, raising an event, reading the timebase. -/
namespace Sys2Proof.Machine

/-- The readers in the order of their copies: 0 debug port, 1 host, 2 SQM, 3 + n SQn. This is the order of R62. (Assumption 15, DEDUCED.) -/
def readerIdx : Reader → Nat
  | .debug => 0
  | .host => 1
  | .sqm => 2
  | .sq n => 3 + n.val

/-- The register file's key of a reader's own copy of a per-reader register (R35). (Assumption 15, DEDUCED.) -/
def copyOff (r : Reader) (off : Nat) : Nat := off + 0x1000000 * (readerIdx r + 1)

/-- A field of a per-reader register, in a reader's copy. -/
def Fld.at (f : Fld) (r : Reader) : Fld := { f with off := copyOff r f.off }

/-- What an unlisted key of the register file reads as: the reset word of its register. (Assumption 4, DESIGN CHOICE.) -/
def regDflt (k : Nat) : Word := resetWord (k % 0x1000000)

/-- An unlisted byte of a RAM reads 0 (assumption 5). -/
def byteDflt (_ : Nat) : Byte := 0

/-- An unlisted byte of the device memory map reads 0, but in OTP root slot 0 and debug slot 0 hold Kroveri's provisioning keys (R509),
whose hashes the spec does not give. (Assumption 3, DESIGN CHOICE.) -/
def memDflt (a : Nat) : Byte :=
  if (0x3F00400 ≤ a ∧ a < 0x3F00420) ∨ (0x3F00480 ≤ a ∧ a < 0x3F004A0) then 0x5A else 0

/-- An unlisted byte of the flash reads erased (assumption 6). -/
def flashDflt (_ : Nat) : Byte := 0xFF

/-- The number with its bits `hi:lo` replaced. -/
def insertBits (old hi lo v : Nat) : Nat :=
  old % 2 ^ lo + v % 2 ^ (hi + 1 - lo) * 2 ^ lo + old / 2 ^ (hi + 1) * 2 ^ (hi + 1)

namespace State

/-- The word held at a key of the register file. -/
def word (s : State) (off : Nat) : Word := Sparse.get regDflt s.regs off

/-- The register file with one word replaced. -/
def setWord (s : State) (off : Nat) (w : Word) : State := { s with regs := Sparse.put regDflt s.regs off w }

/-- The value of a register field. -/
def fld (s : State) (f : Fld) : Nat := bitsOf (s.word f.off).toNat f.hi f.lo

/-- The register file with one field replaced. -/
def setFld (s : State) (f : Fld) (v : Nat) : State :=
  s.setWord f.off (BitVec.ofNat 32 (insertBits (s.word f.off).toNat f.hi f.lo v))

/-- Whether a one-bit field is set. -/
def bit (s : State) (f : Fld) : Bool := s.fld f == 1

/-- A one-bit field set to a truth value. -/
def setBit (s : State) (f : Fld) (b : Bool) : State := s.setFld f (if b then 1 else 0)

/-- Bit `i` of a mask register. -/
def maskBit (s : State) (off i : Nat) : Bool := (s.word off).getLsbD i

/-- A mask register with bit `i` set to a truth value. -/
def setMaskBit (s : State) (off i : Nat) (b : Bool) : State := s.setBit ⟨off, i, i⟩ b

/-- A byte of the device memory map (R426). (Assumption 3, DESIGN CHOICE.) -/
def memByte (s : State) (a : Nat) : Byte := Sparse.get memDflt s.mem a

/-- An item of OTP whose place the spec gives by its region only (R496): items below 16 lie in the factory identity, the others
among the bedrock values. A region in which nothing is programmed gives 0. (Assumption 172, DEDUCED.) -/
def otpItem (k : Nat) (s : State) : Nat :=
  if s.mem.any (fun c => decide (0x3F00000 ≤ c.1) && decide (c.1 < 0x3F00400)) then
    leNat (Sparse.bytes memDflt s.mem
      (if k < 16 then 0x3F00000 + Config.otpPlace k % 0xFD else 0x3F0010C + Config.otpPlace k % 0x2F1) 4)
  else 0

/-- The device memory map with one byte written. -/
def setMemByte (s : State) (a : Nat) (v : Byte) : State := { s with mem := Sparse.put memDflt s.mem a v }

/-- `n` bytes of the device memory map. -/
def memBytes (s : State) (a n : Nat) : List Byte := Sparse.bytes memDflt s.mem a n

/-- The device memory map with a block of bytes written. -/
def setMemBytes (s : State) (a : Nat) (bs : List Byte) : State := { s with mem := Sparse.putBytes memDflt s.mem a bs }

/-- A byte of private RAM or a mailbox, at its BAR 0 offset. -/
def ramByte (s : State) (a : Nat) : Byte := Sparse.get byteDflt s.ram a

/-- Private RAM and mailboxes with one byte written. -/
def setRamByte (s : State) (a : Nat) (v : Byte) : State := { s with ram := Sparse.put byteDflt s.ram a v }

/-- Host memory with a block of bytes written by the device. -/
def setHostBytes (s : State) (a : Nat) (bs : List Byte) : State :=
  { s with hostMem := Sparse.putBytes byteDflt s.hostMem a bs }

/-- `n` bytes of the flash. (Assumption 6, DEDUCED.) -/
def flashBytes (s : State) (a n : Nat) : List Byte := Sparse.bytes flashDflt s.flash a n

/-- The flash with a block of bytes written. -/
def setFlashBytes (s : State) (a : Nat) (bs : List Byte) : State :=
  { s with flash := Sparse.putBytes flashDflt s.flash a bs }

/-- The device emits something. (Assumption 11, DESIGN CHOICE.) -/
def emit (s : State) (o : Output) : State := { s with out := s.out ++ [o] }

/-- The next free value and the state that has drawn it (assumption 10). -/
def draw (s : State) : Nat × State := (Config.freeValue s.free, { s with free := s.free + 1 })

/-- A sequencer's state; 10 is SQM. -/
def seq (s : State) (n : Nat) : Seq := Sparse.get Seq.dflt s.seqs n

/-- A sequencer's state replaced. -/
def setSeq (s : State) (n : Nat) (q : Seq) : State := { s with seqs := Sparse.put Seq.dflt s.seqs n q }

end State

/-! The status codes of R25. -/
namespace ST
abbrev ok : Nat := 0x00
abbrev empty : Nat := 0x01
abbrev format : Nat := 0x02
abbrev version : Nat := 0x03
abbrev late : Nat := 0x04
abbrev duty : Nat := 0x05
abbrev deadline : Nat := 0x06
abbrev nosig : Nat := 0x07
abbrev weak : Nat := 0x08
abbrev abort : Nat := 0x09
abbrev charter : Nat := 0x0A
abbrev auth : Nat := 0x0B
abbrev busy : Nat := 0x0C
end ST

/-! Events and MSI-X (R440 to R442). -/

/-- The MSI-X message of a vector is sent, held in the Pending Bit Array while the vector or the function is masked, or
not made at all while MSI-X is disabled or the function is in D3hot (R441). -/
def msiSend (s : State) (v : Nat) : State :=
  if !s.host.msixEn || s.host.d3hot then s
  else if s.host.fnMask || s.bit (F.MSIX_CTL_MASK v) then s.setMaskBit (R.MSIX_PBA (v / 32)) (v % 32) true
  else s.emit (.msix v)

/-- The tick of an event's last occurrence (R442). (Assumption 50, DEDUCED.) -/
def evNote (n : Nat) (s : State) : State := { s with evAt := Sparse.put (fun _ => 0) s.evAt n (s.tick + 1) }

/-- An occurrence of an event sets its host and its SQM pending bit and, when the host bit went from 0 to 1 and the
route says so, sends the message of its vector (R440). Its tick is kept for R442. -/
def raise (n : Nat) (s : State) : State :=
  let off := R.EV_PEND (n / 32)
  let was := s.maskBit (copyOff .host off) (n % 32)
  let s1 := evNote n ((s.setMaskBit (copyOff .host off) (n % 32) true).setMaskBit (copyOff .sqm off) (n % 32) true)
  if !was && s1.bit (F.EV_ROUTE_EN_MSI n) then msiSend s1 (s1.fld (F.EV_ROUTE_VECTOR n)) else s1

/-- A flag bit is set; its event is raised when the bit goes from 0 to 1. -/
def flagEvent (f : Fld) (n : Nat) (s : State) : State :=
  if s.bit f then s else raise n (s.setFld f 1)

/-! The timebase (R30 to R33). Its unit is 2^-44 of an FS tick. -/

/-- Units in an FS tick. -/
abbrev tickUnits : Nat := 2 ^ 44

/-- Units in a timebase second: 120,000,000 ticks (R30). -/
abbrev secUnits : Nat := 120000000 * 2 ^ 44

/-- Units in 2^-32 s. -/
abbrev fracUnits : Nat := 120000000 * 2 ^ 12

/-- Units in a microsecond: 120 ticks. -/
abbrev usUnits : Nat := 120 * 2 ^ 44

/-- Units in a full turn of the timebase: 2^48 seconds (R32). -/
abbrev wrapUnits : Nat := 2 ^ 48 * secUnits

/-- The timebase in units. -/
def State.nowU (s : State) : Nat := s.tb.sec * secUnits + s.tb.phase

/-- The SPT80 fraction of the timebase (R32). -/
def State.frac (s : State) : Nat := s.tb.phase / fracUnits

/-- The timebase as SPT80: 2^-32 s counted since the epoch (R15). -/
def State.now80 (s : State) : Nat := s.tb.sec * 2 ^ 32 + s.frac

/-- The timebase as SPT64 (R16). -/
def State.now64 (s : State) : Nat := s.now80 % 2 ^ 64

/-- The timebase set to a value in units, modulo 2^48 seconds. -/
def State.setNowU (s : State) (u : Nat) : State :=
  { s with tb := { s.tb with sec := u / secUnits % 2 ^ 48, phase := u % secUnits } }

/-- What one FS tick adds to the timebase (R30, R31). (Assumption 24, DEDUCED.) -/
def State.tickStep (s : State) : Nat := (tickUnits + toSigned 32 (s.word R.TB_RATE).toNat : Int).toNat

/-- An SPT64 value widened to SPT80: the seconds that match its low word within 2^31 s of the timebase (R17). -/
def State.widen (s : State) (t : Nat) : Nat :=
  let sec := ((s.tb.sec : Int) + toSigned 32 ((t / 2 ^ 32 + (2 ^ 32 - s.tb.sec % 2 ^ 32)) % 2 ^ 32)) % (2 ^ 48 : Int)
  sec.toNat * 2 ^ 32 + t % 2 ^ 32

/-- REFIN is lost (R314): the flag that TB_STATUS.REF_LOST mirrors. -/
def State.refLost (s : State) : Bool := s.bit F.CK_STATUS_REF_LOST

/-- The current FCORE time is coarse: the core domains run from the holding oscillator (R33). (Assumption 25, DEDUCED.) -/
def State.coarse (s : State) : Bool := s.bit F.CK_STATUS_CORE_HOLD

/-- A value placed in a list before the first entry of greater key. -/
def placeBy {α : Type} (key : α → Nat) (a : α) : List α → List α
  | [] => [a]
  | b :: bs => if key a < key b then a :: b :: bs else b :: placeBy key a bs

/-- A list in rising order of a key, equal keys in their old order. -/
def orderBy {α : Type} (key : α → Nat) (l : List α) : List α := l.foldl (fun acc a => placeBy key a acc) []

/-- What a ring published last: its epoch (SPT64) and records; none before its first PUBLISH. -/
def publishedOf (n : Nat) (s : State) : Nat × List (List Byte) := Sparse.get (fun _ => (2 ^ 64, [])) s.published n

end Sys2Proof.Machine
end

