-- ==== Sys2Proof/Machine/Access.lean ====
section
/-! DEFINITION. Who may reach what: the rights of an initiator, the protection unit (R513 to R516), the access codes of register
fields (R5, R583), and the gate every register write of a command passes. -/
namespace Sys2Proof.Machine

/-- The lifecycle state: the highest bit of the lifecycle word in OTP, 0 BLANK to 4 VOID (R517). -/
def lcState (s : State) : Nat :=
  let w := (s.memByte 0x3F00500).toNat
  if w.testBit 4 then 4 else if w.testBit 3 then 3 else if w.testBit 1 then 2 else if w.testBit 0 then 1 else 0

/-- The debug level: 0 OFF, 1 OBSERVE, 2 FULL (R525). (Assumption 49, DEDUCED.) -/
def dbgLevel (s : State) : Nat :=
  match s.dbg with
  | some d => d.level
  | none => 0

/-- Halting by BRK is permitted: level FULL, and the lifecycle state allows it (R525, R527). (Assumption 49, DEDUCED.) -/
def haltPermitted (s : State) : Bool := dbgLevel s == 2 && lcState s != 2 && lcState s != 4

/-- The privilege of a sequencer reader: 0 Ring, 1 Supervisor, 2 Vault; host and debug port 1 (R365). -/
def readerPriv (r : Reader) (s : State) : Nat :=
  match r with
  | .sqm => (s.seq 10).mode.toNat % 4
  | .sq n => (s.seq n.val).mode.toNat % 4
  | _ => 1

/-- Whether an initiator's writes carry Vault rights: SQM in Vault mode, or the debug port at FULL in BLANK (R5, R525). -/
def vaultRights (r : Reader) (s : State) : Bool :=
  match r with
  | .sqm => readerPriv .sqm s == 2
  | .debug => dbgLevel s == 2 && lcState s == 0
  | _ => false

/-- The initiator code of SEC_PROT_STAT.INIT. -/
def initCode (r : Reader) : Nat :=
  match r with
  | .debug => 12
  | .host => 11
  | .sqm => 10
  | .sq n => n.val

/-- The protection unit's bit number for an initiator's reads; its writes have the next one (R514). -/
def rightsBit (r : Reader) (s : State) : Nat :=
  match r with
  | .debug => 6
  | .host => 4
  | _ => if readerPriv r s = 0 then 0 else 2

/-- Whether an entry matches an access (R514). -/
def PuEntry.hits (e : PuEntry) (r : Reader) (space addr : Nat) : Bool :=
  e.en && e.space == space && decide (e.base ≤ addr / 256) && decide (addr / 256 ≤ e.limit) &&
    (match r with
     | .sqm => e.sqmask.testBit 10
     | .sq n => e.sqmask.testBit n.val
     | _ => true)

/-- A protection unit entry by number. -/
def puEntry (s : State) (n : Nat) : PuEntry := Sparse.get (fun _ => {}) s.pu n

/-- The highest-numbered matching entry among the first `n`. -/
def puFind (r : Reader) (space addr : Nat) (s : State) : Nat → Option PuEntry
  | 0 => none
  | n + 1 => if (puEntry s n).hits r space addr then some (puEntry s n) else puFind r space addr s n

/-- A sequencer's local I/O passes unchecked (R513). -/
def localIo (r : Reader) (space addr : Nat) : Bool :=
  match r with
  | .sqm => space == 0 && addr / 0x1000 == 0x580
  | .sq n => space == 0 && addr / 0x1000 == 0x100 + 0x10 * n.val
  | _ => false

/-- Whether the protection unit allows an access that it checks; space 0 is BAR 0, 1 the device map (R513, R514, R525). -/
def unitAllows (r : Reader) (space addr : Nat) (write : Bool) (s : State) : Bool :=
  if r == .sqm && readerPriv r s == 2 then true
  else if r == .debug && (dbgLevel s == 0 || (write && dbgLevel s == 1)) then false
  else if r == .debug && write && vaultRights r s then true
  else
    match puFind r space addr s 32 with
    | some e => e.rights.testBit (rightsBit r s + (if write then 1 else 0))
    | none => if r == .debug || r == .host then true else readerPriv r s != 0

/-- Whether an access of a register command goes through: a sequencer's own page is its local I/O, which passes unchecked, and not
the bank window (R368, R513). (Assumption 20, DESIGN CHOICE.) -/
def protAllows (r : Reader) (space addr : Nat) (write : Bool) (s : State) : Bool :=
  localIo r space addr || unitAllows r space addr write s

/-- A denial raises EV_124; the first one after PROT_STAT.VALID was cleared is recorded (R516). -/
def protRecordAs (init space addr : Nat) (write : Bool) (s : State) : State :=
  raise 124 (
    if s.bit F.SEC_PROT_STAT_VALID then s
    else ((((s.setFld F.SEC_PROT_STAT_VALID 1).setFld F.SEC_PROT_STAT_WRITE (if write then 1 else 0)).setFld
      F.SEC_PROT_STAT_SPACE space).setFld F.SEC_PROT_STAT_INIT init).setFld F.SEC_PROT_ADDR_ADDR addr)

/-- A denial of a reader's access. -/
def protRecord (r : Reader) (space addr : Nat) (write : Bool) (s : State) : State :=
  protRecordAs (initCode r) space addr write s

/-- The device is released in recovery (R501). -/
def inRecovery (s : State) : Bool := s.bit F.SEC_BOOT_STAT_RECOVERY

/-- Whether a BAR 0 offset answers: in recovery only DEV, HOST, EV, SEC and LC registers, in VOID only DEV, LC_STATE and
SEC_BOOT_STAT (R501, R520); nothing does in HIBERNATE, nor for the host while its link is down (R536, R538). (Assumption 7, DESIGN CHOICE.) -/
def bar0Answers (r : Reader) (off : Nat) (s : State) : Bool :=
  let p := off / 0x10000
  if s.pwr.hib || (r == .host && s.pwr.pcieOff) then false
  else if lcState s = 4 then decide (off < 0x8000) || off == R.LC_STATE || off == R.SEC_BOOT_STAT
  else if inRecovery s then decide (off < 0x8000) || p == 0x40 || p == 0x60 || p == 0x70
  else true

/-- The gate of an access to BAR 0 by a command: a denied one is recorded and changes nothing else (R424, R516), one to an
offset that does not answer changes nothing (R501). (Assumption 7, DESIGN CHOICE; assumption 45, DEDUCED.) -/
def gate (r : Reader) (off : Nat) (write : Bool) (f : State → State) (s : State) : State :=
  if !bar0Answers r off s then s
  else if !protAllows r 0 off write s then protRecord r 0 off write s
  else f s

/-- Whether a field takes a written value (its table's "writes ignored"). -/
def Legal.ok (l : Legal) (w v : Nat) : Bool :=
  match l with
  | .any => true
  | .ne n => v != n
  | .le n => decide (v ≤ n)
  | .range a b => decide (a ≤ v) && decide (v ≤ b)
  | .absLe n => decide ((toSigned w v).natAbs ≤ n)
  | .evenGe2 => v % 2 == 0 && decide (2 ≤ v)

/-- A field's value after a write of `new` over `old` (R5); `word` is the register's word before the write. -/
def fieldAfter (vault : Bool) (word old new : Nat) (f : FieldSpec) : Nat :=
  let w := f.hi + 1 - f.lo
  match f.acc with
  | .rw => if f.legal.ok w new then new else old
  | .ro => old
  | .wo => old
  | .w1c => old &&& (2 ^ w - 1 - new)
  | .w1s => old ||| new
  | .rwl b => if word.testBit b then old else if f.legal.ok w new then new else old
  | .vlt => if vault && f.legal.ok w new then new else old
  | .vltWo => old

/-- A register's word after a write, field by field; reserved bits stay 0 (R5, R8). -/
def wordAfter (vault : Bool) (word v : Nat) (fl : List FieldSpec) : Nat :=
  fl.foldl (fun acc f => insertBits acc f.hi f.lo
    (fieldAfter vault word (bitsOf word f.hi f.lo) (bitsOf v f.hi f.lo) f)) word

/-- Whether a write without Vault rights would change a VLT field or writes 1 to a write-only VLT field (R583). -/
def vltOffends (word v : Nat) (fl : List FieldSpec) : Bool :=
  fl.any (fun f =>
    match f.acc with
    | .vlt => bitsOf v f.hi f.lo != bitsOf word f.hi f.lo
    | .vltWo => bitsOf v f.hi f.lo != 0
    | _ => false)

/-- The file key a reader's write of an offset goes to: its own copy of a per-reader register, the shared word else. -/
def regKey (r : Reader) (off : Nat) : Nat :=
  match regAt off with
  | some spec => if spec.perReader then copyOff r off else off
  | none => off

/-- A write under the fields' access codes, with the protection event of R583. -/
def plainWrite (r : Reader) (off : Nat) (v : Word) (s : State) : State :=
  match regAt off with
  | none => s
  | some spec =>
    let key := if spec.perReader then copyOff r off else off
    let old := (s.word key).toNat
    let vault := vaultRights r s
    let s1 := if !vault && vltOffends old v.toNat spec.fields then protRecord r 2 off true s else s
    s1.setWord key (BitVec.ofNat 32 (wordAfter vault old v.toNat spec.fields))

end Sys2Proof.Machine
end

