-- ==== Sys2Proof/Machine/LinkBase.lean ====
section
/-! DEFINITION. A Tightrope port's state, and the mirrors that wait on the ports (R450, R460). -/
namespace Sys2Proof.Machine

/-- A port outside its registers. -/
def link (s : State) (p : Nat) : Link := Sparse.get (fun _ => {}) s.links p

/-- A port outside its registers, replaced. -/
def setLink (s : State) (p : Nat) (l : Link) : State := { s with links := Sparse.put (fun _ => {}) s.links p l }

/-- A port's STATE: 0 OFF, 1 DOWN, 2 LOCK, 3 HELLO, 4 UP (R450). -/
def linkState (p : Nat) (s : State) : Nat := s.fld (F.TRP_PORT_STAT_STATE p)

/-- A port is UP. -/
def linkUp (p : Nat) (s : State) : Bool := linkState p s == 4

/-- The ports that send mirrors of a kind (R460): UP with MIR_OUT, not T1; on T0 SKY and IONO only with MIR_SKY. -/
def mirrorPorts (kind : Nat) (s : State) : List Nat :=
  [0, 2, 3].filter (fun p => linkUp p s && s.bit (F.TRP_PORT_CFG_MIR_OUT p) &&
    (p != 0 || kind == 3 || kind == 4 || s.bit (F.TRP_PORT_CFG_MIR_SKY p)))

/-- A mirror of a kind and index is due on every port that sends it (R460); one already waiting waits once. -/
def mirrorNote (kind idx : Nat) (s : State) : State :=
  (mirrorPorts kind s).foldl (fun s p =>
    let l := link s p
    if l.mirrors.contains (kind, idx) then s else setLink s p { l with mirrors := l.mirrors ++ [(kind, idx)] }) s

end Sys2Proof.Machine
end

