-- ==== Sys2Proof/Machine/Sha256.lean ====
section
/-! DEFINITION. The hash functions the spec names: SHA-256 (FIPS 180-4) and HMAC-SHA-256 (R412, R507), written so that they
evaluate. The eight working variables are two histories of four words: a to d the last four of one, e to h of the other. -/
namespace Sys2Proof.Machine

/-- The 64 round constants of SHA-256 in a row, the first one on top. -/
def shaRow : Nat := 0x428a2f9871374491b5c0fbcfe9b5dba53956c25b59f111f1923f82a4ab1c5ed5d807aa9812835b01243185be550c7dc372be5d7480deb1fe9bdc06a7c19bf174e49b69c1efbe47860fc19dc6240ca1cc2de92c6f4a7484aa5cb0a9dc76f988da983e5152a831c66db00327c8bf597fc7c6e00bf3d5a7914706ca63511429296727b70a852e1b21384d2c6dfc53380d13650a7354766a0abb81c2c92e92722c85a2bfe8a1a81a664bc24b8b70c76c51a3d192e819d6990624f40e3585106aa07019a4c1161e376c082748774c34b0bcb5391c0cb34ed8aa4a5b9cca4f682e6ff3748f82ee78a5636f84c878148cc7020890befffaa4506cebbef9a3f7c67178f2

/-- The constant of round `t`. -/
def shaConst (t : Nat) : Word := BitVec.ofNat 32 (shaRow >>> (2016 - 32 * t))

/-- The two histories and the sixteen latest words of the message schedule, each newest first. -/
structure ShaState where
  av : List Word
  ev : List Word
  win : List Word := []

/-- The histories of a fresh hash: the initial value, word by word. -/
def shaInit : List Word × List Word :=
  ([0x6a09e667, 0xbb67ae85, 0x3c6ef372, 0xa54ff53a],
   [0x510e527f, 0x9b05688c, 0x1f83d9ab, 0x5be0cd19])

/-- Three rotations of a word combined. -/
def rotMix (x : Word) (i j k : Nat) : Word := [i, j, k].foldl (fun m r => m ^^^ x.rotateRight r) 0

/-- Two rotations and a shift of a word combined. -/
def shiftMix (x : Word) (i j k : Nat) : Word := [i, j].foldl (fun m r => m ^^^ x.rotateRight r) (x >>> k)

/-- Bit by bit, `y` where `x` is set and `z` elsewhere. -/
def chooseBits (x y z : Word) : Word := z ^^^ (x &&& (y ^^^ z))

/-- Bit by bit, the value that at least two of three words have. -/
def majorBits (x y z : Word) : Word := (x &&& y) ||| (z &&& (x ||| y))

/-- The schedule's next word from the sixteen before it. -/
def ShaState.feed (s : ShaState) : Word :=
  let back (n : Nat) := s.win.getD (n - 1) 0
  back 16 + shiftMix (back 15) 7 18 3 + (back 7 + shiftMix (back 2) 17 19 10)

/-- Round `t` with its word of the schedule. -/
def ShaState.round (s : ShaState) (t : Nat) (w : Word) : ShaState :=
  let a (n : Nat) := s.av.getD n 0
  let e (n : Nat) := s.ev.getD n 0
  let x := e 3 + rotMix (e 0) 6 11 25 + (shaConst t + w) + chooseBits (e 0) (e 1) (e 2)
  let y := majorBits (a 0) (a 1) (a 2) + rotMix (a 0) 2 13 22
  { av := (y + x) :: s.av.take 3, ev := (a 3 + x) :: s.ev.take 3, win := w :: s.win.take 15 }

/-- The word whose bytes, most significant first, are given. -/
def beWord (bs : List Byte) : Word := bs.foldl (fun w b => (w <<< 8) ||| b.setWidth 32) 0

/-- The bytes of a word, most significant first. -/
def beBytes (w : Word) : List Byte := (leBytes 4 w.toNat).reverse

/-- The hash value after one more block of 64 bytes. -/
def shaBlock (h : List Word × List Word) (block : List Byte) : List Word × List Word :=
  let s := (List.range 64).foldl (fun (s : ShaState) t =>
    s.round t (if t < 16 then beWord ((block.drop (4 * t)).take 4) else s.feed)) { av := h.1, ev := h.2 }
  (h.1.zipWith (· + ·) s.av, h.2.zipWith (· + ·) s.ev)

/-- Blocks SHA-256 processes for a message of a length. -/
def shaBlockCount (len : Nat) : Nat := (len + 72) / 64

/-- The padded message: 0x80, zeros, and the length in bits, most significant byte first. -/
def shaPadded (m : List Byte) : List Byte :=
  let n := 64 * shaBlockCount m.length
  m ++ 0x80 :: (List.replicate (n - m.length - 9) 0 ++ (leBytes 8 (8 * m.length)).reverse)

/-- SHA-256 of a message: 32 bytes. -/
def sha256 (m : List Byte) : List Byte :=
  let p := shaPadded m
  let h := (List.range (shaBlockCount m.length)).foldl (fun h k => shaBlock h ((p.drop (64 * k)).take 64)) shaInit
  (h.1 ++ h.2).flatMap beBytes

/-- HMAC-SHA-256 with a key of at most 64 bytes. -/
def hmac256 (key m : List Byte) : List Byte :=
  let k := key ++ List.replicate (64 - key.length) 0
  sha256 (k.map (· ^^^ 0x5C) ++ sha256 (k.map (· ^^^ 0x36) ++ m))

end Sys2Proof.Machine
end

