-- ==== Sys2Proof/Machine/HostPort.lean ====
section
/-! DEFINITION. The host port (chapter 16): rings and streams, notifiers, negotiation, event clearing and MSI-X. Ring numbers
0 to 31 are job rings, 32 to 63 result rings, 64 to 66 the streams. -/
namespace Sys2Proof.Machine

/-- Entries of a ring; a disabled one has none that count. -/
def ringSize (n : Nat) (s : State) : Nat := 2 ^ s.fld (F.HOST_RING_CFG_SIZE_E n)

/-- A ring is enabled (R428). -/
def ringOn (n : Nat) (s : State) : Bool := s.fld (F.HOST_RING_CFG_SIZE_E n) != 0

/-- Entries held: TAIL − HEAD modulo 2^32 (R429). -/
def ringLevel (n : Nat) (s : State) : Nat :=
  (s.word (R.HOST_RING_TAIL n) - s.word (R.HOST_RING_HEAD n)).toNat

/-- A ring's counts are set, and LEVEL follows. -/
def setCounts (n : Nat) (head tail : Word) (s : State) : State :=
  ((s.setWord (R.HOST_RING_HEAD n) head).setWord (R.HOST_RING_TAIL n) tail).setFld (F.HOST_RING_STAT_LEVEL n)
    (tail - head).toNat

/-- Host bus address of count `c`'s entry of a ring with entries of `size` bytes (R429). -/
def entryAddr (n size : Nat) (c : Word) (s : State) : Nat :=
  s.fld (F.HOST_RING_BASE_HI_BASE_HI n) * 2 ^ 32 + s.fld (F.HOST_RING_BASE_LO_BASE n) * 2 ^ 12 +
    size * (c.toNat % ringSize n s)

/-- A count write is refused: REFUSED, and DOORBELL in HOST_ERR (R430). -/
def countRefused (n : Nat) (s : State) : State :=
  flagEvent F.HOST_ERR_DOORBELL 7 (s.setFld (F.HOST_RING_STAT_REFUSED n) 1)

/-- A ring's notifier. -/
def notifier (s : State) (n : Nat) : Notifier := Sparse.get (fun _ => {}) s.notif n

/-- A ring's notifier replaced. -/
def setNotifier (s : State) (n : Nat) (x : Notifier) : State := { s with notif := Sparse.put (fun _ => {}) s.notif n x }

/-- The pending bit of a result ring or a stream. -/
def pendFld (n : Nat) : Fld :=
  if n < 64 then ⟨R.HOST_RES_PEND, n - 32, n - 32⟩ else ⟨R.HOST_STREAM_PEND, n - 64, n - 64⟩

/-- The notifier sets the pending bit: its count and age restart and the group's event is raised (R434, R436). -/
def notifySet (n : Nat) (s : State) : State :=
  flagEvent (pendFld n) (if n < 64 then (n - 32) / 8 else 5) (setNotifier s n {})

/-- Units have been written to a result ring or stream (R434). -/
def notifyUnits (n units : Nat) (s : State) : State :=
  if s.bit (pendFld n) || units == 0 then s
  else
    let x := notifier s n
    let s := setNotifier s n { count := x.count + units, oldest := some (x.oldest.getD s.tick) }
    let c := s.fld (F.HOST_RING_CFG_COAL_CNT n)
    if c ≠ 0 ∧ c ≤ (notifier s n).count then notifySet n s else s

/-- A block of up to 64 bytes, padded with zeros to a unit. -/
def padUnit (bs : List Byte) : List Byte := bs.take 64 ++ List.replicate (64 - bs.length) 0

/-- The 64-byte units of a record; the last is padded. -/
def recordUnits : Nat → List Byte → List (List Byte)
  | 0, _ => []
  | k + 1, bs => padUnit bs :: recordUnits k (bs.drop 64)

/-- Units written at consecutive counts of a ring. -/
def putUnits (n : Nat) : List (List Byte) → Word → State → State
  | [], _, s => s
  | u :: us, c, s => putUnits n us (c + 1) (s.setHostBytes (entryAddr n 64 c s) u)

/-- A record is written to a result ring or stream with room: its units, then TAIL, then the notifier (R433). -/
def ringWrite (n : Nat) (bs : List Byte) (s : State) : State :=
  let us := recordUnits ((bs.length + 63) / 64) bs
  let t := s.word (R.HOST_RING_TAIL n)
  let s := putUnits n us t s
  notifyUnits n us.length (setCounts n (s.word (R.HOST_RING_HEAD n)) (t + BitVec.ofNat 32 us.length) s)

/-- Whether records of so many units fit in a ring now. (Assumption 43, DEDUCED.) -/
def ringRoom (n units : Nat) (s : State) : Bool := ringOn n s && decide (ringLevel n s + units ≤ ringSize n s)

/-- Units that a record occupies (R433). -/
def unitsOf (bs : List Byte) : Nat := (bs.length + 63) / 64

/-- A batch of records goes to a stream whole or not at all (R436): dropped when it does not fit or in D3hot, discarded
when the stream is disabled. (Assumption 43, DEDUCED; assumption 44, DESIGN CHOICE.) -/
def streamPut (q : Nat) (batch : List (List Byte)) (s : State) : State :=
  let n := 64 + q
  if !ringOn n s || batch.isEmpty then s
  else if ringRoom n ((batch.map unitsOf).sum) s && !s.host.d3hot then batch.foldl (fun s b => ringWrite n b s) s
  else
    flagEvent F.HOST_ERR_STREAM_DROP 7 (s.setFld (F.HOST_RING_STAT_DROPS n)
      (satNat 0x1FFF (s.fld (F.HOST_RING_STAT_DROPS n) + batch.length)))

/-- See assumption 44, DESIGN CHOICE. -/
def execStreamRecord (q : Fin 3) (batch : List (List Byte)) (s : State) : Host.Outcome State Fault Refusal :=
  .next (streamPut q batch s)

/-- A ring's oldest unnotified unit has reached COAL_US µs, of 120 FS ticks each (R30, R434). -/
def coalDue (r : Nat) (s : State) : Bool :=
  match (notifier s r).oldest with
  | some t => s.fld (F.HOST_RING_CFG_COAL_US r) != 0 && decide (t + 120 * s.fld (F.HOST_RING_CFG_COAL_US r) ≤ s.tick) &&
      !s.bit (pendFld r)
  | none => false

/-- The oldest unnotified unit reaches COAL_US (R434). -/
def execCoalTimeout (n : Fin 35) (s : State) : Host.Outcome State Fault Refusal :=
  .next (if coalDue (32 + n.val) s then notifySet (32 + n.val) s else s)

/-! Ring configuration and counts (R428 to R432). -/

/-- Whether a ring accepts a SIZE_E: 0 always, 1 to 16 a job ring, 5 to 16 the others (R428). -/
def sizeOk (n e : Nat) : Bool := e == 0 || (decide (e ≤ 16) && decide ((if n < 32 then 1 else 5) ≤ e))

/-- A ring is enabled or disabled by a change of SIZE_E: enabling zeroes its counts (R428). (Assumption 41, DEDUCED.) -/
def setSize (n e : Nat) (s : State) : State :=
  let s' := s.setFld (F.HOST_RING_CFG_SIZE_E n) e
  if ringOn n s then s' else if e = 0 then s' else setNotifier (setCounts n 0 0 s') n {}

/-- A write of CFG: moderation or space fields as the ring has them, and SIZE_E by its rules (R428). (Assumption 41, DEDUCED.) -/
def opRingCfg (n : Nat) (v : Word) (s : State) : State :=
  let e := v.toNat % 32
  let s := if n < 32 then s.setFld (F.HOST_RING_CFG_SPACE_IEN n) (v.toNat / 2 ^ 11)
    else (s.setFld (F.HOST_RING_CFG_COAL_CNT n) (v.toNat / 2 ^ 24)).setFld (F.HOST_RING_CFG_COAL_US n) (v.toNat / 2 ^ 12)
  let old := s.fld (F.HOST_RING_CFG_SIZE_E n)
  if e = old then s
  else if !sizeOk n e || (old != 0 && e != 0) then flagEvent F.HOST_ERR_RING_CFG 7 s
  else setSize n e s

/-- A write of a ring's configuration word; BASE only while the ring is disabled (R428). -/
def opRingCfgWrite (who : Reader) (n : Nat) (reg : RingWord) (v : Word) (s : State) : State :=
  match reg with
  | .baseLo => if ringOn n s then s else plainWrite who (R.HOST_RING_BASE_LO n) v s
  | .baseHi => if ringOn n s then s else plainWrite who (R.HOST_RING_BASE_HI n) v s
  | .cfg => opRingCfg n v s

/-- BAR 0 offset of a ring's configuration word. -/
def ringWordOff (n : Nat) (reg : RingWord) : Nat :=
  match reg with
  | .baseLo => R.HOST_RING_BASE_LO n
  | .baseHi => R.HOST_RING_BASE_HI n
  | .cfg => R.HOST_RING_CFG n

def execRingCfgWrite (who : Reader) (n : Fin 67) (reg : RingWord) (v : Word) (s : State) :
    Host.Outcome State Fault Refusal :=
  .next (gate who (ringWordOff n reg) true (opRingCfgWrite who n reg v) s)

/-- A write of a job ring's TAIL: accepted when the level does not fall and does not pass the size (R430). -/
def opDoorbell (n : Nat) (tail : Word) (s : State) : State :=
  let l := (tail - s.word (R.HOST_RING_HEAD n)).toNat
  if ringOn n s && decide (ringLevel n s ≤ l) && decide (l ≤ ringSize n s)
  then setCounts n (s.word (R.HOST_RING_HEAD n)) tail s else countRefused n s

def execJobDoorbell (who : Reader) (n : Fin 32) (tail : Word) (s : State) : Host.Outcome State Fault Refusal :=
  .next (gate who (R.HOST_RING_TAIL n) true (opDoorbell n tail) s)

/-- A write of a result ring's or stream's HEAD: it must lie between the old HEAD and TAIL (R430). -/
def opHeadWrite (n : Nat) (head : Word) (s : State) : State :=
  let l := (s.word (R.HOST_RING_TAIL n) - head).toNat
  if ringOn n s && decide (l ≤ ringLevel n s) then setCounts n head (s.word (R.HOST_RING_TAIL n)) s
  else countRefused n s

def execResultHeadWrite (who : Reader) (n : Fin 35) (head : Word) (s : State) : Host.Outcome State Fault Refusal :=
  .next (gate who (R.HOST_RING_HEAD (32 + n.val)) true (opHeadWrite (32 + n.val) head) s)

/-- A job ring's HEAD advances by one descriptor taken; SPACE is set when half the ring comes free (R431, R435). (Assumption 42, DEDUCED.) -/
def jobRingAdvance (n : Nat) (s : State) : State :=
  let half := ringSize n s / 2
  let before := ringSize n s - ringLevel n s
  let s := setCounts n (s.word (R.HOST_RING_HEAD n) + 1) (s.word (R.HOST_RING_TAIL n)) s
  let after := ringSize n s - ringLevel n s
  if s.bit (F.HOST_RING_CFG_SPACE_IEN n) && decide (before < half) && decide (half ≤ after)
  then flagEvent ⟨R.HOST_SPACE_PEND, n, n⟩ 4 s else s

/-- A descriptor read fails: the ring halts at the same entry (R432). -/
def execDescDmaFail (n : Fin 32) (s : State) : Host.Outcome State Fault Refusal :=
  .next (if s.car.reading == some n.val then
      flagEvent F.HOST_ERR_DESC_DMA 7 ({ s with car := { s.car with reading := none } }.setFld (F.HOST_RING_STAT_HALTED n) 1) else s)

/-- HALTED is cleared: the ring is served again from the same entry (R432). -/
def execHaltedClear (who : Reader) (n : Fin 32) (s : State) : Host.Outcome State Fault Refusal :=
  .next (gate who (R.HOST_RING_STAT n) true (plainWrite who (R.HOST_RING_STAT n) 0x80000000) s)

/-! Negotiation (R439). -/

/-- A write of HOST_NEG; GO withdraws all grants and selects the highest common major of 1 and 2. -/
def opNegotiate (who : Reader) (v : Word) (s : State) : State :=
  let s := plainWrite who R.HOST_NEG v s
  if !v.getLsbD 31 then s
  else
    let s := s.setWord R.CAR_FEAT_GRANT 0
    let m := if v.getLsbD 2 then 2 else if v.getLsbD 1 then 1 else 0
    let s := (s.setFld F.HOST_NEG_MAJOR m).setBit F.HOST_NEG_NEGOTIATED (m != 0)
    if m = 0 then flagEvent F.HOST_ERR_VERSION 7 (s.setFld F.HOST_NEG_RESULT ST.version)
    else s.setFld F.HOST_NEG_RESULT ST.ok

def execNegotiate (who : Reader) (v : Word) (s : State) : Host.Outcome State Fault Refusal :=
  .next (gate who R.HOST_NEG true (opNegotiate who v) s)

/-- A write of feature grants is ignored while MAJOR is below 2 (R439). -/
def opFeatGrantWrite (who : Reader) (v : Word) (s : State) : State :=
  if s.fld F.HOST_NEG_MAJOR < 2 then s else plainWrite who R.CAR_FEAT_GRANT v s

/-! Events and MSI-X (R440 to R442, R421). -/

/-- A W1C of one pending bit: an occurrence in the same tick leaves it set and notifies again (R442). (Assumption 15, DEDUCED; assumption 50, DEDUCED.) -/
def evClearBit (who : Reader) (n : Nat) (s : State) : State :=
  if Sparse.get (fun _ => 0) s.evAt n = s.tick + 1 then
    if who == .host && s.bit (F.EV_ROUTE_EN_MSI n) then msiSend s (s.fld (F.EV_ROUTE_VECTOR n)) else s
  else s.setMaskBit (copyOff who (R.EV_PEND (n / 32))) (n % 32) false

/-- A W1C of an EV_PEND word: the host clears its copy, SQM its own; the debug port's writes are ignored and SQ0 to SQ9
reach no copy (R440). -/
def opEvPendClear (who : Reader) (k : Nat) (v : Word) (s : State) : State :=
  if who == .host || who == .sqm then
    (List.range 32).foldl (fun s i =>
      if v.getLsbD i && s.maskBit (copyOff who (R.EV_PEND k)) i then evClearBit who (32 * k + i) s else s) s
  else s

def execEvPendClear (who : Reader) (k : Fin 4) (v : Word) (s : State) : Host.Outcome State Fault Refusal :=
  .next (gate who (R.EV_PEND k) true (opEvPendClear who k v) s)

/-- The vectors with a routed host pending bit set, lowest first (R441). -/
def routedVectors (s : State) : List Nat :=
  (List.range 64).filter (fun v => (List.range 128).any (fun n =>
    s.maskBit (copyOff .host (R.EV_PEND (n / 32))) (n % 32) && s.bit (F.EV_ROUTE_EN_MSI n) &&
      s.fld (F.EV_ROUTE_VECTOR n) == v))

/-- One message for each vector with a routed bit set (R441). -/
def msiAll (s : State) : State := (routedVectors s).foldl msiSend s

/-- A vector's held message is sent once neither its own mask nor the function mask nor D3hot holds it (R441). -/
def msiRelease (s : State) (v : Nat) : State :=
  if s.maskBit (R.MSIX_PBA (v / 32)) (v % 32) && !s.host.fnMask && !s.bit (F.MSIX_CTL_MASK v) && s.host.msixEn && !s.host.d3hot
  then msiSend (s.setMaskBit (R.MSIX_PBA (v / 32)) (v % 32) false) v else s

/-- Every held message that may go is sent. -/
def msiReleaseAll (s : State) : State := (List.range 64).foldl msiRelease s

/-- The Pending Bit Array is cleared. -/
def pbaClear (s : State) : State := (s.setWord (R.MSIX_PBA 0) 0).setWord (R.MSIX_PBA 1) 0

/-- The return to D0: a message for each vector with a routed bit set, which stands for one held for it, and the other held
messages that may go (R421, R441). -/
def d0Return (s : State) : State :=
  let s := { s with host := { s.host with d3hot := false } }
  (List.range 64).foldl (fun s v =>
    if (routedVectors s).contains v then msiSend (s.setMaskBit (R.MSIX_PBA (v / 32)) (v % 32) false) v else msiRelease s v) s

/-- MSI-X is enabled, disabled or masked as a function, or the function returns to D0 (R421, R441); before release the request completes
with Configuration Request Retry Status (R444). (Assumption 7, DESIGN CHOICE.) -/
def execMsixEnable (w : MsixWrite) (s : State) : Host.Outcome State Fault Refusal :=
  .next (
    if !s.bit F.DEV_STATUS_READY then s
    else
    match w with
    | .d0 => if s.host.d3hot then d0Return s else s
    | .control en fm =>
      let was := s.host.msixEn
      let s := { s with host := { s.host with msixEn := en, fnMask := fm } }
      if !en then pbaClear s else if !was then msiAll s else msiReleaseAll s)

/-- A write of a vector's control word: clearing MASK sends the message held (R441). -/
def opMsixCtlWrite (who : Reader) (n : Nat) (v : Word) (s : State) : State :=
  msiRelease (plainWrite who (R.MSIX_CTL n) v s) n

/-- The host clears a vector's mask, or the function mask (R441). -/
def execMsixUnmask (v : Option (Fin 64)) (s : State) : Host.Outcome State Fault Refusal :=
  .next (
    match v with
    | some v => gate .host (R.MSIX_CTL v) true (opMsixCtlWrite .host v 0) s
    | none => if s.bit F.DEV_STATUS_READY then msiReleaseAll { s with host := { s.host with fnMask := false } } else s)

/-- Entry to D3hot (R421). (Assumption 7, DESIGN CHOICE.) -/
def execD3hotEntry (s : State) : Host.Outcome State Fault Refusal :=
  .next (if s.bit F.DEV_STATUS_READY then { s with host := { s.host with d3hot := true } } else s)

/-- The link retrains; below its previous speed or width it sets HOST_ERR.LINK (R444). -/
def execLinkRetrain (degraded : Bool) (s : State) : Host.Outcome State Fault Refusal :=
  .next (if degraded then flagEvent F.HOST_ERR_LINK 7 s else s)

end Sys2Proof.Machine
end

