-- ==== Sys2Proof/Machine/SeqCtl.lean ====
section
/-! DEFINITION. Starting and stopping sequencers (R395, R396), their latched inputs (R383) and the mailboxes (R369). -/
namespace Sys2Proof.Machine

/-- A sequencer's latched interrupt input is set (R383). -/
def setInput (n i : Nat) (s : State) : State :=
  let q := s.seq n
  s.setSeq n { q with ipend := q.ipend ||| (1#16 <<< i) }

/-- A WAKE_SEQ sets an input from 4 to 11; any other has no effect (R383). -/
def wakeInput (n i : Nat) (s : State) : State := if 4 ≤ i ∧ i ≤ 11 then setInput n i s else s

/-- A sequencer stops at its next instruction boundary (R395, R396). -/
def seqHalt (n : Nat) (s : State) : State :=
  (s.setSeq n { s.seq n with run := .halted, dbgHalt := false, rep := none }).setFld (F.SQ_CTRL_RUN n) 0

/-- A sequencer starts with the values of R395; its wide registers, cycle count and vector entry stay. -/
def seqStart (n : Nat) (s : State) : State :=
  let q := s.seq n
  let q := { q with
    pc := BitVec.ofNat 16 (s.fld (F.SQ_START_START n)), mode := 1, sp := 0x7FE0, splim := 0x0100
    a := 0, b := 0, x := 0, y := 0, ct := 0, ctl := 0, imask := 0, bank := 0, aper := 0, rsel := 0
    ipend := 0, tmr := 0, timer := 0, presc := 0, rdBuf := none, wrBuf := none, rep := none, dbgHalt := false
    run := .run }
  (s.setSeq n q).setFld (F.SQ_CTRL_RUN n) 1

/-- A write of SQ_n_CTRL: RUN starts or stops; RUN 0 for SQM is ignored (R395). -/
def opSqCtrlWrite (who : Reader) (n : Nat) (v : Word) (s : State) : State :=
  let was := s.bit (F.SQ_CTRL_RUN n)
  let s := plainWrite who (R.SQ_CTRL n) v s
  let now := s.bit (F.SQ_CTRL_RUN n)
  if now && !was then seqStart n s
  else if !now && was then (if n = 10 then s.setFld (F.SQ_CTRL_RUN n) 1 else seqHalt n s)
  else s

/-- The word of a write of SQ_n_CTRL with RUN and DBG_BRK. -/
def sqCtrlWord (run dbgBrk : Bool) : Word :=
  (if run then 0x80000000 else 0) ||| (if dbgBrk then 0x40000000 else 0)

def execSeqRunStart (who : Reader) (n : SeqId) (dbgBrk : Bool) (s : State) : Host.Outcome State Fault Refusal :=
  .next (gate who (R.SQ_CTRL n) true (opSqCtrlWrite who n (sqCtrlWord true dbgBrk)) s)

def execSeqRunStop (who : Reader) (n : SeqId) (dbgBrk : Bool) (s : State) : Host.Outcome State Fault Refusal :=
  .next (gate who (R.SQ_CTRL n) true (opSqCtrlWrite who n (sqCtrlWord false dbgBrk)) s)

/-- A byte is written to a mailbox; byte 0xFF sets the owner's input 13, or raises EV_102 for the host's (R369). -/
def mailboxPut (m off : Nat) (v : Byte) (s : State) : State :=
  if 12 ≤ m then s
  else
    let s := s.setRamByte (0x581000 + 0x100 * m + off) v
    if off ≠ 0xFF then s else if m = 11 then raise 102 s else setInput m 13 s

/-- A write to byte 0xFF of a mailbox (R369). -/
def execDxMailbox (who : Reader) (box : Fin 16) (v : Byte) (s : State) : Host.Outcome State Fault Refusal :=
  .next (gate who (0x581000 + 0x100 * box.val + 0xFC) true (mailboxPut box 0xFF v) s)

end Sys2Proof.Machine
end

