-- ==== Sys2Proof/Machine/Catalogue.lean ====
section
/-! DEFINITION. The signal catalogue (R126) and the satellite systems (R21). -/
namespace Sys2Proof.Machine

/-- The modulations of the catalogue (R126, R129): TM with its component's slots, odd or even, and CBOC with its sign. -/
inductive Modulation where
  | bpsk | tm (odd : Bool) | boc | cboc (plus : Bool) | tmboc | qmboc | altboc
deriving DecidableEq, Repr

/-- A signal of the catalogue (R126): pilot or data, thousands of chips (or slots) per second, code length, secondary
code length (1 for none), whether its primary and its secondary code come from the store, its partner, its home chain,
the carrier minus the home LO in units of 500 Hz at FDMA channel 0, the carrier in kHz, its modulation, and whether its
interface specification puts it in quadrature (R130). (Assumption 146, PRESUMED.) -/
structure Sig where
  pilot : Bool
  kcps : Nat
  len : Nat
  sec : Nat
  store : Bool
  secStore : Bool
  partner : Option Nat
  chain : Nat
  ofs : Int
  carrier : Nat
  mod : Modulation
  quad : Bool
deriving DecidableEq, Repr

/-- The catalogue by signal code; reserved codes have no signal (R126). -/
def sigOf (code : Nat) : Option Sig :=
  match code with
  | 0x00 => some ⟨false, 1023, 1023, 1, false, false, none, 0, -14160, 1575420, .bpsk, false⟩
  | 0x01 => some ⟨false, 1023, 10230, 1, true, false, some 0x02, 0, -14160, 1575420, .boc, false⟩
  | 0x02 => some ⟨true, 1023, 10230, 1800, true, true, some 0x01, 0, -14160, 1575420, .tmboc, false⟩
  | 0x03 => some ⟨false, 1023, 20460, 1, false, false, some 0x04, 2, -19800, 1227600, .tm false, false⟩
  | 0x04 => some ⟨true, 1023, 1534500, 1, false, false, some 0x03, 2, -19800, 1227600, .tm true, false⟩
  | 0x05 => some ⟨false, 10230, 10230, 10, false, false, some 0x06, 1, -32100, 1176450, .bpsk, false⟩
  | 0x06 => some ⟨true, 10230, 10230, 20, false, false, some 0x05, 1, -32100, 1176450, .bpsk, true⟩
  | 0x08 => some ⟨false, 1023, 4092, 1, true, false, some 0x09, 0, -14160, 1575420, .cboc true, false⟩
  | 0x09 => some ⟨true, 1023, 4092, 25, true, false, some 0x08, 0, -14160, 1575420, .cboc false, false⟩
  | 0x0A => some ⟨false, 10230, 10230, 20, false, false, some 0x0B, 1, -32100, 1176450, .bpsk, false⟩
  | 0x0B => some ⟨true, 10230, 10230, 100, false, true, some 0x0A, 1, -32100, 1176450, .bpsk, true⟩
  | 0x0C => some ⟨false, 10230, 10230, 4, false, false, some 0x0D, 1, 29280, 1207140, .bpsk, false⟩
  | 0x0D => some ⟨true, 10230, 10230, 100, false, true, some 0x0C, 1, 29280, 1207140, .bpsk, true⟩
  | 0x0E => some ⟨true, 10230, 10230, 100, false, true, none, 1, -1410, 1191795, .altboc, true⟩
  | 0x0F => some ⟨false, 5115, 5115, 1, true, false, some 0x10, 3, 7500, 1278750, .bpsk, false⟩
  | 0x10 => some ⟨true, 5115, 5115, 100, true, true, some 0x0F, 3, 7500, 1278750, .bpsk, false⟩
  | 0x11 => some ⟨false, 2046, 2046, 20, false, false, none, 0, -42804, 1561098, .bpsk, false⟩
  | 0x12 => some ⟨false, 1023, 10230, 1, true, false, some 0x13, 0, -14160, 1575420, .boc, false⟩
  | 0x13 => some ⟨true, 1023, 10230, 1800, true, true, some 0x12, 0, -14160, 1575420, .qmboc, true⟩
  | 0x14 => some ⟨false, 10230, 10230, 5, false, false, some 0x15, 1, -32100, 1176450, .bpsk, false⟩
  | 0x15 => some ⟨true, 10230, 10230, 100, false, true, some 0x14, 1, -32100, 1176450, .bpsk, true⟩
  | 0x16 => some ⟨false, 10230, 10230, 1, false, false, none, 1, 29280, 1207140, .bpsk, false⟩
  | 0x17 => some ⟨false, 10230, 10230, 20, false, false, none, 3, -12960, 1268520, .bpsk, false⟩
  | 0x18 => some ⟨false, 511, 511, 1, false, false, none, 0, 39000, 1602000, .bpsk, false⟩
  | 0x19 => some ⟨false, 511, 511, 1, false, false, none, 2, 17000, 1246000, .bpsk, false⟩
  | 0x1A => some ⟨false, 1023, 1023, 1, false, false, none, 0, -14160, 1575420, .bpsk, false⟩
  | 0x1B => some ⟨false, 1023, 10230, 1, true, false, some 0x1C, 0, -14160, 1575420, .boc, false⟩
  | 0x1C => some ⟨true, 1023, 10230, 1800, true, true, some 0x1B, 0, -14160, 1575420, .tmboc, false⟩
  | 0x1D => some ⟨false, 1023, 20460, 1, false, false, some 0x1E, 2, -19800, 1227600, .tm false, false⟩
  | 0x1E => some ⟨true, 1023, 1534500, 1, false, false, some 0x1D, 2, -19800, 1227600, .tm true, false⟩
  | 0x1F => some ⟨false, 10230, 10230, 10, false, false, some 0x20, 1, -32100, 1176450, .bpsk, false⟩
  | 0x20 => some ⟨true, 10230, 10230, 20, false, false, some 0x1F, 1, -32100, 1176450, .bpsk, true⟩
  | 0x21 => some ⟨true, 5115, 2097150, 1, false, false, none, 3, 7500, 1278750, .tm true, false⟩
  | 0x22 => some ⟨false, 1023, 1023, 1, false, false, none, 1, -32100, 1176450, .bpsk, false⟩
  | 0x23 => some ⟨false, 1023, 1023, 1, false, false, none, 0, -14160, 1575420, .bpsk, false⟩
  | _ => none

/-- The system of a satellite index (R21): 0 GPS, 1 Galileo, 2 BeiDou, 3 GLONASS, 4 QZSS, 5 NavIC, 6 SBAS, none reserved. -/
def systemOf (sat : Nat) : Option Nat :=
  if sat ≤ 31 then some 0 else if sat ≤ 67 then some 1 else if sat ≤ 130 then some 2 else if sat ≤ 157 then some 3
  else if sat ≤ 167 then some 4 else if sat ≤ 181 then some 5 else if sat ≤ 220 then some 6 else none

/-- The system a signal code belongs to (R126). -/
def sigSystem (code : Nat) : Nat :=
  if code ≤ 0x06 then 0 else if code ≤ 0x10 then 1 else if code ≤ 0x17 then 2 else if code ≤ 0x19 then 3
  else if code ≤ 0x21 then 4 else if code = 0x22 then 5 else 6

/-- BeiDou GEO satellites: PRN 1 to 5 and 59 to 63 (R127). -/
def bdsGeo (sat : Nat) : Bool := (decide (68 ≤ sat) && decide (sat ≤ 72)) || (decide (126 ≤ sat) && decide (sat ≤ 130))

/-- Secondary code length of a signal of a satellite: NH20 is not applied for GEO B1I and B3I (R127). -/
def secLen (code sat : Nat) : Nat :=
  if (code = 0x11 ∨ code = 0x17) ∧ bdsGeo sat then 1 else match sigOf code with | some g => g.sec | none => 1

/-- Whether a signal of a satellite has a secondary code (R126, R127). -/
def hasSec (code sat : Nat) : Bool := secLen code sat != 1

/-- The carrier minus the home LO in units of 500 Hz; for GLONASS with its FDMA channel (R126). -/
def sigOffset (code : Nat) (k : Int) : Int :=
  match sigOf code with
  | some g => g.ofs + (if code = 0x18 then 1125 * k else if code = 0x19 then 875 * k else 0)
  | none => 0

/-- The unit of the dump grid in ms (R143). -/
def unitMs (code : Nat) : Nat :=
  match code with
  | 0x08 => 4 | 0x09 => 4
  | 0x01 => 10 | 0x02 => 10 | 0x12 => 10 | 0x13 => 10 | 0x1B => 10 | 0x1C => 10
  | _ => 1

end Sys2Proof.Machine
end

