-- ==== Sys2Proof/Machine/Num.lean ====
section
/-! DEFINITION. Elementary functions on rationals, worked with 110 binary digits after the point, for the formulas the spec states
in real numbers: roots, circular functions of a turn, exponentials and inverse tangents. What they leave of the exact
value is far below every bound the spec gives its results. -/
namespace Sys2Proof.Machine.Num

/-- A rational cut to 110 binary digits after the point. -/
def snap (x : Rat) : Rat := mkRat (x * 2 ^ 110).floor (2 ^ 110)

/-- π. -/
def pi : Rat := 314159265358979323846264338327950288419716939937510582097494 / 10 ^ 59

/-- The natural logarithm of 2, and of 10. -/
def ln2 : Rat := 693147180559945309417232121458176568075500134360255254120680 / 10 ^ 60
def ln10 : Rat := 2302585092994045684017991454684364207601101488628772976033328 / 10 ^ 60

/-- The nearest whole number, a half rounded up. -/
def round (x : Rat) : Int := (x + 1 / 2).floor

/-- The largest number, of at most `k` more bits above `r`, whose square is at most `n`. -/
def rootFrom (n : Nat) : Nat → Nat → Nat
  | 0, r => r
  | k + 1, r => rootFrom n k (if (r + 2 ^ k) * (r + 2 ^ k) ≤ n then r + 2 ^ k else r)

/-- The whole part of a square root. -/
def isqrt (n : Nat) : Nat := rootFrom n (n.log2 / 2 + 1) 0

/-- The square root of a rational that is not negative; of a negative one 0. -/
def sqrt (x : Rat) : Rat :=
  if x ≤ 0 then 0 else mkRat (isqrt (x * 2 ^ 220).floor.toNat) (2 ^ 110)

/-- The terms of the series of cosine (from `k` = 0) or sine (from `k` = 1), the first being `t`. -/
def circTerms (z2 : Rat) : Nat → Nat → Rat → Rat
  | 0, _, _ => 0
  | n + 1, k, t => t + circTerms z2 n (k + 2) (snap (-(t * z2) / ((k + 1) * (k + 2) : Nat)))

/-- A number of turns brought to the half turn about 0. -/
def turn (x : Rat) : Rat := x - round x

/-- Cosine and sine of a number of turns. -/
def cosTurn (x : Rat) : Rat := let z := snap (2 * pi * turn x); circTerms (snap (z * z)) 40 0 1
def sinTurn (x : Rat) : Rat := let z := snap (2 * pi * turn x); circTerms (snap (z * z)) 40 1 z

/-- Cosine and sine of radians. -/
def cos (x : Rat) : Rat := cosTurn (snap (x / (2 * pi)))
def sin (x : Rat) : Rat := sinTurn (snap (x / (2 * pi)))

/-- The terms of the exponential series from the `k`-th, `t`, on. -/
def expTerms (x : Rat) : Nat → Nat → Rat → Rat
  | 0, _, _ => 0
  | n + 1, k, t => t + expTerms x n (k + 1) (snap (t * x / (k + 1 : Nat)))

/-- e to a power: a power of two times the series of the rest, which is below 1/2. -/
def exp (x : Rat) : Rat :=
  let k := round (x / ln2)
  let r := expTerms (snap (x - k * ln2)) 30 0 1
  if 0 ≤ k then r * 2 ^ k.toNat else snap (r / 2 ^ (-k).toNat)

/-- Ten to a power. -/
def pow10 (x : Rat) : Rat := exp (snap (x * ln10))

/-- The terms of the inverse tangent's series, the first being `t` / `k`. -/
def atanTerms (z2 : Rat) : Nat → Nat → Rat → Rat
  | 0, _, _ => 0
  | n + 1, k, t => snap (t / k) + atanTerms z2 n (k + 2) (snap (-(t * z2)))

/-- Half of an angle, by its tangent. -/
def halfTan (x : Rat) : Rat := snap (x / (1 + sqrt (1 + x * x)))

/-- The inverse tangent in radians: halved three times, then by its series. -/
def atan (x : Rat) : Rat :=
  let z := halfTan (halfTan (halfTan (snap x)))
  8 * atanTerms (snap (z * z)) 60 1 z

/-- The angle of a vector in radians, between −π and π; 0 for none. -/
def atan2 (y x : Rat) : Rat :=
  if 0 < x then atan (y / x)
  else if x < 0 then (if 0 ≤ y then atan (y / x) + pi else atan (y / x) - pi)
  else if 0 < y then pi / 2 else if y < 0 then -(pi / 2) else 0

/-- The inverse sine in radians of a number from −1 to 1. -/
def asin (x : Rat) : Rat := atan2 x (sqrt (1 - x * x))

end Sys2Proof.Machine.Num
end

