-- ==== Sys2Proof/Machine/Orbit.lean ====
section
/-! DEFINITION. Sky table slots as bytes (R260, R261), the orbit unit (R266 to R268), the geometry of a satellite seen from a
position, and the ionosphere and troposphere models (R270, R271, R274). Constants of the systems are those of their
interface specifications. (Assumption 154, PRESUMED.) -/
namespace Sys2Proof.Machine

/-- A block of bytes with a field replaced. -/
def putAt (bs : List Byte) (off : Nat) (f : List Byte) : List Byte := bs.take off ++ f ++ bs.drop (off + f.length)

/-- An EMPTY slot. -/
def emptySlot : List Byte := List.replicate 256 0

/-- CONTENT of a slot: 0 EMPTY, 1 ALMANAC, 2 EPHEMERIS (R260). -/
def slotContent (b : List Byte) : Nat := leAt b 0 1 % 4

/-- HEALTHY of a slot. -/
def slotHealthy (b : List Byte) : Bool := (leAt b 0 1).testBit 2

/-- FORM of a slot. -/
def slotForm (b : List Byte) : Nat := leAt b 1 1

/-- The value of a binary64 number that is neither NaN nor infinite. -/
def f64Val (n : Nat) : Rat :=
  let e := bitsOf n 62 52
  let m : Nat := n % 2 ^ 52
  let v : Rat := if e = 0 then (m : Rat) / 2 ^ 1074 else ((2 ^ 52 + m : Nat) : Rat) * (2 : Rat) ^ (e : Nat) / 2 ^ 1075
  if n.testBit 63 then -v else v

/-- Word `k` of a slot's model block (R261). -/
def modelWord (b : List Byte) (k : Nat) : Nat := leAt b (32 + 8 * k) 8

/-- Its value in SI units. -/
def modelVal (b : List Byte) (k : Nat) : Rat := f64Val (modelWord b k)

/-- The absolute value of a rational. -/
def absRat (x : Rat) : Rat := if x < 0 then -x else x

/-- Whether an instant (2^-32 s) lies within FIT of word 0 (R264); a FIT of 0 makes the model never valid (R260). -/
def inFit (b : List Byte) (t : Nat) : Bool :=
  leAt b 18 2 != 0 && decide (absRat ((t : Rat) / 2 ^ 32 - modelVal b 0) ≤ 60 * (leAt b 18 2 : Rat))

/-- A slot is usable at an instant (R264). -/
def slotUsable (b : List Byte) (t : Nat) : Bool := slotContent b == 2 && slotHealthy b && inFit b t

/-- The group delay of a slot for chain `x` in seconds (R261). -/
def groupDelay (b : List Byte) (x : Nat) : Rat := if x ≤ 3 then modelVal b (22 + x) else 0

/-! Vectors. -/

/-- A vector in metres, or metres per second. -/
structure Vec where
  x : Rat
  y : Rat
  z : Rat
deriving DecidableEq, Repr

namespace Vec
/-- The sum, the difference and the multiple of vectors. -/
def add (a b : Vec) : Vec := ⟨a.x + b.x, a.y + b.y, a.z + b.z⟩
def sub (a b : Vec) : Vec := ⟨a.x - b.x, a.y - b.y, a.z - b.z⟩
def smul (k : Rat) (a : Vec) : Vec := ⟨k * a.x, k * a.y, k * a.z⟩
/-- The scalar product and the length. -/
def dot (a b : Vec) : Rat := a.x * b.x + a.y * b.y + a.z * b.z
def len (a : Vec) : Rat := Num.sqrt (dot a a)
/-- A vector cut to the numbers' 110 binary digits. -/
def cut (a : Vec) : Vec := ⟨Num.snap a.x, Num.snap a.y, Num.snap a.z⟩
/-- A vector seen from axes turned about z by an angle in radians. -/
def turnZ (w : Rat) (a : Vec) : Vec :=
  let c := Num.cos w
  let s := Num.sin w
  cut ⟨c * a.x + s * a.y, c * a.y - s * a.x, a.z⟩
/-- The same about x. -/
def turnX (w : Rat) (a : Vec) : Vec :=
  let c := Num.cos w
  let s := Num.sin w
  cut ⟨a.x, c * a.y + s * a.z, c * a.z - s * a.y⟩
end Vec

/-- Metres per second of light (R242). -/
abbrev lightSpeed : Nat := 299792458

/-! The orbit unit (R266, R267). -/

/-- A system's gravitational constant in m³/s² and the Earth rotation rate in rad/s its specification uses (R266). (Assumption
154, PRESUMED.) -/
def sysConst (sys : Nat) : Rat × Rat :=
  match sys with
  | 1 => (398600441800000, 72921151467 / 10 ^ 15)
  | 2 => (398600441800000, 7292115 / 10 ^ 11)
  | _ => (398600500000000, 72921151467 / 10 ^ 15)

/-- The eccentric anomaly of a mean anomaly: Newton's steps. -/
def kepler (m e : Rat) : Nat → Rat → Rat
  | 0, a => a
  | n + 1, a => kepler m e n (Num.snap (a - (a - e * Num.sin a - m) / (1 - e * Num.cos a)))

/-- The eccentric anomaly of a slot at an instant in its system's time: A is the semi-major axis, with its rate, and the mean
motion has its correction and the correction's rate (R266). -/
def eccAnomaly (sys : Nat) (b : List Byte) (t : Rat) : Rat :=
  let w := modelVal b
  let dt := t - w 0
  let n := Num.snap (Num.sqrt (sysConst sys).1 / (w 2 * w 2 * w 2)) + w 8 + w 18 * dt / 2
  let m := 2 * Num.pi * Num.turn (Num.snap ((w 7 + n * dt) / (2 * Num.pi)))
  kepler m (w 3) 20 m

/-- FORM 0 and FORM 1: the satellite's position in the rotating frame of its system (R266). -/
def keplerPos (sys : Nat) (b : List Byte) (t : Rat) : Vec :=
  let w := modelVal b
  let dt := t - w 0
  let om := (sysConst sys).2
  let a := w 2 * w 2 + w 17 * dt
  let ea := eccAnomaly sys b t
  let nu := Num.atan2 (Num.snap (Num.sqrt (1 - w 3 * w 3) * Num.sin ea)) (Num.snap (Num.cos ea - w 3))
  let ph := nu + w 6
  let s2 := Num.sin (2 * ph)
  let c2 := Num.cos (2 * ph)
  let u := Num.snap (ph + w 12 * s2 + w 11 * c2)
  let r := Num.snap (a * (1 - w 3 * Num.cos ea) + w 14 * s2 + w 13 * c2)
  let i := Num.snap (w 4 + w 9 * dt + w 16 * s2 + w 15 * c2)
  let toe := w 0 - 604800 * ((w 0) / 604800).floor
  let node := if slotForm b = 1 then w 5 + w 10 * dt - om * toe else w 5 + (w 10 - om) * dt - om * toe
  let p : Vec := ⟨r * Num.cos u, r * Num.sin u, 0⟩
  let v := ((p.turnX (-i)).turnZ (-(Num.snap node)))
  if slotForm b = 1 then (v.turnX (-(Num.pi / 36))).turnZ (Num.snap (om * dt)) else v

/-- The PZ-90 equations of motion (R266): the rates of position and velocity, with J2 and the model's accelerations. (Assumption
154, PRESUMED.) -/
def gloRates (acc : Vec) (q : Vec × Vec) : Vec × Vec :=
  let mu : Rat := 398600441800000
  let ae : Rat := 6378136
  let j2 : Rat := 10826257 / 10 ^ 10
  let om : Rat := 7292115 / 10 ^ 11
  let p := q.1
  let v := q.2
  let r := p.len
  let g := Num.snap (mu / (r * r * r))
  let z2 := Num.snap (5 * p.z * p.z / (r * r))
  let k := Num.snap (3 * j2 * mu * ae * ae / (2 * r * r * r * r * r))
  (v, (Vec.mk (-(g * p.x) - k * p.x * (1 - z2) + om * om * p.x + 2 * om * v.y + acc.x)
        (-(g * p.y) - k * p.y * (1 - z2) + om * om * p.y - 2 * om * v.x + acc.y)
        (-(g * p.z) - k * p.z * (3 - z2) + acc.z)).cut)

/-- A state moved by a multiple of rates. -/
def gloMove (h : Rat) (q d : Vec × Vec) : Vec × Vec := ((q.1.add (d.1.smul h)).cut, (q.2.add (d.2.smul h)).cut)

/-- One step of the fourth-order Runge–Kutta method. -/
def gloStep (acc : Vec) (h : Rat) (q : Vec × Vec) : Vec × Vec :=
  let a := gloRates acc q
  let b := gloRates acc (gloMove (h / 2) q a)
  let c := gloRates acc (gloMove (h / 2) q b)
  let d := gloRates acc (gloMove h q c)
  gloMove (h / 6) q ((a.1.add ((b.1.add c.1).smul 2)).add d.1, (a.2.add ((b.2.add c.2).smul 2)).add d.2)

/-- `n` steps. -/
def gloSteps (acc : Vec) (h : Rat) : Nat → Vec × Vec → Vec × Vec
  | 0, q => q
  | n + 1, q => gloSteps acc h n (gloStep acc h q)

/-- A vector of three words of the model block. -/
def modelVec (b : List Byte) (k : Nat) : Vec := ⟨modelVal b k, modelVal b (k + 1), modelVal b (k + 2)⟩

/-- FORM 2 of GLONASS: equal steps of at most 30 s from t_b (R266). (Assumption 155, DESIGN CHOICE.) -/
def gloState (b : List Byte) (t : Rat) : Vec × Vec :=
  let dt := t - modelVal b 0
  let n := (absRat dt / 30).ceil.toNat
  gloSteps (modelVec b 8) (if n = 0 then 0 else dt / (n : Rat)) n (modelVec b 2, modelVec b 5)

/-- FORM 2 of SBAS: the second-order polynomial (R266). -/
def sbasState (b : List Byte) (t : Rat) : Vec × Vec :=
  let dt := t - modelVal b 0
  let p := modelVec b 2
  let v := modelVec b 5
  let a := modelVec b 8
  ((p.add (v.smul dt)).add (a.smul (dt * dt / 2)), v.add (a.smul dt))

/-- The position and velocity of a satellite in its system's time (R266); a Keplerian velocity is the slope of the position over
2^-9 s. (Assumption 155, DESIGN CHOICE.) (Assumption 154, PRESUMED.) -/
def orbitState (sat : Nat) (b : List Byte) (t : Rat) : Vec × Vec :=
  let sys := (systemOf sat).getD 0
  if slotForm b = 2 then (if sys = 6 then sbasState b t else gloState b t)
  else
    let h : Rat := 1 / 1024
    (keplerPos sys b t, (((keplerPos sys b (t + h)).sub (keplerPos sys b (t - h))).smul 512).cut)

/-- The satellite clock without a group delay (R267): the polynomial and the relativistic term. -/
def orbitClock (sat : Nat) (b : List Byte) (t : Rat) : Rat :=
  let w := modelVal b
  let dt := t - w 1
  let rel := if slotForm b = 2 then 0 else
    -(4442807633 / 10 ^ 19) * w 3 * w 2 * Num.sin (eccAnomaly ((systemOf sat).getD 0) b t)
  w 19 + w 20 * dt + w 21 * dt * dt + rel

/-- Its rate: the slope of the clock over 2^-9 s. (Assumption 155, DESIGN CHOICE.) -/
def orbitClockRate (sat : Nat) (b : List Byte) (t : Rat) : Rat :=
  (orbitClock sat b (t + 1 / 1024) - orbitClock sat b (t - 1 / 1024)) * 512

/-- What the unit's output may differ by, within a bound: a free value (R268). (Assumption 31, DESIGN CHOICE.) -/
def unitError (sat : Nat) (b : List Byte) (t : Rat) (part : Nat) (bound : Rat) : Rat :=
  bound * ((Config.orbitError sat b t part % 2001 - 1000 : Int) : Rat) / 1000

/-- What the orbit unit answers: position, velocity, clock offset and clock rate, each within its bound of the algorithm's value
(R266 to R268). (Assumption 31, DESIGN CHOICE.) -/
structure Orbit where
  pos : Vec
  vel : Vec
  clk : Rat
  rate : Rat

/-- An evaluation of the orbit unit at an instant of the satellite's own system time. (Assumption 31, DESIGN CHOICE.) (Assumption 155, DESIGN CHOICE.) -/
def orbitEval (sat : Nat) (b : List Byte) (t : Rat) : Orbit :=
  let q := orbitState sat b t
  let e (k : Nat) (bound : Rat) := unitError sat b t k bound
  ⟨q.1.add ⟨e 0 (1 / 1000), e 1 (1 / 1000), e 2 (1 / 1000)⟩, q.2.add ⟨e 3 (1 / 10000), e 4 (1 / 10000), e 5 (1 / 10000)⟩,
    orbitClock sat b t + e 6 (1 / 10 ^ 12), orbitClockRate sat b t⟩

/-! Geometry. -/

/-- WGS 84: the semi-major axis in metres, the squared eccentricity, the Earth's rotation in rad/s. (Assumption 154, PRESUMED.) -/
def wgsA : Rat := 6378137
def wgsE2 : Rat := 66943799901413 / 10 ^ 16
/-- See assumption 154, PRESUMED. -/
def earthRate : Rat := 72921151467 / 10 ^ 15

/-- Steps of the geodetic latitude. -/
def latSteps (p z : Rat) : Nat → Rat → Rat
  | 0, f => f
  | n + 1, f =>
    let s := Num.sin f
    latSteps p z n (Num.atan2 (Num.snap (z + wgsE2 * wgsA * s / Num.sqrt (1 - wgsE2 * s * s))) p)

/-- A place: geodetic latitude and longitude in radians and height in metres. -/
structure Geo where
  lat : Rat
  lon : Rat
  h : Rat

/-- The geodetic coordinates of a position. (Assumption 154, PRESUMED.) -/
def geoOf (p : Vec) : Geo :=
  let r := Num.sqrt (p.x * p.x + p.y * p.y)
  let f := latSteps r p.z 8 (Num.atan2 p.z r)
  let s := Num.sin f
  ⟨f, Num.atan2 p.y p.x, Num.snap (r * Num.cos f + p.z * s - wgsA * Num.sqrt (1 - wgsE2 * s * s))⟩

/-- Degrees of radians. -/
def degrees (x : Rat) : Rat := x * 180 / Num.pi

/-- Elevation and azimuth, in radians, of a satellite's position seen from a place's position. -/
def elAz (p : Vec) (g : Geo) (sat : Vec) : Rat × Rat :=
  let d := sat.sub p
  let sf := Num.sin g.lat
  let cf := Num.cos g.lat
  let sl := Num.sin g.lon
  let cl := Num.cos g.lon
  let e := cl * d.y - sl * d.x
  let n := cf * d.z - sf * (cl * d.x + sl * d.y)
  let u := cf * (cl * d.x + sl * d.y) + sf * d.z
  (Num.atan2 (Num.snap u) (Num.sqrt (e * e + n * n)), Num.atan2 (Num.snap e) (Num.snap n))

/-- The rate of a range in m/s: the velocity along the line from a static position. -/
def rangeRate (p : Vec) (q : Vec × Vec) : Rat :=
  let d := q.1.sub p
  Num.snap (d.dot q.2 / d.len)

/-! Delays (R270, R271, R274). -/

/-- The ionosphere registers a stage reads (R271): the regional model's validity, coefficients in 0.001 TECU and origin in 0.01°,
and the broadcast coefficients. -/
structure IonoRegs where
  valid : Bool
  coef : List Int
  lat : Int
  lon : Int
  alpha : List Int
  beta : List Int
deriving DecidableEq, Repr

/-- The pierce point's offsets x and y from an origin in degrees (R270). -/
def pierceOffset (lat0 lon0 : Rat) (g : Geo) (el az : Rat) : Rat × Rat :=
  let psi := Num.snap (Num.pi / 2 - el - Num.asin (Num.snap (6371 * Num.cos el / 6721)))
  let fp := Num.asin (Num.snap (Num.sin g.lat * Num.cos psi + Num.cos g.lat * Num.sin psi * Num.cos az))
  let lp := g.lon + Num.asin (Num.snap (Num.sin psi * Num.sin az / Num.cos fp))
  let dl := 360 * Num.turn (Num.snap ((degrees lp - lon0) / 360))
  (degrees fp - lat0, Num.snap (dl * Num.cos (Num.snap (lat0 * Num.pi / 180))))

/-- The terms that the six coefficients multiply (R270). -/
def vtecTerms (x y : Rat) : List Rat := [1, x, y, x * x, x * y, y * y]

/-- The mapping function M of an elevation (R270). -/
def ionoMap (el : Rat) : Rat :=
  let k := Num.snap (6371 * Num.cos el / 6721)
  1 / Num.sqrt (1 - k * k)

/-- The slant delay in metres of a vertical TEC in TECU (R270); a negative one counts as 0. -/
def slantDelay (el vtec f : Rat) : Rat := 403 * 10 ^ 15 * ionoMap el * (if vtec < 0 then 0 else vtec) / (f * f)

/-- The broadcast model of the GPS specification: its delay in seconds at L1, at a GPS time (R271). (Assumption 154, PRESUMED.) -/
def klobuchar (m : IonoRegs) (g : Geo) (el az t : Rat) : Rat :=
  let semi (x : Rat) : Rat := x / Num.pi
  let e := semi el
  let psi := 137 / 10000 / (e + 11 / 100) - 22 / 1000
  let fi := semi g.lat + psi * Num.cos az
  let fi := if 416 / 1000 < fi then 416 / 1000 else if fi < -(416 / 1000) then -(416 / 1000) else fi
  let li := semi g.lon + psi * Num.sin az / Num.cos (fi * Num.pi)
  let fm := Num.snap (fi + 64 / 1000 * Num.cos ((li - 1617 / 1000) * Num.pi))
  let s := 43200 * li + t
  let s := s - 86400 * (s / 86400).floor
  let poly (cs : List Int) (scales : List Rat) : Rat := ((cs.zip scales).zipIdx.map (fun c => (c.1.1 : Rat) * c.1.2 * fm ^ c.2)).sum
  let amp := poly m.alpha [1 / 2 ^ 30, 1 / 2 ^ 27, 1 / 2 ^ 24, 1 / 2 ^ 24]
  let amp := if amp < 0 then 0 else amp
  let per := poly m.beta [2 ^ 11, 2 ^ 14, 2 ^ 16, 2 ^ 16]
  let per := if per < 72000 then 72000 else per
  let x := Num.snap (2 * Num.pi * (s - 50400) / per)
  let q := 53 / 100 - e
  let ff := 1 + 16 * q * q * q
  Num.snap (ff * (5 / 10 ^ 9 + (if absRat x < 157 / 100 then amp * (1 - x * x / 2 + x * x * x * x / 24) else 0)))

/-- The ionosphere delay of a row in metres at a frequency, and its source: 2 regional, 1 broadcast, 0 none (R271). (Assumption 154, PRESUMED.) -/
def ionoDelay (m : IonoRegs) (g : Geo) (el az t f : Rat) : Rat × Nat :=
  let o := pierceOffset ((m.lat : Rat) / 100) ((m.lon : Rat) / 100) g el az
  if m.valid && decide (absRat o.1 ≤ 15) && decide (absRat o.2 ≤ 15) then
    let v := ((vtecTerms o.1 o.2).zip m.coef).map (fun c => c.1 * (c.2 : Rat) / 1000)
    (slantDelay el v.sum f, 2)
  else if m.alpha.any (· != 0) || m.beta.any (· != 0) then
    ((lightSpeed : Rat) * klobuchar m g el az t * (1575420000 / f) * (1575420000 / f), 1)
  else (0, 0)

/-- The tropospheric delay in metres (R274). -/
def tropoDelay (h el : Rat) : Rat :=
  let h := if h < 0 then 0 else if 9000 < h then 9000 else h
  let s := Num.sin el
  Num.snap (23 / 10 * Num.exp (-(116 / 10 ^ 6) * h) * (1001 / 1000) / Num.sqrt (2001 / 10 ^ 6 + s * s))

/-! A signal received at a position. -/

/-- A satellite as it is received at a position and instant: the transmit instant iterated, and the satellite turned by the
Earth's rotation over the travel time (R267, R275). `ofs` takes GPST to the system's time. -/
structure Seen where
  orbit : Orbit
  pos : Vec
  vel : Vec
  range : Rat

/-- Steps of the travel time in seconds. -/
def travelSteps (sat : Nat) (b : List Byte) (ofs : Rat) (p : Vec) (t : Rat) : Nat → Rat → Rat
  | 0, d => d
  | n + 1, d =>
    let q := (orbitEval sat b (t + ofs - d)).pos.turnZ (Num.snap (earthRate * d))
    travelSteps sat b ofs p t n (Num.snap ((q.sub p).len / lightSpeed))

/-- A satellite received at a position at an instant of GPST. -/
def seenAt (sat : Nat) (b : List Byte) (ofs : Rat) (p : Vec) (t : Rat) : Seen :=
  let d := travelSteps sat b ofs p t 3 (7 / 100)
  let o := orbitEval sat b (t + ofs - d)
  let w := Num.snap (earthRate * d)
  let q := o.pos.turnZ w
  ⟨o, q, o.vel.turnZ w, (q.sub p).len⟩

/-- The ionosphere and troposphere delays in metres of a signal at frequency `f` from a satellite seen from a position whose
delays are taken at the place `g` of position `at_`, and the ionosphere's source. -/
def pathDelay (m : IonoRegs) (at_ : Vec) (g : Geo) (q : Vec) (t f : Rat) : Rat × Rat × Nat :=
  let ea := elAz at_ g q
  let i := ionoDelay m g ea.1 ea.2 t f
  (i.1, tropoDelay g.h ea.1, i.2)

/-- A satellite seen at an instant from a position (R260): elevation and azimuth in 0.01°, azimuth from 0 to 35,999, and range
rate in mm/s. (Assumption 155, DESIGN CHOICE.) -/
def lookAt (sat : Nat) (b : List Byte) (t : Rat) (p : Vec) : Int × Nat × Int :=
  let o := orbitEval sat b t
  let ea := elAz p (geoOf p) o.pos
  (Num.round (100 * degrees ea.1), (Num.round (100 * degrees ea.2) % 36000).toNat,
    Num.round (1000 * rangeRate p (o.pos, o.vel)))

/-- A signal predicted at a position and instant (R242): code phase in chips, Doppler and its rate in Hz and Hz/s, satellite
speed over range in 1/s. -/
structure Predicted where
  chips : Rat
  dopp : Rat
  rate : Rat
  vr : Rat

/-- The prediction of a signal of `kcps` thousand chips a second, `len` chips long, on chain `x` at carrier `f` (R242): with the
satellite clock, the ionosphere and the troposphere. (Assumption 155, DESIGN CHOICE.) -/
def predictAt (m : IonoRegs) (sat : Nat) (b : List Byte) (ofs t : Rat) (p : Vec) (kcps len x : Nat) (f : Rat) : Predicted :=
  let q := seenAt sat b ofs p t
  let g := geoOf p
  let d := pathDelay m p g q.pos t f
  let sent := t + ofs - (q.range + d.1 + d.2.1) / lightSpeed + q.orbit.clk - groupDelay b x
  let chips := sent * (kcps * 1000 : Nat)
  let slope (u : Rat) : Rat := rangeRate p (orbitState sat b (t + ofs + u))
  ⟨Num.snap (chips - (len : Rat) * (chips / (len : Rat)).floor),
    Num.snap (f * (q.orbit.rate - rangeRate p (q.pos, q.vel) / lightSpeed)),
    Num.snap (-(f * (slope (1 / 2) - slope (-(1 / 2))) / lightSpeed)), Num.snap (q.vel.len / q.range)⟩

end Sys2Proof.Machine
end

