-- ==== Sys2Proof/Machine/Solver.lean ====
section
/-! DEFINITION. The fix solver and the ionosphere fit as computations (R272, R275 to R281): rows, Gauss–Newton iterations,
exclusions. -/
namespace Sys2Proof.Machine

/-! Linear algebra. -/

/-- An element of a matrix. -/
def matAt (a : List (List Rat)) (i j : Nat) : Rat := (a.getD i []).getD j 0

/-- One column of a Gauss–Jordan elimination: a pivot that is not 0 is brought up and taken off every other row. -/
def gaussStep (n : Nat) (a : List (List Rat)) (i : Nat) : Option (List (List Rat)) :=
  match ((List.range n).drop i).find? (fun r => matAt a r i != 0) with
  | none => none
  | some p =>
    let top := (a.getD p []).map (fun x => x / matAt a p i)
    let b := (a.set p (a.getD i [])).set i top
    some (b.zipIdx.map (fun r => if r.2 = i then r.1 else List.zipWith (fun x y => x - r.1.getD i 0 * y) r.1 top))

/-- The inverse of a matrix; none where it is singular. -/
def matInverse (a : List (List Rat)) : Option (List (List Rat)) :=
  let n := a.length
  let wide := a.zipIdx.map (fun r => r.1 ++ (List.range n).map (fun j => if j = r.2 then 1 else 0))
  ((List.range n).foldl (fun (m : Option (List (List Rat))) i => m.bind (fun b => gaussStep n b i)) (some wide)).map
    (fun b => b.map (fun r => (r.drop n).map Num.snap))

/-- A matrix times a vector. -/
def matVec (a : List (List Rat)) (v : List Rat) : List Rat := a.map (fun r => (List.zipWith (· * ·) r v).sum)

/-- The trace of the rows from `i` on, `n` of them. -/
def matTrace (a : List (List Rat)) (i n : Nat) : Rat := ((List.range n).map (fun k => matAt a (i + k) (i + k))).sum

/-- A weighted equation: its partials, its residual, its weight. -/
structure Eqn where
  part : List Rat
  res : Rat
  w : Rat

/-- The normal matrix of equations in `n` unknowns, and its right-hand side. -/
def normalOf (n : Nat) (es : List Eqn) : List (List Rat) × List Rat :=
  ((List.range n).map (fun i => (List.range n).map (fun j =>
      Num.snap ((es.map (fun e => e.w * e.part.getD i 0 * e.part.getD j 0)).sum))),
    (List.range n).map (fun i => Num.snap ((es.map (fun e => e.w * e.part.getD i 0 * e.res)).sum)))

/-! Rows (R275, R278, R279). -/

/-- A row of a solve: the measurement's satellite, slot and time offset of its system, its observed pseudorange in metres, the
parts it combines (factor, chain, carrier in Hz), the Doppler observed in Hz, C/N0 in dB-Hz, and its clock group's place. -/
structure SolRow where
  entry : Nat
  sat : Nat
  slot : List Byte
  ofs : Rat
  obs : Rat
  parts : List (Rat × Nat × Nat)
  dopp : Rat
  cn0 : Rat
  group : Nat

/-- An ionosphere-free row. -/
def SolRow.dual (r : SolRow) : Bool := decide (r.parts.length = 2)

/-- The carrier of the row's Doppler. -/
def SolRow.carrier (r : SolRow) : Rat := (r.parts.headD (1, 0, 0)).2.2

/-- What a solve works under: the receive instant in seconds of GPST, the position its delays and elevations are taken at (none:
the iterate), the ionosphere, SOL_CFG and SOL_TH, what is solved, the clock groups' number. -/
structure SolEnv where
  t : Rat
  ref : Option Vec
  iono : IonoRegs
  sigA : Nat
  sigB : Nat
  maxIter : Nat
  exclMax : Nat
  gdopMax : Nat
  resTh : Nat
  convTh : Nat
  held : Bool
  coarse : Bool
  drift : Bool
  groups : Nat

/-- The unknowns: position, group biases in metres, coarse offset in seconds, drift. -/
structure SolX where
  pos : Vec
  bias : List Rat
  dt : Rat
  eps : Rat

/-- Unknowns of the position, of the code rows, and all. -/
def SolEnv.posN (e : SolEnv) : Nat := if e.held then 0 else 3
def SolEnv.codeN (e : SolEnv) : Nat := e.posN + e.groups + (if e.coarse then 1 else 0)
def SolEnv.allN (e : SolEnv) : Nat := e.codeN + (if e.drift then 1 else 0)

/-- Partials in the order position, groups, coarse offset, drift. -/
def SolEnv.partials (e : SolEnv) (u : Vec) (g : Option Nat) (dt eps : Rat) : List Rat :=
  (if e.held then [] else [u.x, u.y, u.z]) ++
    (List.range e.groups).map (fun i => if g = some i then 1 else 0) ++
    (if e.coarse then [dt] else []) ++ (if e.drift then [eps] else [])

/-- How much noise a low C/N0 adds: max(1, 10^((45 − CN0) / n)) (R279). -/
def weakFactor (cn0 : Rat) (n : Nat) : Rat := if 45 ≤ cn0 then 1 else Num.pow10 (Num.snap ((45 - cn0) / (n : Rat)))

/-- σ² of a code row at an elevation (R279). -/
def codeVar (e : SolEnv) (r : SolRow) (el : Rat) : Rat :=
  let s := Num.sin el
  let base := ((e.sigA : Rat) / 10) * ((e.sigA : Rat) / 10) + ((e.sigB : Rat) / 10) * ((e.sigB : Rat) / 10) / (s * s)
  let dual : Rat := match r.parts with
    | [a, b] =>
      let p : Rat := (a.2.2 : Rat) * a.2.2
      let q : Rat := (b.2.2 : Rat) * b.2.2
      (p * p + q * q) / ((p - q) * (p - q))
    | _ => 1
  Num.snap (base * weakFactor r.cn0 10 * dual)

/-- What a row gives at an iterate: its code equation, its Doppler equation, the source of its ionosphere correction (R275,
R279). Corrections and partials of the clock and of the position are in metres. (Assumption 156, DESIGN CHOICE.) -/
structure RowAt where
  code : Eqn
  dopp : Eqn
  iono : Nat

/-- The code and Doppler models of a row (R275). (Assumption 156, DESIGN CHOICE.) (Assumption 32, DEDUCED.) -/
def rowAt (e : SolEnv) (x : SolX) (r : SolRow) : RowAt :=
  let t := e.t + x.dt
  let q := seenAt r.sat r.slot r.ofs x.pos t
  let at_ := e.ref.getD x.pos
  let g := geoOf at_
  let ea := elAz at_ g q.pos
  let u := ((q.pos.sub x.pos).smul (1 / q.range)).cut
  let rr := rangeRate x.pos (q.pos, q.vel)
  let io : Rat × Nat := match r.parts with
    | [a] => ionoDelay e.iono g ea.1 ea.2 t a.2.2
    | _ => (0, 3)
  let gd := (r.parts.map (fun p => p.1 * groupDelay r.slot p.2.1)).sum
  let model := q.range + x.bias.getD r.group 0 - (lightSpeed : Rat) * (q.orbit.clk - gd) + io.1 + tropoDelay g.h ea.1
  let f := r.carrier
  let wd := 20 / weakFactor r.cn0 20
  let across := (q.vel.sub (u.smul rr)).smul (1 / q.range)
  { code := ⟨e.partials (u.smul (-1)) (some r.group) (rr / lightSpeed) 0, Num.snap (r.obs - model), 1 / codeVar e r ea.1⟩
    dopp := ⟨e.partials ((across.smul (f / lightSpeed)).cut) none 0 (-f), Num.snap (r.dopp + f * rr / lightSpeed + x.eps * f), wd * wd⟩
    iono := io.2 }

/-! Integer resolution (R275, R276). -/

/-- Whole periods for a Carousel's measurements: each is its observed pseudorange within one period (metres), the period, and
the pseudorange predicted at the prior, the reference first. -/
def resolveInts (l : List (Rat × Rat × Rat)) : List Rat :=
  match l with
  | [] => []
  | (o, lam, pred) :: rest =>
    let ref := o + lam * Num.round ((pred - o) / lam)
    ref :: rest.map (fun m => m.1 + m.2.1 * Num.round (((ref + m.2.2 - pred) - m.1) / m.2.1))

/-- The pseudorange that the code model predicts at a position with bias 0. -/
def predictRange (e : SolEnv) (p : Vec) (r : SolRow) : Rat :=
  r.obs - (rowAt e ⟨p, [], 0, 0⟩ r).code.res

/-! Iterations (R280). -/

/-- The unknowns after a correction in metres, the drift's in its own unit. -/
def SolX.move (e : SolEnv) (x : SolX) (d : List Rat) : SolX :=
  let n := e.posN
  ⟨if e.held then x.pos else (x.pos.add ⟨d.getD 0 0, d.getD 1 0, d.getD 2 0⟩).cut,
    (List.range e.groups).map (fun i => x.bias.getD i 0 + d.getD (n + i) 0),
    if e.coarse then Num.snap (x.dt + d.getD (n + e.groups) 0 / lightSpeed) else x.dt,
    if e.drift then x.eps + d.getD e.codeN 0 else x.eps⟩

/-- The inverse of the unweighted normal matrix of position and clock groups: its trace is GDOP². (Assumption 156, DESIGN CHOICE.) -/
def dopMatrix (e : SolEnv) (rows : List RowAt) : Option (List (List Rat)) :=
  let n := e.posN + e.groups
  matInverse (normalOf n (rows.map (fun r => ⟨r.code.part.take n, 0, 1⟩))).1

/-- What an iteration ends in (R280). -/
inductive IterEnd where
  | outcome (o : Nat)
  | converged (x : SolX)
  | next (x : SolX)

/-- One iteration (R280). (Assumption 156, DESIGN CHOICE.) (Assumption 32, DEDUCED.) -/
def iterate (e : SolEnv) (x : SolX) (rows : List SolRow) : IterEnd :=
  let rs := rows.map (rowAt e x)
  let eqs := rs.map (·.code) ++ (if e.drift then rs.map (·.dopp) else [])
  let nm := normalOf e.allN eqs
  match matInverse nm.1, dopMatrix e rs with
  | some inv, some dop =>
    let k := e.posN + e.groups
    if (e.gdopMax * e.gdopMax : Nat) < 4 * matTrace dop 0 k then .outcome 3
    else
      let d := matVec inv nm.2
      let y := x.move e d
      let rad2 := y.pos.dot y.pos
      if !e.held && (decide (rad2 < 25 * 10 ^ 12) || decide (10 ^ 14 < rad2)) then .outcome 4
      else
        let c := d.take e.codeN
        if (c.map (fun v => v * v)).sum * 1000000 < (e.convTh * e.convTh : Nat) then .converged y else .next y
  | _, _ => .outcome 3

/-- Iterations until they end, at most so many: the outcome, the iterations, the unknowns (R280). -/
def iterations (e : SolEnv) (rows : List SolRow) : Nat → Nat → SolX → Nat × Nat × SolX
  | 0, k, x => (5, k, x)
  | n + 1, k, x =>
    match iterate e x rows with
    | .outcome o => (o, k + 1, x)
    | .converged y => (0, k + 1, y)
    | .next y => iterations e rows n (k + 1) y

/-- T (R281): the weighted squares of the code residuals over the rows in excess. -/
def residualT (e : SolEnv) (rs : List RowAt) : Rat :=
  let n := rs.length - e.codeN
  if n = 0 then 0 else (rs.map (fun r => r.code.res * r.code.res * r.code.w)).sum / (n : Rat)

/-- The row with the largest |r|/σ, of equals the one of the lower satellite index (R281). -/
def worstRow (rows : List (SolRow × RowAt)) : Option SolRow :=
  let key (r : SolRow × RowAt) : Rat := r.2.code.res * r.2.code.res * r.2.code.w
  (rows.foldl (fun (b : Option (SolRow × RowAt)) r =>
    match b with
    | none => some r
    | some c => if key c < key r ∨ (key c = key r ∧ r.1.sat < c.1.sat) then some r else b) none).map (·.1)

/-- What a solve gives: outcome, iterations, the rows of the final solve, the unknowns. -/
structure Solved where
  outcome : Nat
  iter : Nat
  rows : List SolRow
  x : SolX

/-- A solve and its exclusions, at most `n` more (R280, R281): MAX_ITER holds for each re-solve. (Assumption 156, DESIGN CHOICE.) (Assumption 32, DEDUCED.) -/
def solveRows (e : SolEnv) : Nat → Nat → SolX → List SolRow → Solved
  | n, k, x, rows =>
    let r := iterations e rows e.maxIter k x
    let rs := rows.map (rowAt e r.2.2)
    if r.1 ≠ 0 ∨ rows.length ≤ e.codeN ∨ 4 * residualT e rs ≤ (e.resTh : Rat) then ⟨r.1, r.2.1, rows, r.2.2⟩
    else
      match n, worstRow (rows.zip rs) with
      | m + 1, some w =>
        if rows.length - 1 ≤ e.codeN then ⟨6, r.2.1, rows, r.2.2⟩
        else solveRows e m r.2.1 r.2.2 (rows.filter (fun q => q.entry != w.entry))
      | _, _ => ⟨6, r.2.1, rows, r.2.2⟩

/-! The ionosphere fit (R272). -/

/-- What one satellite and chain give a fit: elevation in radians, offsets from the origin in degrees, the chain, the carriers of
A and of the chain, the mean of P_b − P_A in metres with the group delays' part added. -/
structure FitRow where
  el : Rat
  x : Rat
  y : Rat
  chain : Nat
  fA : Nat
  fb : Nat
  diff : Rat

/-- The equation of a fit row (R272) in C0 to C5 (TECU) and the IBB of `chains` in seconds, weighted by sin² el; held IBB values
are taken off. -/
def FitRow.eqn (learn : Bool) (chains : List Nat) (held : Nat → Rat) (r : FitRow) : Eqn :=
  let s := Num.sin r.el
  let k := 403 * 10 ^ 15 * ionoMap r.el * (1 / ((r.fb : Rat) * r.fb) - 1 / ((r.fA : Rat) * r.fA))
  ⟨(vtecTerms r.x r.y).map (fun v => Num.snap (k * v)) ++
      (if learn then chains.map (fun c => if c = r.chain then (lightSpeed : Rat) else 0) else []),
    if learn then r.diff else r.diff - (lightSpeed : Rat) * held r.chain, s * s⟩

/-- The unknowns of a fit; none where its normal matrix is singular. (Assumption 32, DEDUCED.) -/
def fitSolve (learn : Bool) (held : Nat → Rat) (rows : List FitRow) : Option (List Nat × List Rat) :=
  let chains := [1, 2, 3].filter (fun b => rows.any (fun r => r.chain == b))
  let nm := normalOf (6 + (if learn then chains.length else 0)) (rows.map (FitRow.eqn learn chains held))
  (matInverse nm.1).map (fun inv => (chains, matVec inv nm.2))

end Sys2Proof.Machine
end

