-- ==== Sys2Proof/Machine/Timebase.lean ====
section
/-! DEFINITION. The timebase's views and leap seconds (R42 to R44), who may write its registers (R41), and the arming of
steps (R38, R39). -/
namespace Sys2Proof.Machine

/-! Views (R42, R43). Times are in 2^-32 s. -/

/-- The full turn of SPT80. -/
abbrev turn80 : Nat := 2 ^ 80

/-- An SPT80 value with a signed amount added, modulo 2^48 seconds. -/
def add80 (t : Nat) (d : Int) : Nat := (((t : Int) + d) % (turn80 : Int)).toNat

/-- TB_LEAP_AT's instant: seconds, widened by R17. -/
def leapAt (s : State) : Nat := s.widen (s.fld F.TB_LEAP_AT_AT_SEC * 2 ^ 32) / 2 ^ 32

/-- Whether NEXT is one more or one less than CUR: some insertion, or none (R43). -/
def leapArmed (s : State) : Option Bool :=
  let cur := s.fld F.TB_LEAP_CUR
  let nxt := s.fld F.TB_LEAP_NEXT
  if nxt = cur + 1 then some true else if nxt + 1 = cur then some false else none

/-- The second from which NEXT is effective (R43). -/
def leapInstant (ins : Bool) (s : State) : Nat := if ins then leapAt s - 1 else leapAt s

/-- NEXT differs from CUR by 1 and is effective at the present time (R43). (Assumption 52, DEDUCED.) -/
def leapDue (s : State) : Bool :=
  match leapArmed s with
  | some ins => decide (leapInstant ins s ≤ s.tb.sec)
  | none => false

/-- The effective leap count (R43). -/
def leapCount (s : State) : Nat := if leapDue s then s.fld F.TB_LEAP_NEXT else s.fld F.TB_LEAP_CUR

/-- The inserted second: GPST in [TB_LEAP_AT − 1, TB_LEAP_AT) of an insertion, which its taking keeps (R43). -/
def leapSecond (s : State) : Bool :=
  s.tb.leapEnd == some (s.tb.sec + 1) || (leapArmed s == some true && leapDue s && decide (s.tb.sec + 1 = leapAt s))

/-- A view of a GPST value: 0 GPST, 1 GST, 2 BDT, 3 UTC (R42). -/
def viewOf (sel t : Nat) (s : State) : Nat :=
  match sel with
  | 1 => add80 t (toSigned 16 (s.fld F.TB_OFS_SYS_GST_OFS))
  | 2 => add80 t (toSigned 16 (s.fld F.TB_OFS_SYS_BDT_RES) - 14 * 2 ^ 32)
  | 3 => add80 t (toSigned 16 (s.fld F.TB_LEAP_UTC_RES) - (leapCount s : Int) * 2 ^ 32)
  | _ => t

/-- The six words of the TB_NOW group for a reader (R34, R42). -/
def nowWords (r : Reader) (s : State) : List Word :=
  let t := s.now80
  let sel := s.fld (F.TB_VIEW_SEL_SEL.at r)
  let v := viewOf sel t s
  [BitVec.ofNat 32 t, BitVec.ofNat 32 (t / 2 ^ 32), BitVec.ofNat 32 (t / 2 ^ 64),
   BitVec.ofNat 32 v, BitVec.ofNat 32 (v / 2 ^ 32),
   BitVec.ofNat 32 (v / 2 ^ 64 + (if sel = 3 ∧ leapSecond s then 2 ^ 31 else 0))]

/-- When the effective count changes, NEXT goes into CUR and EV_009 is raised (R44). (Assumption 52, DEDUCED.) -/
def leapTake (s : State) : State :=
  if leapDue s then
    let last := if leapArmed s == some true then some (leapAt s) else none
    mirrorNote 4 0 (raise 9 ({ s with tb := { s.tb with leapEnd := last } }.setFld F.TB_LEAP_CUR
      (s.fld F.TB_LEAP_NEXT)))
  else s

/-- The timebase has reached the leap instant. (Assumption 52, DEDUCED.) -/
def execLeapEffective (s : State) : Host.Outcome State Fault Refusal := .next (leapTake s)

/-- The present tick is the first of a whole second of the timebase. (Assumption 51, DEDUCED; assumption 53, DEDUCED.) -/
def wholeSecond (s : State) : Bool :=
  if s.coarse then decide (s.tb.phase < secUnits / 32768) else decide (s.tb.phase < s.tickStep)

/-- Epochs per second of EPOCH_CFG.RATE of a ring (R162). -/
def epochRate (n : Nat) (s : State) : Nat :=
  match s.fld (F.TRK_RING_EPOCH_CFG_RATE n) with
  | 1 => 1 | 2 => 2 | 3 => 5 | 4 => 10 | 5 => 20 | 6 => 50 | _ => 0

/-! Writes (R41) and steps (R38, R39). -/

/-- Who may write the registers of R41: Supervisor and Vault software; the host while HOST_WRITE_EN is 1. (Assumption 49, DEDUCED.) -/
def mayWriteTime (r : Reader) (s : State) : Bool :=
  match r with
  | .host => s.bit F.TB_CTRL_HOST_WRITE_EN
  | .debug => true
  | _ => readerPriv r s != 0

/-- A write of one of the registers of R41. -/
def opTimeWrite (who : Reader) (off : Nat) (v : Word) (s : State) : State :=
  if !mayWriteTime who s then s
  else
    let s' := plainWrite who off v s
    if (off == R.TB_OFS_SYS || off == R.TB_LEAP || off == R.TB_LEAP_AT) && s'.word off != s.word off
    then mirrorNote 4 0 s' else s'

/-- The step amount of the operand registers in units of 2^-44 tick: signed seconds and a fraction (R38). -/
def stepAmount (s : State) : Int :=
  let sec := s.fld F.TB_STEP_CMD_STEP_SEC_HI * 2 ^ 32 + s.fld F.TB_STEP_SEC_SEC_LO
  toSigned 48 sec * secUnits + s.fld F.TB_STEP_FRAC_FRAC * fracUnits

/-- STEP_ARMED shows whether a step is armed. -/
def setArmed (st : Option ArmedStep) (s : State) : State :=
  { s with tb := { s.tb with step := st } }.setBit F.TB_STATUS_STEP_ARMED st.isSome

/-- The first whole second strictly after the end of the present FS tick (R39); a coarse timebase holds its value (R33). -/
def nextSecond (s : State) : Nat := (s.nowU + (if s.coarse then 0 else s.tickStep)) / secUnits + 1

/-- A software arm replaces an announced step, and STEP_PENDING clears; a CANCEL only takes the armed step (R299). (Assumption 89, DEDUCED.) -/
def stepReplaced (arm : Bool) (s : State) : State :=
  let s := { s with disc := { s.disc with pend := if arm then none else s.disc.pend, armed := false } }
  if arm then s.setFld F.TP_STATUS_STEP_PENDING 0 else s

/-- A write of TB_STEP_CMD (R38, R39): the operands, then exactly one command bit; an arm with a reserved SOURCE is
ignored, and so is a write with several command bits. (Assumption 89, DEDUCED.) -/
def opStepCmd (who : Reader) (v : Word) (s : State) : State :=
  let c := v.toNat % 8
  if !mayWriteTime who s then s
  else if c = 0 then plainWrite who R.TB_STEP_CMD v s
  else if c ≠ 1 ∧ c ≠ 2 ∧ c ≠ 4 then s
  else if c ≠ 4 ∧ 5 < bitsOf v.toNat 15 12 then s
  else
    let s := plainWrite who R.TB_STEP_CMD v s
    let src := s.fld F.TB_STEP_CMD_SOURCE
    let s := stepReplaced (c != 4) s
    if c = 4 then setArmed none s
    else if c = 2 then setArmed (some ⟨stepAmount s, src, none, s.tick⟩) s
    else setArmed (some ⟨stepAmount s, src, some (nextSecond s), s.tick⟩) s

def execArmSecond (who : Reader) (v : Word) (s : State) : Host.Outcome State Fault Refusal :=
  .next (gate who R.TB_STEP_CMD true (opStepCmd who v) s)

def execArmNow (who : Reader) (v : Word) (s : State) : Host.Outcome State Fault Refusal :=
  .next (gate who R.TB_STEP_CMD true (opStepCmd who v) s)

def execStepCancel (who : Reader) (v : Word) (s : State) : Host.Outcome State Fault Refusal :=
  .next (gate who R.TB_STEP_CMD true (opStepCmd who v) s)

end Sys2Proof.Machine
end

