-- ==== Sys2Proof/Machine/Budget.lean ====
section
/-! DEFINITION. The start budget of the gated domains (R532 to R535). A domain's number is its bit in PWR_DOMAIN: 0 to 3 the
chains, 4 the beacon, 5 to 14 the rings, 15 to 22 the lane groups. -/
namespace Sys2Proof.Machine

/-- Predicted inrush of a domain's start in mA (R532). -/
def inrush (d : Nat) : Nat := if d < 4 then 150 else if d = 4 then 120 else if d < 15 then 80 else 240

/-- Whether a gated domain is on. -/
def domainOn (d : Nat) (s : State) : Bool := s.maskBit R.PWR_DOMAIN d

/-- Whether a domain's start waits in the queue. -/
def startQueued (d : Nat) (s : State) : Bool := s.budget.queue.any (fun r => r.domain == d)

/-- Whether the budget can grant a domain's start now (R533): no grant in the last 2 µs, and at most 600 mA within 10 µs;
chains, rings and lane groups also wait while the core domains are held (R322). (Assumption 134, DEDUCED.) -/
def canGrant (d : Nat) (s : State) : Bool :=
  let near (n : Nat) := s.budget.grants.filter (fun g => decide (s.tick < g.1 + n))
  (near 240).isEmpty && decide (((near 1200).map (·.2)).sum + inrush d ≤ 600) && !(s.coarse && d != 4)

/-- QUEUED shows the waiting requests. -/
def syncQueued (s : State) : State := s.setFld F.PWR_START_DEFER_QUEUED s.budget.queue.length

/-- A domain start is queued; one that must wait sets DEFER (R533, R535). A domain that is on or queued asks once. (Assumption 166, DEDUCED.) -/
def requestStart (d : Nat) (tt : Option Nat) (s : State) : State :=
  if domainOn d s || startQueued d s then s
  else
    let waits := !s.budget.queue.isEmpty || !canGrant d s
    let s1 := syncQueued { s with budget := { s.budget with queue := s.budget.queue ++ [⟨d, s.tick, tt⟩] } }
    if waits then flagEvent F.PWR_START_DEFER_DEFER 28 s1 else s1

/-- A stop of a domain whose start is queued withdraws the request (R534). (Assumption 29, DEDUCED.) -/
def withdrawStart (d : Nat) (s : State) : State :=
  syncQueued { s with budget := { s.budget with queue := s.budget.queue.filter (fun r => r.domain != d) } }

/-- The domain turns off at once; a queued start is withdrawn (R534). -/
def domainStop (d : Nat) (s : State) : State := (withdrawStart d s).setMaskBit R.PWR_DOMAIN d false

/-- The oldest request is granted: the domain is on, and a deferral is shown (R533, R535). (Assumption 134, DEDUCED.) -/
def grantHead (s : State) : State :=
  match s.budget.queue with
  | [] => s
  | r :: rest =>
    let old := s.budget.grants.filter (fun g => decide (s.tick < g.1 + 1200))
    let s1 := (syncQueued { s with budget := { queue := rest, grants := (s.tick, inrush r.domain) :: old } }).setMaskBit
      R.PWR_DOMAIN r.domain true
    let us := satNat 0xFFFF ((s.tick - r.tick) / 120)
    let s2 := if s1.fld F.PWR_START_DEFER_MAX_US < us then s1.setFld F.PWR_START_DEFER_MAX_US us else s1
    if r.tick < s.tick then flagEvent F.PWR_START_DEFER_DEFER 28 s2 else s2

end Sys2Proof.Machine
end

