-- ==== Sys2Proof/Machine/Decibel.lean ====
section
/-! DEFINITION. Decibels by exact integer arithmetic: comparing ratios with powers of ten, and 64-bit fixed-point powers of
ten for the jamming indicator (R102, R112). -/
namespace Sys2Proof.Machine

/-- The largest `x` below `2^k + x0` with `x ^ den ≤ target`, found bit by bit from bit `k - 1` down. -/
def rootBits (den target : Nat) : Nat → Nat → Nat
  | 0, x => x
  | k + 1, x => rootBits den target k (if (x + 2 ^ k) ^ den ≤ target then x + 2 ^ k else x)

/-- floor(2^64 × 10^(n / 200)) for an integer n from -800 to 1800: 10^((n+800)/200) / 10^4, the power as the 200th root
of 2^14200 × 10^(n+800), which carries 71 fraction bits. -/
def tenPow200 (n : Int) : Nat :=
  rootBits 200 (2 ^ 14200 * 10 ^ (n + 800).toNat) 120 0 / (2 ^ 7 * 10000)

/-- Whether 40·log10(num / den) is at least k - 1/2, for k ≥ 1: the ratio is at least 10^((2k-1)/80). -/
def ratioStep (num den k : Nat) : Bool := decide (den ^ 80 * 10 ^ (2 * k - 1) ≤ num ^ 80)

/-- How many of the first `m` half-decibel steps the ratio num / den reaches, rounded to the nearest step. (Assumption 59, DEDUCED.) -/
def halfDbSteps (num den : Nat) : Nat → Nat
  | 0 => 0
  | m + 1 => if ratioStep num den (m + 1) then m + 1 else halfDbSteps num den m

/-- Whether 20·log10(num / den) lies within ±1.0 dB. -/
def within1Db (num den : Nat) : Bool := decide (num ^ 20 ≤ 10 * den ^ 20) && decide (den ^ 20 ≤ 10 * num ^ 20)

/-- The largest number with `p`, below `x + 2^k`, where `p` holds up to some number and not after: bit by bit. -/
def lastTrue (p : Nat → Bool) : Nat → Nat → Nat
  | 0, x => x
  | k + 1, x => lastTrue p k (if p (x + 2 ^ k) then x + 2 ^ k else x)

/-- J/N in 0.1 dB (R112), rounded, held within -200 to 900, from a power ratio in 2^-64: the largest j with
ratio ≥ 1 + 10^((2j - 1) / 200). (Assumption 60, DEDUCED.) -/
def jnOf (ratio64 : Nat) : Int :=
  (lastTrue (fun k => decide (k ≤ 1100) && decide (2 ^ 64 + tenPow200 (2 * ((k : Int) - 200) - 1) ≤ ratio64)) 11 0 : Int) - 200

/-- 1000·log10(num / den), rounded to the nearest whole number and held within 0 to 65,535: C/N0 in 0.01 dB-Hz (R195, R249). -/
def centiDb (num den : Nat) : Nat :=
  lastTrue (fun n => decide (10 ^ (2 * n - 1) * den ^ 2000 ≤ num ^ 2000)) 16 0

end Sys2Proof.Machine
end

