-- ==== Sys2Proof/Machine/Ifc.lean ====
section
/-! DEFINITION. Interference conditioning and signal trust (chapter 03): gain control, pulse blanker, notches, spectral
monitor, jamming indicator and the false-signal monitor. -/
namespace Sys2Proof.Machine

/-- A chain's conditioning path. -/
def ifcCh (s : State) (x : Nat) : IfcChain := Sparse.get (fun _ => {}) s.ifc x

/-- A chain's conditioning path replaced. -/
def setIfcCh (s : State) (x : Nat) (c : IfcChain) : State := { s with ifc := Sparse.put (fun _ => {}) s.ifc x c }

/-- The active profile of the sample that the present output word of a chain stands for, 24 ticks ago (R99, R124). -/
def wordProfile (x : Nat) (s : State) : Nat := (ifcCh s x).profs.getD 24 (s.fld (F.GRF_CH_STATUS_PROFILE_ACT x))

/-! Gain control (R101 to R103). -/

/-- The remembered gain of a profile. -/
def pgainFld (x p : Nat) : Fld := ⟨R.IFC_CH_PGAIN x, 8 * p + 5, 8 * p⟩

/-- GAIN after an AGC window: mean level magnitude num / den, clip fraction above 1/16 or not (R102, R103). (Assumption 59, DEDUCED.) -/
def agcGain (x num den : Nat) (clip : Bool) (s : State) : Nat :=
  let g := s.fld (F.IFC_CH_AGC_STAT_GAIN x)
  let m := s.fld (F.IFC_CH_AGC_CFG_MAX_STEP x)
  let t := s.fld (F.IFC_CH_AGC_CFG_TARGET x)
  match s.fld (F.IFC_CH_AGC_CFG_MODE x) with
  | 0 =>
    if clip then g - m
    else if within1Db (t * den) num then g
    else if num < t * den then satNat 63 (g + halfDbSteps (t * den) num m)
    else g - halfDbSteps num (t * den) m
  | 2 => s.fld (F.IFC_CH_AGC_CFG_MAN_GAIN x)
  | _ => g

/-- A run of updates that meet a condition, counted to 8. -/
def runCount (n : Nat) (b : Bool) : Nat := if b then satNat 8 (n + 1) else 0

/-- The jamming indicator's update at the end of a window without clipping (R112, R113). (Assumption 60, DEDUCED.) -/
def jamUpdate (x num den : Nat) (s : State) : State :=
  let t := s.fld (F.IFC_CH_AGC_CFG_TARGET x)
  let d : Int := (s.fld (F.IFC_CH_JAM_CFG_GAIN_REF x) : Int) - (s.fld (F.IFC_CH_AGC_STAT_GAIN x) : Int)
  let jn := jnOf (tenPow200 (10 * d) * num ^ 2 / (den ^ 2 * t ^ 2))
  let warn : Int := s.fld (F.IFC_CH_JAM_CFG_WARN x)
  let alarm : Int := s.fld (F.IFC_CH_JAM_CFG_ALARM x)
  let hyst : Int := s.fld (F.IFC_CH_JAM_CFG_HYST x)
  let c := ifcCh s x
  let c := { c with warnUp := runCount c.warnUp (decide (warn ≤ jn)), alarmUp := runCount c.alarmUp (decide (alarm ≤ jn)),
                    warnDown := runCount c.warnDown (decide (jn < warn - hyst)),
                    alarmDown := runCount c.alarmDown (decide (jn < alarm - hyst)) }
  let old := s.fld (F.IFC_CH_JAM_STAT_STATE x)
  let up := if c.alarmUp = 8 then 2 else if c.warnUp = 8 then 1 else 0
  let stay := if c.alarmDown < 8 then 2 else if c.warnDown < 8 then 1 else 0
  let new := max up (min old stay)
  let c := if new = 0 then c else { c with learnBad := true }
  let s1 := (setIfcCh s x c).setFld (F.IFC_CH_JAM_STAT_JN x) (ofSigned 11 jn)
  if new = old then s1 else raise (40 + x) (s1.setFld (F.IFC_CH_JAM_STAT_STATE x) new)

/-- LEARN gathers the gain of a window with valid samples (R114). (Assumption 61, DEDUCED.) -/
def learnGather (x : Nat) (s : State) : State :=
  if s.bit (F.IFC_CH_JAM_STAT_LEARN_BUSY x) then
    let c := ifcCh s x
    setIfcCh s x { c with learnSum := c.learnSum + s.fld (F.IFC_CH_AGC_STAT_GAIN x), learnCount := c.learnCount + 1 }
  else s

/-- An AGC window's figures act (R101, R102, R112): its usable samples, the sum of |I level| + |Q level| over them, and how
many of them clipped. (Assumption 59, DEDUCED.) (Assumption 169, DEDUCED.) -/
def agcWindow (x u magSum clipped : Nat) (s : State) : State :=
  if u < 1024 then s.setFld (F.IFC_CH_AGC_STAT_NO_DATA x) 1
  else
    let clip := decide (u < 16 * clipped)
    let s := learnGather x (s.setFld (F.IFC_CH_AGC_STAT_NO_DATA x) 0)
    let s := (s.setBit (F.IFC_CH_AGC_STAT_CLIP x) clip).setFld (F.IFC_CH_AGC_STAT_MEAN x) (8 * magSum / (2 * u))
    let s := if clip then s else jamUpdate x magSum (2 * u) s
    s.setFld (F.IFC_CH_AGC_STAT_GAIN x) (agcGain x magSum (2 * u) clip s)

/-- The end of an AGC window: what its 4,096 ticks gathered acts once (R101). (Assumption 59, DEDUCED; assumption 61, DEDUCED.) -/
def execAgcWindowEnd (x : Fin 4) (_usable _magSum _clipped : Formed) (s : State) : Host.Outcome State Fault Refusal :=
  let c := ifcCh s x
  .next (match c.agcEnd with
    | some (u, m, n) => agcWindow x u m n (setIfcCh s x { c with agcEnd := none })
    | none => s)

/-! Pulse blanker (R105). -/

/-- The end of a 1 ms interval: COUNT, and suspension by the interval's blanked share. A further interval above the ratio
while SUSPENDED continues it without another event. (Assumption 62, DEDUCED.) (Assumption 169, DEDUCED.) -/
def blankInterval (x count : Nat) (s : State) : State :=
  let ratio := s.fld (F.IFC_CH_BLANK_CFG_SAT_RATIO x)
  let above := decide (ratio * 120000 < count * 256) && ratio != 0
  let below := decide (count * 256 < ratio * 120000) || ratio == 0
  let s := s.setFld (F.IFC_CH_BLANK_STAT_COUNT x) count
  if above && !s.bit (F.IFC_CH_BLANK_STAT_SUSPENDED x) then
    raise 45 ((s.setFld (F.IFC_CH_BLANK_STAT_SUSPENDED x) 1).setFld (F.IFC_CH_BLANK_STAT_SATURATED x) 1)
  else if below then s.setFld (F.IFC_CH_BLANK_STAT_SUSPENDED x) 0
  else s

/-- The end of a 1 ms interval: what it gathered acts once (R105). (Assumption 62, DEDUCED.) -/
def execBlankIntervalEnd (x : Fin 4) (_count : Formed) (s : State) : Host.Outcome State Fault Refusal :=
  let c := ifcCh s x
  .next (match c.blankEnd with
    | some n => blankInterval x n (setIfcCh s x { c with blankEnd := none })
    | none => s)

/-! Notch filters (R106 to R109). -/

/-- A notch releases: ACTIVE clears (R108). -/
def notchFree (x n : Nat) (s : State) : State :=
  let c := ifcCh s x
  (setIfcCh s x { c with weakSince := Sparse.put (fun _ => none) c.weakSince n none
                         notch := Sparse.put (fun _ => (0, 0)) c.notch n (0, 0) }).setFld (F.IFC_CH_NOTCH_CTRL_ACTIVE x n) 0

/-- The first `n` notches treated one by one. -/
def eachNotch (f : Nat → State → State) : Nat → State → State
  | 0, s => s
  | n + 1, s => f n (eachNotch f n s)

/-- The notches of a chain whose active profile becomes `p`: adaptive ones release, fixed ones follow it (R108, R109). -/
def notchProfile (x p : Nat) (s : State) : State :=
  eachNotch (fun n s =>
    match s.fld (F.IFC_CH_NOTCH_CTRL_MODE x n) with
    | 1 => if s.bit (F.IFC_CH_NOTCH_CTRL_ACTIVE x n) then notchFree x n s else s
    | 2 => s.setBit (F.IFC_CH_NOTCH_CTRL_ACTIVE x n) (s.fld (F.IFC_CH_NOTCH_CTRL_PROF x n) == p)
    | _ => s) 8 s

/-- A write of a notch's control word: leaving MODE 1 releases, MODE 2 is ACTIVE by its profile (R108, R109). -/
def opNotchCtrlWrite (who : Reader) (x n : Nat) (v : Word) (s : State) : State :=
  let old := s.fld (F.IFC_CH_NOTCH_CTRL_MODE x n)
  let s := plainWrite who (R.IFC_CH_NOTCH_CTRL x n) v s
  match s.fld (F.IFC_CH_NOTCH_CTRL_MODE x n) with
  | 1 => if old = 1 then s else notchFree x n s
  | 2 => s.setBit (F.IFC_CH_NOTCH_CTRL_ACTIVE x n)
      (s.fld (F.IFC_CH_NOTCH_CTRL_PROF x n) == s.fld (F.GRF_CH_STATUS_PROFILE_ACT x))
  | _ => notchFree x n s

/-- A write of a notch's FREQ is ignored while MODE is 1 (R109). -/
def opNotchFreqWrite (who : Reader) (x n : Nat) (v : Word) (s : State) : State :=
  if s.fld (F.IFC_CH_NOTCH_CTRL_MODE x n) = 1 then s else plainWrite who (R.IFC_CH_NOTCH_FREQ x n) v s

/-- The active profile of a chain becomes `p` (R103): the gain is remembered and the new one loaded, notches follow. -/
def ifcProfile (x p : Nat) (s : State) : State :=
  let old := s.fld (F.GRF_CH_STATUS_PROFILE_ACT x)
  if old = p then s
  else
    let s := s.setFld (pgainFld x old) (s.fld (F.IFC_CH_AGC_STAT_GAIN x))
    let s := s.setFld (F.IFC_CH_AGC_STAT_GAIN x) (s.fld (pgainFld x p))
    notchProfile x p (s.setFld (F.GRF_CH_STATUS_PROFILE_ACT x) p)

/-- Twice the median power of a spectrum: the sum of its two middle bins. (Assumption 63, DEDUCED.) -/
def median2 (bins : List Nat) : Nat :=
  let b := orderBy (fun p => p) bins
  b.getD (b.length / 2 - 1) 0 + b.getD (b.length / 2) 0

/-- The nearest bin of a notch frequency, from its signed value (R106, R110); above the last bin, which ends half a bin below
60 MHz, it is 2,048, which holds no power. (Assumption 63, DEDUCED.) -/
def binOfFreq (f : BitVec 32) : Nat := ((f.toInt + 2 ^ 20) / 2 ^ 21 + 1024).toNat

/-- The centre frequency of a bin as a notch's FREQ: one bin is 2^21 of its LSB. -/
def freqOfBin (k : Nat) : BitVec 32 := BitVec.ofInt 32 (((k : Int) - 1024) * 2 ^ 21)

/-- Whether a signed notch frequency lies within ±4 bins of another (R108). -/
def within4Bins (f g : BitVec 32) : Bool := decide ((f.toInt - g.toInt).natAbs ≤ 4 * 2 ^ 21)

/-- The candidates of a spectrum, bin and power: local maxima at least DETECT_TH (LSB 0.5 dB) above the median (R107). (Assumption 63, DEDUCED.) -/
def notchCandidates (bins : List Nat) (th : Nat) : List (Nat × Nat) :=
  let m2 := median2 bins
  (List.range bins.length).filterMap (fun k =>
    let p := bins.getD k 0
    let l := if k = 0 then 0 else bins.getD (k - 1) 0
    if l ≤ p && bins.getD (k + 1) 0 ≤ p && decide (m2 + 100 * th ≤ 2 * p) then some (k, p) else none)

/-- Whether an ACTIVE notch serves a bin: within ±2 bins (R107). -/
def binServed (x : Nat) (s : State) (k : Nat) : Bool :=
  (List.range 8).any (fun n => s.bit (F.IFC_CH_NOTCH_CTRL_ACTIVE x n) &&
    decide ((((binOfFreq (s.word (R.IFC_CH_NOTCH_FREQ x n)) : Nat) : Int) - (k : Int)).natAbs ≤ 2))

/-- The strongest of a list of bins and powers, the lowest bin first among equals. (Assumption 63, DEDUCED.) -/
def strongest : List (Nat × Nat) → Option (Nat × Nat)
  | [] => none
  | c :: cs =>
    match strongest cs with
    | none => some c
    | some d => if d.2 ≤ c.2 then some c else some d

/-- An average's effect on an ACTIVE adaptive notch: it follows its carrier, LEVEL shows its centre power above the
median, whole half decibels of it, and when its power fell below median + DETECT_TH − 6 dB is kept, in valid samples (R100, R108), also while
AUTO is 0 (R107). A fixed notch shows no level of its own, and a released one keeps its last. (Assumption 63, DEDUCED.) -/
def notchTrack (x : Nat) (bins : List Nat) (carriers : List (Fin 8 × BitVec 32)) (n : Nat) (s : State) : State :=
  if s.fld (F.IFC_CH_NOTCH_CTRL_MODE x n) = 1 && s.bit (F.IFC_CH_NOTCH_CTRL_ACTIVE x n) then
    let c := ifcCh s x
    let f := match carriers.find? (fun e => e.1.val == n) with
      | some e => if within4Bins e.2 (Sparse.get (fun _ => 0) c.alloc n) then e.2 else s.word (R.IFC_CH_NOTCH_FREQ x n)
      | none => s.word (R.IFC_CH_NOTCH_FREQ x n)
    let p := bins.getD (binOfFreq f) 0
    let m2 := median2 bins
    let th := s.fld (F.IFC_CH_NOTCH_CFG_DETECT_TH x)
    let weak := decide (2 * p + 1200 < m2 + 100 * th)
    let since := Sparse.get (fun _ => none) c.weakSince n
    let c := { c with weakSince := Sparse.put (fun _ => none) c.weakSince n
                        (if weak then some (since.getD c.validTicks) else none) }
    ((setIfcCh s x c).setWord (R.IFC_CH_NOTCH_FREQ x n) f).setFld (F.IFC_CH_NOTCH_CTRL_LEVEL x n)
      (satNat 255 ((2 * p - m2) / 100))
  else s

/-- A detector average acts (R107): active notches follow their carriers, and the strongest unserved candidate gets the
lowest free adaptive notch, or NOTCH_FULL is set. -/
def notchDetect (x : Nat) (bins : List Nat) (carriers : List (Fin 8 × BitVec 32)) (s : State) : State :=
  let s := eachNotch (notchTrack x bins carriers) 8 s
  (
    if !s.bit (F.IFC_CH_NOTCH_CFG_AUTO x) then s
    else
      let cs := (notchCandidates bins (s.fld (F.IFC_CH_NOTCH_CFG_DETECT_TH x))).filter (fun c => !binServed x s c.1)
      match strongest cs with
      | none => s
      | some (k, p) =>
        match (List.range 8).find? (fun n => s.fld (F.IFC_CH_NOTCH_CTRL_MODE x n) == 1 &&
            !s.bit (F.IFC_CH_NOTCH_CTRL_ACTIVE x n)) with
        | none => flagEvent (F.IFC_CH_NOTCH_CFG_NOTCH_FULL x) 44 s
        | some n =>
          let c := ifcCh s x
          let c := { c with alloc := Sparse.put (fun _ => 0) c.alloc n (freqOfBin k),
                            weakSince := Sparse.put (fun _ => none) c.weakSince n none }
          (((setIfcCh s x c).setWord (R.IFC_CH_NOTCH_FREQ x n) (freqOfBin k)).setFld
            (F.IFC_CH_NOTCH_CTRL_LEVEL x n) (satNat 255 ((2 * p - median2 bins) / 100))).setFld
            (F.IFC_CH_NOTCH_CTRL_ACTIVE x n) 1)

/-- The detector's 64-frame average is complete: it acts once (R107), when the input is VALID again where it is not (R100); the
carriers' fine frequencies are given. (Assumption 169, DEDUCED.) -/
def execNotchAllocate (x : Fin 4) (_spectrum : Formed) (carriers : List (Fin 8 × BitVec 32)) (s : State) :
    Host.Outcome State Fault Refusal :=
  let c := ifcCh s x
  .next (match c.detEnd with
    | some b => if c.valid then notchDetect x (b.map (·.toNat)) carriers (setIfcCh s x { c with detEnd := none }) else s
    | none => s)

/-- An adaptive notch is looked at for release (R108): its carrier left ±4 bins, or its power has been weak for
RELEASE_T × 10 ms of valid samples; while VALID is 0 its adaptation pauses (R100). (Assumption 169, DEDUCED.) -/
def execNotchRelease (x : Fin 4) (n : Fin 8) (carrier : Option (BitVec 32)) (s : State) :
    Host.Outcome State Fault Refusal :=
  let c := ifcCh s x
  let left := match carrier with
    | some f => !within4Bins f (Sparse.get (fun _ => 0) c.alloc n)
    | none => false
  let weak := match Sparse.get (fun _ => none) c.weakSince n with
    | some t => decide (t + s.fld (F.IFC_CH_NOTCH_CFG_RELEASE_T x) * 1200000 ≤ c.validTicks)
    | none => false
  .next (if c.valid && s.fld (F.IFC_CH_NOTCH_CTRL_MODE x n) = 1 && s.bit (F.IFC_CH_NOTCH_CTRL_ACTIVE x n) && (left || weak)
    then notchFree x n s else s)

/-! Spectral monitor (R110, R111). -/

/-- Bins written in pairs from pair `j` on. -/
def putBins (x : Nat) : Nat → List (BitVec 16) → State → State
  | j, a :: b :: rest, s => putBins x (j + 1) rest (s.setWord (R.IFC_CH_SPEC_BIN x j) (b ++ a))
  | _, _, s => s

/-- A completed spectrum becomes the readable bank and SEQ counts, unless the monitor is frozen or off (R111). -/
def spectrumTaken (x : Nat) (bins : List (BitVec 16)) (s : State) : State :=
  if s.bit (F.IFC_CH_SPEC_CTRL_EN x) && !s.bit (F.IFC_CH_SPEC_CTRL_FREEZE x) then
    (putBins x 0 (bins.take 2048) s).setFld (F.IFC_CH_SPEC_CTRL_SEQ x) (s.fld (F.IFC_CH_SPEC_CTRL_SEQ x) + 1)
  else s

/-- The monitor's average is complete: it is taken once (R111). -/
def execSpectrumComplete (x : Fin 4) (_bins : Formed) (s : State) : Host.Outcome State Fault Refusal :=
  let c := ifcCh s x
  .next (match c.specEnd with
    | some b => spectrumTaken x b (setIfcCh s x { c with specEnd := none })
    | none => s)

/-! Learning the quiet-sky gain (R114). -/

/-- LEARN starts a second of averaging. (Assumption 61, DEDUCED.) -/
def opLearn (x : Nat) (s : State) : State :=
  let c := ifcCh s x
  (setIfcCh s x { c with learnSum := 0, learnCount := 0, learnBad := s.fld (F.IFC_CH_JAM_STAT_STATE x) != 0 }).setFld
    (F.IFC_CH_JAM_STAT_LEARN_BUSY x) 1

def execIfcLearn (who : Reader) (x : Fin 4) (s : State) : Host.Outcome State Fault Refusal :=
  .next (gate who (R.IFC_CH_JAM_STAT x) true (opLearn x) s)

/-- The second ends: GAIN_REF takes the rounded mean, unless STATE left CLEAR or no window had samples. (Assumption 61, DEDUCED.) -/
def execLearnDone (x : Fin 4) (s : State) : Host.Outcome State Fault Refusal :=
  let c := ifcCh s x
  .next (
    if s.bit (F.IFC_CH_JAM_STAT_LEARN_BUSY x) then
      let s := s.setFld (F.IFC_CH_JAM_STAT_LEARN_BUSY x) 0
      if c.learnBad || c.learnCount == 0 then s
      else s.setFld (F.IFC_CH_JAM_CFG_GAIN_REF x) ((2 * c.learnSum + c.learnCount) / (2 * c.learnCount))
    else s)

/-! False-signal monitor (R115 to R120). -/

/-- A satellite's verdict: 0 UNVERIFIED, 1 TRUSTED, 2 SUSPECT. -/
def verdict (n : Nat) (s : State) : Nat := s.fld (F.IFC_FSM_SAT_VERDICT n)

/-- A SUSPECT satellite is excluded under GATE_MODE 1 and 2 (R119). -/
def satExcluded (n : Nat) (s : State) : Bool :=
  (s.fld F.IFC_FSM_CFG_GATE_MODE == 1 || s.fld F.IFC_FSM_CFG_GATE_MODE == 2) && verdict n s == 2

/-- Under GATE_MODE 2 ALERT makes the time discipline treat all signals as lost (R119). -/
def signalsGated (s : State) : Bool := s.fld F.IFC_FSM_CFG_GATE_MODE == 2 && s.bit F.IFC_FSM_STAT_ALERT

/-- How many of the first `n` satellites hold a verdict. -/
def verdictCount (v : Nat) (s : State) : Nat → Nat
  | 0 => 0
  | n + 1 => verdictCount v s n + (if verdict n s = v then 1 else 0)

/-- The counts of SUSPECT and TRUSTED satellites shown. -/
def syncVerdicts (s : State) : State :=
  (s.setFld F.IFC_FSM_STAT_SUSPECT_CNT (verdictCount 2 s 221)).setFld F.IFC_FSM_STAT_TRUSTED_CNT (verdictCount 1 s 221)

/-- Verdicts have changed: the counts follow, and EV_046 is raised once per epoch (R118). -/
def verdictsChanged (s : State) : State :=
  let s := syncVerdicts s
  if s.fsm.satEvent then s else raise 46 { s with fsm := { s.fsm with satEvent := true } }

/-- FS ticks in a second. -/
abbrev secTicks : Nat := 120000000

/-- A satellite's last failure. -/
def Fsm.fail (m : Fsm) (n : Nat) : Option Nat := Sparse.get (fun _ => none) m.failAt n
/-- A satellite's last OSNMA OK. -/
def Fsm.ok (m : Fsm) (n : Nat) : Option Nat := Sparse.get (fun _ => none) m.okAt n

/-- Seconds since a satellite's last OSNMA OK, saturating at 255 (OSNMA_SEC). -/
def osnmaSec (n : Nat) (s : State) : Nat :=
  match s.fsm.ok n with
  | none => 255
  | some t => satNat 255 ((s.tick - t) / secTicks)

/-- Satellites 0 to `n - 1` treated one by one. -/
def eachSat (f : Nat → State → State) : Nat → State → State
  | 0, s => s
  | n + 1, s => f n (eachSat f n s)

/-- OSNMA verdicts taken at an epoch (R414): OK or FAIL recorded, an OK stamped. (Assumption 64, DEDUCED.) -/
def takeOsnma (s : State) : State :=
  let s1 := s.fsm.osnma.foldl (fun s e =>
    let s := s.setFld (F.IFC_FSM_SAT_OSNMA e.1) (if e.2 then 1 else 2)
    if e.2 then { s with fsm := { s.fsm with okAt := Sparse.put (fun _ => none) s.fsm.okAt e.1 (some s.tick) } } else s) s
  { s1 with fsm := { s1.fsm with osnma := [] } }

/-- What the tracking channels and the orbit unit give the false-signal monitor of one satellite at an epoch (R115): the
chains its signals are tracked on, each signal's measured minus predicted Doppler in mHz, and the code-range difference
of its two bands in mm. -/
structure SatObs where
  sat : Nat
  chains : Nat
  dop : List (Nat × Int)
  xb : Option Int
deriving DecidableEq, Repr

/-- What one measurement epoch gives the false-signal monitor (R115): the C/N0 of the signals tracked on each chain in
0.01 dB-Hz, the satellites, and the solved clock drift in units of 10^-12. -/
structure FsmObs where
  cn0 : List (Nat × Nat)
  sats : List SatObs
  drift : Option Int
deriving DecidableEq, Repr

/-- Whether a chain fails PWR (R115): JN ≥ PWR_JN_TH, and the median C/N0 of at least four signals ≥ PWR_CN0_TH. -/
def pwrFails (obs : FsmObs) (x : Nat) (s : State) : Bool :=
  let c := (obs.cn0.filter (fun e => e.1 == x)).map (fun e => e.2)
  let b := orderBy (fun p => p) c
  let m2 := b.getD ((b.length - 1) / 2) 0 + b.getD (b.length / 2) 0
  decide (4 ≤ c.length) && decide (200 * s.fld F.IFC_FSM_TH_PWR_CN0_TH ≤ m2) &&
    decide (toSigned 8 (s.fld F.IFC_FSM_TH_PWR_JN_TH) ≤ toSigned 11 (s.fld (F.IFC_CH_JAM_STAT_JN x)))

/-- The signals of an epoch whose Doppler is off by more than DOP_TH (LSB 0.5 Hz). -/
def dopOver (obs : FsmObs) (s : State) : List (Nat × Nat) :=
  obs.sats.flatMap (fun o => (o.dop.filter (fun e =>
    decide (500 * s.fld F.IFC_FSM_TH_DOP_TH < e.2.natAbs))).map (fun e => (o.sat, e.1)))

/-- Whether CLK fails (R115): the drift changed by more than CLK_TH × 2 ppb since the epoch before; not evaluated while
REF_LOST is 1 or within 2 s after it clears. -/
def clkFails (obs : FsmObs) (s : State) : Bool :=
  match s.fsm.drift, obs.drift with
  | some a, some b =>
    !s.refLost &&
      (match s.fsm.refBackAt with | some t => decide (t + 2 * secTicks ≤ s.tick) | none => true) &&
      decide (2000 * s.fld F.IFC_FSM_TH_CLK_TH < (b - a).natAbs)
  | _, _ => false

/-- One satellite's checks and verdict at an epoch (R115 to R117). (Assumption 169, DEDUCED.) -/
def fsmSat (obs : FsmObs) (pwrMask : Nat) (excess : List (Nat × Nat)) (n : Nat) (s : State) : State :=
  let os := obs.sats.filter (fun o => o.sat == n)
  let pwr := s.bit F.IFC_FSM_CFG_EN_PWR && os.any (fun o => o.chains &&& pwrMask != 0)
  let dop := s.bit F.IFC_FSM_CFG_EN_DOP && excess.any (fun e => e.1 == n && s.fsm.dopOver.contains e)
  let xb := s.bit F.IFC_FSM_CFG_EN_XB && os.any (fun o =>
    match o.xb with | some d => decide (2000 * s.fld F.IFC_FSM_TH_XB_TH < d.natAbs) | none => false)
  let osn := s.bit F.IFC_FSM_CFG_EN_OSNMA && s.bit F.IFC_FSM_CFG_ROOT_OK && s.fld (F.IFC_FSM_SAT_OSNMA n) == 2
  let failed := pwr || dop || xb || osn
  let failAt := if failed then some s.tick else
    match s.fsm.fail n with
    | some t => if s.tick < t + s.fld F.IFC_FSM_CFG_CLEAR_T * secTicks then some t else none
    | none => none
  let trusted := s.bit F.IFC_FSM_CFG_ROOT_OK &&
    (match s.fsm.ok n with
     | some t => decide (s.tick < t + s.fld F.IFC_FSM_CFG_OSNMA_AGE * secTicks)
     | none => false)
  let s := { s with fsm := { s.fsm with failAt := Sparse.put (fun _ => none) s.fsm.failAt n failAt } }
  (((s.setBit (F.IFC_FSM_SAT_PWR n) pwr).setBit (F.IFC_FSM_SAT_DOP n) dop).setBit (F.IFC_FSM_SAT_XB n) xb).setFld
    (F.IFC_FSM_SAT_VERDICT n) (if failAt.isSome then 2 else if trusted then 1 else 0)

/-- ALERT (R118): CLK fails or ALERT_N satellites are SUSPECT, until CLEAR_T seconds without either. (Assumption 64, DEDUCED.) -/
def fsmAlert (clk : Bool) (s : State) : State :=
  let n := s.fld F.IFC_FSM_CFG_ALERT_N
  let holds := clk || (n != 0 && decide (n ≤ s.fld F.IFC_FSM_STAT_SUSPECT_CNT))
  let at_ := if holds then some s.tick else
    match s.fsm.alertAt with
    | some t => if s.tick < t + s.fld F.IFC_FSM_CFG_CLEAR_T * secTicks then some t else none
    | none => none
  let old := s.bit F.IFC_FSM_STAT_ALERT
  let s := ({ s with fsm := { s.fsm with alertAt := at_ } }.setBit F.IFC_FSM_STAT_CLOCK clk).setBit
    F.IFC_FSM_STAT_ALERT at_.isSome
  if old == at_.isSome then s else raise 47 s

/-- CLEAR of a satellite (R120); reserved indices are ignored. -/
def opFsmClear (n : Nat) (s : State) : State :=
  if 221 ≤ n then s
  else
    let old := verdict n s
    let s := { s with fsm := { s.fsm with failAt := Sparse.put (fun _ => none) s.fsm.failAt n none } }
    let s := if s.fld (F.IFC_FSM_SAT_OSNMA n) = 2 then s.setFld (F.IFC_FSM_SAT_OSNMA n) 0 else s
    let s := (((s.setFld (F.IFC_FSM_SAT_VERDICT n) 0).setFld (F.IFC_FSM_SAT_PWR n) 0).setFld
      (F.IFC_FSM_SAT_XB n) 0).setFld (F.IFC_FSM_SAT_DOP n) 0
    if old = 0 then s else verdictsChanged s

def execFsmClear (who : Reader) (n : BitVec 8) (s : State) : Host.Outcome State Fault Refusal :=
  .next (gate who (R.IFC_FSM_SAT n.toNat) true (opFsmClear n.toNat) s)

/-- A TRUSTED verdict becomes UNVERIFIED. -/
def untrust (n : Nat) (s : State) : State :=
  if verdict n s = 1 then s.setFld (F.IFC_FSM_SAT_VERDICT n) 0 else s

/-- A write of the monitor's configuration; GATE_MODE 3 is ignored, and clearing ROOT_OK ends every TRUSTED (R116,
R119). -/
def opFsmCfgWrite (who : Reader) (v : Word) (s : State) : State :=
  let gm := s.fld F.IFC_FSM_CFG_GATE_MODE
  let s := plainWrite who R.IFC_FSM_CFG v s
  let s := if s.fld F.IFC_FSM_CFG_GATE_MODE = 3 then s.setFld F.IFC_FSM_CFG_GATE_MODE gm else s
  if s.bit F.IFC_FSM_CFG_ROOT_OK || verdictCount 1 s 221 == 0 then s
  else verdictsChanged (eachSat untrust 221 s)

def execRootOkWrite (who : Reader) (v : Word) (s : State) : Host.Outcome State Fault Refusal :=
  .next (gate who R.IFC_FSM_CFG true (opFsmCfgWrite who v) s)

end Sys2Proof.Machine
end

