-- ==== Sys2Proof/Machine/Gnss.lean ====
section
/-! DEFINITION. GNSS radio chains (chapter 02): chain states and transitions, calibration, burst windows and hops, antenna
bias and supervision. -/
namespace Sys2Proof.Machine

/-- A chain's state outside its registers. -/
def chain (s : State) (x : Nat) : Chain := Sparse.get (fun _ => {}) s.chains x

/-- A chain's state replaced. -/
def setChain (s : State) (x : Nat) (c : Chain) : State := { s with chains := Sparse.put (fun _ => {}) s.chains x c }

/-- STATUS.STATE of a chain (R75). -/
def chainState (x : Nat) (s : State) : Nat := s.fld (F.GRF_CH_STATUS_STATE x)

/-- The device's power state: 0 RUN, 1 LEAN, 2 BURST (R536). -/
def pstate (s : State) : Nat := s.fld F.PWR_STAT_STATE

/-! Antenna bias (R94 to R96). -/

/-- Whether BIAS_MODE calls for the supply (R94). -/
def biasWanted (x : Nat) (s : State) : Bool :=
  match s.fld (F.GRF_CH_ANT_CFG_BIAS_MODE x) with
  | 1 => true
  | 2 => decide (2 ≤ chainState x s)
  | _ => false

/-- ANT_STAT.STATE changes: EV_032 + x (R95). (Assumption 58, DEDUCED.) -/
def setAntState (x st : Nat) (s : State) : State :=
  if s.fld (F.GRF_CH_ANT_STAT_STATE x) = st then s
  else raise (32 + x) (s.setFld (F.GRF_CH_ANT_STAT_STATE x) st)

/-- The bias switch follows BIAS_MODE and the chain state; a short keeps it open (R94, R95). Opened by them it leaves OK,
OPEN and SHORT_WAIT for OFF. (Assumption 145, DEDUCED.) -/
def biasUpdate (x : Nat) (s : State) : State :=
  let st := s.fld (F.GRF_CH_ANT_STAT_STATE x)
  let c := chain s x
  if biasWanted x s then
    if st = 3 ∨ st = 4 then s else setChain s x { c with biasOn := true }
  else
    let s := setChain s x { c with biasOn := false }
    if st = 4 then s else setAntState x 0 s

/-- Two samples at or above SHORT_TH (LSB 0.5 mA; samples LSB 0.1 mA) open the switch (R95, R96). Without a retry, by
RETRY_MAX 0 or RETRY_INT 0, the short latches at once. (Assumption 145, DEDUCED.) -/
def execAntShort (x : Fin 4) (first second : BitVec 10) (s : State) : Host.Outcome State Fault Refusal :=
  let c := chain s x
  let th := 5 * s.fld (F.GRF_CH_ANT_CFG_SHORT_TH x)
  let s := s.setFld (F.GRF_CH_ANT_STAT_CURRENT x) second.toNat
  .next (
    if c.biasOn && decide (th ≤ first.toNat) && decide (th ≤ second.toNat) then
      let rmax := s.fld (F.GRF_CH_ANT_CFG_RETRY_MAX x)
      let latch := rmax == 0 || s.fld (F.GRF_CH_ANT_CFG_RETRY_INT x) == 0 ||
        s.fld (F.GRF_CH_ANT_STAT_RETRIES x) == rmax
      setAntState x (if latch then 4 else 3) (setChain s x { c with biasOn := false })
    else s)

/-- 1,000 samples below OPEN_TH (LSB 0.25 mA): the last one is given (R95). (Assumption 58, DEDUCED.) -/
def execAntOpen (x : Fin 4) (last : BitVec 10) (s : State) : Host.Outcome State Fault Refusal :=
  let s := s.setFld (F.GRF_CH_ANT_STAT_CURRENT x) last.toNat
  .next (if (chain s x).biasOn && decide (2 * last.toNat < 5 * s.fld (F.GRF_CH_ANT_CFG_OPEN_TH x))
    then setAntState x 2 s else s)

/-- 1,000 samples at or above OPEN_TH and below SHORT_TH (R95). (Assumption 58, DEDUCED.) -/
def execAntOk (x : Fin 4) (last : BitVec 10) (s : State) : Host.Outcome State Fault Refusal :=
  let s := s.setFld (F.GRF_CH_ANT_STAT_CURRENT x) last.toNat
  .next (if (chain s x).biasOn && decide (5 * s.fld (F.GRF_CH_ANT_CFG_OPEN_TH x) ≤ 2 * last.toNat) &&
      decide (last.toNat < 5 * s.fld (F.GRF_CH_ANT_CFG_SHORT_TH x))
    then setAntState x 1 s else s)

/-- RETRY_INT × 10 ms in SHORT_WAIT: the switch closes again (R96). -/
def execAntRetry (x : Fin 4) (s : State) : Host.Outcome State Fault Refusal :=
  .next (if s.fld (F.GRF_CH_ANT_STAT_STATE x) = 3 && biasWanted x s then
      (setChain s x { chain s x with biasOn := true }).setFld (F.GRF_CH_ANT_STAT_RETRIES x)
        (s.fld (F.GRF_CH_ANT_STAT_RETRIES x) + 1)
    else s)

/-- A write of ANT_CFG clears RETRIES and a short, and the switch follows the mode at once (R96): SHORT_WAIT and
SHORT_LATCHED both go to OFF. (Assumption 145, DEDUCED.) -/
def opAntCfgWrite (who : Reader) (x : Nat) (v : Word) (s : State) : State :=
  let s := (plainWrite who (R.GRF_CH_ANT_CFG x) v s).setFld (F.GRF_CH_ANT_STAT_RETRIES x) 0
  let st := s.fld (F.GRF_CH_ANT_STAT_STATE x)
  biasUpdate x (if st = 3 ∨ st = 4 then setAntState x 0 s else s)

def execAntCfgWrite (who : Reader) (x : Fin 4) (v : Word) (s : State) : Host.Outcome State Fault Refusal :=
  .next (gate who (R.GRF_CH_ANT_CFG x) true (opAntCfgWrite who x v) s)

/-! States and transitions (R75 to R80). -/

/-- The chain's state changes, and its bias with it. -/
def setChainState (x st : Nat) (s : State) : State :=
  biasUpdate x (s.setFld (F.GRF_CH_STATUS_STATE x) st)

/-- Segments of the burst sequence with a nonzero duration, from segment `n` on (R91). -/
def segFrom (n : Nat) (s : State) : Option Nat :=
  ((List.range (s.fld F.GRF_BURST_CTRL_SEG_COUNT)).filter (fun k => decide (n ≤ k))).find?
    (fun k => s.fld (F.GRF_BURST_SEG_DUR k) != 0)

/-- The profile the chain should be on: the segment's in a sequenced window, else CTRL.PROFILE (R91). (Assumption 55, DEDUCED.) -/
def wantProfile (x : Nat) (s : State) : Nat :=
  if (chain s x).seq then (chain s x).segProf else s.fld (F.GRF_CH_CTRL_PROFILE x)

/-- ACTIVE shows whether any calibration runs; PEND_MASK mirrors CAL_PEND. -/
def syncCal (s : State) : State :=
  let s := s.setBit F.GRF_CAL_STATUS_ACTIVE ((List.range 4).any (fun x => (chain s x).cal.isSome))
  s.setFld F.GRF_CAL_STATUS_PEND_MASK ((List.range 16).foldl
    (fun a k => a + s.fld (F.GRF_CH_PROF_CAL_CAL_PEND (k / 4) (k % 4)) * 2 ^ k) 0)

/-- A calibration starts on a profile (R81, R84). (Assumption 57, DEDUCED.) -/
def calStart (x p : Nat) (k : CalKind) (s : State) : State :=
  let s := setChain s x { chain s x with cal := some (p, k), cold := k == .inStep }
  syncCal (setChainState x 4 (s.setFld (F.GRF_CH_STATUS_LOCKED x) 0))

/-- The chain begins a step. -/
def beginStep (x : Nat) (st : ChainStep) (s : State) : State :=
  (setChain s x { chain s x with step := st, cold := false }).setFld (F.GRF_CH_STATUS_BUSY x) 1

/-- The chain starts locking a profile: cold when no stored result stands (R76). -/
def beginLock (x : Nat) (s : State) : State :=
  let p := wantProfile x s
  let s := beginStep x .lock (ifcProfile x p s)
  if s.bit (F.GRF_CH_PROF_CAL_CAL_VALID x p) then s else calStart x p .inStep s

/-- The chain starts a hop: samples go invalid, cold when no stored result stands (R76, R92). -/
def beginHop (x p : Nat) (s : State) : State :=
  let s := setChainState x 5 ((beginStep x (.hop p) s).setFld (F.GRF_CH_STATUS_LOCKED x) 0)
  if s.bit (F.GRF_CH_PROF_CAL_CAL_VALID x p) then s else calStart x p .inStep s

/-- An idle chain takes its next step toward TARGET, one at a time (R77); leaving OFF asks the start budget (R79). Below
RECEIVE and outside a sequenced window its profile is CTRL.PROFILE (R91). -/
def chainAdvance (x : Nat) (tt : Option Nat) (s : State) : State :=
  let c := chain s x
  let t := s.fld (F.GRF_CH_CTRL_TARGET x)
  let st := chainState x s
  if c.step != .none || c.cal.isSome then s
  else
  let s := if c.seq || decide (3 ≤ st) then s else ifcProfile x (s.fld (F.GRF_CH_CTRL_PROFILE x)) s
  if st = 0 then
    if t = 0 then (withdrawStart x s).setFld (F.GRF_CH_STATUS_BUSY x) 0
    else (requestStart x tt s).setFld (F.GRF_CH_STATUS_BUSY x) 1
  else if st = 1 then
    if 2 ≤ t then beginStep x .standby s else if t = 0 then beginStep x .off s
    else s.setFld (F.GRF_CH_STATUS_BUSY x) 0
  else if st = 2 then
    if t = 3 then beginLock x s else if t < 2 then beginStep x .sleep s
    else s.setFld (F.GRF_CH_STATUS_BUSY x) 0
  else if t < 3 then beginStep x .down (s.setFld (F.GRF_CH_STATUS_LOCKED x) 0)
  else if wantProfile x s ≠ s.fld (F.GRF_CH_STATUS_PROFILE_ACT x) then beginHop x (wantProfile x s) s
  else s.setFld (F.GRF_CH_STATUS_BUSY x) 0

/-- A target below STANDBY abandons a calibration: LAST_RESULT is ST_ABORT and the profile stays as it was (R85). (Assumption 57, DEDUCED.) -/
def calAbandon (x : Nat) (s : State) : State :=
  match (chain s x).cal with
  | none => s
  | some _ =>
    let st := match (chain s x).step with
      | .hop _ => 3
      | .relock => 3
      | _ => 2
    let s := setChain s x { chain s x with cal := none, step := .none, cold := false }
    syncCal (setChainState x st (s.setFld F.GRF_CAL_STATUS_LAST_RESULT ST.abort))

/-- TARGET takes effect: a calibration is abandoned by SLEEP or OFF, and the chain moves (R77, R85). (Assumption 55, DEDUCED.) -/
def chainRetarget (x : Nat) (tt : Option Nat) (s : State) : State :=
  chainAdvance x tt (if s.fld (F.GRF_CH_CTRL_TARGET x) < 2 then calAbandon x s else s)

/-- A write of CTRL: TARGET and PROFILE (R77, R92). Outside RECEIVE and a sequenced window the profile written becomes
the active one at once. -/
def opChainCtrlWrite (who : Reader) (x : Nat) (v : Word) (s : State) : State :=
  let s := plainWrite who (R.GRF_CH_CTRL x) v s
  chainRetarget x none s

def execChainTargetWrite (who : Reader) (x : Fin 4) (v : Word) (s : State) : Host.Outcome State Fault Refusal :=
  .next (gate who (R.GRF_CH_CTRL x) true (opChainCtrlWrite who x v) s)

/-- See assumption 55, DEDUCED. -/
def execProfileWrite (who : Reader) (x : Fin 4) (v : Word) (s : State) : Host.Outcome State Fault Refusal :=
  .next (gate who (R.GRF_CH_CTRL x) true (opChainCtrlWrite who x v) s)

/-- RECEIVE cannot be reached: FAULT, STANDBY, TARGET 2 (R86). (Assumption 56, DEDUCED.) -/
def chainFault (x : Nat) (s : State) : State :=
  let s := setChain s x { chain s x with step := .none, cal := none, cold := false }
  let s := ((s.setFld (F.GRF_CH_STATUS_FAULT x) 1).setFld (F.GRF_CH_CTRL_TARGET x) 2).setFld (F.GRF_CH_STATUS_LOCKED x) 0
  syncCal ((setChainState x 2 s).setFld (F.GRF_CH_STATUS_BUSY x) 0)

/-- A lock, hop or relock that ends without lock: calibrated cold once, then RECEIVE cannot be reached (R78, R86, R87).
(Assumption 56, DEDUCED.) -/
def lockFails (x p : Nat) (s : State) : State :=
  if (chain s x).cold then chainFault x s else calStart x p .inStep s

/-- The chain's step is over; it goes on toward the latest target. -/
def endStep (x st : Nat) (s : State) : State :=
  chainRetarget x none (setChainState x st (setChain s x { chain s x with step := .none, cold := false }))

/-- The step in progress completes after its stated time (R76); `locked` says whether a synthesiser step has lock. -/
def execChainTransitionDone (x : Fin 4) (locked : Bool) (s : State) : Host.Outcome State Fault Refusal :=
  let c := chain s x
  let act := s.fld (F.GRF_CH_STATUS_PROFILE_ACT x)
  .next (
    if c.cal.isSome then s
    else match c.step with
      | .none => s
      | .wake => endStep x 1 s
      | .standby => endStep x 2 s
      | .lock => if locked then endStep x 3 (s.setFld (F.GRF_CH_STATUS_LOCKED x) 1) else lockFails x act s
      | .hop p => if locked then endStep x 3 ((ifcProfile x p s).setFld (F.GRF_CH_STATUS_LOCKED x) 1) else lockFails x p s
      | .relock => if locked then endStep x 3 (s.setFld (F.GRF_CH_STATUS_LOCKED x) 1) else lockFails x act s
      | .down => endStep x 2 s
      | .sleep => endStep x 1 s
      | .off => endStep x 0 (domainStop x s))

/-- A lock or hop on a stale calibration has not locked in its time (R78). (Assumption 56, DEDUCED.) -/
def execStaleLockTimeout (x : Fin 4) (s : State) : Host.Outcome State Fault Refusal :=
  let c := chain s x
  let act := s.fld (F.GRF_CH_STATUS_PROFILE_ACT x)
  .next (
    if c.cal.isSome then s
    else match c.step with
      | .lock => if s.bit (F.GRF_CH_PROF_CAL_STALE x act) then lockFails x act s else s
      | .hop p => if s.bit (F.GRF_CH_PROF_CAL_STALE x p) then lockFails x p s else s
      | _ => s)

/-! Synthesiser calibration (R81 to R87). -/

/-- Whether a chain in STATE RECEIVE takes a requested calibration at once (R84): at rest, relocking, or on its way to a
target that does not abandon it (R85). (Assumption 143, DEDUCED.) -/
def calAtOnce (x : Nat) (s : State) : Bool :=
  match (chain s x).step with
  | .none => true
  | .relock => true
  | .down => decide (2 ≤ s.fld (F.GRF_CH_CTRL_TARGET x))
  | _ => false

/-- One profile's calibration is requested: at once when it is the active profile of a chain in RECEIVE outside a window,
else pending (R84). (Assumption 143, DEDUCED.) -/
def calRequestOne (x p : Nat) (s : State) : State :=
  let c := chain s x
  if chainState x s = 3 && calAtOnce x s && c.cal.isNone && !s.bit (F.GRF_CH_STATUS_IN_WINDOW x) &&
      s.fld (F.GRF_CH_STATUS_PROFILE_ACT x) == p then
    calStart x p .requested ((setChain s x { c with step := .relock }).setFld (F.GRF_CH_STATUS_BUSY x) 1)
  else syncCal (s.setFld (F.GRF_CH_PROF_CAL_CAL_PEND x p) 1)

/-- A calibration request for a target code below 0x40 (R83). -/
def chainCalRequest (code : Nat) (s : State) : State :=
  if code < 0x10 then calRequestOne (code / 4) (code % 4) s
  else if code < 0x14 then (List.range 4).foldl (fun s p => calRequestOne (code - 0x10) p s) s
  else if code = 0x14 then (List.range 16).foldl (fun s k => calRequestOne (k / 4) (k % 4) s) s
  else raise 39 (s.setFld F.GRF_CAL_STATUS_LAST_RESULT ST.format)

/-- A pending calibration starts: the chain rests in STANDBY outside a window; lowest profile first (R84). (Assumption 57, DEDUCED.) -/
def execPendingCalStart (x : Fin 4) (s : State) : Host.Outcome State Fault Refusal :=
  let c := chain s x
  .next (
    if chainState x s = 2 && c.step == .none && c.cal.isNone && !s.bit (F.GRF_CH_STATUS_IN_WINDOW x) then
      match (List.range 4).find? (fun p => s.bit (F.GRF_CH_PROF_CAL_CAL_PEND x p)) with
      | some p => calStart x p .requested s
      | none => s
    else s)

/-- The result of a calibration is stored (R81) or it failed (R86); either way the profile's request is done and CAL_PEND
clears, also when the calibration was the cold fallback of a lock or hop. (Assumption 143, DEDUCED.) -/
def calStore (x p : Nat) (r : Option CalResult) (s : State) : State :=
  let s := s.setFld (F.GRF_CH_PROF_CAL_CAL_PEND x p) 0
  match r with
  | some r =>
    let s := (((s.setFld (F.GRF_CH_PROF_CAL_CAL_TEMP x p) r.temp.toNat).setFld (F.GRF_CH_PROF_CAL_VCO_BAND x p)
      r.band.toNat).setFld (F.GRF_CH_PROF_CAL_KVCO_TRIM x p) r.trim.toNat).setFld (F.GRF_CH_PROF_CAL_CAL_VALID x p) 1
    ((s.setFld (F.GRF_CH_PROF_CAL_STALE x p) 0).setFld (F.GRF_CH_PROF_CAL_CAL_FAILED x p) 0).setFld
      F.GRF_CAL_STATUS_LAST_RESULT ST.ok
  | none =>
    raise 38 (((s.setFld (F.GRF_CH_PROF_CAL_CAL_FAILED x p) 1).setFld (F.GRF_CH_PROF_CAL_CAL_VALID x p) 0).setFld
      F.GRF_CAL_STATUS_LAST_RESULT 0x10)

/-- A calibration completes; none means the VCO could not be locked (R81, R86). A chain that was locking, hopping or in
RECEIVE goes on to its relock; one in STANDBY goes on toward its target. -/
def execCalDone (x : Fin 4) (r : Option CalResult) (s : State) : Host.Outcome State Fault Refusal :=
  .next (
    match (chain s x).cal with
    | none => s
    | some (p, _) =>
      let s := syncCal (calStore x p r s)
      let c := { chain s x with cal := none, cold := true }
      match c.step with
      | .none => chainRetarget x none (syncCal (setChainState x 2 (setChain s x { c with cold := false })))
      | st =>
        if r.isNone then chainFault x s
        else
          let back := match st with | .lock => 2 | .hop _ => 5 | _ => 3
          syncCal (setChainState x back (setChain s x c)))

/-- A profile becomes stale (R81, R82): EV_037. -/
def setStale (x p : Nat) (s : State) : State := flagEvent (F.GRF_CH_PROF_CAL_STALE x p) 37 s

/-- Temperature and tuning voltage make a profile stale that holds a stored result (R81). (Assumption 143, DEDUCED.) -/
def execCalStale (x n : Fin 4) (why : StaleCause) (s : State) : Host.Outcome State Fault Refusal :=
  let stale := match why with
    | .temperature t => s.bit (F.GRF_CH_PROF_CAL_CAL_VALID x n) &&
        decide (15 < (t.toInt - toSigned 8 (s.fld (F.GRF_CH_PROF_CAL_CAL_TEMP x n))).natAbs)
    | .tuning => s.bit (F.GRF_CH_PROF_CAL_CAL_VALID x n) && s.fld (F.GRF_CH_STATUS_PROFILE_ACT x) == n.val &&
        chainState x s == 3
  .next (if stale then setStale x n s else s)

/-- A write of an LO word: refused outside 1,150 to 1,620 MHz, else the profile loses its calibration (R69, R81). -/
def opProfLoWrite (who : Reader) (x n : Nat) (v : Word) (s : State) : State :=
  let w := v.toNat % 2 ^ 28
  if 1150 * 2 ^ 24 ≤ 120 * w ∧ 120 * w ≤ 1620 * 2 ^ 24 then
    setStale x n ((plainWrite who (R.GRF_CH_PROF_LO x n) v s).setFld (F.GRF_CH_PROF_CAL_CAL_VALID x n) 0)
  else raise 39 (s.setFld (F.GRF_CH_STATUS_REFUSED x) 1)

/-- Lock is lost in RECEIVE: the chain relocks on its stored result (R87). (Assumption 55, DEDUCED.) -/
def execLockLost (x : Fin 4) (s : State) : Host.Outcome State Fault Refusal :=
  .next (
    if chainState x s = 3 && (chain s x).step == .none && s.bit (F.GRF_CH_STATUS_LOCKED x) then
      raise 36 (((beginStep x .relock s).setFld (F.GRF_CH_STATUS_LOCKED x) 0).setFld (F.GRF_CH_STATUS_LOCK_LOST x) 1)
    else s)

/-! Burst windows (R88 to R93). -/

/-- Whether the chain's sample of this tick is usable (R74): it is in RECEIVE at rest, locked, not calibrating, and 2 µs past
any change of its IF filter (R71). -/
def sampleValid (x : Nat) (s : State) : Bool :=
  let c := chain s x
  chainState x s == 3 && c.step == .none && c.cal.isNone && s.bit (F.GRF_CH_STATUS_LOCKED x) && decide (c.filterTill ≤ s.tick)

/-- A write of a profile's configuration: a new IF_BW of the active profile in RECEIVE makes samples invalid for 2 µs from
the next FS tick (R71). -/
def opProfGrfWrite (who : Reader) (x n : Nat) (v : Word) (s : State) : State :=
  let old := s.fld (F.GRF_CH_PROF_CFG_IF_BW x n)
  let s := plainWrite who (R.GRF_CH_PROF_CFG x n) v s
  if s.fld (F.GRF_CH_PROF_CFG_IF_BW x n) ≠ old ∧ s.fld (F.GRF_CH_STATUS_PROFILE_ACT x) = n ∧ chainState x s = 3 then
    setChain s x { chain s x with filterTill := s.tick + 241 }
  else s

/-- A window that has opened (R89): its first valid sample ends the wait, and LATE_OPEN is set once the wait from the
dispatch of BURST_OPEN exceeds 60 µs, 7,200 FS ticks. (Assumption 144, DEDUCED.) -/
def windowTick (x : Nat) (valid : Bool) (s : State) : State :=
  let c := chain s x
  match c.openAt with
  | none => s
  | some t =>
    if !s.bit (F.GRF_CH_STATUS_IN_WINDOW x) || valid then setChain s x { c with openAt := none }
    else if t + 7200 < s.tick then (setChain s x { c with openAt := none }).setFld (F.GRF_CH_STATUS_LATE_OPEN x) 1
    else s

/-- BURST_OPEN for one chain (R88, R89, R91). (Assumption 144, DEDUCED.) -/
def burstOpenOne (x : Nat) (tt : Option Nat) (s : State) : State :=
  let first := if s.fld F.GRF_BURST_CTRL_HOP_CHAIN = x then segFrom 0 s else none
  let c := { chain s x with
    seq := first.isSome, seg := first.getD 0, segProf := s.fld (F.GRF_BURST_SEG_PROFILE (first.getD 0)), openAt := some s.tick }
  chainRetarget x tt (((setChain s x c).setFld (F.GRF_CH_STATUS_IN_WINDOW x) 1).setFld (F.GRF_CH_CTRL_TARGET x) 3)

/-- The chains a BURST_OPEN acts on: in BURST only the hop chain (R90). -/
def burstChains (mask : Nat) (s : State) : List Nat :=
  (List.range 4).filter (fun x => mask.testBit x && (pstate s != 2 || s.fld F.GRF_BURST_CTRL_HOP_CHAIN == x))

/-- BURST_OPEN for a mask of chains. -/
def burstOpenAll (mask : Nat) (tt : Option Nat) (s : State) : State :=
  (burstChains mask s).foldl (fun s x => burstOpenOne x tt s) s

/-- AUTO_CAL marks the stale profiles the sequence used (R93). -/
def autoCal (x : Nat) (s : State) : State :=
  if s.bit F.GRF_BURST_CTRL_AUTO_CAL && (chain s x).seq then
    syncCal ((List.range (s.fld F.GRF_BURST_CTRL_SEG_COUNT)).foldl (fun s k =>
      let p := s.fld (F.GRF_BURST_SEG_PROFILE k)
      if s.fld (F.GRF_BURST_SEG_DUR k) != 0 && s.bit (F.GRF_CH_PROF_CAL_STALE x p)
      then s.setFld (F.GRF_CH_PROF_CAL_CAL_PEND x p) 1 else s) s)
  else s

/-- BURST_CLOSE for one chain; a hop is abandoned, its cold calibration by R85 where the gap state is SLEEP (R88, R91,
R93). -/
def burstCloseOne (x : Nat) (s : State) : State :=
  if s.bit (F.GRF_CH_STATUS_IN_WINDOW x) then
    let s := (autoCal x s).setFld (F.GRF_CH_STATUS_IN_WINDOW x) 0
    let s := s.setFld (F.GRF_CH_CTRL_TARGET x) (s.fld F.GRF_BURST_CTRL_GAP_STATE)
    let c := chain s x
    let s := match c.step with
      | .hop _ =>
        if c.cal.isSome && decide (s.fld (F.GRF_CH_CTRL_TARGET x) < 2) then setChain s x { c with seq := false }
        else syncCal (setChainState x 3 (setChain s x { c with step := .none, cal := none, cold := false, seq := false }))
      | _ => setChain s x { c with seq := false }
    let s := if (chain s x).step == .none && (chain s x).cal.isNone
      then ifcProfile x (s.fld (F.GRF_CH_CTRL_PROFILE x)) s else s
    chainRetarget x none s
  else s

/-- BURST_CLOSE for a mask of chains. -/
def burstCloseAll (mask : Nat) (s : State) : State :=
  ((List.range 4).filter (fun x => mask.testBit x)).foldl (fun s x => burstCloseOne x s) s

/-- The next segment starts: the hop chain hops if its profile differs (R91). -/
def execSegmentStart (x : Fin 4) (s : State) : Host.Outcome State Fault Refusal :=
  let c := chain s x
  .next (
    if s.bit (F.GRF_CH_STATUS_IN_WINDOW x) && c.seq then
      match segFrom (c.seg + 1) s with
      | some k => chainAdvance x none (setChain s x { c with seg := k, segProf := s.fld (F.GRF_BURST_SEG_PROFILE k) })
      | none => s
    else s)

/-! Start-up, resets and domain starts (R79, R97, R98). -/

/-- A chain's domain start is granted: OFF to SLEEP begins. -/
def chainGranted (x : Nat) (s : State) : State :=
  if chainState x s = 0 && (chain s x).step == .none then beginStep x .wake s else s

end Sys2Proof.Machine
end

