-- ==== Sys2Proof/Machine/Ports.lean ====
section
/-! DEFINITION. Entry ports (R61 to R63): the timetable's, the Sieve's, the sky table's and the beacon cycle table's. Each
reader has one of each; a command acts at its completion, two FS ticks after its write, on what was latched then. -/
namespace Sys2Proof.Machine

/-- A family of entry ports: its number, its control register, its window and how many words that has, and where CMD and
INDEX lie. -/
structure PortFam where
  id : Nat
  ctrl : Nat
  win : Nat
  words : Nat
  cmdHi : Nat
  cmdLo : Nat
deriving DecidableEq, Repr

/-- The timetable's ports (R61). -/
def ttPorts : PortFam := ⟨0, R.TT_PORT_CTRL, R.TT_PORT_W 0, 8, 13, 12⟩

/-- The Sieve's ports (R201). -/
def sievePorts : PortFam := ⟨1, R.SIEVE_PORT_CTRL, R.SIEVE_PORT_W 0, 16, 13, 12⟩

/-- The sky table's ports (R265). -/
def skyPorts : PortFam := ⟨2, R.SKY_PORT_CTRL, R.SKY_PORT_W 0, 64, 13, 12⟩

/-- The beacon cycle table's ports (R361). -/
def cycPorts : PortFam := ⟨3, R.BCN_CYC_CTRL, R.BCN_CYC_W 0, 8, 9, 8⟩

/-- The reader with a number in the order of R62. -/
def readerOf (i : Nat) : Reader :=
  if i = 0 then .debug else if i = 1 then .host else if i = 2 then .sqm else .sq (Fin.ofNat 10 (i - 3))

/-- A port's command in progress. -/
def portCmd (p : PortFam) (r : Reader) (s : State) : Option PortCmd :=
  Sparse.get (fun _ => none) s.ports (16 * p.id + readerIdx r)

/-- A port's command in progress replaced. -/
def setPortCmd (p : PortFam) (r : Reader) (c : Option PortCmd) (s : State) : State :=
  { s with ports := Sparse.put (fun _ => none) s.ports (16 * p.id + readerIdx r) c }

/-- RESULT of a port. -/
def portResult (p : PortFam) (r : Reader) (st : Nat) (s : State) : State := s.setFld (Fld.at ⟨p.ctrl, 23, 16⟩ r) st

/-- The words of a reader's window. -/
def portWindow (p : PortFam) (r : Reader) (s : State) : List Word :=
  (List.range p.words).map (fun k => s.word (copyOff r (p.win + 4 * k)))

/-- A reader's window filled with words. -/
def setPortWindow (p : PortFam) (r : Reader) (ws : List Word) (s : State) : State :=
  (ws.zipIdx).foldl (fun s e => s.setWord (copyOff r (p.win + 4 * e.2)) e.1) s

/-- A write of a port's control word: ignored with ST_BUSY while a command is in progress; else a nonzero CMD starts one
(R61, R63). (Assumption 166, DEDUCED.) -/
def opPortCtrl (p : PortFam) (who : Reader) (v : Word) (s : State) : State :=
  if (portCmd p who s).isSome then portResult p who ST.busy s
  else
    let s := plainWrite who p.ctrl v s
    if bitsOf v.toNat p.cmdHi p.cmdLo = 0 then s
    else setPortCmd p who (some ⟨v.toNat, portWindow p who s, s.tick⟩) s

/-- BUSY of a reader's port: from the tick after the command's write until its completion (R61). -/
def portBusy (p : PortFam) (r : Reader) (s : State) : Bool :=
  match portCmd p r s with
  | some c => decide (c.tick < s.tick)
  | none => false

/-- A port's control word with BUSY as it stands. -/
def livePort (r : Reader) (off : Nat) (w : Word) (s : State) : Word :=
  match [ttPorts, sievePorts, skyPorts, cycPorts].find? (fun p => p.ctrl == off) with
  | some p => BitVec.ofNat 32 (insertBits w.toNat 31 31 (if portBusy p r s then 1 else 0))
  | none => w

/-- A write of a port's window (R63). (Assumption 166, DEDUCED.) -/
def opPortWindow (p : PortFam) (who : Reader) (off : Nat) (v : Word) (s : State) : State :=
  if (portCmd p who s).isSome then portResult p who ST.busy s else plainWrite who off v s

/-- The commands of a family whose completion is due: the second FS tick after their write or later; earlier writes
first, and R62's order within one tick. -/
def portsDue (p : PortFam) (s : State) : List (Reader × PortCmd) :=
  orderBy (fun e => e.2.tick) ((List.range 13).filterMap (fun i =>
    match portCmd p (readerOf i) s with
    | some c => if c.tick + 2 ≤ s.tick then some (readerOf i, c) else none
    | none => none))

/-- Every due command of a family completes: `f` is its effect and its RESULT (R61 to R63). -/
def portsComplete (p : PortFam) (f : Reader → PortCmd → State → Nat × State) (s : State) : State :=
  (portsDue p s).foldl (fun s e =>
    let r := f e.1 e.2 s
    setPortCmd p e.1 none (portResult p e.1 r.1 r.2)) s

/-- The control word that gives a command for an index. -/
def portWord (p : PortFam) (cmd index : Nat) : Word := BitVec.ofNat 32 (cmd * 2 ^ p.cmdLo + index)

end Sys2Proof.Machine
end

