-- ==== Sys2Proof/Machine/Timetable.lean ====
section
/-! DEFINITION. The timetable (R47 to R60): entries, their ports, weighted fair dispatch, lateness and drops, domain starts;
and the event inputs (R65 to R67). -/
namespace Sys2Proof.Machine

/-- A timetable entry by index. -/
def ttEntry (s : State) (i : Nat) : TtEntry := Sparse.get (fun _ => {}) s.tt i

/-- A timetable entry replaced; ARMED_CNT counts the armed ones. -/
def setTt (s : State) (i : Nat) (e : TtEntry) : State :=
  let m := Sparse.put (fun _ => {}) s.tt i e
  { s with tt := m }.setFld F.TT_STATUS_ARMED_CNT (m.filter (fun (p : Nat × TtEntry) => p.2.armed)).length

/-- The eight words of an entry (R47). -/
def TtEntry.words (e : TtEntry) : List Word :=
  let b (c : Bool) : Nat := if c then 1 else 0
  [BitVec.ofNat 32 e.due, BitVec.ofNat 32 (e.due / 2 ^ 32), BitVec.ofNat 32 (e.due / 2 ^ 64),
   BitVec.ofNat 32 e.period, BitVec.ofNat 32 (e.period / 2 ^ 32),
   BitVec.ofNat 32 (b e.armed * 2 ^ 31 + b e.lateDrop * 2 ^ 30 + e.cls * 2 ^ 24 + e.lateTol * 2 ^ 16 + e.action),
   BitVec.ofNat 32 e.param,
   BitVec.ofNat 32 (e.lateTicks * 2 ^ 16 + b e.deferred * 2 ^ 15 + b e.stepped * 2 ^ 14 + b e.dropped * 2 ^ 13 +
     b e.fired * 2 ^ 12 + e.skip)]

/-- Word `k` of a window as a number. -/
def winWord (w : List Word) (k : Nat) : Nat := (w.getD k 0).toNat

/-- Highest PARAM value whose reserved bits are 0, per action (R48); none for a reserved action. -/
def ttParamOk (action param : Nat) : Bool :=
  match action with
  | 0 => param == 0
  | 1 => decide (param < 8)
  | 2 => decide (param < 16)
  | 3 => decide (param < 16)
  | 4 => decide (param < 4096)
  | 5 => decide (param < 2)
  | 6 => decide (param < 256) && decide (param % 16 ≤ 10)
  | 7 => decide (param < 256)
  | 8 => decide (param < 256)
  | _ => false

/-- The entry a WRITE stores, or none where R49 refuses it: reserved bits of words 2, 4 to 7, a reserved action or
sequencer, a period below 1 µs. Word 7 is cleared. -/
def ttEntryOf (w : List Word) : Option TtEntry :=
  let g := winWord w
  let period := g 4 % 2 ^ 24 * 2 ^ 32 + g 3
  let action := bitsOf (g 5) 5 0
  if g 2 / 2 ^ 16 ≠ 0 ∨ g 4 / 2 ^ 24 ≠ 0 ∨ bitsOf (g 5) 29 28 ≠ 0 ∨ bitsOf (g 5) 15 6 ≠ 0 ∨ bitsOf (g 7) 11 8 ≠ 0 ∨
      !ttParamOk action (g 6) ∨ (period ≠ 0 ∧ period < 4295) then none
  else some {
    due := g 2 * 2 ^ 64 + g 1 * 2 ^ 32 + g 0
    period := period
    armed := (g 5).testBit 31
    lateDrop := (g 5).testBit 30
    cls := bitsOf (g 5) 27 24
    lateTol := bitsOf (g 5) 23 16
    action := action
    param := g 6 }

/-- The start requests that a timetable entry's occurrence waits for are withdrawn (R56). -/
def ttWithdraw (i : Nat) (s : State) : State :=
  syncQueued { s with budget := { s.budget with queue := s.budget.queue.filter (fun r => r.tt != some i) } }

/-- An entry that is written anew no longer waits for the starts its occurrence asked for; the starts stand, since its action
was dispatched. (Assumption 142, DEDUCED.) -/
def ttDetach (i : Nat) (s : State) : State :=
  { s with budget := { s.budget with queue := s.budget.queue.map (fun r => if r.tt = some i then { r with tt := none } else r) } }

/-- A completed port command's effect (R61). A DISARM leaves an occurrence that waits for a domain start waiting: it was
dispatched, and fires at the grant. (Assumption 142, DEDUCED.) -/
def ttPortDo (r : Reader) (c : PortCmd) (s : State) : Nat × State :=
  let i := c.ctrl % 4096
  match bitsOf c.ctrl 13 12 with
  | 1 => (ST.ok, setPortWindow ttPorts r (ttEntry s i).words s)
  | 2 =>
    match ttEntryOf c.window with
    | some e => (ST.ok, setTt (ttDetach i s) i { e with changed := some s.tick })
    | none => (ST.format, s)
  | 3 => (ST.ok, setTt s i { ttEntry s i with armed := false, changed := some s.tick })
  | _ => (ST.ok, s)

/-- A timetable port command is given by a write of TT_PORT_CTRL. -/
def execTtPortRead (who : Reader) (i : BitVec 12) (s : State) : Host.Outcome State Fault Refusal :=
  .next (gate who R.TT_PORT_CTRL true (opPortCtrl ttPorts who (portWord ttPorts 1 i.toNat)) s)

def execTtPortWrite (who : Reader) (i : BitVec 12) (s : State) : Host.Outcome State Fault Refusal :=
  .next (gate who R.TT_PORT_CTRL true (opPortCtrl ttPorts who (portWord ttPorts 2 i.toNat)) s)

def execTtPortDisarm (who : Reader) (i : BitVec 12) (s : State) : Host.Outcome State Fault Refusal :=
  .next (gate who R.TT_PORT_CTRL true (opPortCtrl ttPorts who (portWord ttPorts 3 i.toNat)) s)

/-- The timetable port commands that are due complete. -/
def execTtPortComplete (s : State) : Host.Outcome State Fault Refusal := .next (portsComplete ttPorts ttPortDo s)

/-! Dispatch (R50 to R60). -/

/-- Two microseconds before the due time, an ARM_PULSE is dispatched (R51). (Assumption 26, DEDUCED.) -/
def TtEntry.lead (e : TtEntry) : Nat := if e.action = 5 then 240 * tickUnits else 0

/-- An occurrence's dispatch time in units: its due time, less the lead of an ARM_PULSE. (Assumption 26, DEDUCED.) -/
def TtEntry.dueU (e : TtEntry) : Nat := e.due * fracUnits - e.lead

/-- An armed entry whose occurrence is due and not already dispatched; one that a port command changed in this tick is
dispatched from the next one on (R61). (Assumption 142, DEDUCED.) -/
def ttReady (e : TtEntry) (s : State) : Bool :=
  e.armed && e.waiting.isNone && e.changed != some s.tick && decide (e.dueU ≤ s.nowU)

/-- The first FS tick at or after an instant that the timebase has reached, counted back from the present tick (R53): at the
present rate, or by crystal cycles from the latest one while the timebase is coarse (R33). (Assumption 24, DEDUCED.) -/
def tickOf (u : Nat) (s : State) : Int :=
  let gone := s.nowU - u
  if s.coarse then (s.tick : Int) - s.tb.xtal / 32768 - gone / (secUnits / 32768) * 120000000 / 32768
  else (s.tick : Int) - (gone / s.tickStep : Nat)

/-- The due tick of every occurrence that is due is kept, whatever the rate becomes; one that is not has none (R53). (Assumption 24, DEDUCED.) -/
def ttMarkDue (s : State) : State :=
  { s with tt := s.tt.map (fun p =>
      if !ttReady p.2 s then (p.1, { p.2 with dueAt := none })
      else if p.2.dueAt.isNone then (p.1, { p.2 with dueAt := some (tickOf p.2.dueU s) }) else p) }

/-- The ready entries of a class with the earliest due time as its words give it, an ARM_PULSE's included, lowest index first
(R54). (Assumption 142, DEDUCED.) -/
def ttFirst (c : Nat) (s : State) : Option Nat :=
  (s.tt.foldl (fun (b : Option (Nat × TtEntry)) p =>
    if ttReady p.2 s && p.2.cls == c then
      match b with
      | some (_, e) => if p.2.due < e.due then some p else b
      | none => some p
    else b) none).map (·.1)

/-- A class is backlogged. -/
def ttBacklog (c : Nat) (s : State) : Bool := (ttFirst c s).isSome

/-- The weight of a class. -/
def ttWeight (c : Nat) (s : State) : Nat := s.fld (F.TT_CLASS_WEIGHT_WEIGHT c)

/-- A class newly backlogged takes its virtual start; one no longer backlogged has none (R54). The count of the tick's
actions starts anew in a new tick. (Assumption 27, DEDUCED.) -/
def ttArbNow (s : State) : TtArb :=
  let a := s.arb
  let weighted := (List.range 16).any (fun c => ttBacklog c s && ttWeight c s != 0)
  let vs := (List.range 16).foldl (fun (m : Sparse (Option Rat)) c =>
    if ttBacklog c s then
      match Sparse.get (fun _ => none) m c with
      | some _ => m
      | none =>
        let own := Sparse.get (fun _ => (0 : Rat)) a.vfin c
        Sparse.put (fun _ => none) m c (some (if own < a.vnow then a.vnow else own))
    else Sparse.put (fun _ => none) m c none) a.vstart
  let fresh := a.tick != s.tick
  { a with vstart := vs, tick := s.tick, fired := if fresh then 0 else a.fired,
           weighted := weighted || (!fresh && a.weighted) }

/-- A class's virtual finish time of its next occurrence. (Assumption 27, DEDUCED; assumption 48, DESIGN CHOICE.) -/
def ttFinish (a : TtArb) (c : Nat) (s : State) : Rat :=
  ((Sparse.get (fun _ => none) a.vstart c).getD 0) + 1 / (ttWeight c s : Rat)

/-- The class served next: the least virtual finish time, the lower class on a tie; a class of weight 0 only while no
weighted class is backlogged in the tick (R54, R55). (Assumption 27, DEDUCED.) -/
def ttPickClass (a : TtArb) (s : State) : Option Nat :=
  if a.weighted then
    (List.range 16).foldl (fun (b : Option Nat) c =>
      if ttBacklog c s && ttWeight c s != 0 then
        match b with
        | some d => if ttFinish a c s < ttFinish a d s then some c else b
        | none => some c
      else b) none
  else (List.range 16).find? (fun c => ttBacklog c s)

/-- The entry dispatched next; none when nothing is due or the tick has fired two actions (R53). -/
def ttPick (s : State) : Option Nat :=
  let a := ttArbNow s
  if 2 ≤ a.fired then none
  else
    match ttPickClass a s with
    | some c => ttFirst c s
    | none => none

/-- Whole periods by which a ready periodic entry's latest due occurrence lies past its due time (R59). -/
def TtEntry.passed (e : TtEntry) (s : State) : Nat :=
  if e.period = 0 then 0 else (s.nowU - e.dueU) / (e.period * fracUnits)

/-- The entry at its latest due occurrence, the earlier ones counted in SKIP_COUNT (R59), its log cleared for it. -/
def TtEntry.latest (e : TtEntry) (s : State) : TtEntry :=
  let k := e.passed s
  { e with due := e.due + k * e.period, skip := satNat 255 (e.skip + k), deferred := false, dropped := false,
           stepped := e.stepMark, stepMark := false, dueAt := if k = 0 then e.dueAt else none }

/-- The entry after an occurrence: the next due time, or disarmed (R50). -/
def TtEntry.after (e : TtEntry) : TtEntry :=
  if e.period = 0 then { e with armed := false, dueAt := none } else { e with due := (e.due + e.period) % 2 ^ 80, dueAt := none }

/-- Lateness of an occurrence in FS ticks: from its due tick; where a step, a WRITE or a contention brought it past due, that is
counted back from its due time (R53, R59). (Assumption 24, DEDUCED.) -/
def TtEntry.late (e : TtEntry) (s : State) : Nat := ((s.tick : Int) - e.dueAt.getD (tickOf e.dueU s)).toNat

/-- An occurrence is dropped (R57). (Assumption 27, DEDUCED; assumption 29, DEDUCED.) -/
def ttDrop (i : Nat) (e : TtEntry) (late : Nat) (s : State) : State :=
  raise 11 ((setTt s i { e.after with lateTicks := satNat 0xFFFF late, dropped := true, waiting := none }).setFld
    F.TT_STATUS_DROP 1)

/-- An occurrence counts as fired (R57). -/
def ttFired (i : Nat) (e : TtEntry) (late : Nat) (deferred : Bool) (s : State) : State :=
  let s := setTt s i { e.after with lateTicks := satNat 0xFFFF late, fired := true, deferred := deferred, waiting := none }
  if 120 ≤ late then raise 10 (s.setFld F.TT_STATUS_LATE 1) else s

/-- Whether an occurrence of an entry is dropped for its lateness (R51, R57). -/
def TtEntry.tooLate (e : TtEntry) (late : Nat) (s : State) : Bool :=
  (e.lateDrop && decide (e.lateTol * 120 < late)) ||
  (e.action == 5 && decide (e.due * fracUnits - 120 * tickUnits < s.nowU))

/-- An occurrence whose start requests are all granted fires; its lateness includes the deferral (R56). (Assumption 29, DEDUCED.) (Assumption 166, DEDUCED.) -/
def ttSettle (i : Nat) (s : State) : State :=
  let e := ttEntry s i
  match e.waiting with
  | some w =>
    if s.budget.queue.any (fun r => r.tt == some i) then s
    else ttFired i e (w.late + (s.tick - w.tick)) (decide (w.tick < s.tick)) s
  | none => s

/-- A deferred occurrence that has become too late has its start requests withdrawn and is dropped (R56). -/
def ttExpire (i : Nat) (s : State) : State :=
  let e := ttEntry s i
  match e.waiting with
  | some w =>
    let late := w.late + (s.tick - w.tick)
    if e.lateDrop && decide (e.lateTol * 120 < late) then ttDrop i { e with deferred := true } late (ttWithdraw i s) else s
  | none => s

/-- Every deferred occurrence that has become too late is dropped. -/
def ttExpireAll (s : State) : State := s.tt.foldl (fun s p => ttExpire p.1 s) s

/-- A dispatch of an entry with a given action (R50 to R59): only the entry that is next, and only in its due tick or
later; it is dropped, or its action is done and it fires or waits for its domain starts. (Assumption 26, DEDUCED.) -/
def ttDispatch (i act : Nat) (f : Nat → State → State) (s : State) : State :=
  if (ttEntry s i).action ≠ act ∨ ttPick s ≠ some i then s
  else
    let e := (ttEntry s i).latest s
    let late := e.late s
    let a := ttArbNow s
    if e.tooLate late s then ttDrop i e late { s with arb := a }
    else
      let fin := ttFinish a e.cls s
      let a := { a with fired := a.fired + 1 }
      let a := if ttWeight e.cls s = 0 then a
        else { a with vnow := fin, vfin := Sparse.put (fun _ => 0) a.vfin e.cls fin,
                      vstart := Sparse.put (fun _ => none) a.vstart e.cls (some fin) }
      let s := setTt { s with arb := a } i { e with waiting := some ⟨late, s.tick⟩ }
      ttSettle i (f e.param s)

/-- NONE: fires and is logged only. -/
def execTtNone (i : BitVec 12) (s : State) : Host.Outcome State Fault Refusal :=
  .next (ttDispatch i.toNat 0 (fun _ s => s) s)

/-- RAISE_EVENT. -/
def execRaiseEvent (i : BitVec 12) (s : State) : Host.Outcome State Fault Refusal :=
  .next (ttDispatch i.toNat 1 (fun p s => raise (16 + p % 8) s) s)

/-- BURST_OPEN. -/
def execBurstOpen (i : BitVec 12) (s : State) : Host.Outcome State Fault Refusal :=
  .next (ttDispatch i.toNat 2 (fun p s => burstOpenAll p (some i.toNat) s) s)

/-- BURST_CLOSE. -/
def execBurstClose (i : BitVec 12) (s : State) : Host.Outcome State Fault Refusal :=
  .next (ttDispatch i.toNat 3 (fun p s => burstCloseAll p s) s)

/-- WAKE_SEQ: the named latched input of the named sequencer (R383). -/
def execWakeSeq (i : BitVec 12) (s : State) : Host.Outcome State Fault Refusal :=
  .next (ttDispatch i.toNat 6 (fun p s => wakeInput (p % 16) (p / 16 % 16) s) s)

/-- A step of the timebase: due ticks are judged afresh, and a forward step marks every past-due armed entry as passed over by it
(R59, R60). (Assumption 24, DEDUCED.) -/
def ttStepped (forward : Bool) (s : State) : State :=
  { s with tt := s.tt.map (fun p =>
      (p.1, { p.2 with dueAt := none, stepMark := p.2.stepMark || (forward && ttReady p.2 s) })) }

/-! Event inputs (R65 to R67). -/

/-- An event input by number. -/
def evtIn (s : State) (n : Nat) : EvtIn := Sparse.get (fun _ => {}) s.evt n

/-- An event input replaced; COUNT shows its stamps. -/
def setEvt (s : State) (n : Nat) (e : EvtIn) : State :=
  { s with evt := Sparse.put (fun _ => {}) s.evt n e }.setFld (F.TB_EVT_CTRL_COUNT n) e.fifo.length

/-- The stamp of an edge `sub` (2^-44 tick) after the present tick's start: SPT80 and a sub-fraction of 2^-48 s,
truncated, with VALID, REF_LOST and STEP_SEQ as they stand (R65, R67). (Assumption 28, DESIGN CHOICE.) -/
def evtStamp (rising : Bool) (sub : Nat) (s : State) : EvtStamp :=
  let u := s.nowU + (if s.coarse then 0 else sub * s.tickStep / tickUnits)
  let f := u % secUnits * 2 ^ 48 / secUnits
  { sec := u / secUnits % 2 ^ 48, frac := f / 2 ^ 16, sub := f % 2 ^ 16, valid := s.bit F.TB_STATUS_VALID,
    refLost := s.refLost, rising := rising, stepSeq := s.fld F.TB_STATUS_STEP_SEQ % 16 }

/-- An edge on EVT_INn, `sub` (2^-44 tick) into the present tick (R65, R66). (Assumption 28, DESIGN CHOICE.) -/
def execEvtEdge (n : Fin 4) (rising : Bool) (sub : BitVec 44) (s : State) : Host.Outcome State Fault Refusal :=
  let e := evtIn s n.val
  let at_ := s.tick * tickUnits + sub.toNat
  .next (
    if !(s.fld (F.TB_EVT_CTRL_EDGE n)).testBit (if rising then 0 else 1) then s
    else if (match e.last with
        | some l => decide ((at_ - l) * 10 ^ 11 < 1667 * 120000000 * tickUnits)
        | none => false) then s.setFld (F.TB_EVT_CTRL_MISSED n) 1
    else if 8 ≤ e.fifo.length then
      raise 24 ((setEvt s n.val { e with last := some at_ }).setFld (F.TB_EVT_CTRL_OVERRUN n) 1)
    else raise (12 + n.val) (setEvt s n.val { fifo := e.fifo ++ [evtStamp rising sub.toNat s], last := some at_ }))

/-- The four TS words of an event input (R66, R67). -/
def evtWords (n : Nat) (s : State) : List Word :=
  match (evtIn s n).fifo with
  | [] => [0, 0, 0, 0]
  | t :: _ =>
    let b (c : Bool) : Nat := if c then 1 else 0
    [BitVec.ofNat 32 (t.sub * 2 ^ 16 + b t.valid * 2 ^ 15 + b t.refLost * 2 ^ 14 + b t.rising * 2 ^ 13 + 2 ^ 12 +
       t.stepSeq * 16), BitVec.ofNat 32 t.frac, BitVec.ofNat 32 t.sec, BitVec.ofNat 32 (t.sec / 2 ^ 32)]

/-- A write of TB_EVT_n_CTRL; POP removes the oldest stamp (R66). -/
def opEvtCtrlWrite (who : Reader) (n : Nat) (v : Word) (s : State) : State :=
  let s := plainWrite who (R.TB_EVT_CTRL n) v s
  if v.toNat.testBit 31 then setEvt s n { evtIn s n with fifo := (evtIn s n).fifo.drop 1 } else s

def execEvtPop (who : Reader) (n : Fin 4) (v : Word) (s : State) : Host.Outcome State Fault Refusal :=
  .next (gate who (R.TB_EVT_CTRL n) true (opEvtCtrlWrite who n.val v) s)

end Sys2Proof.Machine
end

