-- ==== Sys2Proof/Machine/TimeOut.lean ====
section
/-! DEFINITION. Time outputs and holdover (chapter 11): the discipline, its levels and the Sandglass, announced steps, the
pulse edges of TP0 and TP1, FOUT, and the twin's handover of the pulse. -/
namespace Sys2Proof.Machine

/-- A rational rounded to the nearest integer. -/
def roundRat (q : Rat) : Int := (q + 1 / 2).floor

/-- A rational held within ±limit. -/
def clampRat (limit q : Rat) : Rat := if q < -limit then -limit else if limit < q then limit else q

/-- LEVEL of the discipline: 0 FREE, 1 LOCKED, 2 HOLDOVER, 3 HOLDOVER_EXPIRED (R300). -/
def tpLevel (s : State) : Nat := s.fld F.TP_STATUS_LEVEL

/-- Every change of LEVEL raises EV_088 (R300). -/
def setLevel (l : Nat) (s : State) : State := if tpLevel s = l then s else raise 88 (s.setFld F.TP_STATUS_LEVEL l)

/-- Timebase time between two instants in seconds. -/
def secondsOf (u : Int) : Rat := (u : Rat) / (secUnits : Rat)

/-- TP_OFFSET in ns as it stands now: the slew term in force acts on the elapsed time (R288). -/
def ofsNow (s : State) : Rat := s.disc.ofs + s.disc.slew * secondsOf (s.nowU - s.disc.ofsMark)

/-- TP_OFFSET's two words (R288): signed 64-bit ps. (Assumption 88, DEDUCED.) -/
def ofsWords (s : State) : Nat := ofSigned 64 (roundRat (ofsNow s * 1000))

/-- TP_OFFSET is brought up to now. -/
def ofsSync (s : State) : State :=
  let s := { s with disc := { s.disc with ofs := ofsNow s, ofsMark := s.nowU } }
  (s.setWord R.TP_OFFSET_LO (BitVec.ofNat 32 (ofsWords s))).setWord R.TP_OFFSET_HI (BitVec.ofNat 32 (ofsWords s / 2 ^ 32))

/-- a of the Sandglass in 10^-13: REF_A while REF_LOST is 1, else SG_A (R301). -/
def sgA (s : State) : Nat := if s.refLost then s.fld F.TP_SG_CFG_REF_A * 10 ^ 7 else s.fld F.TP_SG_CFG_SG_A

/-- The a·t term is brought up to now (R301). -/
def sgAccrue (s : State) : State :=
  let t := secondsOf (s.nowU - s.disc.aMark)
  { s with disc := { s.disc with aAcc := s.disc.aAcc + (sgA s : Rat) * t / 10 ^ 4, aMark := s.nowU } }

/-- t of the Sandglass in seconds. -/
def sgT (s : State) : Rat := match s.disc.ref with | some r => secondsOf (s.nowU - r) | none => 0

/-- A rounded-up value that saturates below "unknown" (R289). -/
def satUnc (q : Rat) : Nat := let n := q.ceil.toNat; if 0xFFFFFFFE < n then 0xFFFFFFFE else n

/-- u(t) in 0.1 ns (R301). -/
def sgU (s : State) : Nat :=
  satUnc ((s.disc.u0 : Rat) + 10 * s.disc.aAcc + (s.fld F.TP_SG_B_SG_B : Rat) * sgT s * sgT s / (2 * 10 ^ 8))

/-- a + b·t in 10^-13 (R300). -/
def sgF (s : State) : Nat := satUnc ((sgA s : Rat) + (s.fld F.TP_SG_B_SG_B : Rat) * sgT s / 10 ^ 5)

/-- TP_UNC, TP_FUNC and TP_HOLD_T take the Sandglass in HOLDOVER and HOLDOVER_EXPIRED (R300, R301). -/
def sandglass (s : State) : State :=
  let s := ofsSync (sgAccrue s)
  if 2 ≤ tpLevel s then
    ((s.setWord R.TP_UNC (BitVec.ofNat 32 (sgU s))).setWord R.TP_FUNC (BitVec.ofNat 32 (sgF s))).setWord R.TP_HOLD_T
      (BitVec.ofNat 32 (satNat 0xFFFFFFFF (sgT s).floor.toNat))
  else s.setWord R.TP_HOLD_T 0

/-- The 1 ms update. -/
def execSandglassUpdate (s : State) : Host.Outcome State Fault Refusal := .next (sandglass s)

/-! FOUT (R295, R296). -/

/-- The division FOUT is to run at, 0 where it is to stop: in BURST it runs only with BURST_ON (R295, R306, R330). (Assumption 160, DEDUCED.) -/
def foutDiv (s : State) : Nat :=
  if s.pwr.hib || (pstate s == 2 && !s.bit F.TP_FOUT_CFG_BURST_ON) then 0 else s.fld F.TP_FOUT_CFG_DIV

/-- The steps by which FOLLOW would move each output period for FOUT to follow TB_RATE: earlier at a positive rate (R296). (Assumption 160, DEDUCED.) -/
def foutWant (s : State) : Rat :=
  if s.bit F.TP_FOUT_CFG_FOLLOW then -((foutDiv s * 2048 : Nat) : Rat) * (toSigned 32 (s.word R.TB_RATE).toNat : Rat) / 2 ^ 44 else 0

/-- FOLLOW beyond its capacity, one step a period, 1 / (DIV × 2,048) of the frequency: FOUT_LIMIT and EV_094 (R296). -/
def foutCheck (s : State) : State :=
  if clampRat 1 (foutWant s) != foutWant s then flagEvent F.TP_STATUS_FOUT_LIMIT 94 s else s

/-- A write of TP_FOUT_CFG: DIV of 1 to 11 is ignored (R295). -/
def opFoutWrite (who : Reader) (v : Word) (s : State) : State :=
  let d := v.toNat % 4096
  let old := s.fld F.TP_FOUT_CFG_DIV
  let s := plainWrite who R.TP_FOUT_CFG v s
  foutCheck (if 1 ≤ d ∧ d ≤ 11 then s.setFld F.TP_FOUT_CFG_DIV old else s)

def execFoutDiv (who : Reader) (v : Word) (s : State) : Host.Outcome State Fault Refusal :=
  .next (gate who R.TP_FOUT_CFG true (opFoutWrite who v) s)

/-- TB_RATE takes a rate, held within its range; true when it was held (R31, R298). -/
def setRate (q : Rat) (s : State) : State × Bool :=
  let r := roundRat (q * 2 ^ 44)
  let h := if r < -(2 ^ 31) then -(2 ^ 31) else if 2 ^ 31 - 1 < r then 2 ^ 31 - 1 else r
  (foutCheck (s.setWord R.TB_RATE (BitVec.ofInt 32 h)), h != r)

/-! Levels (R300, R301, R304). -/

/-- The announced step is withdrawn, and the armed one with it (R304). -/
def pendDrop (s : State) : State :=
  match s.disc.pend with
  | none => s
  | some _ =>
    let s := if s.disc.armed then setArmed none s else s
    { s with disc := { s.disc with pend := none, armed := false } }.setFld F.TP_STATUS_STEP_PENDING 0

/-- HOLDOVER_EXPIRED when t has reached EXPIRY (R300). -/
def expireCheck (s : State) : State :=
  if tpLevel s = 2 ∧ (s.fld F.TP_HOLD_CFG_EXPIRY : Rat) ≤ sgT s then setLevel 3 s else s

/-- HOLDOVER is entered from LOCKED: the slew term drops, TB_RATE takes rest, and a pending step is withdrawn (R301, R304). (Assumption 88, DEDUCED.) -/
def enterHoldover (s : State) : State :=
  if tpLevel s ≠ 1 then s
  else
    let s := ofsSync s
    let s := (setRate s.disc.rest { s with disc := { s.disc with slew := 0 } }).1
    let s := (pendDrop (setLevel 2 s)).setFld F.TP_STATUS_BURST 0
    sandglass (expireCheck s)

/-- Whether the device is a standby twin (R462). -/
def isStandby (s : State) : Bool := s.fld F.TRP_TWIN_STAT_ROLE == 1

/-- The source in force: a standby twin uses TWIN, else SRC (R297): 2 GNSS, 3 TWIN, 4 UPSTREAM. -/
def srcInUse (s : State) : Nat := if isStandby s then 3 else s.fld F.TP_CTRL_SRC

/-- The epoch period of a source (R298): a second for two-way exchanges, and for live fixes the shortest of the rings that capture. (Assumption 88, DEDUCED.) -/
def epochPeriod (src : Nat) (s : State) : Nat :=
  if src ≠ 2 then secUnits
  else secUnits / max 1 ((List.range 10).foldl (fun m n => if s.bit (F.TRK_RING_CTRL_PWR n) then max m (epochRate n s) else m) 0)

/-- Consecutive measurements of a source. -/
def acqOf (src : Nat) (s : State) : Nat := Sparse.get (fun _ => 0) s.disc.acq src

/-- The count of consecutive measurements replaced. -/
def setAcq (src n : Nat) (s : State) : State :=
  { s with disc := { s.disc with acq := Sparse.put (fun _ => 0) s.disc.acq src n } }

/-- An epoch of a source without a measurement ends its run (R298). (Assumption 88, DEDUCED.) -/
def discMiss (src : Nat) (s : State) : State := setAcq src 0 s

/-- LOSS_T seconds have passed without an accepted measurement, and with a LOSS_T of 0 an epoch has (R300). (Assumption 88, DEDUCED.) -/
def lossTime (s : State) : Bool :=
  decide ((s.fld F.TP_CTRL_LOSS_T : Rat) ≤ sgT s) &&
    (s.fld F.TP_CTRL_LOSS_T != 0 || decide (secondsOf (epochPeriod (srcInUse s) s) ≤ sgT s))

def execHoldoverEnter (s : State) : Host.Outcome State Fault Refusal :=
  .next (if tpLevel s = 1 ∧ lossTime s then enterHoldover (discMiss (srcInUse s) s) else s)

/-- t has reached EXPIRY (R300). -/
def execHoldoverExpired (s : State) : Host.Outcome State Fault Refusal := .next (expireCheck s)

/-! Measurements (R297 to R303). -/

/-- Whether live fixes are measurements: REF_LOST 0 for 2 s, and signals not gated (R297). -/
def fixesCount (s : State) : Bool :=
  !s.refLost && !signalsGated s &&
    (match s.fsm.refBackAt with | some t => decide (t + 240000000 ≤ s.tick) | none => true)

/-- The first whole second at least max(STEP_NOTICE s, 20 ms) after an epoch (R303). -/
def stepInstant (e : Nat) (s : State) : Nat :=
  let n := s.fld F.TP_STEP_CFG_STEP_NOTICE
  let w := if n = 0 then secUnits / 50 else n * secUnits
  (e + w + secUnits - 1) / secUnits

/-- K of the OCXO as a fraction per LSB. -/
def kTune (s : State) : Rat := (toSigned 32 (s.word R.TP_OCXO_K).toNat : Rat) / 10 ^ 15

/-- An accepted measurement's steering (R298): freq, TUNE, the rest and TB_RATE, with LIMIT and CFG_ERR. -/
def discSteer (off d dt : Rat) (s : State) : State :=
  let freq := s.disc.freq - d * dt / (s.fld F.TP_LOOP_CFG_TAU_F : Rat)
  let big := decide ((s.fld F.TP_STEP_CFG_STEP_LIMIT : Rat) < (if off < 0 then -off else off))
  let slew := if s.disc.pend.isSome || big then 0
    else clampRat (s.fld F.TP_STEP_CFG_SLEW_MAX : Rat) (-off / (s.fld F.TP_LOOP_CFG_TAU_P : Rat))
  let k := kTune s
  let steer := s.bit F.TP_CTRL_STEER
  let s := if steer && k == 0 then raise 93 (s.setFld F.TP_STATUS_CFG_ERR 1) else s
  let want := (s.disc.tuneBase : Int) + (if k = 0 then 0 else roundRat (freq / k))
  let tune := if want < 0 then 0 else if 1048575 < want then 1048575 else want
  let steers := steer && k != 0
  let rest := if steers then freq - ((tune - s.disc.tuneBase : Int) : Rat) * k else freq
  let s := if steers then s.setFld F.TP_OCXO_TUNE tune.toNat else s
  let (s, held) := setRate (rest + slew / 10 ^ 9) { s with disc := { s.disc with freq := freq, rest := rest, slew := slew } }
  if held || (steers && tune != want) then raise 92 (s.setFld F.TP_STATUS_LIMIT 1) else s

/-- A large offset with no step pending announces one (R303). -/
def discAnnounce (src epoch : Nat) (off : Rat) (s : State) : State :=
  if s.disc.pend.isNone && decide ((s.fld F.TP_STEP_CFG_STEP_LIMIT : Rat) < (if off < 0 then -off else off)) then
    raise 89 ({ s with disc := { s.disc with pend := some (stepInstant epoch s, src), armed := false } }.setFld
      F.TP_STATUS_STEP_PENDING 1)
  else s

/-- A measurement is accepted (R298, R300, R302, R303): `off` and `unc` in ns and 0.1 ns, the epoch in units. -/
def discAccept (src epoch : Nat) (off d : Rat) (unc func : Nat) (s : State) : State :=
  let dt : Rat :=
    if s.disc.fresh then 0
    else match s.disc.ref with
      | some r => let t := secondsOf ((epoch : Int) - r); if 1 < t then 1 else t
      | none => 0
  let s := discSteer off d dt s
  let s := discAnnounce src epoch off s
  let s := { s with disc := { s.disc with
    fresh := false, ref := some epoch, u0 := unc, aAcc := 0, aMark := epoch, ofs := off, ofsMark := s.nowU } }
  let s := ((setLevel 1 s).setWord R.TP_UNC (BitVec.ofNat 32 unc)).setWord R.TP_FUNC (BitVec.ofNat 32 func)
  let s := ofsSync ((s.setWord R.TP_HOLD_T 0).setFld F.TP_STATUS_SRC_ACT src)
  s.setBit F.TP_STATUS_BURST (src == 2 && pstate s == 2)

/-- A measurement continues its source's run where it comes one epoch after the one before, to the 2^-32 s that epochs are given in,
or begins one (R298). (Assumption 88, DEDUCED.) -/
def acqCount (src epoch : Nat) (s : State) : State :=
  let run : Bool := match Sparse.get (fun _ => (none : Option Int)) s.disc.acqAt src with
    | some e => decide (((epoch : Int) - e) ≤ ((epochPeriod src s + fracUnits : Nat) : Int))
    | none => false
  let s := setAcq src (satNat 15 (if run then acqOf src s + 1 else 1)) s
  { s with disc := { s.disc with acqAt := Sparse.put (fun _ => none) s.disc.acqAt src (some (epoch : Int)) } }

/-- A measurement of a source reaches the discipline (R297, R298): accepted in LOCKED, elsewhere as the last of ACQ_N
consecutive ones; not at all while DISC_EN is 0, and counted only where it is not the source in use. (Assumption 88, DEDUCED.) -/
def discMeasure (src epoch : Nat) (off d : Rat) (unc func : Nat) (s : State) : State :=
  if !s.bit F.TP_CTRL_DISC_EN then s
  else
    let s := acqCount src epoch s
    if src ≠ srcInUse s then s
    else if tpLevel s = 1 ∨ s.fld F.TP_CTRL_ACQ_N ≤ acqOf src s then discAccept src epoch off d unc func s
    else s

/-- A converged live fix as a measurement: CLK_BIAS in ps and DRIFT in 10^-12, epoch E (R297, R300). -/
def discFix (epoch : Nat) (bias drift : Int) (s : State) : State :=
  if !fixesCount s then discMiss 2 s
  else
    let unc := 10 * (if pstate s = 2 then s.fld F.TP_UNC_CFG_BURST_FLOOR else s.fld F.TP_UNC_CFG_UNC_FLOOR)
    discMeasure 2 epoch ((bias : Rat) / 1000) ((drift : Rat) / 10 ^ 12) unc (s.fld F.TP_UNC_CFG_F_FLOOR) s

/-- A two-way measurement: the peer's TP_UNC and TP_FUNC serve (R300, R467). -/
def discPeer (src epoch : Nat) (off d : Rat) (unc func : Nat) (s : State) : State :=
  discMeasure src epoch off d (if unc = 0xFFFFFFFF then unc else satNat 0xFFFFFFFE (unc + 5)) func s

/-- REF_LOST becomes 1 (R305): the Sandglass's a·t term so far keeps its rate, and a LOCKED device enters HOLDOVER. -/
def discRefLost (s : State) : State := enterHoldover s

/-- A step of an amount in units has been applied: TP_OFFSET and the reference instants move with it, and an announced
step that was applied is over (R288, R299, R301, R303). -/
def discStep (amount : Int) (s : State) : State :=
  let d := s.disc
  let ours := d.armed
  let s := { s with disc := { d with
    ofs := d.ofs + secondsOf amount * 10 ^ 9, ofsMark := d.ofsMark + amount, ref := d.ref.map (· + amount),
    aMark := d.aMark + amount, acqAt := d.acqAt.map (fun p => (p.1, p.2.map (· + amount))), pend := if ours then none else d.pend, armed := false } }
  ofsSync (if ours then s.setFld F.TP_STATUS_STEP_PENDING 0 else s)

/-- 10 ms before I the announced step is armed with ARM_SECOND (R303): its amount is −TP_OFFSET of the latest accepted
measurement, rounded to 2^-32 s, and its SOURCE that measurement's. (Assumption 89, DEDUCED.) -/
def execAnnouncedStepArm (s : State) : Host.Outcome State Fault Refusal :=
  .next (match s.disc.pend with
    | some (sec, _) =>
      if s.disc.armed ∨ s.nowU + secUnits / 100 < sec * secUnits then s
      else
        let a := roundRat (-(ofsNow s) * 2 ^ 32 / 10 ^ 9)
        let s := setArmed (some ⟨a * fracUnits, s.fld F.TP_STATUS_SRC_ACT, some sec, s.tick⟩) s
        { s with disc := { s.disc with armed := true } }
    | none => s)

/-- A write of TP_CTRL; DISC_EN ends or resumes steering, and at its end TB_RATE takes the holdover value, which a FREE device does
not have (R298, R299, R301). (Assumption 88, DEDUCED.) -/
def opTpCtrlWrite (who : Reader) (v : Word) (s : State) : State :=
  let was := s.bit F.TP_CTRL_DISC_EN
  let src := bitsOf v.toNat 23 20
  let old := s.fld F.TP_CTRL_SRC
  let s := plainWrite who R.TP_CTRL v s
  let s := if src = 2 ∨ src = 3 ∨ src = 4 then s else s.setFld F.TP_CTRL_SRC old
  let on := s.bit F.TP_CTRL_DISC_EN
  if was && !on then
    let s := enterHoldover { s with disc := { s.disc with acq := [] } }
    if tpLevel s = 0 then s else (setRate s.disc.rest { s with disc := { s.disc with slew := 0 } }).1
  else if !was && on then
    { s with disc := { s.disc with tuneBase := s.fld F.TP_OCXO_TUNE, fresh := true, acq := [] } }
  else s

def execDiscEnWrite (who : Reader) (v : Word) (s : State) : Host.Outcome State Fault Refusal :=
  .next (gate who R.TP_CTRL true (opTpCtrlWrite who v) s)

/-! Pulses (R290 to R293, R585). -/

/-- An output's state outside its registers. -/
def tpOut (s : State) (n : Nat) : PulseOut := Sparse.get (fun _ => {}) s.tp n

/-- An output's state replaced. -/
def setTp (s : State) (n : Nat) (p : PulseOut) : State := { s with tp := Sparse.put (fun _ => {}) s.tp n p }

/-- A picosecond in units: 120,000,000 × 2^44 / 10^12, rounded to the nearest unit. -/
def psUnits (ps : Int) : Int := roundRat ((ps : Rat) * (secUnits : Rat) / 10 ^ 12)

/-- ARM_PULSE arms an edge at the due time plus TP_n_DELAY (R290); M of a periodic entry is half its period (R291). -/
def armPulse (i n : Nat) (s : State) : State :=
  let e := ttEntry s i
  let at_ := ((e.due * fracUnits : Nat) : Int) + psUnits (toSigned 32 (s.word (R.TP_DELAY n)).toNat)
  let sp := if e.period = 0 then none else some (e.period * fracUnits / 2)
  setTp s n { tpOut s n with armed := (tpOut s n).armed ++ [⟨at_, sp⟩] }

def execArmPulse (i : BitVec 12) (s : State) : Host.Outcome State Fault Refusal :=
  .next (ttDispatch i.toNat 5 (fun p s => armPulse i.toNat (p % 2) s) s)

/-- An output is squelched (R292). -/
def squelched (s : State) : Bool :=
  !s.bit F.TB_STATUS_VALID || (tpLevel s == 0 && !s.bit F.TP_CTRL_FREE_OUT) ||
    (tpLevel s == 3 && s.bit F.TP_CTRL_EXP_SQUELCH)

/-- The device holds the active role: ACTIVE, or SOLO (R293, R462). -/
def activeRole (s : State) : Bool := s.bit F.TP_STATUS_ACTIVE

/-- The driver of an output is on (R293). -/
def tpDriven (n : Nat) (s : State) : Bool :=
  s.fld (F.TP_CFG_OE n) == 1 || (s.fld (F.TP_CFG_OE n) == 2 && activeRole s)

/-- An edge is suppressed (R291, R585). (Assumption 87, DEDUCED.) -/
def tpSuppress (n : Nat) (s : State) : State :=
  raise 90 ((s.setFld (F.TP_STAT_SUPP_CNT n) (satNat 0xFFFF (s.fld (F.TP_STAT_SUPP_CNT n) + 1))).setFld
    F.TP_STATUS_SUPPRESSED 1)

/-- The time by which edges are placed: the timebase, or TSYN's own cycle count while the core domains are held (R33, R320). -/
def edgeNow (s : State) : Nat :=
  if s.coarse then s.ck.holdU else s.nowU

/-- Steps of TSYN's interpolator, of 1/2,048 FCORE period, in an FS tick (R290). -/
abbrev tickGrid : Nat := 20480

/-- The real instant, in 2^-44 FS tick, at which the timebase reads a value near the present one. Ticks moved by an absorption
keep the real instants of TSYN's edges where they were (R317). -/
def realAt (u : Int) (s : State) : Nat :=
  let now : Int := (s.tick * tickUnits : Nat) + s.ck.absorbed * (tickUnits : Int) / (tickGrid : Int)
  if s.tickStep = 0 then now.toNat
  else (now + (u - edgeNow s) * (tickUnits : Int) / (s.tickStep : Int)).toNat

/-- The present tick on TSYN's grid. -/
def gridNow (s : State) : Int := (s.tick * tickGrid : Nat) + s.ck.absorbed

/-- The nearest step of the interpolator to a real instant (R290). -/
def gridAt (real : Nat) : Nat := (2 * real * tickGrid + tickUnits) / (2 * tickUnits)

/-- The active level of an output: high with POL 0 (R290). -/
def activeLevel (n : Nat) (s : State) : Bool := !s.bit (F.TP_CFG_POL n)

/-- The first armed edge of an output, by instant. -/
def firstEdge (n : Nat) (s : State) : Option Edge :=
  (tpOut s n).armed.foldl (fun (b : Option Edge) e =>
    match b with
    | some c => if e.at_ < c.at_ then some e else b
    | none => some e) none

/-- An armed edge's instant comes (R291, R292): emitted, suppressed, refused for its width, both of these, or squelched. -/
def edgeLeaves (n : Nat) (e : Edge) (s : State) : State :=
  let p := tpOut s n
  let s := setTp s n { p with armed := p.armed.erase e }
  let w := s.fld (F.TP_WIDTH_WIDTH n) * usUnits
  let m := e.spacing.getD (2 * w)
  let at_ := realAt e.at_ s
  let near : Bool := match p.last with | some l => decide (at_ < l + m) | none => false
  if squelched s || w == 0 then s
  else if near || decide (m ≤ w) then
    let s := if near then tpSuppress n s else s
    if m ≤ w then raise 93 (s.setFld F.TP_STATUS_CFG_ERR 1) else s
  else
    let g := gridAt at_
    let s := setTp s n { tpOut s n with last := some at_, high := true, ends := g + s.fld (F.TP_WIDTH_WIDTH n) * 120 * tickGrid }
    let s := s.setFld (F.TP_STAT_PULSES n) (s.fld (F.TP_STAT_PULSES n) + 1)
    if tpDriven n s then s.emit (.pulse n (e.at_.toNat / fracUnits) g (activeLevel n s)) else s

/-- The leading edge of an output whose instant falls in the present tick or before it. (Assumption 87, DEDUCED.) -/
def execPulseEdge (n : Fin 2) (s : State) : Host.Outcome State Fault Refusal :=
  .next (match firstEdge n.val s with
    | some e => if e.at_ < edgeNow s + s.tickStep then edgeLeaves n.val e s else s
    | none => s)

/-- The trailing edge, in the FS tick in which WIDTH µs of TSYN cycles after the leading edge end (R290); a pulse that was in progress
at a reset releases TP0 and ACTIVE when it ends (R310). (Assumption 87, DEDUCED.) -/
def pulseTrail (n : Nat) (s : State) : State :=
  let p := tpOut s n
  if p.high && decide ((p.ends : Int) < gridNow s + tickGrid) then
    let s' := setTp s n { p with high := false, held := false }
    let s' := if p.held && n == 0 then s'.setFld F.TP_STATUS_ACTIVE 0 else s'
    if p.held || tpDriven n s then s'.emit (.pulseEnd n p.ends (!activeLevel n s)) else s'
  else s

def execPulseTrail (n : Fin 2) (s : State) : Host.Outcome State Fault Refusal := .next (pulseTrail n s)

/-- A forward step has passed over armed edges before their instants: they are not emitted, and counted but where the output is
squelched or emits nothing (R291, R292, R585). `before` and `after`
are the timebase on the two sides of the step; an edge at the step instant itself has left. (Assumption 87, DEDUCED.) -/
def edgesPassed (before after : Nat) (s : State) : State :=
  [0, 1].foldl (fun s n =>
    ((tpOut s n).armed.filter (fun e => decide ((before : Int) < e.at_) && decide (e.at_ < (after : Int)))).foldl (fun s e =>
      let s := setTp s n { tpOut s n with armed := (tpOut s n).armed.erase e }
      if squelched s || s.fld (F.TP_WIDTH_WIDTH n) == 0 then s else tpSuppress n s) s) s

/-- Edges due at or before an instant leave before a step is applied there (R303). -/
def edgesDue (u : Nat) (s : State) : State :=
  [0, 1].foldl (fun s n =>
    ((tpOut s n).armed.filter (fun e => decide (e.at_ ≤ (u : Int)))).foldl (fun s e => edgeLeaves n e s) s) s

/-- A write of TP_n_CFG: OE 3, and OE 2 on TP1, are ignored (R293). -/
def opTpCfgWrite (who : Reader) (n : Nat) (v : Word) (s : State) : State :=
  let oe := v.toNat / 2 ^ 30
  let old := s.fld (F.TP_CFG_OE n)
  let s := plainWrite who (R.TP_CFG n) v s
  if oe = 3 ∨ (oe = 2 ∧ n = 1) then s.setFld (F.TP_CFG_OE n) old else s

/-! The twin's handover (R308, R309). -/

/-- The peer's serial, learned at T0 training. -/
def peerSerial (p : Nat) (s : State) : Nat :=
  (s.word (R.TRP_PORT_PEER_HI p)).toNat * 2 ^ 32 + (s.word (R.TRP_PORT_PEER_LO p)).toNat

/-- The present tick is a pulse-safe point (R308): midway between two due times of the periodic entry that arms TP0, or where there is
none half a second past a whole second that came after the takeover fell due. (Assumption 92, DEDUCED.) -/
def pulseSafe (s : State) : Bool :=
  let e := s.tt.find? (fun p => p.2.armed && p.2.action == 5 && p.2.param % 2 == 0 && p.2.period != 0)
  let (period, mid) : Nat × Int := match e with
    | some p => (p.2.period * fracUnits, ((p.2.due * fracUnits : Nat) : Int) - ((p.2.period * fracUnits / 2 : Nat) : Int))
    | none => (secUnits, ((secUnits / 2 : Nat) : Int))
  decide (((s.nowU : Int) - mid) % (period : Int) < (s.tickStep : Int)) &&
    (e.isSome || decide ((s.disc.takeFrom / secUnits + 1) * secUnits ≤ s.nowU))

/-- The device's identity serial (R1). -/
def ownSerial (s : State) : Nat := (s.word R.DEV_SERIAL_HI).toNat * 2 ^ 32 + (s.word R.DEV_SERIAL_LO).toNat

/-- The active role is taken: ACTIVE is asserted, TP0 driven under OE 2, and the source in use is SRC (R308). (Assumption 92, DEDUCED.) -/
def takeRole (s : State) : State :=
  let s := { s with disc := { s.disc with takeover := false } }
  ((s.setFld F.TRP_TWIN_STAT_ROLE 2).setFld F.TP_STATUS_ACTIVE 1).setFld F.TP_STATUS_SRC_ACT (s.fld F.TP_CTRL_SRC)

/-- At the pulse-safe point, with TWIN_ACTIVE_IN at the level given, the standby takes the active role, unless TWIN_ACTIVE_IN is asserted by a peer of higher serial or
the peer's serial is unknown (R308, R309). (Assumption 92, DEDUCED.) -/
def execTakeover (pin : Bool) (s : State) : Host.Outcome State Fault Refusal :=
  let s := { s with twinPin := pin }
  .next (
    if pulseSafe s && s.disc.takeover && isStandby s && !(s.twinPin && decide (ownSerial s ≤ peerSerial 0 s)) && peerSerial 0 s != 0 then
      raise 91 ((takeRole s).setFld F.TP_STATUS_TAKEOVER 1)
    else s)

/-- An active device sees TWIN_ACTIVE_IN asserted by a peer of higher serial: it yields (R309). (Assumption 92, DEDUCED.) -/
def execTwinYield (s : State) : Host.Outcome State Fault Refusal :=
  .next (
    if s.fld F.TRP_TWIN_STAT_ROLE = 2 ∧ ownSerial s < peerSerial 0 s then
      let s := { s with twinPin := true }
      raise 91 (((s.setFld F.TRP_TWIN_STAT_ROLE 1).setFld F.TP_STATUS_ACTIVE 0).setFld F.TP_STATUS_YIELDED 1)
    else s)

end Sys2Proof.Machine
end

