-- ==== Sys2Proof/Machine/Sky.lean ====
section
/-! DEFINITION. Sky table, orbit queries, ionosphere and live solves (chapter 10). -/
namespace Sys2Proof.Machine

/-- A slot of the current epoch. -/
def skySlot (s : State) (i : Nat) : List Byte := Sparse.get (fun _ => emptySlot) s.sky.cur i

/-- A slot of the pending bank. -/
def skyPending (s : State) (i : Nat) : List Byte := Sparse.get (fun _ => emptySlot) s.sky.pend i

/-- A slot of the pending bank replaced. -/
def setPending (s : State) (i : Nat) (b : List Byte) : State :=
  { s with sky := { s.sky with pend := Sparse.put (fun _ => emptySlot) s.sky.pend i b } }

/-- The survey position is valid (R284). -/
def surveyValid (s : State) : Bool := s.word R.SOL_SURVEY_UNC != 0xFFFFFFFF

/-- A coordinate of the survey position in mm. -/
def surveyCoord (s : State) (k : Nat) : Int :=
  toSigned 64 ((s.word (R.SOL_SURVEY_POS (2 * k + 1))).toNat * 2 ^ 32 + (s.word (R.SOL_SURVEY_POS (2 * k))).toNat)

/-- The reference position (R260): survey, last converged live fix, none. -/
def refPos (s : State) : Option (List Int) :=
  if surveyValid s then some [surveyCoord s 0, surveyCoord s 1, surveyCoord s 2]
  else s.sky.fix.map (fun f => [f.x, f.y, f.z])

/-- A position in mm as a vector in metres. -/
def posVec (l : List Int) : Vec := ⟨((l.getD 0 0 : Int) : Rat) / 1000, ((l.getD 1 0 : Int) : Rat) / 1000, ((l.getD 2 0 : Int) : Rat) / 1000⟩

/-- The ionosphere registers as they stand (R271). -/
def ionoRegs (s : State) : IonoRegs :=
  let bytes (w : Word) : List Int := (List.range 4).map (fun i => toSigned 8 (w.toNat / 256 ^ i))
  { valid := s.bit F.SKY_STAT_IONO_VALID
    coef := (List.range 6).map (fun j => toSigned 32 (s.word (R.SKY_IONO_C j)).toNat)
    lat := toSigned 16 (s.fld F.SKY_IONO_ORIGIN_LAT)
    lon := toSigned 16 (s.fld F.SKY_IONO_ORIGIN_LON)
    alpha := bytes (s.word R.SKY_KLOB_A)
    beta := bytes (s.word R.SKY_KLOB_B) }

/-- What takes GPST to a satellite's own system time on the GPS epoch, in seconds (R42, R164, R266). (Assumption 155, DESIGN CHOICE.) -/
def sysOffset (sat : Nat) (s : State) : Rat :=
  match systemOf sat with
  | some 1 => (toSigned 16 (s.fld F.TB_OFS_SYS_GST_OFS) : Rat) / 2 ^ 32
  | some 2 => (toSigned 16 (s.fld F.TB_OFS_SYS_BDT_RES) : Rat) / 2 ^ 32 - 14
  | some 3 => (toSigned 16 (s.fld F.TB_LEAP_UTC_RES) : Rat) / 2 ^ 32
  | _ => 0

/-- Seconds of an SPT80 value. -/
def secOf (t : Nat) : Rat := (t : Rat) / 2 ^ 32

/-- A satellite's slot seen at an instant from a position in mm: elevation, azimuth and range rate (R260). -/
def slotLook (i : Nat) (b : List Byte) (t : Nat) (pos : List Int) (s : State) : Int × Nat × Int :=
  lookAt i b (secOf t + sysOffset i s) (posVec pos)

/-- A satellite's elevation at an instant from a position in mm, in degrees. -/
def slotElev (i : Nat) (b : List Byte) (t : Nat) (pos : List Int) (s : State) : Rat :=
  let p := posVec pos
  degrees (elAz p (geoOf p) (orbitEval i b (secOf t + sysOffset i s)).pos).1

/-- A key that falls as an elevation rises, exact to the last place of the model's numbers. -/
def elevKey (el : Rat) : Nat := ((90 - el) * 2 ^ 110).floor.toNat

/-! Ports (R262, R265). -/

/-- FORM fits the index (R262). (Assumption 84, DEDUCED.) -/
def formFits (i form : Nat) : Bool :=
  match form with
  | 0 => true
  | 1 => bdsGeo i
  | 2 => systemOf i == some 3 || systemOf i == some 6
  | _ => false

/-- The words of the model block that R262 checks. (Assumption 84, DEDUCED.) -/
def modelOk (b : List Byte) (form : Nat) : Bool :=
  (List.range 26).all (fun k => bitsOf (modelWord b k) 62 52 != 0x7FF) &&
    (form == 2 ||
      (!(modelWord b 2).testBit 63 && modelWord b 2 != 0 &&
        (modelWord b 3 == 2 ^ 63 || decide (modelWord b 3 < 0x3FF0000000000000))))

/-- Whether a WRITE of a slot is accepted (R262). (Assumption 84, DEDUCED.) -/
def slotOk (i : Nat) (b : List Byte) : Bool :=
  let k := toSigned 8 (leAt b 2 1)
  decide (i ≤ 220) && leAt b 0 1 / 32 == 0 && leAt b 29 3 == 0 && leAt b 240 16 == 0 && slotContent b != 3 &&
    decide (leAt b 1 1 ≤ 2) && formFits i (leAt b 1 1) && decide (-7 ≤ k) && decide (k ≤ 6) &&
    (k == 0 || systemOf i == some 3) && (slotContent b == 0 || modelOk b (leAt b 1 1))

/-- The slot a WRITE stores: device fields 0, and a zero model when EMPTY. -/
def slotStored (b : List Byte) : List Byte :=
  let b := putAt (putAt (putAt b 3 [0]) 20 (List.replicate 8 0)) 28 [0]
  if slotContent b = 0 then b.take 32 ++ List.replicate 224 0 else b

/-- A slot is written into the pending bank, or refused (R262). -/
def skyWrite (i : Nat) (b : List Byte) (s : State) : Nat × State :=
  if slotOk i b then (ST.ok, setPending s i (slotStored b)) else (ST.format, s)

/-- The bytes of a list of words. -/
def wordBytes (ws : List Word) : List Byte := ws.flatMap (fun w => leBytes 4 w.toNat)

/-- The words of a list of bytes, `n` of them. -/
def bytesWords : Nat → List Byte → List Word
  | 0, _ => []
  | n + 1, bs => BitVec.ofNat 32 (leNat (bs.take 4)) :: bytesWords n (bs.drop 4)

/-- A completed sky port command's effect (R265). -/
def skyPortDo (r : Reader) (c : PortCmd) (s : State) : Nat × State :=
  let i := c.ctrl % 256
  match bitsOf c.ctrl 13 12 with
  | 1 =>
    let b := if 220 < i then emptySlot else if c.ctrl.testBit 15 then skyPending s i else skySlot s i
    (ST.ok, setPortWindow skyPorts r (bytesWords 64 b) s)
  | 2 => skyWrite i (wordBytes c.window) s
  | 3 => if 220 < i then (ST.format, s) else (ST.ok, setPending s i emptySlot)
  | _ => (ST.ok, s)

def execSkyPortRead (who : Reader) (pending : Bool) (i : Byte) (s : State) : Host.Outcome State Fault Refusal :=
  .next (gate who R.SKY_PORT_CTRL true
    (opPortCtrl skyPorts who (portWord skyPorts 1 ((if pending then 2 ^ 15 else 0) + i.toNat))) s)

def execSkyPortWrite (who : Reader) (i : Byte) (s : State) : Host.Outcome State Fault Refusal :=
  .next (gate who R.SKY_PORT_CTRL true (opPortCtrl skyPorts who (portWord skyPorts 2 i.toNat)) s)

def execSkyPortClear (who : Reader) (i : Byte) (s : State) : Host.Outcome State Fault Refusal :=
  .next (gate who R.SKY_PORT_CTRL true (opPortCtrl skyPorts who (portWord skyPorts 3 i.toNat)) s)

/-- The sky port commands that are due complete. -/
def execSkyPortComplete (s : State) : Host.Outcome State Fault Refusal := .next (portsComplete skyPorts skyPortDo s)

/-! Ionosphere (R272, R273). -/

/-- IONO_VALID follows IONO_EN and the model's age; a change raises EV_081 (R272). (Assumption 85, DEDUCED.) -/
def ionoCheck (s : State) : State :=
  let ref := s.widen (s.fld F.SKY_IONO_REF_SEC_LO * 2 ^ 32) / 2 ^ 32
  let v := s.sky.ionoSet && s.bit F.SKY_CFG_IONO_EN && decide (s.tb.sec ≤ ref + s.fld F.SKY_CFG_IONO_AGE)
  if v = s.bit F.SKY_STAT_IONO_VALID then s else raise 81 (s.setBit F.SKY_STAT_IONO_VALID v)

/-- The model's age passes IONO_AGE. -/
def execIonoAgeExpiry (s : State) : Host.Outcome State Fault Refusal := .next (ionoCheck s)

/-- A write of an ionosphere coefficient, its second or origin; the model is set from then on. -/
def opIonoWrite (who : Reader) (off : Nat) (v : Word) (s : State) : State :=
  let s := plainWrite who off v s
  if off = R.SKY_IONO_REF then ionoCheck { s with sky := { s.sky with ionoSet := true } } else s

/-- The home chain of a measurement record's signal. -/
def recChain (r : List Byte) : Nat := match sigOf (leAt r 1 1 % 64) with | some g => g.chain | none => 4

/-- CODE_LOCK of a measurement record (R164). -/
def recLocked (r : List Byte) : Bool := (leAt r 34 2).testBit 0

/-- The satellites a fit uses (R272). -/
def fitSats (s : State) : List Nat :=
  (List.range 221).filter (fun i =>
    let rs := s.sky.obs.filter (fun r => leAt r 0 1 == i && recLocked r)
    rs.any (fun r => recChain r == 0) && rs.any (fun r => recChain r != 0) &&
      decide (1500 ≤ toSigned 16 (leAt (skySlot s i) 20 2)) && !satExcluded i s)

/-- Carrier of a signal of a satellite in Hz; GLONASS channels by GLO_K of the sky table (R126, R260). -/
def carrierHz (code sat : Nat) (s : State) : Nat :=
  let k := toSigned 8 (leAt (skySlot s sat) 2 1)
  match sigOf code with
  | none => 0
  | some g =>
    let step : Int := if code = 0x18 then 562500 else if code = 0x19 then 437500 else 0
    ((g.carrier : Int) * 1000 + step * k).toNat

/-- The carrier of a record's signal. -/
def recCarrier (r : List Byte) (s : State) : Nat := carrierHz (leAt r 1 1 % 64) (leAt r 0 1) s

/-- c·(E − TOT) of a record in metres, TOT as it stands (R275). -/
def recRange (r : List Byte) : Rat :=
  (lightSpeed : Rat) * (toSigned 64 ((leAt r 4 8 + 2 ^ 64 - leAt r 40 8) % 2 ^ 64) : Rat) / 2 ^ 32

/-- The records of a satellite on chain b and on chain A at each epoch that has both, of each the lowest channel's; those of the
signals of the first such pair (R272). (Assumption 157, DEDUCED.) -/
def pairRecs (i b : Nat) (s : State) : List (List Byte × List Byte) :=
  let rs (c : Nat) := orderBy (fun r => leAt r 2 2 % 512) (s.sky.obs.filter (fun r =>
    leAt r 0 1 == i && recLocked r && recChain r == c && leAt r 49 1 == 3))
  let first (l : List (List Byte)) (e : Nat) := l.find? (fun r => leAt r 4 8 == e)
  let sigs (p : List Byte × List Byte) := (leAt p.1 1 1, leAt p.2 1 1)
  let ps := ((rs 0).map (fun r => leAt r 4 8)).eraseDups.filterMap (fun e =>
    match first (rs b) e, first (rs 0) e with
    | some y, some x => some (y, x)
    | _, _ => none)
  ps.filter (fun p => ps.head?.map sigs == some (sigs p))

/-- The rows a satellite gives a fit, seen from the reference position (R272). (Assumption 157, DEDUCED.) -/
def fitRows (p : Vec) (lat lon : Int) (i : Nat) (s : State) : List FitRow :=
  let b := skySlot s i
  let g := geoOf p
  let ea := elAz p g (orbitEval i b (secOf s.now80 + sysOffset i s)).pos
  let o := pierceOffset ((lat : Rat) / 100) ((lon : Rat) / 100) g ea.1 ea.2
  [1, 2, 3].filterMap (fun c =>
    match pairRecs i c s with
    | [] => none
    | (y, x) :: ps =>
      let ds := ((y, x) :: ps).map (fun p => recRange p.1 - recRange p.2)
      some ⟨ea.1, o.1, o.2, c, recCarrier x s, recCarrier y s,
        ds.sum / (ds.length : Rat) + (lightSpeed : Rat) * (groupDelay b c - groupDelay b 0)⟩)

/-- A held IBB value in seconds. -/
def ibbHeld (s : State) (b : Nat) : Rat := (toSigned 32 (s.word (R.SKY_IBB b)).toNat : Rat) / 10 ^ 12

/-- A fit's results are written (R272, R273): the coefficients, with IBB_LEARN the biases of the chains that gave records, the
second and the origin. -/
def fitWrite (learn : Bool) (lat lon : Int) (chains : List Nat) (z : List Rat) (s : State) : State :=
  let sat32 (x : Rat) : Word := BitVec.ofInt 32 (max (-(2 ^ 31)) (min (2 ^ 31 - 1) (Num.round x)))
  let s := (List.range 6).foldl (fun s j => s.setWord (R.SKY_IONO_C j) (sat32 (1000 * z.getD j 0))) s
  let s := if learn then chains.zipIdx.foldl (fun s c => s.setWord (R.SKY_IBB c.1) (sat32 (10 ^ 12 * z.getD (6 + c.2) 0))) s else s
  let s := s.setWord R.SKY_IONO_REF (BitVec.ofNat 32 s.tb.sec)
  let s := (s.setFld F.SKY_IONO_ORIGIN_LAT (ofSigned 16 lat)).setFld F.SKY_IONO_ORIGIN_LON (ofSigned 16 lon)
  mirrorNote 2 0 { s with sky := { s.sky with ionoSet := true } }

/-- A fit at a commit (R272, R273): with fewer than 10 satellites, or without a reference position, nothing changes. (Assumption 85, DEDUCED.) (Assumption 32, DEDUCED.) -/
def ionoFit (s : State) : State :=
  let p := s.fld F.SKY_CFG_IONO_PERIOD
  match refPos s with
  | none => s
  | some pos =>
    if p = 0 ∨ s.tb.sec % p ≠ 0 ∨ !s.bit F.SKY_CFG_IONO_EN ∨ pstate s = 2 then s
    else
      let sats := fitSats s
      let done := { s with sky := { s.sky with obs := [] } }
      if sats.length < 10 then done
      else
        let v := posVec pos
        let g := geoOf v
        let lat := Num.round (100 * degrees g.lat)
        let lon := Num.round (100 * degrees g.lon)
        let learn := s.bit F.SKY_CFG_IBB_LEARN
        match fitSolve learn (ibbHeld s) (sats.flatMap (fun i => fitRows v lat lon i s)) with
        | some z => fitWrite learn lat lon z.1 z.2 done
        | none => done

/-! Commits (R263). -/

/-- The sky epochs that stages in progress read. -/
def epochsRead (s : State) : List Nat :=
  (s.sky.live.map (·.epoch)) ++ s.car.jobs.filterMap (fun p => p.2.bind (·.epoch))

/-- A slot without its device-written fields (R260): what a mirror carries over. -/
def slotBody (b : List Byte) : List Byte := putAt (putAt b 3 [0]) 20 (List.replicate 9 0)

/-- A slot with its device-written fields as of a commit; without a reference position they are 0 (R260, R263). (Assumption 85, DEDUCED.) -/
def slotCommit (i : Nat) (s : State) (b : List Byte) : List Byte :=
  if slotContent b = 0 then b
  else
    match refPos s with
    | none => slotBody b
    | some pos =>
      let z := slotLook i b s.now80 pos s
      let fl := (if inFit b s.now80 then 0 else 1) + (if 0 ≤ z.1 then 2 else 0)
      putAt (putAt (putAt b 28 [BitVec.ofNat 8 (verdict i s)]) 3 [BitVec.ofNat 8 fl]) 20
        (leBytes 2 (ofSigned 16 z.1) ++ leBytes 2 z.2.1 ++ leBytes 4 (ofSigned 32 z.2.2))

/-- What a change of raises EV_080: CONTENT, HEALTHY and IOD. -/
def slotKey (b : List Byte) : Nat × Bool × Nat := (slotContent b, slotHealthy b, leAt b 4 4)

/-- The slots that differ between two banks wait for their mirrors (R460). (Assumption 107, DEDUCED.) -/
def mirrorSlots (old new : Sparse (List Byte)) (s : State) : State :=
  ((List.range 256).filter (fun i => slotBody (Sparse.get (fun _ => emptySlot) old i) !=
    slotBody (Sparse.get (fun _ => emptySlot) new i))).foldl (fun s i => mirrorNote 1 i s) s

/-- A commit (R263): deferred while it would need a third readable epoch. -/
def skyCommit (s : State) : State :=
  if (epochsRead s).any (fun e => e != s.sky.epochs) then raise 82 (s.setFld F.SKY_STAT_COMMIT_DEFER 1)
  else
    let bank := s.sky.pend.foldl (fun (m : Sparse (List Byte)) (p : Nat × List Byte) =>
      Sparse.put (fun _ => emptySlot) m p.1 (slotCommit p.1 s p.2)) []
    let changed := (List.range 221).any (fun i =>
      slotKey (Sparse.get (fun _ => emptySlot) bank i) != slotKey (skySlot s i))
    let cnt := ((List.range 221).filter (fun i => slotUsable (Sparse.get (fun _ => emptySlot) bank i) s.now80)).length
    let s := mirrorSlots s.sky.cur bank { s with sky := { s.sky with cur := bank, epochs := s.sky.epochs + 1 } }
    let s := setInput 10 1 ((s.setFld F.SKY_STAT_EPOCH (s.sky.epochs)).setFld F.SKY_STAT_EPH_CNT cnt)
    ionoCheck (ionoFit (if changed then raise 80 s else s))

/-- A commit comes in the FS tick in which a whole second begins; in HIBERNATE the block is off (R263, R287). -/
def execSkyCommit (s : State) : Host.Outcome State Fault Refusal :=
  .next (if wholeSecond s && !s.pwr.hib then skyCommit s else s)

/-! Queries (R269). -/

/-- A reader's query in progress. -/
def skyQuery (r : Reader) (s : State) : Option (Nat × List Word) :=
  Sparse.get (fun _ => none) s.sky.query (readerIdx r)

/-- A reader's query replaced. -/
def setQuery (r : Reader) (q : Option (Nat × List Word)) (s : State) : State :=
  { s with sky := { s.sky with query := Sparse.put (fun _ => none) s.sky.query (readerIdx r) q } }

/-- The words of an orbit at an instant of GPST: X, Y, Z, velocity, clock without a group delay, and clock rate (R269). (Assumption
155, DESIGN CHOICE.) (Assumption 31, DESIGN CHOICE; assumption 155, DESIGN CHOICE.) -/
def orbitWords (i : Nat) (b : List Byte) (t : Nat) (s : State) : List Word :=
  let o := orbitEval i b (secOf t + sysOffset i s)
  let long (x : Int) : List Word := [BitVec.ofInt 32 x, BitVec.ofInt 32 (x / 2 ^ 32)]
  let mm (x : Rat) : Int := Num.round (1000 * x)
  long (mm o.pos.x) ++ long (mm o.pos.y) ++ long (mm o.pos.z) ++
    [BitVec.ofInt 32 (mm o.vel.x), BitVec.ofInt 32 (mm o.vel.y), BitVec.ofInt 32 (mm o.vel.z)] ++
    long (Num.round (10 ^ 12 * o.clk)) ++ [BitVec.ofInt 32 (Num.round (10 ^ 15 * o.rate))]

/-- A write of SKY_QRY_CTRL; GO evaluates the slot at the reader's time (R269). (Assumption 86, DEDUCED.) -/
def opSkyQuery (who : Reader) (v : Word) (s : State) : State :=
  let s := plainWrite who R.SKY_QRY_CTRL v s
  if !v.toNat.testBit 31 || (skyQuery who s).isSome then s
  else
    let i := v.toNat % 256
    let t := s.widen (s.fld (F.SKY_QRY_T_SEC_SEC_LO.at who) * 2 ^ 32 + s.fld (F.SKY_QRY_T_FRAC_FRAC.at who))
    let b := skySlot s i
    let q := if 220 < i then (ST.format, []) else if slotUsable b t then (ST.ok, orbitWords i b t s) else (0x22, [])
    setQuery who (some q) (s.setFld (F.SKY_QRY_CTRL_BUSY.at who) 1)

/-- See assumption 31, DESIGN CHOICE. -/
def execSkyQuery (who : Reader) (v : Word) (s : State) : Host.Outcome State Fault Refusal :=
  .next (gate who R.SKY_QRY_CTRL true (opSkyQuery who v) s)

/-- Within 1 µs a query ends (R269). (Assumption 86, DEDUCED.) -/
def execSkyQueryDone (who : Reader) (s : State) : Host.Outcome State Fault Refusal :=
  .next (match skyQuery who s with
    | some (st, ws) =>
      let s := ((setQuery who none s).setFld (F.SKY_QRY_CTRL_BUSY.at who) 0).setFld (F.SKY_QRY_CTRL_RESULT.at who) st
      ws.zipIdx.foldl (fun s e => s.setWord (copyOff who (R.SKY_QRY_POS 0 + 4 * e.2)) e.1) s
    | none => s)

/-! The fix solver (R275 to R286). -/

/-- The clock group of a satellite (R277): 0 GPS, 1 Galileo, 2 BeiDou, 3 GLONASS, 4 NavIC. -/
def clockGroup (hold : Bool) (sat : Nat) : Nat :=
  match systemOf sat with
  | some 1 => if hold then 0 else 1
  | some 2 => if hold then 0 else 2
  | some 3 => 3
  | some 5 => 4
  | _ => 0

/-- The clock groups present among satellites, in R286's order. -/
def groupsOf (hold : Bool) (sats : List Nat) : List Nat :=
  (List.range 5).filter (fun g => sats.any (fun i => clockGroup hold i == g))

/-- A solve as it is set up (R275 to R278): what it works under, its rows, its starting point, the clock groups present, the
outcome decided before iterating, if any, T_FIX without a coarse offset, and the uncertainty of a held position in mm. -/
structure SolveSetup where
  env : SolEnv
  rows : List SolRow
  x0 : SolX
  groups : List Nat
  early : Option Nat
  tfix : Nat
  heldUnc : Nat

/-- The solve (R280, R281); one that ends before its first iteration uses no row (R276, R277). -/
def SolveSetup.solved (p : SolveSetup) : Solved :=
  match p.early with
  | some o => ⟨o, 0, [], p.x0⟩
  | none => solveRows p.env p.env.exclMax 0 p.x0 p.rows

/-- What SOL_CFG, SOL_TH and the ionosphere registers give a solve of `groups` clock groups at an instant. -/
def solEnv (t : Nat) (ref : Option Vec) (held coarse drift : Bool) (groups : Nat) (s : State) : SolEnv :=
  { t := secOf t, ref := ref, iono := ionoRegs s
    sigA := s.fld F.SOL_CFG_SIG_A, sigB := s.fld F.SOL_CFG_SIG_B
    maxIter := s.fld F.SOL_CFG_MAX_ITER, exclMax := s.fld F.SOL_CFG_EXCL_MAX
    gdopMax := s.fld F.SOL_TH_GDOP_MAX, resTh := s.fld F.SOL_TH_RES_TH, convTh := s.fld F.SOL_TH_CONV_TH
    held := held, coarse := coarse, drift := drift, groups := groups }

/-- A number of a fix record: rounded, and held within a width. -/
def fixNat (w : Nat) (x : Rat) : Nat := satNat (2 ^ w - 1) (Num.round x).toNat

/-- The fix record of a solve (R282, R286). (Assumption 156, DESIGN CHOICE.) (Assumption 32, DEDUCED.) -/
def fixRecord (p : SolveSetup) : List Byte :=
  let z := p.solved
  let e := p.env
  let rs := z.rows.map (rowAt e z.x)
  let src := rs.foldl (fun (m : Nat) r => min m r.iono) 3
  let unk := (if e.held then 2 else 1) + (if e.coarse then 4 else 0) + (if e.drift then 8 else 0) +
    16 * (if rs.isEmpty then 0 else src)
  let head := [BitVec.ofNat 8 z.outcome, BitVec.ofNat 8 z.rows.length, BitVec.ofNat 8 (satNat 255 z.iter), BitVec.ofNat 8 unk]
  let dop := (dopMatrix e rs).getD []
  let cov := (matInverse (normalOf e.allN (rs.map (·.code) ++ (if e.drift then rs.map (·.dopp) else []))).1).getD []
  let root (x : Rat) : Rat := if x < 1 then 1 else Num.sqrt x
  let unc := if e.held then p.heldUnc else fixNat 32 (1000 * Num.sqrt (matTrace cov 0 3) * root (residualT e rs))
  let rms := Num.sqrt ((rs.map (fun r => r.code.res * r.code.res)).sum / (rs.length : Rat))
  let coarse := Num.round (10 ^ 9 * z.x.dt)
  let body := leBytes 2 (if e.held then 0 else fixNat 16 (100 * Num.sqrt (matTrace dop 0 3))) ++
    [BitVec.ofNat 8 (p.groups.headD 0), BitVec.ofNat 8 p.groups.length] ++
    [z.x.pos.x, z.x.pos.y, z.x.pos.z].flatMap (fun c => leBytes 8 (ofSigned 64 (Num.round (1000 * c)))) ++
    leBytes 8 (ofSigned 64 (Num.round (10 ^ 12 * z.x.bias.getD 0 0 / lightSpeed))) ++
    leBytes 4 (if e.coarse then ofSigned 32 coarse else 0) ++
    leBytes 4 (if e.drift then ofSigned 32 (Num.round (10 ^ 12 * z.x.eps)) else 0) ++
    leBytes 4 unc ++ leBytes 2 (fixNat 16 (100 * rms)) ++ leBytes 2 (fixNat 16 (100 * Num.sqrt (matTrace dop e.posN 1)))
  let t := if e.coarse ∧ z.outcome = 0 then ((p.tfix : Int) + coarse * 2 ^ 32 / 10 ^ 9).toNat else p.tfix
  head ++ (if z.outcome = 0 then body else List.replicate 52 0) ++ leBytes 8 t

/-- The elevation of a satellite in degrees at an instant from the reference position; 0 without one. -/
def refElev (i t : Nat) (s : State) : Rat :=
  match refPos s with
  | some pos => slotElev i (skySlot s i) t pos s
  | none => 0

/-- A record is usable by a live solve at E (R278). -/
def liveUsable (e : Nat) (s : State) (r : List Byte) : Bool :=
  let i := leAt r 0 1
  let b := skySlot s i
  recLocked r && leAt r 49 1 == 3 && !(leAt r 34 2).testBit 4 && slotUsable b e && !satExcluded i s &&
    (s.fld F.SOL_LIVE_CFG_TRUST_MIN != 1 || leAt r 50 1 == 1) &&
    ((refPos s).isNone || decide ((s.fld F.SOL_CFG_ELEV_MIN : Rat) ≤ refElev i e s))

/-- A measurement record of lower chain, then lower channel (R278). -/
def recKey (r : List Byte) : Nat := recChain r * 512 + leAt r 2 2 % 512

/-- The rows of a live solve: per satellite its usable record on the lowest chain, and with IF_COMB the one on the next
(R278); the 64 highest by elevation at E. (Assumption 85, DEDUCED.) -/
def liveRows (e : Nat) (recs : List (List Byte)) (s : State) : List (Nat × List (List Byte)) :=
  let us := orderBy recKey (recs.filter (liveUsable e s))
  let rows := (List.range 221).filterMap (fun i =>
    let rs := us.filter (fun r => leAt r 0 1 == i)
    match rs with
    | [] => none
    | a :: rest =>
      let second := if s.bit F.SOL_CFG_IF_COMB then (rest.find? (fun r => recChain r != recChain a)).toList else []
      some (i, a :: second))
  (orderBy (fun p => elevKey (refElev p.1 e s)) rows).take 64

/-- What places a satellite's TOT in GPST (R275): the offset of its system where the system shares the GPS clock group; of BDT
otherwise its 14 s alone. (Assumption 156, DESIGN CHOICE.) -/
def placeOffset (hold : Bool) (i : Nat) (s : State) : Rat :=
  match systemOf i with
  | some 1 => if hold then sysOffset i s else 0
  | some 2 => if hold then sysOffset i s else -14
  | _ => 0

/-- The row of a satellite's one or two records (R275, R278). (Assumption 156, DESIGN CHOICE.) -/
def liveRow (hold : Bool) (groups : List Nat) (p : Nat × List (List Byte)) (s : State) : SolRow :=
  let i := p.1
  let fs := p.2.map (fun r => (recChain r, recCarrier r s))
  let parts : List (Rat × Nat × Nat) := match fs with
    | [a, b] =>
      let x : Rat := (a.2 : Rat) * a.2
      let y : Rat := (b.2 : Rat) * b.2
      [(x / (x - y), a.1, a.2), (-(y / (x - y)), b.1, b.2)]
    | _ => fs.map (fun a => (1, a.1, a.2))
  let first := p.2.headD []
  { entry := i, sat := i, slot := skySlot s i, ofs := sysOffset i s
    obs := (List.zipWith (fun (q : Rat × Nat × Nat) r => q.1 * recRange r) parts p.2).sum + (lightSpeed : Rat) * placeOffset hold i s
    parts := parts, dopp := (toSigned 32 (leAt first 28 4) : Rat) / 4096, cn0 := (leAt first 32 2 : Rat) / 100
    group := (groups.findIdx? (· == clockGroup hold i)).getD 0 }

/-- A live solve of E as it is set up (R277, R278, R280): in TIMING mode with a valid survey the position is held; else it starts
from the last converged fix, the survey, or the Earth's centre. -/
def liveSetup (e : Nat) (recs : List (List Byte)) (s : State) : SolveSetup :=
  let en := s.widen e
  let sel := liveRows en recs s
  let hold := s.bit F.SOL_CFG_ISB_HOLD
  let gs := groupsOf hold (sel.map (·.1))
  let survey := posVec [surveyCoord s 0, surveyCoord s 1, surveyCoord s 2]
  let held := decide (s.fld F.SOL_LIVE_CFG_MODE = 1) && surveyValid s
  let start := if held then survey else
    match s.sky.fix with
    | some f => posVec [f.x, f.y, f.z]
    | none => if surveyValid s then survey else ⟨0, 0, 0⟩
  let env := solEnv en ((refPos s).map posVec) held false true gs.length s
  { env := env, rows := sel.map (fun p => liveRow hold gs p s)
    x0 := ⟨start, gs.map (fun _ => 0), 0, 0⟩, groups := gs
    early := if sel.length < env.codeN ∨ sel = [] then some 1 else none
    tfix := e, heldUnc := s.fld F.SOL_SURVEY_UNC_UNC }

/-- A ring has published E. -/
def ringPublished (e n : Nat) (s : State) : Bool :=
  (publishedOf n s).1 == e

/-- Whether a live solve of E may start: a ring has published E, and every ring that captured E has, or one of those has
captured again (R283). -/
def liveReady (e : Nat) (s : State) : Bool :=
  match s.sky.epochsCap.find? (fun c => c.e == e) with
  | some c => c.rings.any (fun n => ringPublished e n s) && (c.again || c.rings.all (fun n => ringPublished e n s))
  | none => false

/-- Solver engines in use: live solves and Carousel solves (R285). -/
def enginesBusy (s : State) : Nat :=
  s.sky.live.length + (s.car.jobs.filter (fun p => match p.2 with | some j => j.state == 5 && !j.fix.isEmpty | none => false)).length

/-- A live solve of E takes an engine, with the records published (R283, R285). -/
def liveBegin (e : Nat) (s : State) : State :=
  let recs := (List.range 10).flatMap (fun n =>
    let p := publishedOf n s
    if p.1 = e then p.2 else [])
  { s with sky := { s.sky with
      wait := s.sky.wait.filter (· != e), epochsCap := s.sky.epochsCap.filter (fun c => c.e != e)
      live := s.sky.live ++ [⟨e, s.sky.epochs, fixRecord (liveSetup e recs s)⟩] } }

/-- A waiting live solve takes a free engine ahead of any Carousel solve (R285). -/
def liveNext (s : State) : State :=
  match s.sky.wait with
  | e :: _ => if 4 ≤ enginesBusy s then s else liveBegin e s
  | [] => s

/-- A live solve of epoch E starts, or waits for an engine (R283, R285). -/
def execLiveSolve (e : BitVec 64) (s : State) : Host.Outcome State Fault Refusal :=
  .next (
    if s.pwr.hib || !liveReady e.toNat s || s.sky.wait.contains e.toNat then s
    else if 4 ≤ enginesBusy s then { s with sky := { s.sky with wait := s.sky.wait ++ [e.toNat] } }
    else liveBegin e.toNat s)

/-- A converged live fix is gathered by a survey, and ends it after SURVEY_T minutes (R284). -/
def surveyFix (f : FixPos) (s : State) : State :=
  match s.sky.survey with
  | none => s
  | some v =>
    let v := { v with n := v.n + 1, x := v.x + f.x, y := v.y + f.y, z := v.z + f.z, unc2 := v.unc2 + f.unc * f.unc }
    if s.tick < v.start + s.fld F.SOL_LIVE_CFG_SURVEY_T * 60 * 120000000 then { s with sky := { s.sky with survey := some v } }
    else
      let n : Int := v.n
      let put (s : State) (k : Nat) (c : Int) : State :=
        (s.setWord (R.SOL_SURVEY_POS (2 * k)) (BitVec.ofInt 32 c)).setWord (R.SOL_SURVEY_POS (2 * k + 1))
          (BitVec.ofInt 32 (c / 2 ^ 32))
      let s := put (put (put s 0 (v.x / n)) 1 (v.y / n)) 2 (v.z / n)
      let s := s.setWord R.SOL_SURVEY_UNC (BitVec.ofNat 32 (satNat 0xFFFFFFFE (Nat.sqrt (v.unc2 / (v.n * v.n)))))
      raise 85 (({ s with sky := { s.sky with survey := none } }.setFld F.SOL_LIVE_CFG_MODE 1).setFld
        F.SOL_STAT_SURVEYING 0)

/-- A live solve's end (R283): its record, the host fix stream, the time discipline, the survey and the events; LIVE_FAIL where
the outcome before was CONVERGED. -/
def liveEnd (v : LiveSolve) (s : State) : State :=
  let r := v.record
  let o := leAt r 0 1
  let was := s.sky.lastOk
  let s := { s with sky := { s.sky with lastOk := o == 0 } }
  let s := (bytesWords 16 r).zipIdx.foldl (fun s e => s.setWord (R.SOL_FIX_W e.2) e.1) s
  let s := (s.setFld F.SOL_STAT_OUTCOME o).setFld F.SOL_STAT_NUSED (leAt r 1 1)
  let s := streamPut 2 [r] s
  let f : FixPos := ⟨toSigned 64 (leAt r 8 8), toSigned 64 (leAt r 16 8), toSigned 64 (leAt r 24 8), leAt r 48 4⟩
  let s := if o = 0 then surveyFix f { s with sky := { s.sky with fix := some f } } else s
  let s := if o = 0 then
      discFix (s.widen v.e * fracUnits) (toSigned 64 (leAt r 32 8)) (toSigned 32 (leAt r 44 4)) s
    else discMiss 2 s
  let s := raise 83 s
  if was = true ∧ o ≠ 0 then raise 84 (s.setFld F.SOL_STAT_LIVE_FAIL 1) else s

/-- The oldest live solve in progress ends and gives up its engine (R283, R285). -/
def execLiveSolveDone (s : State) : Host.Outcome State Fault Refusal :=
  .next (match s.sky.live with
    | [] => s
    | v :: rest => liveNext (liveEnd v { s with sky := { s.sky with live := rest } }))

/-- A survey starts. -/
def surveyStart (s : State) : State :=
  { s with sky := { s.sky with survey := some { start := s.tick } } }.setFld F.SOL_STAT_SURVEYING 1

/-- A write of SOL_LIVE_CFG: MODE SURVEY starts a survey, another mode ends it (R284); reserved MODE and TRUST_MIN values are
ignored. -/
def opSolLiveWrite (who : Reader) (v : Word) (s : State) : State :=
  let old := s.word R.SOL_LIVE_CFG
  let m := v.toNat / 2 ^ 30
  let s := plainWrite who R.SOL_LIVE_CFG v s
  let s := if m = 3 then s.setFld F.SOL_LIVE_CFG_MODE (bitsOf old.toNat 31 30) else s
  let s := if 2 ≤ bitsOf v.toNat 29 28 then s.setFld F.SOL_LIVE_CFG_TRUST_MIN (bitsOf old.toNat 29 28) else s
  if m = 2 then surveyStart s
  else if m = 3 then s
  else { s with sky := { s.sky with survey := none } }.setFld F.SOL_STAT_SURVEYING 0

def execSurveyStart (who : Reader) (v : Word) (s : State) : Host.Outcome State Fault Refusal :=
  .next (gate who R.SOL_LIVE_CFG true (opSolLiveWrite who v) s)

/-- The position uncertainty u_p in mm (R284). -/
def posUnc (s : State) : Option Nat :=
  if s.fld F.SOL_LIVE_CFG_MODE = 1 then (if surveyValid s then some (s.fld F.SOL_SURVEY_UNC_UNC) else none)
  else s.sky.fix.map (·.unc)

end Sys2Proof.Machine
end

