-- ==== Sys2Proof/Machine/Beacon.lean ====
section
/-! DEFINITION. The field beacon (chapter 13): the radio charter, the radio's states and calibrations, frames, protection,
the key chain, the cycle table and the duty bins. -/
namespace Sys2Proof.Machine

/-! The radio charter (R332 to R337). -/

/-- The bytes of the charter region of OTP. -/
def chtBytes (s : State) : List Byte := s.memBytes 0x3F00800 0x800

/-- `n` bytes of the effective charter, which is the region as the last build found it, at an offset, as a number (R336). -/
def chtAt (s : State) (off n : Nat) : Nat := leAt s.bcn.charter off n

/-- Record `k` of a charter region's bytes (R335). -/
def recAt (b : List Byte) (k : Nat) : List Byte := (b.drop (0x410 + 16 * k)).take 16

/-- A narrowing record of the effective charter (R335, R336). -/
def chtRec (s : State) (k : Nat) : List Byte := recAt s.bcn.charter k

/-- A record that is not unwritten (R335). -/
def recWritten (r : List Byte) : Bool := r.any (fun b => b != 0)

/-- A DUTY of a record lies in its range (R336). -/
def recDutyOk (v : Nat) : Bool := v == 0xFFFF || decide (v ≤ 10000)

/-- A written record is well formed (R336). -/
def recOk (r : List Byte) : Bool :=
  (crc32 (r.take 12)).toNat == leAt r 12 4 && decide (leAt r 0 1 ≤ leAt r 1 1) && decide (leAt r 1 1 ≤ 63) &&
    recDutyOk (leAt r 4 2) && recDutyOk (leAt r 6 2) && leAt r 3 1 / 8 == 0 && leAt r 8 4 == 0

/-- Channel entry `n` of a charter region's bytes is well formed (R336). -/
def entryOk (b : List Byte) (n : Nat) : Bool :=
  let e := (b.drop (0x10 + 16 * n)).take 16
  let f := leAt e 0 4
  (f == 0 || (decide (410000000 ≤ f) && decide (f ≤ 960000000))) && decide (leAt e 6 2 ≤ 10000) &&
    leAt e 8 1 / 4 % 4 != 3 && leAt e 5 1 == 0 && leAt e 8 1 / 16 == 0 && leAt e 11 5 == 0

/-- The charter state that a region's bytes give: 0 ABSENT, 1 VALID, 2 INVALID (R336). (Assumption 95, DEDUCED.) -/
def chtBuild (b : List Byte) : Nat :=
  if leAt b 0 2 = 0 then 0
  else if leAt b 0 2 == 0x100 && (crc32 (b.take 12 ++ (b.drop 0x10).take 1024)).toNat == leAt b 12 4 &&
      leAt b 8 4 == 0 && decide (leAt b 2 2 ≤ 10000) && (List.range 64).all (fun n => entryOk b n) &&
      (List.range 62).all (fun k => !recWritten (recAt b k) || recOk (recAt b k)) then 1
  else 2

/-- The frame on air is cut with a status; the ramp-down that follows ends it. -/
def frameCut (st : Nat) (s : State) : State :=
  match s.bcn.tx with
  | some f => if f.ramp.isSome && f.status == 0 then { s with bcn := { s.bcn with tx := some { f with status := st } } } else s
  | none => s

/-- The effective charter is rebuilt from the region; a changed state raises EV_107, and one that is not VALID stops the
transmitter (R336). (Assumption 95, DEDUCED.) -/
def charterBuild (s : State) : State :=
  let b := chtBytes s
  let st := chtBuild b
  let s := { s with bcn := { s.bcn with charter := b } }
  if s.fld F.BCN_STATUS_CHT_STATE = st then s
  else raise 107 ((if st = 1 then s else frameCut ST.charter s).setFld F.BCN_STATUS_CHT_STATE st)

/-- The charter is VALID. -/
def chtValid (s : State) : Bool := s.fld F.BCN_STATUS_CHT_STATE == 1

/-- The written records that cover a channel. (Assumption 95, DEDUCED.) -/
def chtRecs (n : Nat) (s : State) : List (List Byte) :=
  ((List.range 62).map (chtRec s)).filter (fun r => recWritten r && decide (leAt r 0 1 ≤ n) && decide (n ≤ leAt r 1 1))

/-- FREQ_HZ of a channel; 0 where the charter is not VALID. -/
def chtFreq (n : Nat) (s : State) : Nat := if chtValid s then chtAt s (0x10 + 16 * n) 4 else 0

/-- A channel is enabled (R337). -/
def chtEnabled (n : Nat) (s : State) : Bool :=
  chtFreq n s != 0 && (chtRecs n s).all (fun r => !(leAt r 3 1).testBit 0)

/-- Effective power limit in 0.25 dBm (R336). -/
def chtPower (n : Nat) (s : State) : Int :=
  (chtRecs n s).foldl (fun (p : Int) r =>
    let v := toSigned 8 (leAt r 2 1)
    if leAt r 2 1 != 0x7F && decide (v < p) then v else p) (toSigned 8 (chtAt s (0x14 + 16 * n) 1))

/-- Effective duty limit in 0.01 % (R336). -/
def chtDuty (n : Nat) (s : State) : Nat :=
  (chtRecs n s).foldl (fun (d : Nat) r => if leAt r 4 2 < d then leAt r 4 2 else d) (chtAt s (0x16 + 16 * n) 2)

/-- Effective total duty limit: the header's and every written record's (R335, R336). -/
def chtTotal (s : State) : Nat :=
  (((List.range 62).map (chtRec s)).filter recWritten).foldl
    (fun (d : Nat) r => if leAt r 6 2 < d then leAt r 6 2 else d) (chtAt s 2 2)

/-- LBT is required (R336). -/
def chtLbt (n : Nat) (s : State) : Bool :=
  (chtAt s (0x18 + 16 * n) 1).testBit 0 || (chtRecs n s).any (fun r => (leAt r 3 1).testBit 1)

/-- 4-GFSK is allowed (R336). -/
def chtGfsk4 (n : Nat) (s : State) : Bool :=
  (chtAt s (0x18 + 16 * n) 1).testBit 1 && (chtRecs n s).all (fun r => !(leAt r 3 1).testBit 2)

/-- The highest rate code. -/
def chtRate (n : Nat) (s : State) : Nat := chtAt s (0x18 + 16 * n) 1 / 4 % 4

/-! Duty (R355, R363, R550). Row 64 holds the total. -/

/-- Bin `k` of a row: the minute `k` before the current one. -/
def dutyBin (s : State) (row k : Nat) : Nat := Sparse.get (fun _ => 0) s.bcn.duty (61 * row + k)

/-- The sum of a row's bins. -/
def dutySum (s : State) (row : Nat) : Nat := ((List.range 61).map (dutyBin s row)).sum

/-- Whether a transmission of a length passes the duty rule (R355). -/
def dutyAllows (n air : Nat) (s : State) : Bool :=
  decide (dutySum s n + air ≤ chtDuty n s * 360000) && decide (dutySum s 64 + air ≤ chtTotal s * 360000)

/-- On-air time is counted in the current minute. (Assumption 102, DEDUCED.) -/
def dutyAdd (n air : Nat) (s : State) : State :=
  let put (d : Sparse Nat) (row : Nat) : Sparse Nat := Sparse.put (fun _ => 0) d (61 * row) (Sparse.get (fun _ => 0) d (61 * row) + air)
  { s with bcn := { s.bcn with duty := put (put s.bcn.duty n) 64 } }

/-- Every bin moves back `m` minutes; bins past 60 fall out. -/
def dutyShift (m : Nat) (s : State) : State :=
  { s with bcn := { s.bcn with
    duty := (s.bcn.duty.filter (fun (p : Nat × Nat) => decide (p.1 % 61 + m ≤ 60))).map (fun (p : Nat × Nat) => (p.1 + m, p.2)) } }

/-- The duty block of backup RAM is rewritten, when the backup counter is VALID (R550). -/
def dutySave (s : State) : State :=
  if !s.bit F.PWR_BK_SUB_VALID then s
  else
    let b := leBytes 4 (s.word R.PWR_BK_SEC_LO).toNat ++ leBytes 4 0 ++
      ((List.range 61).map (fun k => leBytes 4 (dutyBin s 64 k))).flatten
    s.setMemBytes 0x3F10080 (b ++ leBytes 4 (crc32 b).toNat)

/-- A minute boundary of the duty clock (R355, R550). (Assumption 102, DEDUCED.) -/
def execDutyMinute (s : State) : Host.Outcome State Fault Refusal := .next (dutySave (dutyShift 1 s))

/-- At the first release after main POR every row starts from the stored total, aged, where the block is valid (R363, R550). (Assumption 102, DEDUCED.) -/
def dutyRestore (s : State) : State :=
  if s.bcn.dutyIn then s else
  let s := { s with bcn := { s.bcn with dutyIn := true } }
  let b := s.memBytes 0x3F10080 256
  let d := ((s.word R.PWR_BK_SEC_LO).toNat + 2 ^ 32 - leAt b 0 4) % 2 ^ 32
  if s.bit F.PWR_BK_SUB_VALID && (crc32 (b.take 252)).toNat == leAt b 252 4 && decide (d < 2 ^ 31) then
    let m := d / 60
    let bins := (List.range 65).foldl (fun (t : Sparse Nat) row =>
      (List.range (61 - m)).foldl (fun (t : Sparse Nat) k =>
        Sparse.put (fun _ => 0) t (61 * row + k + m) (leAt b (8 + 4 * k) 4)) t) []
    { s with bcn := { s.bcn with duty := bins } }
  else s

/-- The limits of a reader's CHAN (R337), in its copies of the registers. (Assumption 95, DEDUCED.) -/
def chtShow (who : Reader) (s : State) : State :=
  let n := s.fld (F.BCN_CHT_QRY_CHAN.at who)
  let ok := chtEnabled n s
  let b (c : Bool) : Nat := if c then 1 else 0
  let q := (((((s.setFld (F.BCN_CHT_QRY_MAX_PWR.at who) (if ok then ofSigned 8 (chtPower n s) else 0)).setFld
    (F.BCN_CHT_QRY_ENABLED.at who) (b ok)).setFld (F.BCN_CHT_QRY_LBT.at who) (b (ok && chtLbt n s))).setFld
    (F.BCN_CHT_QRY_GFSK4.at who) (b (ok && chtGfsk4 n s))).setFld (F.BCN_CHT_QRY_RATE_MAX.at who) (if ok then chtRate n s else 0))
  ((q.setFld (F.BCN_CHT_FREQ_FREQ_HZ.at who) (chtFreq n s)).setFld (F.BCN_CHT_USED_DUTY.at who)
    (if ok then chtDuty n s else 0)).setFld (F.BCN_CHT_USED_USED_MS.at who) (satNat 0xFFFF (dutySum s n / 1000))

/-- A write of BCN_CHT_QRY: CHAN selects what the reader is shown. -/
def opCharterQuery (who : Reader) (v : Word) (s : State) : State := chtShow who (plainWrite who R.BCN_CHT_QRY v s)

def execCharterQuery (who : Reader) (v : Word) (s : State) : Host.Outcome State Fault Refusal :=
  .next (gate who R.BCN_CHT_QRY true (opCharterQuery who v) s)

/-! The radio (R338 to R340). -/

/-- BCN_STATUS.STATE. -/
def bcnState (s : State) : Nat := s.fld F.BCN_STATUS_STATE

/-- BURST with BURST_TX 0 (R352, R357, R363). -/
def bcnMuted (s : State) : Bool := pstate s == 2 && !s.bit F.BCN_CFG_BURST_TX

/-- Where the radio goes: the state and the channel. A search in progress, then a held frame, take it to SYNTHON on their
channel, where a frame that did not start leaves it; else TARGET on CHAN, at most SLEEP while muted (R340, R353, R363).
(Assumption 99, DEDUCED.) -/
def bcnGoal (s : State) : Nat × Nat :=
  match s.bcn.search, s.bcn.held with
  | some n, _ => (3, n)
  | none, some f => (3, leAt f.desc 1 1)
  | none, none =>
    let t := s.fld F.BCN_CTRL_TARGET
    if bcnMuted s then (min t 1, s.fld F.BCN_CTRL_CHAN)
    else
      match s.bcn.stay with
      | some c => (3, c)
      | none => (t, s.fld F.BCN_CTRL_CHAN)

/-- A step of the radio begins. -/
def bcnStep (k : BcnStep) (s : State) : State := { s with bcn := { s.bcn with step := k } }

/-- The synthesiser is taken to a channel: on its stored result, or after a cold calibration (R339). -/
def bcnLock (c : Nat) (s : State) : State :=
  if s.bit (F.BCN_CH_CAL_CAL_VALID c) then bcnStep (.lock c) s
  else { s with bcn := { s.bcn with cal := some (c, true) } }.setFld F.BCN_STATUS_STATE 6

/-- The next step toward the goal, when nothing is in progress (R340 with R77). A channel whose calibration failed is
tried again only for a frame. -/
def bcnAdvance (tt : Option Nat) (s : State) : State :=
  if s.bcn.step != .none || s.bcn.cal.isSome || s.bcn.tx.isSome then s
  else
    let (t, c) := bcnGoal s
    let st := bcnState s
    let rest := s.bcn.fault == some c && s.bcn.held.isNone
    if st = 0 then (if t = 0 then withdrawStart 4 s else requestStart 4 tt s)
    else if st = 1 then (if 2 ≤ t then bcnStep .standby s else if t = 0 then bcnStep .off s else s)
    else if st = 2 then (if t = 3 then (if rest then s else bcnLock c s) else if t < 2 then bcnStep .sleep s else s)
    else if t < 3 then bcnStep .down s
    else if s.fld F.BCN_STATUS_CHAN_ACT ≠ c ∧ !rest then bcnLock c s
    else s

/-- A write of BCN_CTRL: a CHAN that is not enabled is ignored (R340). (Assumption 96, DEDUCED.) -/
def opBcnCtrlWrite (who : Reader) (v : Word) (s : State) : State :=
  let old := s.fld F.BCN_CTRL_CHAN
  let s := plainWrite who R.BCN_CTRL v s
  let s := if chtEnabled (bitsOf v.toNat 13 8) s then s
    else (s.setFld F.BCN_CTRL_CHAN old).setFld F.BCN_STATUS_REFUSED 1
  bcnAdvance none { s with bcn := { s.bcn with stay := none, fault := none } }

def execBcnTargetWrite (who : Reader) (v : Word) (s : State) : Host.Outcome State Fault Refusal :=
  .next (gate who R.BCN_CTRL true (opBcnCtrlWrite who v) s)

/-- The beacon's domain start is granted: OFF to SLEEP begins. -/
def bcnGranted (s : State) : State := if bcnState s = 0 && s.bcn.step == .none then bcnStep .wake s else s

/-- The first STANDBY after a reset marks the calibrations that are missing or stale (R345). -/
def bcnAutoCal (s : State) : State :=
  if s.bcn.autoDone then s
  else
    let s := { s with bcn := { s.bcn with autoDone := true } }
    if !s.bit F.BCN_CFG_AUTO_CAL then s
    else (List.range 64).foldl (fun s n =>
      if chtEnabled n s && (!s.bit (F.BCN_CH_CAL_CAL_VALID n) || s.bit (F.BCN_CH_CAL_STALE n))
      then s.setFld (F.BCN_CH_CAL_CAL_PEND n) 1 else s) s

/-- A step ends in a state, and the radio goes on. (Assumption 97, DEDUCED.) -/
def bcnArrive (st : Nat) (s : State) : State :=
  let s := (bcnStep .none s).setFld F.BCN_STATUS_STATE st
  bcnAdvance none (if st = 2 then bcnAutoCal s else s)

/-- The step in progress ends after its time; `locked` says whether the synthesiser has lock. A stored result that does
not lock is followed by a cold calibration (R339). -/
def execBcnTransitionDone (locked : Bool) (s : State) : Host.Outcome State Fault Refusal :=
  .next (match s.bcn.step with
    | .none => s
    | .wake => bcnArrive 1 s
    | .standby => bcnArrive 2 s
    | .lock c =>
      if locked then bcnArrive 3 (s.setFld F.BCN_STATUS_CHAN_ACT c)
      else { s with bcn := { s.bcn with step := .none, cal := some (c, true) } }.setFld F.BCN_STATUS_STATE 6
    | .down => bcnArrive 2 s
    | .sleep => bcnArrive 1 s
    | .off => bcnArrive 0 (domainStop 4 s))

/-! Calibration and the tuner (R343 to R346). -/

/-- CAL_RESULT. -/
def bcnCalResult (r : Nat) (s : State) : State := s.setFld F.BCN_STATUS_CAL_RESULT r

/-- A calibration request with a code of 0x40 or more (R344). -/
def bcnCalRequest (code : Nat) (s : State) : State :=
  let n := code % 64
  if 0x40 ≤ code ∧ code < 0x80 then
    if chtEnabled n s then s.setFld (F.BCN_CH_CAL_CAL_PEND n) 1 else bcnCalResult ST.format s
  else if code = 0x80 then
    (List.range 64).foldl (fun s n => if chtEnabled n s then s.setFld (F.BCN_CH_CAL_CAL_PEND n) 1 else s) s
  else if 0xC0 ≤ code then
    if chtEnabled n s && !s.bit F.BCN_CFG_PA_MODE then s.setFld (F.BCN_CH_TUNE_TUNE_PEND n) 1 else bcnCalResult ST.format s
  else bcnCalResult ST.format s

/-- A calibration request of any target (R83, R344). -/
def calRequestAny (code : Nat) (s : State) : State :=
  if code < 0x40 then chainCalRequest code s else bcnCalRequest code s

/-- A write of GRF_CAL_CTRL (R83). -/
def opCalCtrl (who : Reader) (v : Word) (s : State) : State :=
  let s := plainWrite who R.GRF_CAL_CTRL v s
  if v.toNat.testBit 31 then calRequestAny (v.toNat % 256) s else s

def execCalRequest (who : Reader) (v : Word) (s : State) : Host.Outcome State Fault Refusal :=
  .next (gate who R.GRF_CAL_CTRL true (opCalCtrl who v) s)

/-- START_CAL. -/
def execStartCal (i : BitVec 12) (s : State) : Host.Outcome State Fault Refusal :=
  .next (ttDispatch i.toNat 7 (fun p s => calRequestAny (p % 256) s) s)

/-- The radio rests in STANDBY or SYNTHON and nothing is in progress. -/
def bcnRests (s : State) : Bool :=
  !bcnMuted s && (bcnState s == 2 || bcnState s == 3) && s.bcn.step == .none && s.bcn.cal.isNone && s.bcn.tx.isNone

/-- The radio can start a pending calibration or search (R345). -/
def bcnIdle (s : State) : Bool :=
  bcnRests s && s.bcn.held.isNone &&
    (match s.bcn.quiet with | some t => decide (t + 240000 ≤ s.tick) | none => true)

/-- The lowest channel with a pending calibration. -/
def bcnCalNext (s : State) : Option Nat := (List.range 64).find? (fun n => s.bit (F.BCN_CH_CAL_CAL_PEND n))

/-- The lowest channel with a pending search. -/
def bcnTuneNext (s : State) : Option Nat := (List.range 64).find? (fun n => s.bit (F.BCN_CH_TUNE_TUNE_PEND n))

/-- A pending calibration starts (R345). -/
def execBcnCalStart (s : State) : Host.Outcome State Fault Refusal :=
  .next (match bcnCalNext s with
    | some n =>
      if bcnIdle s && s.bcn.search.isNone then
        { s with bcn := { s.bcn with cal := some (n, false), stay := none } }.setFld F.BCN_STATUS_STATE 6
      else s
    | none => s)

/-- A calibration ends: its result is stored, or it failed (R343, R345). (Assumption 97, DEDUCED.) -/
def bcnCalStore (n : Nat) (r : Option CalResult) (s : State) : State :=
  let s := s.setFld (F.BCN_CH_CAL_CAL_PEND n) 0
  match r with
  | some r =>
    let s := ((((((s.setFld (F.BCN_CH_CAL_CAL_TEMP n) r.temp.toNat).setFld (F.BCN_CH_CAL_VCO_BAND n) r.band.toNat).setFld
      (F.BCN_CH_CAL_KVCO_TRIM n) r.trim.toNat).setFld (F.BCN_CH_CAL_CAL_VALID n) 1).setFld (F.BCN_CH_CAL_STALE n) 0).setFld
      (F.BCN_CH_CAL_CAL_FAILED n) 0)
    bcnCalResult ST.ok { s with bcn := { s.bcn with
      fresh := Sparse.put (fun _ => false) s.bcn.fresh n true, fault := if s.bcn.fault = some n then none else s.bcn.fault } }
  | none => raise 109 (bcnCalResult 0x10 (s.setFld (F.BCN_CH_CAL_CAL_FAILED n) 1))

/-- A tuner search ends without its burst. (Assumption 98, DEDUCED.) -/
def searchEnd (st : Nat) (s : State) : State :=
  match s.bcn.search with
  | some n => bcnCalResult st ({ s with bcn := { s.bcn with search := none } }.setFld (F.BCN_CH_TUNE_TUNE_PEND n) 0)
  | none => s

/-- A search in progress is cancelled and goes back to waiting (R344, R363). (Assumption 98, DEDUCED.) -/
def searchAbort (s : State) : State :=
  if s.bcn.search.isSome then bcnCalResult ST.abort { s with bcn := { s.bcn with search := none } } else s

/-- The calibration in progress ends. The synthesiser is left on its channel, or in STANDBY without lock; a search whose
channel cannot be calibrated is over (R345). (Assumption 97, DEDUCED.) -/
def execBcnCalDone (r : Option CalResult) (s : State) : Host.Outcome State Fault Refusal :=
  .next (match s.bcn.cal with
    | none => s
    | some (n, _) =>
      let s := bcnCalStore n r { s with bcn := { s.bcn with cal := none } }
      if r.isSome then bcnArrive 3 (s.setFld F.BCN_STATUS_CHAN_ACT n)
      else
        let s := if s.bcn.search = some n then searchEnd 0x10 s else s
        bcnArrive 2 { s with bcn := { s.bcn with fault := some n } })

/-- A calibration becomes stale (R343). -/
def execBcnCalStale (n : Fin 64) (why : StaleCause) (s : State) : Host.Outcome State Fault Refusal :=
  let bad := s.bit (F.BCN_CH_CAL_CAL_VALID n) && !s.bit (F.BCN_CH_CAL_STALE n) &&
    (match why with
     | .temperature t => decide (15 < (t.toInt - toSigned 8 (s.fld (F.BCN_CH_CAL_CAL_TEMP n))).natAbs)
     | .tuning => decide (3 ≤ bcnState s) && decide (bcnState s ≤ 5) && s.fld F.BCN_STATUS_CHAN_ACT == n.val)
  .next (if bad then raise 109 ((s.setFld (F.BCN_CH_CAL_STALE n) 1).setFld (F.BCN_CH_CAL_CAL_PEND n) 1) else s)

/-- Power at a detector in 0.25 dBm (R347). -/
def detPower (slope ofs : Fld) (code : Nat) (s : State) : Rat :=
  (((code : Int) - (s.fld ofs : Int)) * (s.fld slope : Int) : Int) / (256 : Rat)

/-- P_fwd of a code (R347). (Assumption 101, DEDUCED.) -/
def pFwd (code : Nat) (s : State) : Rat := detPower F.BCN_DET_FWD_SLOPE F.BCN_DET_FWD_OFS code s

/-- RL of a pair of codes in 0.25 dB (R347). (Assumption 101, DEDUCED.) -/
def returnLoss (fwd ref : Nat) (s : State) : Rat :=
  pFwd fwd s - detPower F.BCN_DET_REF_SLOPE F.BCN_DET_REF_OFS ref s

/-- The probes of a search (R346): each size, series then shunt, down then up. (Assumption 98, DEDUCED.) -/
def probeList : List (Int × Bool) :=
  [8, 4, 2, 1].flatMap (fun (d : Int) => [(-d, true), (d, true), (-d, false), (d, false)])

/-- The best setting of a search: series, shunt and its return loss, and the base of the present pair of probes. -/
structure Tuning where
  series : Int
  shunt : Int
  rl : Rat
  base : Int
deriving DecidableEq, Repr

/-- One probe: kept when in range and better than the best so far (R346). (Assumption 98, DEDUCED.) -/
def tuneProbe (b : Tuning) (p : Int × Bool) (rl : Rat) : Tuning :=
  let cur := if p.2 then b.series else b.shunt
  let base := if p.1 < 0 then cur else b.base
  let v := base + p.1
  let b := { b with base := base }
  if v < 0 ∨ 63 < v ∨ rl ≤ b.rl then b
  else if p.2 then { b with series := v, rl := rl } else { b with shunt := v, rl := rl }

/-- BCN_PA_EN is asserted or deasserted, with BIAS while it is asserted (R340). -/
def paSwitch (on : Bool) (s : State) : State := s.emit (.pa on (if on then s.fld F.BCN_PA_BIAS else 0))

/-- The carrier set at a ramp-up (R341): FREQ_HZ by GPST's seconds, which TB_RATE says CK_MAIN's seconds miss. (Assumption 162, DEDUCED.) -/
def carrierOf (n : Nat) (s : State) : Rat := (chtFreq n s : Rat) * (1 + (toSigned 32 (s.word R.TB_RATE).toNat : Rat) / 2 ^ 44)

/-- The listen threshold of a channel in dBm (R354). -/
def lbtThreshold (n : Nat) (s : State) : Int :=
  let a := toSigned 8 (chtAt s (0x19 + 16 * n) 1)
  let b := toSigned 8 (s.fld F.BCN_PROT_LBT_TH)
  if a < b then a else b

/-- The listen time of a channel in µs (R354). -/
def lbtTime (n : Nat) (s : State) : Nat := 10 * max (chtAt s (0x1A + 16 * n) 1) (s.fld F.BCN_PROT_LBT_T)

/-- P_fwd above MAX_PWR + 1.0 dB (R349). -/
def overpower (n fwd : Nat) (s : State) : Bool := decide ((chtPower n s : Rat) + 4 < pFwd fwd s)

/-- RL below RL_TRIP (R349). -/
def tripped (fwd ref : Nat) (s : State) : Bool := decide (returnLoss fwd ref s < (s.fld F.BCN_PROT_RL_TRIP : Rat))

/-- The probe that cuts a burst, by its number from 1, and the status: a probe's codes stand for both its samples (R346, R347, R349).
(Assumption 98, DEDUCED.) -/
def burstCut (n : Nat) (s : State) : Nat → List (BitVec 12 × BitVec 12) → Option (Nat × Nat)
  | _, [] => none
  | k, p :: t =>
    if overpower n p.1.toNat s then some (k, ST.charter)
    else if tripped p.1.toNat p.2.toNat s then some (k, 0x31)
    else burstCut n s (k + 1) t

/-- The burst of a search on a locked channel: the probes' detector codes decide the setting (R346), unless one cuts the
burst (R349). -/
def tuneBurst (n : Nat) (probes : List (BitVec 12 × BitVec 12)) (s : State) : State :=
  let rls := probes.map (fun p => returnLoss p.1.toNat p.2.toNat s)
  let b0 : Tuning := { series := s.fld (F.BCN_CH_TUNE_SERIES n), shunt := s.fld (F.BCN_CH_TUNE_SHUNT n),
                       rl := rls.headD 0, base := 0 }
  let b := (probeList.zip (rls.drop 1)).foldl (fun b p => tuneProbe b p.1 p.2) b0
  let pw := toSigned 8 (s.fld F.BCN_TX_CFG_TUNE_PWR)
  let s := paSwitch false ((paSwitch true s).emit (.radio n (if pw < chtPower n s then pw else chtPower n s) (carrierOf n s) 0 [] []))
  let s := match burstCut n s 1 (probes.take 17) with
    | some (k, st) =>
      let s := searchEnd st (dutyAdd n (35 + 20 * k) s)
      if st = ST.charter then raise 107 (s.setFld F.BCN_STATUS_OVERPWR 1) else s
    | none =>
      let s := (((s.setFld (F.BCN_CH_TUNE_SERIES n) b.series.toNat).setFld (F.BCN_CH_TUNE_SHUNT n) b.shunt.toNat).setFld
        (F.BCN_CH_TUNE_TUNE_VALID n) 1)
      searchEnd ST.ok (dutyAdd n 375 s)
  { s with bcn := { s.bcn with quiet := some s.tick } }

/-- A tuner search (R344, R345, R346): a pending one starts from rest; with PA_MODE 1 it completes with ST_FORMAT; the radio
goes to the channel, whatever comes meanwhile (R353); locked there, the search passes the charter, the duty rule and LBT
as a frame does, and transmits. (Assumption 98, DEDUCED.) -/
def execTunerSearch (energy : BitVec 8) (probes : List (BitVec 12 × BitVec 12)) (s : State) :
    Host.Outcome State Fault Refusal :=
  .next (match s.bcn.search.or (bcnTuneNext s) with
    | none => s
    | some n =>
      if !bcnRests s || (s.bcn.search.isNone && (!bcnIdle s || (bcnCalNext s).isSome)) then s
      else if s.bit F.BCN_CFG_PA_MODE then bcnAdvance none (searchEnd ST.format { s with bcn := { s.bcn with search := some n } })
      else if s.bcn.search ≠ some n ∨ bcnState s ≠ 3 ∨ s.fld F.BCN_STATUS_CHAN_ACT ≠ n then
        bcnAdvance none { s with bcn := { s.bcn with search := some n, fault := none } }
      else if !chtEnabled n s then bcnAdvance none { s with bcn := { s.bcn with search := none } }
      else if chtDuty n s = 0 ∨ chtTotal s = 0 then bcnAdvance none (searchEnd ST.duty s)
      else if !dutyAllows n 375 s then bcnAdvance none { s with bcn := { s.bcn with search := none } }
      else if chtLbt n s && decide (lbtThreshold n s ≤ energy.toInt) then
        bcnAdvance none { s with bcn := { s.bcn with search := none, quiet := some s.tick } }
      else bcnAdvance none (tuneBurst n probes s))

/-! The key chain (R359). -/

/-- The interval index of a GPST second; CHAIN_INT is not 0. (Assumption 100, DEDUCED.) -/
def keyIndex (sec : Nat) (s : State) : Nat :=
  (sec % 2 ^ 32 + 2 ^ 32 - s.fld F.BCN_CHAIN_EPOCH_SEC_LO) % 2 ^ 32 / s.fld F.BCN_AUTH_CFG_CHAIN_INT

/-- A key store entry. -/
def keyEntry (s : State) (k : Nat) : Option (Nat × List Byte) := Sparse.get (fun _ => none) s.bcn.keys k

/-- A key store entry replaced. -/
def setKey (s : State) (k : Nat) (e : Option (Nat × List Byte)) : State :=
  { s with bcn := { s.bcn with keys := Sparse.put (fun _ => none) s.bcn.keys k e } }

/-- The held key of an index, modulo 2^32. -/
def keyOf (i : Int) (s : State) : Option (List Byte) :=
  ((List.range 8).findSome? (fun k =>
    match keyEntry s k with
    | some (j, b) => if (j : Int) = i % (2 ^ 32 : Int) then some b else none
    | none => none))

/-- How far an entry's index lies above the current interval's, as a signed 32-bit difference. -/
def keyAhead (i j : Nat) : Int := toSigned 32 ((j + 2 ^ 32 - i) % 2 ^ 32)

/-- Keys more than 1 below the current interval are erased; KEY_LOW is raised when fewer than 2 lie above it. `written`:
after a key write, which alone can end the condition. (Assumption 102, DEDUCED.) -/
def keyCheck (written : Bool) (s : State) : State :=
  if s.fld F.BCN_AUTH_CFG_CHAIN_INT = 0 then s
  else
    let i := keyIndex s.tb.sec s
    let s := (List.range 8).foldl (fun s k =>
      match keyEntry s k with
      | some (j, _) => if keyAhead i j < -1 then setKey s k none else s
      | none => s) s
    let above := (List.range 8).countP (fun k =>
      match keyEntry s k with
      | some (j, _) => decide (0 < keyAhead i j)
      | none => false)
    if above < 2 then
      if s.bcn.keyLow then s else raise 111 { s with bcn := { s.bcn with keyLow := true } }
    else if written then { s with bcn := { s.bcn with keyLow := false } } else s

/-- A new key-chain interval. -/
def execChainInterval (s : State) : Host.Outcome State Fault Refusal := .next (keyCheck false s)

/-- A write of a key word: nothing of it can be read (R359). -/
def opKeyWord (who : Reader) (k : Nat) (v : Word) (s : State) : State :=
  let s := plainWrite who (R.BCN_KEY_W k) v s
  if vaultRights who s then { s with bcn := { s.bcn with keyW := Sparse.put (fun _ => 0) s.bcn.keyW k v } } else s

/-- A write of BCN_KEY_CTRL: 1 WRITE, 2 ERASE, 3 ignored; CMD reads 0 once it is done (R359). -/
def opKeyCtrl (who : Reader) (v : Word) (s : State) : State :=
  let cmd := bitsOf v.toNat 31 30
  if !vaultRights who s then plainWrite who R.BCN_KEY_CTRL v s
  else if cmd = 3 then s
  else
    let s := (plainWrite who R.BCN_KEY_CTRL v s).setFld F.BCN_KEY_CTRL_CMD 0
    let e := s.fld F.BCN_KEY_CTRL_ENTRY
    let w (k : Nat) : Nat := (Sparse.get (fun _ => (0 : Word)) s.bcn.keyW k).toNat
    if cmd = 1 then keyCheck true (setKey s e (some (w 0, leBytes 4 (w 1) ++ leBytes 4 (w 2) ++ leBytes 4 (w 3) ++ leBytes 4 (w 4))))
    else if cmd = 2 then keyCheck false (setKey s e none)
    else s

def execKeyWrite (who : Reader) (v : Word) (s : State) : Host.Outcome State Fault Refusal :=
  .next (gate who R.BCN_KEY_CTRL true (opKeyCtrl who v) s)

def execKeyErase (who : Reader) (v : Word) (s : State) : Host.Outcome State Fault Refusal :=
  .next (gate who R.BCN_KEY_CTRL true (opKeyCtrl who v) s)

/-! The cycle table (R361, R362). -/

/-- An empty cycle record. -/
def cycEmpty : List Byte := List.replicate 32 0

/-- A cycle table record by index. -/
def cycRec (s : State) (i : Nat) : List Byte := Sparse.get (fun _ => cycEmpty) s.bcn.cyc i

/-- A record replaced; the mirrors follow (R460). -/
def setCyc (s : State) (i : Nat) (b : List Byte) : State :=
  mirrorNote 3 i { s with bcn := { s.bcn with cyc := Sparse.put (fun _ => cycEmpty) s.bcn.cyc i b } }

/-- A record a WRITE accepts (R361). -/
def cycOk (b : List Byte) : Bool :=
  leAt b 4 2 != 0 && leAt b 6 2 != 0 && leAt b 4 2 * 10000 / leAt b 6 2 != 0 && leAt b 8 1 / 2 == 0 && leAt b 9 7 == 0

/-- A WRITE of the cycle table. -/
def cycWrite (b : List Byte) (s : State) : Nat × State :=
  if cycOk b then (ST.ok, setCyc s (leAt b 0 4 % 256) b) else (ST.format, s)

/-- An INVALIDATE of the cycle table: VALID 0 (R460). -/
def cycInvalidate (i : Nat) (s : State) : State := setCyc s i (putAt (cycRec s i) 8 [0])

/-- A completed command of a cycle table port (R361). -/
def cycPortDo (r : Reader) (c : PortCmd) (s : State) : Nat × State :=
  let i := c.ctrl % 256
  match bitsOf c.ctrl 9 8 with
  | 1 => (ST.ok, setPortWindow cycPorts r ((List.range 8).map (fun k => BitVec.ofNat 32 (leAt (cycRec s i) (4 * k) 4))) s)
  | 2 => cycWrite ((c.window.map (fun w => leBytes 4 w.toNat)).flatten) s
  | 3 => (ST.ok, cycInvalidate i s)
  | _ => (ST.ok, s)

def execBcnCycRead (who : Reader) (i : Byte) (s : State) : Host.Outcome State Fault Refusal :=
  .next (gate who R.BCN_CYC_CTRL true (opPortCtrl cycPorts who (portWord cycPorts 1 i.toNat)) s)

def execBcnCycWrite (who : Reader) (s : State) : Host.Outcome State Fault Refusal :=
  .next (gate who R.BCN_CYC_CTRL true (opPortCtrl cycPorts who (portWord cycPorts 2 0)) s)

def execBcnCycInvalidate (who : Reader) (i : Byte) (s : State) : Host.Outcome State Fault Refusal :=
  .next (gate who R.BCN_CYC_CTRL true (opPortCtrl cycPorts who (portWord cycPorts 3 i.toNat)) s)

/-- The cycle table commands that are due complete. -/
def execBcnCycComplete (s : State) : Host.Outcome State Fault Refusal := .next (portsComplete cycPorts cycPortDo s)

/-! Frames (R350 to R358). -/

/-- A frame's channel. -/
def BcnFrame.chan (f : BcnFrame) : Nat := leAt f.desc 1 1

/-- Bits per symbol (R356). -/
def BcnFrame.m (f : BcnFrame) : Nat := if (leAt f.desc 3 1).testBit 0 then 2 else 1

/-- Microseconds of a symbol: 12.5, 25 or 50 kbaud. -/
def BcnFrame.symUs (f : BcnFrame) : Nat :=
  match leAt f.desc 3 1 / 4 % 4 with | 0 => 80 | 1 => 40 | _ => 20

/-- Bytes after the sync word (R358). -/
def BcnFrame.bytes (f : BcnFrame) : Nat := 42 + leAt f.desc 5 1 + (if leAt f.desc 2 1 = 2 then 36 else 0) + 2

/-- On-air time in µs, ramps included (R356). -/
def BcnFrame.air (f : BcnFrame) : Nat := 35 + (32 + 32 / f.m + 8 * f.bytes / f.m) * f.symUs

/-- Address of a descriptor in the frame memory (R350). -/
def descAddr (i : Nat) : Nat := 0x1DC0000 + 0x100 * i

/-- Check 1 of R352, every reserved field included (R11, R350). -/
def descOk (d : List Byte) : Bool :=
  (leAt d 0 1).testBit 0 && leAt d 0 1 / 8 == 0 && (leAt d 2 1 == 1 || leAt d 2 1 == 2) && decide (leAt d 1 1 ≤ 63) &&
    leAt d 3 1 &&& 0xF2 == 0 && leAt d 3 1 / 4 % 4 != 3 && decide (leAt d 5 1 ≤ 192) && leAt d 6 10 == 0 &&
    leAt d 17 1 / 16 == 0 && leAt d 35 29 == 0

/-- The charter refuses a frame: not VALID, its channel absent or disabled, its modulation or rate not allowed (R336, R337). -/
def chtBars (d : List Byte) (s : State) : Bool :=
  let c := leAt d 1 1
  !chtEnabled c s || ((leAt d 3 1).testBit 0 && !chtGfsk4 c s) || decide (chtRate c s < leAt d 3 1 / 4 % 4)

/-- The first failing check of R352 after the index's: its status. (Assumption 99, DEDUCED.) -/
def frameFault (d : List Byte) (due : Nat) (s : State) : Option Nat :=
  let sec := due / 2 ^ 32
  if !descOk d then some ST.format
  else if !s.bit F.BCN_CFG_EN || bcnMuted s then some ST.abort
  else if !s.bit F.TB_STATUS_VALID || tpLevel s == 0 then some 0x32
  else if chtBars d s then some ST.charter
  else if leAt d 2 1 == 2 && (s.fld F.BCN_AUTH_CFG_CHAIN_INT == 0 || (keyOf (keyIndex sec s) s).isNone ||
      (keyOf ((keyIndex sec s : Int) - 1) s).isNone) then some ST.auth
  else if s.bcn.held.isSome then some ST.busy
  else none

/-- A frame that ends before it starts: RESULT alone, and EV_105 (R352). -/
def frameRefuse (i st : Nat) (s : State) : State := raise 105 (s.setMemByte (descAddr i + 16) (BitVec.ofNat 8 st))

/-- A dispatched BEACON_FRAME (R352, R353). (Assumption 99, DEDUCED; assumption 102, DEDUCED.) -/
def frameDispatch (tt i due : Nat) (s : State) : State :=
  if 256 ≤ i then raise 105 s
  else
    let d := s.memBytes (descAddr i) 256
    match frameFault d due s with
    | some st =>
      let s := frameRefuse i st s
      if st = ST.charter then raise 107 s else if st = ST.auth then raise 111 s else s
    | none =>
      bcnAdvance (some tt) ({ s with bcn := { s.bcn with held := some { index := i, due := due, desc := d }, stay := none } }.setFld
        F.BCN_STATUS_HELD 1)

/-- BEACON_FRAME. -/
def execBeaconFrame (i : BitVec 12) (s : State) : Host.Outcome State Fault Refusal :=
  .next (ttDispatch i.toNat 4 (fun p s => frameDispatch i.toNat p (ttEntry s i.toNat).due s) s)

/-- The frame listening or on air ends: its result fields are written and EV_104 is raised (R350). (Assumption 99, DEDUCED.) -/
def frameEnd (s : State) : State :=
  match s.bcn.tx with
  | none => s
  | some f =>
    let r := [BitVec.ofNat 8 f.status, BitVec.ofNat 8 f.rflags] ++ leBytes 2 (satNat 0xFFFF f.airUs) ++ leBytes 8 f.tSent ++
      leBytes 4 (satNat 0xFFFFFFFF f.lateNs) ++ [BitVec.ofInt 8 f.pwr, BitVec.ofNat 8 f.rl, BitVec.ofNat 8 f.gain]
    let s := { s with bcn := { s.bcn with tx := none, quiet := some s.tick } }
    bcnAdvance none ((raise 104 (s.setMemBytes (descAddr f.index + 16) r)).setFld F.BCN_STATUS_STATE 3)

/-- Smallest u from 0 to 254 with scale × 2^(u/8) ≥ v; 255 for none and for an unknown value (R358). -/
def uncCode (scale v : Nat) : Nat :=
  if v = 0xFFFFFFFF then 255
  else ((List.range 255).find? (fun u => decide (v ^ 8 ≤ scale ^ 8 * 2 ^ u))).getD 255

/-- The bytes of a value, high byte first. -/
def beNat (n v : Nat) : List Byte := (leBytes n v).reverse

/-- The cycle a frame announces (R358): the held record whose span follows the one that holds T_ref, or the one whose span
holds it; 24 zero bytes when there is none. (Assumption 100, DEDUCED.) -/
def cycAnnounce (next : Bool) (sec : Nat) (s : State) : List Byte :=
  let held := (List.range 256).map (cycRec s) |>.filter (fun b => (leAt b 8 1).testBit 0)
  let start (b : List Byte) : Nat := leAt b 0 4 * leAt b 4 2
  let pick : Option (List Byte) :=
    if next then
      held.foldl (fun (a : Option (List Byte)) b =>
        if sec < start b ∧ start b ≤ sec + leAt b 4 2 then
          match a with
          | some x => if start b < start x then some b else a
          | none => some b
        else a) none
    else held.find? (fun b => decide (start b ≤ sec) && decide (sec < start b + leAt b 4 2))
  match pick with
  | some b => beNat 4 (leAt b 0 4) ++ beNat 2 (leAt b 4 2) ++ beNat 2 (leAt b 6 2) ++ (b.drop 16).take 16
  | none => List.replicate 24 0

/-- The bytes of a frame (R358, R359) for its reference instant in 2^-32 s. (Assumption 100, DEDUCED.) -/
def frameBytesOf (f : BcnFrame) (tref : Nat) (s : State) : List Byte :=
  let d := f.desc
  let b (c : Bool) (k : Nat) : Nat := if c then 2 ^ k else 0
  let v2 : Bool := leAt d 2 1 == 2
  let sec := tref / 2 ^ 32
  let flags := b (tpLevel s != 1) 0 + b (s.bit F.TP_STATUS_STEP_PENDING) 1 + b ((leAt d 0 1).testBit 2) 2 +
    b (leapArmed s).isSome 3
  let head := [BitVec.ofNat 8 (leAt d 2 1 * 16), BitVec.ofNat 8 flags, BitVec.ofNat 8 (leAt d 5 1), BitVec.ofNat 8 s.bcn.fseq] ++
    beNat 4 sec ++ beNat 3 (tref % 2 ^ 32 / 256) ++
    [BitVec.ofNat 8 (uncCode 100 (s.word R.TP_UNC).toNat),
     BitVec.ofNat 8 (if v2 then uncCode 10 (s.word R.TP_FUNC).toNat else 0), BitVec.ofNat 8 (s.fld F.TB_LEAP_CUR)] ++
    beNat 4 (s.word R.BCN_HUB_ID).toNat ++ cycAnnounce ((leAt d 0 1).testBit 2) sec s ++ (d.drop 64).take (leAt d 5 1)
  let body :=
    if v2 then
      let i := if s.fld F.BCN_AUTH_CFG_CHAIN_INT = 0 then 0 else keyIndex sec s
      let m := head ++ beNat 4 i ++ ((keyOf ((i : Int) - 1) s).getD (List.replicate 16 0))
      m ++ (hmac256 ((keyOf i s).getD (List.replicate 16 0)) m).take 16
    else head
  body ++ beNat 2 (crc16 body).toNat

/-- The bits of a byte, the most significant first (R342). -/
def byteBits (b : Byte) : List Bool := (List.range 8).map (fun i => b.toNat.testBit (7 - i))

/-- Symbols of bits in units of a twelfth of the baud rate (R342): 2-GFSK sends 1 and 0 as +3 and −3; 4-GFSK sends 01, 00, 10 and 11 as
+3, +1, −1 and −3. -/
def symbolsOf (four : Bool) : List Bool → List Int
  | a :: b :: t =>
    if four then (match a, b with | false, true => 3 | false, false => 1 | true, false => -1 | true, true => -3) :: symbolsOf four t
    else (if a then 3 else -3) :: symbolsOf four (b :: t)
  | [a] => [if a then 3 else -3]
  | [] => []

/-- The symbols of a frame on air (R342, R358): 32 of preamble that alternate from +3, the sync word, and its bytes. (Assumption 162, DEDUCED.) -/
def airSymbols (four : Bool) (bytes : List Byte) : List Int :=
  (List.range 32).map (fun i => if i % 2 = 0 then 3 else -3) ++ symbolsOf four ((beNat 4 0xB5E60D27 ++ bytes).flatMap byteBits)

/-- The driver code a frame starts at (R348). -/
def gainStart (n : Nat) (target : Int) (s : State) : Int :=
  let g := s.fld (F.BCN_CH_TUNE_GAIN n)
  if Sparse.get (fun _ => false) s.bcn.fresh n || (g == 0 && !s.bit (F.BCN_CH_TUNE_TUNE_VALID n)) then
    let gpa : Int := if s.bit F.BCN_CFG_PA_MODE then (s.fld F.BCN_CFG_PA_GAIN : Int) else 0
    let c := 127 - 4 * (14 + gpa) + target
    if c < 0 then 0 else if 127 < c then 127 else c
  else g

/-- The change of the driver code (R348), from the error in 0.25 dB. (Assumption 101, DEDUCED.) -/
def gainStep (err : Rat) (limit : Nat) : Int :=
  if -1 < err ∧ err < 1 then 0
  else
    let k := roundRat err
    if k < -(limit : Int) then -(limit : Int) else if (limit : Int) < k then limit else k

/-- A rational held within a range of integers. -/
def satInt (lo hi : Int) (q : Rat) : Int := let k := roundRat q; if k < lo then lo else if hi < k then hi else k

/-- Ramp-up (R289, R341, R348, R349, R356, R358): the frame is on air; `fwd` and `ref` are the detector means of preamble symbols 8
to 23, on which the driver code is stepped once at symbol 24. (Assumption 101, DEDUCED.) (Assumption 162, DEDUCED.) -/
def rampUp (fwd ref : Nat) (f : BcnFrame) (s : State) : State :=
  let n := f.chan
  let want := toSigned 8 (leAt f.desc 4 1)
  let clamped := decide (chtPower n s < want)
  let target := if clamped then chtPower n s else want
  let p := pFwd fwd s
  let rl := returnLoss fwd ref s
  let g0 := gainStart n target s
  let g1 := g0 + gainStep ((target : Rat) - p) (s.fld F.BCN_TX_CFG_STEP_MAX)
  let limit := decide (g1 < 0) || decide (127 < g1)
  let g2 : Int := if g1 < 0 then 0 else if 127 < g1 then 127 else g1
  let mis := decide (rl < (s.fld F.BCN_PROT_RL_TH : Rat))
  let trefU := ((s.nowU + (25 + (32 + 32 / f.m) * f.symUs) * usUnits : Nat) : Int) +
    psUnits (toSigned 32 (s.word R.BCN_DELAY).toNat) - roundRat (ofsNow s * (secUnits : Rat) / 10 ^ 9)
  let tref := trefU.toNat / fracUnits % 2 ^ 80
  let b (c : Bool) (k : Nat) : Nat := if c then 2 ^ k else 0
  let bytes := frameBytesOf f tref s
  let s := (paSwitch true s).emit (.radio n target (carrierOf n s) f.symUs (airSymbols (f.m == 2) bytes) bytes)
  let f := { f with
    ramp := some s.tick, mid := some ⟨s.tick + 120 * (25 + 24 * f.symUs), g2.toNat, limit, mis⟩, rflags := f.rflags + b clamped 0, airUs := f.air, tSent := tref % 2 ^ 64
    lateNs := (s.nowU - f.due * fracUnits) * 10 ^ 9 / secUnits, pwr := satInt (-128) 127 p
    rl := (satInt 0 255 rl).toNat, gain := g0.toNat }
  let s := { s with bcn := { s.bcn with tx := some f, fseq := (s.bcn.fseq + 1) % 256,
                                        fresh := Sparse.put (fun _ => false) s.bcn.fresh n false } }
  s.setFld F.BCN_STATUS_STATE 5

/-- The start of symbol 24 (R348, R349): the driver code is changed and stored for the channel, and what the preamble showed is
reported; the frame goes on. -/
def bcnMid (s : State) : State :=
  match s.bcn.tx with
  | none => s
  | some f =>
    match f.mid with
    | none => s
    | some m =>
      if s.tick < m.at_ then s
      else
        let b (c : Bool) (k : Nat) : Nat := if c then 2 ^ k else 0
        let f := { f with mid := none, gain := m.code, rflags := f.rflags + b m.mismatch 2 + b m.limit 3 }
        let s := { s with bcn := { s.bcn with tx := some f } }.setFld (F.BCN_CH_TUNE_GAIN f.chan) m.code
        let s := if m.limit then raise 110 (s.setFld F.BCN_STATUS_PWR_LIMIT 1) else s
        if m.mismatch then
          let s := raise 108 (s.setFld F.BCN_STATUS_MISMATCH 1)
          if s.bit F.BCN_CFG_AUTO_TUNE && !s.bit F.BCN_CFG_PA_MODE then s.setFld (F.BCN_CH_TUNE_TUNE_PEND f.chan) 1 else s
        else s

/-- The radio is ready for the held frame and its due time has come (R353). -/
def frameReady (f : BcnFrame) (s : State) : Bool :=
  bcnState s == 3 && s.fld F.BCN_STATUS_CHAN_ACT == f.chan && s.bcn.step == .none && s.bcn.cal.isNone &&
    s.bcn.tx.isNone && s.bcn.search.isNone && decide (f.due * fracUnits ≤ s.nowU)

/-- The held frame starts, or ends with ST_LATE or ST_DUTY on its channel (R353, R354), or with ST_CHARTER where a build made
meanwhile refuses it (R336). (Assumption 95, DEDUCED.) -/
def execFrameStart (fwd ref : BitVec 12) (s : State) : Host.Outcome State Fault Refusal :=
  .next (match s.bcn.held with
    | none => s
    | some f =>
      if !frameReady f s then s
      else
        let s := { s with bcn := { s.bcn with held := none } }.setFld F.BCN_STATUS_HELD 0
        let late := s.nowU - f.due * fracUnits
        let stays (s : State) : State := bcnAdvance none { s with bcn := { s.bcn with stay := some f.chan } }
        if chtBars f.desc s then bcnAdvance none (raise 107 (frameRefuse f.index ST.charter s))
        else if s.fld F.BCN_TX_CFG_SLOT_TOL * usUnits < late ∧ s.tickStep ≤ late then stays (frameRefuse f.index ST.late s)
        else if !dutyAllows f.chan f.air s then
          stays (raise 106 (s.setMemByte (descAddr f.index + 16) (BitVec.ofNat 8 ST.duty)))
        else if chtLbt f.chan s || (leAt f.desc 0 1).testBit 1 then
          { s with bcn := { s.bcn with tx := some { f with rflags := 2, listen := s.tick } } }.setFld F.BCN_STATUS_STATE 4
        else rampUp fwd.toNat ref.toNat f s)

/-- Listening ends once its time has passed: a busy channel ends the frame, else ramp-up follows (R354). (Assumption 95, DEDUCED.) -/
def execLbtEnd (energy : BitVec 8) (fwd ref : BitVec 12) (s : State) : Host.Outcome State Fault Refusal :=
  .next (match s.bcn.tx with
    | none => s
    | some f =>
      if f.ramp.isSome ∨ s.tick < f.listen + 120 * lbtTime f.chan s then s
      else
        let s := { s with bcn := { s.bcn with quiet := some s.tick } }
        if chtBars f.desc s then frameEnd (raise 107 { s with bcn := { s.bcn with tx := some { f with status := ST.charter } } })
        else if lbtThreshold f.chan s ≤ energy.toInt then frameEnd { s with bcn := { s.bcn with tx := some { f with status := 0x30 } } }
        else rampUp fwd.toNat ref.toNat f s)

/-- Ramp-down is over: the time on air counts toward duty, and the frame ends (R355, R357). A frame that was cut counts
what has passed; any other ends once its time on air has passed. -/
def rampDown (s : State) : State :=
  match s.bcn.tx with
  | none => s
  | some f =>
    match f.ramp with
    | none => s
    | some t =>
      let us := (s.tick - t + 119) / 120
      if f.status = 0 ∧ us < f.airUs then s
      else
        let air := min us f.airUs
        frameEnd (dutyAdd f.chan air (paSwitch false { s with bcn := { s.bcn with tx := some { f with airUs := air } } }))

def execFrameDone (s : State) : Host.Outcome State Fault Refusal := .next (rampDown (bcnMid s))

/-- A frame is on air and not yet cut. -/
def onAir (s : State) : Option BcnFrame :=
  match s.bcn.tx with
  | some f => if f.ramp.isSome && f.status == 0 then some f else none
  | none => none

/-- Two consecutive samples of P_fwd above MAX_PWR + 1.0 dB (R349). -/
def execBcnOverpower (first second : BitVec 12) (s : State) : Host.Outcome State Fault Refusal :=
  .next (match onAir s with
    | none => s
    | some f =>
      if overpower f.chan first.toNat s && overpower f.chan second.toNat s then raise 107 ((frameCut ST.charter s).setFld F.BCN_STATUS_OVERPWR 1) else s)

/-- Two consecutive samples of RL below RL_TRIP (R349). -/
def execBcnTrip (first second : BitVec 12 × BitVec 12) (s : State) : Host.Outcome State Fault Refusal :=
  .next (match onAir s with
    | none => s
    | some _ =>
      if tripped first.1.toNat first.2.toNat s && tripped second.1.toNat second.2.toNat s then frameCut 0x31 s else s)

/-- EN is cleared, or BURST is entered with BURST_TX 0: a frame held or listening ends with ST_ABORT, one on air ramps
down to it (R357). (Assumption 99, DEDUCED.) -/
def bcnAbort (s : State) : State :=
  let s := match s.bcn.held with
    | some f => (frameRefuse f.index ST.abort { s with bcn := { s.bcn with held := none } }).setFld F.BCN_STATUS_HELD 0
    | none => s
  let s := match s.bcn.tx with
    | some f => if f.ramp.isNone then frameEnd { s with bcn := { s.bcn with tx := some { f with status := ST.abort } } }
      else frameCut ST.abort s
    | none => s
  bcnAdvance none s

/-- The power state or BURST_TX has changed (R363): the radio is muted, and a search under way goes back to waiting, or it goes on. -/
def bcnPower (s : State) : State := if bcnMuted s then bcnAbort (searchAbort s) else bcnAdvance none s

/-- A write of BCN_CFG. -/
def opBcnCfgWrite (who : Reader) (v : Word) (s : State) : State :=
  let was := s.bit F.BCN_CFG_EN
  let s := plainWrite who R.BCN_CFG v s
  bcnPower (if was && !s.bit F.BCN_CFG_EN then bcnAbort s else s)

/-- What a frame on air that a reset or HIBERNATE cuts was on air counts toward duty (R355, R357). (Assumption 102, DEDUCED.) -/
def dutyCut (s : State) : State :=
  match s.bcn.tx with
  | some f =>
    match f.ramp with
    | some t => dutyAdd f.chan (min ((s.tick - t + 119) / 120) f.airUs) s
    | none => s
  | none => s

/-- A reset other than function-level (R357, R363): the driver and BCN_PA_EN turn off with no result written and the keys are erased;
the step that the radio takes goes on. At main POR everything is lost. (Assumption 163, DEDUCED.) -/
def bcnReset (mainPor : Bool) (s : State) : State :=
  let b := (dutyCut s).bcn
  let s := if (match b.tx with | some f => f.ramp.isSome | none => false) then paSwitch false s else s
  let kept : Beacon :=
    { cyc := b.cyc, fseq := b.fseq, duty := b.duty, fresh := b.fresh, step := b.step, charter := b.charter, dutyIn := b.dutyIn }
  let s := { s with bcn := if mainPor then {} else kept }
  if mainPor then (domainStop 4 s).setFld F.BCN_STATUS_STATE 0 else s

/-- STATE right after a reset that steps the radio down (R357, R363): a frame or listening is left in SYNTHON, a calibration in
STANDBY. (Assumption 163, DEDUCED.) -/
def bcnStateReset (old : State) : Nat := match bcnState old with | 4 => 3 | 5 => 3 | 6 => 2 | n => n

/-- The status of the radio that mirrors its state after such a reset (R547). (Assumption 163, DEDUCED.) -/
def bcnStatus (old s : State) : State :=
  let s := (s.setFld F.BCN_STATUS_STATE (bcnStateReset old)).setFld F.BCN_STATUS_CHAN_ACT (old.fld F.BCN_STATUS_CHAN_ACT)
  s.setMaskBit R.PWR_DOMAIN 4 (old.maskBit R.PWR_DOMAIN 4)

end Sys2Proof.Machine
end

