-- ==== Sys2Proof/Machine/Fft.lean ====
section
/-! DEFINITION. What a lane computes (R207, R234, R235, R237, R246): a snapshot's levels on a profile's grid, passes in 12-bit block
floating point, the stored code spectrum, and the power of every lag. -/
namespace Sys2Proof.Machine

/-- A pair of components: I and Q, or a bin's. -/
abbrev Cplx := Int × Int

/-! Samples (R207, R235). -/

/-- Bits per component of a snapshot (R206). -/
def snapBits (b : List Byte) : Nat := match leAt b 3 1 % 4 with | 0 => 1 | 1 => 2 | _ => 4

/-- Bit `o` of a snapshot's sample bytes, which start at byte 32 (R207). -/
def snapBit (b : List Byte) (o : Nat) : Bool := (b.getD (32 + o / 8) 0).getLsbD (o % 8)

/-- The component of `n` bits at bit offset `o`: significance rises with the offset (R207). -/
def snapComponent (b : List Byte) (o : Nat) : Nat → Nat
  | 0 => 0
  | n + 1 => snapComponent b o n + (if snapBit b (o + n) then 2 ^ n else 0)

/-- The level a component value stands for (R207). -/
def snapLevel (bits v : Nat) : Int :=
  if bits = 1 then 1 - 2 * (v : Int)
  else if bits = 2 then (if v.testBit 1 then -1 else 1) * (if v.testBit 0 then 3 else 1)
  else 2 * toSigned 4 v + 1

/-- Sample `j` of a snapshot as levels, conjugated where its spectrum is inverted (R207, R235). -/
def snapSample (b : List Byte) (j : Nat) : Cplx :=
  let n := snapBits b
  let i := snapLevel n (snapComponent b (2 * n * j) n)
  let q := snapLevel n (snapComponent b (2 * n * j + n) n)
  (i, if (leAt b 3 1).testBit 2 then -q else q)

/-- A point of the grid before scaling (R235): the 8 samples about its instant, under the interpolator's phase of 32. (Assumption
33, DESIGN CHOICE.) (Assumption 33, DESIGN CHOICE.) -/
def gridSum (samples : List Cplx) (rate grid n : Nat) : Cplx :=
  let at_ := n * rate / (grid * 1000)
  let phase := n * rate % (grid * 1000) * 32 / (grid * 1000)
  let tap (j : Nat) : Cplx := if at_ + j < 3 then (0, 0) else samples.getD (at_ + j - 3) (0, 0)
  let part (f : Cplx → Int) : Int := ((List.range 8).map (fun j => Config.resampleTap phase j * f (tap j))).sum
  (part (·.1), part (·.2))

/-- The largest component of some points. -/
def tallest (l : List Cplx) : Nat := l.foldl (fun m z => max m (max z.1.natAbs z.2.natAbs)) 0

/-- A rational rounded to the nearest whole number, a half to the even one. -/
def roundHalfEven (x : Rat) : Int :=
  let k := Num.round x
  if x + 1 / 2 = k ∧ k % 2 ≠ 0 then k - 1 else k

/-- Points scaled so that the largest component is 1,023 (R235). (Assumption 33, DESIGN CHOICE.) -/
def scaled (l : List Cplx) : List Cplx :=
  let m : Nat := tallest l
  let f (x : Int) : Int := if m = 0 then 0 else roundHalfEven (((1023 * x : Int) : Rat) / (m : Nat))
  l.map (fun z => (f z.1, f z.2))

/-- Points cut into segments of `n`, `k` of them, the last padded with zeros (R235). -/
def segmentsOf (n : Nat) : Nat → List Cplx → List (List Cplx)
  | 0, _ => []
  | k + 1, l => (l.take n ++ List.replicate (n - l.length) (0, 0)) :: segmentsOf n k (l.drop n)

/-- Grid points a snapshot fills: floor(NSAMP × G × 1,000 / RATE_HZ) (R235). -/
def gridLength (b : List Byte) (grid : Nat) : Nat := leAt b 12 4 * grid * 1000 / max 1 (leAt b 4 4)

/-- A snapshot's segments on a grid of `grid` points per ms, of `n` points each (R235). -/
def snapSegments (b : List Byte) (grid n : Nat) : List (List Cplx) :=
  let samples := (List.range (leAt b 12 4)).map (snapSample b)
  let lg := gridLength b grid
  segmentsOf n ((lg + n - 1) / max 1 n) (scaled ((List.range lg).map (gridSum samples (leAt b 4 4) grid)))

/-! Passes (R233, R234). -/

/-- Points of 12-bit mantissas with one exponent (R234). -/
structure Block where
  exp : Nat
  pts : List Cplx

/-- Half of a component, to the nearest even (R234). -/
def halfEven (x : Int) : Int := roundHalfEven ((x : Rat) / 2)

/-- Every component is halved. -/
def halved (l : List Cplx) : List Cplx := l.map (fun z => (halfEven z.1, halfEven z.2))

/-- A result of a lane's arithmetic held in its 12-bit mantissa: the rounding of a turned point lies within one unit. (Assumption
33, DESIGN CHOICE.) (Assumption 33, DESIGN CHOICE.) -/
def mantissa (x : Rat) (err : Nat) : Int := max (-2048) (min 2047 (roundHalfEven x + (if err % 3 = 2 then -1 else ((err % 3 : Nat) : Int))))

/-- A point turned by a number of turns. -/
def turned (x : Rat) (z : Cplx) : Rat × Rat :=
  let c := Num.cosTurn x
  let s := Num.sinTurn x
  (z.1 * c - z.2 * s, z.1 * s + z.2 * c)

/-- A sum of mantissas held in its 12 bits. (Assumption 33, DESIGN CHOICE.) -/
def held12 (x : Int) : Int := max (-2048) (min 2047 x)

/-- A point turned within a lane; one turned by nothing is only held in its mantissa. -/
def laneTurn (x : Rat) (z : Cplx) : Cplx :=
  if x = 0 then (held12 z.1, held12 z.2)
  else let w := turned x z; (mantissa w.1 (Config.laneError x z.1 z.2 0), mantissa w.2 (Config.laneError x z.1 z.2 1))

/-- A radix stage on a group of points: the sums of its halves, and their differences turned (R234). (Assumption 33, DESIGN
CHOICE.) -/
def butterfly (inverse : Bool) (l : List Cplx) : List (List Cplx) :=
  let h := l.length / 2
  let pairs := (l.take h).zip (l.drop h)
  let turn (k : Nat) : Rat := (if inverse then 1 else -1) * (k : Rat) / (2 * h : Nat)
  [pairs.map (fun p => (held12 (p.1.1 + p.2.1), held12 (p.1.2 + p.2.2))),
    pairs.zipIdx.map (fun p => laneTurn (turn p.2) (p.1.1.1 - p.1.2.1, p.1.1.2 - p.1.2.2))]

/-- Radix stages: before each, every component is halved if any is 1,024 or more (R234). -/
def radixStages (inverse : Bool) : Nat → Nat → List (List Cplx) → Nat × List (List Cplx)
  | 0, e, gs => (e, gs)
  | n + 1, e, gs =>
    let tall := gs.any (fun g => decide (1024 ≤ tallest g))
    radixStages inverse n (if tall then e + 1 else e) ((if tall then gs.map halved else gs).flatMap (butterfly inverse))

/-- Points in the order the stages leave them, brought into theirs. -/
def woven : Nat → List Cplx → List Cplx
  | 0, l => l
  | n + 1, l =>
    let h := l.length / 2
    ((woven n (l.take h)).zip (woven n (l.drop h))).flatMap (fun p => [p.1, p.2])

/-- A pass (R233, R234): the transform of a block, its exponent travelling with it. (Assumption 33, DESIGN CHOICE.) -/
def lanePass (inverse : Bool) (b : Block) : Block :=
  let n := b.pts.length.log2
  let r := radixStages inverse n b.exp [b.pts]
  ⟨r.1, woven n r.2.flatten⟩

/-- A block of any components brought below 1,024 by halving, at most so many times. (Assumption 33, DESIGN CHOICE.) -/
def fitted : Nat → Block → Block
  | 0, b => b
  | n + 1, b => if 1024 ≤ tallest b.pts then fitted n ⟨b.exp + 1, halved b.pts⟩ else b

/-- A segment's forward spectrum at sub-bin offset `r`: turned back by r·Δ·t, Δ = 1/(4·T_SEG), and transformed (R246). -/
def forwardPass (r : Nat) (seg : List Cplx) : Block :=
  lanePass false ⟨0, seg.zipIdx.map (fun z => laneTurn (-(((r * z.2 : Nat) : Rat) / (4 * seg.length : Nat))) z.1)⟩

/-! Code spectra (R237). -/

/-- A stored bin: I in bits [11:0], Q in bits [23:12], signed. -/
def storedBin (code : List Byte) (i : Nat) : Cplx :=
  let v := leAt code (3 * i) 3
  (toSigned 12 v, toSigned 12 (v / 2 ^ 12))

/-- A code's spectrum of `n` bins from its `p` stored ones: those at multiples of n/p, the others 0 (R237). -/
def codeSpectrum (code : List Byte) (p n : Nat) : List Cplx :=
  let step := n / max 1 p
  (List.range n).map (fun m => if m % max 1 step = 0 then storedBin code (m / max 1 step) else (0, 0))

/-! Correlation (R246, R247). -/

/-- A product of a data bin with the conjugate of a code bin. -/
def conjProduct (x c : Cplx) : Cplx := (x.1 * c.1 + x.2 * c.2, x.2 * c.1 - x.1 * c.2)

/-- A bin turned by the phase ramp of a code drift of `d` grid points (R246). -/
def rampBin (n : Nat) (d : Rat) (m : Nat) (z : Cplx) : Cplx :=
  if d = 0 then z
  else
    let signed : Int := if 2 * m < n then m else (m : Int) - n
    let w := turned (Num.snap (-(signed : Rat) * d / (n : Nat))) z
    (roundHalfEven w.1, roundHalfEven w.2)

/-- An inverse pass on a segment's forward spectrum, for a bin `q` transform bins up, with a code drift since segment 0 (R244,
R246). -/
def inversePass (code : List Cplx) (q : Int) (drift : Rat) (x : Block) : Block :=
  let n := x.pts.length
  let at_ := (q % ((max 1 n : Nat) : Int)).toNat
  let up := x.pts.drop at_ ++ x.pts.take at_
  lanePass true (fitted 16 ⟨x.exp, (List.zipWith conjProduct up code).zipIdx.map (fun z => rampBin n drift z.2 z.1)⟩)

/-- |x|² of every output of an inverse pass (R234): a 32-bit mantissa aligned to a common exponent, as the power it stands for in
2^-8 units. (Assumption 33, DESIGN CHOICE.) -/
def powers (e : Nat) (b : Block) : List Nat :=
  b.pts.map (fun z => min (2 ^ 32 - 1) ((z.1 * z.1 + z.2 * z.2).toNat * 2 ^ 8 / 4 ^ (e - b.exp)) * 4 ^ e)

/-- The power of every output of a bin `k`, summed over the segments' forward spectra at its offset, with `drift` grid points of
code drift from one segment to the next, on the largest exponent of the segments (R234, R244, R246). (Assumption 33, DESIGN
CHOICE.) -/
def binPowers (code : List Cplx) (k : Int) (drift : Rat) (segs : List Block) : List Nat :=
  let bs := segs.zipIdx.map (fun b => inversePass code (k / 4) ((b.2 : Rat) * drift) b.1)
  let e := (bs.map (·.exp)).foldl max 0
  (bs.map (powers e)).foldl
    (fun a l => if a.isEmpty then l else List.zipWith (· + ·) a l) []

/-- The output at which a lag stands: the correlation peaks where the code lies `lag` points on. (Assumption 80, DEDUCED.) -/
def lagPower (ps : List Nat) (lag : Nat) : Nat := ps.getD ((ps.length - lag) % max 1 ps.length) 0

end Sys2Proof.Machine
end

