-- ==== Sys2Proof/Machine/Lane.lean ====
section
/-! DEFINITION. A Tightrope lane's line code (R445): the scrambler and the sync headers of IEEE 802.3 clause 49, the striping of
a frame's words over the lanes, and the alignment markers. -/
namespace Sys2Proof.Machine

/-- Up to 39 bits through the self-synchronising scrambler x^58 + x^39 + 1, the least significant first (R445): each bit is added to
those sent 39 and 58 bits before it. The history holds the latest 58 bits sent, the oldest as bit 0. Answers the bits sent and
the history after them. -/
def scrambleBits (n d h : Nat) : Nat × Nat :=
  let o := (d ^^^ (h >>> 19) ^^^ h) % 2 ^ n
  (o, (h ||| o <<< 58) >>> n)

/-- A word of 64 bits through the scrambler. -/
def scrambleWord (d h : Nat) : Nat × Nat :=
  let a := scrambleBits 39 (d % 2 ^ 39) h
  let b := scrambleBits 25 (d / 2 ^ 39) a.2
  (b.1 <<< 39 ||| a.1, b.2)

/-- The same word out of the receiver's descrambler, which keeps the bits received as its history. -/
def descrambleWord (o h : Nat) : Nat × Nat :=
  let l := h ||| o <<< 58
  ((o ^^^ (l >>> 19) ^^^ l) % 2 ^ 64, l >>> 64)

/-- A block as the line carries it, bit 0 first: a sync header of two bits, 01 of a data block and 10 of a control block, and 64 bits
of payload (R445). -/
def laneBlock (control : Bool) (payload : Nat) : BitVec 66 :=
  BitVec.ofNat 66 ((payload % 2 ^ 64) <<< 2 ||| (if control then 1 else 2))

/-- The blocks that carry words down a lane, given the history and the blocks since the latest marker: every 16,384th block is the
marker that carries the lane number, which does not pass through the scrambler (R445). (Assumption 171, DESIGN CHOICE.) -/
def laneBlocks (lane : Nat) : (words : List Nat) → (history since : Nat) → List (BitVec 66)
  | [], _, _ => []
  | w :: ws, h, k =>
    let x := scrambleWord w h
    let send := fun k => laneBlock false x.1 :: laneBlocks lane ws x.2 k
    if 16383 ≤ k then laneBlock true (Config.laneMarker lane) :: send 1 else send (k + 1)

/-- A frame's words of 8 bytes, little-endian (R445, R447). -/
def frameWords : List Byte → List Nat
  | b0 :: b1 :: b2 :: b3 :: b4 :: b5 :: b6 :: b7 :: bs =>
    ([b7, b6, b5, b4, b3, b2, b1, b0].foldl (fun a b => a * 256 + b.toNat) 0) :: frameWords bs
  | _ => []

/-- The words of a lane: word 0 of a frame is lane 0's, and the next are dealt in turn (R445); with one lane all are lane 0's (R446). -/
def laneWords (lanes lane : Nat) (ws : List Nat) : List Nat :=
  (ws.zipIdx.filter (fun e => e.2 % lanes == lane)).map (·.1)

/-- What each of a port's lanes carries of the `n`-th output, a frame: what stood on the lane before it, and how far the latest
marker lies behind, are free, since the spec does not say what passes between frames (R445). (Assumption 171, DESIGN CHOICE.) -/
def laneLines (port lanes n : Nat) (frame : List Byte) : List (List (BitVec 66)) :=
  (List.range lanes).map (fun i =>
    laneBlocks i (laneWords lanes i (frameWords frame)) (Config.laneHistory port i n % 2 ^ 58) (Config.laneCount port i n % 16384))

end Sys2Proof.Machine
end

