-- ==== Sys2Proof/Machine/Link.lean ====
section
/-! DEFINITION. What the Carousel needs of the Tightrope ports (chapter 17): port state, credits held and granted, and sending
frames (R447 to R449, R453, R454). -/
namespace Sys2Proof.Machine

/-- Job credits held toward the peer. -/
def jobAvail (p : Nat) (s : State) : Nat := (link s p).jobGot - (link s p).jobSpent

/-- Block credits held toward the peer. -/
def blkAvail (p : Nat) (s : State) : Nat := (link s p).blkGot - (link s p).blkSpent

/-- Result credits held and not reserved (R453). -/
def resAvail (p : Nat) (s : State) : Nat := (link s p).resGot - (link s p).resSpent - (link s p).resHeld

/-- Block credits granted and not yet used by the peer. -/
def blkOut (p : Nat) (s : State) : Nat := (link s p).blkGrant - (link s p).blkUsed

/-- Bytes a frame with a body takes: header, body, CRC, padded to 8 (R447). -/
def frameBytes (n : Nat) : Nat := (16 + n + 4 + 7) / 8 * 8

/-- Whether a port's share of the port buffers, 256 KiB, has room for one more frame with a body of `n` bytes (R449). -/
def linkRoom (n : Nat) (l : Link) : Bool :=
  decide ((l.unacked.map (fun f => frameBytes f.body.length)).sum + frameBytes n ≤ 262144)

/-- Whether a new reliable frame may leave now: it fits, and none waits before it (R449). -/
def linkFits (p n : Nat) (s : State) : Bool := linkRoom n (link s p) && (link s p).later.isEmpty

/-- A frame as the line carries it: header, body, CRC-32 over both, and padding to whole words (R447). -/
def frameOf (kind seq ack : Nat) (body : List Byte) : List Byte :=
  let n := body.length
  let hb := [BitVec.ofNat 8 kind, BitVec.ofNat 8 (n / 2 ^ 16)] ++ leBytes 2 n ++ leBytes 4 seq ++ leBytes 4 ack ++ leBytes 4 0 ++ body
  hb ++ leBytes 4 (crc32 hb).toNat ++ List.replicate (frameBytes n - (20 + n)) 0

/-- A frame on a port's lanes as the `n`-th output: on two, or on lane 0 alone under WIDTH1 (R445, R446). (Assumption 171, DESIGN CHOICE.) -/
def frameSent (p n : Nat) (frame : List Byte) (s : State) : Output :=
  .linkFrame p frame (laneLines p (if s.bit (F.TRP_PORT_STAT_WIDTH1 p) then 1 else 2) n frame)

/-- A frame leaves a port, with the next reliable SEQ the port expects as its ACK (R449). -/
def frameOut (p kind seq : Nat) (body : List Byte) (s : State) : State :=
  s.emit (frameSent p s.out.length (frameOf kind seq (link s p).rxSeq body) s)

/-- An unreliable frame leaves a port; its SEQ is 0 (R447). -/
def linkSend (p kind : Nat) (body : List Byte) (s : State) : State := frameOut p kind 0 body s

/-- A reliable frame leaves a port with the next SEQ and is kept until it is acknowledged (R449). -/
def linkPush (p kind : Nat) (body : List Byte) (s : State) : State :=
  let l := link s p
  frameOut p kind l.txSeq body (setLink s p { l with
    txSeq := (l.txSeq + 1) % 2 ^ 32, unacked := l.unacked ++ [⟨l.txSeq, kind, body⟩],
    progress := if l.unacked.isEmpty then s.tick else l.progress })

/-- A reliable frame is sent, at once where it fits, else once the port's buffers have room for it (R449). -/
def linkSendRel (p kind : Nat) (body : List Byte) (s : State) : State :=
  if linkFits p body.length s then linkPush p kind body s
  else setLink s p { link s p with later := (link s p).later ++ [(kind, body)] }

/-- The frames that wait leave while they fit, oldest first (R449). -/
def linkDrain (p : Nat) : List (Nat × List Byte) → State → State
  | [], s => setLink s p { link s p with later := [] }
  | (k, b) :: rest, s =>
    if linkRoom b.length (link s p) then linkDrain p rest (linkPush p k b s)
    else setLink s p { link s p with later := (k, b) :: rest }

/-- A reserved result credit is released without a RESULT frame (R454). -/
def resRelease (p : Nat) (s : State) : State := setLink s p { link s p with resHeld := (link s p).resHeld - 1 }

/-- A reserved result credit is consumed by a RESULT frame (R454). -/
def resConsume (p : Nat) (s : State) : State :=
  setLink s p { link s p with resHeld := (link s p).resHeld - 1, resSpent := (link s p).resSpent + 1 }

end Sys2Proof.Machine
end

