-- ==== Sys2Proof/Machine/Carousel.lean ====
section
/-! DEFINITION. Snapshot jobs (chapter 08): sources, checks, slots, staging, the result record, deadlines, cancellation and
forwarding. -/
namespace Sys2Proof.Machine

/-- The job in a slot. -/
def jobAt (s : State) (k : Nat) : Option Job := Sparse.get (fun _ => none) s.car.jobs k

/-- A slot's job replaced. -/
def setJob (s : State) (k : Nat) (j : Option Job) : State :=
  { s with car := { s.car with jobs := Sparse.put (fun _ => none) s.car.jobs k j } }

/-- A slot's job changed where there is one. -/
def modJob (k : Nat) (f : Job → Job) (s : State) : State :=
  match jobAt s k with
  | some j => setJob s k (some (f j))
  | none => s

/-- A slot's generation (R216). -/
def slotGen (s : State) (k : Nat) : Nat := Sparse.get (fun _ => 0) s.car.gens k

/-- The jobs held, with their slots. -/
def jobList (s : State) : List (Nat × Job) := s.car.jobs.filterMap (fun p => p.2.map (fun j => (p.1, j)))

/-- How many jobs satisfy a test. -/
def jobCount (p : Job → Bool) (s : State) : Nat := ((jobList s).filter (fun e => p e.2)).length

/-- The lowest slot that is FREE, among `n` from slot `k` on; `l` holds the taken ones in rising order. (Assumption 76, DEDUCED.) -/
def freeSlot : Nat → Nat → List Nat → Option Nat
  | 0, _, _ => none
  | n + 1, k, l => if l.contains k then freeSlot n (k + 1) l else some k

/-- A FREE slot of the table (R216). -/
def nextSlot (s : State) : Option Nat := freeSlot (min 16384 ((jobList s).length + 1)) 0 ((jobList s).map (·.1))

/-- Free staging blocks: neither held by jobs nor reserved by block credits (R217, R453). -/
def stageFree (s : State) : Nat :=
  16384 - ((jobList s).map (fun e => e.2.blocks)).sum - blkOut 0 s - blkOut 1 s

/-- Blocks a snapshot of so many bytes needs (R217). -/
def blocksFor (n : Nat) : Nat := (n + 511) / 512

/-- Group of a source (R251); 34 is CAL. -/
def srcGroup (j : Nat) (s : State) : Nat := if j = 34 then s.fld F.CAR_ARB_CAL_GROUP else s.fld (F.CAR_ARB_GROUP j)

/-- Weight of a source; 34 is CAL. -/
def srcWeight (j : Nat) (s : State) : Nat := if j = 34 then s.fld F.CAR_ARB_CAL_WEIGHT else s.fld (F.CAR_ARB_WEIGHT j)

/-- Virtual time of a source (R252). -/
def srcTime (j : Nat) (s : State) : Rat := Sparse.get (fun _ => 0) s.car.vt j

/-- Whether source `a` comes before `b`: less virtual time, then group PRIO, then number (R252, R254). -/
def srcBefore (a b : Nat) (s : State) : Bool :=
  let pa := s.fld (F.CAR_GROUP_CFG_PRIO (srcGroup a s))
  let pb := s.fld (F.CAR_GROUP_CFG_PRIO (srcGroup b s))
  decide (srcTime a s < srcTime b s) ||
    (decide (srcTime a s = srcTime b s) && (decide (pa < pb) || (pa == pb && decide (a < b))))

/-- The first of a list of sources in that order. (Assumption 48, DESIGN CHOICE.) -/
def srcPick (l : List Nat) (s : State) : Option Nat :=
  l.foldl (fun (b : Option Nat) j =>
    match b with
    | some k => if srcBefore j k s then some j else b
    | none => some j) none

/-- Slots a source holds (INUSE). -/
def srcInuse (j : Nat) (s : State) : Nat := jobCount (fun b => b.src == j) s

/-- What R204, R205, R251 and R254 ask of any source. -/
def srcTakes (j : Nat) (s : State) : Bool :=
  s.bit F.CAR_CFG_EN && pstate s == 0 && s.pwr.trans != some 1 && s.bit (F.CAR_GROUP_CFG_ADMIT (srcGroup j s)) && (nextSlot s).isSome &&
    (s.fld (F.CAR_SRC_LIMIT_MAXSLOT j) == 0 || decide (srcInuse j s < s.fld (F.CAR_SRC_LIMIT_MAXSLOT j))) &&
    decide (jobCount (fun b => b.src == j && (b.state == 1 || b.state == 2)) s < s.fld F.CAR_ARB_CFG_PREFETCH)

/-- A host source may be served now: also its job ring has an entry and is not halted, its result ring has room, and the
versions are negotiated (R29, R204, R432, R439). -/
def hostServed (j : Nat) (s : State) : Bool :=
  srcTakes j s && ringOn j s && ringLevel j s != 0 && !s.bit (F.HOST_RING_STAT_HALTED j) && ringRoom (32 + j) 1 s &&
    s.bit F.HOST_NEG_NEGOTIATED && !s.host.d3hot

/-- The sources whose descriptors may be taken now (R204, R254): the host's, and a port's whose JOB frames wait. (Assumption 105, DEDUCED.) -/
def takeSources (s : State) : List Nat :=
  (List.range 32).filter (fun i => hostServed i s) ++
    (List.range 2).filterMap (fun p => if srcTakes (32 + p) s && !(link s p).waiting.isEmpty then some (32 + p) else none)

/-! Descriptor fields (R209 to R211). -/

/-- Major version of a descriptor. -/
def descMajor (d : List Byte) : Nat := leAt d 1 1
/-- FLAGS of a descriptor. -/
def descFlags (d : List Byte) : Nat := leAt d 2 2
/-- A flag of a descriptor; those a 1.x descriptor lacks read 0 (R211). -/
def descFlag (d : List Byte) (i : Nat) : Bool :=
  (descFlags d).testBit i && (descMajor d != 1 || !(i == 2 || i == 4 || i == 5))
/-- SIG_MASK. -/
def descMask (d : List Byte) : Nat := leAt d 24 8
/-- DEADLINE. -/
def descDeadline (d : List Byte) : Nat := leAt d 32 8
/-- SNAP_LEN. -/
def descLen (d : List Byte) : Nat := leAt d 92 4
/-- FWD_TAG. -/
def descFwd (d : List Byte) : Nat := leAt d 112 4

/-- The snapshot codes (R213). -/
def snapCode (c : Nat) : Bool := (sigOf c).isSome && !([0x03, 0x04, 0x0E, 0x1D, 0x1E, 0x21].contains c)

/-- Signal codes of a mask. -/
def maskSigs (m : Nat) : List Nat := (List.range 64).filter (fun c => m.testBit c)

/-- Reserved bytes and bits of a descriptor are 0 (R209 to R211). (Assumption 77, DEDUCED.) -/
def descReservedOk (d : List Byte) : Bool :=
  leAt d 7 1 == 0 && leAt d 108 4 == 0 && leAt d 116 12 == 0 && descFlags d / 64 == 0 &&
    (descMajor d != 1 ||
      (leAt d 20 4 == 0 && leAt d 48 4 == 0 && leAt d 104 24 == 0 && (descFlags d) &&& 0x34 == 0))

/-- A deadline that has passed (R223). -/
def deadlinePassed (d : List Byte) (s : State) : Bool :=
  descDeadline d != 0 && decide (s.widen (descDeadline d) < s.now80)

/-- Checks 1 to 6: the first failure's status and DETAIL (R213). `linkMajor` is 1 where the link carries descriptor major 1
only (R230, R452). (Assumption 77, DEDUCED.) -/
def descCheck (src : Nat) (linkOne : Bool) (d : List Byte) (s : State) : Option (Nat × Nat) :=
  let m := descMajor d
  if (m ≠ 1 ∧ m ≠ 2) ∨ (linkOne ∧ m = 2) then some (ST.version, 0x01)
  else if !descReservedOk d then some (ST.format, 0x10)
  else if (maskSigs (descMask d)).any (fun c => !snapCode c) then some (ST.format, 0x11)
  else if 64 < leAt d 4 1 then some (ST.format, 0x12)
  else if 90 < leAt d 5 1 ∨ leAt d 16 4 / 2 ^ 25 ≠ 0 then some (ST.format, 0x13)
  else if (src < 32 ∧ descFwd d ≠ 0) ∨ (32 ≤ src ∧ leAt d 96 8 ≠ 0) then some (ST.format, 0x14)
  else if descLen d < 33 ∨ 65568 < descLen d then some (ST.format, 0x20)
  else if !s.bit F.TB_STATUS_VALID then some (0x22, 0x50)
  else if deadlinePassed d s then some (ST.deadline, 0x40)
  else if descMask d = 0 then some (ST.empty, 0x04)
  else if leAt d 4 1 = 0 then some (ST.empty, 0x05)
  else if !descFlag d 0 && !descFlag d 1 then some (ST.empty, 0x06)
  else none

/-! The result record (R220). -/

/-- A job's result record. -/
def jobRecord (j : Job) (status detail : Nat) (s : State) : List Byte :=
  let b (c : Bool) (v : Nat) : Nat := if c then v else 0
  let rf := b (!j.fix.isEmpty) 1 + b (!j.meas.isEmpty) 2 + b j.forwarded 4 + b j.retaken 8 + b j.suspect 16
  let d := j.desc
  let len := 64 + j.fix.length + 24 * j.meas.length
  d.take 2 ++ [BitVec.ofNat 8 status, BitVec.ofNat 8 detail, BitVec.ofNat 8 j.meas.length, BitVec.ofNat 8 j.cands.length,
    if j.forwarded then 1 else 0, BitVec.ofNat 8 rf] ++ (d.drop 8).take 8 ++ (d.drop 16).take 4 ++ leBytes 4 (s.word R.DEV_SERIAL_LO).toNat ++
    leBytes 8 (j.tc.getD 0) ++ leBytes 8 s.now64 ++ leBytes 4 (j.lcyc / 1024) ++ leBytes 4 len ++ List.replicate 16 0 ++
    j.fix ++ j.meas.flatten

/-- The precedence of what decides a status (R225): the job's own completion, a cancel, the deadline, a power state. (Assumption 23, DESIGN CHOICE.) -/
def endRank (status detail : Nat) : Nat :=
  if status = ST.abort ∧ detail = 0x31 then 2 else if status = ST.deadline ∧ detail ≠ 0x40 then 3
  else if status = ST.abort ∧ detail = 0x32 then 4 else 1

/-- A cause may decide a job's status: it is undecided, or was decided in this FS tick by a cause that comes later (R222, R225). (Assumption 23, DESIGN CHOICE.) -/
def mayDecide (j : Job) (status detail : Nat) (s : State) : Bool :=
  j.state != 6 || (j.endTick == s.tick && decide (endRank status detail < j.rank))

/-- A job without measurements and fix, for statuses that return none (R218). -/
def Job.bare (status : Nat) (j : Job) : Job :=
  if status = ST.ok ∨ status = ST.weak ∨ status = 0x23 then j else { j with meas := [], fix := [] }

/-- A job's status is decided (R218, R222, R225), in the order kept for its ring (R433): its record is made, its lane work, scratch and solver engine given up. (Assumption 76, DEDUCED.) -/
def jobEnd (k status detail : Nat) (s : State) : State :=
  match jobAt s k with
  | none => s
  | some j =>
    if !mayDecide j status detail s then s
    else
      let s := if status = ST.format then flagEvent F.CAR_ERR_FORMAT 73 s else s
      let s := if status = ST.version ∧ (detail = 1 ∨ detail = 2) then flagEvent F.CAR_ERR_VERSION 72 s else s
      let s := if status = ST.deadline then flagEvent F.CAR_ERR_DEADLINE 74 s else s
      liveNext (setJob { s with car := { s.car with seq := s.car.seq + 1 } } k (some { j with
        state := 6, status := status, detail := detail, ending := none, prof := none, epoch := none, scratch := 0
        was := if j.state = 6 then j.was else j.state, endTick := s.tick, rank := endRank status detail
        order := s.car.seq, fwdLeft := 0, invLeft := [], tDone := s.now64
        record := some (jobRecord (j.bare status) status detail s) }))

/-- A slot becomes FREE; a Tightrope job that sends no RESULT releases its credit (R454). -/
def jobFree (k : Nat) (sent : Bool) (s : State) : State :=
  match jobAt s k with
  | none => s
  | some j =>
    let s := liveNext (setJob s k none)
    if 32 ≤ j.src ∧ !sent then resRelease (j.src - 32) s else s

/-- Whether some lane runs a pass of a job. -/
def jobBusy (j : Job) : Bool := j.fwdBusy + j.invBusy != 0

/-- A job ends without measurements: at once, or at its transform boundary or its fetch's end (R223, R224). (Assumption 76, DEDUCED.) -/
def jobAbort (k status detail : Nat) (s : State) : State :=
  match jobAt s k with
  | none => s
  | some j =>
    if (j.state = 4 ∧ jobBusy j) ∨ (j.state = 1 ∧ j.blocks ≠ 0) then
      setJob s k (some { j with ending := some (status, detail), fwdLeft := 0, invLeft := [] })
    else jobEnd k status detail s

/-! Forwarding (R226 to R229). -/

/-- Ports that a QUEUED job may be forwarded on (R226, R452). (Assumption 78, DEDUCED.) -/
def fwdPorts (j : Job) (s : State) : List Nat :=
  let en (p : Nat) := if p = 0 then s.bit F.CAR_FWD_CFG_EN_T0 else if p = 2 then s.bit F.CAR_FWD_CFG_EN_T2 else s.bit F.CAR_FWD_CFG_EN_T3
  [0, 2, 3].filter (fun p =>
    en p && linkUp p s && s.fld (F.TRP_PORT_STAT_MAJOR p) != 2 && decide (1 ≤ jobAvail p s) &&
      decide (blocksFor (descLen j.desc) ≤ blkAvail p s) && j.src != 32 + p)

/-- The port with the most free job credits, the lower number on a tie. (Assumption 78, DEDUCED.) -/
def fwdPort (j : Job) (s : State) : Option Nat :=
  (fwdPorts j s).foldl (fun (b : Option Nat) p =>
    match b with
    | some q => if jobAvail q s < jobAvail p s then some p else b
    | none => some p) none

/-- Jobs in QUEUED. -/
def queuedCount (s : State) : Nat := jobCount (fun j => j.state == 2) s

/-- The descriptor as it is forwarded: HOPS_LEFT less one, SNAP_ADDR 0, and the slot's FWD_TAG (R209, R227). -/
def fwdDesc (k : Nat) (j : Job) (s : State) : List Byte :=
  putAt (putAt (putAt j.desc 6 [BitVec.ofNat 8 (leAt j.desc 6 1 - 1)]) 96 (leBytes 8 0)) 112 (leBytes 4 (slotGen s k * 2 ^ 14 + k))

/-- A job enters QUEUED and is forwarded or stays (R226). -/
def jobQueued (k : Nat) (s : State) : State :=
  let s := modJob k (fun j => { j with state := 2, order := s.car.seq }) { s with car := { s.car with seq := s.car.seq + 1 } }
  match jobAt s k with
  | none => s
  | some j =>
    if deadlinePassed j.desc s then jobEnd k ST.deadline 0x41 s
    else if descFlag j.desc 5 && decide (1 ≤ leAt j.desc 6 1) && !j.retaken && decide (s.fld F.CAR_FWD_CFG_FWD_TH ≤ queuedCount s) then
      match fwdPort j s with
      | some p =>
        let s := linkSendRel p 0x10 (fwdDesc k j s ++ j.snap) s
        let l := link s p
        let s := setLink s p { l with jobSpent := l.jobSpent + 1, blkSpent := l.blkSpent + blocksFor (descLen j.desc) }
        setJob s k (some { j with state := 7, port := p, sentAt := s.tick, forwarded := true })
      | none => s
    else s

/-- A forwarded job is taken back and enters QUEUED, where its deadline is compared (R223, R229). (Assumption 78, DEDUCED.) -/
def jobRetake (k : Nat) (s : State) : State :=
  let s := modJob k (fun j => { j with state := 2, retaken := true, order := s.car.seq })
    { s with car := { s.car with seq := s.car.seq + 1 } }
  let s := s.setFld F.CAR_FWD_STAT_RETAKEN (satNat 0xFFFF (s.fld F.CAR_FWD_STAT_RETAKEN + 1))
  let s := flagEvent F.CAR_ERR_FWD_LOST 77 s
  match jobAt s k with
  | some j => if deadlinePassed j.desc s then jobEnd k ST.deadline 0x41 s else s
  | none => s

/-- TIMEOUT ms without a result, of a job without a deadline (R229). -/
def execFwdTimeout (slot : BitVec 14) (s : State) : Host.Outcome State Fault Refusal :=
  .next (match jobAt s slot.toNat with
    | some j =>
      let t := s.fld F.CAR_FWD_CFG_TIMEOUT
      if j.state = 7 ∧ descDeadline j.desc = 0 ∧ t ≠ 0 ∧ j.sentAt + t * 120000 ≤ s.tick then jobRetake slot.toNat s else s
    | none => s)

/-! Admission (R204, R205, R213, R217). -/

/-- A job's snapshot fetch starts; a host source's block is read from the host. -/
def fetchStart (j : Job) (s : State) : State :=
  if j.src < 32 then s.emit (.hostRead (leAt j.desc 96 8) (descLen j.desc)) else s

/-- A job receives its staging blocks. -/
def stageGrant (k : Nat) (s : State) : State :=
  match jobAt s k with
  | none => s
  | some j => fetchStart j (setJob s k (some { j with blocks := blocksFor (descLen j.desc) }))

/-- The oldest job waiting for blocks (R217). -/
def stageWaiting (s : State) : Option (Nat × Job) :=
  (orderBy (fun (e : Nat × Job) => e.2.order) ((jobList s).filter (fun e => e.2.state == 1 && e.2.blocks == 0))).head?

/-- Blocks go to the oldest waiting job when they suffice; a later one is never served first (R217). -/
def execStageBlocksGrant (s : State) : Host.Outcome State Fault Refusal :=
  .next (match stageWaiting s with
    | some (k, j) => if blocksFor (descLen j.desc) ≤ stageFree s then stageGrant k s else s
    | none => s)

/-- The record of a job that a source limit of 0 completes without a slot (R205). -/
def busyRecord (src : Nat) (d : List Byte) (s : State) : List Byte :=
  jobRecord { src := src, state := 6, desc := d } ST.busy 0x33 s

/-- One more record written (CAR_DONE). -/
def carDone (s : State) : State :=
  let n := s.car.done + 1
  ({ s with car := { s.car with done := n } }.setWord R.CAR_DONE_LO (BitVec.ofNat 32 n)).setWord R.CAR_DONE_HI
    (BitVec.ofNat 32 (n / 2 ^ 32))

/-- A record goes to its destination: a host ring, or a RESULT frame with the parent's FWD_TAG (R222, R227). -/
def recordSend (src : Nat) (d r : List Byte) (s : State) : State :=
  if src < 32 then carDone (ringWrite (32 + src) r s)
  else carDone (resConsume (src - 32) (linkSendRel (src - 32) 0x11 (leBytes 4 (descFwd d) ++ List.replicate 4 0 ++ r) s))

/-- Whether the destination has room for a record (R222). -/
def recordRoom (src : Nat) (r : List Byte) (s : State) : Bool :=
  if src < 32 then ringRoom (32 + src) (unitsOf r) s && !s.host.d3hot
  else linkUp (src - 32) s && linkFits (src - 32) (8 + r.length) s

/-- A descriptor is admitted (R205, R213, R217): a slot, checks 1 to 6, staging. `snap` is the block that came with it over
Tightrope, whose blocks the credits hold. -/
def takeDescriptor (src : Nat) (linkOne : Bool) (d : List Byte) (snap : Option (List Byte)) (s : State) : State :=
  if s.fld (F.CAR_SRC_LIMIT_MAXSLOT src) = 0 then recordSend src d (busyRecord src d s) s
  else
    match nextSlot s with
    | none => s
    | some k =>
      let j : Job := { src := src, state := 1, desc := d, order := s.car.seq }
      let s := { s with car := { s.car with
        seq := s.car.seq + 1, gens := Sparse.put (fun _ => 0) s.car.gens k ((slotGen s k + 1) % 256) } }
      let s := setJob s k (some j)
      match descCheck src linkOne d s with
      | some (st, dt) => jobEnd k st dt s
      | none =>
        match snap with
        | some b => setJob s k (some { j with blocks := blocksFor (descLen d), snap := b })
        | none =>
          if (stageWaiting (setJob s k none)).isNone && decide (blocksFor (descLen d) ≤ stageFree s) then stageGrant k s
          else flagEvent F.CAR_ERR_STAGE_WAIT 75 s

/-- The descriptor at the HEAD of a job ring is read: 128 bytes of host memory (R429, R431). (Assumption 48, DESIGN CHOICE.) -/
def descRead (j : Nat) (s : State) : State :=
  { s with car := { s.car with reading := some j } }.emit (.hostRead (entryAddr j 128 (s.word (R.HOST_RING_HEAD j)) s) 128)

/-- A job of a source waits with its record for room in the result ring (R433). -/
def recordWaits (j : Nat) (s : State) : Bool := (jobList s).any (fun e => e.2.src == j && e.2.record.isSome && !e.2.silent)

/-- Whether a descriptor that was read can be taken: a FREE slot, or with MAXSLOT 0 no record before its own (R205, R216, R433). -/
def descTakes (j : Nat) (s : State) : Bool :=
  if s.fld (F.CAR_SRC_LIMIT_MAXSLOT j) = 0 then !recordWaits j s && recordRoom j (List.replicate 64 0) s else (nextSlot s).isSome

/-- The read of a descriptor completes: it is taken and HEAD advances, also where its ring has been disabled meanwhile (R431); one that
cannot be taken stays in the ring. (Assumption 48, DESIGN CHOICE.) -/
def execDescriptorTake (j : Fin 32) (desc : List Byte) (s : State) : Host.Outcome State Fault Refusal :=
  let d := desc.take 128 ++ List.replicate (128 - desc.length) 0
  .next (if s.car.reading != some j.val || s.host.d3hot then s
    else
      let s := { s with car := { s.car with reading := none } }
      if !descTakes j.val s then s
      else
        let t := takeDescriptor j.val false d none s
        if ringOn j.val s then jobRingAdvance j.val t else t)

/-! Staging (R206 to R208, R213 checks 7 to 9). -/

/-- The band of a chain in Hz (R68). -/
def bandHz (x : Nat) : Nat × Nat :=
  match x with
  | 0 => (1559000000, 1610000000)
  | 1 => (1164000000, 1218000000)
  | 2 => (1215000000, 1256000000)
  | _ => (1256000000, 1300000000)

/-- Check 8: the snapshot header (R206 to R208, R214). -/
def snapCheck (d b : List Byte) : Option Nat :=
  let fmt := leAt b 3 1
  let crc := fmt.testBit 3
  let n := leAt b 12 4
  let band := leAt b 2 1 % 4
  let c := leAt b 8 4
  if leAt b 2 1 / 4 ≠ 0 ∨ fmt / 16 ≠ 0 ∨ leAt b 20 12 ≠ 0 ∨ (!crc && leAt b 16 4 != 0) ∨ fmt % 4 = 3 then some 0x21
  else if c < (bandHz band).1 ∨ (bandHz band).2 < c then some 0x22
  else if n = 0 ∨ 65536 < n then some 0x23
  else if descLen d ≠ 32 + (n * 2 * snapBits b + 7) / 8 ∨ b.length ≠ descLen d then some 0x24
  else if crc && (crc32 (b.drop 32)).toNat != leAt b 16 4 then some 0x25
  else if (maskSigs (descMask d)).any (fun g => match sigOf g with | some q => q.chain != band | none => true) then some 0x26
  else none

/-- The VALID profile of exactly a rate (check 9, R236). -/
def profileFor (rate : Nat) (s : State) : Option Nat :=
  [0, 1, 2].find? (fun p => s.bit (F.CAR_PROF_CFG_VALID p) && s.fld (F.CAR_PROF_RATE_RATE_HZ p) == rate)

/-- A fetch completes: the block, or none for a DMA fault (R213, R214); the job's own failure goes before its deadline, which is
compared on entry to QUEUED (R223, R225). -/
def execSnapshotStaged (slot : BitVec 14) (block : Option (List Byte)) (s : State) : Host.Outcome State Fault Refusal :=
  let k := slot.toNat
  .next (match jobAt s k with
    | none => s
    | some j =>
      if j.state ≠ 1 ∨ j.blocks = 0 then s
      else
        match j.ending with
        | some (st, dt) => jobEnd k st dt s
        | none =>
          match (if j.src < 32 then block else some j.snap) with
          | none => jobEnd k ST.abort 0x30 s
          | some b =>
            let s := setJob s k (some { j with snap := b })
            if leAt b 1 1 ≠ 2 then jobEnd k ST.version 0x02 s
            else
              match snapCheck j.desc b with
              | some dt => jobEnd k ST.format dt s
              | none =>
                match profileFor (leAt b 4 4) s with
                | none => jobEnd k 0x20 0 s
                | some p => jobQueued k (modJob k (fun j => { j with prof := some p }) s))

/-! Reports, deadlines and cancels (R222 to R225). -/

/-- A record of the same result ring was decided before a job's and waits (R433). -/
def recordHeld (j : Job) (s : State) : Bool :=
  decide (j.src < 32) && (jobList s).any (fun e => e.2.src == j.src && e.2.record.isSome && !e.2.silent && decide (e.2.order < j.order))

/-- A job in REPORT writes its record once its destination has room and no earlier one waits (R222, R433); a Tightrope job that ended with ST_DEADLINE, or
that its parent cancelled, sends none (R456, R457). -/
def recordWrite (k : Nat) (s : State) : State :=
  match jobAt s k with
  | none => s
  | some j =>
    match j.record with
    | none => s
    | some r =>
      if j.state ≠ 6 then s
      else if j.silent ∨ (32 ≤ j.src ∧ j.status = ST.deadline) then jobFree k false s
      else if recordHeld j s then s
      else if recordRoom j.src r s then jobFree k true (recordSend j.src j.desc r s)
      else flagEvent F.CAR_ERR_STALL 76 s

def execResultRecordWrite (slot : BitVec 14) (s : State) : Host.Outcome State Fault Refusal :=
  .next (recordWrite slot.toNat s)

/-- A deadline comparison of an undecided job, or of one that a power state ended in this FS tick (R225); one whose end is decided and
waits for its boundary ends so (R223, R224). (Assumption 76, DEDUCED.) -/
def execJobDeadline (slot : BitVec 14) (s : State) : Host.Outcome State Fault Refusal :=
  let k := slot.toNat
  .next (match jobAt s k with
    | none => s
    | some j =>
      if !mayDecide j ST.deadline 0x41 s ∨ j.ending.isSome ∨ !deadlinePassed j.desc s then s
      else jobEnd k ST.deadline (if (if j.state = 6 then j.was else j.state) = 7 then 0x42 else 0x41) s)

/-- A cancel of one job; a FORWARDED one is cancelled onward (R224, R456). -/
def jobCancel (k : Nat) (s : State) : State :=
  match jobAt s k with
  | none => s
  | some j =>
    let s := if j.state = 7 then
        linkSendRel j.port 0x12 (leBytes 4 (slotGen s k * 2 ^ 14 + k) ++ List.replicate 4 0) s
      else s
    jobAbort k ST.abort 0x31 s

/-- A write of CAR_CANCEL_CTRL with GO (R224). -/
def opCarCancel (who : Reader) (v : Word) (s : State) : State :=
  let s := plainWrite who R.CAR_CANCEL_CTRL v s
  let src := v.toNat % 64
  if !v.toNat.testBit 31 || decide (33 < src) then s
  else
    let tag := s.fld F.CAR_CANCEL_TAG_HI_TAG_HI * 2 ^ 32 + s.fld F.CAR_CANCEL_TAG_LO_TAG_LO
    let hit := (jobList s).filter (fun e => e.2.src == src && mayDecide e.2 ST.abort 0x31 s && (v.toNat.testBit 30 || leAt e.2.desc 8 8 == tag))
    (hit.foldl (fun s e => jobCancel e.1 s) s).setFld F.CAR_CANCEL_CTRL_COUNT (satNat 0x3FFF hit.length)

def execCarCancel (who : Reader) (v : Word) (s : State) : Host.Outcome State Fault Refusal :=
  .next (gate who R.CAR_CANCEL_CTRL true (opCarCancel who v) s)

/-- Entry to BURST ends every undecided job; one whose end was decided ends so (R224, R231). -/
def carBurst (s : State) : State :=
  (jobList s).foldl (fun s e => let r := e.2.ending.getD (ST.abort, 0x32); jobEnd e.1 r.1 r.2 s) s

/-- The words that show a slot to a reader (R216): state, source, GEN and blocks; the tag. -/
def slotInfo (k : Nat) (s : State) : Word × Word :=
  match jobAt s k with
  | some j => (BitVec.ofNat 32 (j.state * 2 ^ 28 + j.src * 2 ^ 22 + slotGen s k * 2 ^ 14 + j.blocks), BitVec.ofNat 32 (leAt j.desc 8 4))
  | none => (BitVec.ofNat 32 (slotGen s k * 2 ^ 14), 0)

end Sys2Proof.Machine
end

