-- ==== Sys2Proof/Machine/NavDecode.lean ====
section
/-! DEFINITION. The navigation formats (R173) and their decoders (R174 to R177): interleavers, Viterbi, BCH, CRC-24Q and word
checks. R173 leaves codes, patterns, interleavers and field positions to each system's published interface specification;
they are written here as those state them. (Assumption 151, PRESUMED.) -/
namespace Sys2Proof.Machine

/-! Formats. -/

/-- How a format's frames are found (R173): by FSTART; by a pattern of `n` symbols at places of the unit; by a pattern of
decoded bits at the unit's start, one of a list in turn. -/
inductive NavSync where
  | mark
  | symbols (pat n : Nat) (places : List Nat)
  | decoded (pats : List Nat)
deriving DecidableEq, Repr

/-- A navigation format (R173): its number, symbols per second, symbols of a unit (of a frame, where one frame carries
two units), its synchronisation, and whether words are checked one by one. -/
structure NavFmt where
  fmt : Nat
  rate : Nat
  unit : Nat
  sync : NavSync
  words : Bool
deriving DecidableEq, Repr

/-- The navigation format of a signal of a satellite; none for pilots and for signals that are not decoded (R173).
(Assumption 151, PRESUMED.) -/
def navFmt (code sat : Nat) : Option NavFmt :=
  let cnav := NavSync.decoded [0x8B]
  let beidou : NavFmt := if bdsGeo sat then ⟨7, 500, 300, .symbols 0x712 11 [0], true⟩ else ⟨6, 50, 300, .symbols 0x712 11 [0], true⟩
  let inav : NavFmt := ⟨4, 250, 500, .symbols 0x160 10 [0, 250], false⟩
  let glo : NavFmt := ⟨10, 100, 200, .symbols 0x3E375096 30 [170], false⟩
  match code with
  | 0x00 => some ⟨1, 50, 300, .symbols 0x8B 8 [0], true⟩
  | 0x1A => some ⟨1, 50, 300, .symbols 0x8B 8 [0], true⟩
  | 0x01 => some ⟨3, 100, 1800, .mark, false⟩
  | 0x1B => some ⟨3, 100, 1800, .mark, false⟩
  | 0x03 => some ⟨2, 50, 600, cnav, false⟩
  | 0x1D => some ⟨2, 50, 600, cnav, false⟩
  | 0x05 => some ⟨2, 100, 600, cnav, false⟩
  | 0x1F => some ⟨2, 100, 600, cnav, false⟩
  | 0x08 => some inav
  | 0x0C => some inav
  | 0x0A => some ⟨5, 50, 500, .symbols 0xB70 12 [0], false⟩
  | 0x11 => some beidou
  | 0x17 => some beidou
  | 0x12 => some ⟨8, 100, 1800, .mark, false⟩
  | 0x14 => some ⟨9, 200, 600, .symbols 0xE24DE8 24 [0], false⟩
  | 0x18 => some glo
  | 0x19 => some glo
  | 0x22 => some ⟨11, 50, 600, .symbols 0xEB90 16 [0], false⟩
  | 0x23 => some ⟨12, 500, 500, .decoded [0x53, 0x9A, 0xC6], false⟩
  | _ => none

/-- Symbols from a pattern's first one to the one that decides it; an FSTART is one symbol. -/
def NavFmt.patLen (f : NavFmt) : Nat := match f.sync with | .mark => 1 | .symbols _ n _ => n | .decoded _ => 64

/-- The places of the patterns that a unit of a format holds. -/
def NavFmt.places (f : NavFmt) : List Nat := match f.sync with | .mark => [] | .symbols _ _ ps => ps | .decoded _ => [0]

/-- How many patterns a format takes in turn. -/
def NavFmt.turns (f : NavFmt) : Nat := match f.sync with | .decoded ps => ps.length | _ => 1

/-- Symbols after a unit's last one that its decoding waits for: 48 for the continuous convolutional codes (R184). -/
def NavFmt.tail (f : NavFmt) : Nat := match f.sync with | .decoded _ => 48 | _ => 0

/-! Bits and symbols. -/

/-- The number a list of bits spells, first bit highest. -/
def bitsNat (bs : List Bool) : Nat := bs.foldl (fun a b => 2 * a + b.toNat) 0

/-- Bits `i` to `i + n − 1` of a unit as a number. -/
def fieldOf (bs : List Bool) (i n : Nat) : Nat := bitsNat ((bs.drop i).take n)

/-- Bits packed into bytes, the first bit at bit 7 of byte 0, the last byte filled with zeros (R174). -/
def packBits (bs : List Bool) : List Byte :=
  (List.range ((bs.length + 7) / 8)).map (fun i =>
    BitVec.ofNat 8 (bitsNat ((List.range 8).map (fun j => bs.getD (8 * i + j) false))))

/-- The soft values in the polarity's sense: positive stands for a logical 0 (R177). -/
def inPolarity (pol : Bool) (xs : List Int) : List Int := if pol then xs.map (fun x => -x) else xs

/-- Hard decisions: negative stands for 1; an erasure reads as 0. -/
def hardOf (xs : List Int) : List Bool := xs.map (fun x => decide (x < 0))

/-- Whether the symbols at `i` are a pattern in a polarity, none of them erased (R177, R178). -/
def patternAt (pat n : Nat) (pol : Bool) (xs : List Int) (i : Nat) : Bool :=
  let w := (xs.drop i).take n
  decide (w.length = n) && w.all (· != 0) && decide (bitsNat (hardOf (inPolarity pol w)) = pat)

/-- Undoing a block interleaver that was filled by columns of `rows` symbols and sent by its rows of `cols`. (Assumption 151, PRESUMED.) -/
def deinterleave (rows cols : Nat) (xs : List Int) : List Int :=
  (List.range (rows * cols)).map (fun i => xs.getD (i % rows * cols + i / rows) 0)

/-! The convolutional code (R175). -/

/-- The parity of a number's low 7 bits. -/
def parity7 (v : Nat) : Bool := (List.range 7).foldl (fun a i => a != v.testBit i) false

/-- The two code symbols of a register of 7 bits, newest highest: generators 171 and 133 octal (R175). -/
def convOut (reg : Nat) : Bool × Bool := (parity7 (reg &&& 0o171), parity7 (reg &&& 0o133))

/-- A survivor of the Viterbi decoder: its metric, the state it began in, its bits newest first. -/
structure Survivor where
  metric : Int
  start : Nat
  bits : List Bool

/-- The metric a soft value gives a code symbol. -/
def softMetric (b : Bool) (x : Int) : Int := if b then -x else x

/-- One step of the Viterbi decoder over a pair of soft values; of two equal metrics the one whose oldest bit is 0 stays.
(Assumption 152, DESIGN CHOICE.) -/
def viterbiStep (ss : List Survivor) (p : Int × Int) : List Survivor :=
  (List.range 64).map (fun ns =>
    let from_ (e : Nat) : Survivor :=
      let reg := 2 * ns + e
      let o := convOut reg
      match ss[reg % 64]? with
      | some v => ⟨v.metric + softMetric o.1 p.1 + softMetric o.2 p.2, v.start, decide (32 ≤ ns) :: v.bits⟩
      | none => ⟨0, 0, []⟩
    if (from_ 0).metric < (from_ 1).metric then from_ 1 else from_ 0)

/-- The soft values as pairs of one bit. -/
def softPairs : List Int → List (Int × Int)
  | a :: b :: r => (a, b) :: softPairs r
  | _ => []

/-- The best of the survivors, the first of equals. -/
def bestSurvivor (ss : List Survivor) : Survivor :=
  ss.foldl (fun a v => if a.metric < v.metric then v else a) (ss.headD ⟨0, 0, []⟩)

/-- The code symbols of bits, from a state of the encoder. -/
def convEncode : Nat → List Bool → List Bool
  | _, [] => []
  | st, b :: r =>
    let reg := 64 * b.toNat + st
    let o := convOut reg
    o.1 :: o.2 :: convEncode (reg / 2) r

/-- The symbols of the first `n` that differ from the re-encoded ones; erasures do not count (R183). -/
def correctedIn (n : Nat) (xs : List Int) (code : List Bool) : Nat :=
  (((xs.take n).zip code).filter (fun q => q.1 != 0 && (decide (q.1 < 0) != q.2))).length

/-- Viterbi decoding (R175): a block that begins and ends in state 0 (`tail`), or a stretch of a continuous stream whose
states at both ends are not known. The bits, and their re-encoding. (Assumption 152, DESIGN CHOICE.) -/
def viterbi (tail : Bool) (xs : List Int) : List Bool × List Bool :=
  let init := (List.range 64).map (fun st => Survivor.mk (if tail && decide (st ≠ 0) then -1000000 else 0) st [])
  let ss := (softPairs xs).foldl viterbiStep init
  let v := if tail then ss.headD ⟨0, 0, []⟩ else bestSurvivor ss
  let bits := v.bits.reverse
  (bits, convEncode v.start bits)

/-- Every second symbol inverted: the second generator of the Galileo code. (Assumption 151, PRESUMED.) -/
def invertSecond : List Int → List Int
  | a :: b :: r => a :: (-b) :: invertSecond r
  | xs => xs

/-! Checks (R176). -/

/-- One bit into CRC-24Q. -/
def crc24Bit (c : Nat) (b : Bool) : Nat :=
  let v := 2 * c + b.toNat
  if 2 ^ 24 ≤ v then v ^^^ 0x1864CFB else v

/-- CRC-24Q holds: the remainder of the bits, CRC included, is 0 (R176). -/
def crc24Ok (bs : List Bool) : Bool := decide (bs.foldl crc24Bit 0 = 0)

/-- The data bits each LNAV parity bit covers, 1 to 24, and whether it starts from D29 of the previous word (else D30). (Assumption 151, PRESUMED.) -/
def lnavTaps : List (Bool × List Nat) :=
  [(true, [1, 2, 3, 5, 6, 10, 11, 12, 13, 14, 17, 18, 20, 23]), (false, [2, 3, 4, 6, 7, 11, 12, 13, 14, 15, 18, 19, 21, 24]),
   (true, [1, 3, 4, 5, 7, 8, 12, 13, 14, 15, 16, 19, 20, 22]), (false, [2, 4, 5, 6, 8, 9, 13, 14, 15, 16, 17, 20, 21, 23]),
   (false, [1, 3, 5, 6, 7, 9, 10, 14, 15, 16, 17, 18, 21, 22, 24]), (true, [3, 5, 6, 8, 9, 10, 11, 13, 15, 19, 22, 23, 24])]

/-- An LNAV word after the two bits D29, D30 before it: its data bits restored with the parity bits as received, and
whether its parity holds (R174, R176). -/
def lnavWord (d29 d30 : Bool) (w : List Bool) : List Bool × Bool :=
  let data := (w.take 24).map (· != d30)
  let par := lnavTaps.map (fun t => t.2.foldl (fun a i => a != data.getD (i - 1) false) (if t.1 then d29 else d30))
  (data ++ w.drop 24, decide (par = w.drop 24))

/-- Words of 30 bits decoded one after another, each knowing the two bits before it. -/
def lnavWords : Nat → Bool → Bool → List Bool → List (List Bool × Bool)
  | 0, _, _, _ => []
  | n + 1, d29, d30, bs =>
    let w := bs.take 30
    lnavWord d29 d30 w :: lnavWords n (w.getD 28 false) (w.getD 29 false) (bs.drop 30)

/-- The remainder of 15 bits by x⁴ + x + 1. -/
def bch15Rem (bs : List Bool) : Nat :=
  bs.foldl (fun c b => let v := 2 * c + b.toNat; if 16 ≤ v then v ^^^ 0b10011 else v) 0

/-- A BCH(15,11) block with its one error corrected, and whether it came without an error. (Assumption 152, DESIGN CHOICE.) -/
def bch15 (bs : List Bool) : List Bool × Bool :=
  let r := bch15Rem bs
  let flip (i : Nat) : List Bool := (bs.take i) ++ (match bs.drop i with | b :: t => (!b) :: t | [] => [])
  if r = 0 then (bs, true)
  else (((List.range 15).map flip).findSome? (fun c => if bch15Rem c = 0 then some c else none) |>.getD bs, false)

/-- A BeiDou word of 30 bits (R173): the first has 15 bits without a code and one block of 15; every other is two blocks
sent bit by bit in turn. Its bits in order, information before parity, and whether it is without an error. (Assumption 151, PRESUMED.) -/
def beidouWord (i : Nat) (w : List Bool) : List Bool × Bool :=
  if i = 0 then
    let b := bch15 (w.drop 15)
    (w.take 15 ++ b.1, b.2)
  else
    let every (o : Nat) : List Bool := (List.range 15).map (fun j => w.getD (2 * j + o) false)
    let a := bch15 (every 0)
    let b := bch15 (every 1)
    (a.1.take 11 ++ b.1.take 11 ++ a.1.drop 11 ++ b.1.drop 11, a.2 && b.2)

/-- The positions of the 77 data bits of a GLONASS string in its Hamming code: the numbers that are no power of two. -/
def gloPlaces : List Nat := ((List.range 85).drop 3).filter (fun h => decide (h ≠ 2 ^ Nat.log2 h))

/-- The Hamming check of a GLONASS string of 85 bits, bit 85 first: the seven check bits and the sum of all (R173, R176). (Assumption 151, PRESUMED; assumption 152, DESIGN CHOICE.) -/
def gloOk (bs : List Bool) : Bool :=
  let bit (i : Nat) : Bool := bs.getD (85 - i) false
  let data := (List.range 77).map (fun i => bit (i + 9))
  let sums := (List.range 7).map (fun c =>
    ((data.zip gloPlaces).filter (fun p => p.2.testBit c)).foldl (fun a p => a != p.1) (bit (c + 1)))
  sums.all (· == false) && !(bs.foldl (· != ·) false)

/-! One unit decoded. -/

/-- What decoding a unit gives: its payload bits, the results of its checks in WMASK's order, QUAL (R183), where its time field is
valid the time of its end in tenths of a second of its system's scale (R180), and whether an erasure reached its decoders (R176). -/
structure NavOut where
  bits : List Bool
  checks : List Bool
  qual : Nat
  time : Option Nat
  eras : Bool

/-- Whether an erasure is among symbols. -/
def erased (xs : List Int) : Bool := xs.any (· == 0)

/-- All checks of a unit pass (R176). -/
def NavOut.pass (o : NavOut) : Bool := o.checks.all id

/-- The verdict of a unit (R176). -/
def NavOut.verdict (f : NavFmt) (o : NavOut) : Nat :=
  if o.pass then 0 else if f.words && o.checks.any id then 2 else 1

/-- The checks as a mask, the first at bit 0 (R176). -/
def NavOut.wmask (o : NavOut) : Nat := bitsNat o.checks.reverse

/-- A time of the week in seconds, as tenths, where it lies in the week. (Assumption 69, DEDUCED.) -/
def weekTime (sec : Nat) : Option Nat := if sec < 604800 then some (10 * sec) else none

/-- LNAV: ten words; HOW gives the start of the next subframe in units of 6 s. -/
def decodeLnav (prev xs : List Int) : NavOut :=
  let ws := lnavWords 10 (decide (prev.getD 0 0 < 0)) (decide (prev.getD 1 0 < 0)) (hardOf xs)
  let bits := ws.flatMap (·.1)
  ⟨bits, ws.map (·.2), 0, weekTime (6 * fieldOf bits 30 17), erased xs⟩

/-- D1 and D2: ten words; SOW is the start of a D1 subframe, and of subframe 1 of a D2 frame of 0.6 s subframes. -/
def decodeBeidou (d2 : Bool) (xs : List Int) : NavOut :=
  let h := hardOf xs
  let ws := (List.range 10).map (fun i => beidouWord i ((h.drop (30 * i)).take 30))
  let bits := ws.flatMap (·.1)
  let sow := 4096 * fieldOf bits 18 8 + fieldOf bits 30 12
  let time := (weekTime sow).map (fun t => t + (if d2 then 6 * fieldOf bits 15 3 else 60))
  ⟨bits, ws.map (·.2), 0, time, erased xs⟩

/-- CNAV: 300 bits of a continuous stream; the message's TOW is the start of the next, in units of 6 s. -/
def decodeCnav (xs : List Int) : NavOut :=
  let v := viterbi false xs
  let bits := v.1.take 300
  ⟨bits, [crc24Ok bits], correctedIn 600 xs v.2, weekTime (6 * fieldOf bits 20 17), erased xs⟩

/-- SBAS: 250 bits of a continuous stream, without a time field. -/
def decodeSbas (xs : List Int) : NavOut :=
  let v := viterbi false xs
  let bits := v.1.take 250
  ⟨bits, [crc24Ok bits], correctedIn 500 xs v.2, none, erased xs⟩

/-- A block of Galileo or NavIC symbols: deinterleaved, decoded with its 6 tail bits removed. -/
def tailBlock (invert : Bool) (rows cols : Nat) (xs : List Int) : List Bool × Nat :=
  let ys := deinterleave rows cols xs
  let zs := if invert then invertSecond ys else ys
  let v := viterbi true zs
  (v.1.take (v.1.length - 6), correctedIn zs.length zs v.2)

/-- INAV: the even and the odd part of a nominal page; the CRC covers the even part and the odd part to its reserved
field; word types 0, 5 and 6 hold the page's start. (Assumption 152, DESIGN CHOICE.) -/
def decodeInav (xs : List Int) : NavOut :=
  let a := tailBlock true 8 30 ((xs.drop 10).take 240)
  let b := tailBlock true 8 30 ((xs.drop 260).take 240)
  let bits := a.1 ++ b.1
  let word := (a.1.drop 2).take 112 ++ (b.1.drop 2).take 16
  let nominal := fieldOf bits 0 2 == 0 && fieldOf bits 114 2 == 2
  let tow := match fieldOf word 0 6 with
    | 0 => if fieldOf word 6 2 = 2 then some (fieldOf word 108 20) else none
    | 5 => some (fieldOf word 85 20)
    | 6 => some (fieldOf word 105 20)
    | _ => none
  ⟨bits, [nominal && crc24Ok (bits.take 220)], a.2 + b.2, (tow.bind weekTime).map (· + 20),
    erased ((xs.drop 10).take 240 ++ (xs.drop 260).take 240)⟩

/-- FNAV: pages 1 to 4 hold the page's start; a page lasts 10 s. -/
def decodeFnav (xs : List Int) : NavOut :=
  let a := tailBlock true 8 61 (xs.drop 12)
  let bits := a.1
  let tow := match fieldOf bits 0 6 with
    | 1 => some (fieldOf bits 167 20)
    | 2 => some (fieldOf bits 194 20)
    | 3 => some (fieldOf bits 186 20)
    | 4 => some (fieldOf bits 189 20)
    | _ => none
  ⟨bits, [crc24Ok bits], a.2, (tow.bind weekTime).map (· + 100), erased (xs.drop 12)⟩

/-- NavIC: TOWC is the start of the next subframe, in units of 12 s. -/
def decodeNavic (xs : List Int) : NavOut :=
  let a := tailBlock false 8 73 (xs.drop 16)
  ⟨a.1, [crc24Ok a.1], a.2, weekTime (12 * fieldOf a.1 8 17), erased (xs.drop 16)⟩

/-- GLONASS: the meander joined, the relative code undone, the time mark dropped (R174); string 1 holds the frame's start. -/
def decodeGlo (xs : List Int) : NavOut :=
  let rel := (List.range 85).map (fun j => decide (xs.getD (2 * j) 0 - xs.getD (2 * j + 1) 0 < 0))
  let bits := rel.zipWith (· != ·) (false :: rel)
  let tk := 3600 * fieldOf bits 9 5 + 60 * fieldOf bits 14 6 + 30 * fieldOf bits 20 1
  ⟨bits, [gloOk bits], 0, if fieldOf bits 1 4 = 1 ∧ tk < 86400 then some (10 * (tk + 2)) else none,
    erased (xs.take 170)⟩

/-- The decisions of an LDPC block after some iterations: with none, those of the symbols themselves. (Assumption 153, DESIGN
CHOICE.) -/
def ldpcBits (fmt part : Nat) (xs : List Int) (it : Nat) : List Bool :=
  if it = 0 then hardOf xs else (List.range xs.length).map (fun i => Config.ldpcBit fmt part it xs i)

/-- An LDPC block (R175): belief propagation of up to `iter` iterations that stops at a valid codeword, its systematic bits and the
iterations it used; with 0 iterations the hard decisions of the systematic half. (Assumption 153, DESIGN CHOICE.) -/
def ldpcBlock (fmt part iter : Nat) (xs : List Int) : List Bool × Nat :=
  let used := ((List.range iter).find? (fun it => Config.ldpcValid fmt part (ldpcBits fmt part xs it))).getD iter
  ((ldpcBits fmt part xs used).take (xs.length / 2), used)

/-- BCNAV2: 288 bits; SOW, in units of 3 s, is the frame's start. -/
def decodeBcnav2 (iter : Nat) (xs : List Int) : NavOut :=
  let a := ldpcBlock 9 0 iter (xs.drop 24)
  ⟨a.1, [crc24Ok a.1], a.2, (weekTime (3 * fieldOf a.1 12 18)).map (· + 30), erased (xs.drop 24)⟩

/-- In how many places two words differ. -/
def hamming (a b : List Bool) : Nat := ((a.zip b).filter (fun p => p.1 != p.2)).length

/-- A codeword of a BCH code of `n` symbols. -/
def bchWord (code n v : Nat) : List Bool := (List.range n).map (fun i => Config.bchSymbol code v i)

/-- How many errors a BCH code of 2^k words of `n` symbols corrects: half of what is less than its least distance (R175). (Assumption 153, DESIGN CHOICE.) -/
def bchCap (code n k : Nat) : Nat :=
  let ds := (List.range (2 ^ k)).flatMap (fun v => (List.range v).map (fun w => hamming (bchWord code n v) (bchWord code n w)))
  (ds.foldl min n - 1) / 2

/-- Hard-decision BCH decoding (R175): the value whose word lies within the code's capability, and whether there is one; else the
first `k` symbols as they are. (Assumption 153, DESIGN CHOICE.) -/
def bchDecode (code n k : Nat) (hard : List Bool) : List Bool × Bool :=
  match (List.range (2 ^ k)).find? (fun v => decide (hamming (bchWord code n v) hard ≤ bchCap code n k)) with
  | some v => ((List.range k).map (fun i => v.testBit (k - 1 - i)), true)
  | none => (hard.take k, false)

/-- Subframe 1: of a CNAV2 frame one code of 9 bits in 52 symbols, of a BCNAV1 frame one of 6 bits in 21 symbols and one of 8 bits
in 51: its bits and whether it decodes (R173, R175). (Assumption 153, DESIGN CHOICE.) -/
def bchHead (fmt : Nat) (xs : List Int) : List Bool × Bool :=
  let h := hardOf xs
  if fmt = 3 then bchDecode 0 52 9 h
  else
    let a := bchDecode 1 21 6 (h.take 21)
    let b := bchDecode 2 51 8 (h.drop 21)
    (a.1 ++ b.1, a.2 && b.2)

/-- A CNAV2 frame: subframe 1 in 52 symbols, then 38 by 46 interleaved symbols of subframes 2 and 3. TOI and ITOW of
subframe 2 give the start of the next frame. -/
def decodeCnav2 (iter : Nat) (xs : List Int) : List NavOut :=
  let head := bchHead 3 (xs.take 52)
  let ys := deinterleave 46 38 (xs.drop 52)
  let a := ldpcBlock 3 2 iter (ys.take 1200)
  let b := ldpcBlock 3 3 iter (ys.drop 1200)
  [⟨head.1 ++ a.1, [head.2, crc24Ok a.1], a.2, weekTime (7200 * fieldOf a.1 13 8 + 18 * bitsNat head.1),
      erased (xs.take 52 ++ ys.take 1200)⟩,
   ⟨head.1 ++ b.1, [head.2, crc24Ok b.1], b.2, none, erased (xs.take 52 ++ ys.drop 1200)⟩]

/-- A BCNAV1 frame: subframe 1 in 72 symbols, then 36 rows of 48 interleaved symbols, every third row of the first 33
subframe 3's. SOH and HOW of subframe 2 give the frame's start; a frame lasts 18 s. -/
def decodeBcnav1 (iter : Nat) (xs : List Int) : List NavOut :=
  let head := bchHead 8 (xs.take 72)
  let ys := deinterleave 48 36 (xs.drop 72)
  let rows (p : Nat → Bool) : List Int := ((List.range 36).filter p).flatMap (fun r => (ys.drop (48 * r)).take 48)
  let third (r : Nat) : Bool := decide (r % 3 = 2) && decide (r < 33)
  let p := rows (fun r => !third r)
  let q := rows third
  let a := ldpcBlock 8 2 iter p
  let b := ldpcBlock 8 3 iter q
  let time := (weekTime (3600 * fieldOf a.1 13 8 + 18 * fieldOf head.1 6 8)).map (· + 180)
  [⟨head.1 ++ a.1, [head.2, crc24Ok a.1], a.2, time, erased (xs.take 72 ++ p)⟩,
   ⟨head.1 ++ b.1, [head.2, crc24Ok b.1], b.2, none, erased (xs.take 72 ++ q)⟩]

/-- A unit's symbols, and those its decoding waits for, decoded in a polarity: one unit, or the two of a frame (R173 to
R176). `prev` holds the two symbols before the unit. (Assumption 151, PRESUMED.) -/
def navDecode (f : NavFmt) (iter : Nat) (pol : Bool) (prev xs : List Int) : List NavOut :=
  let p := inPolarity pol prev
  let ys := inPolarity pol xs
  match f.fmt with
  | 1 => [decodeLnav p ys]
  | 2 => [decodeCnav ys]
  | 3 => decodeCnav2 iter ys
  | 4 => [decodeInav ys]
  | 5 => [decodeFnav ys]
  | 6 => [decodeBeidou false ys]
  | 7 => [decodeBeidou true ys]
  | 8 => decodeBcnav1 iter ys
  | 9 => [decodeBcnav2 iter ys]
  | 10 => [decodeGlo ys]
  | 11 => [decodeNavic ys]
  | _ => [decodeSbas ys]

/-- The decoded bits of a continuous stream that a pattern of 8 bits is sought in: those of 16 symbols and the 48 after
them. (Assumption 152, DESIGN CHOICE.) -/
def decodedHead (pol : Bool) (xs : List Int) (i : Nat) : Nat :=
  bitsNat ((viterbi false (inPolarity pol ((xs.drop i).take 64))).1.take 8)

/-- The pattern of the format's unit that begins at symbol `i`, in a polarity; for decoded patterns one of those in
`among`, with its place in the turn (R177, R178). -/
def unitPattern (f : NavFmt) (among : List Nat) (pol : Bool) (xs : List Int) (i : Nat) : Option Nat :=
  match f.sync with
  | .mark => none
  | .symbols pat n _ => if patternAt pat n pol xs i then some 0 else none
  | .decoded pats =>
    let w := (xs.drop i).take 64
    if decide (w.length = 64) && (w.take 16).all (· != 0) then
      among.find? (fun t => pats.getD t 0x100 == decodedHead pol xs i)
    else none

end Sys2Proof.Machine
end

