-- ==== Sys2Proof/Machine/Navigation.lean ====
section
/-! DEFINITION. The navigation data path (chapter 06): symbol ports, synchronisation, transmit time and the staging ring. -/
namespace Sys2Proof.Machine

/-- A channel's decoder. -/
def navCh (s : State) (k : Nat) : NavCh := Sparse.get (fun _ => {}) s.nav k

/-- A channel's decoder replaced. -/
def setNavCh (s : State) (k : Nat) (c : NavCh) : State := { s with nav := Sparse.put (fun _ => {}) s.nav k c }

/-- A ring's symbol FIFO. -/
def navQueue (s : State) (n : Nat) : List (Word × Nat × Nat) := Sparse.get (fun _ => []) s.navFifo n

/-- A ring's symbol FIFO replaced; LEVEL follows. -/
def setNavQueue (s : State) (n : Nat) (q : List (Word × Nat × Nat)) : State :=
  { s with navFifo := Sparse.put (fun _ => []) s.navFifo n q }.setFld (F.NAV_RING_STAT_LEVEL n) q.length

/-- The navigation format that a channel's control word selects. -/
def ctrlFmt (k : Nat) (s : State) : Option NavFmt := navFmt (s.fld (F.TRK_CH_CTRL_SIG k)) (s.fld (F.TRK_CH_CTRL_SAT k))

/-- The navigation format of the start a channel's decoder belongs to (R172). -/
def chFmt (k : Nat) (s : State) : Option NavFmt := navFmt (navCh s k).sig (navCh s k).sat

/-- A tracking start takes over the decoder (R172): SEARCH, no polarity, no time, symbol count 0, no partial unit. (Assumption 68, DEDUCED.) -/
def navRestart (k : Nat) (s : State) : State :=
  let s := setNavCh s k { tag := (navCh s k).tag + 1, sig := s.fld (F.TRK_CH_CTRL_SIG k), sat := s.fld (F.TRK_CH_CTRL_SAT k) }
  let fmt := match chFmt k s with | some f => f.fmt | none => 0
  let s := (((s.setFld (F.NAV_CH_STAT_SYNC k) 0).setFld (F.NAV_CH_STAT_POL_VALID k) 0).setFld
    (F.NAV_CH_STAT_TIME k) 0).setFld (F.NAV_CH_STAT_UNITS k) 0
  (s.setFld (F.NAV_CH_STAT_FMT k) fmt).setFld (F.NAV_CH_SYMIDX_SYMIDX k) 0

/-- Whether a symbol word is refused (R169, R170): channel not in RUN, a pilot, no format, a reserved bit. -/
def symbolRefused (k : Nat) (v : Word) (s : State) : Bool :=
  s.fld (F.TRK_CH_STATUS_STATE k) != 2 || (ctrlFmt k s).isNone || bitsOf v.toNat 26 24 != 0 || bitsOf v.toNat 9 8 != 0

/-- A write to a symbol port (R169 to R171). An accepted word is queued with its start's tag and the erasures that words
dropped before it owe. -/
def opSymbolWrite (n : Nat) (v : Word) (s : State) : State :=
  let k := 32 * n + bitsOf v.toNat 31 27
  if symbolRefused k v s then s.setFld (F.NAV_CH_STAT_REJ k) 1
  else
    let q := navQueue s n
    if 64 ≤ q.length then
      setNavCh (s.setFld (F.NAV_RING_STAT_OVF n) 1) k { navCh s k with owed := (navCh s k).owed + 1 }
    else setNavQueue (setNavCh s k { navCh s k with owed := 0 }) n (q ++ [(v, (navCh s k).tag, (navCh s k).owed)])

def execSymbolWrite (who : Reader) (n : Fin 10) (v : Word) (s : State) : Host.Outcome State Fault Refusal :=
  .next (gate who (R.NAV_RING_SYM n) true (opSymbolWrite n v) s)

/-- Leaving SYNC other than by a restart: POL_VALID and TIME clear, SYNC_LOST, EV_061 (R178). -/
def navLeaveSync (k : Nat) (s : State) : State :=
  let was := s.fld (F.NAV_CH_STAT_SYNC k)
  let s := setNavCh s k { navCh s k with fails := 0, anchor := none }
  let s := (s.setFld (F.NAV_CH_STAT_SYNC k) 0).setFld (F.NAV_CH_STAT_TIME k) 0
  if was = 2 then raise 61 ((s.setFld (F.NAV_CH_STAT_POL_VALID k) 0).setFld (F.NAV_CH_STAT_SYNC_LOST k) 1) else s

/-- Symbols appended to a channel's buffer, each counted by SYMIDX (R170, R181). -/
def navAppend (k : Nat) (xs : List NavSym) (s : State) : State :=
  let c := navCh s k
  (setNavCh s k { c with buf := c.buf ++ xs }).setFld (F.NAV_CH_SYMIDX_SYMIDX k) (s.fld (F.NAV_CH_SYMIDX_SYMIDX k) + xs.length)

/-- The soft value of a symbol word: −128 reads as −127, an erasure is 0 (R169). -/
def softOf (v : Word) : Int :=
  if v.getLsbD 15 then 0 else
    let x := toSigned 8 (bitsOf v.toNat 7 0)
    if x = -128 then -127 else x

/-! Transmit time (R180). -/

/-- The current time of a system's own scale, on the GPS epoch (R180). -/
def systemNow (sys : Nat) (s : State) : Nat :=
  match sys with
  | 1 => viewOf 1 s.now80 s
  | 2 => viewOf 2 s.now80 s
  | 3 => add80 (viewOf 3 s.now80 s) (10800 * 2 ^ 32)
  | _ => s.now80

/-- The value congruent to `t` modulo `p` that is nearest to `now`. (Assumption 69, DEDUCED.) -/
def nearest (t p now : Nat) : Nat :=
  let d := ((t : Int) - (now : Int) + (p / 2 : Nat)) % (p : Int) - (p / 2 : Nat)
  add80 now d

/-- The transmit time from a unit's time field in tenths of a second, widened (R180). (Assumption 69, DEDUCED.) -/
def totOfField (sys t : Nat) (s : State) : Nat :=
  let p := if sys = 3 then 86400 * 2 ^ 32 else 604800 * 2 ^ 32
  let v := nearest (t * 2 ^ 32 / 10) p (systemNow sys s)
  if sys = 3 then add80 v (((s.fld F.TB_LEAP_CUR : Int) - 10800) * 2 ^ 32) else v

/-- The transmit time propagated from the anchor (R180). -/
def totCarried (rate : Nat) (a : Nat × Nat) (idx : Nat) : Nat :=
  add80 a.1 (((idx + 2 ^ 32 - a.2) % 2 ^ 32 * 2 ^ 32 / rate : Nat) : Int)

/-- SYMIDX of the symbol at a place of the buffer (R181). -/
def symIdxAt (k p : Nat) (s : State) : Nat :=
  (s.fld (F.NAV_CH_SYMIDX_SYMIDX k) + 2 ^ 32 + p + 1 - (navCh s k).buf.length) % 2 ^ 32

/-- DSEQ of the symbol at a place of the buffer (R181); a free value where that symbol was lost, because no dump is named
for it. (Assumption 136, DESIGN CHOICE.) -/
def symDseqAt (k p : Nat) (s : State) : Byte × State :=
  match ((navCh s k).buf[p]?).bind (·.dseq) with
  | some d => (d, s)
  | none => (BitVec.ofNat 8 s.draw.1, s.draw.2)

/-- The transmit time of a unit that ends at a symbol index, and the channel's anchor after it. (Assumption 69, DEDUCED.) -/
def unitTime (k : Nat) (f : NavFmt) (o : NavOut) (idx : Nat) (s : State) : Option Nat × State :=
  let sys := sigSystem (navCh s k).sig
  match o.time, s.bit F.TB_STATUS_VALID && o.pass with
  | some t, true =>
    let tot := totOfField sys t s
    (some tot, (setNavCh s k { navCh s k with anchor := some (tot, idx) }).setFld (F.NAV_CH_STAT_TIME k) 1)
  | _, _ => ((navCh s k).anchor.map (totCarried f.rate · idx), s)

/-! OSNMA fields (R185). -/

/-- The bytes of 40-bit fields, high byte first, missing ones zero. -/
def osnmaPayload (m : Sparse (Option (BitVec 40))) : List Byte :=
  (List.range 15).flatMap (fun i =>
    let v := ((Sparse.get (fun _ => none) m i).getD 0).toNat
    (List.range 5).map (fun j => BitVec.ofNat 8 (v / 256 ^ (4 - j))))

/-- The pages present as a mask. -/
def osnmaMask (m : Sparse (Option (BitVec 40))) : Nat :=
  ((List.range 15).filter (fun i => (Sparse.get (fun _ => none) m i).isSome)).foldl (fun a i => a + 2 ^ i) 0

/-- The FMT 13 record of the fields collected is queued; a subframe with no page gives none. (Assumption 138, DEDUCED.) -/
def osnmaFlush (k : Nat) (s : State) : State :=
  let c := navCh s k
  let m := osnmaMask c.osn
  let s := setNavCh s k { c with osn := [] }
  if m = 0 then s
  else
    let flags := (if m = 0x7FFF then 0 else 2) + 4 + 8 * s.fld (F.NAV_CH_STAT_POL k)
    { s with navUnits := s.navUnits ++
      [⟨k, c.tag, c.sat, c.sig, 13, flags, 600, m, 0, c.osnLast.2, c.osnLast.1, c.osnEnd * 2 ^ 32, osnmaPayload c.osn⟩] }

/-- The page of its 30 s subframe that an end of a page names; none where no page of R185 ends then. (Assumption 138, DEDUCED.) -/
def osnmaPage (tot : Nat) : Option Nat :=
  let sec := tot / 2 ^ 32
  if tot % 2 ^ 32 ≠ 0 ∨ sec % 2 ≠ 0 then none else some ((sec % 30 + 28) / 2 % 15)

/-- An E1-B page that ends at a known time: the 40 bits after the odd part's first 18 are collected where the page passed;
page 14, or the first page of another subframe, ends the collection. (Assumption 138, DEDUCED.) (Assumption 151, PRESUMED.) -/
def osnmaCollect (k : Nat) (o : NavOut) (tot : Option Nat) (idx : Nat) (dseq : Byte) (s : State) : State :=
  match tot.bind (fun t => (osnmaPage t).map (fun i => (t / 2 ^ 32, i))) with
  | some (sec, i) =>
    if !s.bit F.NAV_CFG_EN_OSNMA || (navCh s k).sig != 0x08 then s
    else
      let e := (sec + 29) / 30 * 30
      let s := if (navCh s k).osnEnd = e then s else osnmaFlush k s
      let c := { navCh s k with osnEnd := e }
      let c := if o.pass then
          { c with osn := Sparse.put (fun _ => none) c.osn i (some (BitVec.ofNat 40 (fieldOf o.bits 132 40))), osnLast := (idx, dseq) }
        else c
      let s := setNavCh s k c
      if i = 14 then osnmaFlush k s else s
  | none => s

/-! Synchronisation (R178, R179). -/

/-- The soft values of a stretch of a channel's buffer. -/
def navSofts (c : NavCh) (i n : Nat) : List Int := ((c.buf.drop i).take n).map (·.x)

/-- What the symbols of the unit in progress decode to in a polarity (R175, R176): over `n` of its symbols, with the two
symbols before it. -/
def navUnits (k : Nat) (f : NavFmt) (n : Nat) (pol : Bool) (s : State) : List NavOut :=
  let c := navCh s k
  navDecode f (s.fld F.NAV_CFG_LDPC_ITER) pol (if 2 ≤ c.start then navSofts c (c.start - 2) 2 else [])
    (navSofts c c.start n)

/-- A polarity shown in STAT. -/
def setPol (k : Nat) (pol : Bool) (s : State) : State := s.setBit (F.NAV_CH_STAT_POL k) pol

/-- A unit is queued for staging with its transmit time, and its verdict counted (R179, R183, R184). -/
def navQueueUnit (k : Nat) (f : NavFmt) (s : State) (o : NavOut) : State :=
  let c := navCh s k
  let p := c.start + f.unit - 1
  let idx := symIdxAt k p s
  let s := setNavCh s k { c with fails := if o.verdict f = 1 ∨ c.miss then c.fails + 1 else 0 }
  let (tot, s) := unitTime k f o idx s
  let (dseq, s) := symDseqAt k p s
  let flags := o.verdict f + (if tot.isSome then 4 else 0) + 8 * s.fld (F.NAV_CH_STAT_POL k) +
    (if o.eras then 16 else 0) + (if c.chg then 32 else 0)
  let s := { s with navUnits := s.navUnits ++
    [⟨k, c.tag, c.sat, c.sig, f.fmt, flags, o.bits.length, o.wmask, satNat 255 o.qual, dseq,
      idx, tot.getD 0, packBits o.bits⟩] }
  osnmaCollect k o tot idx dseq s

/-- The next unit begins after this one; two symbols before it stay for the words that need them (R176). -/
def navConsume (k : Nat) (f : NavFmt) (s : State) : State :=
  let c := navCh s k
  let d := c.start + f.unit - 2
  setNavCh s k { c with buf := c.buf.drop d, seen := c.seen - d, start := 2, matchAt := 2
                        turn := (c.turn + 1) % f.turns, chg := false, miss := false }

/-- CONFIRM fails: SEARCH again from the symbol after the false match, over the symbols buffered (R178). (Assumption 137, DEDUCED.) -/
def navUnconfirmed (k : Nat) (s : State) : State :=
  setNavCh (s.setFld (F.NAV_CH_STAT_SYNC k) 0) k { navCh s k with seen := (navCh s k).matchAt }

/-- CONFIRM passes: SYNC with the polarity resolved (R178). -/
def navSync (k : Nat) (s : State) : State :=
  (s.setFld (F.NAV_CH_STAT_SYNC k) 2).setFld (F.NAV_CH_STAT_POL_VALID k) 1

/-- A match: CONFIRM in its polarity, with the unit's start (R178). -/
def navMatched (k start turn : Nat) (s : State) : State :=
  let c := navCh s k
  setNavCh (s.setFld (F.NAV_CH_STAT_SYNC k) 1) k { c with start := start, matchAt := c.seen, turn := turn, chg := false, miss := false }

/-- SEARCH after one more symbol (R177, R178): FSTART, or the format's pattern in either polarity at the end of what has come.
Old symbols leave the buffer. (Assumption 137, DEDUCED.) -/
def navSearch (k : Nat) (f : NavFmt) (s : State) : State :=
  let c := navCh s k
  let i := c.seen - f.patLen
  let xs := navSofts c 0 c.seen
  let all := List.range f.turns
  let start := if f.places.headD 0 = 0 then i else c.seen
  if f.sync = .mark then
    if ((c.buf[c.seen - 1]?).map (·.mark)).getD false then navMatched k (c.seen - 1) 0 s else s
  else if c.seen < f.patLen then s
  else
    match unitPattern f all false xs i, unitPattern f all true xs i with
    | some t, _ => navMatched k start t (setPol k false s)
    | none, some t => navMatched k start t (setPol k true s)
    | none, none => setNavCh s k { c with buf := c.buf.drop (c.seen - 80), seen := min c.seen 80 }

/-- The units in progress decoded where a format without a pattern lets the check choose the polarity (R177): in the
other polarity where only that passes. Whether it is the other one. (Assumption 152, DESIGN CHOICE.) -/
def navFlips (k : Nat) (f : NavFmt) (s : State) : Bool :=
  let pol := s.bit (F.NAV_CH_STAT_POL k)
  let passes (p : Bool) : Bool := ((navUnits k f f.unit p s).head?.map (·.pass)).getD false
  decide (f.sync = .mark) && !passes pol && passes (!pol)

/-- CONFIRM after one more symbol (R178): words 1 and 2 of a word-checked format, or the first unit. -/
def navConfirm (k : Nat) (f : NavFmt) (s : State) : State :=
  let c := navCh s k
  let pol := s.bit (F.NAV_CH_STAT_POL k)
  if f.words then
    if c.seen = c.start + 60 then
      if (navUnits k f 60 pol s).all (fun o => (o.checks.take 2).all id) then navSync k s else navUnconfirmed k s
    else s
  else if c.seen = c.start + f.unit + f.tail then
    let pol := pol != navFlips k f s
    let us := navUnits k f (f.unit + f.tail) pol s
    if (us.head?.map (·.pass)).getD false then
      navConsume k f (us.foldl (navQueueUnit k f) (navSync k (setPol k pol s)))
    else navUnconfirmed k s
  else s

/-- The polarity flips in SYNC (R179). -/
def navFlip (k : Nat) (s : State) : State :=
  setNavCh ((setPol k (!s.bit (F.NAV_CH_STAT_POL k)) s).setFld (F.NAV_CH_STAT_POL_CHG k) 1) k { navCh s k with chg := true }

/-- An expected pattern at a place of the unit in SYNC (R179): in neither polarity it is missed, in the opposite one only it
flips POL. (Assumption 152, DESIGN CHOICE.) -/
def navExpect (k : Nat) (f : NavFmt) (s : State) (place : Nat) : State :=
  let c := navCh s k
  if c.seen ≠ c.start + place + f.patLen then s
  else
    let pol := s.bit (F.NAV_CH_STAT_POL k)
    let at_ (p : Bool) : Bool := (unitPattern f [c.turn] p (navSofts c 0 c.seen) (c.start + place)).isSome
    if at_ pol then s else if at_ (!pol) then navFlip k s else setNavCh s k { c with miss := true }

/-- A unit completes in SYNC (R178): it is queued, and LOSS_N consecutive FAIL units end SYNC; after that none is staged. -/
def navSyncUnit (k : Nat) (f : NavFmt) (s : State) (o : NavOut) : State :=
  if s.fld (F.NAV_CH_STAT_SYNC k) ≠ 2 then s
  else
    let s := navQueueUnit k f s o
    let n := s.fld F.NAV_CFG_LOSS_N
    if n ≠ 0 ∧ n ≤ (navCh s k).fails then navLeaveSync k s else s

/-- SYNC after one more symbol (R178, R179): the expected patterns, then the unit, or the two of a frame, where it is complete. -/
def navTrack (k : Nat) (f : NavFmt) (s : State) : State :=
  let s := f.places.foldl (navExpect k f) s
  let c := navCh s k
  if c.seen ≠ c.start + f.unit + f.tail then s
  else
    let s := if navFlips k f s then navFlip k s else s
    let us := navUnits k f (f.unit + f.tail) (s.bit (F.NAV_CH_STAT_POL k)) s
    navConsume k f (us.foldl (navSyncUnit k f) s)

/-- Synchronisation takes one more symbol of the buffer (R178). -/
def navAdvance (k : Nat) (f : NavFmt) (s : State) : State :=
  let s := setNavCh s k { navCh s k with seen := (navCh s k).seen + 1 }
  match s.fld (F.NAV_CH_STAT_SYNC k) with
  | 0 => navSearch k f s
  | 1 => navConfirm k f s
  | _ => navTrack k f s

/-- Synchronisation takes the symbols of the buffer one by one, those it goes back to after a false match included. (Assumption 137, DEDUCED.) -/
def navRun : Nat → Nat → NavFmt → State → State
  | 0, _, _, s => s
  | n + 1, k, f, s => if (navCh s k).seen < (navCh s k).buf.length then navRun n k f (navAdvance k f s) else s

/-- Steps that suffice for a buffer: every false match begins later than the one before it. -/
def navFuel (k : Nat) (s : State) : Nat := ((navCh s k).buf.length + 1) ^ 2

/-- The path takes the oldest word of a ring's FIFO (R170, R172, R178): an entry of an earlier start is discarded;
RESYNC, then erasures for GAP and for words dropped, then the symbol. -/
def execSymbolDequeue (n : Fin 10) (_unit : Formed) (s : State) : Host.Outcome State Fault Refusal :=
  .next (
    match navQueue s n with
    | [] => s
    | (v, tag, owed) :: q =>
      let s := setNavQueue s n q
      let k := 32 * n.val + bitsOf v.toNat 31 27
      match chFmt k s with
      | none => s
      | some f =>
        if (navCh s k).tag ≠ tag then s
        else
          let s := if v.getLsbD 10 then
              navLeaveSync k (setNavCh s k { navCh s k with buf := [], seen := 0 }) else s
          let lost := List.replicate (bitsOf v.toNat 14 12 + owed) (NavSym.mk 0 false none)
          let s := navAppend k (lost ++ [⟨softOf v, v.getLsbD 11, some (BitVec.ofNat 8 (bitsOf v.toNat 23 16))⟩]) s
          navRun (navFuel k s) k f s)

/-! Staging (R182 to R184). -/

/-- FULL shows whether the staging ring is full. -/
def syncStaging (s : State) : State :=
  s.setBit F.NAV_STG_STAT_FULL ((s.fld F.NAV_STG_WR_WR + 1) % 512 == s.fld F.NAV_STG_RD_RD)

/-- The 128 bytes of a staged record (R183). (Assumption 70, DEDUCED.) -/
def stagedBytes (r : NavRec) (nseq : Nat) (s : State) : List Byte :=
  let bits := (r.payload ++ List.replicate (94 - r.payload.length) 0).take 94
  leBytes 1 r.sat ++ leBytes 1 r.sig ++ leBytes 1 r.fmt ++
    leBytes 1 r.flags ++ leBytes 2 r.len ++ leBytes 2 r.chan ++ leBytes 2 r.wmask ++ leBytes 1 r.qual ++ [r.dseq] ++
    leBytes 4 r.symidx ++ leBytes 8 s.now64 ++ leBytes 8 (r.tot % 2 ^ 64) ++ bits ++ leBytes 2 nseq

/-- Address of the staging ring in the device map (R182, R426). -/
abbrev stagingBase : Nat := 0x01DF0000

/-- The oldest decoded unit is staged, or dropped on a full ring (R182, R184); one of an earlier start does not count for the
present one (R172). (Assumption 70, DEDUCED.) -/
def execUnitStage (s : State) : Host.Outcome State Fault Refusal :=
  .next (
    match s.navUnits with
    | [] => s
    | r :: rest =>
      let s := { s with navUnits := rest }
      let wr := s.fld F.NAV_STG_WR_WR
      if (wr + 1) % 512 = s.fld F.NAV_STG_RD_RD then
        raise 60 ((s.setFld F.NAV_STG_STAT_DROP 1).setFld F.NAV_STG_STAT_DROP_CNT
          (satNat 0xFFFF (s.fld F.NAV_STG_STAT_DROP_CNT + 1)))
      else
        let bs := stagedBytes r (s.fld F.NAV_STG_WR_NSEQ) s
        let s := s.setMemBytes (stagingBase + 0x80 * wr) bs
        let s := ((s.setFld F.NAV_STG_WR_WR (wr + 1)).setFld F.NAV_STG_WR_NSEQ (s.fld F.NAV_STG_WR_NSEQ + 1)).setFld
          (F.NAV_CH_STAT_UNITS r.chan)
          (s.fld (F.NAV_CH_STAT_UNITS r.chan) + if r.tag = (navCh s r.chan).tag then 1 else 0)
        let s := syncStaging s
        if s.bit F.NAV_CFG_HOST_COPY then streamPut 1 [bs] s else s)

/-- A write of RD consumes records; one that would pass WR is ignored with BADRD (R182). -/
def opStgRdWrite (v : Word) (s : State) : State :=
  let rd := s.fld F.NAV_STG_RD_RD
  let new := v.toNat % 512
  if (new + 512 - rd) % 512 ≤ (s.fld F.NAV_STG_WR_WR + 512 - rd) % 512 then syncStaging (s.setFld F.NAV_STG_RD_RD new)
  else s.setFld F.NAV_STG_STAT_BADRD 1

def execStgRdWrite (who : Reader) (v : Word) (s : State) : Host.Outcome State Fault Refusal :=
  .next (gate who R.NAV_STG_RD true (opStgRdWrite v) s)

/-- A write of NAV_STG_STAT; clearing DROP clears DROP_CNT too (R182). -/
def opStgStatWrite (who : Reader) (v : Word) (s : State) : State :=
  let s := plainWrite who R.NAV_STG_STAT v s
  if v.getLsbD 30 then s.setFld F.NAV_STG_STAT_DROP_CNT 0 else s

def execDropClear (who : Reader) (v : Word) (s : State) : Host.Outcome State Fault Refusal :=
  .next (gate who R.NAV_STG_STAT true (opStgStatWrite who v) s)

end Sys2Proof.Machine
end

