-- ==== Sys2Proof/Machine/Replica.lean ====
section
/-! DEFINITION. The replica of a tracking channel (R128 to R131, R133, R141, R145): codes, subcarriers, secondary chips, the carrier
table, and the products of a sample with a tap. -/
namespace Sys2Proof.Machine

/-- A truth value as a level: true is −1. -/
def signOf (b : Bool) : Int := if b then -1 else 1

/-! Codes (R128). -/

/-- The fixed secondary codes (R126), first chip in the highest bit, 1 for the level −1. (Assumption 146, PRESUMED.) -/
def fixedSec (code : Nat) : Option (Nat × Nat) :=
  match code with
  | 0x05 => some (0x035, 10) | 0x1F => some (0x035, 10)
  | 0x06 => some (0x04D4E, 20) | 0x20 => some (0x04D4E, 20) | 0x11 => some (0x04D4E, 20) | 0x17 => some (0x04D4E, 20)
  | 0x09 => some (0x7015B2, 25)
  | 0x0A => some (0x842E9, 20)
  | 0x0C => some (0xE, 4)
  | 0x14 => some (0x02, 5)
  | _ => none

/-- A primary chip of a signal of a satellite (R128); every GLONASS slot has the same code (R127). (Assumption 147, DESIGN CHOICE; assumption 30, DESIGN CHOICE.) -/
def primaryChip (code sat : Nat) (store : List (Nat × Byte)) (i : Nat) : Bool :=
  match sigOf code with
  | some g => if g.store then Config.storeChip code sat store i
      else Config.codeChip code (if sigSystem code = 3 then 0 else sat) i
  | none => false

/-- A secondary chip (R128, R131): fixed codes are built in, the others come from the store; without a code always +1. -/
def secChip (code sat : Nat) (store : List (Nat × Byte)) (i : Nat) : Bool :=
  if !hasSec code sat then false
  else match fixedSec code with
    | some (v, n) => v.testBit (n - 1 - i % n)
    | none => Config.storeSecChip code sat store i

/-! Subcarriers (R129). Phases are in 2^-48 chip. -/

/-- sign(sin 2πnφ) of a code phase. (Assumption 149, DEDUCED.) -/
def subSign (n : Nat) (phase : Int) : Int := if (n * phase) % (2 ^ 48 : Int) < 2 ^ 47 then 1 else -1

/-- The subcarrier levels of a modulation but AltBOC at a code phase; `simple` takes CBOC and TMBOC as BOC(1,1) (R129). -/
def subLevel (m : Modulation) (simple : Bool) (phase : Int) : Int :=
  let s1 := subSign 1 phase
  let s6 := subSign 6 phase
  match m with
  | .bpsk => 8
  | .tm odd => if ((phase / 2 ^ 48) % 2 == 1) == odd then 8 else 0
  | .boc => 8 * s1
  | .cboc plus => if simple then 8 * s1 else if (s1 == s6) == plus then 10 * s1 else 5 * s1
  | .tmboc => if !simple && [0, 4, 6, 29].contains ((phase / 2 ^ 48) % 33) then 8 * s6 else 8 * s1
  | .qmboc => 8 * s1
  | .altboc => 0

/-- The square subcarrier s of AltBOC at a code phase: sign(cos θ) and sign(sin θ), θ = 3πφ (R129). (Assumption 149, DEDUCED.) -/
def altSub (phase : Int) : Int × Int :=
  let t := (3 * phase) % (2 ^ 49 : Int)
  (if t < 2 ^ 47 ∨ 3 * 2 ^ 47 ≤ t then 1 else -1, if t < 2 ^ 48 then 1 else -1)

/-- A code phase brought into its code, from 0. -/
def inCode (len : Nat) (phase : Int) : Int := phase % (len * 2 ^ 48 : Nat)

/-- A tap's replica at a code phase, real and imaginary (R129, R131): the primary chip, the subcarrier, and the secondary
chip at `idx` when it is stripped. (Assumption 149, DEDUCED.) -/
def replica (code sat : Nat) (simple strip : Bool) (store : List (Nat × Byte)) (idx : Nat) (phase : Int) : Int × Int :=
  match sigOf code with
  | none => (0, 0)
  | some g =>
    let p := inCode g.len phase
    let chip (c : Nat) := signOf (primaryChip c sat store (p / 2 ^ 48).toNat)
    let sec (c : Nat) := if strip then signOf (secChip c sat store idx) else 1
    match g.mod with
    | .altboc =>
      let s := altSub p
      let a := chip 0x0B * sec 0x0B
      let b := chip 0x0D * sec 0x0D
      (4 * (a + b) * s.1, 4 * (b - a) * s.2)
    | m => (chip code * sec code * subLevel m simple p, 0)

/-! The carrier (R130, R133). -/

/-- round(31·cos(2π(p + 0.5)/64)) for p from 0 to 15 (R133). -/
def carrierQuarter : List Int := [31, 31, 30, 29, 28, 27, 25, 23, 21, 18, 16, 13, 10, 8, 5, 2]

/-- C of the carrier table for p from 0 to 63, by its symmetries (R133). -/
def carrierCos (p : Nat) : Int :=
  let q := p % 64
  if q < 16 then carrierQuarter.getD q 0
  else if q < 32 then -carrierQuarter.getD (31 - q) 0
  else if q < 48 then -carrierQuarter.getD (q - 32) 0
  else carrierQuarter.getD (63 - q) 0

/-- S of the carrier table: C a quarter of a cycle earlier (R133). -/
def carrierSin (p : Nat) : Int := carrierCos (p + 48)

/-- The carrier table's address for a carrier phase in 2^-48 cycle; a quadrature component is a quarter cycle on (R130). (Assumption 146, PRESUMED.) -/
def carrierIndex (quad : Bool) (carr : Int) : Nat := (carr / 2 ^ 42 % 64).toNat + (if quad then 16 else 0)

/-- I' and Q' of a sample (R145). -/
def wipeOff (quad : Bool) (carr i q : Int) : Int × Int :=
  let p := carrierIndex quad carr
  (i * carrierCos p + q * carrierSin p, q * carrierCos p - i * carrierSin p)

/-- The product of a wiped sample with the conjugate of a replica (R145). -/
def tapProduct (w r : Int × Int) : Int × Int := (w.1 * r.1 + w.2 * r.2, w.2 * r.1 - w.1 * r.2)

/-! Taps (R141). -/

/-- The offsets of VE, E, P, L, VL, MA, MB in 1/256 chip, from TAPS and TAP_M (R141). -/
def tapOffsets (taps : Word × Word) : List Int :=
  let he : Int := (taps.1.toNat % 128 : Nat)
  let hv : Int := (bitsOf taps.1.toNat 24 16 : Nat)
  [-hv, -he, 0, he, hv, toSigned 16 (taps.2.toNat % 2 ^ 16), toSigned 16 (taps.2.toNat / 2 ^ 16)]

/-- An accumulator of a tap. -/
abbrev TapAcc := BitVec 44 × BitVec 44

/-- A product added to a tap's accumulators, 44 bits each (R145). -/
def addTap (a : TapAcc) (p : Int × Int) : TapAcc := (a.1 + BitVec.ofInt 44 p.1, a.2 + BitVec.ofInt 44 p.2)

end Sys2Proof.Machine
end

