-- ==== Sys2Proof/Machine/Tracking.lean ====
section
/-! DEFINITION. Tracking rings (chapters 04 and 05): channels, their NCOs, starts and stops, rates, correlation, integration and dumps,
epoch capture and the publication of measurements. Channel k = 32 n + c is channel c of ring n (R122). -/
namespace Sys2Proof.Machine

/-- A channel's state outside its registers. -/
def trkCh (s : State) (k : Nat) : TrkCh := Sparse.get (fun _ => {}) s.trk k

/-- A channel's state replaced. -/
def setTrkCh (s : State) (k : Nat) (c : TrkCh) : State := { s with trk := Sparse.put (fun _ => {}) s.trk k c }

/-- A ring's epoch capture state. -/
def trkRing (s : State) (n : Nat) : TrkRing := Sparse.get (fun _ => {}) s.rings n

/-- A ring's epoch capture state replaced. -/
def setTrkRing (s : State) (n : Nat) (r : TrkRing) : State := { s with rings := Sparse.put (fun _ => {}) s.rings n r }

/-- Address of a ring's memory in the device map (R426). -/
abbrev ringMem (n : Nat) : Nat := 0x02000000 + 0x40000 * n

/-- A channel's state code: 0 IDLE, 1 WAIT, 2 RUN. -/
def chState (k : Nat) (s : State) : Nat := s.fld (F.TRK_CH_STATUS_STATE k)

/-- Whether a channel is a follower: odd, with PAIR 1 (R139). -/
def isFollower (k : Nat) (s : State) : Bool := k % 2 == 1 && s.bit (F.TRK_CH_CTRL_PAIR k)

/-- The channel whose NCOs a channel uses: its leader's or its own (R139). -/
def ncoOf (k : Nat) (s : State) : Nat := if isFollower k s then k - 1 else k

/-- The signal of a channel. -/
def chSig (k : Nat) (s : State) : Option Sig := sigOf (s.fld (F.TRK_CH_CTRL_SIG k))

/-- Code length of a channel's signal; 1 for a reserved code. -/
def chLen (k : Nat) (s : State) : Nat := match chSig k s with | some g => g.len | none => 1

/-- One unit of a channel's dump grid in 2^-48 chip (R143). -/
def unitPhase (k : Nat) (s : State) : Int :=
  match chSig k s with
  | some g => (g.kcps * unitMs (s.fld (F.TRK_CH_CTRL_SIG k)) : Nat) * 2 ^ 48
  | none => 2 ^ 48

/-! The NCOs (R132 to R137). -/

/-- An NCO run for some ticks at its rates. -/
def TrkCh.run (c : TrkCh) (n : Nat) : TrkCh :=
  { c with phase := c.phase + c.codeRate * n, carr := c.carr + c.carrRate * n, at_ := c.at_ + n }

/-- Pending rate pairs committed before tick `t` become the rates in use (R134, R150). -/
def TrkCh.takeRates (c : TrkCh) (t : Nat) : TrkCh :=
  let c := match c.codeNew with
    | some (r, w) => if w < t then { c with codeRate := r, codeNew := none, rateFlag := true } else c
    | none => c
  match c.carrNew with
  | some (r, w) => if w < t then { c with carrRate := r, carrNew := none, rateFlag := true } else c
  | none => c

/-- Ticks until the code phase reaches the next unit boundary (R143). -/
def TrkCh.toBoundary (c : TrkCh) (u : Int) : Nat :=
  let rest := u - c.phase % u
  ((rest + c.codeRate - 1) / (max c.codeRate 1 : Nat)).toNat

/-- A running channel's NCO at the present tick. With N = 0 pending rates become active at a unit boundary (R134). -/
def ncoNow (k : Nat) (s : State) : TrkCh :=
  let c := trkCh s k
  let n := s.tick - c.at_
  if chState k s ≠ 2 then c
  else if c.n0 = 0 && (c.codeNew.isSome || c.carrNew.isSome) && c.codeRate != 0 &&
      decide (c.toBoundary (unitPhase k s) ≤ n) then
    let m := c.toBoundary (unitPhase k s)
    let c := c.run m
    (c.takeRates c.at_).run (n - m)
  else c.run n

/-- The code epoch count without its wrap. -/
def TrkCh.epochs (c : TrkCh) (len : Nat) : Int := c.phase / (len * 2 ^ 48 : Nat)

/-- The secondary index at an epoch count, modulo the secondary code length (R131). -/
def TrkCh.idxOf (c : TrkCh) (sl : Nat) (e : Int) : Nat :=
  match c.secSet with
  | some (v, e0) => if e0 ≤ e then ((v + (e - e0)) % sl).toNat else ((c.idx + (e - c.idxAt)) % sl).toNat
  | none => ((c.idx + (e - c.idxAt)) % sl).toNat

/-- The secondary code length of a channel's signal. -/
def chSecLen (k : Nat) (s : State) : Nat := secLen (s.fld (F.TRK_CH_CTRL_SIG k)) (s.fld (F.TRK_CH_CTRL_SAT k))

/-- The secondary index of a channel now; while IDLE, its loaded value. -/
def idxNow (k : Nat) (s : State) : Nat :=
  if chState k s = 2 then
    (trkCh s k).idxOf (chSecLen k s) ((ncoNow (ncoOf k s) s).epochs (chLen (ncoOf k s) s))
  else (trkCh s k).idx

/-- The six NCO words of a state, CARR_LO to CHIP (R137). -/
def ncoWords (c : TrkCh) (len : Nat) : List Word :=
  let code := (c.phase % (len * 2 ^ 48 : Nat)).toNat
  let fr := (c.carr % (2 ^ 48 : Int)).toNat
  [BitVec.ofNat 32 fr, BitVec.ofNat 32 (fr / 2 ^ 32), BitVec.ofInt 32 (c.carr / 2 ^ 48),
   BitVec.ofNat 32 code, BitVec.ofNat 32 (code / 2 ^ 32 % 2 ^ 16),
   BitVec.ofNat 32 (code / 2 ^ 48) + BitVec.ofNat 32 ((c.epochs len % 256).toNat * 2 ^ 24)]

/-- The timebase value of the sample that the NCOs now describe: 24 ticks of latency are removed (R99, R137). (Assumption 68, DEDUCED.) -/
def tagUnits (s : State) : Nat := s.nowU - 24 * s.tickStep

/-- The START time of a channel in units of the timebase, widened (R138). -/
def startUnits (k : Nat) (s : State) : Nat :=
  s.widen (s.fld (F.TRK_CH_START_SEC_SEC_LO k) * 2 ^ 32 + s.fld (F.TRK_CH_START_FRAC_FRAC k)) * fracUnits

/-- The tag of the sample that a channel's NCO state describes, as SPT64 (R137): in RUN that of the present sample, in the tick
of an immediate start that of the next one, which the loaded state describes; in WAIT
that of the first tick at or after START, while IDLE the one kept. (Assumption 68, DEDUCED.) -/
def ncoTag (k : Nat) (s : State) : Nat :=
  let now := tagUnits s
  match chState k s with
  | 2 => (now + ((trkCh s (ncoOf k s)).at_ - s.tick) * s.tickStep) / fracUnits
  | 1 =>
    if isFollower k s then now / fracUnits
    else (now + (startUnits k s - now + s.tickStep - 1) / (max s.tickStep 1) * s.tickStep) / fracUnits
  | _ => (s.word (R.TRK_CH_NCO_TAG_SEC k)).toNat * 2 ^ 32 + (s.word (R.TRK_CH_NCO_TAG_FRAC k)).toNat

/-- The eight words of a channel's NCO latch group now (R137). -/
def ncoGroup (k : Nat) (s : State) : List Word :=
  let t := ncoTag k s
  let ws := if chState k s = 2 then ncoWords (ncoNow (ncoOf k s) s) (chLen (ncoOf k s) s)
    else [s.word (R.TRK_CH_NCO_CARR_LO k), s.word (R.TRK_CH_NCO_CARR_HI k), s.word (R.TRK_CH_NCO_CYC k),
      s.word (R.TRK_CH_NCO_CODE_LO k), s.word (R.TRK_CH_NCO_CODE_HI k), s.word (R.TRK_CH_NCO_CHIP k)]
  ws ++ [BitVec.ofNat 32 t, BitVec.ofNat 32 (t / 2 ^ 32)]

/-- The loaded state of an IDLE channel's NCO words (R138). (Assumption 167, DESIGN CHOICE.) -/
def loadNco (k : Nat) (s : State) (c : TrkCh) : TrkCh :=
  let w (o : Nat) := (s.word o).toNat
  let chip := w (R.TRK_CH_NCO_CHIP k)
  let len := chLen k s
  let e := chip / 2 ^ 24
  { c with
    phase := (e * len + chip % 2 ^ 24 % len : Nat) * 2 ^ 48 +
      (w (R.TRK_CH_NCO_CODE_HI k) % 2 ^ 16 * 2 ^ 32 + w (R.TRK_CH_NCO_CODE_LO k) : Nat)
    carr := (s.word (R.TRK_CH_NCO_CYC k)).toInt * 2 ^ 48 +
      (w (R.TRK_CH_NCO_CARR_HI k) % 2 ^ 16 * 2 ^ 32 + w (R.TRK_CH_NCO_CARR_LO k) : Nat)
    idxAt := e, secSet := none }

/-- A stopped channel's NCO words keep their state and its tag (R140). -/
def storeNco (k : Nat) (c : TrkCh) (s : State) : State :=
  let t := (tagUnits s + s.tickStep) / fracUnits
  let s := (s.setWord (R.TRK_CH_NCO_TAG_FRAC k) (BitVec.ofNat 32 t)).setWord (R.TRK_CH_NCO_TAG_SEC k) (BitVec.ofNat 32 (t / 2 ^ 32))
  match ncoWords c (chLen k s) with
  | [a, b, d, e, f, g] =>
    (((((s.setWord (R.TRK_CH_NCO_CARR_LO k) a).setWord (R.TRK_CH_NCO_CARR_HI k) b).setWord (R.TRK_CH_NCO_CYC k) d).setWord
      (R.TRK_CH_NCO_CODE_LO k) e).setWord (R.TRK_CH_NCO_CODE_HI k) f).setWord (R.TRK_CH_NCO_CHIP k) g
  | _ => s

/-! Refusals (R149). -/

/-- A refusal or an abort: RESULT, REASON, the ring's ERR_PEND bit and its event (R148, R149). (Assumption 65, DEDUCED.) -/
def chanErr (k reason result : Nat) (s : State) : State :=
  flagEvent ⟨R.TRK_RING_ERR_PEND (k / 32), k % 32, k % 32⟩ (48 + k / 32)
    ((s.setFld (F.TRK_CH_STATUS_REASON k) reason).setFld (F.TRK_CH_STATUS_RESULT k) result)

/-- Whether TAPS are allowed (R141). -/
def tapsOk (v : Word) : Bool :=
  let he := v.toNat % 128
  let hv := bitsOf v.toNat 24 16
  decide (1 ≤ he) && decide (he ≤ 127) && decide (he < hv) && decide (hv ≤ 511)

/-- Whether an integration length is allowed: a multiple of U, at most 20 ms for data and 160 ms for pilots (R143). -/
def intOk (k n : Nat) (s : State) : Bool :=
  match chSig k s with
  | some g => n % unitMs (s.fld (F.TRK_CH_CTRL_SIG k)) == 0 && decide (n ≤ if g.pilot then 160 else 20)
  | none => false

/-- Whether the satellite index belongs to the signal's system (R127). -/
def satOk (k : Nat) (s : State) : Bool :=
  systemOf (s.fld (F.TRK_CH_CTRL_SAT k)) == some (sigSystem (s.fld (F.TRK_CH_CTRL_SIG k)))

/-- The primary code store as it stands, at addresses from its base (R426). (Assumption 30, DESIGN CHOICE.) -/
def codeStore (s : State) : List (Nat × Byte) :=
  (s.mem.filter (fun e => decide (0x01E00000 ≤ e.1) && decide (e.1 < 0x02000000))).map (fun e => (e.1 - 0x01E00000, e.2))

/-- Whether the codes a channel needs from the store are loaded (R128). (Assumption 30, DESIGN CHOICE.) -/
def codesOk (k : Nat) (g : Sig) (s : State) : Bool :=
  (!g.store || Config.codeLoaded (s.fld (F.TRK_CH_CTRL_SIG k)) (s.fld (F.TRK_CH_CTRL_SAT k)) (codeStore s)) &&
    (!g.secStore || Config.secLoaded (s.fld (F.TRK_CH_CTRL_SIG k)) (s.fld (F.TRK_CH_CTRL_SAT k)) (codeStore s))

/-- The conditions of a pair (R139). (Assumption 66, DEDUCED.) -/
def pairOk (k : Nat) (s : State) : Bool :=
  let l := k - 1
  (match sigOf (s.fld (F.TRK_CH_CTRL_SIG l)) with
   | some g => g.partner == some (s.fld (F.TRK_CH_CTRL_SIG k))
   | none => false) &&
  s.fld (F.TRK_CH_CTRL_SAT l) == s.fld (F.TRK_CH_CTRL_SAT k) &&
  s.fld (F.TRK_CH_CTRL_CHAIN l) == s.fld (F.TRK_CH_CTRL_CHAIN k) &&
  s.fld (F.TRK_CH_CTRL_PROF l) == s.fld (F.TRK_CH_CTRL_PROF k)

/-- How many ticks ago the first tick at or after START was; none if it is still ahead (R138). -/
def startPassed (k : Nat) (s : State) : Option Nat :=
  let t := startUnits k s
  if tagUnits s < t then none else some ((tagUnits s - t) / (max s.tickStep 1))

/-- Why a start is refused: REASON and RESULT, in the order of R149. (Assumption 65, DEDUCED.) -/
def startRefusal (k : Nat) (s : State) : Option (Nat × Nat) :=
  match chSig k s with
  | none => some (1, ST.format)
  | some g =>
    if 2 ≤ s.fld (F.TRK_CH_CTRL_SC_MODE k) then some (1, ST.format)
    else if !satOk k s then some (2, ST.format)
    else if !codesOk k g s then some (3, ST.format)
    else if isFollower k s && !pairOk k s then some (4, ST.format)
    else if !tapsOk (s.word (R.TRK_CH_TAPS k)) then some (5, ST.format)
    else if !isFollower k s && !intOk k (s.fld (F.TRK_CH_INT_N k)) s then some (6, ST.format)
    else if !isFollower k s && s.bit (F.TRK_CH_CTRL_START_MODE k) &&
      (match startPassed k s with | some m => decide (2 ^ 24 < m) | none => false) then some (8, ST.late)
    else none

/-! Starting and stopping (R138 to R140). -/

/-- A channel's state changes; the ring's RUN mask follows. -/
def setChState (k st : Nat) (s : State) : State :=
  (s.setFld (F.TRK_CH_STATUS_STATE k) st).setMaskBit (R.TRK_RING_RUN (k / 32)) (k % 32) (st != 0)

/-- Planned length of an integration in units, from INT.N (R144). -/
def planUnits (k : Nat) (s : State) : Nat := s.fld (F.TRK_CH_INT_N k) / unitMs (s.fld (F.TRK_CH_CTRL_SIG k))

/-- A new integration begins at the NCO's present unit, of N's length (R144). -/
def TrkCh.beginInt (c : TrkCh) (u : Int) (n : Nat) : TrkCh :=
  { c with u0 := c.phase / u, uEnd := c.phase / u + n, n0 := n, nvalid := 0, acc := [] }

/-- The NCO's present state begins a stretch; the latest four are kept (R161). -/
def TrkCh.mark (c : TrkCh) : TrkCh :=
  { c with segs := (⟨c.at_, c.phase, c.carr, c.codeRate, c.carrRate⟩ :: c.segs).take 4 }

/-- A channel enters RUN; its loaded state, propagated by `m` ticks, applies at tick `t` (R138). -/
def enterRun (k t m : Nat) (s : State) : State :=
  let c := (loadNco k s (trkCh s k)).run m
  let c := { c with at_ := t, first := true, rateFlag := false, adjFlag := false, segs := []
                    taps := (s.word (R.TRK_CH_TAPS k), s.word (R.TRK_CH_TAP_M k)) }
  setChState k 2 (setTrkCh s k (c.beginInt (unitPhase k s) (planUnits k s)).mark)

/-- A follower joins its running leader at the next tick (R139). (Assumption 66, DEDUCED.) -/
def enterFollow (k : Nat) (s : State) : State :=
  let c := trkCh s k
  let l := ncoNow (k - 1) s
  let c := { c with idxAt := l.epochs (chLen (k - 1) s), secSet := none, first := true
                    rateFlag := false, adjFlag := false, n0 := 1, nvalid := 0, acc := []
                    taps := (s.word (R.TRK_CH_TAPS k), s.word (R.TRK_CH_TAP_M k)) }
  setChState k 2 (setTrkCh s k c)

/-- A channel leaves WAIT or RUN at the next tick; its NCO words and its secondary index keep their state of that tick (R140). -/
def haltChannel (k : Nat) (s : State) : State :=
  let st := chState k s
  let next := { s with tick := s.tick + 1 }
  let own := st = 2 && !isFollower k s
  let last := if own then ncoNow k next else trkCh s k
  let s' := if own then storeNco k last s else s
  let c := { last with idx := idxNow k next, secSet := none, nvalid := 0, acc := [], segs := [] }
  setChState k 0 ((setTrkCh s' k c).setFld (F.TRK_CH_CTRL_EN k) 0)

/-- A leader in RUN takes its waiting follower along, or refuses it where the pair's conditions no longer hold (R139).
(Assumption 66, DEDUCED.) -/
def followLeader (k : Nat) (s : State) : State :=
  if k % 2 = 0 && isFollower (k + 1) s && chState (k + 1) s == 1 then
    if pairOk (k + 1) s then enterFollow (k + 1) s else chanErr (k + 1) 4 ST.format (haltChannel (k + 1) s)
  else s

/-- A channel enters RUN or WAIT by its start mode; a follower of a channel not in RUN waits for it. -/
def startChannel (k : Nat) (s : State) : State :=
  if isFollower k s then (if chState (k - 1) s = 2 then enterFollow k s else setChState k 1 s)
  else if !s.bit (F.TRK_CH_CTRL_START_MODE k) then followLeader k (enterRun k (s.tick + 1) 0 s)
  else match startPassed k s with
    | some m => followLeader k (enterRun k s.tick m s)
    | none => setChState k 1 s

/-- EN goes to 1: the start is checked, and a refused one leaves the channel IDLE (R138, R149, R172). -/
def tryStart (k : Nat) (s : State) : State :=
  match startRefusal k s with
  | some (reason, result) => chanErr k reason result (s.setFld (F.TRK_CH_CTRL_EN k) 0)
  | none =>
    startChannel k (navRestart k ((s.setFld (F.TRK_CH_STATUS_REASON k) 0).setFld (F.TRK_CH_STATUS_RESULT k) ST.ok))

/-- A channel stops, and its follower with it: ST_ABORT, PAIR_LOST (R139, R140). -/
def stopChannel (k : Nat) (s : State) : State :=
  let s := haltChannel k s
  if k % 2 = 0 && isFollower (k + 1) s && chState (k + 1) s != 0 then chanErr (k + 1) 9 ST.abort (haltChannel (k + 1) s)
  else s

/-- Bits of CTRL that may not change in WAIT or RUN (R149): START_MODE, PAIR, PROF_GATE, PROF, CHAIN, SC_MODE, SAT, SIG. -/
abbrev lockedBits : Word := 0x7F30FF3F

/-- A write of a channel's CTRL (R138, R140, R149); PAIR is reserved on even channels. (Assumption 65, DEDUCED.) -/
def opChCtrlWrite (who : Reader) (k : Nat) (v : Word) (s : State) : State :=
  let v := if k % 2 = 0 then v &&& 0xDFFFFFFF else v
  if chState k s = 0 then
    let s := plainWrite who (R.TRK_CH_CTRL k) v s
    if v.getLsbD 31 then tryStart k s else s
  else if (v ^^^ s.word (R.TRK_CH_CTRL k)) &&& lockedBits ≠ 0 then chanErr k 11 ST.format s
  else if v.getLsbD 31 then s else stopChannel k s

/-- A write to a channel's registers: ignored while the ring is off (R125). -/
def chGate (who : Reader) (k off : Nat) (f : State → State) (s : State) : State :=
  gate who off true (fun s => if domainOn (5 + k / 32) s then f s else s) s

def execChannelStart (who : Reader) (k : Fin 320) (v : Word) (s : State) : Host.Outcome State Fault Refusal :=
  .next (chGate who k (R.TRK_CH_CTRL k) (opChCtrlWrite who k (v ||| 0x80000000)) s)

def execChannelStop (who : Reader) (k : Fin 320) (s : State) : Host.Outcome State Fault Refusal :=
  .next (chGate who k (R.TRK_CH_CTRL k) (fun s =>
    opChCtrlWrite who k (s.word (R.TRK_CH_CTRL k) &&& 0x7FFFFFFF) s) s)

/-! Correlation (R123, R124, R129 to R131, R145). -/

/-- Whether an output word counts for a channel: VALID, and with PROF_GATE taken on the channel's profile (R124). -/
def wordCounts (k : Nat) (w : BitVec 17) (s : State) : Bool :=
  w.getLsbD 16 && (!s.bit (F.TRK_CH_CTRL_PROF_GATE k) ||
    wordProfile (s.fld (F.TRK_CH_CTRL_CHAIN k)) s == s.fld (F.TRK_CH_CTRL_PROF k))

/-- Whether a channel strips a secondary code (R131). -/
def strips (k : Nat) (s : State) : Bool :=
  s.bit (F.TRK_CH_SEC_EN k) && hasSec (s.fld (F.TRK_CH_CTRL_SIG k)) (s.fld (F.TRK_CH_CTRL_SAT k))

/-- The seven taps after one sample: each adds the product of the wiped sample with its replica, at the NCO's code phase plus
the tap's offset in 1/256 chip (R129 to R131, R141, R145). (Assumption 167, DEDUCED.) -/
def tapsAfter (k idx : Nat) (nco : TrkCh) (w : BitVec 17) (taps : Word × Word) (acc : List TapAcc) (s : State) : List TapAcc :=
  let code := s.fld (F.TRK_CH_CTRL_SIG k)
  let quad := match sigOf code with | some g => g.quad | none => false
  let iq := wipeOff quad nco.carr (toSigned 8 (w.toNat % 2 ^ 8)) (toSigned 8 (w.toNat / 2 ^ 8 % 2 ^ 8))
  (tapOffsets taps).zipIdx.map (fun e =>
    addTap (acc.getD e.2 (0, 0)) (tapProduct iq (replica code (s.fld (F.TRK_CH_CTRL_SAT k)) (s.fld (F.TRK_CH_CTRL_SC_MODE k) == 1)
      (strips k s) (codeStore s) idx (nco.phase + e.1 * 2 ^ 40))))

/-- A channel correlates the present output word of its chain with the NCO state of this tick (R123); an invalid one adds
nothing and is not counted (R124). -/
def correlate (k : Nat) (nco : TrkCh) (s : State) : State :=
  let w := (ifcCh s (s.fld (F.TRK_CH_CTRL_CHAIN k))).word
  if nco.n0 = 0 || !wordCounts k w s then s
  else
    let c := trkCh s k
    let idx := c.idxOf (chSecLen k s) (nco.epochs (chLen (ncoOf k s) s))
    setTrkCh s k { c with nvalid := c.nvalid + 1, acc := tapsAfter k idx nco w c.taps c.acc s }

/-- A channel in WAIT reaches its START tick; the sample it describes is its first (R138). -/
def execTimedStart (k : Fin 320) (s : State) : Host.Outcome State Fault Refusal :=
  .next (
    if chState k s = 1 && !isFollower k s then
      match startPassed k s with
      | some m =>
        let s := enterRun k s.tick m s
        followLeader k (correlate k (trkCh s k) s)
      | none => s
    else s)

/-! Writes to a channel (R134 to R144). -/

/-- A write of a rate LO word: pending (R134). -/
def opRateLo (k : Nat) (carrier : Bool) (v : Word) (s : State) : State :=
  if isFollower k s then s
  else
    let c := trkCh s k
    setTrkCh s k (if carrier then { c with carrLo := v.toNat } else { c with codeLo := v.toNat })

/-- A write of a rate HI word commits the pair, unless it is out of range (R134, R135); an IDLE channel takes it at once. (Assumption 66, DEDUCED.) -/
def opRateHi (k : Nat) (carrier : Bool) (v : Word) (s : State) : State :=
  if isFollower k s then s
  else
    let c := ncoNow k s
    let hi := v.toNat % 2 ^ 16
    if carrier then
      let r := toSigned 48 (hi * 2 ^ 32 + c.carrLo)
      if r.natAbs ≤ 2 ^ 46 then
        setTrkCh s k (if chState k s = 0 then { c with carrRate := r, carrNew := none } else { c with carrNew := some (r, s.tick) })
      else chanErr k 7 ST.format s
    else
      let r := hi * 2 ^ 32 + c.codeLo
      if r ≤ 2 ^ 45 then
        setTrkCh s k (if chState k s = 0 then { c with codeRate := r, codeNew := none } else { c with codeNew := some (r, s.tick) })
      else chanErr k 7 ST.format s

/-- BAR 0 offset of a rate HI word. -/
def rateHiOff (k : Nat) (carrier : Bool) : Nat := if carrier then R.TRK_CH_CARR_RATE_HI k else R.TRK_CH_CODE_RATE_HI k

def execRateWrite (who : Reader) (k : Fin 320) (carrier : Bool) (hi : Word) (s : State) :
    Host.Outcome State Fault Refusal :=
  .next (chGate who k (rateHiOff k carrier) (opRateHi k carrier hi) s)

/-- A write of CODE_ADJ: a pending adjustment (R136). -/
def opCodeAdj (k : Nat) (v : Word) (s : State) : State :=
  if isFollower k s then s else setTrkCh s k { trkCh s k with adj := some (v.toInt, s.tick) }

def execCodeAdj (who : Reader) (k : Fin 320) (v : Word) (s : State) : Host.Outcome State Fault Refusal :=
  .next (chGate who k (R.TRK_CH_CODE_ADJ k) (opCodeAdj k v) s)

/-- A write of SEC: EN, and SET loads IDX at the next primary code epoch (R131); an IDLE channel takes it at once. (Assumption 66, DEDUCED.) -/
def opSecWrite (who : Reader) (k : Nat) (v : Word) (s : State) : State :=
  let s := plainWrite who (R.TRK_CH_SEC k) v s
  if v.getLsbD 30 then
    let c := trkCh s k
    let x := v.toNat % 2 ^ 11
    if chState k s = 2 then
      let e := (ncoNow (ncoOf k s) s).epochs (chLen (ncoOf k s) s)
      setTrkCh s k { c with idx := idxNow k s, idxAt := e, secSet := some (x, e + 1) }
    else setTrkCh s k { c with idx := x, secSet := none }
  else s

def execSecSet (who : Reader) (k : Fin 320) (v : Word) (s : State) : Host.Outcome State Fault Refusal :=
  .next (chGate who k (R.TRK_CH_SEC k) (opSecWrite who k v) s)

/-- A write of INT (R143, R144): a bad N of a running channel is refused; ALIGN_GO ends the integration in progress, if there is
one, at the a-th unit boundary from now. A follower's N and ALIGN are its leader's. (Assumption 167, DEDUCED.) -/
def opIntWrite (who : Reader) (k : Nat) (v : Word) (s : State) : State :=
  let n := v.toNat % 256
  let fol := isFollower k s
  if chState k s ≠ 0 && !fol && !intOk k n s then chanErr k 6 ST.format s
  else
    let oldN := s.fld (F.TRK_CH_INT_N k)
    let s := plainWrite who (R.TRK_CH_INT k) v s
    let s := if fol then s.setFld (F.TRK_CH_INT_N k) oldN else s
    if chState k s = 2 && !fol then
      let u := unitPhase k s
      let c := ncoNow k s
      let a := bitsOf v.toNat 23 16
      setTrkCh s k (if v.getLsbD 31 && a != 0 && c.n0 != 0 then { c with uEnd := c.phase / u + a } else c)
    else s

def execAlignGo (who : Reader) (k : Fin 320) (v : Word) (s : State) : Host.Outcome State Fault Refusal :=
  .next (chGate who k (R.TRK_CH_INT k) (opIntWrite who k (v ||| 0x80000000)) s)

/-- A write of TAPS: refused outside the limits while the channel runs (R141). -/
def opTapsWrite (who : Reader) (k : Nat) (v : Word) (s : State) : State :=
  if chState k s ≠ 0 && !tapsOk v then chanErr k 5 ST.format s else plainWrite who (R.TRK_CH_TAPS k) v s

/-- A write of an NCO word: only while IDLE, and not on a follower (R138, R139). -/
def opNcoWrite (who : Reader) (k off : Nat) (v : Word) (s : State) : State :=
  if chState k s = 0 && !isFollower k s then plainWrite who off v s else s

/-- A write of a START word: ignored on a follower (R139). -/
def opStartWrite (who : Reader) (k off : Nat) (v : Word) (s : State) : State :=
  if isFollower k s then s else plainWrite who off v s

/-! Dumps (R144 to R148). -/

/-- A tap's component as a record holds it: shifted right and saturated, with whether it saturated (R145). -/
def dumpValue (v : BitVec 44) (shift : Nat) : Nat × Bool :=
  let x := v.toInt / 2 ^ shift
  if x < -(2 ^ 31) then (0x80000000, true) else if 2 ^ 31 - 1 < x then (0x7FFFFFFF, true) else (ofSigned 32 x, false)

/-- The 64 bytes of a dump record (R146), and whether a value saturated. -/
def dumpRecord (seq : Nat) (d : TrkDump) : List Byte × Bool :=
  let vs := (List.range 7).flatMap (fun i =>
    let a := d.acc.getD i (0, 0)
    [dumpValue a.1 d.shift, dumpValue a.2 d.shift])
  let sat := vs.any (·.2)
  (leBytes 4 (d.nvalid % 2 ^ 25) ++ leBytes 2 seq ++ leBytes 1 (d.flags + if sat then 1 else 0) ++ leBytes 1 d.epoch ++
    vs.flatMap (fun v => leBytes 4 v.1), sat)

/-- The NCO of a channel at a dump boundary: rates, adjustment and taps committed in earlier ticks take effect, and the next
integration begins (R134, R136, R142, R144, R150). (Assumption 149, DEDUCED.) (Assumption 167, DEDUCED.) -/
def boundaryNco (k : Nat) (s : State) (c : TrkCh) : TrkCh :=
  let c := { c with rateFlag := false, adjFlag := false, first := false }
  let c := c.takeRates s.tick
  let c := match c.adj with
    | some (a, w) => if w < s.tick then { c with phase := c.phase + a * 2 ^ 32, adj := none, adjFlag := true } else c
    | none => c
  let c := { c with taps := (s.word (R.TRK_CH_TAPS k), s.word (R.TRK_CH_TAP_M k)) }
  (c.beginInt (unitPhase k s) (planUnits k s)).mark

/-- What a dump boundary tells a pair (R139): whether the integration is SHORT, its RATE and ADJ flags, and the epoch count. -/
structure Boundary where
  short : Bool
  rate : Bool
  adj : Bool
  epoch : Nat
deriving DecidableEq, Repr

/-- A channel's finished integration at a boundary, to be written (R144 to R146). -/
def dumpAt (k : Nat) (b : Boundary) (s : State) : TrkDump :=
  let c := trkCh s k
  let bit (n : Nat) (x : Bool) := if x then n else 0
  { nvalid := c.nvalid, acc := c.acc, shift := s.fld (F.TRK_CH_INT_SHIFT k), epoch := b.epoch
    flags := bit 2 (b.short || c.first) + bit 4 b.rate + bit 8 b.adj + bit 16 (strips k s) }

/-- The boundary a channel with its own NCO reaches in this tick, if its integration ends: its code phase has reached the
unit boundary that REM or ALIGN set (R143, R144). -/
def boundaryOf (k : Nat) (c : TrkCh) (s : State) : Option Boundary :=
  if c.n0 ≠ 0 && decide (c.uEnd * unitPhase k s ≤ c.phase) then
    some ⟨c.uEnd - c.u0 != c.n0, c.rateFlag, c.adjFlag, (c.epochs (chLen k s) % 256).toNat⟩
  else none

/-- A unit boundary with N = 0 (R134, R143, R150): pending rates become active, and an N other than 0 written in an earlier tick
begins an integration there, the first of its kind (R166). (Assumption 167, DEDUCED.) -/
def unitNco (k : Nat) (s : State) (c : TrkCh) : TrkCh :=
  let c := c.takeRates s.tick
  if planUnits k s = 0 then c.mark
  else
    ({ c with first := true, rateFlag := false, adjFlag := false
              taps := (s.word (R.TRK_CH_TAPS k), s.word (R.TRK_CH_TAP_M k)) }.beginInt (unitPhase k s) (planUnits k s)).mark

/-- The NCO of a channel of its own in this tick: it has run, and at a boundary the next integration begins (R132 to R134,
R144). -/
def ncoTick (k : Nat) (s : State) : State :=
  let old := trkCh s k
  let c := old.run (s.tick - old.at_)
  match boundaryOf k c s with
  | some b => setTrkCh s k (boundaryNco k s { c with dumps := c.dumps ++ [dumpAt k b s] })
  | none => setTrkCh s k (if c.n0 = 0 ∧ old.phase / unitPhase k s < c.phase / unitPhase k s then unitNco k s c else c)

/-- A follower at its leader's boundary: its own integration ends with the leader's flags (R139). -/
def followDump (k : Nat) (b : Boundary) (s : State) : State :=
  let c := trkCh s k
  setTrkCh s k { c with dumps := c.dumps ++ [dumpAt k b s], first := false, nvalid := 0, acc := []
                        taps := (s.word (R.TRK_CH_TAPS k), s.word (R.TRK_CH_TAP_M k)) }

/-- A follower whose leader begins to integrate again after N = 0 (R139, R166). (Assumption 167, DEDUCED.) -/
def followBegin (k : Nat) (s : State) : State :=
  setTrkCh s k { trkCh s k with first := true, nvalid := 0, acc := []
                                taps := (s.word (R.TRK_CH_TAPS k), s.word (R.TRK_CH_TAP_M k)) }

/-- A channel with its own NCO, and the channel that follows it, in one FS tick (R123, R139). -/
def channelTick (k : Nat) (s : State) : State :=
  let c := trkCh s k
  if chState k s ≠ 2 || isFollower k s || decide (s.tick < c.at_) then s
  else
    let b := boundaryOf k (c.run (s.tick - c.at_)) s
    let s := ncoTick k s
    let nco := trkCh s k
    let s := correlate k nco s
    if k % 2 = 0 && isFollower (k + 1) s && chState (k + 1) s == 2 then
      correlate (k + 1) nco (match b with
        | some b => followDump (k + 1) b s
        | none => if c.n0 = 0 && nco.n0 != 0 then followBegin (k + 1) s else s)
    else s

/-- Every channel in one FS tick (R123). -/
def channelsTick (s : State) : State := (s.trk.map (·.1)).foldl (fun s k => channelTick k s) s

/-- The record of an integration that ended is written: its bit is set, or DUMP_LOST (R146, R147). -/
def dumpWrite (k : Nat) (d : TrkDump) (s : State) : State :=
  let n := k / 32
  let c := trkCh s k
  let (bs, sat) := dumpRecord c.seq d
  let s := s.setMemBytes (ringMem n + 0x80 * (k % 32) + 0x40 * (c.seq % 2)) bs
  let s := s.setFld (F.TRK_CH_STATUS_DUMP_SEQ k) c.seq
  let s := if sat then s.setFld (F.TRK_CH_STATUS_SAT_SEEN k) 1 else s
  let s := if s.maskBit (R.TRK_RING_DUMP_PEND n) (k % 32)
    then flagEvent ⟨R.TRK_RING_DUMP_LOST n, k % 32, k % 32⟩ (48 + n) s
    else s.setMaskBit (R.TRK_RING_DUMP_PEND n) (k % 32) true
  setTrkCh s k { c with seq := (c.seq + 1) % 2 ^ 16, dumps := c.dumps.drop 1 }

/-- The oldest integration that has ended has its record written (R144 to R148), also after a stop in the tick of its end
(R150), but not in a ring that is off (R125). -/
def execTrkDump (k : Fin 320) (_sums : Formed) (s : State) : Host.Outcome State Fault Refusal :=
  .next (match (trkCh s k).dumps with
    | d :: _ => if domainOn (5 + k.val / 32) s then dumpWrite k d s else s
    | [] => s)

/-! Ring power (R125). -/

/-- The channel registers of a ring return to their reset values. -/
def resetRingChannels (n : Nat) (s : State) : State :=
  let lo := 0x100000 + 0x10000 * n
  { s with regs := Sparse.keep (fun a => !(decide (lo ≤ a) && decide (a < lo + 0x1000))) s.regs
           trk := Sparse.keep (fun k => k / 32 != n) s.trk }

/-- The channels of a ring that is switched off stop: ST_ABORT, RING_OFF. (Assumption 67, DEDUCED.) -/
def abortRing (n : Nat) (s : State) : State :=
  (List.range 32).foldl (fun s c =>
    let k := 32 * n + c
    let s := setTrkCh s k { trkCh s k with dumps := [] }
    if chState k s = 0 then s else chanErr k 10 ST.abort (haltChannel k s)) s

/-- PWR of a ring takes effect: a domain start, or the ring goes off with its channels and its sequencer (R125, R396,
R534); BUSY shows a start that is deferred. -/
def ringPwr (n : Nat) (s : State) : State :=
  let d := 5 + n
  if s.bit (F.TRK_RING_CTRL_PWR n) then
    if domainOn d s || startQueued d s then s
    else (requestStart d none s).setBit (F.TRK_RING_CTRL_BUSY n) (!s.budget.queue.isEmpty || !canGrant d s)
  else
    let s := s.setFld (F.TRK_RING_CTRL_BUSY n) 0
    if domainOn d s then seqHalt n (domainStop d (abortRing n s)) else withdrawStart d s

/-- A write of a ring's CTRL. -/
def opRingCtrlWrite (who : Reader) (n : Nat) (v : Word) (s : State) : State :=
  ringPwr n (plainWrite who (R.TRK_RING_CTRL n) v s)

def execRingPower (who : Reader) (n : Fin 10) (v : Word) (s : State) : Host.Outcome State Fault Refusal :=
  .next (gate who (R.TRK_RING_CTRL n) true (opRingCtrlWrite who n v) s)

/-- A ring's domain start is granted: its channel registers and its coprocessor's wide registers are at reset (R125,
R415). (Assumption 67, DEDUCED.) -/
def ringGranted (n : Nat) (s : State) : State :=
  let s := (resetRingChannels n s).setFld (F.TRK_RING_CTRL_BUSY n) 0
  s.setSeq n { s.seq n with wide := [] }

/-! Epoch capture (R161 to R163). -/

/-- The latest epoch instant at or before a timebase value, in units. -/
def epochBy (n u : Nat) (s : State) : Option Nat :=
  if epochRate n s = 0 then none
  else some (u / (secUnits / epochRate n s) * (secUnits / epochRate n s))

/-- Whether an epoch is captured (R163): later than the last captured, and not passed over by a forward step since. -/
def epochDue (n e : Nat) (s : State) : Bool :=
  let r := trkRing s n
  (match r.lastE with | some l => decide (l < e) | none => true) &&
    r.passed.all (fun p => !(decide (p.1 < e) && decide (e < p.2)))

/-- The instant, in 10^-6 of a unit, of the sample that stands for E at the antenna: E + DELAY_PS of the channel's profile
(R73, R161). -/
def captureTarget (k e : Nat) (s : State) : Int :=
  let ps := s.fld (F.GRF_CH_PROF_CFG_DELAY_PS (s.fld (F.TRK_CH_CTRL_CHAIN k)) (s.fld (F.TRK_CH_CTRL_PROF k)))
  (e * 10 ^ 6 + ps * 120 * 2 ^ 44 : Nat)

/-- The tag of the present sample in the timescale in which the epoch E occurred, in 10^-6 of a unit (R161, R163): the forward
steps that came after E are taken out. (Assumption 68, DEDUCED.) -/
def epochTag (k e : Nat) (s : State) : Int :=
  let after := (trkRing s (k / 32)).passed.filter (fun p => decide (e ≤ p.1))
  ((tagUnits s : Int) - ((after.map (fun p => p.2 - p.1)).sum : Nat)) * 10 ^ 6

/-- A channel's samples have reached the one that stands for E (R161). (Assumption 68, DEDUCED.) -/
def captureReached (k e : Nat) (s : State) : Bool := decide (captureTarget k e s ≤ epochTag k e s)

/-- The stretch of a channel's NCO that holds at a tick: the latest begun by then, else the earliest kept. -/
def TrkCh.segAt (c : TrkCh) (t : Int) : NcoSeg :=
  match c.segs.find? (fun g => decide ((g.at_ : Int) ≤ t)) with
  | some g => g
  | none => c.segs.getLast?.getD ⟨c.at_, c.phase, c.carr, c.codeRate, c.carrRate⟩

/-- The NCO of a channel at the sample instant E + DELAY_PS (R161): the state at t0, the first tick at or after it, backed off
by F at the rate in force at that instant. (Assumption 68, DEDUCED.) -/
def captureNco (k e : Nat) (s : State) : TrkCh :=
  let c := trkCh s (ncoOf k s)
  let tag := epochTag k e s
  let step : Int := (max s.tickStep 1 * 10 ^ 6 : Nat)
  let m := (tag - captureTarget k e s) / step
  let f := (tag - m * step - captureTarget k e s) * 2 ^ 16 / (2 ^ 44 * 10 ^ 6)
  let t0 := (s.tick : Int) - m
  let g := c.segAt t0
  let h := if f = 0 then g else c.segAt (t0 - 1)
  { c with phase := g.phase + g.codeRate * (t0 - g.at_) - h.codeRate * f / 2 ^ 16, codeRate := h.codeRate
           carr := g.carr + g.carrRate * (t0 - g.at_) - h.carrRate * f / 2 ^ 16, carrRate := h.carrRate }

/-- The 32 bytes of a capture record (R162). -/
def captureRecord (k e : Nat) (stepped : Bool) (cseq : Nat) (s : State) : List Byte :=
  if chState k s ≠ 2 then List.replicate 30 0 ++ leBytes 2 cseq
  else
    let l := ncoOf k s
    let c := captureNco k e s
    let len := chLen l s
    let code := (c.phase % (len * 2 ^ 48 : Nat)).toNat
    let flags := 1 + (if (trkCh s l).n0 = 0 then 2 else 0) + (if s.refLost then 4 else 0) + (if stepped then 8 else 0)
    leBytes 6 (c.carr % (2 ^ 48 : Int)).toNat ++ leBytes 1 (c.epochs len % 256).toNat ++ leBytes 1 flags ++
      leBytes 4 (ofSigned 32 (c.carr / 2 ^ 48)) ++ leBytes 6 (code % 2 ^ 48) ++
      leBytes 2 ((trkCh s k).idxOf (chSecLen k s) (c.epochs len)) ++ leBytes 3 (code / 2 ^ 48) ++ [0] ++
      leBytes 6 (ofSigned 48 c.carrRate) ++ leBytes 2 cseq

/-- A capture is noted for the fix solver (R283): the rings that captured an epoch, and for those epochs that the ring captured
before, that it has captured again; those of which nothing was published by then are dropped. -/
def epochNoted (n e : Nat) (s : State) : State :=
  let old := (s.sky.epochsCap.map (fun c => if c.rings.contains n && c.e != e then { c with again := true } else c)).filter
    (fun c => !c.again || c.rings.any (fun m => (Sparse.get (fun _ => (2 ^ 64, [])) s.published m).1 == c.e))
  let now := if old.any (fun c => c.e == e) then
      old.map (fun c => if c.e = e then { c with rings := c.rings ++ [n] } else c)
    else old ++ [⟨e, [n], false⟩]
  { s with sky := { s.sky with epochsCap := now } }

/-- A ring captures an epoch (R163): each channel in WAIT or RUN, then PEND, MISSED and STEPPED. (Assumption 68, DEDUCED.) -/
def captureRing (n e : Nat) (s : State) : State :=
  let st := (trkRing s n).stepped
  let cseq := (s.fld (F.TRK_RING_EPOCH_STAT_CSEQ n) + 1) % 2 ^ 16
  let s := (List.range 32).foldl (fun s c =>
    let k := 32 * n + c
    if chState k s = 0 then s
    else s.setMemBytes (ringMem n + 0x1000 + 0x20 * c) (captureRecord k e st cseq s)) s
  let t := e / fracUnits
  let s := epochNoted n (t % 2 ^ 64) ((s.setWord (R.TRK_RING_EPOCH_FRAC n) (BitVec.ofNat 32 t)).setWord
    (R.TRK_RING_EPOCH_SEC n) (BitVec.ofNat 32 (t / 2 ^ 32)))
  let s := if s.bit (F.TRK_RING_EPOCH_STAT_PEND n) then s.setFld (F.TRK_RING_EPOCH_STAT_MISSED n) 1 else s
  let s := if st then s.setFld (F.TRK_RING_EPOCH_STAT_STEPPED n) 1 else s
  let s := (s.setFld (F.TRK_RING_EPOCH_STAT_CSEQ n) cseq).setFld (F.TRK_RING_EPOCH_STAT_PEND n) 1
  setTrkRing s n { lastE := some e, passed := (trkRing s n).passed.filter (fun p => decide (e < p.2)), captured := (List.range 32).filter (fun c => chState (32 * n + c) s == 2) }

/-- Every channel of a ring in WAIT or RUN has reached its sample of E (R161). -/
def ringReached (n e : Nat) (s : State) : Bool :=
  (List.range 32).all (fun c => chState (32 * n + c) s == 0 || captureReached (32 * n + c) e s)

/-- The epoch a ring captures next, if it may (R163): the latest before a forward step since the last capture, else the latest of
the present timebase; due, and reached by its channels. (Assumption 68, DEDUCED.) -/
def epochNext (n : Nat) (s : State) : Option Nat :=
  (((trkRing s n).passed.map (fun p => p.1) ++ [s.nowU]).filterMap (fun u => epochBy n u s)).find? (fun e =>
    epochDue n e s && ringReached n e s)

/-- An epoch is captured once every channel in WAIT or RUN has reached its sample of it (R161, R163). -/
def execEpochCapture (n : Fin 10) (s : State) : Host.Outcome State Fault Refusal :=
  .next (
    match epochNext n s with
    | some e => if domainOn (5 + n.val) s then captureRing n e s else s
    | none => s)

/-- A step of the timebase from `a` to `b` (R163): epochs strictly between are passed, the next capture is marked. -/
def ringsStepped (a b : Nat) (s : State) : State :=
  (List.range 10).foldl (fun s n =>
    let r := trkRing s n
    setTrkRing s n { r with stepped := true, passed := if a < b then r.passed ++ [(a, b)] else r.passed }) s

/-! Publication (R165). -/

/-- A channel's measurement record in ring memory (R152). -/
def measRecord (n c : Nat) (s : State) : List Byte := s.memBytes (ringMem n + 0x1800 + 0x40 * c) 64

/-- A measurement record holds no reserved satellite index and its reserved fields are 0 (R11, R22, R164). -/
def measReservedOk (r : List Byte) : Bool :=
  decide (leAt r 0 1 ≤ 220) && leAt r 1 1 / 64 == 0 && leAt r 3 1 / 2 == 0 && leAt r 26 2 == 0 && leAt r 35 1 == 0 &&
    leAt r 51 11 == 0

/-- The records of the channels captured with RUN at the current capture that were made of it (R165); none with a reserved
satellite index is emitted (R22). -/
def measOf (n mseq : Nat) (s : State) : List (List Byte) :=
  (((trkRing s n).captured.filter (fun c => leNat ((measRecord n c s).drop 62) == mseq)).map
    (fun c => measRecord n c s)).filter measReservedOk

/-- A channel's record was made of a capture after the last published one and before the current one (R165). -/
def measMissed (n c : Nat) (s : State) : Bool :=
  let last := s.fld (F.TRK_RING_MEAS_CTRL_LAST_CSEQ n)
  let age (q : Nat) := (q + 2 ^ 16 - last) % 2 ^ 16
  let m := leNat ((measRecord n c s).drop 62)
  decide (0 < age m) && decide (age m < age (s.fld (F.TRK_RING_EPOCH_STAT_CSEQ n)))

/-- A PUBLISH comes after the next capture (R163, R165): a capture before the current one is unpublished, no record was made of
the current one, and the current one is unacknowledged or records of the unpublished one stand. (Assumption 168, DEDUCED.) -/
def publishLate (n : Nat) (s : State) : Bool :=
  let cseq := s.fld (F.TRK_RING_EPOCH_STAT_CSEQ n)
  let last := s.fld (F.TRK_RING_MEAS_CTRL_LAST_CSEQ n)
  cseq != last && cseq != (last + 1) % 2 ^ 16 && (measOf n cseq s).isEmpty &&
    (s.bit (F.TRK_RING_EPOCH_STAT_PEND n) ||
      !(trkRing s n).captured.isEmpty && (List.range 32).any (fun c => measMissed n c s))

/-- PUBLISH (R165): the records of the current capture go to the fix solver and the host stream; after the next capture
MEAS_LATE is set and nothing is delivered. (Assumption 44, DESIGN CHOICE.) (Assumption 168, DEDUCED.) -/
def opPublish (n : Nat) (s : State) : State :=
  let cseq := s.fld (F.TRK_RING_EPOCH_STAT_CSEQ n)
  let rs := measOf n cseq s
  if publishLate n s then
    raise (48 + n) (s.setFld (F.TRK_RING_EPOCH_STAT_MEAS_LATE n) 1)
  else
    let e := s.fld (F.TRK_RING_EPOCH_SEC_SEC_LO n) * 2 ^ 32 + s.fld (F.TRK_RING_EPOCH_FRAC_FRAC n)
    let s := { s with published := Sparse.put (fun _ => (2 ^ 64, [])) s.published n (e, rs),
                      sky := { s.sky with obs := s.sky.obs ++ rs } }
    streamPut 0 rs (s.setFld (F.TRK_RING_MEAS_CTRL_LAST_CSEQ n) cseq)

def execMeasPublish (who : Reader) (n : Fin 10) (s : State) : Host.Outcome State Fault Refusal :=
  .next (gate who (R.TRK_RING_MEAS_CTRL n) true (opPublish n) s)

end Sys2Proof.Machine
end

