-- ==== Sys2Proof/Machine/Trust.lean ====
section
/-! DEFINITION. What a measurement epoch gives the false-signal monitor, from the records published, the sky table, the ionosphere
and the last fix (R115), and the epoch itself. -/
namespace Sys2Proof.Machine

/-- The drift ε of the clock model in 10^-12: that of the last live fix while it converged (R274, R286). (Assumption 72, DEDUCED.) (Assumption 158, DEDUCED.) -/
def driftNow (s : State) : Int :=
  if s.sky.fix.isSome ∧ s.fld F.SOL_STAT_OUTCOME = 0 then toSigned 32 (s.word (R.SOL_FIX_W 11)).toNat else 0

/-- The newest epoch that a ring has published. (Assumption 158, DEDUCED.) -/
def newestEpoch (s : State) : Option Nat :=
  (orderBy (fun (e : Nat) => s.widen e) ((s.published.map (fun p => p.2)).filterMap (fun p =>
    if p.2.isEmpty then none else some p.1))).getLast?

/-- The records of that epoch that are code-locked. -/
def epochRecords (s : State) : List (List Byte) :=
  match newestEpoch s with
  | some e => s.published.flatMap (fun p => if p.2.1 = e then p.2.2.filter recLocked else [])
  | none => []

/-- A record's Doppler minus the one predicted from the orbit unit, the position and the drift of the last fix, in mHz; none without
a converged fix, or without a usable slot (R115). (Assumption 158, DEDUCED.) -/
def recDopError (r : List Byte) (s : State) : Option Int :=
  let i := leAt r 0 1
  let t := s.widen (leAt r 4 8)
  match s.sky.fix with
  | some f =>
    if s.sky.lastOk && slotUsable (skySlot s i) t then
      let p := posVec [f.x, f.y, f.z]
      let q := seenAt i (skySlot s i) (sysOffset i s) p (secOf t)
      let hz : Rat := recCarrier r s
      let eps : Rat := (driftNow s : Rat) / 10 ^ 12
      some (Num.round (1000 * ((toSigned 32 (leAt r 28 4) : Rat) / 4096 + hz * rangeRate p (q.pos, q.vel) / lightSpeed + hz * eps)))
    else none
  | none => none

/-- The code range of a record minus that of another of its satellite, in mm, after the ionosphere model, the stored inter-band
biases and the group delays (R115, R272); none without a reference position, a model, or both transmit times. (Assumption
158, DEDUCED.) (Assumption 158, DEDUCED.) -/
def recXbError (a b : List Byte) (s : State) : Option Int :=
  let i := leAt a 0 1
  let slot := skySlot s i
  let t := secOf (s.widen (leAt a 4 8))
  match refPos s with
  | none => none
  | some pos =>
    let p := posVec pos
    let g := geoOf p
    let ea := elAz p g (orbitEval i slot (t + sysOffset i s)).pos
    let io (r : List Byte) := ionoDelay (ionoRegs s) g ea.1 ea.2 t (recCarrier r s)
    let bias (r : List Byte) : Rat := if recChain r = 0 then 0 else ibbHeld s (recChain r)
    if leAt a 49 1 = 3 ∧ leAt b 49 1 = 3 ∧ slotContent slot ≠ 0 ∧ (io a).2 ≠ 0 then
      some (Num.round (1000 * (recRange b - recRange a - ((io b).1 - (io a).1) -
        (lightSpeed : Rat) * (bias b - bias a - groupDelay slot (recChain b) + groupDelay slot (recChain a)))))
    else none

/-- The largest of a satellite's code range differences from its record on the lowest chain. (Assumption 158, DEDUCED.) -/
def satXb (rs : List (List Byte)) (s : State) : Option Int :=
  match orderBy recKey rs with
  | [] => none
  | a :: rest =>
    ((rest.filter (fun r => recChain r != recChain a)).filterMap (fun b => recXbError a b s)).foldl
      (fun (m : Option Int) d => match m with | some e => if e.natAbs < d.natAbs then some d else m | none => some d) none

/-- What the epoch gives of one satellite. -/
def satObs (i : Nat) (rs : List (List Byte)) (s : State) : SatObs :=
  { sat := i
    chains := ((List.range 4).filter (fun x => rs.any (fun r => recChain r == x))).foldl (fun a x => a + 2 ^ x) 0
    dop := rs.filterMap (fun r => (recDopError r s).map (fun d => (leAt r 1 1 % 64, d)))
    xb := satXb rs s }

/-- What the newest epoch gives the monitor (R115). (Assumption 158, DEDUCED.) -/
def fsmObs (s : State) : FsmObs :=
  let rs := epochRecords s
  { cn0 := rs.map (fun r => (recChain r, leAt r 32 2))
    sats := (List.range 221).filterMap (fun i =>
      let own := rs.filter (fun r => leAt r 0 1 == i)
      if own.isEmpty then none else some (satObs i own s))
    drift := if s.sky.lastOk then some (driftNow s) else none }

/-- A measurement epoch of the false-signal monitor (R115 to R118, R414). (Assumption 64, DEDUCED.) (Assumption 169, DEDUCED.) -/
def execFsmEpoch (_obs : Formed) (s : State) : Host.Outcome State Fault Refusal :=
  let obs := fsmObs s
  let s := takeOsnma { s with fsm := { s.fsm with satEvent := false } }
  let pwrMask := ((List.range 4).filter (fun x => s.bit F.IFC_FSM_CFG_EN_PWR && pwrFails obs x s)).foldl
    (fun a x => a + 2 ^ x) 0
  let excess := dopOver obs s
  let clk := s.bit F.IFC_FSM_CFG_EN_CLK && clkFails obs s
  let old := (List.range 221).map (fun n => verdict n s)
  let s := eachSat (fsmSat obs pwrMask excess) 221 (s.setFld F.IFC_FSM_STAT_PWR_CHAINS pwrMask)
  let s := { s with fsm := { s.fsm with dopOver := excess, drift := obs.drift } }
  let s := if (List.range 221).map (fun n => verdict n s) = old then syncVerdicts s else verdictsChanged s
  .next (fsmAlert clk s)

end Sys2Proof.Machine
end

