-- ==== Sys2Proof/Machine/Lanes.lean ====
section
/-! DEFINITION. What the Sieve and the correlation engine share (R233): lanes and their power groups, the cells of a search and
their noise mean, carriers, and the uncertainties the windows use. -/
namespace Sys2Proof.Machine

/-- A lane. -/
def lane (s : State) (l : Nat) : Lane := Sparse.get (fun _ => {}) s.car.lanes l

/-- A lane replaced. -/
def setLane (s : State) (l : Nat) (x : Lane) : State :=
  { s with car := { s.car with lanes := Sparse.put (fun _ => {}) s.car.lanes l x } }

/-- A lane is out of service (R255). -/
def laneFaulty (l : Nat) (s : State) : Bool :=
  s.maskBit (if l < 32 then R.CAR_LANE_FAULT_LO else R.CAR_LANE_FAULT_HI) (l % 32)

/-- PWR_DOMAIN bit of a lane group. -/
abbrev groupDomain (g : Nat) : Nat := 15 + g

/-- A lane can run passes: its group is on since 4 µs and it is not out of service; in LEAN only group 0's do (R199, R255, R257, R258). (Assumption 123, DEDUCED.) -/
def laneServes (l : Nat) (s : State) : Bool :=
  (pstate s != 1 || decide (l < 8)) && domainOn (groupDomain (l / 8)) s && decide ((lane s l).idle ≤ s.tick) && !laneFaulty l s

/-- A lane stands at a pass boundary. -/
def laneFree (l : Nat) (s : State) : Bool := laneServes l s && (lane s l).work.isNone

/-- Lane cycles of a pass of N points (R233). -/
def passCost (n : Nat) : Nat := 5 * n / 4

/-- A lane starts a pass. -/
def laneRun (l : Nat) (w : LaneWork) (s : State) : State := setLane s l { lane s l with work := some w }

/-- A lane group's start is granted: its lanes take passes 4 µs later (R257). -/
def groupGranted (g : Nat) (s : State) : State :=
  (List.range 8).foldl (fun s i => setLane s (8 * g + i) { lane s (8 * g + i) with idle := s.tick + 480 }) s

/-- The least power of two that is `n` or more, at least `m`, by doubling `m` at most `k` times. -/
def pow2Above (n : Nat) : Nat → Nat → Nat
  | 0, m => m
  | k + 1, m => if n ≤ m then m else pow2Above n k (2 * m)

/-- The declared time uncertainty u_t in seconds, when known (R289). (Assumption 36, DEDUCED.) -/
def timeUnc (s : State) : Option Rat :=
  if s.fld F.TP_UNC_UNC = 0xFFFFFFFF then none else some ((s.fld F.TP_UNC_UNC : Rat) / 10 ^ 10)

/-- The declared frequency uncertainty u_f in 10^-13 (R289); a free value where it is unknown (assumption 36). -/
def freqUnc (s : State) : Nat × State :=
  if s.fld F.TP_FUNC_FUNC = 0xFFFFFFFF then s.draw else (s.fld F.TP_FUNC_FUNC, s)

/-- A cell of a search: bin, code cell and sum of |x|². -/
abbrev Cell := Int × Int × Nat

/-- The strongest sum of a list of cells. -/
def cellMax (cs : List Cell) : Nat := cs.foldl (fun m c => max m c.2.2) 0

/-- The first cell with the strongest sum. (Assumption 71, DEDUCED.) -/
def bestCell (cs : List Cell) : Option Cell := cs.find? (fun c => c.2.2 == cellMax cs)

/-- The cells without those within ±2 cells, in the same bin, of the `n` strongest (R193, R247). (Assumption 71, DEDUCED.) -/
def withoutPeaks (n : Nat) (cs : List Cell) : List Cell :=
  let m := cellMax cs
  let top := (orderBy (fun (c : Cell) => m - c.2.2) cs).take n
  cs.filter (fun c => !top.any (fun t => t.1 == c.1 && decide (t.2.1 - 2 ≤ c.2.1) && decide (c.2.1 ≤ t.2.1 + 2)))

/-- The mean of the sums of some cells; a free value when there is none (assumption 37). -/
def noiseMean (cs : List Cell) (s : State) : Rat × State :=
  if cs.isEmpty then let d := s.draw; ((d.1 : Rat), d.2)
  else (((cs.map (·.2.2)).sum : Rat) / cs.length, s)

/-- The sum of a cell, 0 outside the list. (Assumption 33, DESIGN CHOICE.) -/
def cellAt (cs : List Cell) (b c : Int) : Nat :=
  match cs.find? (fun x => x.1 == b && x.2.1 == c) with
  | some x => x.2.2
  | none => 0

/-- The terms η^i / i! of a false-alarm sum from the `i`-th, `x`, on. -/
def alarmTerms (eta : Rat) : Nat → Nat → Rat → Rat
  | 0, _, _ => 0
  | n + 1, i, x => x + alarmTerms eta n (i + 1) (Num.snap (x * eta / (i + 1 : Nat)))

/-- Whether η, in sixteenths, leaves `n` noncoherent sums a false-alarm probability above 10^-7 (R193, R248). (Assumption 34, DEDUCED.) -/
def alarmAbove (n eta16 : Nat) : Bool :=
  let eta : Rat := (eta16 : Rat) / 16
  decide (Num.exp eta < 10 ^ 7 * alarmTerms eta n 0 1)

/-- The default η × 16 for a number of noncoherent sums (R193, R248): the tabulated ones are the least sixteenths that satisfy the
formula, and so are the rest. (Assumption 34, DEDUCED.) -/
def defaultEta (carousel : Bool) (n : Nat) : Nat :=
  if n = 1 then 258 else if n = 2 then 306 else if n = 4 then 384
  else if n = 8 ∧ carousel then 514 else lastTrue (alarmAbove n) 14 0 + 1

end Sys2Proof.Machine
end

