-- ==== Sys2Proof/Machine/Sieve.lean ====
section
/-! DEFINITION. The Sieve (chapter 07): plan entries and their port, captures, windows, transforms, detection, hand-off and the
automatic planner. -/
namespace Sys2Proof.Machine

/-- A plan entry. (Assumption 31, DESIGN CHOICE.) -/
def planEntry (s : State) (i : Nat) : PlanEntry := Sparse.get (fun _ => {}) s.sieve.plan i

/-- A plan entry replaced. -/
def setPlan (s : State) (i : Nat) (e : PlanEntry) : State :=
  { s with sieve := { s.sieve with plan := Sparse.put (fun _ => {}) s.sieve.plan i e } }

/-- Bits of a request word. -/
def PlanEntry.bits (e : PlanEntry) (k hi lo : Nat) : Nat := bitsOf (winWord e.req k) hi lo

/-- A flag of word 0. -/
def PlanEntry.flag (e : PlanEntry) (b : Nat) : Bool := (winWord e.req 0).testBit b

/-- ARMED of an entry. -/
def PlanEntry.armed (e : PlanEntry) : Bool := e.flag 31

/-- Signal code of an entry. -/
def PlanEntry.sig (e : PlanEntry) : Nat := e.bits 0 13 8

/-- Satellite of an entry. -/
def PlanEntry.sat (e : PlanEntry) : Nat := e.bits 0 7 0

/-- Chain of an entry. -/
def PlanEntry.chain (e : PlanEntry) : Nat := e.bits 0 17 16

/-- TCOH in ms. -/
def PlanEntry.tcoh (e : PlanEntry) : Nat := e.bits 1 7 0

/-- NNC. -/
def PlanEntry.nnc (e : PlanEntry) : Nat := e.bits 1 15 8

/-- A search in progress: CAPTURE to PLACING. -/
def PlanEntry.active (e : PlanEntry) : Bool := decide (2 ≤ e.state) && decide (e.state ≤ 5)

/-- A search's transforms are wanted: its capture is complete. -/
def PlanEntry.searching (e : PlanEntry) : Bool := (e.state == 3 || e.state == 4) && !e.samples.isEmpty

/-- The words of an entry (R188). -/
def PlanEntry.words (e : PlanEntry) : List Word :=
  (List.range 8).map (fun k => e.req.getD k 0) ++
    [BitVec.ofNat 32 (e.state * 2 ^ 24 + e.result * 2 ^ 16 + e.peak),
      BitVec.ofNat 32 (e.cn0 * 2 ^ 16 + e.ring * 2 ^ 12 + e.hslot * 2 ^ 8 + e.mode), e.dopp, e.code, BitVec.ofNat 32 e.t,
      BitVec.ofNat 32 (e.t / 2 ^ 32), BitVec.ofNat 32 (e.lcyc / 1024), BitVec.ofNat 32 (e.hseq * 2 ^ 16 + e.retries % 256)]

/-- Capture rate in thousands of samples per second for a chip rate (R187). -/
def captureRate (kcps : Nat) : Nat := if kcps ≤ 2046 then 4092 else 20460

/-- Whether the words of a request pass R189. -/
def sieveReqOk (w : List Word) (s : State) : Bool :=
  let e : PlanEntry := { req := w }
  let bitsFree := winWord w 0 &&& 0x00CCC000 == 0
  match sigOf e.sig with
  | none => false
  | some g =>
    let rate := captureRate g.kcps
    bitsFree && !([0x03, 0x04, 0x0E, 0x1D, 0x1E, 0x21].contains e.sig) && systemOf e.sat == some (sigSystem e.sig) &&
      (!g.store || Config.codeLoaded e.sig e.sat (codeStore s)) &&
      decide (1 ≤ e.tcoh) && decide (e.tcoh ≤ if rate = 4092 then 16 else 3) && e.tcoh % unitMs e.sig == 0 &&
      decide (1 ≤ e.nnc) && decide (e.nnc ≤ 64) && decide (e.tcoh * e.nnc * rate * 2 ≤ 524288) &&
      !(winWord w 3).testBit 31

/-- A request is stored: words 8 to 15 clear; an armed one is queued (R190, R201). -/
def sieveStore (i : Nat) (w : List Word) (s : State) : State :=
  let e : PlanEntry := { req := w }
  let s := { s with sieve := { s.sieve with armings := s.sieve.armings + (if e.armed then 1 else 0) } }
  setPlan s i { e with state := if e.armed then 1 else 0, order := s.sieve.armings }

/-- An entry completes (R197): ARMED clears, STATE is DONE, EV_064. -/
def sieveDone (i result : Nat) (s : State) : State :=
  let e := planEntry s i
  let w0 := BitVec.ofNat 32 (winWord e.req 0 % 2 ^ 31)
  raise 64 (setPlan s i { e with req := w0 :: e.req.drop 1, state := 6, result := result, samples := [], got := [], left := 0, conf := false })

/-! The port (R201). -/

/-- A completed Sieve port command's effect. -/
def sievePortDo (r : Reader) (c : PortCmd) (s : State) : Nat × State :=
  let i := c.ctrl % 128
  match bitsOf c.ctrl 13 12 with
  | 1 => (ST.ok, setPortWindow sievePorts r (planEntry s i).words s)
  | 2 =>
    if 64 ≤ i ∧ s.bit F.SIEVE_CFG_AUTO ∧ r ≠ .debug then (ST.busy, s)
    else if sieveReqOk (c.window.take 8) s then (ST.ok, sieveStore i (c.window.take 8) s)
    else (ST.format, s)
  | 3 => (ST.ok, if (planEntry s i).armed || (planEntry s i).active then sieveDone i ST.abort s else s)
  | _ => (ST.ok, s)

def execSievePortRead (who : Reader) (i : BitVec 7) (s : State) : Host.Outcome State Fault Refusal :=
  .next (gate who R.SIEVE_PORT_CTRL true (opPortCtrl sievePorts who (portWord sievePorts 1 i.toNat)) s)

def execSievePortWrite (who : Reader) (i : BitVec 7) (s : State) : Host.Outcome State Fault Refusal :=
  .next (gate who R.SIEVE_PORT_CTRL true (opPortCtrl sievePorts who (portWord sievePorts 2 i.toNat)) s)

def execSievePortDisarm (who : Reader) (i : BitVec 7) (s : State) : Host.Outcome State Fault Refusal :=
  .next (gate who R.SIEVE_PORT_CTRL true (opPortCtrl sievePorts who (portWord sievePorts 3 i.toNat)) s)

/-- The Sieve port commands that are due complete. -/
def execSievePortComplete (s : State) : Host.Outcome State Fault Refusal :=
  .next (portsComplete sievePorts sievePortDo s)

/-! Captures and windows (R190 to R192). -/

/-- PRIO, then the order of arming (R190). -/
def PlanEntry.key (e : PlanEntry) : Nat := e.bits 0 27 24 * 2 ^ 64 + e.order

/-- The first entry, in the order of service, that satisfies a test. (Assumption 71, DEDUCED.) -/
def planFirst (p : PlanEntry → Bool) (s : State) : Option Nat :=
  ((orderBy (fun (x : Nat × PlanEntry) => x.2.key) (s.sieve.plan.filter (fun (x : Nat × PlanEntry) => p x.2))).head?).map (·.1)

/-- The capture buffer of a chain is in use. -/
def captureBusy (c : Nat) (s : State) : Bool :=
  s.sieve.plan.any (fun (x : Nat × PlanEntry) => x.2.chain == c && decide (2 ≤ x.2.state) && decide (x.2.state ≤ 4))

/-- The tag of a capture's first sample that starts now (R191). -/
def captureTag (s : State) : Nat := tagUnits s / fracUnits % 2 ^ 64

/-- Code length of an entry's signal in 2^-8 chip. -/
def PlanEntry.codeLen (e : PlanEntry) : Nat := 256 * (match sigOf e.sig with | some g => g.len | none => 1)

/-- A code phase in 2^-8 chip that holds at `t0`, propagated to `t1` with a Doppler in 2^-12 Hz. -/
def codeMoved (e : PlanEntry) (code : Int) (dopp : Int) (t0 t1 : Nat) (s : State) : Nat :=
  let kcps := match sigOf e.sig with | some g => g.kcps | none => 0
  let dt := toSigned 64 ((t1 + 2 ^ 64 - t0) % 2 ^ 64)
  let f := carrierHz e.sig e.sat s
  let rate : Rat := (kcps * 256000 : Nat) * (1 + (dopp : Rat) / ((4096 * f : Nat) : Rat))
  ((code + roundRat (rate * dt / 2 ^ 32)) % (e.codeLen : Int)).toNat

/-- MODE of an AUTO_WIN search at an instant: 0 COLD, 1 WARM, 2 HOT (R192). -/
def windowMode (e : PlanEntry) (t : Nat) (s : State) : Nat :=
  let b := skySlot s e.sat
  let quarter : Rat := match sigOf e.sig with | some g => (g.len : Rat) / (4000 * g.kcps : Nat) | none => 0
  let up := (refPos s).bind (fun _ => posUnc s)
  let hot := match timeUnc s, up with
    | some ut, some mm => slotUsable b t && s.bit F.TB_STATUS_VALID &&
        decide (ut + (mm : Rat) / (1000 * lightSpeed : Nat) < quarter)
    | _, _ => false
  if hot then 2
  else if slotContent b != 0 && (match up with | some mm => decide (mm ≤ 100000000) | none => false) then 1 else 0

/-- The windows of an entry at the tag `t` of its capture (R192), with its MODE. (Assumption 72, DEDUCED.) -/
def setWindows (e : PlanEntry) (t : Nat) (s : State) : PlanEntry × State :=
  let len := e.codeLen
  if !e.flag 29 then
    let d := toSigned 32 (winWord e.req 2)
    let hw := winWord e.req 5
    ({ e with dopC := d, dopHW := winWord e.req 3, codHW := hw, mode := if 2 * hw < len then 2 else 0
              codC := codeMoved e (winWord e.req 4) d (winWord e.req 7 * 2 ^ 32 + winWord e.req 6) t s }, s)
  else
    let t80 := s.widen t
    let m := windowMode e t80 s
    let fu := freqUnc s
    let f := carrierHz e.sig e.sat s
    let drift : Rat := -(driftNow s : Rat) * f / 10 ^ 12
    let z := match refPos s, sigOf e.sig with
      | some pos, some g => predictAt (ionoRegs s) e.sat (skySlot s e.sat) (sysOffset e.sat s) (secOf t80) (posVec pos) g.kcps g.len
          g.chain f
      | _, _ => ⟨0, 0, 0, 0⟩
    let guard : Nat := if m = 2 then 50 else if m = 1 then 150 else 5000
    let hw : Rat := (f * fu.1 : Nat) / (10 ^ 13 : Rat) + guard
    let kcps := match sigOf e.sig with | some g => g.kcps | none => 0
    let up : Rat := (posUnc s).getD 0
    let ut : Rat := (timeUnc s).getD 0
    let chips : Rat := (kcps * 1000 : Nat) * (ut + up / (1000 * lightSpeed : Nat)) + 2
    ({ e with
        mode := m
        dopC := roundRat (((if m = 0 then 0 else z.dopp) + drift) * 4096)
        dopHW := (hw * 4096).ceil.toNat
        codC := if m = 2 then (Num.round (256 * z.chips) % (len : Int)).toNat else 0
        codHW := if m = 2 then (chips * 256).ceil.toNat else len }, fu.2)

/-- The number of samples a capture takes: TCOH × NNC ms at the capture rate (R191). -/
def PlanEntry.captureLen (e : PlanEntry) : Nat :=
  match sigOf e.sig with | some g => captureRate g.kcps * e.tcoh * e.nnc | none => 0

/-- A capture is in progress: in CAPTURE, or in CONFIRM before its samples are complete. -/
def PlanEntry.capturing (e : PlanEntry) : Bool := e.state == 2 || (e.state == 4 && e.samples.isEmpty)

/-- The tick of a capture's next sample: the first at or after its instant at the capture rate (R187, R191). (Assumption 150,
DESIGN CHOICE.) -/
def PlanEntry.nextSample (e : PlanEntry) : Nat :=
  match sigOf e.sig with
  | some g => e.start + (e.got.length * 120000 + captureRate g.kcps - 1) / captureRate g.kcps
  | none => e.start

/-- A capture takes the present output word of its chain (R99, R191): a word that is not VALID, or of another profile, counts as
invalid and enters as zero. (Assumption 150, DESIGN CHOICE.) -/
def captureWord (e : PlanEntry) (s : State) : PlanEntry :=
  let w := (ifcCh s e.chain).word
  if w.getLsbD 16 && wordProfile e.chain s == e.bits 0 21 20 then
    { e with got := w.setWidth 16 :: e.got }
  else { e with got := 0 :: e.got, invalid := e.invalid + 1 }

/-- A capture in one FS tick. -/
def captureTick (i : Nat) (s : State) : State :=
  let e := planEntry s i
  if e.capturing && decide (e.got.length < e.captureLen) && decide (e.nextSample ≤ s.tick) then setPlan s i (captureWord e s)
  else s

/-- Every capture in one FS tick (R190, R191). -/
def capturesTick (s : State) : State := (s.sieve.plan.map (·.1)).foldl (fun s i => captureTick i s) s

/-- A capture of an entry begins with the present sample (R191): its tag, its windows, the steps counted; a confirmation
searches ±2 cells by 3 bins around its detection, propagated (R194). (Assumption 72, DEDUCED.) -/
def captureBegin (i : Nat) (s : State) : State :=
  let e := { planEntry s i with start := s.tick, got := [], invalid := 0 }
  let t := captureTag s
  let steps := s.fld F.TB_STATUS_STEP_SEQ
  if e.conf then
    setPlan s i (captureWord { e with state := 4, codC := codeMoved e e.codC e.dopC e.t t s, t := t, steps := steps, samples := [] } s)
  else
    let r := setWindows e t s
    setPlan r.2 i (captureWord { r.1 with state := 2, t := t, steps := steps, samples := [] } s)

/-- The entry at the head of a chain's queue starts its capture when the chain's buffer is free (R190, R191). -/
def execSieveCaptureStart (i : BitVec 7) (s : State) : Host.Outcome State Fault Refusal :=
  let e := planEntry s i.toNat
  .next (if s.bit F.SIEVE_CFG_EN && pstate s != 2 && e.state == 1 && !captureBusy e.chain s &&
      planFirst (fun x => x.state == 1 && x.chain == e.chain) s == some i.toNat
    then captureBegin i.toNat s else s)

/-- Samples per primary code period at the capture rate. -/
def PlanEntry.period (e : PlanEntry) : Nat :=
  match sigOf e.sig with | some g => g.len * captureRate g.kcps / g.kcps | none => 1

/-- The bins on each side of the centre: ceil(HW / Δ), Δ = 500 / TCOH Hz (R192). -/
def PlanEntry.binHalf (e : PlanEntry) : Nat := if e.conf then 1 else (e.dopHW * e.tcoh + 2047999) / 2048000

/-- First cell and number of cells: 2·ceil(CODE_HW × samples per chip) + 1, at most one primary period (R192). -/
def PlanEntry.cellRange (e : PlanEntry) : Int × Nat :=
  match sigOf e.sig with
  | none => (0, 0)
  | some g =>
    let d := 256 * g.kcps
    let h := if e.conf then 2 else (e.codHW * captureRate g.kcps + d - 1) / d
    if 2 * h + 1 ≤ e.period then (-(h : Int), 2 * h + 1) else (-((e.period / 2 : Nat) : Int), e.period)

/-- Transform size: the next power of two at or above the samples of one coherent segment (R187). -/
def PlanEntry.size (e : PlanEntry) : Nat :=
  match sigOf e.sig with | some g => pow2Above (captureRate g.kcps * e.tcoh) 16 1 | none => 1

/-- A complete capture is searched: two transforms for each bin and segment; in LEAN lane group 0 is asked for (R193, R199). -/
def searchBegin (i : Nat) (samples : List (BitVec 16)) (s : State) : State :=
  let e := planEntry s i
  let s := setPlan s i { e with
    state := if e.conf then 4 else 3, samples := samples, got := [], left := (2 * e.binHalf + 1) * e.nnc * 2 }
  if pstate s = 1 then requestStart (groupDomain 0) none s else s

/-- A capture completes (R191): more than 1/8 invalid, or a timebase step within it, takes it again, three times at most. -/
def execSieveCaptureDone (i : BitVec 7) (_samples _invalid : Formed) (s : State) : Host.Outcome State Fault Refusal :=
  let e := planEntry s i.toNat
  .next (
    if !e.capturing || decide (e.got.length < e.captureLen) then s
    else if e.captureLen < 8 * e.invalid ∨ s.fld F.TB_STATUS_STEP_SEQ ≠ e.steps then
      if e.retries < 3 then captureBegin i.toNat (setPlan s i.toNat { e with retries := e.retries + 1 })
      else sieveDone i.toNat ST.nosig s
    else searchBegin i.toNat e.got.reverse s)

/-! Transforms (R198, R199). -/

/-- The entry whose transform is next. -/
def sieveReady (s : State) : Option Nat := planFirst (fun e => e.searching && e.left != 0) s

/-- The budget of a window in lane cycles (R198). (Assumption 75, DEDUCED.) -/
def sieveBudget (s : State) : Nat := s.fld F.SIEVE_CAP_CAP * 7680000

/-- The budget stops a waiting transform: once in a window CAPPED is set and EV_066 raised (R198). (Assumption 75, DEDUCED.) -/
def sieveCapped (s : State) : State :=
  if s.sieve.capped then s
  else raise 66 ({ s with sieve := { s.sieve with capped := true } }.setFld F.SIEVE_STAT_CAPPED 1)

/-- A free lane starts the next Sieve transform, when there is one and the budget has room; whether it did (R199). (Assumption 75, DEDUCED.) -/
def sieveStart (l : Nat) (s : State) : Bool × State :=
  match sieveReady s with
  | none => (false, s)
  | some i =>
    let e := planEntry s i
    let c := passCost e.size
    if sieveBudget s < s.sieve.used + c then (false, sieveCapped s)
    else
      let s := setPlan s i { e with left := e.left - 1, busy := e.busy + 1, lcyc := e.lcyc + c }
      (true, laneRun l (.sieve i e.order) { s with sieve := { s.sieve with used := s.sieve.used + c, last := s.tick } })

/-- A Sieve transform starts on a lane that stands at a boundary. -/
def execSieveTransformStart (lane : Fin 64) (s : State) : Host.Outcome State Fault Refusal :=
  .next (if laneFree lane.val s then (sieveStart lane.val s).2 else s)

/-- A lane has finished a Sieve transform. -/
def sievePassDone (i order : Nat) (s : State) : State :=
  let e := planEntry s i
  let s := { s with sieve := { s.sieve with last := s.tick } }
  if e.busy = 0 ∨ e.order ≠ order then s else setPlan s i { e with busy := e.busy - 1 }

/-! Detection (R193 to R195). -/

/-- What a search correlates with: the carrier of a bin in Hz at the capture, the capture rate and the chip rate in thousands a
second, and the code phase of a cell at the first sample in 2^-48 chip. -/
structure SieveCell where
  hz : Rat
  rate : Nat
  kcps : Nat
  phase : Int

/-- The product of a captured sample, the `n`-th of its segment, with the replica of a cell (R129, R193). -/
def SieveCell.product (c : SieveCell) (sig sat : Nat) (store : List (Nat × Byte)) (w : BitVec 16) (n : Nat) : Rat × Rat :=
  let z := turned (Num.snap (-(c.hz * n) / (c.rate * 1000 : Nat))) (toSigned 8 (w.toNat % 2 ^ 8), toSigned 8 (w.toNat / 2 ^ 8))
  let r := (replica sig sat false false store 0 (c.phase + ((n * c.kcps * 2 ^ 48 / c.rate : Nat) : Int))).1
  (z.1 * r, z.2 * r)

/-- |X|² of a coherent segment at a cell (R193): the correlation itself, which the lanes work by transforms. (Assumption 33, DESIGN
CHOICE.) -/
def SieveCell.power (c : SieveCell) (sig sat : Nat) (store : List (Nat × Byte)) (seg : List (BitVec 16)) : Nat :=
  let x := seg.zipIdx.foldl (fun (a : Rat × Rat) w => let p := c.product sig sat store w.1 w.2; (a.1 + p.1, a.2 + p.2)) (0, 0)
  (x.1 * x.1 + x.2 * x.2).floor.toNat

/-- A capture's coherent segments of `n` samples (R193). -/
def coherentParts (n : Nat) : Nat → List (BitVec 16) → List (List (BitVec 16))
  | 0, _ => []
  | k + 1, l => l.take n :: coherentParts n k (l.drop n)

/-- The cells of a search (R192, R193): of each bin and code cell the sum of |X|² over the segments. Bins lie at Δ = 1/(2·TCOH). (Assumption 33, DESIGN CHOICE.) -/
def PlanEntry.cells (e : PlanEntry) (s : State) : List Cell :=
  match sigOf e.sig with
  | none => []
  | some g =>
    let b := e.binHalf
    let r := e.cellRange
    let rate := captureRate g.kcps
    let k := toSigned 8 (leAt (skySlot s e.sat) 2 1)
    let parts := coherentParts (rate * e.tcoh) e.nnc e.samples
    (List.range (2 * b + 1)).flatMap (fun (i : Nat) =>
      (List.range r.2).map (fun (j : Nat) =>
        let bin : Int := (i : Int) - b
        let cell : Int := (j : Int) + r.1
        let c : SieveCell := ⟨(sigOffset e.sig k * 500 : Int) + (e.dopC : Rat) / 4096 + (500 * bin : Int) / (e.tcoh : Rat), rate, g.kcps,
          (e.codC * 2 ^ 40 : Nat) + cell * (g.kcps * 2 ^ 48 : Nat) / rate⟩
        (bin, cell, (parts.map (c.power e.sig e.sat (codeStore s))).sum)))

/-- η × 16 of a search (R193). -/
def PlanEntry.eta (e : PlanEntry) : Nat := if e.bits 1 31 16 = 0 then defaultEta false e.nnc else e.bits 1 31 16

/-- An offset held within ± a limit. -/
def clampInt (m i : Int) : Int := if i < -m then -m else if m < i then m else i

/-- Code found in 2^-8 chip: `k` sixteenths of a sample from the centre of the window. -/
def PlanEntry.codeAt (e : PlanEntry) (k : Int) : Nat :=
  match sigOf e.sig with
  | none => 0
  | some g => (((e.codC : Int) + roundRat ((k : Rat) * (16 * g.kcps : Nat) / (captureRate g.kcps : Rat))) % (e.codeLen : Int)).toNat

/-- A search completes: no detection, a confirmation begun, or a confirmed detection reported or to be placed (R194). (Assumption 35, DESIGN CHOICE; assumption 71, DEDUCED.) -/
def searchDone (i : Nat) (s : State) : State :=
  let e := planEntry s i
  let cells := e.cells s
  let r := noiseMean (withoutPeaks 4 cells) s
  let s := r.2
  match bestCell cells with
  | none => sieveDone i ST.nosig s
  | some (b, c, p) =>
    let noise : Rat := r.1 / e.nnc
    let stat : Rat := if noise = 0 then 0 else (p : Rat) / noise
    let peak := satNat 0xFFFF (16 * stat).floor.toNat
    if stat * 16 < e.eta then
      sieveDone i (if e.conf then ST.weak else ST.nosig) (setPlan s i { e with peak := peak })
    else
      let near := [p, cellAt cells b (c - 1), cellAt cells b (c + 1), cellAt cells (b - 1) c, cellAt cells (b + 1) c]
      let kc := 16 * c + clampInt 8 (Config.sieveFit near 0)
      let kd := 8 * b + clampInt 4 (Config.sieveFit near 1)
      let dopp := e.dopC + roundRat ((kd : Rat) * 2048000 / (8 * e.tcoh : Nat))
      let code := e.codeAt kc
      let x : Rat := stat / e.nnc - 1
      let cn0 := centiDb ((x.num.toNat) * 1000) (x.den * e.tcoh)
      if e.flag 30 && !e.conf then
        captureBegin i (setPlan s i { e with conf := true, dopC := dopp, codC := code, peak := peak })
      else
        let s := setPlan s i { e with
          peak := peak, cn0 := cn0, dopp := BitVec.ofInt 32 dopp, code := BitVec.ofNat 32 code, state := 5, samples := [] }
        if e.flag 28 then s else sieveDone i ST.ok s

/-- The transforms of a search are all done. -/
def execSieveSearchDone (i : BitVec 7) (s : State) : Host.Outcome State Fault Refusal :=
  let e := planEntry s i.toNat
  .next (if e.searching && e.left == 0 && e.busy == 0 then searchDone i.toNat s else s)

/-! Hand-off (R155, R196, R197). -/

/-- The lowest of 16 hand-off slots of a ring that is free. -/
def handSlot (n : Nat) (s : State) : Option Nat :=
  (List.range 16).find? (fun k => !s.maskBit (R.TRK_RING_HANDOFF_PEND n) k)

/-- Channels of a ring that are not RUN. -/
def idleChannels (n : Nat) (s : State) : Nat := ((List.range 32).filter (fun c => chState (32 * n + c) s != 2)).length

/-- The ring a detection goes to: in the mask, powered, with a free slot, with the most channels not in RUN (R196). (Assumption 74, DEDUCED.) -/
def handRing (s : State) : Option Nat :=
  ((List.range 10).filter (fun n =>
      s.maskBit R.SIEVE_RING_MASK n && domainOn (5 + n) s && (handSlot n s).isSome)).foldl
    (fun (b : Option Nat) n =>
      match b with
      | some m => if idleChannels m s < idleChannels n s then some n else b
      | none => some n) none

/-- The bytes of a hand-off slot (R155, R196). -/
def handBytes (e : PlanEntry) (hseq : Nat) : List Byte :=
  [BitVec.ofNat 8 e.sat, BitVec.ofNat 8 e.sig, BitVec.ofNat 8 (e.chain + 4 * e.bits 0 21 20),
      BitVec.ofNat 8 (satNat 255 ((e.cn0 + 50) / 100))] ++ leBytes 8 e.t ++ leBytes 8 (e.code.toNat * 2 ^ 24) ++
    leBytes 4 e.dopp.toNat ++ leBytes 4 (roundRat ((1024000 : Rat) / e.tcoh)).toNat ++ [0, 0] ++ leBytes 2 hseq

/-- A detection is placed (R155, R196). (Assumption 74, DEDUCED.) -/
def execSieveHandoff (i : BitVec 7) (s : State) : Host.Outcome State Fault Refusal :=
  let e := planEntry s i.toNat
  .next (if e.state ≠ 5 then s
    else
      match handRing s with
      | none => s
      | some n =>
        match handSlot n s with
        | none => s
        | some k =>
          let h := s.sieve.hseq
          let s := s.setMemBytes (ringMem n + 0x1400 + 0x20 * k) (handBytes e h)
          let s := s.setMaskBit (R.TRK_RING_HANDOFF_PEND n) k true
          let s := { s with sieve := { s.sieve with hseq := (h + 1) % 2 ^ 16 } }
          sieveDone i.toNat ST.ok (setPlan s i.toNat { e with ring := n, hslot := k, hseq := h, issued := true }))

/-- No slot was free by T + 100 ms (R196). (Assumption 74, DEDUCED.) -/
def execSieveHandoffTimeout (i : BitVec 7) (s : State) : Host.Outcome State Fault Refusal :=
  let e := planEntry s i.toNat
  let past := toSigned 64 ((s.now64 + 2 ^ 64 - e.t) % 2 ^ 64)
  .next (if e.state = 5 ∧ (handRing s).isNone ∧ (2 ^ 32 / 10 : Int) ≤ past
    then raise 65 (sieveDone i.toNat ST.busy s) else s)

/-- A stale hand-off re-arms its entry (R197). -/
def opSieveStale (h : Nat) (s : State) : State :=
  match s.sieve.plan.find? (fun (x : Nat × PlanEntry) => x.2.issued && x.2.hseq == h) with
  | some (i, e) =>
    sieveStore i ((BitVec.ofNat 32 (winWord e.req 0 % 2 ^ 31 + 2 ^ 31)) :: e.req.drop 1) s
  | none => s

def execSieveStale (who : Reader) (h : BitVec 16) (s : State) : Host.Outcome State Fault Refusal :=
  .next (gate who R.SIEVE_STALE true (opSieveStale h.toNat) s)

/-! The automatic planner (R200). -/

/-- The signals the planner looks for. -/
def autoSigs (s : State) : List Nat :=
  ([(F.SIEVE_AUTO_SIG_EN0, F.SIEVE_AUTO_SIG_SIG0), (F.SIEVE_AUTO_SIG_EN1, F.SIEVE_AUTO_SIG_SIG1),
    (F.SIEVE_AUTO_SIG_EN2, F.SIEVE_AUTO_SIG_SIG2), (F.SIEVE_AUTO_SIG_EN3, F.SIEVE_AUTO_SIG_SIG3)].filterMap
      (fun (p : Fld × Fld) => if s.bit p.1 then some (s.fld p.2) else none)).eraseDups

/-- The request the planner writes for a signal (R200). (Assumption 73, DEDUCED.) -/
def autoReq (sig sat : Nat) (s : State) : List Word :=
  let ch := match sigOf sig with | some g => g.chain | none => 0
  BitVec.ofNat 32 (0xF8000000 + s.fld (F.GRF_CH_CTRL_PROFILE ch) * 2 ^ 20 + ch * 2 ^ 16 + sig * 2 ^ 8 + sat) ::
    BitVec.ofNat 32 (s.fld F.SIEVE_CFG_AUTO_NNC * 2 ^ 8 + unitMs sig) :: List.replicate 6 0

/-- A candidate of the planner: satellite, signal, elevation in 0.01°, whether it is in COLD. -/
abbrev AutoCand := Nat × Nat × Int × Bool

/-- The candidates (R200), highest elevation first; a healthy satellite is one whose slot is usable now (R264). (Assumption 73, DEDUCED.) -/
def autoCands (s : State) : List AutoCand :=
  let all := (autoSigs s).flatMap (fun sig =>
    (List.range 221).filterMap (fun sat =>
      let b := skySlot s sat
      let cold := windowMode { req := autoReq sig sat s } s.now80 s == 0
      let el : Int := toSigned 16 (leAt b 20 2)
      let taken := s.sieve.plan.any (fun (x : Nat × PlanEntry) => x.2.armed && x.2.sig == sig && x.2.sat == sat) ||
        (List.range 320).any (fun k => chState k s == 2 && s.fld (F.TRK_CH_CTRL_SIG k) == sig && s.fld (F.TRK_CH_CTRL_SAT k) == sat)
      if systemOf sat == some (sigSystem sig) && sieveReqOk (autoReq sig sat s) s && slotUsable b s.now80 &&
          (cold || decide ((100 * s.fld F.SIEVE_CFG_ELEV_MIN : Int) ≤ el)) && !satExcluded sat s && !taken
      then some (sat, sig, el, cold) else none))
  orderBy (fun (c : AutoCand) => (9000 - c.2.2.1).toNat) all

/-- The candidates with at most `n` in COLD. -/
def coldLimit : Nat → List AutoCand → List AutoCand
  | _, [] => []
  | n, c :: cs => if c.2.2.2 then (match n with | 0 => coldLimit 0 cs | m + 1 => c :: coldLimit m cs) else c :: coldLimit n cs

/-- Candidates are written into entries that are not armed. -/
def autoFill : List Nat → List AutoCand → State → State
  | i :: is, c :: cs, s => autoFill is cs (sieveStore i (autoReq c.2.1 c.1 s) s)
  | _, _, s => s

/-- The planner's period (R200). (Assumption 73, DEDUCED.) -/
def execAutoPlan (s : State) : Host.Outcome State Fault Refusal :=
  .next (if s.bit F.SIEVE_CFG_AUTO && s.bit F.SIEVE_CFG_EN && s.fld F.SIEVE_CFG_PERIOD != 0 then
      autoFill ((List.range 64).filterMap (fun k => if (planEntry s (64 + k)).armed then none else some (64 + k)))
        (coldLimit 8 (autoCands s)) s
    else s)

/-! Power (R199, R202). -/

/-- In LEAN, 10 ms after the last transform, lane group 0 stops (R199); a waiting search keeps it. -/
def execLeanGroup0Stop (s : State) : Host.Outcome State Fault Refusal :=
  .next (if pstate s = 1 ∧ domainOn (groupDomain 0) s ∧ s.sieve.last + 1200000 ≤ s.tick ∧ (sieveReady s).isNone ∧
      (List.range 8).all (fun l => (lane s l).work.isNone)
    then domainStop (groupDomain 0) s else s)

/-- Entry to BURST ends every search; each returns to QUEUED (R202). -/
def sieveBurst (s : State) : State :=
  s.sieve.plan.foldl (fun s (x : Nat × PlanEntry) =>
    if x.2.active then setPlan s x.1 { x.2 with state := 1, samples := [], got := [], left := 0, busy := 0, conf := false } else s) s

end Sys2Proof.Machine
end

