-- ==== Sys2Proof/Machine/Correlate.lean ====
section
/-! DEFINITION. The correlation engine (chapter 09): code spectrum profiles, windows, passes and their arbitration, detection,
solves, lane tests and lane power groups. -/
namespace Sys2Proof.Machine

/-! Profiles (R236 to R240). -/

/-- Grid points per ms of a profile. -/
def profGrid (p : Nat) (s : State) : Nat := 4096 * 2 ^ s.fld (F.CAR_PROF_CFG_GCODE p)

/-- Segment length of a profile in ms. -/
def profSeg (p : Nat) (s : State) : Nat := 2 ^ s.fld (F.CAR_PROF_CFG_TSEG p)

/-- Transform size of a profile. -/
def profSize (p : Nat) (s : State) : Nat := profGrid p s * profSeg p s

/-- First byte and length in bytes of a profile's region of the store. -/
def profRegion (p : Nat) (s : State) : Nat × Nat :=
  (s.fld (F.CAR_PROF_REGION_BASE p) * 1024, s.fld (F.CAR_PROF_REGION_SIZE p) * 1024)

/-- A profile is neither VALID nor DRAINING. -/
def profIdle (p : Nat) (s : State) : Bool := !s.bit (F.CAR_PROF_CFG_VALID p) && !s.bit (F.CAR_PROF_CFG_DRAINING p)

/-- Jobs that hold a profile (R239). -/
def profJobs (p : Nat) (s : State) : Nat := jobCount (fun j => j.prof == some p) s

/-- Code period in grid points, when it divides the transform size or is a multiple of it (R237). -/
def codePoints (g : Sig) (p : Nat) (s : State) : Option Nat :=
  let n := profSize p s
  let pts := g.len * profGrid p s / g.kcps
  if g.len * profGrid p s % g.kcps = 0 ∧ pts ≠ 0 ∧ (n % pts = 0 ∨ pts % n = 0) then some pts else none

/-- A directory record: OFFSET, FIRST, COUNT, SHARE (R238). -/
def dirRecord (p c : Nat) (s : State) : Nat × Nat × Nat × Bool :=
  let a := (profRegion p s).1 + 8 * c
  (leNat (s.memBytes a 4), (s.memByte (a + 4)).toNat, (s.memByte (a + 5)).toNat, (s.memByte (a + 6)).getLsbD 0)

/-- Bytes of a stored spectrum. -/
def specBytes (pts n : Nat) : Nat := 3 * min pts n

/-- Where the spectrum of a satellite's code lies in the store, if the profile holds it (R238, R240). -/
def specAt (p c sat : Nat) (s : State) : Option (Nat × Nat) :=
  match sigOf c with
  | none => none
  | some g =>
    match codePoints g p s with
    | none => none
    | some pts =>
      let d := dirRecord p c s
      let size := specBytes pts (profSize p s)
      let base := (profRegion p s).1 + d.1
      if d.1 = 0 ∨ d.2.2.1 = 0 then none
      else if d.2.2.2 then some (base, size)
      else if d.2.1 ≤ sat ∧ sat < d.2.1 + d.2.2.1 then some (base + (sat - d.2.1) * size, size)
      else none

/-- A code directory record names no reserved satellite index, and its reserved bits are 0 (R11, R22, R238). -/
def dirReservedOk (p c : Nat) (s : State) : Bool :=
  let a := (profRegion p s).1 + 8 * c
  decide ((s.memByte (a + 4)).toNat ≤ 220) && (s.memByte (a + 6)).toNat / 2 == 0 && s.memByte (a + 7) == 0

/-- The directory lies within the region, with every spectrum it names (R236, R238). (Assumption 83, DEDUCED.) -/
def dirInside (p : Nat) (s : State) : Bool :=
  let len := (profRegion p s).2
  decide (512 ≤ len) && (List.range 64).all (fun c =>
    let d := dirRecord p c s
    dirReservedOk p c s && (d.1 == 0 || d.2.2.1 == 0 ||
      match sigOf c with
      | none => false
      | some g =>
        match codePoints g p s with
        | none => false
        | some pts => decide (d.1 + (if d.2.2.2 then 1 else d.2.2.1) * specBytes pts (profSize p s) ≤ len)))

/-- Whether a profile may become VALID (R236). (Assumption 83, DEDUCED.) -/
def profOk (p : Nat) (s : State) : Bool :=
  let rate := s.fld (F.CAR_PROF_RATE_RATE_HZ p)
  let g := profGrid p s * 1000
  let n := profSize p s
  let r := profRegion p s
  decide (s.fld (F.CAR_PROF_CFG_TSEG p) ≤ 4) && decide (4096 ≤ n) && decide (n ≤ 65536) &&
    decide (rate ≤ g) && decide (g < 2 * rate) &&
    ([0, 1, 2].filter (fun q => q != p)).all (fun q =>
      let r' := profRegion q s
      s.fld (F.CAR_PROF_RATE_RATE_HZ q) != rate &&
        (r.2 == 0 || r'.2 == 0 || decide (r.1 + r.2 ≤ r'.1) || decide (r'.1 + r'.2 ≤ r.1))) &&
    dirInside p s

/-- A write of CAR_PROF_p_CFG: GCODE and TSEG while IDLE, then VALID set or cleared (R236, R239). -/
def opProfCfgWrite (p : Nat) (v : Word) (s : State) : State :=
  let idle := profIdle p s
  let s := if idle then (s.setFld (F.CAR_PROF_CFG_GCODE p) (v.toNat / 2 ^ 26)).setFld (F.CAR_PROF_CFG_TSEG p) (v.toNat / 2 ^ 23) else s
  if v.toNat.testBit 31 then
    if s.bit (F.CAR_PROF_CFG_VALID p) then s
    else if profOk p s then (s.setFld (F.CAR_PROF_CFG_VALID p) 1).setFld (F.CAR_PROF_CFG_DRAINING p) 0
    else flagEvent F.CAR_CORR_ERR_PROF_REFUSED 79 s
  else if s.bit (F.CAR_PROF_CFG_VALID p) then
    (s.setFld (F.CAR_PROF_CFG_VALID p) 0).setBit (F.CAR_PROF_CFG_DRAINING p) (profJobs p s != 0)
  else s

/-- A write of a profile's rate or region, ignored unless it is IDLE. (Assumption 83, DEDUCED.) -/
def opProfWrite (who : Reader) (p off : Nat) (v : Word) (s : State) : State :=
  if profIdle p s then plainWrite who off v s else s

def execProfileValidSet (who : Reader) (p : Fin 3) (v : Word) (s : State) : Host.Outcome State Fault Refusal :=
  .next (gate who (R.CAR_PROF_CFG p) true (opProfCfgWrite p (v ||| 0x80000000)) s)

def execProfileValidClear (who : Reader) (p : Fin 3) (v : Word) (s : State) : Host.Outcome State Fault Refusal :=
  .next (gate who (R.CAR_PROF_CFG p) true (opProfCfgWrite p (v &&& 0x7FFFFFFF)) s)

/-- The last job has left: the profile is IDLE (R239). -/
def execProfileDrained (p : Fin 3) (s : State) : Host.Outcome State Fault Refusal :=
  .next (if profJobs p s = 0 then s.setFld (F.CAR_PROF_CFG_DRAINING p) 0 else s)

/-- A store address lies in the region of a profile in use (R239). -/
def storeHeld (a : Nat) (s : State) : Bool :=
  [0, 1, 2].any (fun p => !profIdle p s && decide ((profRegion p s).1 ≤ a) && decide (a < (profRegion p s).1 + (profRegion p s).2))

/-- A byte is written into the code spectrum store, outside every region in use; the recorded CRC-32 of a region it falls into
lapses (R239, R255). -/
def storeByte (s : State) (x : Nat × Byte) : State :=
  if storeHeld x.1 s then s
  else
    let s := s.setMemBytes x.1 [x.2]
    [0, 1, 2].foldl (fun s p =>
      let r := profRegion p s
      if r.1 ≤ x.1 ∧ x.1 < r.1 + r.2 then { s with car := { s.car with crcs := Sparse.put (fun _ => none) s.car.crcs p none } } else s) s

/-- Bytes are written into the code spectrum store: those in a region in use are ignored, and STORE_WR set (R239). -/
def storePut (a : Nat) (bs : List Byte) (s : State) : State :=
  let xs := bs.zipIdx.map (fun b => (a + b.2, b.1))
  let hit := xs.any (fun x => storeHeld x.1 s)
  let s := xs.foldl storeByte s
  if hit then flagEvent F.CAR_CORR_ERR_STORE_WR 79 s else s

/-- The image loader records the CRC-32 of the spectra of every VALID profile (R255). (Assumption 82, DEDUCED.) -/
def recordCrcs (s : State) : State :=
  [0, 1, 2].foldl (fun s p =>
    if s.bit (F.CAR_PROF_CFG_VALID p) then
      let r := profRegion p s
      { s with car := { s.car with crcs := Sparse.put (fun _ => none) s.car.crcs p (some (crc32 (s.memBytes r.1 r.2)).toNat) } }
    else s) s

/-! Windows (R241 to R245, R254). -/

/-- Segments of a job on its profile (R235). -/
def jobSegs (j : Job) (p : Nat) (s : State) : Nat :=
  (gridLength j.snap (profGrid p s) + profSize p s - 1) / max 1 (profSize p s)

/-- Job scratch in use, of 1 MiB (R254). -/
def scratchUsed (s : State) : Nat := ((jobList s).map (fun e => e.2.scratch)).sum

/-- Scratch a job takes on entry to WINDOWS. -/
def jobScratch (j : Job) (s : State) : Nat :=
  match j.prof with | some p => 4 * jobSegs j p s * profSize p s * 3 | none => 0

/-- Lane work that has later segments of its job to come (R246). -/
def workGoesOn (k : Nat) (j : Job) (g : Nat) (w : Option LaneWork) : Bool :=
  match w with
  | some (.inv k' g' _ _ n) => k' == k && g' == g && decide (n + 1 < j.segs)
  | _ => false

/-- Lane work of a job that waits for its lane (R246). -/
def workWaits (k g : Nat) (w : Option LaneWork) : Bool :=
  match w with
  | some (.inv k' g' _ _ _) => k' == k && g' == g
  | _ => false

/-- Whether a job is in WINDOWS, or in CORRELATE with passes not started, later segments of a run included (R254). -/
def jobUnstarted (k : Nat) (j : Job) (s : State) : Bool :=
  j.state == 3 || (j.state == 4 && (j.fwdLeft != 0 || !j.invLeft.isEmpty ||
    s.car.lanes.any (fun l => workGoesOn k j (slotGen s k) l.2.work || workWaits k (slotGen s k) l.2.next)))

/-- A source's oldest QUEUED job. -/
def oldestQueued (j : Nat) (s : State) : Option (Nat × Job) :=
  (orderBy (fun (e : Nat × Job) => e.2.order) ((jobList s).filter (fun e => e.2.state == 2 && e.2.src == j))).head?

/-- Scratch permits a source's oldest QUEUED job to enter WINDOWS (R252, R254). -/
def scratchFits (j : Nat) (s : State) : Bool :=
  match oldestQueued j s with
  | some e => decide (scratchUsed s + jobScratch e.2 s ≤ 1048576)
  | none => false

/-- A source's oldest QUEUED job may enter WINDOWS now. -/
def windowsFree (j : Nat) (s : State) : Bool :=
  scratchFits j s && decide (((jobList s).filter (fun e => e.2.src == j && jobUnstarted e.1 e.2 s)).length < 2) && pstate s != 2

/-- A cycle record of the beacon's table, when the cycle is held (R361). -/
def cycleHeld (c : Nat) (s : State) : Option (List Byte) :=
  let r := Sparse.get (fun _ => List.replicate 32 0) s.bcn.cyc (c % 256)
  if (leAt r 8 1).testBit 0 && leAt r 0 4 == c then some r else none

/-- The capture instant of a job (R241, R362); none when its cycle is not held (R213 check 10). -/
def jobInstant (j : Job) (s : State) : Option Nat :=
  let d := j.desc
  if !descFlag d 2 then some (leAt d 40 8)
  else
    match cycleHeld (leAt d 20 4) s with
    | none => none
    | some r =>
      let len := leAt r 4 2
      let slot := leAt r 6 2
      let dig := sha256 ((r.drop 16).take 16 ++ (leBytes 4 (leAt d 16 4)).reverse)
      let h := leNat (dig.take 4).reverse
      let n := len * 10000 / max 1 slot
      let ns : Int := (leAt d 20 4 * len * 1000000000 + h % max 1 n * slot * 100000 : Nat) + toSigned 32 (leAt d 48 4)
      some ((ns * 2 ^ 32 / 1000000000) % 2 ^ 64).toNat

/-- The prior position of a descriptor in mm. -/
def descPos (d : List Byte) : List Int := [toSigned 64 (leAt d 56 8), toSigned 64 (leAt d 64 8), toSigned 64 (leAt d 72 8)]

/-- Satellites of a signal's system with a usable slot at an instant (R213 check 11, R264). -/
def usableSats (c t : Nat) (s : State) : List Nat :=
  (List.range 221).filter (fun i => systemOf i == some (sigSystem c) && slotUsable (skySlot s i) t)

/-- The pairs of a job that qualify but for R119, highest elevation first (R215): satellite, signal. -/
def jobPairs (d : List Byte) (t : Nat) (s : State) : List (Nat × Nat) :=
  let all := (maskSigs (descMask d)).flatMap (fun c => (usableSats c t s).filterMap (fun i =>
    let el := slotElev i (skySlot s i) t (descPos d) s
    if (leAt d 5 1 : Rat) ≤ el then some (el, i, c) else none))
  (orderBy (fun (p : Rat × Nat × Nat) => elevKey p.1 * 2 ^ 16 + p.2.1 * 64 + p.2.2) all).map (·.2)

/-- A link or host feature applies to a job (R212, R452). -/
def jobFeature (j : Job) (b : Nat) (s : State) : Bool :=
  descMajor j.desc != 1 &&
    (if j.src < 32 then s.maskBit R.CAR_FEAT_GRANT b else (s.fld (F.TRP_PORT_FEAT_GRANT (j.src - 32))).testBit b)

/-- XO_OFS of a descriptor as a fraction (R209, R242). -/
def descEps (d : List Byte) : Rat := (toSigned 32 (leAt d 84 4) : Rat) / 10 ^ 12

/-- What the orbit unit predicts of a candidate at the prior position and t_c (R242). -/
def candPredict (j : Job) (i c t : Nat) (s : State) : Predicted :=
  match sigOf c with
  | some g => predictAt (ionoRegs s) i (skySlot s i) (sysOffset i s) (secOf t) (posVec (descPos j.desc)) g.kcps g.len g.chain
      (carrierHz c i s)
  | none => ⟨0, 0, 0, 0⟩

/-- The Doppler half-width of a candidate in Hz, u_f given in 10^-13 (R243). (Assumption 79, DEDUCED.) -/
def candHalf (j : Job) (i c uf : Nat) (z : Predicted) (s : State) : Rat :=
  let d := j.desc
  let f : Rat := carrierHz c i s
  let rate : Rat := if z.rate < 0 then -z.rate else z.rate
  let hw := f * ((leAt d 88 4 : Rat) / 10 ^ 12 + (uf : Rat) / 10 ^ 13) + f / lightSpeed * z.vr * (leAt d 80 4 : Rat) +
    rate * (leAt d 52 4 : Rat) / 10 ^ 9 + (s.fld F.CAR_WIN_CFG_DOPP_GUARD : Rat)
  let cap := leAt d 104 4
  if jobFeature j 0 s ∧ cap ≠ 0 ∧ (cap : Rat) / 4096 < hw then (cap : Rat) / 4096 else hw

/-- The Doppler bins of a candidate and whether some were dropped (R242, R244). (Assumption 79, DEDUCED.) -/
def candBins (j : Job) (p i c uf : Nat) (z : Predicted) (s : State) : List Int × Bool :=
  let f := carrierHz c i s
  let dc : Rat := ((f : Int) - (leAt j.snap 8 4 : Int) : Int) + z.dopp - descEps j.desc * f
  let step : Rat := 250 / (profSeg p s : Rat)
  let b := 2 * (candHalf j i c uf z s / step + 1 / 2).ceil.toNat
  let b' := min b (s.fld F.CAR_WIN_CFG_BINS_MAX)
  let kc := (dc / step).floor
  let ks : List Int := (List.range b').map (fun (n : Nat) => kc - ((b' / 2 : Nat) : Int) + 1 + (n : Int))
  (ks.filter (fun k => decide (((Int.natAbs k : Nat) : Rat) * step * 100 ≤ 45 * (leAt j.snap 4 4 : Rat))), decide (b' < b))

/-- The code window of a candidate: first lag and number, and whether it was cut (R245). (Assumption 79, DEDUCED.) -/
def candWindow (j : Job) (p c k : Nat) (phi : Int) (s : State) : Int × Nat × Bool :=
  match sigOf c with
  | none => (0, 0, false)
  | some g =>
    match codePoints g p s with
    | none => (0, 0, false)
    | some pts =>
      let d := j.desc
      let pw := min pts (profSize p s)
      let gpc : Rat := (profGrid p s : Rat) / g.kcps
      let hw : Rat := (g.kcps * 1000 : Nat) * ((leAt d 52 4 : Rat) / 10 ^ 9 + (leAt d 80 4 : Rat) / lightSpeed) +
        (s.fld F.CAR_WIN_CFG_CODE_GUARD : Rat) / 8
      let h := (hw * gpc).ceil.toNat
      let mid := roundRat ((phi : Rat) / 2 ^ 32 * gpc)
      let cut := decide (1 < k) && decide (4096 < min (2 * h + 1) pw)
      if cut then ((mid - 2048) % (pw : Int), 4096, true)
      else if pw ≤ 2 * h + 1 then (0, pw, false)
      else ((mid - (h : Int)) % (pw : Int), 2 * h + 1, false)

/-- A candidate with its windows, and the flags it sets: bins dropped, code not held, window cut. Its code drifts by
N·(D_p/f − ε) grid points from one segment to the next (R246). (Assumption 31, DESIGN CHOICE; assumption 79, DEDUCED.) -/
def makeCand (j : Job) (p k t uf : Nat) (pair : Nat × Nat) (s : State) : Cand × Bool × Bool × Bool :=
  let (i, c) := pair
  let z := candPredict j i c t s
  let phi := Num.round (2 ^ 32 * z.chips)
  let held := (specAt p c i s).isSome
  let b := candBins j p i c uf z s
  let w := candWindow j p c k phi s
  let drift := Num.snap ((profSize p s : Rat) * (z.dopp / carrierHz c i s - descEps j.desc))
  ({ sat := i, sig := c, phi := phi, drift := drift, bins := b.1, lo := w.1, lags := w.2.1, held := held }, b.2, !held, held && w.2.2)

/-- A job enters WINDOWS: scratch, the deadline, checks 10 to 12, candidates and windows (R213, R215, R241 to R245). -/
def windowsEnter (k : Nat) (j : Job) (s : State) : State :=
  let s := setJob s k (some { j with state := 3, scratch := jobScratch j s, epoch := some s.sky.epochs })
  match jobInstant j s, j.prof with
    | none, _ => jobEnd k 0x21 0 s
    | _, none => jobEnd k 0x20 0 s
    | some tc, some p =>
      let t := s.widen tc
      let s := modJob k (fun j => { j with tc := some tc }) s
      if (maskSigs (descMask j.desc)).all (fun c => (usableSats c t s).isEmpty) then jobEnd k 0x22 0x51 s
      else
        let pairs := jobPairs j.desc t s
        let ok := (pairs.filter (fun q => !satExcluded q.1 s)).take (leAt j.desc 4 1)
        let s := modJob k (fun j => { j with suspect := pairs.any (fun q => satExcluded q.1 s) }) s
        if ok.isEmpty then jobEnd k ST.empty 0x03 s
        else if deadlinePassed j.desc s then jobEnd k ST.deadline 0x41 s
        else
          let n := jobSegs j p s
          let fu := freqUnc s
          let s := fu.2
          let made := ok.map (fun q => makeCand j p n t fu.1 q s)
          let s := if made.any (fun m => m.2.1) then flagEvent F.CAR_CORR_ERR_BINS_CLIP 79 s else s
          let s := if made.any (fun m => m.2.2.1) then flagEvent F.CAR_CORR_ERR_NOCODE 79 s else s
          let s := if made.any (fun m => m.2.2.2) then flagEvent F.CAR_CORR_ERR_WIN_CUT 79 s else s
          modJob k (fun j => { j with cands := made.map (·.1), segs := n }) s

/-- Whether a job has a ready pass. -/
def jobReady (j : Job) : Bool := j.state == 4 && j.ending.isNone && (j.fwdLeft != 0 || (j.fwdBusy == 0 && !j.invLeft.isEmpty))

/-- A source has a ready pass; CAL always has one (R252, R255). (Assumption 82, DEDUCED.) -/
def srcReady (j : Nat) (s : State) : Bool := j == 34 || (jobList s).any (fun e => e.2.src == j && jobReady e.2)

/-- A source is backlogged (R252). -/
def backlogged (j : Nat) (s : State) : Bool := srcReady j s || (j != 34 && scratchFits j s)

/-- Sources that have become backlogged take the system virtual time when theirs is behind (R252). -/
def backlogSync (s : State) : State :=
  let now := (List.range 35).filter (fun j => backlogged j s)
  let vt := now.foldl (fun (m : Sparse Rat) j =>
    if s.car.backlog.contains j then m
    else
      let v := Sparse.get (fun _ => 0) m j
      Sparse.put (fun _ => 0) m j (if v < s.car.vnow then s.car.vnow else v)) s.car.vt
  { s with car := { s.car with vt := vt, backlog := now } }

/-- A source's oldest QUEUED job enters WINDOWS, when the source comes first among those that may (R254). -/
def execWindowsEntry (j : Fin 34) (s : State) : Host.Outcome State Fault Refusal :=
  let s := backlogSync s
  .next (if windowsFree j.val s && srcPick ((List.range 34).filter (fun i => windowsFree i s)) s == some j.val then
      match oldestQueued j.val s with
      | some (k, b) => windowsEnter k b s
      | none => s
    else s)

/-- The distinct sub-bin offsets of a job's candidates whose codes are held (R244). (Assumption 79, DEDUCED.) -/
def jobOffsets (j : Job) : Nat :=
  ((List.range 4).filter (fun (r : Nat) => j.cands.any (fun c => c.held && c.bins.any (fun k => k % 4 == (r : Int))))).length

/-- WINDOWS ends: the scratch of unused offsets is returned and the job's passes are ready (R244, R246, R254). -/
def execWindowsDone (slot : BitVec 14) (s : State) : Host.Outcome State Fault Refusal :=
  let k := slot.toNat
  .next (match jobAt s k with
    | none => s
    | some j =>
      if j.state ≠ 3 then s
      else if deadlinePassed j.desc s then jobEnd k ST.deadline 0x41 s
      else
        let f := jobOffsets j
        let n := match j.prof with | some p => profSize p s | none => 0
        let inv := (j.cands.zipIdx).flatMap (fun c => if c.1.held then (List.range c.1.bins.length).map (fun b => (c.2, b)) else [])
        setJob s k (some { j with
          state := 4, epoch := none, scratch := f * j.segs * n * 3, fwdLeft := f * j.segs, invLeft := inv }))

/-! Passes and arbitration (R246, R250 to R255). -/

/-- The system virtual time: the least of the weighted backlogged sources', unchanged when there is none (R252). (Assumption 82, DEDUCED.) -/
def vnowSync (s : State) : State :=
  let vs := (s.car.backlog.filter (fun j => srcWeight j s != 0)).map (fun j => srcTime j s)
  match vs with
  | [] => s
  | v :: rest => { s with car := { s.car with vnow := rest.foldl (fun a b => if b < a then b else a) v } }

/-- The first of some sources by group PRIO, then by number (R252). -/
def prioPick (l : List Nat) (s : State) : Option Nat :=
  (orderBy (fun j => s.fld (F.CAR_GROUP_CFG_PRIO (srcGroup j s)) * 64 + j) l).head?

/-- The source that is served next (R252). (Assumption 48, DESIGN CHOICE; assumption 82, DEDUCED.) -/
def passSource (s : State) : Option Nat :=
  let ready := s.car.backlog.filter (fun j => srcReady j s)
  match srcPick (ready.filter (fun j => srcWeight j s != 0)) s with
  | some j => some j
  | none => prioPick (ready.filter (fun j => srcWeight j s == 0)) s

/-- The oldest job of a source with a ready pass. -/
def passJob (j : Nat) (s : State) : Option (Nat × Job) :=
  (orderBy (fun (e : Nat × Job) => e.2.order) ((jobList s).filter (fun e => e.2.src == j && jobReady e.2))).head?

/-- Transform size of a job. -/
def jobSize (j : Job) (s : State) : Nat := match j.prof with | some p => profSize p s | none => 0

/-- The Carousel's budget of a window in lane cycles (R250). -/
def carBudget (s : State) : Nat := s.fld F.CAR_LANE_CFG_BUDGET * 7680000

/-- A pass waits for the next window: BUDGET_HIT once in a window (R250). -/
def budgetHit (s : State) : State :=
  if s.car.hit then s
  else
    let was := s.bit F.CAR_CORR_ERR_BUDGET_HIT
    let s := { s with car := { s.car with hit := true } }.setFld F.CAR_CORR_ERR_BUDGET_HIT 1
    if was then s else raise 79 s

/-- A source's virtual time and the window's usage take a pass's cost (R252). -/
def passCharge (j cost : Nat) (s : State) : State :=
  let w := srcWeight j s
  let s := { s with car := { s.car with used := s.car.used + cost } }
  let s := if w = 0 then s else
    { s with car := { s.car with vt := Sparse.put (fun _ => 0) s.car.vt j (srcTime j s + (cost : Rat) / w) } }
  vnowSync (backlogSync s)

/-- A job's next pass starts on a lane. -/
def jobPass (l k : Nat) (j : Job) (cost : Nat) (s : State) : State :=
  let g := slotGen s k
  if j.fwdLeft ≠ 0 then
    laneRun l (.fwd k g) (setJob s k (some { j with fwdLeft := j.fwdLeft - 1, fwdBusy := j.fwdBusy + 1, lcyc := j.lcyc + cost }))
  else
    match j.invLeft with
    | [] => s
    | (c, b) :: rest =>
      laneRun l (.inv k g c b 0) (setJob s k (some { j with invLeft := rest, invBusy := j.invBusy + 1, lcyc := j.lcyc + cost }))

/-- The lane's test is due (R255). -/
def testDue (l : Nat) (s : State) : Bool :=
  let t := s.fld F.CAR_ARB_CAL_TEST_INT
  t != 0 && decide ((lane s l).tested + t * 120000000 ≤ s.tick)

/-- A job whose lanes have all reached a boundary ends as decided, or by its deadline (R223, R224); a host's job that a
function-level reset ended is freed there without a record (R232). -/
def passBoundary (k : Nat) (s : State) : State :=
  match jobAt s k with
  | none => s
  | some j =>
    match j.ending with
    | some (st, dt) =>
      if jobBusy j then s else if j.silent ∧ j.src < 32 then jobFree k true s else jobEnd k st dt s
    | none => if j.state = 4 ∧ deadlinePassed j.desc s then jobEnd k ST.deadline 0x41 s else s

/-- The inverse work a lane must go on with: its job, when it still runs (R246). -/
def laneNext (l : Nat) (s : State) : Option (Nat × Job × Nat × Nat × Nat) :=
  match (lane s l).next with
  | some (.inv k g c b n) =>
    match jobAt s k with
    | some j => if slotGen s k = g ∧ j.state = 4 ∧ j.ending.isNone then some (k, j, c, b, n) else none
    | none => none
  | _ => none

/-- Work a lane need not go on with is dropped. -/
def nextDrop (l : Nat) (s : State) : State :=
  match (lane s l).next with
  | some (.inv k g _ _ _) =>
    let s := setLane s l { lane s l with next := none }
    if slotGen s k = g then passBoundary k (modJob k (fun j => { j with invBusy := j.invBusy - 1 }) s) else s
  | _ => s

/-- The Carousel's next pass on a free lane (R252). -/
def carPass (l : Nat) (s : State) : State :=
  match laneNext l s with
  | some (k, j, c, b, n) =>
    let cost := passCost (jobSize j s)
    if carBudget s < s.car.used + cost then budgetHit s
    else
      let s := setJob (setLane s l { lane s l with next := none }) k (some { j with lcyc := j.lcyc + cost })
      passCharge j.src cost (laneRun l (.inv k (slotGen s k) c b n) s)
  | none =>
    let s := backlogSync (nextDrop l s)
    match passSource s with
    | none => s
    | some 34 =>
      let cost := passCost 4096
      if carBudget s < s.car.used + cost then budgetHit s else passCharge 34 cost (laneRun l .cal s)
    | some src =>
      match passJob src s with
      | none => s
      | some (k, j) =>
        let cost := passCost (jobSize j s)
        if carBudget s < s.car.used + cost then budgetHit s else passCharge src cost (jobPass l k j cost s)

/-- A free lane starts a pass: the Sieve's first; a lane whose test is due waits for it; else, in RUN, the Carousel's (R252, R255,
R258). -/
def execPassStart (lane : Fin 64) (s : State) : Host.Outcome State Fault Refusal :=
  .next (if !laneFree lane.val s then s
    else
      match sieveStart lane.val s with
      | (true, s) => s
      | (false, s) => if testDue lane.val s || pstate s != 0 then s else carPass lane.val s)

/-- A profile whose spectra no longer match the CRC-32 recorded at their loading is invalidated (R255). -/
def spectrumCheck (p : Nat) (s : State) : State :=
  match Sparse.get (fun _ => none) s.car.crcs p with
  | none => s
  | some crc =>
    let r := profRegion p s
    if !s.bit (F.CAR_PROF_CFG_VALID p) || (crc32 (s.memBytes r.1 r.2)).toNat == crc then s
    else
      flagEvent F.CAR_CORR_ERR_PROF_REFUSED 79
        ((s.setFld (F.CAR_PROF_CFG_VALID p) 0).setBit (F.CAR_PROF_CFG_DRAINING p) (profJobs p s != 0))

/-- Work of a failed lane is to be done again if its job is still in CORRELATE (R255). (Assumption 82, DEDUCED.) -/
def passRedo (x : Nat × Nat × Nat × Nat) (s : State) : State :=
  match jobAt s x.1 with
  | none => s
  | some j =>
    if slotGen s x.1 ≠ x.2.1 ∨ j.state ≠ 4 ∨ j.ending.isSome then s
    else if x.2.2.1 = 64 then setJob s x.1 (some { j with fwdLeft := j.fwdLeft + 1 })
    else setJob s x.1 (some { j with invLeft := j.invLeft ++ [x.2.2] })

/-- A lane's test ends (R255): passed, or the lane is out of service and its passes are repeated elsewhere. (Assumption 82, DEDUCED.) -/
def laneTested (l : Nat) (pass : Bool) (s : State) : State :=
  let x := lane s l
  if pass then setLane s l { x with tested := s.tick, since := [], idle := s.tick }
  else
    let part := match x.next with | some (.inv k g c b _) => [(k, g, c, b)] | _ => []
    let s := part.foldl (fun s e => modJob e.1 (fun j => { j with invBusy := j.invBusy - 1 }) s) s
    let s := (part ++ x.since).foldl (fun s e => passRedo e s) s
    let s := setLane s l { x with since := [], next := none, tested := s.tick }
    flagEvent F.CAR_CORR_ERR_LANE_FAULT 79
      (s.setMaskBit (if l < 32 then R.CAR_LANE_FAULT_LO else R.CAR_LANE_FAULT_HI) (l % 32) true)

/-- A lane group is gated between passes. -/
def groupStop (g : Nat) (s : State) : State :=
  domainStop (groupDomain g) ((List.range 8).foldl (fun s i => setLane s (8 * g + i) { lane s (8 * g + i) with work := none, next := none }) s)

/-- Every lane of a group stands at a pass boundary. -/
def groupIdle (g : Nat) (s : State) : Bool := (List.range 8).all (fun i => (lane s (8 * g + i)).work.isNone)

/-- In LEAN a group above 0 is gated once its last pass has ended (R199, R233, R258). (Assumption 123, DEDUCED.) -/
def leanGate (g : Nat) (s : State) : State :=
  if pstate s = 1 ∧ g ≠ 0 ∧ domainOn (groupDomain g) s ∧ groupIdle g s then groupStop g s else s

/-- A lane completes its pass (R233, R246); a calibration pass tests its lane, by its answer `good`, and checks the profiles (R255). (Assumption 82, DEDUCED.) -/
def passEnd (l : Nat) (good : Bool) (w : LaneWork) (s : State) : State :=
  let s := setLane s l { lane s l with work := none, idle := s.tick }
  let note (s : State) (x : Nat × Nat × Nat × Nat) := setLane s l { lane s l with since := x :: (lane s l).since }
  match w with
  | .sieve i o => sievePassDone i o s
  | .cal => [0, 1, 2].foldl (fun s p => spectrumCheck p s) (laneTested l good s)
  | .fwd k g =>
    if slotGen s k ≠ g then s
    else passBoundary k (note (modJob k (fun j => { j with fwdBusy := j.fwdBusy - 1 }) s) (k, g, 64, 0))
  | .inv k g c b n =>
    if slotGen s k ≠ g then s
    else
      match jobAt s k with
      | none => s
      | some j =>
        if n + 1 < j.segs ∧ j.ending.isNone ∧ j.state = 4 then
          passBoundary k (setLane s l { lane s l with next := some (.inv k g c b (n + 1)) })
        else passBoundary k (note (modJob k (fun j => { j with invBusy := j.invBusy - 1 }) s) (k, g, c, b))

def execPassDone (p : PassEnd) (s : State) : Host.Outcome State Fault Refusal :=
  .next (match (lane s p.lane.val).work with
    | none => s
    | some w => leanGate (p.lane.val / 8) (backlogSync (passEnd p.lane.val p.good w s)))

/-- A lane untested for TEST_INT seconds runs its test at its next boundary, unless a Sieve transform goes first. -/
def execLaneTest (lane : Fin 64) (pass : Bool) (s : State) : Host.Outcome State Fault Refusal :=
  let first := match sieveReady s with
    | some i => decide (s.sieve.used + passCost (planEntry s i).size ≤ sieveBudget s)
    | none => false
  .next (if laneFree lane.val s && testDue lane.val s && !first then laneTested lane.val pass s else s)

/-- A new window of 100 ms: usage restarts (R198, R250). -/
def execLaneWindow (s : State) : Host.Outcome State Fault Refusal :=
  .next { s with
    sieve := { s.sieve with used := 0, capped := false }
    car := { s.car with used := 0, hit := false } }

/-! Detection and solve (R246 to R249, R275 to R286). -/

/-- Cells of one bin of a candidate: bin, lag from the window's start, power (R246). (Assumption 33, DESIGN CHOICE.) -/
def binCells (c : Cand) (pw : Nat) (ps : List Nat) (k : Int) : List Cell :=
  (List.range c.lags).map (fun (i : Nat) => (k, (i : Int), lagPower ps ((c.lo + (i : Int)) % ((max 1 pw : Nat) : Int)).toNat))

/-- The noise mean of one segment for a bin of a candidate (R247). (Assumption 37, DEDUCED.) -/
def binNoise (segs : Nat) (c : Cand) (pw : Nat) (ps : List Nat) (cells : List Cell) (s : State) : Rat × State :=
  if c.lags + 528 ≤ pw then
    let mid := c.lo + ((c.lags / 2 : Nat) : Int) + ((pw / 2 : Nat) : Int) - 256
    let far := (List.range 512).map (fun (i : Nat) => lagPower ps ((mid + (i : Int)) % (pw : Int)).toNat)
    ((far.sum : Rat) / (512 * max 1 segs : Nat), s)
  else
    let r := noiseMean (withoutPeaks 4 cells) s
    (r.1 / (max 1 segs : Nat), r.2)

/-- A job's forward spectra by sub-bin offset, each of every segment, where some bin needs them (R244, R246). -/
def jobSpectra (j : Job) (p : Nat) (s : State) : List (List Block) :=
  let segs := snapSegments j.snap (profGrid p s) (profSize p s)
  (List.range 4).map (fun (r : Nat) => if j.cands.any (fun c => c.bins.any (fun k => k % 4 == (r : Int))) then segs.map (forwardPass r) else [])

/-- √q in 2^-16, rounded down. (Assumption 80, DEDUCED.) -/
def ratSqrt (q : Rat) : Int := (Nat.sqrt (q.num.toNat * 2 ^ 32 / q.den) : Nat)

/-- The offset of a parabola's top through three values, in `n`-ths of a step, held within a half (R249). (Assumption 80, DEDUCED.) -/
def parabola (n : Nat) (l m r : Int) : Int :=
  let d := l - 2 * m + r
  if d = 0 then 0 else clampInt ((n / 2 : Nat) : Int) (roundRat ((n : Rat) * ((l - r : Int) : Rat) / ((2 * d : Int) : Rat)))

/-- S of every cell of a candidate: bin index, lag index, S (R247). (Assumption 80, DEDUCED.) -/
def candStats (segs : Nat) (c : Cand) (pw : Nat) (code : List Cplx) (fwd : List (List Block)) (s : State) :
    List (Nat × Nat × Rat) × State :=
  c.bins.zipIdx.foldl (fun (acc : List (Nat × Nat × Rat) × State) (b : Int × Nat) =>
    let ps := binPowers code b.1 c.drift (fwd.getD (b.1 % 4).toNat [])
    let cells := binCells c pw ps b.1
    let nz := binNoise segs c pw ps cells acc.2
    (acc.1 ++ cells.map (fun x => (b.2, x.2.1.toNat, if nz.1 = 0 then 0 else (x.2.2 : Rat) / nz.1)), nz.2)) ([], s)

/-- S of a cell, 0 outside the window. -/
def statAt (l : List (Nat × Nat × Rat)) (b i : Nat) : Rat :=
  match l.find? (fun x => x.1 == b && x.2.1 == i) with
  | some x => x.2.2
  | none => 0

/-- The best cell. -/
def bestStat (l : List (Nat × Nat × Rat)) : Option (Nat × Nat × Rat) :=
  l.foldl (fun (m : Option (Nat × Nat × Rat)) x =>
    match m with
    | some y => if y.2.2 < x.2.2 then some x else m
    | none => some x) none

/-- η × 16 of a job (R248). -/
def carEta (segs : Nat) (s : State) : Nat :=
  if s.fld F.CAR_DET_CFG_THRESH = 0 then defaultEta true segs else s.fld F.CAR_DET_CFG_THRESH

/-- The code phase of a lag in 2^-32 chip (R245 step 5, R249); `q` is the lag in 1/16. -/
def lagPhase (g : Sig) (pts n : Nat) (phi : Int) (grid : Nat) (q : Int) : Nat :=
  let per (x : Rat) : Int := roundRat (x * (g.kcps : Rat) * 2 ^ 32 / ((16 * grid : Nat) : Rat))
  let len : Int := (g.len * 2 ^ 32 : Nat)
  if pts ≤ n then (per q % len).toNat
  else
    let fold : Int := per ((16 * n : Nat) : Rat)
    let a := per q
    ((a + roundRat (((phi - a : Int) : Rat) / (fold : Rat)) * fold) % len).toNat

/-- The measurement entry of a candidate, when it is detected (R221, R248, R249). -/
def candMeas (j : Job) (p : Nat) (fwd : List (List Block)) (c : Cand) (s : State) : Option (List Byte) × State :=
  match sigOf c.sig, specAt p c.sig c.sat s with
  | some g, some (a, size) =>
    match codePoints g p s with
    | none => (none, s)
    | some pts =>
      let pw := min pts (profSize p s)
      let st := candStats j.segs c pw (codeSpectrum (s.memBytes a size) pw (profSize p s)) fwd s
      match bestStat st.1 with
      | none => (none, st.2)
      | some (b, i, v) =>
        if v * 16 < carEta j.segs s then (none, st.2)
        else
          let y (b i : Nat) : Int := ratSqrt (statAt st.1 b i)
          let dl := if i = 0 ∨ i + 1 = c.lags then 0 else parabola 16 (y b (i - 1)) (y b i) (y b (i + 1))
          let dd := if b = 0 ∨ b + 1 = c.bins.length then 0 else parabola 8 (y (b - 1) i) (y b i) (y (b + 1) i)
          let lag : Int := (c.lo + (i : Int)) % (pw : Int)
          let code := lagPhase g pts (profSize p s) c.phi (profGrid p s) (16 * lag + dl)
          let ofs : Int := (carrierHz c.sig c.sat s : Int) - (leAt j.snap 8 4 : Int)
          let dopp := roundRat (((8 * (c.bins.getD b 0) + dd : Int) : Rat) * 250 * 512 / (profSeg p s : Rat)) - ofs * 4096
          let x : Rat := v / (max 1 j.segs : Nat) - 1
          let snapT : Rat := (leAt j.snap 12 4 : Rat) / (max 1 (leAt j.snap 4 4) : Nat)
          let tc : Rat := if snapT * 1000 < (profSeg p s : Rat) then snapT else (profSeg p s : Rat) / 1000
          let r : Rat := if x ≤ 0 ∨ tc = 0 then 0 else x / tc
          let flags := (if verdict c.sat s = 0 then 2 else 0) + (if verdict c.sat s = 1 then 4 else 0)
          (some ([BitVec.ofNat 8 c.sat, BitVec.ofNat 8 c.sig, BitVec.ofNat 8 flags, BitVec.ofNat 8 (satNat 255 (4 * v).floor.toNat)] ++
            leBytes 2 (centiDb r.num.toNat r.den) ++ leBytes 2 0 ++ leBytes 8 code ++ leBytes 4 (ofSigned 32 dopp) ++
            leBytes 4 0), st.2)
  | _, _ => (none, s)

/-- The measurement entries of a job, in candidate order. (Assumption 80, DEDUCED.) -/
def jobMeas (j : Job) (p : Nat) (s : State) : List (List Byte) × State :=
  let fwd := jobSpectra j p s
  j.cands.foldl (fun (acc : List (List Byte) × State) c =>
    if !c.held || c.bins.isEmpty then acc
    else
      let m := candMeas j p fwd c acc.2
      (acc.1 ++ m.1.toList, m.2)) ([], s)

/-- A measurement entry's observed pseudorange within one primary period, and the period, in metres: of a signal received at
`t` in its system's time (R275). -/
def codeRange (m : List Byte) (t : Rat) : Rat × Rat :=
  match sigOf (leAt m 1 1 % 64) with
  | none => (0, 1)
  | some g =>
    let period : Rat := (g.len : Rat) / (g.kcps * 1000 : Nat)
    let code : Rat := (leAt m 8 8 : Rat) / 2 ^ 32 / (g.kcps * 1000 : Nat)
    (Num.snap ((lightSpeed : Rat) * (t - period * (t / period).floor - code)), (lightSpeed : Rat) * period)

/-- The row of a measurement entry before integer resolution, and its period in metres (R275). -/
def jobRow (groups : List Nat) (t : Nat) (m : List Byte × Nat) (s : State) : SolRow × Rat :=
  let i := leAt m.1 0 1
  let c := leAt m.1 1 1 % 64
  let x := match sigOf c with | some g => g.chain | none => 0
  let r := codeRange m.1 (secOf t + sysOffset i s)
  ({ entry := m.2, sat := i, slot := skySlot s i, ofs := sysOffset i s, obs := r.1, parts := [(1, x, carrierHz c i s)]
     dopp := (toSigned 32 (leAt m.1 16 4) : Rat) / 4096, cn0 := (leAt m.1 4 2 : Rat) / 100
     group := (groups.findIdx? (· == clockGroup true i)).getD 0 }, r.2)

/-- Rows with their whole numbers of periods resolved at the prior, the reference the highest by elevation there (R275). -/
def resolvedRows (e : SolEnv) (prior : Vec) (t : Nat) (pos : List Int) (rows : List (SolRow × Rat)) (s : State) : List SolRow :=
  let byEl := orderBy (fun (r : SolRow × Rat) => elevKey (slotElev r.1.sat r.1.slot t pos s)) rows
  let whole := resolveInts (byEl.map (fun r => (r.1.obs, r.2, predictRange e prior r.1)))
  (byEl.zip whole).map (fun x => { x.1.1 with obs := x.2 })

/-- The measurement entries that give rows: their slot is usable at t_c, and the satellite is not excluded (R119, R278). -/
def rowEntries (t : Nat) (ms : List (List Byte)) (s : State) : List (List Byte × Nat) :=
  ms.zipIdx.filter (fun m => slotUsable (skySlot s (leAt m.1 0 1)) t && !satExcluded (leAt m.1 0 1) s)

/-- The solve of a job as it is set up (R275 to R278, R280). (Assumption 156, DESIGN CHOICE.) (Assumption 32, DEDUCED; assumption 81, DEDUCED.) -/
def jobSetup (j : Job) (ms : List (List Byte)) (s : State) : SolveSetup :=
  let d := j.desc
  let t := s.widen (j.tc.getD 0)
  let sel := rowEntries t ms s
  let gs := groupsOf true (sel.map (fun m => leAt m.1 0 1))
  let prior := posVec (descPos d)
  let env := solEnv t none false (descFlag d 3) (descFlag d 4) gs.length s
  let ambig := decide (100 * 10 ^ 12 ≤ leAt d 80 4 * 10 ^ 9 + 1800 * leAt d 52 4)
  { env := env, rows := resolvedRows env prior t (descPos d) (sel.map (fun m => jobRow gs t m s)) s
    x0 := ⟨prior, gs.map (fun _ => 0), 0, descEps d⟩, groups := gs
    early := if sel.length < env.codeN ∨ sel = [] then some 1 else if ambig then some 2 else none
    tfix := j.tc.getD 0, heldUnc := 0 }

/-- A measurement entry after the solve: MFLAGS[0], and with feature RESID the residual of its row against a converged fix in 0.1 m,
saturating (R221, R281). (Assumption 81, DEDUCED.) -/
def measSolved (p : SolveSetup) (resid : Bool) (m : List Byte × Nat) : List Byte :=
  let z := p.solved
  let b := putAt m.1 2 [BitVec.ofNat 8 (leAt m.1 2 1 + (if z.rows.any (fun r => r.entry == m.2) then 1 else 0))]
  match p.rows.find? (fun r => r.entry == m.2) with
  | some r =>
    if resid && z.outcome == 0 then
      putAt b 6 (leBytes 2 (ofSigned 16 (max (-32768) (min 32767 (Num.round (10 * (rowAt p.env z.x r).code.res))))))
    else b
  | none => b

/-- The passes of a job are all done. -/
def passesDone (j : Job) : Bool := j.state == 4 && j.fwdLeft == 0 && j.invLeft.isEmpty && !jobBusy j && j.ending.isNone

/-- A job whose passes are done enters SOLVE: its measurements, and on a free engine its fix; a waiting live solve goes first (R249,
R285). (Assumption 86, DEDUCED.) -/
def solveStart (k : Nat) (j : Job) (s : State) : State :=
  match j.prof with
  | none => s
  | some p =>
    let ms := jobMeas j p s
    let j' := { j with state := 5, prof := none, scratch := 0, epoch := some s.sky.epochs }
    if !descFlag j.desc 0 || ms.1.isEmpty then setJob ms.2 k (some { j' with meas := ms.1 })
    else if 4 ≤ enginesBusy s ∨ s.sky.wait ≠ [] then s
    else
      let su := jobSetup j ms.1 ms.2
      let out := ms.1.any (fun m => satExcluded (leAt m 0 1) ms.2)
      setJob ms.2 k (some { j' with
        meas := ms.1.zipIdx.map (measSolved su (jobFeature j 1 ms.2)), fix := fixRecord su, suspect := j.suspect || out })

def execSolveStart (slot : BitVec 14) (s : State) : Host.Outcome State Fault Refusal :=
  let k := slot.toNat
  .next (match jobAt s k with
    | none => s
    | some j =>
      if !passesDone j then s
      else if deadlinePassed j.desc s then jobEnd k ST.deadline 0x41 s
      else solveStart k j s)

/-- A solve ends, also one that its deadline or a cancel ended in this FS tick (R225): the job's status (R218, R219, R282). (Assumption 23, DESIGN CHOICE.) -/
def execSolveDone (slot : BitVec 14) (s : State) : Host.Outcome State Fault Refusal :=
  let k := slot.toNat
  .next (match jobAt s k with
    | none => s
    | some j =>
      if !(j.state == 5 || (j.state == 6 && j.was == 5 && mayDecide j ST.ok 0 s)) then s
      else if j.meas.isEmpty then jobEnd k ST.nosig 0 s
      else
        let o := leAt j.fix 0 1
        let s := modJob k (fun j => { j with
          meas := if descFlag j.desc 1 then j.meas else [], fix := if o = 1 then [] else j.fix }) s
        if j.fix.isEmpty ∨ o = 0 then jobEnd k ST.ok 0 s
        else if o = 1 then jobEnd k ST.weak 0 s
        else jobEnd k 0x23 0 s)

/-! Lane power groups (R257, R258). -/

/-- A group with a lane in service. -/
def groupSound (g : Nat) (s : State) : Bool := (List.range 8).any (fun i => !laneFaulty (8 * g + i) s)

/-- The lowest group that is off, not asked for, and has a lane in service. -/
def groupNext (s : State) : Option Nat :=
  (List.range 8).find? (fun g => !domainOn (groupDomain g) s && !startQueued (groupDomain g) s && groupSound g s)

/-- Powered groups, those whose start waits included. -/
def groupsOn (s : State) : Nat :=
  ((List.range 8).filter (fun g => domainOn (groupDomain g) s || startQueued (groupDomain g) s)).length

/-- Passes ready, of the Carousel and the Sieve. -/
def passesReady (s : State) : Nat :=
  ((jobList s).map (fun e => if !jobReady e.2 then 0 else if e.2.fwdLeft != 0 then e.2.fwdLeft else e.2.invLeft.length)).sum +
    (s.sieve.plan.map (fun (x : Nat × PlanEntry) => if x.2.searching then x.2.left else 0)).sum

/-- Every powered lane in service is busy. -/
def lanesBusy (s : State) : Bool := (List.range 64).all (fun l => !laneFree l s)

/-- In RUN, MIN_ON groups are kept powered, and one more is asked for while 8 passes are ready and every lane is busy
(R257). -/
def execLaneGroupRequest (s : State) : Host.Outcome State Fault Refusal :=
  .next (if pstate s = 0 ∧ s.pwr.trans ≠ some 1 ∧ (groupsOn s < s.fld F.CAR_LANE_CFG_MIN_ON ∨ (8 ≤ passesReady s ∧ lanesBusy s)) then
      match groupNext s with
      | some g => requestStart (groupDomain g) none s
      | none => s
    else s)

/-- The highest powered group. -/
def groupLast (s : State) : Option Nat := ((List.range 8).filter (fun g => domainOn (groupDomain g) s)).getLast?

/-- In RUN the highest powered group above MIN_ON whose lanes have all been idle for IDLE_T is gated (R257). -/
def execLaneGroupGate (g : Fin 8) (s : State) : Host.Outcome State Fault Refusal :=
  let lanes := (List.range 8).map (fun i => 8 * g.val + i)
  let idle := lanes.all (fun l => (lane s l).work.isNone && (lane s l).next.isNone &&
    decide ((lane s l).idle + s.fld F.CAR_LANE_CFG_IDLE_T * 1200 ≤ s.tick))
  .next (if s.bit F.CAR_LANE_CFG_GATE_EN && pstate s == 0 && idle && groupLast s == some g.val &&
      decide (s.fld F.CAR_LANE_CFG_MIN_ON < ((List.range 8).filter (fun g => domainOn (groupDomain g) s)).length)
    then domainStop (groupDomain g.val) s else s)

/-- Lanes lose power: their passes and unfinished work are gone. -/
def lanesOff (s : State) : State :=
  let s := (List.range 8).foldl (fun s g => domainStop (groupDomain g) s) s
  { s with car := { s.car with lanes := (s.car.lanes.map (fun (p : Nat × Lane) =>
    (p.1, { p.2 with work := none, next := none, idle := 0 }))).filter (fun (p : Nat × Lane) => p.2 != {}) } }

/-- BURST: all groups are off and every virtual time is 0 (R258). -/
def lanesBurst (s : State) : State :=
  let s := lanesOff s
  { s with car := { s.car with vt := [], vnow := 0, backlog := [] } }

end Sys2Proof.Machine
end

