-- ==== Sys2Proof/Machine/Serial.lean ====
section
/-! DEFINITION. The serial ports (chapter 18): the SPIM's command transfers and its execute-in-place window, the SPIS, and the
two UARTs. -/
namespace Sys2Proof.Machine

/-! SPIM (R470 to R477). -/

/-- A W1C bit of SPIM_STAT is set; EV_120 when it goes from 0 to 1. -/
def spimFlag (f : Fld) (s : State) : State := flagEvent f 120 s

/-- The clock and the gap of a transfer (R470, R471). (Assumption 164, DEDUCED.) -/
def spimClock (s : State) : SpimClock :=
  ⟨s.bit F.SPIM_CFG_MODE3, s.fld F.SPIM_CFG_CDIV, s.fld F.SPIM_CFG_CDIV / 2, s.fld F.SPIM_CFG_RDLY, s.fld F.SPIM_CFG_CSH⟩

/-- SCK cycles of a phase (R472). -/
def SpimPhase.cycles : SpimPhase → Nat
  | .send l bs => 8 * bs.length / l
  | .idle n => n
  | .take l n => 8 * n / l

/-- SCK cycles of a transfer. -/
def phaseCycles (ps : List SpimPhase) : Nat := (ps.map SpimPhase.cycles).sum

/-- Lines of a line code: 0 one, 1 two, 2 four. -/
def lineCount (c : Nat) : Nat := 2 ^ c

/-- `n` address bytes, most significant first (R472). -/
def addrBytes (n a : Nat) : List Byte := (leBytes n a).reverse

/-- The address phase of a window transfer, with its mode byte in command-omit mode, and its dummy cycles (R475 to R477). -/
def xipAddress (a : Nat) (mode : List Byte) (s : State) : List SpimPhase :=
  [.send (lineCount (s.fld F.SPIM_XIP_AW)) (addrBytes (if s.bit F.SPIM_XIP_ADDR4 then 4 else 3) a ++ mode),
   .idle (s.fld F.SPIM_XIP_DUMMY)]

/-- The phases of a line fill (R476, R477): with OMIT the mode byte MODE_ON follows the address, and once in command-omit mode no
opcode is sent. -/
def fillPhases (line : Nat) (s : State) : List SpimPhase :=
  let omitted := s.bit F.SPIM_XIP_OMIT && s.bit F.SPIM_STAT_OMIT_ACT
  (if omitted then [] else [.send 1 [BitVec.ofNat 8 (s.fld F.SPIM_XIP_CMD)]]) ++
    xipAddress (64 * line) (if s.bit F.SPIM_XIP_OMIT then [BitVec.ofNat 8 (s.fld F.SPIM_XIP_MODE_ON)] else []) s ++
    [.take (lineCount (s.fld F.SPIM_XIP_DW)) 64]

/-- The read that leaves command-omit mode: MODE_OFF and one byte discarded (R477). (Assumption 164, DEDUCED.) -/
def leavePhases (s : State) : List SpimPhase := xipAddress 0 [0xFF] s ++ [.take (lineCount (s.fld F.SPIM_XIP_DW)) 1]

/-- Leaving command-omit mode (R477). -/
def omitLeave (s : State) : State :=
  if s.bit F.SPIM_STAT_OMIT_ACT then (s.emit (.spim 0 (spimClock s) (leavePhases s))).setFld F.SPIM_STAT_OMIT_ACT 0 else s

/-- Every prefetch line is invalidated. -/
def linesDrop (s : State) : State := { s with spim := { s.spim with lines := [] } }

/-- The flash's answer for a line. -/
def flashLine (line : Nat) (s : State) : List Byte := s.flashBytes (64 * line) 64

/-- A line fill goes out on the bus; the first one of command-omit mode sends CMD (R477). -/
def fillSend (line : Nat) (s : State) : State :=
  let s := s.emit (.spim 0 (spimClock s) (fillPhases line s))
  if s.bit F.SPIM_XIP_OMIT then s.setFld F.SPIM_STAT_OMIT_ACT 1 else s

/-- A filled line replaces the least recently used of eight (R476). -/
def lineStore (line : Nat) (s : State) : State :=
  let rest := s.spim.lines.filter (fun e => e.1 != line)
  { s with spim := { s.spim with lines := ((line, flashLine line s) :: rest).take 8 } }

/-- Nothing waits for the bus or uses it (R474, R476). (Assumption 110, DEDUCED.) -/
def busQuiet (s : State) : Bool :=
  s.spim.bus.isNone && s.spim.fills.isEmpty && s.spim.cmds.all (fun (p : Nat × Option SpimCmd) => p.2.isNone) && s.pwr.store.isNone &&
    s.pwr.queue.isEmpty

/-- A line that is held, moved to the front. -/
def lineHit (line : Nat) (s : State) : Option (List Byte × State) :=
  match s.spim.lines.find? (fun e => e.1 == line) with
  | some e => some (e.2, { s with spim := { s.spim with lines := e :: s.spim.lines.filter (fun x => x.1 != line) } })
  | none => none

/-- One more miss fill. (Assumption 110, DEDUCED.) -/
def missCount (s : State) : State := s.setFld F.SPIM_STAT_MISS (satNat 0xFFFF (s.fld F.SPIM_STAT_MISS + 1))

/-- A byte of a line. -/
def lineByte (b : List Byte) (a : Nat) : Byte := b.getD (a % 64) 0

/-- The window's byte for a sequencer's access, which waits for its fill (R475, R476). (Assumption 110, DEDUCED.) -/
def xipByte (a : Nat) (s : State) : Byte × State :=
  if !s.bit F.SPIM_XIP_EN then (0, spimFlag F.SPIM_STAT_XIP_OFF s)
  else
    match lineHit (a / 64) s with
    | some (b, s) => (lineByte b a, s)
    | none =>
      let s := lineStore (a / 64) (missCount (fillSend (a / 64) s))
      let s := if s.bit F.SPIM_XIP_PREF_NEXT && busQuiet s && (lineHit (a / 64 + 1) s).isNone && decide (a / 64 + 1 < 2 ^ 18)
        then lineStore (a / 64 + 1) (fillSend (a / 64 + 1) s) else s
      (lineByte (flashLine (a / 64) s) a, s)

/-- A read of the window: served from a line, or waiting for a miss fill (R475, R476). The host has no access. (Assumption 110, DEDUCED.) -/
def opXipRead (who : Reader) (a : Nat) (s : State) : State :=
  if who == .host then { s with busData := 0 }
  else if !s.bit F.SPIM_XIP_EN then { spimFlag F.SPIM_STAT_XIP_OFF s with busData := 0 }
  else
    match lineHit (a / 64) s with
    | some (b, s) => { s with busData := (lineByte b a).setWidth 32 }
    | none =>
      if s.spim.fills.contains (a / 64, some a) then s
      else { s with spim := { s.spim with fills := s.spim.fills ++ [(a / 64, some a)] } }

def execXipRead (who : Reader) (a : BitVec 24) (s : State) : Host.Outcome State Fault Refusal :=
  .next (if s.pwr.hib || lcState s == 4 then s
    else if protAllows who 1 (0x2800000 + a.toNat) false s then opXipRead who a.toNat s
    else protRecord who 1 (0x2800000 + a.toNat) false s)

/-- The fill on the bus is complete: the line is held, the waiting read is served, and the following line is fetched when
nothing waits (R476). (Assumption 110, DEDUCED.) -/
def execXipFillDone (s : State) : Host.Outcome State Fault Refusal :=
  .next (match s.spim.bus with
    | some (.fill line read) =>
      let s := lineStore line { s with spim := { s.spim with bus := none } }
      match read with
      | none => s
      | some a =>
        let s := { missCount s with busData := (lineByte (flashLine line s) a).setWidth 32 }
        if s.bit F.SPIM_XIP_PREF_NEXT && busQuiet s &&
            (lineHit (line + 1) s).isNone && decide (line + 1 < 2 ^ 18)
        then { s with spim := { s.spim with fills := [(line + 1, none)] } } else s
    | _ => s)

/-- A write of SPIM_XIP ends command-omit mode and invalidates the lines (R476, R477). -/
def opXipCfg (who : Reader) (v : Word) (s : State) : State := linesDrop (plainWrite who R.SPIM_XIP v (omitLeave s))

def execSpimXipWrite (who : Reader) (v : Word) (s : State) : Host.Outcome State Fault Refusal :=
  .next (gate who R.SPIM_XIP true (opXipCfg who v) s)

/-- BUSY of a reader's command port. -/
def spimBusy (r : Reader) (s : State) : Bool := s.bit (F.SPIM_CMD_CTRL_BUSY.at r)

/-- A write of the other registers of a command port is ignored while BUSY (R473). -/
def opSpimPort (who : Reader) (off : Nat) (v : Word) (s : State) : State :=
  if spimBusy who s then s else plainWrite who off v s

/-- The data words of a port as bytes. -/
def spimData (r : Reader) (s : State) : List Byte :=
  (List.range 64).flatMap (fun k => leBytes 4 (s.word (copyOff r (R.SPIM_CMD_DATA k))).toNat)

/-- The checks of GO (R473). -/
def spimOk (v : Nat) (len : Nat) : Bool :=
  bitsOf v 28 27 != 3 && bitsOf v 26 25 != 3 && bitsOf v 24 23 != 3 && bitsOf v 22 21 != 3 && bitsOf v 4 0 == 0 &&
    decide (len ≤ 256)

/-- A write of SPIM_CMD_CTRL (R473). -/
def opSpimCtrl (who : Reader) (v : Word) (s : State) : State :=
  let go := v.toNat.testBit 31
  if spimBusy who s then (if go then s.setFld (F.SPIM_CMD_LEN_RESULT.at who) ST.busy else s)
  else
    let s := plainWrite who R.SPIM_CMD_CTRL v s
    if !go then s
    else
      let len := s.fld (F.SPIM_CMD_LEN_LEN.at who)
      if !spimOk v.toNat len then raise 120 (s.setFld (F.SPIM_CMD_LEN_RESULT.at who) ST.format)
      else
        let c : SpimCmd := ⟨v, s.word (copyOff who R.SPIM_CMD_ADDR), len, (spimData who s).take len⟩
        { s with spim := { s.spim with cmds := Sparse.put (fun _ => none) s.spim.cmds (readerIdx who) (some c) } }.setFld
          (F.SPIM_CMD_CTRL_BUSY.at who) 1

def execSpimGo (who : Reader) (v : Word) (s : State) : Host.Outcome State Fault Refusal :=
  .next (gate who R.SPIM_CMD_CTRL true (opSpimCtrl who v) s)

/-- The address a transfer sends: 0, 3 or 4 bytes. -/
def SpimCmd.address (c : SpimCmd) : Nat :=
  match bitsOf c.ctrl.toNat 22 21 with | 0 => 0 | 1 => c.addr.toNat % 2 ^ 24 | _ => c.addr.toNat

/-- The phases of a command transfer (R472, R473): its opcode, address, dummy cycles and data. -/
def SpimCmd.phases (c : SpimCmd) : List SpimPhase :=
  let v := c.ctrl.toNat
  let aw := lineCount (bitsOf v 26 25)
  let dw := lineCount (bitsOf v 24 23)
  let n := match bitsOf v 22 21 with | 0 => 0 | 1 => 3 | _ => 4
  [.send (lineCount (bitsOf v 28 27)) [BitVec.ofNat 8 (bitsOf v 15 8)]] ++
    (if n = 0 then [] else [.send aw (addrBytes n c.address)]) ++
    (if bitsOf v 20 16 = 0 then [] else [.idle (bitsOf v 20 16)]) ++
    (if c.len = 0 then [] else if v.testBit 29 then [.send dw c.data] else [.take dw c.len])

/-- The bus takes the next transfer: those of flash stores that run or wait before line fills, those before command ports, and these in the order
of R62 (R474). -/
def execSpimTransferStart (s : State) : Host.Outcome State Fault Refusal :=
  .next (
    if s.spim.bus.isSome || s.pwr.store.isSome || !s.pwr.queue.isEmpty || s.pwr.hib then s
    else
      match s.spim.fills with
      | (line, read) :: rest => fillSend line { s with spim := { s.spim with fills := rest, bus := some (.fill line read) } }
      | [] =>
        match s.spim.cmds.findSome? (fun (p : Nat × Option SpimCmd) => p.2.map (fun c => (p.1, c))) with
        | some (r, c) =>
          let dev := bitsOf c.ctrl.toNat 7 5
          let s := if dev = 0 then omitLeave s else s
          ({ s with spim := { s.spim with bus := some (.cmd r) } }).emit (.spim dev (spimClock s) c.phases)
        | none => s)

/-- What a transfer does to the boot flash: a page program (0x02) or a 4 KiB erase (0x20), as R559 uses them. (Assumption 111, DEDUCED.) -/
def flashEffect (c : SpimCmd) (s : State) : State :=
  let op := bitsOf c.ctrl.toNat 15 8
  if bitsOf c.ctrl.toNat 7 5 ≠ 0 ∨ bitsOf c.ctrl.toNat 22 21 = 0 then s
  else if op = 0x20 then s.setFlashBytes (c.address / 4096 * 4096) (List.replicate 4096 0xFF)
  else if op = 0x02 ∧ c.ctrl.toNat.testBit 29 then
    s.setFlashBytes c.address ((c.data.zip (s.flashBytes c.address c.data.length)).map (fun p => p.1 &&& p.2))
  else s

/-- Received bytes go into the data words of a port; those beyond stay (R473). -/
def spimStore (r : Reader) (bs : List Byte) (s : State) : State :=
  bs.zipIdx.foldl (fun s e =>
    let f : Fld := ⟨copyOff r (R.SPIM_CMD_DATA (e.2 / 4)), 8 * (e.2 % 4) + 7, 8 * (e.2 % 4)⟩
    s.setFld f e.1.toNat) s

/-- A command transfer completes (R473, R474); `data` is what the device answered a read. (Assumption 111, DEDUCED.) -/
def execSpimTransferDone (data : List Byte) (s : State) : Host.Outcome State Fault Refusal :=
  .next (match s.spim.bus with
    | some (.cmd r) =>
      match Sparse.get (fun _ => none) s.spim.cmds r with
      | some c =>
        let who := readerOf r
        let s := { s with spim := { s.spim with bus := none, cmds := Sparse.put (fun _ => none) s.spim.cmds r none } }
        let s := if c.ctrl.toNat.testBit 29 then s else spimStore who ((data ++ List.replicate 256 0).take c.len) s
        let s := if bitsOf c.ctrl.toNat 7 5 = 0 then linesDrop (flashEffect c s) else s
        raise 120 ((s.setFld (F.SPIM_CMD_CTRL_BUSY.at who) 0).setFld (F.SPIM_CMD_LEN_RESULT.at who) ST.ok)
      | none => { s with spim := { s.spim with bus := none } }
    | _ => s)

/-! SPIS (R478 to R481). -/

/-- UNIT is in range. (Assumption 112, DEDUCED.) -/
def unitOk (s : State) : Bool := decide (4 ≤ s.fld F.SPIS_CFG_UNIT) && decide (s.fld F.SPIS_CFG_UNIT ≤ 32)

/-- A W1C bit of SPIS_STAT is set; EV_121 when it goes from 0 to 1. -/
def spisFlag (f : Fld) (s : State) : State := flagEvent f 121 s

/-- The levels and the oldest unit are shown. -/
def spisSync (s : State) : State :=
  let s := (s.setFld F.SPIS_STAT_TX_LEVEL s.spis.tx.length).setFld F.SPIS_STAT_RX_LEVEL s.spis.rx.length
  let (u, first) := s.spis.rx.headD (0, false)
  ((s.setBit F.SPIS_RX_CTRL_VALID (!s.spis.rx.isEmpty)).setBit F.SPIS_RX_CTRL_FIRST first).setWord R.SPIS_RX_DATA
    (BitVec.ofNat 32 u)

/-- The busy pattern of UNIT bits: 1010… (R479). -/
def busyUnit (n : Nat) : Nat := 0xAAAAAAAA / 2 ^ (32 - n)

/-- A write of SPIS_CFG: a UNIT out of range sets UNIT_ERR (R478). (Assumption 112, DEDUCED.) -/
def opSpisCfg (who : Reader) (v : Word) (s : State) : State :=
  let s := plainWrite who R.SPIS_CFG v s
  if unitOk s then s else spisFlag F.SPIS_STAT_UNIT_ERR s

/-- One unit enters the receive FIFO, or is dropped (R479). -/
def spisPush (u : Nat) (first : Bool) (s : State) : State :=
  if 64 ≤ s.spis.rx.length then spisFlag F.SPIS_STAT_RX_OVF s
  else { s with spis := { s.spis with rx := s.spis.rx ++ [(u, first)] } }

/-- A request select, its whole units from the header on; `broken` when it ended within a unit (R479, R481). -/
def execRequestSelect (units : List Word) (broken : Bool) (s : State) : Host.Outcome State Fault Refusal :=
  let n := s.fld F.SPIS_CFG_UNIT
  let us := units.map (fun w => w.toNat % 2 ^ n)
  .next (
    if !s.bit F.SPIS_CFG_EN || !unitOk s then s
    else
      match us with
      | [] => if broken then spisFlag F.SPIS_STAT_SEL_ABORT s else s
      | h :: _ =>
        if h < 2 ^ (n - 1) then s
        else
          let s := (us.zipIdx).foldl (fun s e => spisPush e.1 (e.2 == 0) s) (s.emit (.spis (us.map (fun _ => busyUnit n))))
          let s := spisFlag F.SPIS_STAT_REQ_DONE s
          spisSync (if broken then spisFlag F.SPIS_STAT_SEL_ABORT s else s))

/-- A poll select with so many whole units after its header (R479, R481). -/
def execPollSelect (units : Byte) (broken : Bool) (s : State) : Host.Outcome State Fault Refusal :=
  let n := s.fld F.SPIS_CFG_UNIT
  let u := units.toNat
  .next (
    if !s.bit F.SPIS_CFG_EN || !unitOk s then s
    else
      let pend := s.bit F.SPIS_RESP_PENDING
      let count := s.spis.count
      let status := 2 ^ (n - 2) + s.spis.status % 2 ^ (n - 2)
      let resp := if pend then status :: s.spis.tx.take count else []
      let s := s.emit (.spis (busyUnit n :: ((resp ++ List.replicate u (busyUnit n)).take u)))
      let s :=
        if pend && decide (count + 1 ≤ u) then
          ({ s with spis := { s.spis with tx := [] } }.setFld F.SPIS_RESP_PENDING 0).setFld F.SPIS_STAT_OVERCLK
            (satNat 255 (s.fld F.SPIS_STAT_OVERCLK + (u - (count + 1))))
        else s
      spisSync (if broken then spisFlag F.SPIS_STAT_SEL_ABORT s else s))

/-- A write of SPIS_RESP (R480): FLUSH discards, READY commits or is refused. (Assumption 112, DEDUCED.) -/
def opSpisResp (who : Reader) (v : Word) (s : State) : State :=
  let flush := v.toNat.testBit 30
  let s := if flush then { s with spis := { s.spis with tx := [] } }.setFld F.SPIS_RESP_PENDING 0 else s
  if v.toNat.testBit 31 then
    if s.spis.tx.length < bitsOf v.toNat 22 16 then spisSync (spisFlag F.SPIS_STAT_RESP_ERR s)
    else
      let s := (plainWrite who R.SPIS_RESP v s).setFld F.SPIS_RESP_PENDING 1
      spisSync { s with spis := { s.spis with count := s.fld F.SPIS_RESP_COUNT, status := s.fld F.SPIS_RESP_STATUS } }
  else spisSync (plainWrite who R.SPIS_RESP v s)

def execRespReady (who : Reader) (v : Word) (s : State) : Host.Outcome State Fault Refusal :=
  .next (gate who R.SPIS_RESP true (opSpisResp who v) s)

def execSpisFlush (who : Reader) (v : Word) (s : State) : Host.Outcome State Fault Refusal :=
  .next (gate who R.SPIS_RESP true (opSpisResp who v) s)

/-- A write of SPIS_TX (R480). -/
def opSpisTx (v : Word) (s : State) : State :=
  if s.bit F.SPIS_RESP_PENDING || decide (64 ≤ s.spis.tx.length) then spisFlag F.SPIS_STAT_RESP_ERR s
  else spisSync { s with spis := { s.spis with tx := s.spis.tx ++ [v.toNat % 2 ^ s.fld F.SPIS_CFG_UNIT] } }

def execSpisTxWrite (who : Reader) (v : Word) (s : State) : Host.Outcome State Fault Refusal :=
  .next (gate who R.SPIS_TX true (opSpisTx v) s)

/-- A write of SPIS_RX_CTRL: POP removes the oldest unit. -/
def opSpisPop (v : Word) (s : State) : State :=
  if v.toNat.testBit 31 then spisSync { s with spis := { s.spis with rx := s.spis.rx.drop 1 } } else s

def execSpisRxPop (who : Reader) (v : Word) (s : State) : Host.Outcome State Fault Refusal :=
  .next (gate who R.SPIS_RX_CTRL true (opSpisPop v) s)

/-! The UARTs (R482 to R494). -/

/-- A UART outside its registers. -/
def uart (s : State) (n : Nat) : Uart := Sparse.get (fun _ => {}) s.uarts n

/-- A UART outside its registers, replaced. -/
def setUart (s : State) (n : Nat) (u : Uart) : State := { s with uarts := Sparse.put (fun _ => {}) s.uarts n u }

/-- The levels, the oldest entry and TX_IDLE are shown. -/
def uartSync (n : Nat) (s : State) : State :=
  let u := uart s n
  let s := ((s.setFld (F.UA_STAT_TX_LEVEL n) u.tx.length).setFld (F.UA_STAT_RX_LEVEL n) u.rx.length).setBit
    (F.UA_STAT_TX_IDLE n) (u.tx.isEmpty && u.shift.isNone)
  let c := u.rx.headD ⟨0, false, false, false⟩
  ((((s.setBit (F.UA_RX_VALID n) (!u.rx.isEmpty)).setBit (F.UA_RX_BRK n) c.brk).setBit (F.UA_RX_FE n) c.fe).setBit
    (F.UA_RX_PE n) c.pe).setFld (F.UA_RX_DATA n) c.data

/-- The conditions of R488 that are enabled and hold: receive level, transmitter empty, each error bit. (Assumption 113, DEDUCED.) -/
def uartConds (n : Nat) (s : State) : List Bool :=
  let th := s.fld (F.UA_IEN_RX_TH n)
  let u := uart s n
  let err := s.bit (F.UA_IEN_ERR n)
  [s.bit (F.UA_IEN_RX n) && th != 0 && decide (th ≤ u.rx.length),
   s.bit (F.UA_IEN_TX_EMPTY n) && u.tx.isEmpty && u.shift.isNone,
   err && s.bit (F.UA_STAT_OVERRUN n), err && s.bit (F.UA_STAT_TX_OVF n), err && s.bit (F.UA_STAT_FE_SEEN n),
   err && s.bit (F.UA_STAT_PE_SEEN n), err && s.bit (F.UA_STAT_TX_FAIL n)]

/-- An effect on a UART, with EV_122 + n when a condition goes from 0 to 1 (R488). -/
def uartDo (n : Nat) (f : State → State) (s : State) : State :=
  let s' := uartSync n (f s)
  if ((uartConds n s).zip (uartConds n s')).any (fun p => !p.1 && p.2) then raise (122 + n) s' else s'

/-- The divider is stopped: INT and FRAC both 0 (R482). -/
def divStopped (d : Word) : Bool := d.toNat / 2 ^ 24 == 0 && d.toNat % 2 ^ 16 == 0

/-- How many data bits a character has (R484, R492). -/
def uartBits (n : Nat) (s : State) : Nat := if n = 1 then 8 else 5 + s.fld (F.UA_CFG_DBITS 0)

/-- Data bits of a character (R484, R492). -/
def uartMask (n v : Nat) (s : State) : Nat := v % 2 ^ uartBits n s

/-- PAR of a port: 0 none, 1 even, 2 odd, 3 mark, 4 space; UA1's is even (R484, R492). -/
def uartPar (n : Nat) (s : State) : Nat := if n = 1 then 1 else s.fld (F.UA_CFG_PAR 0)

/-- The parity bit over data bits. -/
def parityBit (par : Nat) (ds : List Bool) : Bool :=
  let odd := ds.foldl Bool.xor false
  match par with | 1 => odd | 2 => !odd | 3 => true | _ => false

/-- Whether every level of the line is inverted: UA0's INV (R484). -/
def lineInv (n : Nat) (s : State) : Bool := n == 0 && s.bit (F.UA_CFG_INV 0)

/-- Whether the data and parity bits alone are inverted: UA1's inverse convention (R492). (Assumption 165, DEDUCED.) -/
def dataInv (n : Nat) (s : State) : Bool := n == 1 && s.bit (F.UA_CFG_INV 1)

/-- PER kernel cycles of `n` oversample ticks that begin `i` ticks after the accumulator's restart: INT each, and one more at each
carry of FRAC past 255 (R482). -/
def tickSpan (d : Word) (i n : Nat) : Nat :=
  let frac := d.toNat / 2 ^ 24
  n * (d.toNat % 2 ^ 16) + ((i + n) * frac / 256 - i * frac / 256)

/-- Levels held for a number of ticks each, as levels and cycles (R482). -/
def waveFrom (d : Word) : Nat → List (Bool × Nat) → List (Bool × Nat)
  | _, [] => []
  | i, (b, n) :: rest => (b, tickSpan d i n) :: waveFrom d (i + n) rest

/-- The levels of a character from its start edge: start, data and parity bits of 16 ticks each (R484, R492). -/
def charBits (n c : Nat) (s : State) : List Bool :=
  let ds := (List.range (uartBits n s)).map (fun i => c.testBit i)
  let body := (if s.bit (F.UA_CFG_MSB n) then ds.reverse else ds) ++
    (if uartPar n s = 0 then [] else [parityBit (uartPar n s) ds])
  ([false] ++ body.map (fun b => b.xor (dataInv n s))).map (fun b => b.xor (lineInv n s))

/-- Ticks of the line's idle level after a character: the stop bits, or UA1's guard, which sets its leading edges 12 + EGT etu apart,
14 before a repetition (R484, R492, R494). -/
def idleTicks (n : Nat) (again : Bool) (s : State) : Nat :=
  if n = 0 then (if s.bit (F.UA_CFG_STOP2 0) then 32 else 16)
  else
    let egt := s.fld F.UA_1_CARD_EGT
    16 * (if again then 4 else 2 + (if egt = 255 then 0 else egt))

/-- The levels of a whole character. -/
def charWave (n c : Nat) (again : Bool) (d : Word) (s : State) : List (Bool × Nat) :=
  waveFrom d 0 ((charBits n c s).map (fun b => (b, 16)) ++ [(!lineInv n s, idleTicks n again s)])

/-- LOOP, which UA1 does not have (R487). -/
def uartLoop (n : Nat) (s : State) : Bool := n == 0 && s.bit (F.UA_CFG_LOOP 0)

/-- UA0_DE is deasserted while the divider is stopped and no character is in the shifter (R482, R483). -/
def uartHalt (n : Nat) (s : State) : State :=
  if n = 0 ∧ divStopped (s.word (R.UA_DIV 0)) ∧ (uart s 0).shift.isNone then s.setFld (F.UA_STAT_DE 0) 0 else s

/-- The transmitter starts its next character when it can (R483, R487, R489, R494). -/
def uartStart (n : Nat) (s : State) : State :=
  let s := uartHalt n s
  let u := uart s n
  let d := s.word (R.UA_DIV n)
  match u.shift, u.tx with
  | none, c :: rest =>
    if divStopped d || (n == 0 && s.bit (F.UA_CFG_ECHO 0) && !uartLoop 0 s) || s.bit (F.UA_STAT_TX_FAIL n) then s
    else
      let de := n == 0 && s.bit (F.UA_CFG_RS485 0) && !uartLoop 0 s
      let lead := if de && !s.bit (F.UA_STAT_DE 0) then [(!lineInv 0 s, tickSpan d 0 (s.fld F.UA_0_DE_LEAD))] else []
      let s := setUart s n { u with shift := some c, tx := rest, txDiv := d, reps := 0, wave := lead ++ charWave n c false d s }
      if de then s.setFld (F.UA_STAT_DE 0) 1 else s
  | _, _ => s

/-- A character is stored, or dropped on a full FIFO (R486). -/
def uartStore (n : Nat) (c : UartChar) (s : State) : State :=
  let u := uart s n
  let s := if c.pe then s.setFld (F.UA_STAT_PE_SEEN n) 1 else s
  let s := if c.fe then s.setFld (F.UA_STAT_FE_SEEN n) 1 else s
  if 16 ≤ u.rx.length then s.setFld (F.UA_STAT_OVERRUN n) 1 else setUart s n { u with rx := u.rx ++ [c] }

/-- A write of UA_n_DIV (R482, R483). (Assumption 113, DEDUCED.) -/
def opUartDiv (who : Reader) (n : Nat) (v : Word) (s : State) : State :=
  if v.toNat % 2 ^ 16 = 0 ∧ v.toNat / 2 ^ 24 ≠ 0 then s.setFld (F.UA_STAT_CFG_ERR n) 1
  else
    uartDo n (fun s =>
      let s := plainWrite who (R.UA_DIV n) v s
      let u := uart s n
      let s := if u.shift.isNone then setUart s n { u with txDiv := s.word (R.UA_DIV n) } else s
      uartStart n s) s

def execUartDivWrite (who : Reader) (n : Fin 2) (v : Word) (s : State) : Host.Outcome State Fault Refusal :=
  .next (gate who (R.UA_DIV n) true (opUartDiv who n.val v) s)

/-- The divider of the receiver: UA_DIV as it stood at the start bit of the character being received, else as it stands (R483). -/
def rxDivider (n : Nat) (s : State) : Word := if (uart s n).rxCur.isSome then (uart s n).rxDiv else s.word (R.UA_DIV n)

/-- The receiver ignores its input: in LOOP, transmitting in RS-485, in HIBERNATE, or before the first release after main POR, by which
every character that came before is lost (R487, R489, R490, R495). (Assumption 113, DEDUCED.) -/
def uartDeaf (n : Nat) (s : State) : Bool :=
  s.pwr.hib || (s.sec.firstRel && !s.bit F.DEV_STATUS_READY) || uartLoop n s ||
    (n == 0 && s.bit (F.UA_CFG_RS485 0) && s.bit (F.UA_STAT_DE 0) && !s.bit (F.UA_CFG_RX_IN_TX 0))

/-- The majority of three samples. -/
def majority (a b c : Bool) : Bool := (a && b) || (a && c) || (b && c)

/-- A bit of a character: the majority of ticks 7, 8 and 9 of the bit's sixteen (R485). (Assumption 165, DEDUCED.) -/
def sampledBit (xs : List Bool) (i : Nat) : Bool :=
  majority (xs.getD (16 * i + 7) true) (xs.getD (16 * i + 8) true) (xs.getD (16 * i + 9) true)

/-- The number of a character's first stop bit, its start bit being 0. -/
def stopBit (n : Nat) (s : State) : Nat := 1 + uartBits n s + (if uartPar n s = 0 then 0 else 1)

/-- The character that the levels since its start edge spell, with its flags (R484, R485, R492). (Assumption 165, DEDUCED.) -/
def judgeChar (n : Nat) (xs : List Bool) (s : State) : UartChar :=
  let k := uartBits n s
  let got := (List.range k).map (fun i => (sampledBit xs (1 + i)).xor (dataInv n s))
  let p := (sampledBit xs (1 + k)).xor (dataInv n s)
  let ds := if s.bit (F.UA_CFG_MSB n) then got.reverse else got
  let par := uartPar n s
  let fe := !sampledBit xs (stopBit n s)
  { data := ds.foldr (fun b a => (if b then 1 else 0) + 2 * a) 0
    pe := par != 0 && p != parityBit par ds
    fe := fe
    brk := fe && got.all (fun b => !b) && (par == 0 || !p) }

/-- A received character is stored; UA1 signals a wrong parity instead, up to REP_MAX times in a row, by pulling its line low from
10.5 to 12 etu (R486, R493). (Assumption 113, DEDUCED.) -/
def uartTake (n : Nat) (c : UartChar) (s : State) : State :=
  let u := uart s n
  if n = 1 ∧ c.pe ∧ s.bit F.UA_1_CARD_ERRSIG ∧ u.errs < s.fld F.UA_1_CARD_REP_MAX then
    ((setUart s 1 { u with errs := u.errs + 1 }).setFld (F.UA_STAT_PE_SEEN 1) 1).emit
      (.uart 1 [(false, tickSpan (rxDivider 1 s) 168 24)])
  else uartStore n c (if c.pe then s else setUart s n { u with errs := 0 })

/-- Where a character's levels go on after its stop bit: with the next start edge, the first low tick of the stop bit, when the stop
bit reads 0 or the line is low at tick 9; a start bit that then reads 1 is discarded (R485). -/
def nextEdge (stop : Nat) (fe high : Bool) (xs : List Bool) : Option (List Bool) :=
  if !fe && high then none
  else
    match (xs.drop (16 * stop)).findIdx? (fun b => !b) with
    | some k =>
      let ys := xs.drop (16 * stop + k)
      if 10 ≤ ys.length ∧ sampledBit ys 0 then none else some ys
    | none => none

/-- One oversample tick of the receiver, which a stopped divider stops (R482, R483, R485). (Assumption 165, DEDUCED.) -/
def rxTick (n : Nat) (s : State) (level : Bool) : State :=
  let u := uart s n
  let high := level.xor (lineInv n s)
  let div := s.word (R.UA_DIV n)
  if divStopped (rxDivider n s) then s
  else if u.rxBrk then setUart s n { u with rxBrk := !high, rxHigh := high }
  else
    match u.rxCur with
    | none => setUart s n { u with rxCur := if u.rxHigh && !high then some [high] else none, rxDiv := div, rxHigh := high }
    | some xs =>
      let xs := xs ++ [high]
      let u := { u with rxHigh := high }
      let stop := stopBit n s
      if xs.length = 10 ∧ sampledBit xs 0 then setUart s n { u with rxCur := none }
      else if xs.length = 16 * stop + 10 then
        let c := judgeChar n xs s
        let s := uartTake n c (setUart s n u)
        setUart s n { uart s n with rxCur := if c.brk then none else nextEdge stop c.fe high xs, rxDiv := div, rxBrk := c.brk }
      else setUart s n { u with rxCur := some xs }

/-- UA0 echoes its input on its output, a tick later (R487). -/
def uartEcho (n : Nat) (line : List Bool) (s : State) : State :=
  if n = 0 ∧ s.bit (F.UA_CFG_ECHO 0) then s.emit (.uart 0 (waveFrom (s.word (R.UA_DIV 0)) 0 (line.map (fun b => (b, 1))))) else s

/-- The levels of the receive line at consecutive oversample ticks: the characters that complete in them are received (R485, R486,
R493). (Assumption 113, DEDUCED.) -/
def execUartRxChar (n : Fin 2) (line : List Bool) (_parity _framing _brk : Formed) (s : State) :
    Host.Outcome State Fault Refusal :=
  .next (if uartDeaf n.val s then s
    else uartDo n.val (fun s => line.foldl (rxTick n.val) (uartEcho n.val line s)) s)

/-- The card's answer to a character: the majority of ticks 7, 8 and 9 of the eleventh etu is low (R494). -/
def cardSignals (a b c : Bool) : Bool := !majority a b c

/-- The character in the shifter is through: sent, looped back, or repeated where the card signalled an error by the levels given
(R484, R487, R494). -/
def execUartTxChar (n : Fin 2) (card : CardLevels) (s : State) : Host.Outcome State Fault Refusal :=
  .next (match (uart s n.val).shift with
    | none => s
    | some c =>
      uartDo n.val (fun s =>
        let u := uart s n.val
        let signalled := n.val == 1 && cardSignals card.first card.second card.third
        let again := signalled && decide (u.reps < s.fld F.UA_1_CARD_REP_MAX)
        let s :=
          if uartLoop n.val s then uartStore n.val ⟨uartMask n.val c s, false, false, false⟩ s
          else s.emit (.uart n.val (if again then charWave 1 c true u.txDiv s else u.wave))
        let u' := { uart s n.val with shift := none, reps := 0, txEnd := s.tick }
        if again then setUart s 1 { u with reps := u.reps + 1 }
        else if signalled then (setUart s 1 u').setFld (F.UA_STAT_TX_FAIL 1) 1
        else uartStart n.val (setUart s n.val u')) s)

/-- A write of UA_n_TX (R486). -/
def opUartTx (n : Nat) (v : Word) (s : State) : State :=
  uartDo n (fun s =>
    let u := uart s n
    if 16 ≤ u.tx.length then s.setFld (F.UA_STAT_TX_OVF n) 1
    else uartStart n (setUart s n { u with tx := u.tx ++ [uartMask n (v.toNat % 256) s] })) s

def execUartTxWrite (who : Reader) (n : Fin 2) (v : Word) (s : State) : Host.Outcome State Fault Refusal :=
  .next (gate who (R.UA_TX n) true (opUartTx n.val v) s)

/-- A write of UA_n_RX: POP removes the oldest entry (R486). -/
def opUartPop (n : Nat) (v : Word) (s : State) : State :=
  if v.toNat.testBit 31 then uartDo n (fun s => setUart s n { uart s n with rx := (uart s n).rx.drop 1 }) s else s

def execUartRxPop (who : Reader) (n : Fin 2) (v : Word) (s : State) : Host.Outcome State Fault Refusal :=
  .next (gate who (R.UA_RX n) true (opUartPop n.val v) s)

/-- PER kernel cycles in so many FS ticks; the holding oscillator gives a third (R320, R323). -/
def perCycles (ticks : Nat) (s : State) : Nat :=
  ticks * (if s.coarse then 10 else 30) / (3 * max 1 (s.fld F.CK_DIV_NOW_PER))

/-- TAIL has passed since the last stop bit with nothing more to send (R489). -/
def tailOver (s : State) : Bool :=
  let u := uart s 0
  u.shift.isNone && u.tx.isEmpty && decide (tickSpan u.txDiv 0 (s.fld F.UA_0_DE_TAIL) ≤ perCycles (s.tick - u.txEnd) s)

/-- TAIL has passed since the last stop bit: UA0_DE is deasserted (R489). -/
def execDeTail (s : State) : Host.Outcome State Fault Refusal := .next (if tailOver s then s.setFld (F.UA_STAT_DE 0) 0 else s)

/-- A write of UA_n_CFG: ECHO with RS485 is ignored, as it is on UA1 (R487). (Assumption 113, DEDUCED.) -/
def opUartCfg (who : Reader) (n : Nat) (v : Word) (s : State) : State :=
  uartDo n (fun s =>
    let s := plainWrite who (R.UA_CFG n) v s
    let s := if n = 1 then s.setFld (F.UA_CFG_ECHO 1) 0
      else if s.bit (F.UA_CFG_ECHO 0) && s.bit (F.UA_CFG_RS485 0) then
        (s.setFld (F.UA_CFG_ECHO 0) 0).setFld (F.UA_STAT_CFG_ERR 0) 1
      else s
    let s := if n = 0 ∧ (!s.bit (F.UA_CFG_RS485 0) ∨ uartLoop 0 s) then s.setFld (F.UA_STAT_DE 0) 0 else s
    uartStart n s) s

/-- What UA1_CLK and UA1_RST_N follow (R491). -/
def cardPins (s : State) : Nat × Bool := (s.fld F.UA_1_CARD_CLKDIV, s.bit F.UA_1_CARD_RST)

/-- A write of another register of a UART: its interrupt enables, its status bits, whose TX_FAIL stops UA1, the card's lines. -/
def opUartReg (who : Reader) (n off : Nat) (v : Word) (s : State) : State :=
  uartDo n (fun s =>
    let s' := plainWrite who off v s
    let s' := if cardPins s' = cardPins s then s' else s'.emit (.card (cardPins s').1 (cardPins s').2)
    uartStart n s') s

end Sys2Proof.Machine
end

