-- ==== Sys2Proof/Machine/Clock.lean ====
section
/-! DEFINITION. Clock synthesis (chapter 12): loss and return of REFIN, changes of the multiplication, the post-dividers and
TSYN. -/
namespace Sys2Proof.Machine

/-- CK_STATUS.STATE: 0 HOLD, 1 QUALIFY, 2 LOCKING, 3 RAMP, 4 LOCKED, 5 COAST. -/
def ckState (s : State) : Nat := s.fld F.CK_STATUS_STATE

/-- STATE replaced; NO_REF clears when it becomes LOCKED (R322). -/
def setCk (st : Nat) (s : State) : State :=
  let s := s.setFld F.CK_STATUS_STATE st
  if st = 4 then s.setFld F.CK_STATUS_NO_REF 0 else s

/-- The clock's state outside its registers replaced. -/
def setCkSyn (c : ClockSyn) (s : State) : State := { s with ck := c }

/-- REF_LOST is set and the discipline learns of it; EV_096 is raised when it was 0 (R314, R319). -/
def setRefLost (s : State) : State :=
  if s.refLost then s else discRefLost (raise 96 ((sgAccrue s).setFld F.CK_STATUS_REF_LOST 1))

/-- REF_LOST clears at the end of a ramp: EV_097, and fixes count again 2 s later (R297, R316). -/
def clearRefLost (s : State) : State :=
  if !s.refLost then s
  else
    let s := (sgAccrue s).setFld F.CK_STATUS_REF_LOST 0
    raise 97 { s with fsm := { s.fsm with refBackAt := some s.tick } }

/-- The core domains move to the holding oscillator (R319 step 2): CORE_HOLD and COARSE; TSYN's own count starts at the timebase
of the switch. -/
def toHold (s : State) : State :=
  let s := if s.coarse then s else setCkSyn { s.ck with holdU := s.nowU } s
  (s.setFld F.CK_STATUS_CORE_HOLD 1).setFld F.CK_STATUS_COARSE 1

/-- The core domains return to CK_MAIN: the timebase takes the value of TSYN's cycle count since the switch, which is not a
step (R320). (Assumption 90, DEDUCED.) -/
def fromHold (s : State) : State :=
  ((s.setNowU (edgeNow s)).setFld F.CK_STATUS_CORE_HOLD 0).setFld F.CK_STATUS_COARSE 0

/-- The change waits at step 3 of R319 for the next REFIN edge. -/
def backToHold (s : State) : State := setCk 0 (setCkSyn { s.ck with change := true } s)

/-- An N change starts (R319, R321): REF_LOST, the switch to the holding oscillator, HOLD. -/
def startChange (sel : Nat) (s : State) : State :=
  let s := toHold (setRefLost s)
  let s := s.setFld F.CK_STATUS_TSYN_LOCK 0
  backToHold (setCkSyn { s.ck with inUse := sel, change := true, boot := false, after := none, ret := false, tsynAt := none } s)

/-- The multiplication N of the REF_SEL value in use (R312). -/
def mdllN (s : State) : Nat :=
  match s.ck.inUse with | 1 => 120 | 2 => 60 | 3 => 48 | _ => 0

/-- Whether what the detectors see declares REFIN lost (R313): no edge within MISS_N + 0.5 periods; PHASE_N consecutive edges beyond
PHASE_TH, or beyond ±50 ppm, where the delay control stands at its limit, all on one side; or a small swing for 1 µs. -/
def refLostBy (why : LossCause) (s : State) : Bool :=
  match why with
  | .miss cycles => decide ((2 * s.fld F.CK_CFG_MISS_N + 1) * mdllN s ≤ 2 * cycles)
  | .phase ppb errs =>
    let l := errs.take (s.fld F.CK_CFG_PHASE_N)
    l.length == s.fld F.CK_CFG_PHASE_N &&
      (l.all (fun e => decide (s.fld F.CK_CFG_PHASE_TH * 256 < e.natAbs)) ||
       (decide (50000 < ppb.natAbs) && (l.all (fun e => decide (0 < e)) || l.all (fun e => decide (e < 0)))))
  | .amp ns => decide (1000 ≤ ns)

/-- A loss flag. -/
def lossFlag (why : LossCause) (s : State) : State :=
  match why with
  | .miss _ => s.setFld F.CK_STATUS_LOSS_MISS 1
  | .phase _ _ => s.setFld F.CK_STATUS_LOSS_PHASE 1
  | .amp _ => s.setFld F.CK_STATUS_LOSS_AMP 1

/-- φ in units of the timebase: interpolator steps of 1/2,048 of a 1.2 GHz period, rounded to the nearest unit (R317). -/
def phiUnits (phi : Int) : Int := roundRat ((phi : Rat) * (secUnits : Rat) / (2048 * 1200000000))

/-- φ to the nearest ring edge: within ±1,024 steps of the 2,048 of a period (R317). -/
def phiNear (phi : BitVec 12) : Int :=
  if 1024 < phi.toInt then phi.toInt - 2048 else if phi.toInt < -1024 then phi.toInt + 2048 else phi.toInt

/-- φ is absorbed: the ticks move by it, the tick phase increases by it, and CK_JUMP shows it (R317). -/
def absorb (phi : Int) (s : State) : State :=
  let u := ((s.nowU : Int) + phiUnits phi) % (wrapUnits : Int)
  (setCkSyn { s.ck with absorbed := s.ck.absorbed + phi } (s.setNowU u.toNat)).setFld F.CK_JUMP_PHASE (ofSigned 16 phi)

/-- A loss is counted and told (R314): LOSS_CNT, REF_LOST and EV_096. (Assumption 139, DEDUCED.) -/
def lossTold (s : State) : State :=
  let s := s.setFld F.CK_STATUS_LOSS_CNT (satNat 0xFFFF (s.fld F.CK_STATUS_LOSS_CNT + 1))
  if s.refLost then raise 96 s else setRefLost s

/-- REFIN is declared lost (R313, R314, R321). In RAMP, `part` is the part of φ already applied, which stays absorbed, and a
change that waited for the ramp's end starts (R318, R321). (Assumption 139, DEDUCED.) -/
def execRefLoss (why : LossCause) (part : BitVec 12) (s : State) : Host.Outcome State Fault Refusal :=
  .next (
    if !refLostBy why s then s
    else if s.ck.change then
      if ckState s = 1 then backToHold (lossFlag why s)
      else if ckState s = 2 then backToHold ((lossFlag why s).setFld F.CK_STATUS_QUAL_FAIL 1)
      else s
    else if ckState s = 4 ∨ ckState s = 3 ∨ ckState s = 1 then
      let s := lossFlag why s
      let s := if ckState s = 3 then absorb (phiNear part) s else s
      let s := setCk 5 (lossTold s)
      match s.ck.after with
      | some sel => if sel = s.ck.inUse then setCkSyn { s.ck with after := none } s else startChange sel s
      | none => s
    else s)

/-- Qualification starts: at the first edge in COAST with AUTO_RETURN or after RETURN, or in HOLD during a change (R315,
R319). -/
def execRefQualify (s : State) : Host.Outcome State Fault Refusal :=
  .next (
    if (ckState s = 5 ∧ s.bit F.CK_CFG_AUTO_RETURN) ∨ (ckState s = 5 ∧ s.ck.ret) then
      setCk 1 (setCkSyn { s.ck with ret := false } s)
    else if ckState s = 0 ∧ s.ck.change ∧ s.ck.inUse ≠ 0 then setCk 1 s
    else s)

/-- A write of RETURN in COAST with AUTO_RETURN 0: the next edge starts qualification (R315). -/
def opCkCtrlWrite (v : Word) (s : State) : State :=
  if v.toNat.testBit 0 ∧ ckState s = 5 ∧ !s.bit F.CK_CFG_AUTO_RETURN then setCkSyn { s.ck with ret := true } s else s

def execRefReturn (who : Reader) (v : Word) (s : State) : Host.Outcome State Fault Refusal :=
  .next (gate who R.CK_CTRL true (opCkCtrlWrite v) s)

/-- 1 ms of reference periods has been timed, with the error in 10^-9 (R315, R319, R322). After a failure a new measurement
starts at the next edge. -/
def execRefQualifyDone (err : BitVec 32) (s : State) : Host.Outcome State Fault Refusal :=
  let limit : Nat := if s.ck.boot then 1000000 else 50000
  .next (
    if ckState s ≠ 1 then s
    else
      let s := s.setWord R.CK_REF_MEAS err
      if limit < err.toInt.natAbs then s.setFld F.CK_STATUS_QUAL_FAIL 1
      else if s.ck.change then setCk 2 (setCkSyn { s.ck with lockAt := s.tick, errs := [] } s)
      else setCk 3 s)

/-- Reference edges since LOCKING was entered: one every N cycles of CK_MAIN, ten to an FS tick (R312, R319). (Assumption 170,
DEDUCED.) -/
def lockEdges (s : State) : Nat := (s.tick - s.ck.lockAt) * 10 / max 1 (mdllN s)

/-- Whether each of those edges lay within PHASE_TH, newest first: by the phase errors the state gives, and free values for the rest
(assumption 10). (Assumption 170, DEDUCED.) -/
def lockWithin (s : State) : List Bool :=
  (List.range (lockEdges s)).map (fun i =>
    decide ((s.ck.errs.getD i (toSigned 24 (Config.freeValue (s.free + i)))).natAbs ≤ s.fld F.CK_CFG_PHASE_TH * 256))

/-- How often the count of the hold was restarted: an edge beyond PHASE_TH after one within it (R319 step 5). -/
def holdRestarts : List Bool → Nat
  | false :: true :: l => holdRestarts (true :: l) + 1
  | _ :: l => holdRestarts l
  | [] => 0

/-- Lock is held: the last 256 reference edges lay within PHASE_TH, and the count was not restarted eight times (R319 step 5, R321). (Assumption 170, DEDUCED.) -/
def mdllHeld (s : State) : Bool :=
  let w := lockWithin s
  decide (256 ≤ w.length) && (w.take 256).all id && decide (holdRestarts w < 8)

/-- Lock fails: the hold's count was restarted eight times, or no edge lay within PHASE_TH in 20 µs (R321). (Assumption 170, DEDUCED.) -/
def mdllFails (s : State) : Bool :=
  let w := lockWithin s
  decide (8 ≤ holdRestarts w) || (decide (s.ck.lockAt + 2400 ≤ s.tick) && w.all (· == false))

/-- The free values that judging the lock took are gone. (Assumption 170, DEDUCED.) -/
def lockDrawn (s : State) : State := { s with free := s.free + lockEdges s }

/-- Lock was held for 256 cycles: the core domains return to CK_MAIN and TSYN's ramp starts (R319 steps 5 to 7). (Assumption 170,
DEDUCED.) -/
def execLockHoldDone (s : State) : Host.Outcome State Fault Refusal :=
  .next (if ckState s = 2 ∧ mdllHeld s then
      let s := fromHold (lockDrawn s)
      setCk 3 (setCkSyn { s.ck with change := false, boot := false } s)
    else s)

/-- Lock was not reached in 20 µs, or its hold was restarted eight times (R321). (Assumption 170, DEDUCED.) -/
def execLockTimeout (s : State) : Host.Outcome State Fault Refusal :=
  .next (if ckState s = 2 ∧ mdllFails s then backToHold (lockDrawn (s.setFld F.CK_STATUS_QUAL_FAIL 1)) else s)

/-- The 64-cycle ramp ends with φ absorbed: LOCKED, REF_LOST 0 (R316, R317); a REF_SEL written in RAMP then starts its
change (R321). -/
def execRampDone (phi : BitVec 12) (s : State) : Host.Outcome State Fault Refusal :=
  .next (if ckState s = 3 then
      let s := clearRefLost (absorb (phiNear phi) s)
      let s := setCk 4 (setCkSyn { s.ck with tsynAt := none } (s.setFld F.CK_STATUS_TSYN_LOCK 1))
      match s.ck.after with
      | some sel => if sel = s.ck.inUse then setCkSyn { s.ck with after := none } s else startChange sel s
      | none => s
    else s)

/-- REF_SEL takes a value (R319, R321): the value in use has no effect; in RAMP the change waits for its end. -/
def refSelTake (sel : Nat) (s : State) : State :=
  if sel = s.ck.inUse then s
  else if ckState s = 3 then setCkSyn { s.ck with after := some sel } s
  else startChange sel s

/-- A write of CK_CFG, which ends the probe of R322. -/
def opCkCfgWrite (who : Reader) (v : Word) (s : State) : State :=
  let s := plainWrite who R.CK_CFG v (setCkSyn { s.ck with selBySw := true } s)
  refSelTake (s.fld F.CK_CFG_REF_SEL) s

def execRefSelWrite (who : Reader) (v : Word) (s : State) : Host.Outcome State Fault Refusal :=
  .next (gate who R.CK_CFG true (opCkCfgWrite who v) s)

/-- The probe of REFIN finds a frequency, 1 to 3, or none (0) (R322): NO_REF repeats it every 1 s until software writes REF_SEL. (Assumption 93, DEDUCED.) -/
def execRefProbe (found : Fin 4) (s : State) : Host.Outcome State Fault Refusal :=
  .next (
    if s.bit F.CK_STATUS_NO_REF && s.ck.inUse == 0 && !s.ck.selBySw && found != 0 then
      setCkSyn { s.ck with inUse := found.val, change := true, boot := true } (s.setFld F.CK_CFG_REF_SEL found.val)
    else s)

/-! Post-dividers (R323 to R325). -/

/-- Whether a divider is a divisor of 120 no smaller than its domain's minimum (R323). -/
def divOk (min d : Nat) : Bool := d != 0 && 120 % d == 0 && decide (min ≤ d) && decide (2 ≤ d)

/-- All four fields of CK_DIV_NEXT are valid. (Assumption 94, DEDUCED.) -/
def divsOk (s : State) : Bool :=
  divOk 4 (s.fld F.CK_DIV_NEXT_SEQ) && divOk 2 (s.fld F.CK_DIV_NEXT_FAB) && divOk 8 (s.fld F.CK_DIV_NEXT_PER) &&
    divOk 4 (s.fld F.CK_DIV_NEXT_SPIM)

/-- CK_DIV_NEXT ignores writes while a commit is pending (R325). -/
def opDivNextWrite (who : Reader) (v : Word) (s : State) : State :=
  if s.bit F.CK_DIV_COMMIT_PEND then s else plainWrite who R.CK_DIV_NEXT v s

/-- A write of CK_DIV_COMMIT with GO (R324); ignored while PEND is 1 (R325). (Assumption 94, DEDUCED.) -/
def opDivCommit (v : Word) (s : State) : State :=
  if !v.toNat.testBit 31 || s.bit F.CK_DIV_COMMIT_PEND then s
  else if divsOk s then
    setCkSyn { s.ck with div := some (s.word R.CK_DIV_NEXT, s.tick) } (s.setFld F.CK_DIV_COMMIT_PEND 1)
  else raise 99 (s.setFld F.CK_STATUS_DIV_REFUSED 1)

def execDivCommit (who : Reader) (v : Word) (s : State) : Host.Outcome State Fault Refusal :=
  .next (gate who R.CK_DIV_COMMIT true (opDivCommit v) s)

/-- The FS tick begins at a frame boundary: every 12th from main POR (R324). -/
def frameBoundary (s : State) : Bool := (s.tick - s.ck.porTick) % 12 == 0

/-- A frame boundary, every 12th FS tick, at least 2 FS ticks after GO, on CK_MAIN: the dividers take effect together (R324,
R325). (Assumption 94, DEDUCED.) -/
def execDivApply (s : State) : Host.Outcome State Fault Refusal :=
  .next (match s.ck.div with
    | some (w, t) =>
      if frameBoundary s ∧ t + 2 ≤ s.tick ∧ !s.bit F.CK_STATUS_CORE_HOLD then
        (setCkSyn { s.ck with div := none } (s.setWord R.CK_DIV_NOW w)).setFld F.CK_DIV_COMMIT_PEND 0
      else s
    | none => s)

/-- The phase that free value `i` from now on stands for, in interpolator steps. -/
def freePhase (i : Nat) (s : State) : Int := phiNear (BitVec.ofNat 12 (Config.freeValue (s.free + i)))

/-- TSYN's phases against CK_MAIN on its last 16 cycles, newest first, in interpolator steps: those the state gives, and free
values for the rest (assumption 10). (Assumption 159, DEDUCED.) -/
def tsynPhases (s : State) : List Int := (List.range 16).map (fun i => s.ck.phases.getD i (freePhase i s))

/-- TSYN's phase is looked at: beyond a quarter period on 16 consecutive cycles it is a fault (R327); the phase that re-injection
will absorb is a free value. (Assumption 159, DEDUCED.) -/
def execTsynFault (s : State) : Host.Outcome State Fault Refusal :=
  .next (if s.bit F.CK_STATUS_TSYN_LOCK then
      let s' := { s with free := s.free + 17 }
      if (tsynPhases s).all (fun e => decide (512 < e.natAbs)) then
        raise 98 (setCkSyn { s.ck with tsynAt := some (s.tick, freePhase 16 s) }
          ((s'.setFld F.CK_STATUS_TSYN_FAULT 1).setFld F.CK_STATUS_TSYN_LOCK 0))
      else s'
    else s)

/-- TSYN is locked again within 2 µs of a fault; CK_MAIN's edges have not moved, and CK_JUMP shows what was absorbed (R317, R327). (Assumption 159, DEDUCED.) -/
def tsynTick (s : State) : State :=
  match s.ck.tsynAt with
  | some (t, phi) =>
    if t + 240 ≤ s.tick then
      (setCkSyn { s.ck with tsynAt := none } (s.setFld F.CK_STATUS_TSYN_LOCK 1)).setFld F.CK_JUMP_PHASE (ofSigned 16 phi)
    else s
  | none => s

/-! Outputs in the course of time (R295, R296, R306, R328, R329). -/

/-- Grid steps of a whole period of FOUT as it runs. -/
def Fout.period (f : Fout) : Rat := (f.div * 2048 : Nat) + f.follow

/-- The end of the period of FOUT in progress at an instant of the grid, or where FOUT stands the instant itself, no earlier than the stop (R295, R328). (Assumption 160, DEDUCED.) -/
def Fout.wholeAt (f : Fout) (now : Rat) : Rat :=
  if f.div = 0 then max now f.start
  else if now ≤ f.start then f.start
  else f.start + (((now - f.start) / f.period).ceil : Rat) * f.period

/-- TSYN cycles of the high phase (R295). -/
def foutHigh (d : Nat) : Nat := (d + 1) / 2

/-- FOUT starts, stops and changes its division or its correction, each on a whole output period (R295, R296, R306). (Assumption 160, DEDUCED.) -/
def foutTick (s : State) : State :=
  let d := foutDiv s
  let c := if d = 0 then 0 else clampRat 1 (foutWant s)
  let f := s.ck.fout
  if d = f.div ∧ c = f.follow then s
  else
    let t := f.wholeAt (gridNow s : Rat)
    (foutCheck (setCkSyn { s.ck with fout := ⟨d, c, t⟩ } s)).emit (.fout d (foutHigh d) c t)

/-- OCXO_TUNE carries a new TUNE from the next frame boundary on (R329). (Assumption 161, DEDUCED.) -/
def tuneTick (s : State) : State :=
  if frameBoundary s && s.ck.tuneOut != s.fld F.TP_OCXO_TUNE then setCkSyn { s.ck with tuneOut := s.fld F.TP_OCXO_TUNE } s else s

end Sys2Proof.Machine
end

