-- ==== Sys2Proof/Machine/Security.lean ====
section
/-! DEFINITION. OTP, lifecycle, attestation, the protection unit's entries and debug sessions (chapter 19, R496, R497, R508 to R527). -/
namespace Sys2Proof.Machine

/-! OTP (R496, R497). -/

/-- Bytes of OTP. -/
def otpBytes (s : State) (off n : Nat) : List Byte := s.memBytes (0x3F00000 + off) n

/-- OTP bits are set; bits already set stay set (R497). -/
def otpOr (off : Nat) (bs : List Byte) (s : State) : State :=
  s.setMemBytes (0x3F00000 + off) (List.zipWith (· ||| ·) (otpBytes s off bs.length) bs)

/-- A slot, hash or secret is programmed when any of its bits is 1 (R496). -/
def otpSet (s : State) (off n : Nat) : Bool := (otpBytes s off n).any (fun b => b != 0)

/-- A root slot 0 to 3, or 4 and 5 for the debug slots 0 and 1: its hash in OTP. -/
def slotHash (s : State) (k : Nat) : List Byte := otpBytes s (0x400 + 32 * k) 32

/-- Whether a slot is programmed. -/
def slotProgrammed (s : State) (k : Nat) : Bool := (slotHash s k).any (fun b => b != 0)

/-- Whether a slot is revoked (R496). -/
def slotRevoked (s : State) (k : Nat) : Bool := (leNat (otpBytes s 0x4C0 4)).testBit k

/-- Whether a slot is programmed and unrevoked. -/
def slotLive (s : State) (k : Nat) : Bool := slotProgrammed s k && !slotRevoked s k

/-- The rollback count: set bits of the thermometer (R508). -/
def rollbackCount (s : State) : Nat :=
  let w := leNat (otpBytes s 0x4E0 32)
  ((List.range 256).filter (fun i => w.testBit i)).length

/-- Whether the lifecycle state lets software program an OTP word (R496, R497). (Assumption 114, DEDUCED.) -/
def otpAllowed (off lc : Nat) : Bool :=
  if off < 0x100 then lc == 0
  else if off < 0x4C0 then decide (lc ≤ 1)
  else if off < 0x800 then false
  else if off < 0x1000 then lc != 4
  else if off < 0x2000 then decide (lc ≤ 2)
  else lc != 4

/-- A write of SEC_OTP_CTRL (R497): with GO from Vault mode it starts programming the word, or is refused. (Assumption 114, DEDUCED.) -/
def opOtpCtrl (who : Reader) (v : Word) (s : State) : State :=
  let go := vaultRights who s && v.toNat.testBit 31
  if go && s.bit F.SEC_OTP_CTRL_BUSY then s.setFld F.SEC_OTP_CTRL_RESULT ST.busy
  else
    let s := plainWrite who R.SEC_OTP_CTRL v s
    let a := s.fld F.SEC_OTP_CTRL_ADDR
    if !go then s
    else if a % 4 ≠ 0 ∨ !otpAllowed a (lcState s) then raise 124 (s.setFld F.SEC_OTP_CTRL_RESULT ST.format)
    else { s with sec := { s.sec with otp := some (a, s.word R.SEC_OTP_DATA) } }.setFld F.SEC_OTP_CTRL_BUSY 1

def execOtpProgram (who : Reader) (v : Word) (s : State) : Host.Outcome State Fault Refusal :=
  .next (gate who R.SEC_OTP_CTRL true (opOtpCtrl who v) s)

/-- Programming of the word ends after 25 µs; a word of the charter rebuilds it (R336, R497). -/
def execOtpProgramDone (s : State) : Host.Outcome State Fault Refusal :=
  .next (match s.sec.otp with
    | some (a, w) =>
      let s := otpOr a (leBytes 4 w.toNat) { s with sec := { s.sec with otp := none } }
      let s := (s.setFld F.SEC_OTP_CTRL_BUSY 0).setFld F.SEC_OTP_CTRL_RESULT ST.ok
      if 0x800 ≤ a ∧ a < 0x1000 then charterBuild s else s
    | none => s)

/-- A reset while a word is programmed leaves any of its bits set (R497): which ones is a free value. (Assumption 114, DEDUCED.) -/
def otpTorn (s : State) : State :=
  match s.sec.otp with
  | some (a, w) =>
    let d := s.draw
    otpOr a (leBytes 4 (w.toNat &&& d.1)) { d.2 with sec := { d.2.sec with otp := none } }
  | none => s

/-! Rollback and root keys (R508, R509). -/

/-- A write of SEC_RB; ADVANCE from Vault mode sets the thermometer up to NEW, or is refused (R508). (Assumption 114, DEDUCED.) -/
def opRollback (who : Reader) (v : Word) (s : State) : State :=
  let go := vaultRights who s && v.toNat.testBit 31
  let s := plainWrite who R.SEC_RB v s
  let n := s.fld F.SEC_RB_NEW
  if !go then s
  else if s.fld F.SEC_RB_IMG < n ∨ n < rollbackCount s then raise 124 s
  else otpOr 0x4E0 (leBytes 32 (2 ^ n - 1)) s

def execRbAdvance (who : Reader) (v : Word) (s : State) : Host.Outcome State Fault Refusal :=
  .next (gate who R.SEC_RB true (opRollback who v) s)

/-- Whether a slot may be revoked (R509). -/
def revocable (k : Nat) (s : State) : Bool :=
  decide (k < 6) && slotProgrammed s k &&
    (List.range 4).any (fun i => i != k && slotLive s i) && [4, 5].any (fun i => i != k && slotLive s i)

/-- A write of SEC_ROOT; REVOKE from Vault mode sets the slot's revocation bit, or is refused (R509). (Assumption 114, DEDUCED.) -/
def opRoot (who : Reader) (v : Word) (s : State) : State :=
  let go := vaultRights who s && v.toNat.testBit 31
  let s := plainWrite who R.SEC_ROOT v s
  let k := s.fld F.SEC_ROOT_SLOT
  if go && revocable k s then otpOr 0x4C0 (leBytes 4 (2 ^ k)) s else s

def execRootRevoke (who : Reader) (v : Word) (s : State) : Host.Outcome State Fault Refusal :=
  .next (gate who R.SEC_ROOT true (opRoot who v) s)

/-! Identity and attestation (R510 to R512). -/

/-- SK.seed, SK.prf and PK.seed of the identity key (R510). -/
def idSeeds (s : State) : List (List Byte) :=
  [1, 2, 3].map (fun k => (hmac256 (otpBytes s 0x600 32) [BitVec.ofNat 8 k]).take 16)

/-- The identity public key: PK.seed and PK.root (R510). (Assumption 38, DESIGN CHOICE.) -/
def idPk (s : State) : List Byte := (idSeeds s).getLastD [] ++ leBytes 16 (Config.slhRoot (idSeeds s))

/-- The words of a run of registers as bytes (R10). -/
def regBytes (s : State) (off n : Nat) : List Byte := (List.range n).flatMap (fun k => leBytes 4 (s.word (off + 4 * k)).toNat)

/-- Registers filled from bytes (R10). -/
def setRegBytes (off : Nat) (bs : List Byte) (s : State) : State :=
  (List.range ((bs.length + 3) / 4)).foldl (fun s k =>
    s.setWord (off + 4 * k) (BitVec.ofNat 32 (leNat ((bs.drop (4 * k)).take 4)))) s

/-- The 128 bytes of an attestation report (R511). (Assumption 115, DEDUCED.) -/
def attReport (s : State) : List Byte :=
  let b (c : Bool) (k : Nat) : Nat := if c then 2 ^ k else 0
  let slot := s.fld F.SEC_BOOT_STAT_KEY_SLOT
  leBytes 2 0x0100 ++ leBytes 1 (lcState s) ++ leBytes 1 (dbgLevel s) ++
    leBytes 1 (if inRecovery s then 0xFF else slot) ++ leBytes 1 (s.fld F.SEC_RB_IMG) ++
    leBytes 1 (satNat 255 (rollbackCount s)) ++ leBytes 1 (b (inRecovery s) 0 + b (s.bit F.TB_STATUS_VALID) 1) ++
    leBytes 4 (s.word R.DEV_SERIAL_LO).toNat ++ leBytes 4 (s.word R.DEV_SERIAL_HI).toNat ++ leBytes 8 s.now64 ++
    regBytes s (R.SEC_ATT_NONCE 0) 8 ++ regBytes s (R.SEC_IMG_DIGEST 0) 8 ++
    (if inRecovery s then List.replicate 32 0 else slotHash s slot) ++ List.replicate 8 0

/-- A write of SEC_ATT_CTRL; GO starts signing, and is ignored while BUSY (R512). (Assumption 115, DEDUCED.) -/
def opAttest (v : Word) (s : State) : State :=
  if !v.toNat.testBit 31 || s.sec.att.isSome || lcState s == 4 then s
  else
    let a := s.fld F.SEC_ATT_ADDR_HI_ADDR_HI * 2 ^ 32 + s.fld F.SEC_ATT_ADDR_LO_ADDR / 64 * 64
    { s with sec := { s.sec with att := some (attReport s, a) } }.setFld F.SEC_ATT_CTRL_BUSY 1

def execAttestGo (who : Reader) (v : Word) (s : State) : Host.Outcome State Fault Refusal :=
  .next (gate who R.SEC_ATT_CTRL true (opAttest v) s)

/-- The signed report is written to host memory; a failed write ends with ST_ABORT (R512). (Assumption 38, DESIGN CHOICE; assumption 115, DEDUCED.) -/
def execAttestDone (written : Bool) (s : State) : Host.Outcome State Fault Refusal :=
  .next (match s.sec.att with
    | some (r, a) =>
      let s := { s with sec := { s.sec with att := none } }.setFld F.SEC_ATT_CTRL_BUSY 0
      if written then
        raise 125 ((s.setHostBytes a (r ++ leBytes 17088 (Config.slhSign (idSeeds s) r))).setFld F.SEC_ATT_CTRL_RESULT ST.ok)
      else s.setFld F.SEC_ATT_CTRL_RESULT ST.abort
    | none => s)

/-! The protection unit's entries (R515). -/

/-- A write of PERM commits the entry with its staged BASE and LIMIT (R515). -/
def opPuPerm (who : Reader) (n : Nat) (v : Word) (s : State) : State :=
  let go := vaultRights who s
  let s := plainWrite who (R.SEC_PU_PERM n) v s
  if go then
    { s with pu := Sparse.put (fun _ => {}) s.pu n {
        en := s.bit (F.SEC_PU_PERM_EN n), space := s.fld (F.SEC_PU_BASE_SPACE n), base := s.fld (F.SEC_PU_BASE_BASE n),
        limit := s.fld (F.SEC_PU_LIMIT_LIMIT n), sqmask := s.fld (F.SEC_PU_PERM_SQMASK n),
        rights := s.fld (F.SEC_PU_PERM_RIGHTS n) } }
  else s

def execPuCommit (who : Reader) (n : Fin 32) (v : Word) (s : State) : Host.Outcome State Fault Refusal :=
  .next (gate who (R.SEC_PU_PERM n) true (opPuPerm who n v) s)

/-! Debug sessions (R523 to R527). -/

/-- The nonce is renewed from the entropy source: four free words (R523). (Assumption 118, DEDUCED.) -/
def nonceRenew (s : State) : State :=
  (List.range 4).foldl (fun s k =>
    let d := s.draw
    d.2.setWord (R.SEC_DBG_NONCE k) (BitVec.ofNat 32 d.1)) s

/-- The session ends: HOLD_AWAKE clears with it (R526, R528). -/
def dbgEnd (s : State) : State :=
  match s.dbg with
  | none => s
  | some _ =>
    let s := ({ s with dbg := none }.setFld F.SEC_DBG_STAT_LEVEL 0).setFld F.SEC_DBG_STAT_SESSION 0
    let s := (s.setFld F.SEC_DBG_CTRL_HOLD_AWAKE 0).setFld F.SEC_DBG_STAT_HOLD 0
    raise 127 ((s.setWord R.SEC_DBG_EXP_LO 0).setWord R.SEC_DBG_EXP_HI 0)

/-- A session opens, or replaces an open one (R523). -/
def dbgOpen (d : DbgSession) (s : State) : State :=
  let s := ({ s with dbg := some d }.setFld F.SEC_DBG_STAT_LEVEL d.level).setFld F.SEC_DBG_STAT_SESSION 1
  raise 127 ((s.setWord R.SEC_DBG_EXP_LO (BitVec.ofNat 32 d.expiry)).setWord R.SEC_DBG_EXP_HI (BitVec.ofNat 32 (d.expiry / 2 ^ 32)))

/-- Whether an expiry, SPT64, has been reached on the timebase. -/
def expiryPast (e : Nat) (s : State) : Bool := decide (s.widen e ≤ s.now80)

/-- A session whose expiry is reached on the timebase ends (R526). -/
def sessionCheck (s : State) : State :=
  match s.dbg with
  | some d => if d.expiry ≠ 0 ∧ expiryPast d.expiry s then dbgEnd s else s
  | none => s

def execSessionExpiry (s : State) : Host.Outcome State Fault Refusal := .next (sessionCheck s)

/-- The kind of credential a lifecycle state requires: 0 none, 1 certificate, 2 token (R527). -/
def lcKind (lc : Nat) : Nat := if lc = 1 ∨ lc = 3 then 1 else if lc = 2 then 2 else 0

/-- The highest debug level of a lifecycle state (R527). -/
def lcCap (lc : Nat) : Nat := if lc = 2 then 1 else if lc = 4 then 0 else 2

/-- A write of SEC_DBG_CTRL: END from Vault mode ends the session; HOLD_AWAKE is the debug port's, at FULL in BLANK or
PROVISIONED (R526, R527). -/
def opDbgCtrl (who : Reader) (v : Word) (s : State) : State :=
  let go := vaultRights who s && v.toNat.testBit 31
  let old := s.fld F.SEC_DBG_CTRL_HOLD_AWAKE
  let s := plainWrite who R.SEC_DBG_CTRL v s
  let s := if who == .debug && dbgLevel s == 2 && decide (lcState s ≤ 1) then s else s.setFld F.SEC_DBG_CTRL_HOLD_AWAKE old
  let s := s.setFld F.SEC_DBG_STAT_HOLD (s.fld F.SEC_DBG_CTRL_HOLD_AWAKE)
  if go then dbgEnd s else s

def execDbgEnd (who : Reader) (v : Word) (s : State) : Host.Outcome State Fault Refusal :=
  .next (gate who R.SEC_DBG_CTRL true (opDbgCtrl who v) s)

/-- Bytes of a signature, and of a public key, by PARAM (R503). -/
def sigLen (param : Nat) : Nat := match param with | 0 => 7856 | 1 => 17088 | 2 => 16224 | _ => 29792
/-- Bytes of a public key by PARAM (R503). -/
def pkLen (param : Nat) : Nat := match param with | 2 => 48 | 3 => 64 | _ => 32

/-- Whether a credential has the form of R522 and the kind its lifecycle state requires (R523). (Assumption 116, DEDUCED.) -/
def credForm (c : List Byte) (s : State) : Bool :=
  let p := leAt c 4 1
  leAt c 0 2 == 0x0100 && leAt c 2 1 != 0 && leAt c 2 1 == lcKind (lcState s) &&
    (leAt c 3 1 == 1 || leAt c 3 1 == 2) && decide (p ≤ 3) && decide (leAt c 5 1 ≤ 1) && leAt c 6 2 == 0 &&
    (leAt c 2 1 == 2 || leAt c 16 16 == 0) && leAt c 104 24 == 0 && decide (c.length = 128 + sigLen p)

/-- Whether a credential's key, signature, serial and nonce are right (R523). (Assumption 38, DESIGN CHOICE; assumption 116, DEDUCED.) -/
def credAuth (c : List Byte) (s : State) : Bool :=
  let p := leAt c 4 1
  let k := 4 + leAt c 5 1
  let pk := (c.drop 40).take (pkLen p)
  slotLive s k && sha256 pk == slotHash s k && Config.slhVerify p pk (sha256 (c.take 128)) (c.drop 128) &&
    (c.drop 8).take 8 == leBytes 4 (s.word R.DEV_SERIAL_LO).toNat ++ leBytes 4 (s.word R.DEV_SERIAL_HI).toNat &&
    (leAt c 2 1 == 1 || (c.drop 16).take 16 == regBytes s (R.SEC_DBG_NONCE 0) 4)

/-- Whether a credential's expiry stands: a token's lies after the timebase and at most 86,400 s beyond it, with the
timebase valid; a certificate's, if it has one, has not passed (R523). (Assumption 116, DEDUCED.) -/
def credTime (c : List Byte) (s : State) : Bool :=
  let e := leAt c 32 8
  let t := s.widen e
  if leAt c 2 1 = 2 then
    e != 0 && s.bit F.TB_STATUS_VALID && decide (s.now80 < t) && decide (t ≤ s.now80 + 86400 * 2 ^ 32)
  else e == 0 || (s.bit F.TB_STATUS_VALID && !expiryPast e s)

/-- Verification of the credential shifted in ends (R523): a session opens, or LAST_RESULT says why not. (Assumption 116, DEDUCED.) -/
def execCredVerifyDone (s : State) : Host.Outcome State Fault Refusal :=
  .next (match s.sec.cred with
    | some c =>
      let s := { s with sec := { s.sec with cred := none } }
      let r := if !credForm c s then ST.format else if !credAuth c s then ST.auth else if !credTime c s then ST.late else ST.ok
      let s := nonceRenew (s.setFld F.SEC_DBG_STAT_LAST_RESULT r)
      if r = ST.ok then dbgOpen ⟨min (leAt c 3 1) (lcCap (lcState s)), leAt c 2 1, leAt c 32 8⟩ s else raise 125 s
    | none => s)

/-! Lifecycle (R517 to R520). -/

/-- Whether a transition is permitted (R518). -/
def lcAllowed (src dst : Nat) (s : State) : Bool :=
  (src == 0 && dst == 1 && (List.range 4).any (slotLive s) && [4, 5].any (slotLive s)) ||
    (src == 1 && dst == 2) || (src == 2 && dst == 3) || (src != 4 && dst == 4)

/-- Lifecycle bits are set. -/
def lcSet (bits : Nat) (s : State) : State := otpOr 0x500 (leBytes 4 bits) s

/-- A write of LC_CTRL with GO from Vault mode requests the transition (R518); RETURN sets RETURN_START first (R519). -/
def opLcCtrl (who : Reader) (v : Word) (s : State) : State :=
  let go := vaultRights who s && v.toNat.testBit 31
  if go && s.bit F.LC_CTRL_BUSY then s.setFld F.LC_CTRL_RESULT ST.busy
  else
    let s := plainWrite who R.LC_CTRL v s
    let t := s.fld F.LC_CTRL_TARGET
    if !go then s
    else if s.fld F.LC_CTRL_CONFIRM ≠ 0xA5 ∨ !lcAllowed (lcState s) t s then s.setFld F.LC_CTRL_RESULT ST.format
    else
      let s := { s with sec := { s.sec with lc := some t } }.setFld F.LC_CTRL_BUSY 1
      if t = 3 then lcSet 4 s else s

def execLcTransition (who : Reader) (v : Word) (s : State) : Host.Outcome State Fault Refusal :=
  .next (gate who R.LC_CTRL true (opLcCtrl who v) s)

/-- The operator secret region is programmed to ones and RETURN is set (R519). -/
def lcErase (s : State) : State := lcSet 8 (otpOr 0x1000 (List.replicate 0x1000 0xFF) s)

/-- The transition completes (R518): the state applies at once, and a session whose credential it does not require ends
(R526). -/
def execLcTransitionDone (s : State) : Host.Outcome State Fault Refusal :=
  .next (match s.sec.lc with
    | some t =>
      let s := { s with sec := { s.sec with lc := none } }
      let s := match t with
        | 1 => lcSet 1 s
        | 2 => lcSet 2 s
        | 3 => lcErase s
        | _ => otpOr 0x600 (List.replicate 32 0xFF) (lcSet 16 s)
      let s := raise 126 ((s.setFld F.LC_CTRL_BUSY 0).setFld F.LC_CTRL_RESULT ST.ok)
      match s.dbg with
      | some d => if lcState s = 4 ∨ d.kind ≠ lcKind (lcState s) then dbgEnd s else s
      | none => s
    | none => s)

/-! The JTAG port's own instructions (R521). -/

/-- Bits leave the JTAG port. (Assumption 117, DEDUCED.) -/
def jtagShift (bits value : Nat) (s : State) : State := s.emit (.jtag bits value)

/-- The JTAG instruction register takes a code; EXTEST's drive ends with another instruction. (Assumption 117, DEDUCED.) -/
def jtagIr (code : Nat) (drives : Bool) (s : State) : State :=
  { s with sec := { s.sec with jtag := { s.sec.jtag with ir := code, drives := drives } } }

/-- BYPASS: one bit, 0. -/
def execJtagBypass (s : State) : Host.Outcome State Fault Refusal := .next (jtagShift 1 0 (jtagIr 0xFF false s))

/-- IDCODE: stepping, part, manufacturer code from OTP (assumption 3), 1. (Assumption 172, DEDUCED.) -/
def idcode (s : State) : Nat := (if s.fld F.DEV_ID_STEP = 0xA1 then 1 else 0) * 2 ^ 28 + 0x0960 * 2 ^ 12 + s.otpItem 4 % 2 ^ 11 * 2 + 1

def execJtagIdcode (s : State) : Host.Outcome State Fault Refusal := .next (jtagShift 32 (idcode s) (jtagIr 1 false s))

/-- Cells as a number, the first the least significant. -/
def cellsNat (l : List Bool) : Nat := l.foldr (fun b n => 2 * n + (if b then 1 else 0)) 0

/-- SAMPLE/PRELOAD: the pins' values leave, and the cells shifted in are held. -/
def execJtagSamplePreload (pins cells : List Bool) (s : State) : Host.Outcome State Fault Refusal :=
  let s := jtagIr 2 false s
  .next (jtagShift pins.length (cellsNat pins) { s with sec := { s.sec with jtag := { s.sec.jtag with cells := cells } } })

/-- EXTEST drives the boundary at FULL; otherwise it acts as BYPASS. -/
def execJtagExtest (pins cells : List Bool) (s : State) : Host.Outcome State Fault Refusal :=
  .next (if dbgLevel s = 2 then
      let s := jtagIr 0 true s
      jtagShift pins.length (cellsNat pins) { s with sec := { s.sec with jtag := { s.sec.jtag with cells := cells } } }
    else jtagShift 1 0 (jtagIr 0xFF false s))

/-- NONCE shifts out the serial and the nonce; not available in VOID, where it acts as BYPASS. -/
def execJtagNonce (s : State) : Host.Outcome State Fault Refusal :=
  .next (if lcState s = 4 then jtagShift 1 0 (jtagIr 0xFF false s)
    else jtagShift 192 (ownSerial s + leNat (regBytes s (R.SEC_DBG_NONCE 0) 4) * 2 ^ 64) (jtagIr 0x10 false s))

/-- CRED shifts in a credential of up to 32 KiB for verification; not available in VOID. (Assumption 116, DEDUCED.) -/
def execJtagCred (cred : List Byte) (s : State) : Host.Outcome State Fault Refusal :=
  .next (if lcState s = 4 then jtagShift 1 0 (jtagIr 0xFF false s)
    else
      let s := jtagIr 0x11 false s
      { s with sec := { s.sec with cred := some (cred.take 32768) } })

end Sys2Proof.Machine
end

