-- ==== Sys2Proof/Machine/Steps.lean ====
section
/-! DEFINITION. Applying a step of the timebase (R40, R59, R60, R163, R303, R526, R585), and the backup counter and the holdover
record in backup RAM (R45, R311, R548, R551). -/
namespace Sys2Proof.Machine

/-! Steps. -/

/-- An armed step reaches its tick (R39). (Assumption 51, DEDUCED.) -/
def stepDue (st : ArmedStep) (s : State) : Bool :=
  match st.atSecond with
  | some n => decide (n * secUnits ≤ s.nowU)
  | none => decide (st.afterTick < s.tick)

/-- While the timebase is coarse, TSYN's count since the switch moves with a step (R320). (Assumption 90, DEDUCED.) -/
def holdShift (amount : Int) (s : State) : State :=
  if s.coarse then { s with ck := { s.ck with holdU := ((s.ck.holdU : Int) + amount).toNat } } else s

/-- STEP_SEQ, and with a SOURCE also SOURCE and VALID (R40). -/
def stepStatus (source : Nat) (s : State) : State :=
  let s := s.setFld F.TB_STATUS_STEP_SEQ (s.fld F.TB_STATUS_STEP_SEQ + 1)
  if source = 0 then s else (s.setFld F.TB_STATUS_SOURCE source).setFld F.TB_STATUS_VALID 1

/-- The timebase moves by exactly the amount, modulo 2^48 s; edges at the step instant leave before it, those passed over
are suppressed, past-due entries are marked, and what depends on the timebase is judged afresh (R38, R40, R44, R59,
R163, R303, R526, R585). -/
def stepBy (amount : Int) (source : Nat) (s : State) : State :=
  let a := s.nowU
  let b := (((a : Int) + amount) % (wrapUnits : Int)).toNat
  let at_ := edgeNow s
  let s := stepStatus source (holdShift amount (discStep amount ((edgesDue at_ s).setNowU b)))
  let s := ringsStepped a b (edgesPassed at_ ((at_ : Int) + amount).toNat (raise 8 s))
  let s := ttStepped (decide (0 < amount)) s
  sessionCheck (keyCheck false (leapTake s))

/-- The armed step is applied at its tick. -/
def execStepApply (s : State) : Host.Outcome State Fault Refusal :=
  .next (match s.tb.step with
    | some st => if stepDue st s then stepBy st.amount st.source (setArmed none s) else s
    | none => s)

/-! The backup counter (R45, R548). -/

/-- The counter's seconds. -/
def bkSec (s : State) : Nat := s.fld F.PWR_BK_SEC_HI_SEC_HI * 2 ^ 32 + (s.word R.PWR_BK_SEC_LO).toNat

/-- The counter holds seconds and a sub-second count. -/
def bkSet (sec sub : Nat) (s : State) : State :=
  ((s.setFld F.PWR_BK_SEC_HI_SEC_HI (sec / 2 ^ 32)).setFld F.PWR_BK_SEC_LO_SEC_LO sec).setFld F.PWR_BK_SUB_SUB sub

/-- One crystal cycle of the counter. -/
def bkCycle (s : State) : State :=
  let sub := s.fld F.PWR_BK_SUB_SUB + 1
  if sub = 32768 then bkSet (bkSec s + 1) 0 s else s.setFld F.PWR_BK_SUB_SUB sub

/-- At a whole second the counter is realigned while VALID is 1 and SOURCE is not BACKUP (R45); its VALID is set (R548). (Assumption 51, DEDUCED; assumption 53, DEDUCED.) -/
def execBackupRealign (s : State) : Host.Outcome State Fault Refusal :=
  .next (if wholeSecond s && s.bit F.TB_STATUS_VALID && s.fld F.TB_STATUS_SOURCE != 1 then
      (bkSet s.tb.sec 0 s).setFld F.PWR_BK_SUB_VALID 1
    else s)

/-- The crystal has not oscillated for 2 ms (R548). (Assumption 54, DEDUCED.) -/
def execXtalFail (s : State) : Host.Outcome State Fault Refusal :=
  let s := { s with pwr := { s.pwr with xtalOff := true } }
  .next (((s.setFld F.PWR_BK_SUB_VALID 0).setFld F.PWR_BK_SUB_XTAL_FAIL 1).setFld F.PWR_BK_SUB_XTAL_OK 0)

/-- At release the timebase steps to a valid counter's time, SOURCE BACKUP (R45). (Assumption 53, DEDUCED.) -/
def backupStep (s : State) : State :=
  if s.bit F.PWR_BK_SUB_VALID then
    let t := bkSec s * secUnits + s.fld F.PWR_BK_SUB_SUB * (secUnits / 32768)
    stepBy ((t : Int) - (s.nowU : Int)) 1 s
  else s

/-! The holdover record (R311, R551). -/

/-- Address of a copy of the record: A or B. -/
def holdAddr (b : Bool) : Nat := if b then 0x3F10040 else 0x3F10000

/-- A copy's 64 bytes. -/
def holdCopy (b : Bool) (s : State) : List Byte := s.memBytes (holdAddr b) 64

/-- A copy is valid when its CRC matches. -/
def holdOk (r : List Byte) : Bool := (crc32 (r.take 60)).toNat == leAt r 60 4

/-- The copy that holds the newest valid record: with both valid, B where its RSEQ is ahead by 1 to 2^15 − 1. -/
def holdNewest (s : State) : Option Bool :=
  let a := holdCopy false s
  let b := holdCopy true s
  let d := (leAt b 2 2 + 2 ^ 16 - leAt a 2 2) % 2 ^ 16
  if holdOk a && holdOk b then some (decide (1 ≤ d) && decide (d < 2 ^ 15))
  else if holdOk a then some false else if holdOk b then some true else none

/-- A record, RSEQ aside, goes into the copy without the newest valid one, RSEQ one higher, CRC last; copy A with RSEQ 0
when neither is valid. -/
def holdWrite (r : List Byte) (s : State) : State :=
  let n := holdNewest s
  let b := match n with | some b => !b | none => false
  let q := match n with | some b => leAt (holdCopy b s) 2 2 + 1 | none => 0
  let r := putAt r 2 (leBytes 2 q)
  s.setMemBytes (holdAddr b) (putAt r 60 (leBytes 4 (crc32 (r.take 60)).toNat))

/-- An instant in units as SPT64. -/
def spt64Of (u : Int) : Nat := (u / (fracUnits : Int) % (2 ^ 64 : Int)).toNat

/-- The record of the discipline as it stands. (Assumption 91, DEDUCED.) -/
def holdRecord (s : State) : List Byte :=
  let s := ofsSync (sgAccrue s)
  let d := s.disc
  leBytes 1 (tpLevel s) ++ leBytes 1 (if s.refLost then 1 else 0) ++ leBytes 2 0 ++
    leBytes 8 (match d.ref with | some r => spt64Of r | none => 0) ++ leBytes 4 d.u0 ++
    leBytes 8 (ofSigned 64 (roundRat (d.freq * 10 ^ 18))) ++ leBytes 8 (ofsWords s) ++
    leBytes 4 (s.fld F.TP_OCXO_TUNE) ++ leBytes 4 (satNat 0xFFFFFFFF (roundRat (d.aAcc * 10)).toNat) ++
    leBytes 8 s.now64 ++ List.replicate 16 0

/-- The record is refreshed (R551). -/
def holdRefresh (s : State) : State := holdWrite (holdRecord s) s

def execHoldoverRefresh (s : State) : Host.Outcome State Fault Refusal := .next (holdRefresh s)

/-- The discipline resumes from a valid record (R311): LOCKED in HOLDOVER, the others as they were; EV_088 for the level. (Assumption 91, DEDUCED.) -/
def holdRestore (s : State) : State :=
  match holdNewest s with
  | none => s
  | some b =>
    let r := holdCopy b s
    let lv := leAt r 0 1
    if lv = 0 ∨ 3 < lv then s
    else
      let ref := s.widen (leAt r 4 8) * fracUnits
      let since := secondsOf ((s.nowU : Int) - ((s.widen (leAt r 40 8) * fracUnits : Nat) : Int))
      let a := if (leAt r 1 1).testBit 0 then s.fld F.TP_SG_CFG_REF_A * 10 ^ 7 else s.fld F.TP_SG_CFG_SG_A
      let freq : Rat := (toSigned 64 (leAt r 16 8) : Rat) / 10 ^ 18
      let s := { s with disc := { s.disc with
        freq := freq, rest := (toSigned 32 (s.word R.TB_RATE).toNat : Rat) / 2 ^ 44, ref := some ref, u0 := leAt r 12 4, aMark := s.nowU,
        aAcc := (leAt r 36 4 : Rat) / 10 + (a : Rat) * since / 10 ^ 4,
        ofs := (toSigned 64 (leAt r 24 8) : Rat) / 1000, ofsMark := s.nowU, slew := 0 } }
      sandglass (expireCheck (setLevel (if lv = 1 then 2 else lv) s))

end Sys2Proof.Machine
end

