-- ==== Sys2Proof/Machine/Tightrope.lean ====
section
/-! DEFINITION. The Tightrope ports (chapter 17): training, reliable frames, credits, jobs and results, mirrors, the twin's
heartbeats and roles, and two-way time transfer. -/
namespace Sys2Proof.Machine

/-! Training (R446, R450, R451). -/

/-- A port's STATE is set. -/
def setLinkState (p st : Nat) (s : State) : State := s.setFld (F.TRP_PORT_STAT_STATE p) st

/-- A job of a port's source ends without a record; one that was FORWARDED is cancelled onward (R458). -/
def jobDrop (k : Nat) (s : State) : State :=
  match jobAt s k with
  | none => s
  | some j =>
    let s := if j.state = 7 then
        linkSendRel j.port 0x12 (leBytes 4 (slotGen s k * 2 ^ 14 + k) ++ List.replicate 4 0) s
      else s
    setJob s k none

/-- What happens when a port leaves UP (R450, R458): its FORWARDED jobs return, its source's jobs end, its frames, credits
and waiting mirrors are gone. (Assumption 104, DEDUCED.) -/
def linkDown (p : Nat) (s : State) : State :=
  let l := link s p
  let s := setLink s p { exNo := l.exNo, offs := l.offs, had := l.had, refused := l.refused, hbSeq := l.hbSeq, stepMark := l.stepMark }
  let s := raise (112 + p) (s.setFld (F.TRP_PORT_STAT_DOWN_CNT p) (satNat 255 (s.fld (F.TRP_PORT_STAT_DOWN_CNT p) + 1)))
  let s := (jobList s).foldl (fun s e => if e.2.src = 32 + p then jobDrop e.1 s else s) s
  (jobList s).foldl (fun s e => if e.2.state = 7 ∧ e.2.port = p then jobRetake e.1 s else s) s

/-- A port goes to OFF or DOWN, leaving UP if it was there. -/
def linkStop (p st : Nat) (s : State) : State :=
  let was := linkUp p s
  let s := setLinkState p st s
  if was then linkDown p s else s

/-- A port may run in the present power state (R469). -/
def linkAllowed (p : Nat) (s : State) : Bool := pstate s != 2 || s.bit (F.TRP_PORT_CFG_BURST_KEEP p)

/-- A port's state follows its EN and the power state. -/
def linkFollow (p : Nat) (s : State) : State :=
  let on := s.bit (F.TRP_PORT_CFG_EN p) && linkAllowed p s
  if on && linkState p s == 0 then setLinkState p 1 s
  else if !on && linkState p s != 0 then linkStop p 0 s
  else s

/-- The power state has changed (R469). -/
def linksPower (s : State) : State := (List.range 4).foldl (fun s p => linkFollow p s) s

/-- A write of TRP_PORT_p_CFG. -/
def opLinkCfg (who : Reader) (p : Nat) (v : Word) (s : State) : State :=
  linkFollow p (plainWrite who (R.TRP_PORT_CFG p) v s)

def execPortEnable (who : Reader) (p : Fin 4) (v : Word) (s : State) : Host.Outcome State Fault Refusal :=
  .next (gate who (R.TRP_PORT_CFG p) true (opLinkCfg who p v) s)

/-- Lane 0 has block lock. (Assumption 171, DESIGN CHOICE.) -/
def execBlockLock (p : Fin 4) (s : State) : Host.Outcome State Fault Refusal :=
  .next (if linkState p s = 1 then setLinkState p 2 s else s)

/-- The lanes are aligned, or lane 0 alone where lane 1 has no lock (R446). (Assumption 171, DESIGN CHOICE.) -/
def execLaneAlign (p : Fin 4) (lane1 : Bool) (s : State) : Host.Outcome State Fault Refusal :=
  .next (if linkState p s = 2 then setLinkState p 3 (s.setBit (F.TRP_PORT_STAT_WIDTH1 p) (!lane1)) else s)

/-- Lane 1 loses block lock while the port is UP (R446). -/
def execLane1Loss (p : Fin 4) (s : State) : Host.Outcome State Fault Refusal :=
  .next (if linkUp p s then s.setFld (F.TRP_PORT_STAT_WIDTH1 p) 1 else s)

/-- The body of this device's HELLO (R451). -/
def helloBytes (p : Nat) (s : State) : List Byte :=
  leBytes 2 0x000C ++ [0, BitVec.ofNat 8 p] ++ leBytes 4 (s.fld (F.TRP_PORT_FEAT_OFFER p)) ++ leBytes 8 (ownSerial s) ++
    [BitVec.ofNat 8 (if p = 0 then s.fld F.TRP_TWIN_STAT_ROLE else 0)] ++ List.replicate 7 0

/-- A HELLO is sent while in HELLO (R450). (Assumption 109, DEDUCED.) -/
def execHelloSend (p : Fin 4) (s : State) : Host.Outcome State Fault Refusal :=
  .next (if linkState p s = 3 then linkSend p 0x01 (helloBytes p s) s else s)

/-! Receiving (R447, R449). -/

/-- An ACK: acknowledged frames are dropped, progress restarts the resend timer, and what waited for room leaves (R449). -/
def linkAck (p ack : Nat) (s : State) : State :=
  let l := link s p
  let keep := l.unacked.filter (fun f => decide ((f.seq + 2 ^ 32 - ack) % 2 ^ 32 < 2 ^ 31))
  if keep.length = l.unacked.length then s
  else linkDrain p l.later (setLink s p { l with unacked := keep, progress := s.tick, resends := 0 })

/-- LEN of a received frame (R447). -/
def frameLen (h : FrameHead) : Nat := leAt h.line 1 1 * 2 ^ 16 + leAt h.line 2 2

/-- SEQ of a received frame. -/
def frameSeq (h : FrameHead) : Nat := leAt h.line 4 4

/-- ACK of a received frame. -/
def frameAck (h : FrameHead) : Nat := leAt h.line 8 4

/-- The frame types of R448. -/
def frameTypes : List Nat := [0x01, 0x02, 0x03, 0x04, 0x05, 0x10, 0x11, 0x12, 0x20]

/-- A received frame is not to be discarded (R447): LEN is at most 65,696 and fits its length, its TYPE is not reserved, its reserved
header bytes are 0 and its CRC matches. (Assumption 13, DESIGN CHOICE.) -/
def frameSound (h : FrameHead) : Bool :=
  let n := frameLen h
  decide (n ≤ 65696) && h.line.length == frameBytes n && frameTypes.contains (leAt h.line 0 1) && leAt h.line 12 4 == 0 &&
    (crc32 (h.line.take (16 + n))).toNat == leAt h.line (16 + n) 4

/-- A frame is received (R447, R449): discarded and counted when malformed; else its ACK is taken, and `f` is its effect.
A reliable one has an effect only with the next expected SEQ. Frames other than HELLO serve on an UP port only. (Assumption 103, DEDUCED.) -/
def linkRx (p : Nat) (h : FrameHead) (reliable : Bool) (f : State → State) (s : State) : State :=
  if linkState p s < 2 then s
  else if !frameSound h then
    s.setFld (F.TRP_PORT_ERRCNT_CRC_ERR p) (satNat 0xFFFF (s.fld (F.TRP_PORT_ERRCNT_CRC_ERR p) + 1))
  else if !linkUp p s then s
  else
    let s := linkAck p (frameAck h) (setLink s p { link s p with lastRx := s.tick })
    if !reliable then f s
    else if frameSeq h = (link s p).rxSeq then
      f (setLink s p { link s p with rxSeq := ((link s p).rxSeq + 1) % 2 ^ 32 })
    else s

/-- A frame whose body holds a nonzero reserved field is refused: it has no effect but its ACK and SEQ (R11). (Assumption 103, DEDUCED.) -/
def whole (h : FrameHead) (f : State → State) (s : State) : State := if h.rest = 0 then f s else s

/-- The highest bit of a mask of 16. -/
def topBit (m : Nat) : Nat := (List.range 16).foldl (fun a i => if m.testBit i then i else a) 0

/-- The pairing of ports is valid (R451). -/
def portsPair (p q : Nat) : Bool := (p == 0 && q == 0) || (p == 1 && (q == 2 || q == 3)) || ((p == 2 || p == 3) && q == 1)

/-- A HELLO selects the protocol and takes the port to UP, or leaves it in HELLO with VERSION or TOPOLOGY (R451, R452). (Assumption 109, DEDUCED.) -/
def helloTake (p : Nat) (b : HelloBody) (s : State) : State :=
  let s := ((s.setWord (R.TRP_PORT_PEER_LO p) (BitVec.ofNat 32 b.serial.toNat)).setWord (R.TRP_PORT_PEER_HI p)
    (BitVec.ofNat 32 (b.serial.toNat / 2 ^ 32))).setFld (F.TRP_PORT_STAT_MINOR p) b.minor.toNat
  let s := s.setFld (F.TRP_PORT_FEAT_PEER p) (b.feat.toNat % 256)
  let common := b.majors.toNat &&& 0x000C
  if common = 0 then raise 117 (s.setFld (F.TRP_PORT_STAT_VERSION p) 1)
  else if !portsPair p b.port.toNat then raise (112 + p) (s.setFld (F.TRP_PORT_STAT_TOPOLOGY p) 1)
  else
    let s := (s.setFld (F.TRP_PORT_STAT_MAJOR p) (topBit common)).setFld (F.TRP_PORT_FEAT_GRANT p)
      (s.fld (F.TRP_PORT_FEAT_OFFER p) &&& b.feat.toNat)
    let s := setLink s p { link s p with lastRx := s.tick, peerRole := b.role.toNat }
    raise (112 + p) (setLinkState p 4 s)

/-- A HELLO arrives. (Assumption 103, DEDUCED.) -/
def execHelloFrame (p : Fin 4) (h : FrameHead) (b : HelloBody) (s : State) : Host.Outcome State Fault Refusal :=
  .next (if linkState p s = 3 ∧ frameSound h = true ∧ h.rest = 0 then helloTake p b s else linkRx p h false (fun s => s) s)

/-- Block lock on lane 0 is lost, or an UP port has had no valid frame for 100 µs (R450). -/
def execLinkTimeout (p : Fin 4) (lockLost : Bool) (s : State) : Host.Outcome State Fault Refusal :=
  .next (
    if linkState p s < 2 then s
    else if lockLost then linkStop p 1 s
    else if linkUp p s && decide ((link s p).lastRx + 12000 ≤ s.tick) then linkStop p 1 s
    else s)

/-- 20 µs without progress in ACK: every unacknowledged frame is resent, or after 8 resends the port leaves UP (R449). (Assumption 104, DEDUCED.) -/
def execReplayTimeout (p : Fin 4) (s : State) : Host.Outcome State Fault Refusal :=
  let l := link s p
  .next (
    if !linkUp p s || l.unacked.isEmpty || decide (s.tick < l.progress + 2400) then s
    else if 8 ≤ l.resends then linkStop p 1 s
    else
      let s := setLink s p { l with resends := l.resends + 1, progress := s.tick }
      let s := s.setFld (F.TRP_PORT_ERRCNT_RETX p) (satNat 0xFFFF (s.fld (F.TRP_PORT_ERRCNT_RETX p) + l.unacked.length))
      l.unacked.foldl (fun s f => frameOut p f.kind f.seq f.body s) (s.setFld (F.TRP_PORT_STAT_REPLAY p) 1))

/-! Credits (R453 to R455). -/

/-- Job credits granted and not used. -/
def jobOut (p : Nat) (s : State) : Nat := (link s p).jobGrant - (link s p).jobUsed

/-- One more job credit is granted where R453 allows it. (Assumption 105, DEDUCED.) -/
def jobCredit (p : Nat) (s : State) : State :=
  let src := 32 + p
  if jobOut p s < s.fld (F.TRP_PORT_CFG_CRED_JOB p) ∧ srcInuse src s + jobOut p s < s.fld (F.CAR_SRC_LIMIT_MAXSLOT src) ∧
      srcTakes src s ∧ 1 ≤ resAvail p s then
    let l := link s p
    setLink s p { l with jobGrant := l.jobGrant + 1, resHeld := l.resHeld + 1 }
  else s

/-- The grants of a port are brought up to date (R453): job and block credits on T0 and T1, result credits on T0, T2 and T3. (Assumption 105, DEDUCED.) -/
def creditGrant (p : Nat) (s : State) : State :=
  let s := if p < 2 then times (jobCredit p) 255 s else s
  let s := if p < 2 then
      let l := link s p
      let n := min (s.fld (F.TRP_PORT_BLK_CRED_BLK p) - blkOut p s) (stageFree s)
      setLink s p { l with blkGrant := l.blkGrant + n }
    else s
  if p = 1 then s
  else
    let l := link s p
    setLink s p { l with resGrant := max l.resGrant (l.resUsed + s.fld (F.TRP_PORT_CFG_CRED_RES p)) }

/-- A CREDIT frame is sent (R450, R453). -/
def execCreditSend (p : Fin 4) (s : State) : Host.Outcome State Fault Refusal :=
  .next (
    if linkUp p s then
      let s := creditGrant p s
      let l := link s p
      linkSend p 0x02 (leBytes 4 l.jobGrant ++ leBytes 4 l.blkGrant ++ leBytes 4 l.resGrant ++ List.replicate 4 0) s
    else s)

/-- A cumulative count modulo 2^32 read as the value at or above the last one. -/
def countOn (old got : Nat) : Nat := old + (got + 2 ^ 32 - old % 2 ^ 32) % 2 ^ 32

/-- A CREDIT frame arrives (R453). -/
def execCreditFrame (p : Fin 4) (h : FrameHead) (jobs blocks results : BitVec 32) (s : State) :
    Host.Outcome State Fault Refusal :=
  .next (linkRx p h false (whole h fun s =>
    let l := link s p
    setLink s p { l with jobGot := countOn l.jobGot jobs.toNat, blkGot := countOn l.blkGot blocks.toNat,
                         resGot := countOn l.resGot results.toNat }) s)

/-- The descriptor of a JOB body. -/
def bodyDesc (body : List Byte) : List Byte := body.take 128 ++ List.replicate (128 - body.length) 0

/-- A job received over Tightrope is admitted, its job and block credits used (R453, R454, R456). (Assumption 106, DEDUCED.) -/
def jobTake (p : Nat) (body : List Byte) (s : State) : State :=
  let d := bodyDesc body
  let l := link s p
  let s := setLink s p { l with jobUsed := l.jobUsed + 1, blkUsed := l.blkUsed + blocksFor (descLen d) }
  let k := nextSlot s
  let s := takeDescriptor (32 + p) (s.fld (F.TRP_PORT_STAT_MAJOR p) == 2) d (some (body.drop 128)) s
  match k with
  | some k =>
    match jobAt s k with
    | some j => if j.state = 1 ∧ body.length ≠ 128 + descLen d then jobEnd k ST.format 0x24 s else s
    | none => s
  | none => s

/-- The oldest waiting JOB frame of a port is taken, when the Carousel takes from its source (R204, R254). -/
def jobWaitingTake (p : Nat) (s : State) : State :=
  match (link s p).waiting with
  | [] => s
  | body :: rest =>
    if srcTakes (32 + p) s then jobTake p body (setLink s p { link s p with waiting := rest }) else s

/-- The source that comes first of those that may be served is served (R204, R254, R431): a port's oldest waiting JOB frame is taken; of
a job ring the descriptor is read. One read is in flight at a time. (Assumption 48, DESIGN CHOICE; assumption 105, DEDUCED.) -/
def jobsTake (s : State) : State :=
  match srcPick (takeSources s) s with
  | some j => if 32 ≤ j then jobWaitingTake (j - 32) s else if s.car.reading.isNone then descRead j s else s
  | none => s

/-- A JOB frame's effect (R455): within its credits it waits to be taken, else it is discarded. (Assumption 105, DEDUCED; assumption
106, DEDUCED.) -/
def jobFrame (p : Nat) (body : List Byte) (s : State) : State :=
  let l := link s p
  let held := (l.waiting.map (fun b => blocksFor (descLen (bodyDesc b)))).sum
  if 2 ≤ p ∨ jobOut p s ≤ l.waiting.length ∨ blkOut p s < held + blocksFor (descLen (bodyDesc body)) then
    raise 119 (s.setFld (F.TRP_PORT_STAT_CREDIT_VIOL p) 1)
  else jobsTake (setLink s p { l with waiting := l.waiting ++ [body] })

/-- A JOB frame arrives. -/
def execJobFrame (p : Fin 4) (h : FrameHead) (body : List Byte) (s : State) : Host.Outcome State Fault Refusal :=
  .next (linkRx p h true (whole h (jobFrame p body)) s)

/-- The reserved fields of a record are 0, and so is every satellite index a valid one (R11, R22, R220, R221). -/
def recordOk (r : List Byte) : Bool :=
  let ms := (r.drop (64 + 64 * (leAt r 7 1 % 2)))
  leAt r 7 1 / 32 == 0 && leAt r 48 16 == 0 && leAt r 16 4 / 2 ^ 25 == 0 &&
    (List.range (leAt r 4 1)).all (fun k =>
      decide (leAt ms (24 * k) 1 ≤ 220) && decide (leAt ms (24 * k + 1) 1 < 64) && decide (leAt ms (24 * k + 2) 1 < 8) &&
        leAt ms (24 * k + 20) 4 == 0)

/-- A job awaits a forwarded result: it is FORWARDED, or its deadline or a power state ended it so in this FS tick (R225, R228). (Assumption 23, DESIGN CHOICE.) -/
def awaitsResult (j : Job) (s : State) : Bool := j.state == 7 || (j.state == 6 && j.was == 7 && j.endTick == s.tick && decide (1 < j.rank))

/-- A RESULT frame's effect (R228): matched by FWD_TAG and relayed to the job's source, or discarded. (Assumption 106, DEDUCED.) -/
def resultTake (p tag : Nat) (r : List Byte) (s : State) : State :=
  let k := tag % 2 ^ 14
  let s := setLink s p { link s p with resUsed := (link s p).resUsed + 1 }
  let late (s : State) : State :=
    flagEvent F.CAR_ERR_LATE_RES 78 (s.setFld F.CAR_FWD_STAT_LATE_RES (satNat 0xFFFF (s.fld F.CAR_FWD_STAT_LATE_RES + 1)))
  match jobAt s k with
  | some j =>
    if awaitsResult j s && slotGen s k == tag / 2 ^ 14 && p != 1 && recordOk r then
      let r := putAt r 6 [BitVec.ofNat 8 (satNat 255 (leAt r 6 1 + 1)), BitVec.ofNat 8 (leAt r 7 1 ||| 4)]
      recordWrite k (setJob { s with car := { s.car with seq := s.car.seq + 1 } } k (some { j with
        state := 6, status := leAt r 2 1, detail := leAt r 3 1, prof := none, epoch := none
        was := 7, endTick := s.tick, rank := 1, order := s.car.seq, record := some r }))
    else late s
  | none => late s

/-- A RESULT frame arrives; its record goes on at once where its destination has room (R468). -/
def execResultFrame (p : Fin 4) (h : FrameHead) (tag : BitVec 32) (record : List Byte) (s : State) :
    Host.Outcome State Fault Refusal :=
  .next (linkRx p h true (whole h (resultTake p tag.toNat record)) s)

/-- A CANCEL frame's effect: the port's job with that tag ends without a result (R456). (Assumption 106, DEDUCED.) -/
def cancelTake (p tag : Nat) (s : State) : State :=
  (jobList s).foldl (fun s e =>
    if e.2.src = 32 + p ∧ e.2.state ≠ 6 ∧ descFwd e.2.desc = tag then
      jobCancel e.1 (modJob e.1 (fun j => { j with silent := true }) s)
    else s) s

/-- A CANCEL frame arrives. -/
def execCancelFrame (p : Fin 4) (h : FrameHead) (tag : BitVec 32) (s : State) : Host.Outcome State Fault Refusal :=
  .next (linkRx p h true (whole h (cancelTake p tag.toNat)) s)

/-! Mirrors (R459 to R461). -/

/-- A slot a parent sends, with SRC 2 (R459). -/
def peerSlot (b : List Byte) : List Byte := putAt b 0 [BitVec.ofNat 8 (leAt b 0 1 % 8 + 0x10 + leAt b 0 1 / 32 * 32)]

/-- Words are written to consecutive registers by a mirror. -/
def mirrorWords (offs : List Nat) (data : List Byte) (f : Nat → Word → State → State) (s : State) : State :=
  (offs.zip (bytesWords offs.length data)).foldl (fun s e => f e.1 e.2 s) s

/-- A mirror is applied; the flag says whether its target took it (R459). (Assumption 107, DEDUCED.) -/
def mirrorApply (p kind idx : Nat) (data : List Byte) (s : State) : Bool × State :=
  match kind with
  | 1 => if data.length = 256 then let r := skyWrite idx (peerSlot data) s; (r.1 == ST.ok, r.2) else (false, s)
  | 2 =>
    if data.length = 40 then
      (true, mirrorWords (((List.range 6).map R.SKY_IONO_C) ++ [R.SKY_IONO_REF, R.SKY_IONO_ORIGIN, R.SKY_KLOB_A, R.SKY_KLOB_B])
        data (opIonoWrite .host) s)
    else (false, s)
  | 3 =>
    if data.length ≠ 32 ∨ s.fld (F.TRP_PORT_STAT_MAJOR p) = 2 then (false, s)
    else if (leAt data 8 1).testBit 0 then let r := cycWrite data s; (r.1 == ST.ok, r.2)
    else (true, cycInvalidate (idx % 256) s)
  | 4 =>
    if data.length = 12 then
      let s' := mirrorWords [R.TB_OFS_SYS, R.TB_LEAP, R.TB_LEAP_AT] data (plainWrite .host) s
      (true, if [R.TB_OFS_SYS, R.TB_LEAP, R.TB_LEAP_AT].any (fun o => s'.word o != s.word o) then mirrorNote 4 0 s' else s')
    else (false, s)
  | _ => (false, s)

/-- Whether mirrors on a port are applied (R461): on T1, and on T0 by a standby. (Assumption 107, DEDUCED.) -/
def mirrorsIn (p : Nat) (s : State) : Bool := s.bit (F.TRP_PORT_CFG_MIR_IN p) && (p == 1 || (p == 0 && isStandby s))

/-- A MIRROR frame arrives; one its target refuses is discarded (R461). -/
def execMirrorFrame (p : Fin 4) (h : FrameHead) (kind : Byte) (index : BitVec 16) (data : List Byte) (s : State) :
    Host.Outcome State Fault Refusal :=
  .next (linkRx p h true (fun s =>
    if !mirrorsIn p s then s
    else
      let r := if h.rest = 0 then mirrorApply p kind.toNat index.toNat data s else (false, s)
      if r.1 then r.2 else raise 119 (s.setFld F.TRP_TWIN_STAT_MIR_REFUSED 1)) s)

/-- The data of a mirror as it is sent (R459). -/
def mirrorData (kind idx : Nat) (s : State) : List Byte :=
  match kind with
  | 1 => skySlot s idx
  | 2 => wordBytes ((((List.range 6).map R.SKY_IONO_C) ++ [R.SKY_IONO_REF, R.SKY_IONO_ORIGIN, R.SKY_KLOB_A, R.SKY_KLOB_B]).map
      (fun o => s.word o))
  | 3 => cycRec s idx
  | _ => wordBytes [s.word R.TB_OFS_SYS, s.word R.TB_LEAP, s.word R.TB_LEAP_AT]

/-- A mirror leaves a port; at major 2 no CYCLE does (R452). -/
def mirrorOut (p kind idx : Nat) (s : State) : State :=
  if kind = 3 ∧ s.fld (F.TRP_PORT_STAT_MAJOR p) = 2 then s
  else linkSendRel p 0x20 ([BitVec.ofNat 8 kind, 0] ++ leBytes 2 idx ++ leBytes 2 (s.fld F.SKY_STAT_EPOCH) ++ [0, 0] ++
    mirrorData kind idx s) s

/-- The waiting mirror of the highest priority: TIMEPARM, CYCLE, SKY, IONO (R460). (Assumption 107, DEDUCED.) -/
def mirrorFirst (l : List (Nat × Nat)) : Option (Nat × Nat) :=
  [4, 3, 1, 2].findSome? (fun k => l.find? (fun e => e.1 == k))

/-- A port sends a mirror (R460, R461): what waits, by priority; TIMEPARM once a second; a slot of the rolling refresh, with
IONO and the valid cycles once per pass, while nothing of higher priority waits. What waits on T0 is dropped once MIR_SKY is
cleared. A standby sends none on T0. (Assumption 107, DEDUCED.) -/
def execMirrorSend (p : Fin 4) (due : MirrorDue) (s : State) : Host.Outcome State Fault Refusal :=
  let l := link s p
  .next (
    if p.val = 1 ∨ !linkUp p s ∨ !s.bit (F.TRP_PORT_CFG_MIR_OUT p) ∨ (p.val = 0 ∧ isStandby s) ∨ !linkFits p 264 s then s
    else
      match due with
      | .second => mirrorOut p 4 0 s
      | .waiting =>
        let due := l.mirrors.filter (fun e => (mirrorPorts e.1 s).contains p.val)
        match mirrorFirst due with
        | some (k, i) => mirrorOut p k i (setLink s p { l with mirrors := due.filter (fun e => e != (k, i)) })
        | none => setLink s p { l with mirrors := [] }
      | .rolling =>
        if l.mirrors.any (fun e => (mirrorPorts e.1 s).contains p.val) then s else
        let s := setLink s p { l with roll := (l.roll + 1) % 221 }
        let sky := (mirrorPorts 1 s).contains p.val
        let s := if sky then mirrorOut p 1 l.roll s else s
        if l.roll = 220 then
          let s := (List.range 256).foldl (fun s i => if (leAt (cycRec s i) 8 1).testBit 0 then
            (let m := link s p; if m.mirrors.contains (3, i) then s else setLink s p { m with mirrors := m.mirrors ++ [(3, i)] })
            else s) s
          if sky then
            (let m := link s p; if m.mirrors.contains (2, 0) then s else setLink s p { m with mirrors := m.mirrors ++ [(2, 0)] })
          else s
        else s)

/-! The twin (R462 to R464). -/

/-- A write of TRP_TWIN_CFG; a change of TWIN_EN gives the role of a release (R462). -/
def twinRole (s : State) : State :=
  if s.bit F.TRP_TWIN_CFG_TWIN_EN then
    { s with disc := { s.disc with takeover := false } }.setFld F.TRP_TWIN_STAT_ROLE 1 |>.setFld F.TP_STATUS_ACTIVE 0
      |>.setFld F.TRP_TWIN_STAT_MISSED 0
  else { s with disc := { s.disc with takeover := false } }.setFld F.TRP_TWIN_STAT_ROLE 0 |>.setFld F.TP_STATUS_ACTIVE 1

/-- A write of TRP_TWIN_CFG. (Assumption 109, DEDUCED.) -/
def opTwinCfg (who : Reader) (v : Word) (s : State) : State :=
  let was := s.bit F.TRP_TWIN_CFG_TWIN_EN
  let s := plainWrite who R.TRP_TWIN_CFG v s
  if was != s.bit F.TRP_TWIN_CFG_TWIN_EN then twinRole s else s

/-- A HEARTBEAT is sent (R463). -/
def execHeartbeatSend (s : State) : Host.Outcome State Fault Refusal :=
  let l := link s 0
  let b (c : Bool) (k : Nat) : Nat := if c then 2 ^ k else 0
  .next (
    if s.fld F.TRP_TWIN_STAT_ROLE = 0 ∨ !linkUp 0 s then s
    else
      let fl := tpLevel s + b (s.bit F.TP_STATUS_STEP_PENDING) 2 + b (activeRole s) 3 + b (s.bit F.TB_STATUS_VALID) 4
      let body := leBytes 2 l.hbSeq ++ [BitVec.ofNat 8 (s.fld F.TRP_TWIN_STAT_ROLE), BitVec.ofNat 8 fl] ++
        leBytes 4 (s.word R.TP_UNC).toNat ++ leBytes 4 (s.word R.TP_FUNC).toNat ++ leBytes 8 (ofsWords s) ++
        leBytes 8 (ownSerial s) ++ List.replicate 4 0
      linkSend 0 0x03 body (setLink s 0 { l with hbSeq := (l.hbSeq + 1) % 65536 }))

/-- A HEARTBEAT arrives on T0 (R463, R464). -/
def execHeartbeatFrame (h : FrameHead) (hbSeq : BitVec 16) (role : Byte) (s : State) : Host.Outcome State Fault Refusal :=
  .next (linkRx 0 h false (whole h fun s =>
    if 2 < role.toNat then s else
    let s := (s.setFld F.TRP_TWIN_STAT_PEER_ROLE role.toNat).setFld F.TRP_TWIN_STAT_HB_SEQ hbSeq.toNat
    setLink s 0 { link s 0 with peerRole := role.toNat, hbSeen := (link s 0).hbSeen || role == 2 }) s)

/-- The standby's check, 20 µs after each millisecond (R464). -/
def execHeartbeatCheck (s : State) : Host.Outcome State Fault Refusal :=
  .next (
    if !isStandby s then s
    else
      let got := (link s 0).hbSeen && linkUp 0 s
      let m := s.fld F.TRP_TWIN_STAT_MISSED
      let s := setLink s 0 { link s 0 with hbSeen := false }
      if got then
        let s := { s with disc := { s.disc with takeover := false } }.setFld F.TRP_TWIN_STAT_MISSED 0
        if m = 0 then s else raise 116 s
      else
        let s := s.setFld F.TRP_TWIN_STAT_MISSED (satNat 15 (m + 1))
        let s := if m = 0 then raise 116 s else s
        if 9 ≤ m then { s with disc := { s.disc with
          takeover := true, takeFrom := if s.disc.takeover then s.disc.takeFrom else s.nowU } } else s)

/-- At a pulse-safe point, with neither twin ACTIVE, the device that PREFER or else the higher serial names takes the role
(R462, R308). (Assumption 92, DEDUCED.) -/
def execRoleClaim (peerPrefer pin : Bool) (s : State) : Host.Outcome State Fault Refusal :=
  let s := { s with twinPin := pin }
  let mine := s.bit F.TRP_TWIN_CFG_PREFER
  .next (
    if pulseSafe s && isStandby s && linkUp 0 s && !pin && s.fld F.TRP_TWIN_STAT_PEER_ROLE != 2 && (link s 0).peerRole != 2 &&
        ((mine && !peerPrefer) || (mine == peerPrefer && decide (peerSerial 0 s < ownSerial s))) then
      raise 91 ((takeRole s).setFld F.TP_STATUS_TAKEOVER 1)
    else s)

/-! Two-way time transfer (R465 to R467). -/

/-- A time stamp `sub` (2^-44 tick) after the present tick's start, in 2^-48 s, truncated (R465). -/
def stampAt (sub : Nat) (s : State) : Nat :=
  (s.nowU + sub * s.tickStep / tickUnits) * 2 ^ 48 / secUnits % 2 ^ 96

/-- The 16 bytes of a stamp (R465). -/
def stampBytes (t : Nat) : List Byte :=
  leBytes 4 (t / 2 ^ 16) ++ leBytes 4 (t / 2 ^ 48) ++ leBytes 2 (t / 2 ^ 80) ++ leBytes 2 0 ++ leBytes 2 t ++ leBytes 2 0

/-- Whether the device requests on a port (R466). -/
def timeAsks (p : Nat) (s : State) : Bool := linkUp p s && (p == 1 || (p == 0 && isStandby s))

/-- A TIME_REQ is sent at a 1/16 s boundary (R466). -/
def execTimeReqSend (p : Fin 4) (sub : BitVec 44) (s : State) : Host.Outcome State Fault Refusal :=
  let l := link s p
  .next (
    if timeAsks p s then
      let t := stampAt sub.toNat s
      let n := (l.exNo + 1) % 65536
      linkSend p 0x04 (leBytes 2 n ++ List.replicate 6 0 ++ stampBytes t)
        (setLink s p { l with exNo := n, exOpen := some (n, t, s.fld F.TB_STATUS_STEP_SEQ) })
    else s)

/-- A TIME_REQ arrives: the active twin answers on T0, a parent on T2 and T3, with t3 the departure `depart` (2^-44 tick)
after the present tick's start (R465, R466). -/
def execTimeReq (p : Fin 4) (h : FrameHead) (exno : BitVec 16) (t1 : BitVec 96) (sub : BitVec 44) (depart : BitVec 52)
    (s : State) : Host.Outcome State Fault Refusal :=
  .next (linkRx p h false (whole h fun s =>
    if p.val = 2 ∨ p.val = 3 ∨ (p.val = 0 ∧ s.fld F.TRP_TWIN_STAT_ROLE = 2) then
      let b (c : Bool) (k : Nat) : Nat := if c then 2 ^ k else 0
      let fl := tpLevel s + b (s.bit F.TB_STATUS_VALID) 2 + b (s.bit F.TP_STATUS_STEP_PENDING) 3
      linkSend p 0x05 (leBytes 2 exno.toNat ++ [BitVec.ofNat 8 fl] ++ List.replicate 5 0 ++ stampBytes t1.toNat ++
        stampBytes (stampAt sub.toNat s) ++ stampBytes (stampAt depart.toNat s) ++ leBytes 8 (ofsWords s) ++
        leBytes 4 (s.word R.TP_UNC).toNat ++ leBytes 4 (s.word R.TP_FUNC).toNat) s
    else s) s)

/-- A difference of stamps in ps. -/
def stampPs (a b : Nat) : Rat := (((a : Int) - (b : Int) : Int) : Rat) * 10 ^ 12 / 2 ^ 48

/-- A TIME_RESP arrives: the exchange is kept or discarded (R466). (Assumption 108, DEDUCED.) -/
def execTimeResp (p : Fin 4) (h : FrameHead) (b : TimeResp) (sub : BitVec 44) (peerStepped : Bool) (s : State) :
    Host.Outcome State Fault Refusal :=
  .next (linkRx p h false (whole h fun s =>
    let l := link s p
    let t4 := stampAt sub.toNat s
    match l.exOpen with
    | none => s
    | some (n, t1, seq) =>
      if n ≠ b.exno.toNat ∨ t1 ≠ b.t1.toNat then s
      else
        let s := setLink s p { l with exOpen := none }
        let back := stampPs t4 b.t3.toNat
        let out := stampPs b.t2.toNat t1
        let asym : Rat := (toSigned 32 (s.word (R.TRP_PORT_ASYM p)).toNat : Rat)
        if 16 ≤ b.flags.toNat ∨ 10 ^ 9 < stampPs t4 t1 ∨ !b.flags.getLsbD 2 ∨ b.flags.toNat % 4 = 0 ∨ peerStepped ∨
            s.fld F.TB_STATUS_STEP_SEQ ≠ seq then s
        else setLink s p { link s p with exs := (link s p).exs ++
          [⟨(back - out + asym) / 2, (out + back) / 2, b.ofs.toInt, b.unc.toNat, b.func.toNat⟩] }) s)

/-- Sum of rationals. -/
def ratSum (l : List Rat) : Rat := l.foldl (· + ·) 0

/-- Least-squares slope of values over their abscissas; 0 for fewer than two (R467). (Assumption 108, DEDUCED.) -/
def slopeOf (l : List (Nat × Rat)) : Rat :=
  let n : Rat := (l.length : Rat)
  if l.length < 2 then 0
  else
    let mx := ratSum (l.map (fun e => (e.1 : Rat))) / n
    let my := ratSum (l.map (·.2)) / n
    let sxx := ratSum (l.map (fun e => ((e.1 : Rat) - mx) * ((e.1 : Rat) - mx)))
    if sxx = 0 then 0 else ratSum (l.map (fun e => ((e.1 : Rat) - mx) * (e.2 - my))) / sxx

/-- The exchanges of a second whose delay lies within SPREAD of the least (R467). (Assumption 108, DEDUCED.) -/
def exKept (exs : List Exchange) (s : State) : List Exchange :=
  match exs with
  | [] => []
  | x :: _ =>
    let m := exs.foldl (fun (m : Rat) e => if e.delay < m then e.delay else m) x.delay
    exs.filter (fun e => decide (e.delay ≤ m + (s.fld F.TRP_TIME_CFG_SPREAD : Rat)))

/-- A second of a requester's port: a measurement for the discipline, or none (R467). Offsets in ps. (Assumption 108, DEDUCED.) -/
def timeSecond (p : Nat) (s : State) : State :=
  let l := link s p
  let seq := s.fld F.TB_STATUS_STEP_SEQ
  let src := 3 + p
  if !timeAsks p s && !l.had then setLink s p { l with exs := [], stepMark := seq }
  else
    let kept := if l.stepMark = seq then exKept l.exs s else []
    let s := setLink s p { l with exs := [], stepMark := seq }
    if kept.length < s.fld F.TRP_TIME_CFG_MIN_EX ∨ !timeAsks p s then
      let s := discMiss src s
      if l.had then
        raise 118 ((setLink s p { link s p with had := false, refused := true }).setFld F.TRP_TIME_STAT_TIME_REFUSED 1)
      else s
    else
      let n : Rat := (kept.length : Rat)
      let off := ratSum (kept.map (fun e => e.e + (e.ofs : Rat))) / n
      let offs := (l.offs ++ [(s.tb.sec, off)]).drop (l.offs.length - 7)
      let d := slopeOf offs / 10 ^ 12
      let delay := roundRat (ratSum (kept.map (·.delay)) / n)
      let ofs64 := ofSigned 64 (roundRat off)
      let s := setLink s p { link s p with offs := offs, had := true, refused := false }
      let s := (s.setFld F.TRP_TIME_STAT_EXCH (satNat 255 kept.length)).setFld F.TRP_TIME_STAT_PORT p
      let s := ((s.setWord (R.TRP_PORT_DELAY p) (BitVec.ofNat 32 delay.toNat)).setWord R.TRP_TIME_OFS_LO
        (BitVec.ofNat 32 ofs64)).setWord R.TRP_TIME_OFS_HI (BitVec.ofNat 32 (ofs64 / 2 ^ 32))
      let s := if l.refused then raise 118 s else s
      match kept.getLast? with
      | some x => discPeer src (s.tb.sec * secUnits) (off / 1000) d x.unc x.func s
      | none => s

/-- A whole second of the requester's timebase (R467): T0, then T1. -/
def execTimeMeasure (s : State) : Host.Outcome State Fault Refusal := .next (timeSecond 1 (timeSecond 0 s))

end Sys2Proof.Machine
end

