-- ==== Sys2Proof/Machine/Reset.lean ====
section
/-! DEFINITION. The seven resets and what each clears (R6, R37, R64, R97, R121, R151, R168, R186, R202, R232, R258, R287, R310, R311,
R330, R363, R396, R415, R420, R444, R469, R542 to R547). -/
namespace Sys2Proof.Machine

/-- Part 0 of `liveTable`. -/
def liveTable0 : List (Nat × Nat) := [
  (0x10204, 0x80000000), (0x30004, 0xf87), (0x3000c, 0x3ffff07),
  (0x30824, 0x100ffff), (0x40004, 0xff303f), (0x40014, 0x5ffff),
  (0x4001c, 0x400307ff), (0x100004, 0xff000003), (0x101014, 0xffffffff),
  (0x280020, 0x80000000), (0x380004, 0xffff41ff), (0x380010, 0x80000000)]
  -- TT_PORT_CTRL, GRF_CH_STATUS, GRF_CH_ANT_STAT, GRF_CAL_STATUS, IFC_CH_AGC_STAT, IFC_CH_BLANK_STAT, IFC_CH_JAM_STAT, TRK_CH_STATUS, TRK_RING_RUN, SIEVE_PORT_CTRL, SKY_STAT, SKY_PORT_CTRL

/-- Part 1 of `liveTable`. -/
def liveTable1 : List (Nat × Nat) := [
  (0x380200, 0x40000000), (0x381030, 0x8000), (0x48000c, 0xf0ffff00),
  (0x480010, 0xffff00ff), (0x480018, 0xffffffff), (0x48001c, 0xffffffff),
  (0x480804, 0xff00ffff), (0x500008, 0x20000000), (0x500010, 0x40000000),
  (0x501004, 0x20000000), (0x501008, 0xffff), (0x50100c, 0x60000000)]
  -- SKY_QRY_CTRL, SOL_STAT, TRP_PORT_STAT, TRP_PORT_FEAT, TRP_PORT_PEER_LO, TRP_PORT_PEER_HI, TRP_TWIN_STAT, SPIM_STAT, SPIM_CMD_CTRL, SPIS_RESP, SPIS_STAT, SPIS_RX_CTRL

/-- Part 2 of `liveTable`. -/
def liveTable2 : List (Nat × Nat) := [
  (0x501010, 0xffffffff), (0x502008, 0x40001cff), (0x502010, 0x6001f1f),
  (0x580008, 0xff0000), (0x600000, 0xfffff000), (0x600004, 0x40000000),
  (0x600008, 0xff00), (0x600010, 0xffffffff), (0x600030, 0x40000000),
  (0x600040, 0xffffffff), (0x600080, 0x40000000), (0x600400, 0xf0000000)]
  -- SPIS_RX_DATA, UA_RX, UA_STAT, SQ_STAT, SEC_BOOT_STAT, SEC_BOOT_CTRL, SEC_RB, SEC_IMG_DIGEST, SEC_OTP_CTRL, SEC_ID_PK, SEC_ATT_CTRL, SEC_DBG_STAT

/-- Part 3 of `liveTable`. -/
def liveTable3 : List (Nat × Nat) := [
  (0x600420, 0xffffffff), (0x600424, 0xffffffff), (0x600804, 0x40000000),
  (0x680008, 0xf0000003), (0x680010, 0x1f0000), (0x680014, 0x7fffff),
  (0x680064, 0xffffff)]
  -- SEC_DBG_EXP_LO, SEC_DBG_EXP_HI, LC_CTRL, PWR_STAT, PWR_START_DEFER, PWR_DOMAIN, PWR_STORE_STAT

/-- The bits that a function-level reset leaves in registers of class F, by the register's first offset: the fields that
mirror live hardware state (R547), the boot status and the session (R528), and TWIN_SERVE, a class S field. (Assumption 119, DEDUCED.) -/
def liveTable : List (Nat × Nat) := liveTable0 ++ liveTable1 ++ liveTable2 ++ liveTable3

/-- The live bits of a register of class F. -/
def liveMask (off : Nat) : Nat :=
  match regAt off with
  | some r =>
    match liveTable.find? (fun e => e.1 == r.base) with
    | some e => e.2
    | none => 0
  | none => 0

/-- Whether a register's class passes a test. -/
def classKept (keep : RetClass → Bool) (key : Nat) : Bool :=
  match regAt (key % 0x1000000) with
  | some r => keep r.cls
  | none => false

/-- The registers of some classes keep their words; all others return to their reset column (R6, R546). (Assumption 119, DEDUCED.) -/
def regsReset (keep : RetClass → Bool) (s : State) : State := { s with regs := Sparse.keep (classKept keep) s.regs }

/-- A flash store abandoned by a reset leaves its slot half written (R560): how many bytes of its body were programmed is a
free value; the header, written last, was not. -/
def storeBase (kind : Nat) (slotB : Bool) : Nat :=
  match kind with
  | 1 => if slotB then 0x1000 else 0
  | 2 => if slotB then 0x3000 else 0x2000
  | 3 => if slotB then 0x5000 else 0x4000
  | 5 => if slotB then 0x7000 else 0x6000
  | _ => if slotB then 0x19000 else 0x8000

/-- The flash offset of a slot (R558). -/
def slotAddr (kind : Nat) (slotB : Bool) (s : State) : Nat :=
  s.fld F.PWR_STORE_BASE_BASE * 2 ^ 12 + storeBase kind slotB

/-- A store stops part way through its body. (Assumption 120, DEDUCED.) -/
def storeTorn (r : StoreRun) (s : State) : State :=
  let d := s.draw
  let body := r.record.drop 32
  d.2.setFlashBytes (slotAddr r.req.kind r.slot s + 32) (body.take (d.1 % (body.length + 1)))

/-- A store in progress is abandoned without a result (R560). (Assumption 120, DEDUCED.) -/
def storeAbandon (s : State) : State :=
  match s.pwr.store with
  | some r => { storeTorn r s with pwr := { s.pwr with store := none } }
  | none => s

/-! What every reset but a function-level one does to the blocks. -/

/-- A sky table slot whose TRUST is UNVERIFIED (R287). -/
def slotUnverified (p : Nat × List Byte) : Nat × List Byte := (p.1, putAt p.2 28 [0])

/-- The sky table after a reset (R287): lost at main POR; else the slots are kept, UNVERIFIED, and EPOCH restarts. -/
def skyReset (por : Bool) (k : Sky) : Sky :=
  if por then {}
  else { cur := (k.cur.map slotUnverified).filter (fun (p : Nat × List Byte) => p.2 != emptySlot)
         pend := (k.pend.map slotUnverified).filter (fun (p : Nat × List Byte) => p.2 != emptySlot)
         ionoSet := k.ionoSet }

/-- An output after a reset: nothing is armed; a pulse in progress runs to its end (R64, R310). -/
def tpReset (n : Nat) (s : State) : PulseOut :=
  let p := tpOut s n
  { last := p.last, high := p.high, ends := p.ends, held := p.high && tpDriven n s }

/-- The timetable after a reset other than main POR: every entry is disarmed and its log cleared (R64, R546). -/
def ttReset (m : Sparse TtEntry) : Sparse TtEntry :=
  (m.map (fun (p : Nat × TtEntry) =>
    (p.1, ({ due := p.2.due, period := p.2.period, lateDrop := p.2.lateDrop, cls := p.2.cls, lateTol := p.2.lateTol,
             action := p.2.action, param := p.2.param } : TtEntry)))).filter (fun (p : Nat × TtEntry) => p.2 != {})

/-- A chain at a reset other than main POR: the step it takes goes on, its window and its bias end (R97, R98). (Assumption 119, DEDUCED.) -/
def chainReset (p : Nat × Chain) : Nat × Chain := (p.1, { step := p.2.step })

/-- The four chains treated one by one. -/
def eachChain (f : Nat → State → State) (s : State) : State := f 3 (f 2 (f 1 (f 0 s)))

/-- The blocks' state outside registers and memories after a reset other than function-level. (Assumption 119, DEDUCED.) -/
def blocksReset (por : Bool) (s : State) : State :=
  let s := bcnReset por (storeAbandon (otpTorn (pendDrop s)))
  let tp0 := tpReset 0 s
  let tp1 := tpReset 1 s
  { s with
    caps := [], tt := if por then [] else ttReset s.tt, ports := [], arb := {}, evt := [],
    chains := if por then [] else (s.chains.map chainReset).filter (fun (p : Nat × Chain) => p.2 != {}), ifc := [], fsm := { refBackAt := if por then none else s.fsm.refBackAt }, trk := [], rings := [],
    published := [], nav := [], navFifo := [], navUnits := [], sieve := {},
    car := { crcs := if por then [] else s.car.crcs }, sky := skyReset por s.sky,
    tp := if s.pwr.hib then [] else Sparse.put (fun _ => {}) (Sparse.put (fun _ => {}) [] 0 tp0) 1 tp1,
    disc := { tuneBase := s.fld F.TP_OCXO_TUNE }, seqs := [], hash := [], host := {}, evAt := [], notif := [], copies := [],
    links := [], spim := {}, spis := {}, uarts := [], pu := [], dbg := none, budget := {},
    sec := { boot := if por then 1 else 2, firstRel := por || s.sec.firstRel },
    pwr := { xtalOff := s.pwr.xtalOff },
    tb := if por then { xtal := s.tb.xtal } else s.tb, ck := if por then { porTick := s.tick, absorbed := s.ck.absorbed } else s.ck }

/-- A chain's status that mirrors its state, which a reset leaves to step down (R97, R547). -/
def chainStatus (old : State) (x : Nat) (s : State) : State :=
  let s := (s.setFld (F.GRF_CH_STATUS_STATE x) (chainState x old)).setFld (F.GRF_CH_STATUS_PROFILE_ACT x)
    (old.fld (F.GRF_CH_STATUS_PROFILE_ACT x))
  let s := (s.setFld (F.GRF_CH_STATUS_BUSY x) (old.fld (F.GRF_CH_STATUS_BUSY x))).setFld (F.GRF_CH_STATUS_LOCKED x)
    (old.fld (F.GRF_CH_STATUS_LOCKED x))
  s.setMaskBit R.PWR_DOMAIN x (old.maskBit R.PWR_DOMAIN x)

/-- The status that a reset other than main POR leaves readable, which mirrors state that goes on (R547): the chains (R97), the
sky model and count (R287), the charter's state (R336), the pending calibrations (R97), an output's pulse, and the dividers in use until
CK_DIV_NEXT is committed at the first frame boundary after the reset (R330), and the beacon radio (R363). (Assumption 141, DEDUCED.) -/
def statusReset (old s : State) : State :=
  let s := bcnStatus old (eachChain (chainStatus old) s)
  let s := (s.setFld F.SKY_STAT_IONO_VALID (old.fld F.SKY_STAT_IONO_VALID)).setFld F.SKY_STAT_EPH_CNT (old.fld F.SKY_STAT_EPH_CNT)
  let s := s.setFld F.SEC_BOOT_CTRL_TWIN_SERVE (old.fld F.SEC_BOOT_CTRL_TWIN_SERVE)
  let s := syncCal (s.setFld F.BCN_STATUS_CHT_STATE (old.fld F.BCN_STATUS_CHT_STATE))
  let s := { s with ck := { s.ck with div := some (s.word R.CK_DIV_NEXT, s.tick - 1) } }.setFld F.CK_DIV_COMMIT_PEND 1
  s.setWord R.CK_DIV_NOW (old.word R.CK_DIV_NOW)

/-- GAIN of a chain loads from PGAIN of its active profile (R121). -/
def gainLoad (x : Nat) (s : State) : State :=
  s.setFld (F.IFC_CH_AGC_STAT_GAIN x) (s.fld (pgainFld x (s.fld (F.GRF_CH_STATUS_PROFILE_ACT x))))

/-- GAIN of every chain after a reset (R121). -/
def gainReset (s : State) : State := eachChain gainLoad s

/-- RST_CAUSE records the reset: its bit and LAST (R543). -/
def causeSet (code : Nat) (s : State) : State := (s.setMaskBit R.RST_CAUSE (code - 1) true).setFld F.RST_CAUSE_LAST code

/-- OTP and backup RAM in the device map. (Assumption 5, DESIGN CHOICE.) -/
def memKept (backup : Bool) (a : Nat) : Bool :=
  (decide (0x3F00000 ≤ a) && decide (a < 0x3F10000)) || (!backup && decide (0x3F10000 ≤ a) && decide (a < 0x3F11000))

/-- A reset by its LAST code: 1 backup POR, 2 main POR, 3 pin, 4 watchdog, 5 Vault soft, 6 twin (R542, R546). The device is
not READY, its power state is RUN, the chains step down (R97), the card's lines go low (R495), and the boot ROM is to run. (Assumption 119, DEDUCED.) -/
def deviceReset (code : Nat) (s : State) : State :=
  let por := decide (code ≤ 2)
  let s := if por then s else eachChain calAbandon s
  let old := s
  let s := blocksReset por s
  let s := regsReset (fun c => if code = 1 then false else if code = 2 then c == .b else c == .b || c == .s) s
  let s := if por then { s with mem := Sparse.keep (memKept (code == 1)) s.mem, ram := [] } else statusReset old s
  let s := s.setBit F.TP_STATUS_ACTIVE ((tpOut s 0).held && old.bit F.TP_STATUS_ACTIVE)
  let s := if code = 1 then { s with pwr := {} } else s
  let s := gainReset ((s.setFld F.DEV_STATUS_READY 0).setFld F.DEV_STATUS_PSTATE 0)
  let s := if por then s else bcnAdvance none (eachChain (fun x s => chainRetarget x none s) s)
  let s := if cardPins s = cardPins old then s else s.emit (.card (cardPins s).1 (cardPins s).2)
  nonceRenew (causeSet code s)

/-- At main POR the charter is rebuilt from an ABSENT state (R336), after the reset itself. -/
def porReset (code : Nat) (s : State) : State := charterBuild (deviceReset code s)

def execBackupPor (s : State) : Host.Outcome State Fault Refusal := .next (porReset 1 s)

def execMainPor (s : State) : Host.Outcome State Fault Refusal := .next (porReset 2 s)

/-- A low accepted by the filter of RESET_N (R542, R586); in HIBERNATE it is a wake instead (R540). (Assumption 135, DEDUCED.) -/
def execPinReset (s : State) : Host.Outcome State Fault Refusal := .next (if s.pwr.hib then s else deviceReset 3 s)

/-! The watchdog (R544). -/

/-- Whether a requester may kick: KICKER 0 SQM, 1 host, 2 either. (Assumption 121, DEDUCED.) -/
def mayKick (who : Reader) (s : State) : Bool :=
  let k := s.fld F.RST_WDT_CFG_KICKER
  (who == .sqm && k != 1) || (who == .host && k != 0)

/-- The count restarts. -/
def wdtStart (s : State) : State := { s with pwr := { s.pwr with wdtAt := some s.tick, wdtHalf := false } }

/-- A write of RST_WDT_KICK. (Assumption 121, DEDUCED.) -/
def opWdtKick (who : Reader) (v : Word) (s : State) : State :=
  if v.toNat % 256 = 0x4B ∧ mayKick who s ∧ s.pwr.wdtAt.isSome then wdtStart s else s

def execWdtKick (who : Reader) (v : Word) (s : State) : Host.Outcome State Fault Refusal :=
  .next (gate who R.RST_WDT_KICK true (opWdtKick who v) s)

/-- A write of RST_WDT_CFG; a change of TIMEOUT restarts the count. -/
def opWdtCfg (who : Reader) (v : Word) (s : State) : State :=
  let old := s.fld F.RST_WDT_CFG_TIMEOUT
  let s := plainWrite who R.RST_WDT_CFG v s
  if s.fld F.RST_WDT_CFG_TIMEOUT ≠ old ∧ s.pwr.wdtAt.isSome then wdtStart s else s

/-- The watchdog has counted so many half timeouts: 60,000 FS ticks to half a millisecond. -/
def wdtPast (halves : Nat) (s : State) : Bool :=
  match s.pwr.wdtAt with
  | some t => s.fld F.RST_WDT_CFG_TIMEOUT != 0 && decide (t + halves * s.fld F.RST_WDT_CFG_TIMEOUT * 60000 ≤ s.tick)
  | none => false

/-- Half of TIMEOUT has passed without a kick. -/
def execRstWdt (s : State) : Host.Outcome State Fault Refusal :=
  .next (if wdtPast 1 s && !s.pwr.wdtHalf then raise 31 { s with pwr := { s.pwr with wdtHalf := true } } else s)

/-- All of TIMEOUT has passed without a kick. -/
def execWatchdogReset (s : State) : Host.Outcome State Fault Refusal :=
  .next (if wdtPast 2 s then deviceReset 4 s else s)

/-! Vault soft and twin-commanded resets (R542, R545). -/

/-- A write of RST_CTRL. -/
def opRstCtrl (who : Reader) (v : Word) (s : State) : State :=
  let vault := vaultRights who s
  let s := plainWrite who R.RST_CTRL v s
  let s := if vault && v.toNat.testBit 30 && linkState 0 s != 0 then s.emit (.linkBlock 1 (leBytes 8 (ownSerial s))) else s
  if vault && v.toNat.testBit 31 then deviceReset 5 s else s

def execSoftReset (who : Reader) (v : Word) (s : State) : Host.Outcome State Fault Refusal :=
  .next (gate who R.RST_CTRL true (opRstCtrl who v) s)

/-- See assumption 121, DEDUCED. -/
def execTwinCmd (who : Reader) (v : Word) (s : State) : Host.Outcome State Fault Refusal :=
  .next (gate who R.RST_CTRL true (opRstCtrl who v) s)

/-- A reset block arrives on T0 (R545). -/
def execResetBlock (serial : BitVec 64) (s : State) : Host.Outcome State Fault Refusal :=
  .next (if s.bit F.RST_CTRL_TWIN_RESET_EN && decide (2 ≤ linkState 0 s) && serial.toNat == peerSerial 0 s then deviceReset 6 s
    else s)

/-! Function-level reset (R420, R444, R547). -/

/-- A word of the register file after a function-level reset. -/
def flrWord (key : Nat) (w : Word) : Word :=
  let off := key % 0x1000000
  match regAt off with
  | some r =>
    if r.cls != .f || (r.base == R.EV_PEND 0 && key == copyOff .sqm off) then w
    else
      let m := BitVec.ofNat 32 (liveMask off)
      (w &&& m) ||| (regDflt key &&& ~~~m)
  | none => w

/-- The register file after a function-level reset. -/
def flrRegs (m : Sparse Word) : Sparse Word :=
  (m.map (fun (p : Nat × Word) => (p.1, flrWord p.1 p.2))).filter (fun (p : Nat × Word) => p.2 != regDflt p.1)

/-- Jobs of the host's sources end without a record, one in CORRELATE at its transform boundary (R232). -/
def flrJobs (s : State) : State :=
  (jobList s).foldl (fun s e =>
    if 32 ≤ e.2.src then s
    else if e.2.state = 4 ∧ jobBusy e.2 then jobAbort e.1 ST.abort 0 (modJob e.1 (fun j => { j with silent := true }) s)
    else jobFree e.1 true s) s

/-- The virtual times of sources 0 to 31 become vnow (R258). -/
def flrTimes (s : State) : State :=
  { s with car := { s.car with
    vt := (List.range 32).foldl (fun (m : Sparse Rat) j => Sparse.put (fun _ => 0) m j s.car.vnow) s.car.vt } }

/-- Events of the present tick keep the host's pending bits (R444). -/
def flrEvents (s : State) : State :=
  s.evAt.foldl (fun s (p : Nat × Nat) =>
    if p.2 = s.tick + 1 then s.setMaskBit (copyOff .host (R.EV_PEND (p.1 / 32))) (p.1 % 32) true else s) s

/-- A reset of R420: the host function, class F fields, the copy of channel 0, the host's jobs; a character that TX_FAIL held leaves (R494); EV_025 at its end. (Assumption 119, DEDUCED; assumption 121, DEDUCED.) -/
def flReset (s : State) : State :=
  let copying := (Sparse.get (fun _ => (none : Option CopyJob)) s.copies 0).isSome
  let s := flrTimes (flrJobs s)
  let s := { s with
    regs := flrRegs s.regs, arb := { s.arb with vnow := 0 }, caps := [], host := {}, notif := [],
    copies := Sparse.put (fun _ => none) s.copies 0 none, car := { s.car with done := 0, reading := none } }
  let s := uartDo 1 (uartStart 1) s
  let s := s.setBit (F.HOST_COPY_CTRL_BUSY 1) (Sparse.get (fun _ => (none : Option CopyJob)) s.copies 1).isSome
  let s := nonceRenew (causeSet 7 (flrEvents s))
  let s := if copying then raise 6 (s.setFld (F.HOST_COPY_CTRL_RESULT 0) ST.abort) else s
  raise 25 s

/-- See assumption 7, DESIGN CHOICE. -/
def execFunctionLevelReset (s : State) : Host.Outcome State Fault Refusal := .next (flReset s)

end Sys2Proof.Machine
end

