-- ==== Sys2Proof/Machine/Power.lean ====
section
/-! DEFINITION. Power states and HIBERNATE (R536 to R541), power fail (R552 to R554), flash stores and restores (R555 to R561). -/
namespace Sys2Proof.Machine

/-! Transitions (R537, R538, R541). -/

/-- A latched TARGET is shown (R541). -/
def setLatch (t : Option Nat) (s : State) : State :=
  { s with pwr := { s.pwr with latch := t } }.setFld F.PWR_STAT_LATCHED (t.getD 0)

/-- A transition is in progress, or none. -/
def setTransit (t : Option Nat) (s : State) : State :=
  { s with pwr := { s.pwr with trans := t } }.setBit F.PWR_STAT_TRANSIT t.isSome

/-- PSTATE and STATE show a power state. -/
def setPstate (st : Nat) (s : State) : State := (s.setFld F.PWR_STAT_STATE st).setFld F.DEV_STATUS_PSTATE st

/-- LEAN gates each lane group above 0 once its passes have ended; group 0 serves the Sieve's searches (R199, R233, R258). -/
def lanesLean (s : State) : State :=
  let s := (List.range 8).foldl (fun s g => leanGate g s) s
  if s.sieve.plan.any (fun (x : Nat × PlanEntry) => x.2.searching) then requestStart (groupDomain 0) none s
  else if groupIdle 0 s then groupStop 0 s else s

/-- The TARGET of a chain is written by a power transition. -/
def chainTarget (x t : Nat) (s : State) : State := chainRetarget x none (s.setFld (F.GRF_CH_CTRL_TARGET x) t)

/-- The PWR field of a ring is written by a power transition. -/
def ringPower (n : Nat) (on : Bool) (s : State) : State := ringPwr n (s.setBit (F.TRK_RING_CTRL_PWR n) on)

/-- Entry to BURST: jobs and searches end; rings 2 to 9 and the chains are saved and stopped, the hop chain goes to its
GAP_STATE; the beacon, the ports and the lanes follow; with BURST_PCIE 0 the host link goes down, a function-level reset
(R420, R538). (Assumption 123, DEDUCED.) -/
def burstEnter (s : State) : State :=
  let rings := (List.range 10).foldl (fun m n => if 2 ≤ n ∧ s.bit (F.TRK_RING_CTRL_PWR n) then m + 2 ^ n else m) 0
  let chains := (List.range 4).map (fun x => s.fld (F.GRF_CH_CTRL_TARGET x))
  let s := { s with pwr := { s.pwr with savedRings := rings, savedChains := chains } }
  let s := sieveBurst (carBurst s)
  let s := (List.range 8).foldl (fun s n => ringPower (n + 2) false s) s
  let s := (List.range 4).foldl (fun s x =>
    chainTarget x (if s.fld F.GRF_BURST_CTRL_HOP_CHAIN = x then s.fld F.GRF_BURST_CTRL_GAP_STATE else 0) s) s
  let s := lanesBurst (linksPower (bcnPower (setPstate 2 s)))
  if s.bit F.PWR_CFG_BURST_PCIE then s else flReset { s with pwr := { s.pwr with pcieOff := true } }

/-- The return from BURST begins: rings and chains take their saved settings, their starts under the budget (R538). (Assumption 123, DEDUCED.) -/
def burstLeave (s : State) : State :=
  let p := s.pwr
  let s := (List.range 8).foldl (fun s n => if p.savedRings.testBit (n + 2) then ringPower (n + 2) true s else s) s
  p.savedChains.zipIdx.foldl (fun s e => chainTarget e.2 e.1 s) { s with pwr := { s.pwr with pcieOff := false } }

/-- A transition to the state `t` starts; RUN from LEAN and BURST complete at once (R538). -/
def powerStart (t : Nat) (s : State) : State :=
  if t = pstate s then s
  else if t = 2 then raise 27 (burstEnter s)
  else if t = 3 ∨ pstate s = 2 then
    setTransit (some t) (if t = 3 then s else burstLeave s)
  else if t = 1 then setTransit (some 1) s
  else raise 27 (setPstate 0 s)

/-- A transition has ended; the latched TARGET starts. -/
def powerNext (s : State) : State :=
  let l := s.pwr.latch
  let s := setTransit none (setLatch none s)
  match l with
  | some t => powerStart t s
  | none => s

/-- A request for a power state (R541). (Assumption 123, DEDUCED.) -/
def powerGo (t : Nat) (s : State) : State :=
  match s.pwr.trans with
  | none => powerStart t s
  | some 1 =>
    if t = 0 ∧ pstate s = 0 then setTransit none (setLatch none s) else setLatch (some t) s
  | some _ => setLatch (some t) s

/-- A write of PWR_CTRL acts only from SQM in Supervisor or Vault mode; it clears REQ_PEND (R537). -/
def opPwrCtrl (who : Reader) (v : Word) (s : State) : State :=
  if who == .sqm && readerPriv .sqm s != 0 then
    let s := (plainWrite who R.PWR_CTRL v s).setFld F.PWR_REQ_REQ_PEND 0
    if v.toNat.testBit 31 then powerGo (v.toNat % 4) s else s
  else s

def execPowerStateGo (who : Reader) (v : Word) (s : State) : Host.Outcome State Fault Refusal :=
  .next (gate who R.PWR_CTRL true (opPwrCtrl who v) s)

/-- A write of PWR_REQ: GO sets REQ_PEND, REQ_CLR clears it (R537). -/
def opPwrReq (who : Reader) (v : Word) (s : State) : State :=
  let s := plainWrite who R.PWR_REQ v s
  let s := if v.toNat.testBit 30 then s.setFld F.PWR_REQ_REQ_PEND 0 else s
  if v.toNat.testBit 31 then s.setFld F.PWR_REQ_REQ_PEND 1 else s

def execPwrReqGo (who : Reader) (v : Word) (s : State) : Host.Outcome State Fault Refusal :=
  .next (gate who R.PWR_REQ true (opPwrReq who v) s)

def execReqClr (who : Reader) (v : Word) (s : State) : Host.Outcome State Fault Refusal :=
  .next (gate who R.PWR_REQ true (opPwrReq who v) s)

/-- The last admitted job has written its record: LEAN is reached (R231, R258, R538). (Assumption 123, DEDUCED.) -/
def execLeanEntryDone (s : State) : Host.Outcome State Fault Refusal :=
  .next (if s.pwr.trans = some 1 ∧ pstate s = 0 ∧ (jobList s).isEmpty then
      powerNext (raise 27 (lanesLean (setPstate 1 s)))
    else s)

/-- Every restored start has been granted. -/
def restoredOn (s : State) : Bool :=
  (List.range 10).all (fun n => !(s.pwr.savedRings.testBit n && s.bit (F.TRK_RING_CTRL_PWR n)) || domainOn (5 + n) s) &&
  (List.range 4).all (fun x => s.fld (F.GRF_CH_CTRL_TARGET x) == 0 || (domainOn x s && (chain s x).step != .off))

/-- The return from BURST completes (R538). -/
def execBurstExitDone (s : State) : Host.Outcome State Fault Refusal :=
  .next (match s.pwr.trans with
    | some t =>
      if pstate s = 2 ∧ t < 2 ∧ restoredOn s then
        let s := { s with pwr := { s.pwr with savedRings := 0, savedChains := [] } }
        powerNext (raise 27 (linksPower (bcnPower (setPstate t s))))
      else s
    | none => s)

/-! HIBERNATE (R539, R540). -/

/-- HOLD_AWAKE delays the entry (R527); never that of a power failure (R528). (Assumption 124, DEDUCED.) -/
def heldAwake (s : State) : Bool := decide (lcState s ≤ 1) && s.bit F.SEC_DBG_CTRL_HOLD_AWAKE

/-- Steps 3 and 4 of R539: the records go into backup RAM, and everything but the backup domain stops, the card's lines low (R495).
(Assumption 124, DEDUCED.) -/
def hibernate (s : State) : State :=
  let card := cardPins s
  let s := blocksReset true (raise 27 (dutySave (dutyCut (holdRefresh s))))
  let s := regsReset (fun c => c == .b) s
  let s := s.setSeq 10 { Seq.dflt 10 with run := .halted }
  let s := gainReset ((s.setFld F.DEV_STATUS_READY 0).setFld F.DEV_STATUS_PSTATE 0)
  let s := if cardPins s = card then s else s.emit (.card (cardPins s).1 (cardPins s).2)
  { s with mem := Sparse.keep (memKept false) s.mem, ram := [], sec := { s.sec with boot := 0 },
           pwr := { s.pwr with hib := true } }

/-- The entry to HIBERNATE goes on as far as it can: it waits for HOLD_AWAKE and for the stores that run before it. (Assumption 124, DEDUCED.) -/
def execHibernateEntry (s : State) : Host.Outcome State Fault Refusal :=
  .next (
    if !(s.pwr.trans == some 3 || s.pwr.pfHib) || s.pwr.hib then s
    else if !s.pwr.pfHib && heldAwake s then s
    else
      let s := dbgEnd s
      let s := { s with pwr := { s.pwr with queue := s.pwr.queue.filter (fun r => r.pf) } }
      if s.pwr.store.isSome || !s.pwr.queue.isEmpty then s else hibernate s)

/-- Whether a wake cause is enabled and its condition holds (R490, R540). -/
def wakeOn (c : WakeCause) (s : State) : Bool :=
  match c with
  | .alarm => s.bit F.PWR_WAKE_CFG_ALARM && s.bit F.PWR_BK_SUB_VALID && s.word R.PWR_BK_SEC_LO == s.word R.PWR_WAKE_AT
  | .uart => s.bit F.UA_0_WAKE_WAKE_EN
  | .mains => s.bit F.PWR_WAKE_CFG_MAINS
  | .pin => true

/-- The cause is recorded in class B. -/
def wakeRecord (c : WakeCause) (s : State) : State :=
  match c with
  | .alarm => s.setFld F.PWR_WAKE_STAT_ALARM 1
  | .uart => (s.setFld F.PWR_WAKE_STAT_UART 1).setFld F.UA_0_WAKE_WOKE 1
  | .mains => s.setFld F.PWR_WAKE_STAT_MAINS 1
  | .pin => s.setFld F.PWR_WAKE_STAT_PIN 1

/-- A wake asserts MAIN_EN, and main POR follows. (Assumption 124, DEDUCED.) -/
def execHibernateWake (c : WakeCause) (s : State) : Host.Outcome State Fault Refusal :=
  .next (if s.pwr.hib && wakeOn c s then porReset 2 (wakeRecord c s) else s)

/-! Flash stores (R555 to R560). -/

/-- Body bytes of a store kind, 0 for a reserved one. -/
def storeLen (kind : Nat) : Nat :=
  match kind with | 1 => 64 | 2 => 576 | 3 => 88 | 4 => 65536 | 5 => 3584 | _ => 0

/-- Bytes of a slot. -/
def slotSize (kind : Nat) : Nat := if kind = 4 then 0x11000 else 0x1000

/-- The two sources of requests merge in one that is queued; PF requests go ahead (R560). -/
def storeQueue (r : StoreReq) (s : State) : State :=
  let q := s.pwr.queue
  let q := if q.any (fun e => e.kind == r.kind) then
      q.map (fun e => if e.kind = r.kind then ⟨e.kind, e.pf || r.pf, e.other || r.other, e.reg || r.reg⟩ else e)
    else q ++ [r]
  { s with pwr := { s.pwr with queue := q.filter (fun e => e.pf) ++ q.filter (fun e => !e.pf) } }

/-- FLASH_STORE: a reserved kind is refused by the target (R52, R555). -/
def execFlashStore (i : BitVec 12) (s : State) : Host.Outcome State Fault Refusal :=
  .next (ttDispatch i.toNat 8 (fun p s => if storeLen (p % 256) = 0 then s else storeQueue ⟨p % 256, false, true, false⟩ s) s)

/-- The header of a record (R558). -/
def storeHead (kind seq : Nat) (body : List Byte) (s : State) : List Byte :=
  let h := leBytes 4 0x50545352 ++ leBytes 4 kind ++ leBytes 4 seq ++ leBytes 4 body.length ++ leBytes 8 s.now64 ++ leBytes 4 0
  h ++ leBytes 4 (crc32 (h ++ body)).toNat

/-- A slot's record, when it is valid: its SEQ and body (R559). -/
def storeRecord (kind : Nat) (slotB : Bool) (s : State) : Option (Nat × List Byte) :=
  let a := slotAddr kind slotB s
  let h := s.flashBytes a 32
  let n := leAt h 12 4
  if leAt h 0 4 ≠ 0x50545352 ∨ slotSize kind < 32 + n then none
  else
    let body := s.flashBytes (a + 32) n
    if (crc32 (h.take 28 ++ body)).toNat = leAt h 28 4 then some (leAt h 8 4, body) else none

/-- The newest valid record of a kind: its slot, SEQ and body (R559). -/
def storeNewest (kind : Nat) (s : State) : Option (Bool × Nat × List Byte) :=
  match storeRecord kind false s, storeRecord kind true s with
  | some a, some b =>
    let d := (b.1 + 2 ^ 32 - a.1) % 2 ^ 32
    if 1 ≤ d ∧ d < 2 ^ 31 then some (true, b) else some (false, a)
  | some a, none => some (false, a)
  | none, some b => some (true, b)
  | none, none => none

/-- Registers of the CAL body in order. -/
def calRegs : List Nat :=
  ((List.range 4).map (fun x => (List.range 4).map (fun n => R.GRF_CH_PROF_CAL x n))).flatten ++
    (List.range 64).map (fun n => R.BCN_CH_CAL n) ++ (List.range 64).map (fun n => R.BCN_CH_TUNE n)

/-- Registers of the TIMING body in order. -/
def timingRegs : List Nat :=
  (List.range 6).map (fun k => R.SOL_SURVEY_POS k) ++ [R.SOL_SURVEY_UNC] ++ (List.range 3).map (fun b => R.SKY_IBB (b + 1)) ++
    (List.range 6).map (fun j => R.SKY_IONO_C j) ++
    [R.SKY_IONO_REF, R.SKY_IONO_ORIGIN, R.SKY_KLOB_A, R.SKY_KLOB_B, R.TB_LEAP, R.TB_LEAP_AT]

/-- Words of registers in order. -/
def regBody (l : List Nat) (s : State) : List Byte := (l.map (fun o => leBytes 4 (s.word o).toNat)).flatten

/-- The body of a kind; none for HOLDOVER without a valid record (R555, R556). -/
def storeBody (kind : Nat) (s : State) : Option (List Byte) :=
  match kind with
  | 1 => (holdNewest s).map (fun b => holdCopy b s)
  | 2 => some (regBody calRegs s)
  | 3 => some (regBody timingRegs s)
  | 4 => some ((List.range 256).map (fun i => skySlot s i)).flatten
  | _ => some (s.memBytes 0x3F10200 3584)

/-- Four samples of the hold-up converter: the rail in mV and the energy in 0.1 mJ (R553). (Assumption 122, PRESUMED.) -/
def holdupMeasure (codes : List Nat) (s : State) : Nat × Nat :=
  let mv : Rat := (codes.sum : Rat) / 4 * 1200 / 4096 * (s.fld F.PWR_HOLDUP_V_RATIO : Rat) / 256
  let vmin : Rat := (s.fld F.PWR_HOLDUP_V_VMIN : Rat)
  let e : Rat := (s.fld F.PWR_HOLDUP_CFG_CAP : Rat) * (mv * mv - vmin * vmin) / (2 * 10 ^ 8)
  (satNat 0xFFFF mv.floor.toNat, satNat 0xFFFF e.floor.toNat)

/-- A store ends with its RESULT and EV_030 (R555). -/
def storeEnd (r : StoreReq) (result : Nat) (s : State) : State :=
  let s := s.setFld (F.PWR_STORE_STAT_RESULT r.kind) result
  raise 30 (if r.reg then s.setFld F.PWR_STORE_CTRL_RESULT result else s)

/-- A transfer of a flash store leaves on SPIM device 0, on one line (R472, R559). (Assumption 164, DEDUCED.) -/
def flashSend (ps : List SpimPhase) (s : State) : State := s.emit (.spim 0 (spimClock s) ps)

/-- A command that changes the flash: write enable 0x06, the command with its address and data, and a status poll 0x05 (R559). (Assumption 164, DEDUCED.) -/
def flashCommand (op a : Nat) (data : List Byte) (s : State) : State :=
  let addr := addrBytes (if s.bit F.SPIM_XIP_ADDR4 then 4 else 3) a
  flashSend [.send 1 [0x05], .take 1 1] (flashSend [.send 1 [BitVec.ofNat 8 op], .send 1 (addr ++ data)] (flashSend [.send 1 [0x06]] s))

/-- A block cut at the page boundaries of 256 bytes. -/
def flashPages : Nat → Nat → List Byte → List (Nat × List Byte)
  | 0, _, _ => []
  | n + 1, a, bs =>
    if bs.isEmpty then [] else (a, bs.take (256 - a % 256)) :: flashPages n (a + (256 - a % 256)) (bs.drop (256 - a % 256))

/-- The page programs of a block (R559). -/
def flashWrite (a : Nat) (bs : List Byte) (s : State) : State :=
  (flashPages (bs.length / 256 + 2) a bs).foldl (fun s p => flashCommand 0x02 p.1 p.2 s) s

/-- A slot of the flash is erased by 4 KiB erases (R559). -/
def slotClear (kind : Nat) (slotB : Bool) (s : State) : State :=
  let a := slotAddr kind slotB s
  let s := (List.range (slotSize kind / 4096)).foldl (fun s k => flashCommand 0x20 (a + 4096 * k) [] s) s
  linesDrop { s with flash := Sparse.keep (fun x => !(decide (a ≤ x) && decide (x < a + slotSize kind))) s.flash }

/-- A store whose energy suffices begins with its target slot, erased unless known to be (R559 step 1). (Assumption 120, DEDUCED.) -/
def storeBegin (r : StoreReq) (body : List Byte) (s : State) : State :=
  let new := storeNewest r.kind s
  let slot := match new with | some n => !n.1 | none => false
  let seq := match new with | some n => (n.2.1 + 1) % 2 ^ 32 | none => 0
  let key := (r.kind, slot)
  let s := omitLeave s
  let s := if s.pwr.blank.contains key then s else slotClear r.kind slot s
  { s with pwr := { s.pwr with
    store := some ⟨r, slot, seq, storeHead r.kind seq body s ++ body⟩
    erase := s.pwr.erase.filter (fun e => e != key), blank := s.pwr.blank.filter (fun e => e != key) } }

/-- The next store is decided on four samples of the hold-up voltage (R553, R555). -/
def execStoreStart (a b c d : BitVec 12) (s : State) : Host.Outcome State Fault Refusal :=
  .next (match s.pwr.store, s.pwr.queue with
    | none, r :: rest =>
      if s.spim.bus.isSome then s else
      let m := holdupMeasure [a.toNat, b.toNat, c.toNat, d.toNat] s
      let s := ({ s with pwr := { s.pwr with queue := rest } }.setFld F.PWR_HOLDUP_STAT_V_MV m.1).setFld F.PWR_HOLDUP_STAT_E m.2
      if m.2 < s.fld (F.PWR_STORE_CFG_NEED r.kind) then storeEnd r 0x40 s
      else
        match storeBody r.kind s with
        | none => storeEnd r ST.empty s
        | some body => storeBegin r body s
    | _, _ => s)

/-- The record is programmed, the body before the header: bits of the flash only go from 1 to 0 (R559). -/
def storeProgram (r : StoreRun) (s : State) : State :=
  let a := slotAddr r.req.kind r.slot s
  let s := flashWrite a (r.record.take 32) (flashWrite (a + 32) (r.record.drop 32) s)
  linesDrop (s.setFlashBytes a ((r.record.zip (s.flashBytes a r.record.length)).map (fun p => p.1 &&& p.2)))

/-- A store finishes: the record is programmed and read back, and the other slot's erase waits (R559). -/
def execStoreDone (ok : Bool) (s : State) : Host.Outcome State Fault Refusal :=
  .next (match s.pwr.store with
    | none => s
    | some r =>
      let s := { s with pwr := { s.pwr with store := none } }
      let s := if ok then storeProgram r (omitLeave s) else storeTorn r (omitLeave s)
      if ok && s.flashBytes (slotAddr r.req.kind r.slot s) r.record.length == r.record then
        let key := (r.req.kind, !r.slot)
        let q := s.pwr.erase.filter (fun e => e != key) ++ [key]
        storeEnd r.req ST.ok { s with pwr := { s.pwr with erase := q, blank := s.pwr.blank.filter (fun e => e != key) } }
      else storeEnd r.req 0x41 s)

/-- A deferred erase, while no store waits or runs (R559 step 3). -/
def execSlotErase (s : State) : Host.Outcome State Fault Refusal :=
  .next (match s.pwr.store, s.pwr.queue, s.pwr.erase with
    | none, [], k :: rest =>
      if s.spim.bus.isSome then s else
      slotClear k.1 k.2 (omitLeave { s with pwr := { s.pwr with erase := rest, blank := s.pwr.blank ++ [k] } })
    | _, _, _ => s)

/-! Restores (R561). -/

/-- The fields of the register at an offset. -/
def regFields (off : Nat) : List FieldSpec := match regAt off with | some r => r.fields | none => []

/-- A register's word after a stored one went back: its fields take the values they may hold; reserved bits stay 0 (R8). -/
def fieldsRestored (fl : List FieldSpec) (old w : Nat) : Nat :=
  fl.foldl (fun acc f =>
    let v := bitsOf w f.hi f.lo
    if f.legal.ok (f.hi + 1 - f.lo) v then insertBits acc f.hi f.lo v else acc) old

/-- Stored words go back into registers in order. (Assumption 125, DEDUCED.) -/
def regRestore (l : List Nat) (f : Nat → Nat → Nat) (body : List Byte) (s : State) : State :=
  l.zipIdx.foldl (fun s e =>
    s.setWord e.1 (BitVec.ofNat 32 (fieldsRestored (regFields e.1) (s.word e.1).toNat (f e.2 (leAt body (4 * e.2) 4))))) s

/-- The status of a restore into registers: ST_FORMAT where one refuses a value or a reserved bit is set (R11, R561). (Assumption 125, DEDUCED.) -/
def regStatus (l : List Nat) (body : List Byte) : Nat :=
  if l.zipIdx.all (fun e =>
      let w := leAt body (4 * e.2) 4
      fieldsRestored (regFields e.1) 0 w == w) then ST.ok else ST.format

/-- A stored calibration word arrives STALE where it is valid: bits 16 and 15 of a chain's, 23 and 22 of the beacon's. (Assumption 125, DEDUCED.) -/
def calRestored (k w : Nat) : Nat :=
  if k < 16 then (if w.testBit 16 then w ||| 2 ^ 15 else w)
  else if k < 80 then (if w.testBit 23 then w ||| 2 ^ 22 else w) else w

/-- The body of a record goes back to its content; the status (R561). (Assumption 125, DEDUCED.) -/
def storeApply (kind : Nat) (body : List Byte) (s : State) : Nat × State :=
  match kind with
  | 1 => (ST.ok, holdWrite body s)
  | 2 => (regStatus calRegs body, syncCal (regRestore calRegs calRestored body s))
  | 3 =>
    let s' := regRestore timingRegs (fun _ w => w) body s
    let s' := ionoCheck { s' with sky := { s'.sky with ionoSet := true } }
    (regStatus timingRegs body, if s'.word R.TB_LEAP != s.word R.TB_LEAP || s'.word R.TB_LEAP_AT != s.word R.TB_LEAP_AT then mirrorNote 4 0 s' else s')
  | 4 => (List.range 221).foldl (fun (p : Nat × State) i =>
      let r := skyWrite i ((body.drop (256 * i)).take 256) p.2
      (if r.1 = ST.ok then p.1 else r.1, r.2)) (ST.ok, s)
  | _ => (ST.ok, s.setMemBytes 0x3F10200 body)

/-- The reserved bytes of a slot's record header are 0 (R558). (Assumption 125, DEDUCED.) -/
def storeReservedOk (kind : Nat) (slotB : Bool) (s : State) : Bool :=
  let h := s.flashBytes (slotAddr kind slotB s) 32
  leAt h 5 3 == 0 && leAt h 24 4 == 0

/-- A write of PWR_STORE_CTRL with GO (R555, R561); a record with a reserved byte set is refused (R11). -/
def opStoreCtrl (who : Reader) (v : Word) (s : State) : State :=
  let s := plainWrite who R.PWR_STORE_CTRL v s
  let kind := v.toNat % 256
  if !v.toNat.testBit 31 then s
  else if storeLen kind = 0 then s.setFld F.PWR_STORE_CTRL_RESULT ST.format
  else if !v.toNat.testBit 8 then storeQueue ⟨kind, false, true, true⟩ s
  else
    match storeNewest kind s with
    | none => s.setFld F.PWR_STORE_CTRL_RESULT ST.empty
    | some n =>
      if !storeReservedOk kind n.1 s then s.setFld F.PWR_STORE_CTRL_RESULT ST.format
      else
        let r := storeApply kind (n.2.2 ++ List.replicate (storeLen kind - n.2.2.length) 0) (omitLeave s)
        r.2.setFld F.PWR_STORE_CTRL_RESULT r.1

def execStoreGo (who : Reader) (v : Word) (s : State) : Host.Outcome State Fault Refusal :=
  .next (gate who R.PWR_STORE_CTRL true (opStoreCtrl who v) s)

/-- See assumption 125, DEDUCED. -/
def execRestoreGo (who : Reader) (v : Word) (s : State) : Host.Outcome State Fault Refusal :=
  .next (gate who R.PWR_STORE_CTRL true (opStoreCtrl who v) s)

/-! Power fail (R552, R554). -/

/-- PWRFAIL_N was asserted for DEB: PF, EV_029 and the action; a latched TARGET is discarded (R541). -/
def execPwrfailAssert (s : State) : Host.Outcome State Fault Refusal :=
  .next (
    if s.bit F.PWR_STAT_PF || s.pwr.hib then s
    else
      let s := raise 29 (s.setFld F.PWR_STAT_PF 1)
      let act := s.fld F.PWR_PF_CFG_ACTION
      if act = 0 then s
      else
        let m := s.fld F.PWR_PF_CFG_STORE_MASK
        let s := (List.range 5).foldl (fun s k => if m.testBit (k + 1) then storeQueue ⟨k + 1, true, false, false⟩ s else s) s
        let s := setLatch none s
        { s with pwr := { s.pwr with pfHib := act == 1 } })

/-- PWRFAIL_N was deasserted for DEB: PF clears; an entry to HIBERNATE that waits for its stores is abandoned, and with it
those of its stores that nothing else asked for (R554). -/
def execPwrfailDeassert (s : State) : Host.Outcome State Fault Refusal :=
  .next (
    if !s.bit F.PWR_STAT_PF then s
    else
      let s := raise 29 (s.setFld F.PWR_STAT_PF 0)
      if !s.pwr.pfHib then s
      else
        let q := s.pwr.queue.filter (fun r => !r.pf || r.other)
        { s with pwr := { s.pwr with pfHib := false, queue := q.map (fun r => { r with pf := false }) } })

end Sys2Proof.Machine
end

