-- ==== Sys2Proof/Machine/Map.lean ====
section
/-! DEFINITION. The device memory map behind BAR 2 and the bank window (R125, R239, R426, R475, R496, R501, R520, R549), and the copy
channels that move its bytes (R437, R438). -/
namespace Sys2Proof.Machine

/-- What a region of the device memory map gives its readers and writers (R426). -/
inductive MapKind where
  | codeStore | bootBuffer | skyOpen | primaryStore | ring (n : Nat) | xip | otp | backup | bootRom | none
deriving DecidableEq, Repr

/-- The region of an address (R426, R475). -/
def mapKind (a : Nat) : MapKind :=
  if a < 0x1000000 then .codeStore
  else if 0x1800000 ≤ a ∧ a < 0x1C00000 then .bootBuffer
  else if (0x1DC0000 ≤ a ∧ a < 0x1DD0000) ∨ (0x1DF0000 ≤ a ∧ a < 0x1E00000) then .skyOpen
  else if 0x1E00000 ≤ a ∧ a < 0x2000000 then .primaryStore
  else if 0x2000000 ≤ a ∧ a < 0x2280000 then .ring ((a - 0x2000000) / 0x40000)
  else if 0x2800000 ≤ a ∧ a < 0x3800000 then .xip
  else if 0x3F00000 ≤ a ∧ a < 0x3F10000 then .otp
  else if 0x3F10000 ≤ a ∧ a < 0x3F11000 then .backup
  else if 0x3FC0000 ≤ a ∧ a < 0x4000000 then .bootRom
  else .none

/-- The device memory map answers a reader: not in HIBERNATE or VOID, nor the host while its link is down. (Assumption 46, DEDUCED.) -/
def mapAnswers (r : Reader) (s : State) : Bool := !s.pwr.hib && !(r == .host && s.pwr.pcieOff) && lcState s != 4

/-- The reader is SQM in Vault mode (R513, R549). -/
def vaultMode (r : Reader) (s : State) : Bool := r == .sqm && readerPriv .sqm s == 2

/-- OTP bytes that read 0 except as R496 says: the device secret and the operator secrets. -/
def otpHidden (r : Reader) (a : Nat) (s : State) : Bool :=
  let o := a - 0x3F00000
  (decide (0x600 ≤ o) && decide (o < 0x620)) || (decide (0x1000 ≤ o) && decide (o < 0x2000) && !vaultMode r s)

/-- Whether a reader may read an address (R125, R426, R475). (Assumption 46, DEDUCED.) -/
def mapReadable (r : Reader) (a : Nat) (s : State) : Bool :=
  mapAnswers r s &&
    (match mapKind a with
     | .ring n => domainOn (5 + n) s
     | .xip => r != .host
     | .bootBuffer => false
     | .none => false
     | _ => true)

/-- Whether a writer may write an address (R426, R501, R549). (Assumption 46, DEDUCED.) -/
def mapWritable (r : Reader) (a : Nat) (s : State) : Bool :=
  mapAnswers r s &&
    (match mapKind a with
     | .codeStore => true
     | .bootBuffer => r == .host && inRecovery s
     | .skyOpen => true
     | .primaryStore => true
     | .ring n => domainOn (5 + n) s
     | .backup =>
       let o := a - 0x3F10000
       if o < 0x180 then vaultMode r s else decide (0x200 ≤ o)
     | _ => false)

/-- A byte of the map as a reader sees it, with the effects of a read of the execute-in-place window. (Assumption 39, DESIGN CHOICE.) -/
def mapReadByte (r : Reader) (a : Nat) (s : State) : Byte × State :=
  if !mapReadable r a s then (0, s)
  else
    match mapKind a with
    | .xip => xipByte (a - 0x2800000) s
    | .otp => (if otpHidden r a s then 0 else s.memByte a, s)
    | .bootRom => (BitVec.ofNat 8 (Config.romByte (a - 0x3FC0000)), s)
    | _ => (s.memByte a, s)

/-- A run of bytes of the map as a reader sees it, one after another. -/
def mapReadBytes (r : Reader) (a : Nat) : Nat → State → List Byte × State
  | 0, s => ([], s)
  | n + 1, s =>
    let b := mapReadByte r a s
    let t := mapReadBytes r (a + 1) n b.2
    (b.1 :: t.1, t.2)

/-- A write of bytes to the map: where it is not allowed it is ignored; a window write sets XIP_WR (R475), a write into the
region of a profile in use sets STORE_WR (R239). -/
def mapWrite (r : Reader) (a : Nat) (bs : List Byte) (s : State) : State :=
  if mapKind a == .xip && r != .host && mapAnswers r s then spimFlag F.SPIM_STAT_XIP_WR s
  else if !mapWritable r a s then s
  else if mapKind a == .codeStore then storePut a bs s
  else s.setMemBytes a bs

/-- A write of one byte. -/
def mapWriteByte (r : Reader) (a : Nat) (v : Byte) (s : State) : State := mapWrite r a [v] s

/-- A run of bytes written block by block of 128, within which the map and its rules do not change. -/
def mapPutRun (r : Reader) : Nat → Nat → List Byte → State → State
  | 0, _, _, s => s
  | k + 1, a, bs, s =>
    if bs.isEmpty then s
    else
      let n := 128 - a % 128
      mapPutRun r k (a + n) (bs.drop n) (mapWrite r a (bs.take n) s)

/-- A run of bytes written to the map. -/
def mapPut (r : Reader) (a : Nat) (bs : List Byte) (s : State) : State := mapPutRun r (bs.length / 128 + 2) a bs s

/-- The first address of a range, by blocks of 128 bytes, that the protection unit denies (R513, R514). (Assumption 46, DEDUCED.) -/
def rangeDenied (r : Reader) (a n : Nat) (write : Bool) (s : State) : Option Nat :=
  ((List.range (n / 128 + 2)).map (fun k => max a (a / 128 * 128 + 128 * k))).find? (fun x =>
    decide (x < a + n) && !unitAllows r 1 x write s)

/-- A write through BAR 2, of any bytes (R239, R422, R424, R426): a denied one is ignored as a whole. (Assumption 46, DEDUCED.) -/
def execStoreWrite (who : Reader) (a : BitVec 26) (v : List Byte) (s : State) : Host.Outcome State Fault Refusal :=
  .next (if !mapAnswers who s then s
    else
      match rangeDenied who a.toNat v.length true s with
      | some x => protRecord who 1 x true s
      | none => mapPut who a.toNat v s)

/-! The copy channels (R437). -/

/-- The owner of a channel: 0 the host, 1 SQM. -/
def copyOwner (c : Nat) : Reader := if c = 0 then .host else .sqm

/-- A channel ignores writes from its other owner. (Assumption 47, DEDUCED.) -/
def copyTakes (c : Nat) (who : Reader) : Bool := !(who == copyOwner (1 - c))

/-- A copy in progress on a channel. -/
def copyJob (s : State) (c : Nat) : Option CopyJob := Sparse.get (fun _ => none) s.copies c

/-- A copy in progress replaced; BUSY shows it. -/
def setCopyJob (s : State) (c : Nat) (j : Option CopyJob) : State :=
  { s with copies := Sparse.put (fun _ => none) s.copies c j }.setBit (F.HOST_COPY_CTRL_BUSY c) j.isSome

/-- A copy ends with a result and EV_006. -/
def copyEnd (c result : Nat) (s : State) : State :=
  raise 6 ((setCopyJob s c none).setFld (F.HOST_COPY_CTRL_RESULT c) result)

/-- Whether a range is wholly accessible to a reader in a direction, block by block of 128 bytes (R424, R426, R514, R549). -/
def rangeOpen (r : Reader) (a n : Nat) (write : Bool) (s : State) : Bool :=
  decide (a + n ≤ 0x4000000) && (rangeDenied r a n write s).isNone && (List.range (n / 128 + 2)).all (fun k =>
    let x := max a (a / 128 * 128 + 128 * k)
    decide (a + n ≤ x) || (if write then mapWritable r x s else mapReadable r x s))

/-- A device range of a copy or of CP2 that the protection unit denies raises EV_124 and is recorded as theirs (R513, R516). -/
def rangeRecord (r : Reader) (a n : Nat) (write : Bool) (s : State) : State :=
  match rangeDenied r a n write s with
  | some x => protRecordAs 13 1 x write s
  | none => s

/-- A write of a channel's CTRL: GO is checked, ABORT stops a copy that runs (R437). (Assumption 47, DEDUCED.) -/
def opCopyCtrl (who : Reader) (c : Nat) (v : Word) (s : State) : State :=
  let go := v.toNat.testBit 31
  if !copyTakes c who then s
  else
    match copyJob s c with
    | some j =>
      if go then s
      else
        let s := plainWrite who (R.HOST_COPY_CTRL c) v s
        if v.toNat.testBit 30 then setCopyJob s c (some { j with abort := true }) else s
    | none =>
      let s := plainWrite who (R.HOST_COPY_CTRL c) v s
      if !go then s
      else
        let toHost := s.bit (F.HOST_COPY_CTRL_TO_HOST c)
        let len := s.fld (F.HOST_COPY_LEN_LEN c)
        let dev := s.fld (F.HOST_COPY_DEV_DEV c)
        if 16777216 < len then copyEnd c ST.format s
        else if !rangeOpen (copyOwner c) dev len (!toHost) s then
          copyEnd c ST.format (rangeRecord (copyOwner c) dev len (!toHost) s)
        else if len = 0 then copyEnd c ST.ok s
        else
          let host := s.fld (F.HOST_COPY_ADDR_HI_ADDR_HI c) * 2 ^ 32 + s.fld (F.HOST_COPY_ADDR_LO_ADDR c)
          setCopyJob s c (some ⟨host, dev, len, toHost, false⟩)

/-- A write of another register of a channel. -/
def opCopyReg (who : Reader) (c off : Nat) (v : Word) (s : State) : State :=
  if copyTakes c who then plainWrite who off v s else s

def execCopyGo (who : Reader) (c : Fin 2) (v : Word) (s : State) : Host.Outcome State Fault Refusal :=
  .next (gate who (R.HOST_COPY_CTRL c) true (opCopyCtrl who c v) s)

def execCopyAbort (who : Reader) (c : Fin 2) (v : Word) (s : State) : Host.Outcome State Fault Refusal :=
  .next (gate who (R.HOST_COPY_CTRL c) true (opCopyCtrl who c v) s)

/-- What a copy moved before it ended: `data` is what host memory gave, `moved` how many bytes went through. (Assumption 47, DEDUCED.) -/
def copyMove (c : Nat) (j : CopyJob) (moved : Nat) (data : List Byte) (s : State) : State :=
  if j.toHost then
    let r := mapReadBytes (copyOwner c) j.dev moved s
    r.2.setHostBytes j.host r.1
  else mapPut (copyOwner c) j.dev (data.take moved) s

/-- A copy ends (R437): whole with ST_OK; after ABORT at the next 512-byte boundary, or by a link error, with ST_ABORT; the
bytes moved stay moved. (Assumption 47, DEDUCED.) -/
def execCopyDone (c : Fin 2) (moved : BitVec 25) (data : List Byte) (s : State) : Host.Outcome State Fault Refusal :=
  .next (match copyJob s c with
    | none => s
    | some j =>
      let n := min moved.toNat j.len
      let n := if j.abort then min j.len ((n + 511) / 512 * 512) else n
      let s := copyMove c j n data s
      copyEnd c (if j.abort ∨ n < j.len then ST.abort else ST.ok) s)

end Sys2Proof.Machine
end

