-- ==== Sys2Proof/Machine/Bus.lean ====
section
/-! DEFINITION. Register access: what a register reads as for a reader, latch groups (R34 to R37), and what a write of a BAR 0 word
does (R4, R5, R9, R41, R125, R397, R422, R425). -/
namespace Sys2Proof.Machine

/-! Reads. -/

/-- A word with a field that mirrors live state. -/
def withFld (w : Word) (f : Fld) (v : Nat) : Word := BitVec.ofNat 32 (insertBits w.toNat f.hi f.lo v)

/-- A word with a bit that mirrors live state. -/
def withBit (w : Word) (f : Fld) (b : Bool) : Word := withFld w f (if b then 1 else 0)

/-- The low and high words of a 64-bit value. -/
def wordOf (v k : Nat) : Word := BitVec.ofNat 32 (v / 2 ^ (32 * k))

/-- The key of a reader's word: EV_PEND has a host and an SQM copy, and the debug port reads the host's (R440). (Assumption 15, DEDUCED.) -/
def readKey (r : Reader) (off : Nat) : Nat :=
  if 0x700200 ≤ off ∧ off < 0x700210 then copyOff (if r == .sqm then .sqm else .host) off else regKey r off

/-- The timebase's registers: views, status, stamps, discipline (R33, R34, R42, R43, R66, R288, R292). -/
def liveTime (r : Reader) (off : Nat) (w : Word) (s : State) : Word :=
  if off < 0x10018 then (nowWords r s).getD ((off - 0x10000) / 4) 0
  else if off = R.TB_STATUS then
    withBit (withBit (withBit w F.TB_STATUS_COARSE s.coarse) F.TB_STATUS_REF_LOST s.refLost) F.TB_STATUS_LEAP_ARMED
      (leapArmed s).isSome
  else if 0x10100 ≤ off ∧ off < 0x10180 ∧ 4 ≤ off % 0x20 ∧ off % 0x20 < 0x14 then
    (evtWords ((off - 0x10100) / 0x20) s).getD (off % 0x20 / 4 - 1) 0
  else if off = R.TP_STATUS then withBit w F.TP_STATUS_SQUELCHED (squelched s)
  else if off = R.TP_OFFSET_LO then wordOf (ofsWords s) 0
  else if off = R.TP_OFFSET_HI then wordOf (ofsWords s) 1
  else w

/-- A channel's registers: SEC.IDX, the rates in use and the NCO group (R131, R134, R137). -/
def liveChannel (k off : Nat) (w : Word) (s : State) : Word :=
  let o := off % 0x80
  let c := ncoNow (ncoOf k s) s
  if o = 0x14 then withFld w (F.TRK_CH_SEC_IDX k) (idxNow k s)
  else if o = 0x18 then wordOf c.codeRate 0
  else if o = 0x1C then wordOf c.codeRate 1
  else if o = 0x20 then wordOf (ofSigned 48 c.carrRate) 0
  else if o = 0x24 then wordOf (ofSigned 48 c.carrRate) 1
  else if 0x40 ≤ o ∧ o < 0x60 then (ncoGroup k s).getD ((o - 0x40) / 4) 0
  else w

/-- The Carousel's counters (R203, R216, R217, R254, R257). -/
def liveCarousel (r : Reader) (off : Nat) (w : Word) (s : State) : Word :=
  if off = R.CAR_STAT then
    withFld (withFld w F.CAR_STAT_SLOTS_USED (jobList s).length) F.CAR_STAT_STAGE_FREE (stageFree s)
  else if off = R.CAR_QSTAT then
    withFld (withFld w F.CAR_QSTAT_QUEUED (queuedCount s)) F.CAR_QSTAT_FORWARDED (jobCount (fun j => j.state == 7) s)
  else if off = R.CAR_DONE_LO then wordOf s.car.done 0
  else if off = R.CAR_DONE_HI then wordOf s.car.done 1
  else if off = R.CAR_SLOT_INFO0 then (slotInfo (s.fld (F.CAR_SLOT_QRY_INDEX.at r)) s).1
  else if off = R.CAR_SLOT_INFO1 then (slotInfo (s.fld (F.CAR_SLOT_QRY_INDEX.at r)) s).2
  else if 0x300100 ≤ off ∧ off < 0x300188 then
    withFld w (F.CAR_SRC_LIMIT_INUSE ((off - 0x300100) / 4)) (srcInuse ((off - 0x300100) / 4) s)
  else if off = R.CAR_LANE_STAT then
    let on := bitsOf (s.word R.PWR_DOMAIN).toNat 22 15
    let wait := (List.range 8).foldl (fun (m : Nat) g => if startQueued (groupDomain g) s then m + 2 ^ g else m) 0
    withFld (withFld (withFld w F.CAR_LANE_STAT_POWERED on) F.CAR_LANE_STAT_PENDING wait) F.CAR_LANE_STAT_USED
      (satNat 0xFFFF (s.car.used / 2 ^ 20))
  else if off = R.CAR_SCRATCH then withFld w F.CAR_SCRATCH_FREE_KIB ((1048576 - scratchUsed s) / 1024)
  else if 0x300240 ≤ off ∧ off < 0x300270 ∧ off % 0x10 = 4 then
    withFld w (F.CAR_PROF_CFG_JOBS ((off - 0x300240) / 0x10)) (profJobs ((off - 0x300240) / 0x10) s)
  else w

/-- A sequencer's status and PC. -/
def liveSeq (off : Nat) (w : Word) (s : State) : Word :=
  let n := (off - 0x580000) / 0x100
  let q := s.seq n
  if off % 0x100 = 8 then
    let st := match q.run with | .halted => 0 | .run => 1 | .wait => 2 | .dfault => 3
    withFld (withBit (withFld (withFld w (F.SQ_STAT_STATE n) st) (F.SQ_STAT_PRIV n) (q.mode.toNat % 4)) (F.SQ_STAT_DBG_HALT n)
      q.dbgHalt) (F.SQ_STAT_FCAUSE n) q.fcause.toNat
  else if off % 0x100 = 0xC then q.pc.setWidth 32
  else w

/-- Registers of SEC and LC that show OTP (R496, R508, R517). -/
def liveSec (off : Nat) (w : Word) (s : State) : Word :=
  if off = R.SEC_RB then withFld w F.SEC_RB_COUNT (satNat 255 (rollbackCount s))
  else if off = R.SEC_ROOT then
    let set := (List.range 6).foldl (fun (m : Nat) k => if slotProgrammed s k then m + 2 ^ k else m) 0
    withFld (withFld w F.SEC_ROOT_REVOKED (leNat (otpBytes s 0x4C0 1))) F.SEC_ROOT_PROGRAMMED set
  else if off = R.LC_STATE then
    withBit (withFld w F.LC_STATE_STATE (lcState s)) F.LC_STATE_RETURN_START ((s.memByte 0x3F00500).getLsbD 2)
  else w

/-- Registers of PWR that show live state (R548, R555, R560). -/
def livePwr (off : Nat) (w : Word) (s : State) : Word :=
  if off = R.PWR_BK_SUB then withBit w F.PWR_BK_SUB_XTAL_OK (!s.pwr.xtalOff)
  else if off = R.PWR_STORE_CTRL then withBit w F.PWR_STORE_CTRL_BUSY (s.pwr.store.isSome || !s.pwr.queue.isEmpty)
  else if 0x680064 ≤ off ∧ off < 0x680078 then
    let k := (off - 0x680060) / 4
    withFld w (F.PWR_STORE_STAT_SEQ k) (match storeNewest k s with | some n => n.2.1 | none => 0)
  else w

/-- What a word reads as for a reader: its register's word, with the fields that mirror live state. -/
def liveWord (r : Reader) (off : Nat) (s : State) : Word :=
  let w := livePort r off (s.word (readKey r off)) s
  match off / 0x10000 with
  | 0x00 => if off = R.DEV_STATUS then withFld w F.DEV_STATUS_LC (lcState s) else w
  | 0x01 => liveTime r off w s
  | 0x04 =>
    if 0x40F74 ≤ off ∧ off < 0x41000 then 0
    else if 0x40C00 ≤ off ∧ off < 0x41000 then
      withFld w (F.IFC_FSM_SAT_OSNMA_SEC ((off - 0x40C00) / 4)) (osnmaSec ((off - 0x40C00) / 4) s)
    else w
  | 0x05 => if 0x50100 ≤ off ∧ off < 0x5010C then (chtShow r s).word (copyOff r off) else w
  | 0x28 =>
    if off = R.SIEVE_STAT then
      withFld (withFld w F.SIEVE_STAT_ARMED_CNT (s.sieve.plan.filter (fun (x : Nat × PlanEntry) => x.2.armed)).length)
        F.SIEVE_STAT_USED (satNat 0xFFFF (s.sieve.used / 2 ^ 20))
    else w
  | 0x30 => liveCarousel r off w s
  | 0x48 =>
    if off < 0x480400 ∧ off % 0x100 = 0x14 then
      let p := (off - 0x480000) / 0x100
      withFld (withFld (withFld w (F.TRP_PORT_CRED_JOB_AVAIL p) (satNat 255 (jobAvail p s))) (F.TRP_PORT_CRED_RES_AVAIL p)
        (satNat 255 (resAvail p s))) (F.TRP_PORT_CRED_BLK_AVAIL p) (satNat 0xFFFF (blkAvail p s))
    else w
  | 0x58 => liveSeq off w s
  | 0x60 => liveSec off w s
  | 0x68 => livePwr off w s
  | 0x70 => if off < 0x700200 then w else (match r with | .sq _ => 0 | _ => w)
  | p =>
    if 0x10 ≤ p ∧ p < 0x1A ∧ off % 0x10000 < 0x1000 then
      liveChannel ((p - 0x10) * 32 + off % 0x1000 / 0x80) off w s
    else w

/-- The latch group of a word: its lowest word and how many it has (R20, R34, R137). -/
def latchGroup (off : Nat) : Option (Nat × Nat) :=
  let inside (lo n : Nat) : Bool := decide (lo ≤ off) && decide (off < lo + 4 * n)
  let p := off / 0x10000
  if inside 0x4 2 then some (0x4, 2)
  else if inside 0x10000 6 then some (0x10000, 6)
  else if 0x10100 ≤ off ∧ off < 0x10180 ∧ 4 ≤ off % 0x20 ∧ off % 0x20 < 0x14 then some (off / 0x20 * 0x20 + 4, 4)
  else if inside 0x10428 5 then some (0x10428, 5)
  else if 0x10 ≤ p ∧ p < 0x1A ∧ off % 0x10000 < 0x1000 then
    (if 0x40 ≤ off % 0x80 ∧ off % 0x80 < 0x60 then some (off / 0x80 * 0x80 + 0x40, 8) else none)
  else if 0x10 ≤ p ∧ p < 0x1A ∧ 0x1020 ≤ off % 0x10000 ∧ off % 0x10000 < 0x1028 then some (p * 0x10000 + 0x1020, 2)
  else if inside 0x300020 2 then some (0x300020, 2)
  else if inside 0x38020C 12 then some (0x38020C, 12)
  else if inside 0x381010 7 then some (0x381010, 7)
  else if inside 0x381040 16 then some (0x381040, 16)
  else if 0x480000 ≤ off ∧ off < 0x480400 ∧ 0x18 ≤ off % 0x100 ∧ off % 0x100 < 0x20 then some (off / 0x100 * 0x100 + 0x18, 2)
  else if inside 0x480810 2 then some (0x480810, 2)
  else if inside 0x600010 8 then some (0x600010, 8)
  else if inside 0x600420 2 then some (0x600420, 2)
  else if inside 0x680100 3 then some (0x680100, 3)
  else none

/-- A reader's shadow of a group: its captured words, none held is []. -/
def capture (r : Reader) (lo : Nat) (s : State) : List Word := Sparse.get (fun _ => []) s.caps (copyOff r lo)

/-- A shadow replaced. -/
def setCapture (r : Reader) (lo : Nat) (ws : List Word) (s : State) : State :=
  { s with caps := Sparse.put (fun _ => []) s.caps (copyOff r lo) ws }

/-- A register of a ring that is off, whose channel registers read 0 and ignore writes (R125). (Assumption 67, DEDUCED.) -/
def ringOffReg (off : Nat) (s : State) : Bool :=
  let p := off / 0x10000
  decide (0x10 ≤ p) && decide (p < 0x1A) && decide (off % 0x10000 < 0x1000) && !domainOn (5 + (p - 0x10)) s

/-- Mailboxes and private RAM in BAR 0: byte memory (R370). -/
def bar0Mem (off : Nat) : Bool :=
  (decide (0x581000 ≤ off) && decide (off < 0x582000)) || (decide (0x590000 ≤ off) && decide (off < 0x590000 + 11 * 0x8000))

/-- A 32-bit read (R9, R35, R36): capture by the lowest word, release by the highest. (Assumption 12, DESIGN CHOICE.) -/
def busRead (r : Reader) (off : Nat) (s : State) : Word × State :=
  if !bar0Answers r off s || ringOffReg off s then (0, s)
  else if bar0Mem off then (BitVec.ofNat 32 (leNat (Sparse.bytes byteDflt s.ram off 4)), s)
  else
    match latchGroup off with
    | none => (liveWord r off s, s)
    | some (lo, n) =>
      if off = lo then
        let ws := (List.range n).map (fun k => liveWord r (lo + 4 * k) s)
        (ws.headD 0, setCapture r lo ws s)
      else
        match capture r lo s with
        | [] => (liveWord r off s, s)
        | ws => (ws.getD ((off - lo) / 4) 0, if off = lo + 4 * (n - 1) then setCapture r lo [] s else s)

/-! Writes. -/

/-- A sequencer runs: its private RAM takes no other writes (R397). -/
def seqRuns (n : Nat) (s : State) : Bool := match (s.seq n).run with | .run => true | .wait => true | _ => false

/-- Private RAM of a sequencer written through BAR 0 (R397, R398). -/
def privWrite (r : Reader) (off : Nat) (v : Byte) (s : State) : State :=
  let n := (off - 0x590000) / 0x8000
  let own := match r with | .sq m => m.val == n | .sqm => n == 10 | _ => false
  if seqRuns n s && !own && r != .debug then s.setFld (F.SQ_STAT_WR_RUN n) 1 else s.setRamByte off v

/-- A byte of BAR 0's byte memory. -/
def bar0ReadByte (r : Reader) (off : Nat) (s : State) : Byte := if bar0Answers r off s then s.ramByte off else 0

/-- A byte write of BAR 0's byte memory. -/
def bar0WriteByte (r : Reader) (off : Nat) (v : Byte) (s : State) : State :=
  if !bar0Answers r off s then s
  else if off < 0x582000 then mailboxPut ((off - 0x581000) / 0x100) (off % 0x100) v s
  else privWrite r off v s

/-- A word write of BAR 0's byte memory. -/
def bar0WriteWord (r : Reader) (off : Nat) (v : Word) (s : State) : State :=
  (leBytes 4 v.toNat).zipIdx.foldl (fun s e => bar0WriteByte r (off + e.2) e.1 s) s

/-- A write in the timebase's block. -/
def writeTime (r : Reader) (off : Nat) (v : Word) (s : State) : State :=
  if off = R.TB_RATE then foutCheck (opTimeWrite r off v s)
  else if off = R.TB_STEP_FRAC ∨ off = R.TB_STEP_SEC ∨ off = R.TB_OFS_SYS ∨ off = R.TB_LEAP ∨ off = R.TB_LEAP_AT then
    opTimeWrite r off v s
  else if off = R.TB_STEP_CMD then opStepCmd r v s
  else if 0x10100 ≤ off ∧ off < 0x10180 ∧ off % 0x20 = 0 then opEvtCtrlWrite r ((off - 0x10100) / 0x20) v s
  else if off = R.TT_PORT_CTRL then opPortCtrl ttPorts r v s
  else if 0x10208 ≤ off ∧ off < 0x10228 then opPortWindow ttPorts r off v s
  else if off = R.TP_CTRL then opTpCtrlWrite r v s
  else if off = R.TP_SG_CFG then plainWrite r off v (sgAccrue s)
  else if off = R.TP_CFG 0 then opTpCfgWrite r 0 v s
  else if off = R.TP_CFG 1 then opTpCfgWrite r 1 v s
  else if off = R.TP_FOUT_CFG then opFoutWrite r v s
  else plainWrite r off v s

/-- A write in the clock's block. -/
def writeClock (r : Reader) (off : Nat) (v : Word) (s : State) : State :=
  if off = R.CK_CFG then opCkCfgWrite r v s
  else if off = R.CK_CTRL then opCkCtrlWrite v s
  else if off = R.CK_DIV_NEXT then opDivNextWrite r v s
  else if off = R.CK_DIV_COMMIT then opDivCommit v s
  else plainWrite r off v s

/-- A write in the radio chains' block. -/
def writeGrf (r : Reader) (off : Nat) (v : Word) (s : State) : State :=
  let x := (off - 0x30000) / 0x100
  let o := off % 0x100
  if off < 0x30400 then
    if o = 0 then opChainCtrlWrite r x v s
    else if o = 8 then opAntCfgWrite r x v s
    else if 0x20 ≤ o ∧ o < 0x60 ∧ o % 0x10 = 0 then opProfLoWrite r x ((o - 0x20) / 0x10) v s
    else if 0x20 ≤ o ∧ o < 0x60 ∧ o % 0x10 = 4 then opProfGrfWrite r x ((o - 0x20) / 0x10) v s
    else plainWrite r off v s
  else if off = R.GRF_CAL_CTRL then opCalCtrl r v s
  else plainWrite r off v s

/-- A write in the conditioning block. -/
def writeIfc (r : Reader) (off : Nat) (v : Word) (s : State) : State :=
  let x := (off - 0x40000) / 0x200
  let o := off % 0x200
  if off < 0x40800 then
    if 0x40 ≤ o ∧ o < 0x80 then
      (if o % 8 = 0 then opNotchCtrlWrite r x ((o - 0x40) / 8) v s else opNotchFreqWrite r x ((o - 0x40) / 8) v s)
    else
      let s := plainWrite r off v s
      if o = 0x1C ∧ v.toNat.testBit 31 then opLearn x s else s
  else if off = R.IFC_FSM_CFG then opFsmCfgWrite r v s
  else if 0x40C00 ≤ off ∧ off < 0x41000 then (if v.toNat.testBit 31 then opFsmClear ((off - 0x40C00) / 4) s else s)
  else plainWrite r off v s

/-- A write in the beacon's block. -/
def writeBcn (r : Reader) (off : Nat) (v : Word) (s : State) : State :=
  if off = R.BCN_CFG then opBcnCfgWrite r v s
  else if off = R.BCN_CTRL then opBcnCtrlWrite r v s
  else if off = R.BCN_KEY_CTRL then opKeyCtrl r v s
  else if 0x50044 ≤ off ∧ off < 0x50058 then opKeyWord r ((off - 0x50044) / 4) v s
  else if off = R.BCN_CYC_CTRL then opPortCtrl cycPorts r v s
  else if 0x50064 ≤ off ∧ off < 0x50084 then opPortWindow cycPorts r off v s
  else if off = R.BCN_CHT_QRY then opCharterQuery r v s
  else plainWrite r off v s

/-- A write to a channel's register or a ring's. -/
def writeRing (r : Reader) (n off : Nat) (v : Word) (s : State) : State :=
  let k := 32 * n + off % 0x1000 / 0x80
  if off % 0x10000 < 0x1000 then
    match off % 0x80 with
    | 0x00 => opChCtrlWrite r k v s
    | 0x08 => opIntWrite r k v s
    | 0x0C => opTapsWrite r k v s
    | 0x14 => opSecWrite r k v s
    | 0x18 => opRateLo k false v s
    | 0x1C => opRateHi k false v s
    | 0x20 => opRateLo k true v s
    | 0x24 => opRateHi k true v s
    | 0x28 => opCodeAdj k v s
    | 0x2C => opStartWrite r k off v s
    | 0x30 => opStartWrite r k off v s
    | o => if 0x40 ≤ o ∧ o < 0x58 then opNcoWrite r k off v s else plainWrite r off v s
  else if off = R.TRK_RING_CTRL n then opRingCtrlWrite r n v s
  else if off = R.TRK_RING_MEAS_CTRL n then (if v.toNat.testBit 31 then opPublish n s else s)
  else plainWrite r off v s

/-- A write in the navigation block. -/
def writeNav (r : Reader) (off : Nat) (v : Word) (s : State) : State :=
  if off = R.NAV_STG_RD then opStgRdWrite v s
  else if off = R.NAV_STG_STAT then opStgStatWrite r v s
  else if 0x200100 ≤ off ∧ off < 0x200128 then opSymbolWrite ((off - 0x200100) / 4) v s
  else plainWrite r off v s

/-- A write in the Sieve's block. -/
def writeSieve (r : Reader) (off : Nat) (v : Word) (s : State) : State :=
  if off = R.SIEVE_PORT_CTRL then opPortCtrl sievePorts r v s
  else if 0x280040 ≤ off ∧ off < 0x280080 then opPortWindow sievePorts r off v s
  else if off = R.SIEVE_STALE then opSieveStale (v.toNat % 2 ^ 16) s
  else plainWrite r off v s

/-- A write in the Carousel's block. -/
def writeCar (r : Reader) (off : Nat) (v : Word) (s : State) : State :=
  if off = R.CAR_FEAT_GRANT then opFeatGrantWrite r v s
  else if off = R.CAR_CANCEL_CTRL then opCarCancel r v s
  else if 0x300240 ≤ off ∧ off < 0x300270 then
    let p := (off - 0x300240) / 0x10
    if off % 0x10 = 4 then opProfCfgWrite p v s else opProfWrite r p off v s
  else plainWrite r off v s

/-- A write in the sky table's and the solver's block. -/
def writeSky (r : Reader) (off : Nat) (v : Word) (s : State) : State :=
  if off = R.SKY_CFG then ionoCheck (plainWrite r off v s)
  else if 0x380040 ≤ off ∧ off < 0x380060 then opIonoWrite r off v s
  else if off = R.SKY_PORT_CTRL then opPortCtrl skyPorts r v s
  else if 0x380100 ≤ off ∧ off < 0x380200 then opPortWindow skyPorts r off v s
  else if off = R.SKY_QRY_CTRL then opSkyQuery r v s
  else if off = R.SOL_LIVE_CFG then opSolLiveWrite r v s
  else plainWrite r off v s

/-- A write in the host port's block. -/
def writeHost (r : Reader) (off : Nat) (v : Word) (s : State) : State :=
  let n := (off - 0x400000) / 0x40
  if n < 67 then
    match off % 0x40 with
    | 0x00 => opRingCfgWrite r n .baseLo v s
    | 0x04 => opRingCfgWrite r n .baseHi v s
    | 0x08 => opRingCfgWrite r n .cfg v s
    | 0x0C => if n < 32 then s else opHeadWrite n v s
    | 0x10 => if n < 32 then opDoorbell n v s else s
    | _ => plainWrite r off v s
  else if 0x401100 ≤ off ∧ off < 0x401140 then
    let c := (off - 0x401100) / 0x20
    if off % 0x20 = 0x10 then opCopyCtrl r c v s else opCopyReg r c off v s
  else if off = R.HOST_NEG then opNegotiate r v s
  else plainWrite r off v s

/-- A write in the link ports' block. -/
def writeLink (r : Reader) (off : Nat) (v : Word) (s : State) : State :=
  if off < 0x480400 ∧ off % 0x100 = 0 then opLinkCfg r ((off - 0x480000) / 0x100) v s
  else if off = R.TRP_TWIN_CFG then opTwinCfg r v s
  else plainWrite r off v s

/-- A write in the serial ports' block. -/
def writeSerial (r : Reader) (off : Nat) (v : Word) (s : State) : State :=
  if off = R.SPIM_XIP then opXipCfg r v s
  else if off = R.SPIM_CMD_CTRL then opSpimCtrl r v s
  else if off = R.SPIM_CMD_ADDR ∨ off = R.SPIM_CMD_LEN ∨ (0x500100 ≤ off ∧ off < 0x500200) then opSpimPort r off v s
  else if off = R.SPIS_CFG then opSpisCfg r v s
  else if off = R.SPIS_RESP then opSpisResp r v s
  else if off = R.SPIS_TX then opSpisTx v s
  else if off = R.SPIS_RX_CTRL then opSpisPop v s
  else if 0x502000 ≤ off ∧ off < 0x504000 then
    let n := (off - 0x502000) / 0x1000
    match off % 0x1000 with
    | 0x00 => opUartCfg r n v s
    | 0x04 => opUartDiv r n v s
    | 0x08 => opUartPop n v s
    | 0x0C => opUartTx n v s
    | _ => opUartReg r n off v s
  else plainWrite r off v s

/-- A write of SEC_BOOT_CTRL: PUSH_GO in recovery takes the device out of release, for the ROM to boot the pushed image (R501);
outside recovery it is ignored. -/
def opBootCtrl (r : Reader) (v : Word) (s : State) : State :=
  let s := plainWrite r R.SEC_BOOT_CTRL v s
  if v.toNat.testBit 31 && inRecovery s && s.sec.boot == 0 then
    { s with sec := { s.sec with boot := 3 } }.setFld F.DEV_STATUS_READY 0
  else s

/-- A write in the security block. -/
def writeSec (r : Reader) (off : Nat) (v : Word) (s : State) : State :=
  if off = R.SEC_BOOT_CTRL then opBootCtrl r v s
  else if off = R.SEC_RB then opRollback r v s
  else if off = R.SEC_ROOT then opRoot r v s
  else if off = R.SEC_OTP_CTRL then opOtpCtrl r v s
  else if off = R.SEC_ATT_CTRL then opAttest v s
  else if 0x600100 ≤ off ∧ off < 0x600300 ∧ off % 0x10 = 8 then opPuPerm r ((off - 0x600100) / 0x10) v s
  else if off = R.SEC_DBG_CTRL then opDbgCtrl r v s
  else if off = R.LC_CTRL then opLcCtrl r v s
  else plainWrite r off v s

/-- A write of PWR_START_DEFER: clearing DEFER restarts MAX_US (R535). -/
def opDefer (r : Reader) (v : Word) (s : State) : State :=
  let was := s.bit F.PWR_START_DEFER_DEFER
  let s := plainWrite r R.PWR_START_DEFER v s
  if was && !s.bit F.PWR_START_DEFER_DEFER then s.setFld F.PWR_START_DEFER_MAX_US 0 else s

/-- A write of PWR_STORE_BASE: a BASE below 0x80_0000 is ignored (R558). -/
def opStoreBase (r : Reader) (v : Word) (s : State) : State :=
  if v.toNat / 2 ^ 12 < 0x800 then s else plainWrite r R.PWR_STORE_BASE v s

/-- A write in the power block. -/
def writePwr (r : Reader) (off : Nat) (v : Word) (s : State) : State :=
  if off = R.PWR_CTRL then opPwrCtrl r v s
  else if off = R.PWR_REQ then opPwrReq r v s
  else if off = R.PWR_START_DEFER then opDefer r v s
  else if off = R.PWR_STORE_CTRL then opStoreCtrl r v s
  else if off = R.PWR_STORE_BASE then opStoreBase r v s
  else if off = R.RST_CTRL then opRstCtrl r v s
  else if off = R.RST_WDT_CFG then opWdtCfg r v s
  else if off = R.RST_WDT_KICK then opWdtKick r v s
  else plainWrite r off v s

/-- A write of a BAR 0 word by a reader that the protection unit lets pass. -/
def busWrite (r : Reader) (off : Nat) (v : Word) (s : State) : State :=
  if !bar0Answers r off s || ringOffReg off s then s
  else if bar0Mem off then bar0WriteWord r off v s
  else
    match off / 0x10000 with
    | 0x00 =>
      if 0x8000 ≤ off ∧ off < 0x8400 ∧ off % 0x10 = 0xC then opMsixCtlWrite r ((off - 0x8000) / 0x10) v s
      else plainWrite r off v s
    | 0x01 => writeTime r off v s
    | 0x02 => writeClock r off v s
    | 0x03 => writeGrf r off v s
    | 0x04 => writeIfc r off v s
    | 0x05 => writeBcn r off v s
    | 0x20 => writeNav r off v s
    | 0x28 => writeSieve r off v s
    | 0x30 => writeCar r off v s
    | 0x38 => writeSky r off v s
    | 0x40 => writeHost r off v s
    | 0x48 => writeLink r off v s
    | 0x50 => writeSerial r off v s
    | 0x58 => if off % 0x100 = 0 ∧ off < 0x580B00 then opSqCtrlWrite r ((off - 0x580000) / 0x100) v s else plainWrite r off v s
    | 0x60 => writeSec r off v s
    | 0x68 => writePwr r off v s
    | 0x70 => if 0x700200 ≤ off ∧ off < 0x700210 then opEvPendClear r ((off - 0x700200) / 4) v s else plainWrite r off v s
    | p => if 0x10 ≤ p ∧ p < 0x1A then writeRing r (p - 0x10) off v s else plainWrite r off v s

/-! The level inputs of the sequencers (R383). -/

/-- Whether a level input's source asserts it: SQ0 to SQ9 dump, channel error, epoch capture and hand-off; SQM staging, routed
events and the power-state request. -/
def inputPending (q i : Nat) (s : State) : Bool :=
  if q = 10 then
    match i with
    | 0 => s.fld F.NAV_STG_WR_WR != s.fld F.NAV_STG_RD_RD
    | 2 => (List.range 128).any (fun n =>
        s.maskBit (copyOff .sqm (R.EV_PEND (n / 32))) (n % 32) && s.bit (F.EV_ROUTE_EN_SQM n))
    | 3 => s.bit F.PWR_REQ_REQ_PEND
    | _ => false
  else
    match i with
    | 0 => (s.word (R.TRK_RING_DUMP_PEND q) &&& s.word (R.TRK_RING_DUMP_IEN q)) != 0
    | 1 => s.word (R.TRK_RING_ERR_PEND q) != 0
    | 2 => s.bit (F.TRK_RING_EPOCH_STAT_PEND q)
    | 3 => s.word (R.TRK_RING_HANDOFF_PEND q) != 0
    | _ => false

/-! The rows of register access. -/

/-- A request is a single aligned DWORD (R422). -/
def reqSound (r : RegReq) : Bool := r.whole && r.off.toNat % 4 == 0

/-- A host's request that is no single aligned DWORD completes as Unsupported Request (R422). (Assumption 45, DEDUCED.) -/
def badAccess (who : Reader) (s : State) : State :=
  if who == .host && !s.pwr.hib && !s.pwr.pcieOff then flagEvent F.HOST_ERR_BAD_ACCESS 7 s else s

/-- A register write (R5, R422). (Assumption 45, DEDUCED.) -/
def execRegisterWrite (who : Reader) (off : RegReq) (v : Word) (s : State) : Host.Outcome State Fault Refusal :=
  .next (if !reqSound off then badAccess who s else gate who off.off.toNat true (busWrite who off.off.toNat v) s)

/-- A reader's read of a word: a denied one delivers 0 (R424, R516). -/
def readWord (who : Reader) (off : Nat) (s : State) : State :=
  if bar0Answers who off s && !protAllows who 0 off false s then { protRecord who 0 off false s with busData := 0 }
  else
    let r := busRead who off s
    { r.2 with busData := r.1 }

/-- What configuration space reports: the identity of R419, with what OTP holds of it, and No_Soft_Reset (R421). (Assumption 172, DEDUCED.) -/
def cfgValue (f : CfgField) (s : State) : Nat :=
  match f with
  | .vendorId => s.otpItem 1 % 2 ^ 16
  | .deviceId => 0x0960
  | .classCode => 0x118000
  | .subsystemIds => s.otpItem 2
  | .serial => (s.word R.DEV_SERIAL_HI).toNat * 2 ^ 32 + (s.word R.DEV_SERIAL_LO).toNat
  | .bar0Bytes => 2 ^ 24
  | .bar2Bytes => 2 ^ 26
  | .msixVectors => 64
  | .maxPayload => 512
  | .noSoftReset => 1

/-- A read of the device map by any reader (R424, R426): a denied one delivers 0 and is recorded. -/
def readMap (who : Reader) (a n : Nat) (s : State) : State :=
  if !mapAnswers who s then { s with busData := 0 }
  else
    match rangeDenied who a n false s with
    | some x => { protRecord who 1 x false s with busData := 0 }
    | none =>
      let r := mapReadBytes who a n s
      { r.2 with busData := BitVec.ofNat 32 (leNat r.1) }

/-- A read. One of the lowest word of a latch group captures the group (R35); a request to BAR 0 that is no single aligned
DWORD is refused (R422); configuration space answers after release (R444). (Assumption 12, DESIGN CHOICE.) -/
def execLatchCapture (who : Reader) (off : ReadReq) (s : State) : Host.Outcome State Fault Refusal :=
  .next (match off with
    | .reg r => if !reqSound r then badAccess who s else readWord who r.off.toNat s
    | .map a more => readMap who a.toNat (more.toNat + 1) s
    | .cfg f => if s.bit F.DEV_STATUS_READY && !s.pwr.pcieOff then { s with busData := BitVec.ofNat 32 (cfgValue f s) } else s)

/-- A read of the highest word of a latch group returns the captured value and releases the capture (R35). -/
def execLatchRelease (who : Reader) (off : BitVec 24) (s : State) : Host.Outcome State Fault Refusal :=
  .next (match latchGroup off.toNat with
    | some (lo, n) => if off.toNat = lo + 4 * (n - 1) then readWord who off.toNat s else s
    | none => s)

end Sys2Proof.Machine
end

