-- ==== Sys2Proof/Machine/Boot.lean ====
section
/-! DEFINITION. The boot ROM (R45, R322, R498 to R508, R416 to R418): image sources, the checks of an image, its records, the
release; and the debug port's accesses (R521, R525). -/
namespace Sys2Proof.Machine

/-! The configuration image (R503, R504). -/

/-- A record of an image: its TYPE and body. -/
abbrev ImgRec := Nat × List Byte

/-- Fields of the header. -/
def imgParam (b : List Byte) : Nat := leAt b 6 1
def imgSlot (b : List Byte) : Nat := leAt b 7 1
def imgLen (b : List Byte) : Nat := leAt b 8 4
def imgPk (b : List Byte) : List Byte := (b.drop 16).take (pkLen (imgParam b))

/-- The records of a list of bytes, all of it: none when a reserved field or a length is wrong. -/
def imgRecords : Nat → List Byte → Option (List ImgRec)
  | 0, _ => none
  | n + 1, b =>
    if b.isEmpty then some []
    else
      let r := leAt b 4 4
      let size := 8 + (r + 3) / 4 * 4
      if b.length < size ∨ leAt b 1 3 ≠ 0 then none
      else (imgRecords n (b.drop size)).map (fun l => (leAt b 0 1, (b.drop 8).take r) :: l)

/-- The bits of a register that some field has. -/
def definedBits (fl : List FieldSpec) : Nat := fl.foldl (fun a f => a ||| ((2 ^ (f.hi + 1 - f.lo) - 1) * 2 ^ f.lo)) 0

/-- Groups of 12 bytes: the entries of a REG record. -/
def regEntries : Nat → List Byte → List (Nat × Nat × Nat)
  | 0, _ => []
  | n + 1, b => if b.length < 12 then [] else (leAt b 0 4, leAt b 4 4, leAt b 8 4) :: regEntries n (b.drop 12)

/-- An entry names a register, and its mask only bits that are not reserved (R505). -/
def regEntryOk (e : Nat × Nat × Nat) : Bool :=
  match regAt e.1 with
  | some spec => e.2.2 &&& definedBits spec.fields == e.2.2
  | none => false

/-- A MEM record's target is allowed (R504). -/
def memTargetOk (a n : Nat) (s : State) : Bool :=
  let within (lo hi : Nat) := decide (lo ≤ a) && decide (a + n ≤ hi)
  within 0x1E00000 0x2000000 || within 0x1DC0000 0x1DD0000 || within 0x2000000 0x2280000 ||
    (within 0 0x1000000 && (List.range n).all (fun i => !storeHeld (a + i) s))

/-- A PROG record is valid (R416). -/
def progOk (b : List Byte) : Bool :=
  let len := leAt b 4 2
  decide (b.length = 16 + len) && decide (leAt b 2 2 + len ≤ 0x8000) && decide (leAt b 0 2 < 0x800) &&
    !(leAt b 0 2 == 0 && len != 0) && decide (leAt b 8 1 < 4) && leAt b 9 1 == 0

/-- A record is well formed (R505). (Assumption 130, DEDUCED.) -/
def imgRecOk (s : State) (r : ImgRec) : Bool :=
  match r.1 with
  | 1 => r.2.length % 12 == 0 && (regEntries (r.2.length / 12) r.2).all regEntryOk
  | 2 => decide (16 ≤ r.2.length) && progOk r.2
  | 3 => decide (4 ≤ r.2.length) && memTargetOk (leAt r.2 0 4) (r.2.length - 4) s
  | _ => false

/-- The header's own fields are well formed (R503, R505). -/
def headerOk (b : List Byte) : Bool :=
  let p := imgParam b
  decide (p ≤ 3) && decide (imgSlot b ≤ 3) && decide (leAt b 13 1 < 4) && imgLen b % 4 == 0 && decide (128 ≤ imgLen b) &&
    decide (imgLen b + sigLen p ≤ 0x400000) && ((b.drop (16 + pkLen p)).take (112 - pkLen p)).all (· == 0)

/-- The records of an image, when all are well formed and as many as NREC says. -/
def imgBody (b : List Byte) (s : State) : Option (List ImgRec) :=
  match imgRecords (imgLen b / 8 + 1) ((b.take (imgLen b)).drop 128) with
  | some l => if decide (l.length = leAt b 14 2) && l.all (imgRecOk s) then some l else none
  | none => none

/-- The digest of an image (R507). -/
def imgDigest (b : List Byte) : List Byte := sha256 (b.take (imgLen b))

/-- Why an image fails, 0 when it passes (R505): the header first, then the key, the signature, the rollback floor, and the
records on the staged copy (R498). (Assumption 38, DESIGN CHOICE; assumption 130, DEDUCED.) -/
def imgFail (b : List Byte) (readErr : Bool) (s : State) : Nat :=
  if readErr then 2
  else if leAt b 0 4 ≠ 0x4B434649 then 1
  else if leAt b 4 2 / 256 ≠ 4 then 3
  else if !headerOk b then 4
  else if !(leAt b 13 1).testBit (if s.fld F.DEV_ID_STEP = 0xA1 then 1 else 0) then 5
  else if !slotLive s (imgSlot b) || sha256 (imgPk b) != slotHash s (imgSlot b) then 6
  else if !Config.slhVerify (imgParam b) (imgPk b) (imgDigest b) ((b.drop (imgLen b)).take (sigLen (imgParam b))) then 7
  else if leAt b 12 1 < rollbackCount s then 8
  else if (imgBody b s).isNone then 4
  else 0

/-! Applying an image (R506, R417). -/

/-- The bits of a register in which a 1 written acts: a REG entry leaves those outside its mask alone. -/
def actBits (fl : List FieldSpec) : Nat :=
  definedBits (fl.filter (fun f => match f.acc with | .w1c => true | .w1s => true | .wo => true | .vltWo => true | _ => false))

/-- A REG entry with Vault rights, under each field's access rules (R506). (Assumption 131, DEDUCED.) -/
def applyReg (e : Nat × Nat × Nat) (s : State) : State :=
  match regAt e.1 with
  | none => s
  | some spec =>
    let full := 2 ^ 32 - 1
    let old := (s.word (readKey .sqm e.1)).toNat &&& (full ^^^ actBits spec.fields)
    busWrite .sqm e.1 (BitVec.ofNat 32 ((old &&& (full ^^^ e.2.2)) ||| (e.2.1 &&& e.2.2))) s

/-- The lowest version a PROG record needs of a coprocessor is met on a sequencer (R417): version 1.0, where present. -/
def needMet (n cp need : Nat) : Bool :=
  need == 0 || ((if cp = 0 then decide (n < 10) else decide (n = 10)) && need / 256 == 1 && need % 256 == 0)

/-- What the PROG records have made of the sequencers: those to run at release, and those skipped, by number. -/
structure ProgMark where
  run : List Nat := []
  skip : List Nat := []
deriving DecidableEq, Repr

/-- A PROG record for one target (R417). -/
def applyProgTo (b : List Byte) (n : Nat) (p : ProgMark × State) : ProgMark × State :=
  let s := p.2
  if [0, 1, 2].all (fun k => needMet n k (leAt b (10 + 2 * k) 2)) then
    let s := { s with ram := Sparse.putBytes byteDflt s.ram (0x590000 + 0x8000 * n + leAt b 2 2) (b.drop 16) }
    let s := if (leAt b 8 1).testBit 0 then s.setFld (F.SQ_START_START n) (leAt b 6 2) else s
    ({ p.1 with run := if (leAt b 8 1).testBit 1 then n :: p.1.run.filter (· != n) else p.1.run.filter (· != n) }, s)
  else ({ p.1 with skip := n :: p.1.skip }, raise 100 ((s.setSeq n { s.seq n with fcause := 9 }).setFld (F.SQ_STAT_FCAUSE n) 9))

/-- A PROG record for the targets of a range: SQ0 to SQ9, or SQM, which the ROM loads last (R417). (Assumption 131, DEDUCED.) -/
def applyProg (targets : List Nat) (b : List Byte) (p : ProgMark × State) : ProgMark × State :=
  if leAt b 4 2 = 0 then p
  else (targets.filter (fun n => (leAt b 0 2).testBit n)).foldl (fun p n => applyProgTo b n p) p

/-- A ring is on, or an earlier record has asked for its start, which the ROM lets be granted before it goes on (R125, R504).
(Assumption 131, DEDUCED.) -/
def ringLoads (n : Nat) (s : State) : Bool := domainOn (5 + n) s || (decide (n < 10) && s.bit (F.TRK_RING_CTRL_PWR n))

/-- A block written into the memory of the device map; a ring that is off ignores its part (R125). -/
def memRecord (a : Nat) (bs : List Byte) (s : State) : State :=
  if 0x2000000 ≤ a then
    bs.zipIdx.foldl (fun s e => if ringLoads ((a + e.2 - 0x2000000) / 0x40000) s then s.setMemByte (a + e.2) e.1 else s) s
  else s.setMemBytes a bs

/-- A REG or MEM record. (Assumption 131, DEDUCED.) -/
def applyRec (s : State) (r : ImgRec) : State :=
  match r.1 with
  | 1 => (regEntries (r.2.length / 12) r.2).foldl (fun s e => applyReg e s) s
  | 3 =>
    let a := leAt r.2 0 4
    if a < 0x1000000 then storePut a (r.2.drop 4) s else memRecord a (r.2.drop 4) s
  | _ => s

/-- The registers that recovery lets the host write and whose bedrock the image starts from (R506). (Assumption 2, DEDUCED.) -/
def bedrockKept (key : Nat) : Bool :=
  let o := key % 0x1000000
  !((decide (0x700000 ≤ o) && decide (o < 0x700200)) || (decide (0x600100 ≤ o) && decide (o < 0x600300)))

/-- An image is applied: bedrock, the hub identity among it (BCN_HUB_ID), its records in order, the gains it remembers (R121), the CRC-32 of its profiles
(R255), then its programs. (Assumption 2,
DEDUCED.) -/
def imgApply (l : List ImgRec) (s : State) : ProgMark × State :=
  let s := { s with regs := Sparse.keep bedrockKept s.regs, pu := [] }
  let s := s.setWord R.BCN_HUB_ID (s.word R.DEV_SERIAL_LO)
  let s := recordCrcs (gainReset (l.foldl applyRec s))
  let progs := l.filter (fun (r : ImgRec) => r.1 == 2)
  let p := progs.foldl (fun p r => applyProg (List.range 10) r.2 p) (({} : ProgMark), s)
  progs.foldl (fun p r => applyProg [10] r.2 p) p

/-! Release (R45, R418, R498, R501). -/

/-- The device is released, into recovery too (R501): the stored duty bins at the first release (R363), READY, a session at
FULL while the lifecycle state is BLANK (R524), EV_026. -/
def released (ms : Nat) (s : State) : State :=
  let s := dutyRestore { s with sec := { s.sec with boot := 0, ready := none } }
  let s := if lcState s = 0 then dbgOpen ⟨2, 0, 0⟩ s else s
  raise 26 ((s.setFld F.DEV_STATUS_READY 1).setFld F.DEV_STATUS_BOOT_MS (satNat 0xFFFF ms))

/-- The sequencers that run at release: SQ0 to SQ9 by their last record's RUN with their ring's PWR 1, then SQM at its
ENTRY with Vault rights (R418); a skipped one stays HALTED (R417). -/
def startPrograms (m : ProgMark) (s : State) : State :=
  let s := (List.range 10).foldl (fun s n =>
    if m.run.contains n && !m.skip.contains n && s.bit (F.TRK_RING_CTRL_PWR n) then seqStart n s else s) s
  if m.skip.contains 10 then seqHalt 10 s
  else
    let s := seqStart 10 s
    s.setSeq 10 { s.seq 10 with mode := 2 }

/-- Step 7 of R498: at the first release after main POR the BACKUP step; after another reset the
discipline's record; the twin's role, a survey that MODE asks for, the watchdog's first count; then the release, which
follows a BACKUP step in the next FS tick (R45). (Assumption 132, DEDUCED.) -/
def release (m : ProgMark) (ms : Nat) (s : State) : State :=
  let s := { s with disc := { s.disc with tuneBase := s.fld F.TP_OCXO_TUNE } }
  let steps := s.sec.firstRel && s.bit F.PWR_BK_SUB_VALID
  let s := if s.sec.firstRel then backupStep s else holdRestore s
  let s := { s with sec := { s.sec with firstRel := false } }
  let s := wdtStart (twinRole s)
  let s := if s.fld F.SOL_LIVE_CFG_MODE = 2 ∧ s.sky.survey.isNone then surveyStart s else s
  let s := startPrograms m s
  if steps then { s with sec := { s.sec with boot := 0, ready := some ms } } else released ms s

/-- The FS tick after a BACKUP step ends a release (R45). -/
def readyTick (s : State) : State :=
  match s.sec.ready with
  | some ms => released ms s
  | none => s

/-! The ROM (R322, R498 to R501). -/

/-- The fields whose bedrock OTP holds, by the number of their item: stepping and serial, REF_SEL, DELAY_PS, GAIN_REF, the beacon's
detector trims and IBB (R73, R496, R506). (Assumption 172, DEDUCED.) -/
def otpFields : List (Fld × Nat) :=
  [(F.DEV_ID_STEP, 3), (F.DEV_SERIAL_LO_SER_LO, 0), (F.DEV_SERIAL_HI_SER_HI, 5), (F.CK_CFG_REF_SEL, 16),
   (F.BCN_DET_FWD_SLOPE, 17), (F.BCN_DET_FWD_OFS, 18), (F.BCN_DET_REF_SLOPE, 19), (F.BCN_DET_REF_OFS, 20)] ++
  (List.range 16).map (fun k => (F.GRF_CH_PROF_CFG_DELAY_PS (k / 4) (k % 4), 32 + k)) ++
  (List.range 4).map (fun x => (F.IFC_CH_JAM_CFG_GAIN_REF x, 48 + x)) ++ (List.range 3).map (fun b => (F.SKY_IBB_IBB b, 52 + b))

/-- The bedrock that OTP holds, fields of class S and B at the boot after a POR only (R506); an item of 0 keeps the field's other
bedrock. (Assumption 172, DEDUCED.) -/
def otpBedrock (por : Bool) (s : State) : State :=
  otpFields.foldl (fun s e =>
    let v := s.otpItem e.2
    if v = 0 ∨ (!por && classKept (fun c => c == .s || c == .b) e.1.off) then s else s.setFld e.1 v) s

/-- The reference is selected after a main POR (R322). (Assumption 93, DEDUCED.) -/
def romRef (found : Nat) (s : State) : State :=
  let sel := s.fld F.CK_CFG_REF_SEL
  let s := if sel = 0 ∧ found ≠ 0 then s.setFld F.CK_CFG_REF_SEL found else s
  let use := if sel = 0 then found else sel
  let s := if use ≠ 0 then setCkSyn { s.ck with inUse := use, change := true, boot := true } s else s
  if found = 0 then s.setFld F.CK_STATUS_NO_REF 1 else s

/-- The device secret is filled from the entropy source when it is empty: 32 free bytes (R498 step 1, assumption 10). -/
def romSecret (s : State) : State :=
  if lcState s = 4 ∨ otpSet s 0x600 32 = true then s
  else
    let d := s.draw
    otpOr 0x600 (leBytes 32 d.1) d.2

/-- An erasure that a reset interrupted is completed (R519). -/
def romErase (s : State) : State :=
  let w := (s.memByte 0x3F00500).toNat
  if w.testBit 2 && !w.testBit 3 then lcErase s else s

/-- The source codes of BOOT_ORDER (R499). -/
def bootOrder (s : State) : List Nat :=
  let w := leNat (otpBytes s 0x100 4)
  if w = 0 then [1, 2, 3, 4] else ((List.range 4).map (fun i => bitsOf w (3 * i + 2) (3 * i))).takeWhile (· != 0)

/-- SPIM_CFG and SPIM_XIP take the OTP words that are not 0 (R499). -/
def romSpim (s : State) : State :=
  let put (o off : Nat) (s : State) : State :=
    let w := leNat (otpBytes s o 4)
    if w = 0 then s else busWrite .sqm off (BitVec.ofNat 32 w) s
  put 0x108 R.SPIM_XIP (put 0x104 R.SPIM_CFG s)

/-- The flash offset of the slot of a source. -/
def slotOffset (src : Nat) : Nat := if src = 1 then 0 else 0x400000

/-- The bytes of an image in flash: its header says how many (R503). (Assumption 132, DEDUCED.) -/
def flashImage (src : Nat) (s : State) : List Byte :=
  let h := s.flashBytes (slotOffset src) 128
  s.flashBytes (slotOffset src) (min 0x400000 (max 128 (imgLen h + sigLen (imgParam h))))

/-- The same bytes as the ROM reads them, through the execute-in-place window (R475, R499). -/
def windowImage (src : Nat) (s : State) : List Byte × State :=
  let a := 0x2800000 + slotOffset src
  let h := mapReadBytes .sqm a 128 s
  let b := mapReadBytes .sqm (a + 128) (min 0x400000 (max 128 (imgLen h.1 + sigLen (imgParam h.1))) - 128) h.2
  (h.1 ++ b.1, b.2)

/-- The image in the boot buffer (R499, R501). -/
def bufferImage (s : State) : List Byte :=
  let h := s.memBytes 0x1800000 128
  s.memBytes 0x1800000 (min 0x400000 (max 128 (imgLen h + sigLen (imgParam h))))

/-- A failed source is recorded (R498). -/
def romFailed (code : Nat) (s : State) : State := raise 125 (s.setFld F.SEC_BOOT_STAT_LAST_FAIL code)

/-- An image that passed is applied and the device released (R498 steps 5 to 7). -/
def romBoot (src ms : Nat) (b : List Byte) (s : State) : State :=
  let s := s.setFld F.SEC_BOOT_STAT_RECOVERY 0
  let s := (s.setFld F.SEC_BOOT_STAT_SRC src).setFld F.SEC_BOOT_STAT_KEY_SLOT (imgSlot b)
  let s := (s.setFld F.SEC_BOOT_STAT_PARAM (imgParam b)).setFld F.SEC_RB_IMG (leAt b 12 1)
  let s := setRegBytes (R.SEC_IMG_DIGEST 0) (imgDigest b) s
  let p := imgApply ((imgBody b s).getD []) s
  release p.1 ms p.2

/-- A position of the order tried (R499). (Assumption 130, DEDUCED.) -/
def romTried (i : Nat) (s : State) : State :=
  s.setFld F.SEC_BOOT_STAT_TRIED (s.fld F.SEC_BOOT_STAT_TRIED ||| 2 ^ i)

/-- The image of a source: of the flash through the window, of the twin by a boot-block request on T0, which the ROM trains for
it (R499, R500). (Assumption 132, DEDUCED.) -/
def sourceImage (c : Nat) (twin : Option (List Byte)) (s : State) : List Byte × State :=
  if c = 3 then (twin.getD [], s.emit (.linkBlock 2 [])) else windowImage c (romSpim s)

/-- The sources in order, from position `i`, until one boots, the list ends, or code 4 releases the device in recovery. (Assumption 132, DEDUCED.) -/
def romSources (readErr : BitVec 4) (twin : Option (List Byte)) (ms : Nat) : Nat → List Nat → State → State
  | _, [], s => s
  | i, c :: rest, s =>
    if c = 4 then released ms ((romTried i s).setFld F.SEC_BOOT_STAT_RECOVERY 1)
    else if c = 1 ∨ c = 2 ∨ c = 3 then
      let s := romTried i s
      let r := sourceImage c twin s
      let b := r.1
      let s := r.2
      let bad := readErr.getLsbD i || (c == 3 && twin.isNone)
      let s := if bad then s else s.setMemBytes 0x1800000 (b.take 0x400000)
      let code := imgFail b bad s
      if code = 0 then romBoot c ms b s
      else romSources readErr twin ms (i + 1) rest (romFailed code s)
    else romSources readErr twin ms (i + 1) rest s

/-- The boot ROM runs to the release (R498 to R501): `readErr` says which sources fail to read, `twin` is the image the
peer serves, `ms` the time it took, `found` the REFIN frequency that qualifies or none. A VOID device loads no image
(R520). (Assumption 9, DEDUCED; assumption 39, DESIGN CHOICE; assumption 130, DEDUCED.) -/
def execBootRom (readErr : BitVec 4) (twin : Option (List Byte)) (ms : BitVec 16) (found : Fin 4) (s : State) :
    Host.Outcome State Fault Refusal :=
  .next (
    if s.sec.boot = 0 ∨ s.pwr.hib = true then s
    else if s.sec.boot = 3 then
      let b := bufferImage s
      let code := imgFail b false s
      if code = 0 then romBoot 4 ms.toNat b (s.setSeq 10 (Seq.dflt 10))
      else ({ s with sec := { s.sec with boot := 0 } }.setFld F.DEV_STATUS_READY 1) |> romFailed code
    else
      let s := otpBedrock (s.sec.boot == 1) s
      let s := if s.sec.boot = 1 then romRef found.val s else s
      let s := s.setSeq 10 (Seq.dflt 10)
      if lcState s = 4 then released ms.toNat s
      else
        let s := romSecret (romErase s)
        let s := setRegBytes (R.SEC_ID_PK 0) (idPk s) s
        romSources readErr twin ms.toNat 0 (bootOrder s) s)

/-- See assumption 132, DEDUCED. -/
def execPushGo (who : Reader) (v : Word) (s : State) : Host.Outcome State Fault Refusal :=
  .next (gate who R.SEC_BOOT_CTRL true (opBootCtrl who v) s)

/-- A boot block received on T0 (R500): a port in LOCK or HELLO with TWIN_SERVE answers with the image of the slot it booted
from. (Assumption 132, DEDUCED.) -/
def execBootBlock (s : State) : Host.Outcome State Fault Refusal :=
  let src := s.fld F.SEC_BOOT_STAT_SRC
  .next (if !s.pwr.hib && (linkState 0 s == 2 || linkState 0 s == 3) && s.bit F.SEC_BOOT_CTRL_TWIN_SERVE && (src == 1 || src == 2) then
      s.emit (.linkBlock 0 (flashImage src s))
    else s)

/-! The debug port's accesses (R521, R525). -/

/-- The outcome of ACC leaves the port: the status, the address and the data. (Assumption 133, DEDUCED.) -/
def accShift (status : Nat) (addr data : Word) (s : State) : State :=
  jtagShift 66 (status * 2 ^ 64 + addr.toNat * 2 ^ 32 + data.toNat) { s with busData := data }

/-- ACC: a read or write of a word of BAR 0 or of the device map, by the debug port's rights; a denied one returns status 1. (Assumption 133, DEDUCED.) -/
def execJtagAcc (write space : Bool) (addr data : Word) (s : State) : Host.Outcome State Fault Refusal :=
  let s := jtagIr 0x12 false s
  let a := addr.toNat - addr.toNat % 4
  let sp := if space then 1 else 0
  .next (
    if !protAllows .debug sp a write s then accShift 1 addr 0 (protRecord .debug sp a write s)
    else if write then accShift 0 addr data (if space then mapWrite .debug a (leBytes 4 data.toNat) s else busWrite .debug a data s)
    else if space then
      let r0 := mapReadByte .debug a s
      let r1 := mapReadByte .debug (a + 1) r0.2
      let r2 := mapReadByte .debug (a + 2) r1.2
      let r3 := mapReadByte .debug (a + 3) r2.2
      accShift 0 addr (r3.1 ++ r2.1 ++ r1.1 ++ r0.1) r3.2
    else
      let r := busRead .debug a s
      accShift 0 addr r.1 r.2)

end Sys2Proof.Machine
end

