-- ==== Sys2Proof/Machine/DxCode.lean ====
section
/-! DEFINITION. The code of the DX-8 sequencers (R373, R374, R399, R403, R404, R409, R410, R413): the command that a code byte and the bytes
after it spell, by the opcode map's rows. -/
namespace Sys2Proof.Machine

/-- A 16-bit operand of a low byte and a high byte (R373). -/
def loHi (lo hi : Byte) : BitVec 16 := hi ++ lo

/-- Codes 0x00 to 0x0F. -/
def code0 (q : SeqId) (k : Nat) (b : Byte) : Option Instr :=
  match k with
  | 0 => some (.dxNop q) | 1 => some (.dxRts q) | 2 => some (.dxRep q (.imm b)) | 3 => some (.dxRep q .ct)
  | 4 => some (.dxTab q) | 5 => some (.dxTba q) | 6 => some (.dxTax q) | 7 => some (.dxTxa q)
  | 8 => some (.dxTay q) | 9 => some (.dxTya q) | 10 => some (.dxTsx q) | 11 => some (.dxTxs q)
  | 12 => some (.dxXxy q) | 13 => some (.dxLda q .xinc) | 14 => some (.dxSta q .xinc) | _ => none

/-- Codes 0x10 to 0x1F. -/
def code1 (q : SeqId) (k : Nat) (b c : Byte) : Option Instr :=
  match k with
  | 0 => some (.dxLda q (.imm b)) | 1 => some (.dxLda q (.dir b)) | 2 => some (.dxLda q (.abs (loHi b c)))
  | 3 => some (.dxLda q (.ix b)) | 4 => some (.dxLda q (.iy b)) | 5 => some (.dxSta q (.dir b))
  | 6 => some (.dxSta q (.abs (loHi b c))) | 7 => some (.dxSta q (.ix b)) | 8 => some (.dxSta q (.iy b))
  | 9 => some (.dxLdb q (.imm b)) | 10 => some (.dxLdb q (.dir b)) | 11 => some (.dxLdb q (.abs (loHi b c)))
  | 12 => some (.dxLdb q (.ix b)) | 13 => some (.dxStb q (.dir b)) | 14 => some (.dxStb q (.abs (loHi b c)))
  | 15 => some (.dxStb q (.ix b)) | _ => none

/-- Codes 0x20 to 0x2F. -/
def code2 (q : SeqId) (k : Nat) (b c : Byte) : Option Instr :=
  match k with
  | 0 => some (.dxLdx q (.imm (loHi b c))) | 1 => some (.dxLdx q (.dir b)) | 2 => some (.dxLdx q (.abs (loHi b c)))
  | 3 => some (.dxLdy q (.imm (loHi b c))) | 4 => some (.dxLdy q (.dir b)) | 5 => some (.dxLdy q (.abs (loHi b c)))
  | 6 => some (.dxStx q (.dir b)) | 7 => some (.dxStx q (.abs (loHi b c))) | 8 => some (.dxSty q (.dir b))
  | 9 => some (.dxSty q (.abs (loHi b c))) | 10 => some (.dxLdct q (.imm (loHi b c))) | 11 => some (.dxLdct q (.dir b))
  | 12 => some (.dxStct q b) | 13 => some (.dxLdsp q (loHi b c)) | 14 => some (.dxLdx q (.iy b))
  | 15 => some (.dxLdy q (.ix b)) | _ => none

/-- The four forms that follow one another in rows 3x, 4x and 5x: immediate, direct, [X+d8], [Y+d8]. -/
def aluForm (k : Nat) (b : Byte) : AluSrc :=
  match k % 4 with | 0 => .imm b | 1 => .dir b | 2 => .ix b | _ => .iy b

/-- The same four of ADC and SBC. -/
def adcForm (k : Nat) (b : Byte) : AdcSrc :=
  match k % 4 with | 0 => .imm b | 1 => .dir b | 2 => .ix b | _ => .iy b

/-- Codes 0x30 to 0x3F. -/
def code3 (q : SeqId) (k : Nat) (b : Byte) : Option Instr :=
  match k / 4 with
  | 0 => some (.dxAdd q (aluForm k b)) | 1 => some (.dxSub q (aluForm k b)) | 2 => some (.dxAnd q (aluForm k b))
  | _ => some (.dxOr q (aluForm k b))

/-- Codes 0x40 to 0x4F. -/
def code4 (q : SeqId) (k : Nat) (b : Byte) : Option Instr :=
  match k / 4 with
  | 0 => some (.dxXor q (aluForm k b)) | 1 => some (.dxAdc q (adcForm k b)) | 2 => some (.dxSbc q (adcForm k b))
  | _ => some (.dxCeq q (aluForm k b))

/-- Codes 0x50 to 0x5F. -/
def code5 (q : SeqId) (k : Nat) (b : Byte) : Option Instr :=
  let form : MemDax := if k % 2 = 0 then .dir b else .ix b
  match k / 2 with
  | 4 => some (.dxInc q form) | 5 => some (.dxDec q form) | 6 => some (.dxClr q form) | 7 => some (.dxTst q form)
  | _ => if k < 4 then some (.dxCltu q (aluForm k b)) else some (.dxClts q (aluForm k b))

/-- Codes 0x60 to 0x6F. -/
def code6 (q : SeqId) (k : Nat) (b : Byte) : Option Instr :=
  match k with
  | 0 => some (.dxNeg q) | 1 => some (.dxNot q) | 2 => some (.dxInca q) | 3 => some (.dxDeca q)
  | 4 => some (.dxShl q (.imm b)) | 5 => some (.dxShr q (.imm b)) | 6 => some (.dxAsr q (.imm b)) | 7 => some (.dxRol q (.imm b))
  | 8 => some (.dxShl q (.dir b)) | 9 => some (.dxShr q (.dir b)) | 10 => some (.dxAsr q (.dir b)) | 11 => some (.dxRol q (.dir b))
  | 12 => some (.dxMul q (.imm b)) | 13 => some (.dxMul q (.dir b)) | 14 => some (.dxDiv q (.imm b))
  | 15 => some (.dxDiv q (.dir b)) | _ => none

/-- Codes 0x70 to 0x7F. -/
def code7 (q : SeqId) (k : Nat) (b c : Byte) : Option Instr :=
  match k with
  | 0 => some (.dxBra q b) | 1 => some (.dxBt q b) | 2 => some (.dxBf q b) | 3 => some (.dxDbnz q b)
  | 4 => some (.dxJmp q (.abs (loHi b c))) | 5 => some (.dxJmp q .x) | 6 => some (.dxJsr q (.abs (loHi b c)))
  | 7 => some (.dxJsr q .x) | 8 => some (.dxInx q) | 9 => some (.dxDex q) | 10 => some (.dxIny q) | 11 => some (.dxDey q)
  | 12 => some (.dxAdx q (.imm b)) | 13 => some (.dxAdy q b) | 14 => some (.dxAdx q .a) | 15 => some (.dxCpx q (loHi b c))
  | _ => none

/-- Codes 0x80 to 0x8F; MOV names its destination first. -/
def code8 (q : SeqId) (k : Nat) (b c d e : Byte) : Option Instr :=
  match k with
  | 0 => some (.dxPush q .a) | 1 => some (.dxPop q .a) | 2 => some (.dxPush q .b) | 3 => some (.dxPop q .b)
  | 4 => some (.dxPush q .x) | 5 => some (.dxPop q .x) | 6 => some (.dxPush q .y) | 7 => some (.dxPop q .y)
  | 8 => some (.dxPush q .ct) | 9 => some (.dxPop q .ct) | 10 => some (.dxMov q (.dir b c))
  | 11 => some (.dxMov q (.abs (loHi b c) (loHi d e))) | 12 => some (.dxMov q .inc) | 13 => some (.dxMovw q)
  | 14 => some (.dxXch q b) | _ => none

/-- Codes 0x90 to 0x9F. -/
def code9 (q : SeqId) (k : Nat) (b c : Byte) : Option Instr :=
  let form : MemDx := if k % 2 = 0 then .dir b else .ix b
  let wide : MemDax := if k % 2 = 0 then .dir b else .ix b
  match k / 2 with
  | 0 => some (.dxAddm q form) | 1 => some (.dxSubm q form) | 2 => some (.dxAndm q form) | 3 => some (.dxOrm q form)
  | 4 => some (.dxXorm q form) | 5 => some (.dxBtst q wide c) | 6 => some (.dxBset q wide c) | _ => some (.dxBclr q wide c)

/-- Codes 0xA0 to 0xAF. -/
def codeA (q : SeqId) (k : Nat) (b c d : Byte) : Option Instr :=
  let a := loHi b c
  match k with
  | 0 => some (.dxAdd q (.abs a)) | 1 => some (.dxSub q (.abs a)) | 2 => some (.dxAnd q (.abs a)) | 3 => some (.dxOr q (.abs a))
  | 4 => some (.dxXor q (.abs a)) | 5 => some (.dxCeq q (.abs a)) | 6 => some (.dxCltu q (.abs a)) | 7 => some (.dxClts q (.abs a))
  | 8 => some (.dxBtst q (.abs a) d) | 9 => some (.dxBset q (.abs a) d) | 10 => some (.dxBclr q (.abs a) d)
  | 11 => some (.dxInc q (.abs a)) | 12 => some (.dxDec q (.abs a)) | 13 => some (.dxClr q (.abs a))
  | 14 => some (.dxTst q (.abs a)) | 15 => some (.dxCpy q a) | _ => none

/-- The value M of a mode in a function byte of CP0 (R403). -/
def modeBits (m : WideMode) : Nat := match m with | .u32 => 0 | .s32 => 0x40 | .u48 => 0x80 | .s48 => 0xC0

/-- The bytes of a CP0 escape of a function and a mode, with the function's operand bytes (R403, R404, R409). -/
def cop0Bytes (m : WideMode) (f : Nat) (rest : List Byte) : List Byte := 0xE0 :: BitVec.ofNat 8 (modeBits m + f) :: rest

/-- The bytes of a command that is an escape: the code, the function byte and the function's operand bytes (R399, R404, R409, R410, R413);
none of any other command. -/
def escapeBytes (i : Instr) : Option (List Byte) :=
  match i with
  | .cp0Ver _ m => some (cop0Bytes m 0x00 []) | .cp0Stat _ m => some (cop0Bytes m 0x01 [])
  | .cp0Ld _ m r x => some (cop0Bytes m 0x02 [r, x]) | .cp0St _ m r x => some (cop0Bytes m 0x03 [r, x])
  | .cp0Mov _ m r => some (cop0Bytes m 0x04 [r])
  | .cp0Ldi _ m r v => some (cop0Bytes m 0x05 [r, v.setWidth 8, (v >>> 8).setWidth 8])
  | .cp0Add _ m r => some (cop0Bytes m 0x06 [r]) | .cp0Sub _ m r => some (cop0Bytes m 0x07 [r])
  | .cp0Neg _ m r => some (cop0Bytes m 0x08 [r]) | .cp0Abs _ m r => some (cop0Bytes m 0x09 [r])
  | .cp0Mul _ m r => some (cop0Bytes m 0x0A [r]) | .cp0Mulq _ m r x => some (cop0Bytes m 0x0B [r, x])
  | .cp0Div _ m r x => some (cop0Bytes m 0x0C [r, x]) | .cp0Shl _ m r x => some (cop0Bytes m 0x0D [r, x])
  | .cp0Shr _ m r x => some (cop0Bytes m 0x0E [r, x]) | .cp0Asr _ m r x => some (cop0Bytes m 0x0F [r, x])
  | .cp0Rol _ m r x => some (cop0Bytes m 0x10 [r, x]) | .cp0Ror _ m r x => some (cop0Bytes m 0x11 [r, x])
  | .cp0Clt _ m r => some (cop0Bytes m 0x12 [r]) | .cp0Ceq _ m r => some (cop0Bytes m 0x13 [r])
  | .cp0Min _ m r => some (cop0Bytes m 0x14 [r]) | .cp0Max _ m r => some (cop0Bytes m 0x15 [r])
  | .cp0Toa _ m r x => some (cop0Bytes m 0x16 [r, x]) | .cp0Froma _ m r x => some (cop0Bytes m 0x17 [r, x])
  | .cp0DllEl _ m r x y => some (cop0Bytes m 0x20 [r, x, y]) | .cp0PllC _ m r => some (cop0Bytes m 0x21 [r])
  | .cp0PllA _ m r => some (cop0Bytes m 0x22 [r]) | .cp0FllC _ m r => some (cop0Bytes m 0x23 [r])
  | .cp0FllA _ m r => some (cop0Bytes m 0x24 [r]) | .cp0Cn0Mb _ m r x => some (cop0Bytes m 0x25 [r, x])
  | .cp0Pli _ m r x => some (cop0Bytes m 0x26 [r, x])
  | .cp1Ver _ => some [0xE1, 0x00] | .cp1Stat _ => some [0xE1, 0x01] | .cp1Eval _ => some [0xE1, 0x10]
  | .cp1Evalp _ => some [0xE1, 0x11] | .cp1Elaz _ => some [0xE1, 0x12]
  | .cp2Ver _ => some [0xE2, 0x00] | .cp2Stat _ => some [0xE2, 0x01] | .cp2Submit _ => some [0xE2, 0x10]
  | .cp2Poll _ => some [0xE2, 0x11] | .cp2Abort _ => some [0xE2, 0x12] | .cp2Verdict _ v => some [0xE2, 0x20, v]
  | _ => none

/-- What a code byte and the four bytes after it spell: a command of the opcode map, or an escape with its function byte. -/
inductive DxRead where
  | row (i : Instr)
  | escape (cp : Nat) (f : Byte) (rest : List Byte)
  deriving DecidableEq, Repr

/-- The command a read spells. -/
def DxRead.spells (d : DxRead) (i : Instr) : Bool :=
  match d with
  | .row j => decide (j = i)
  | .escape cp f rest => (escapeBytes i).elim false (fun bs => bs.isPrefixOf (BitVec.ofNat 8 (0xE0 + cp) :: f :: rest))

/-- A coprocessor has a function: its code is not reserved (R404, R409, R410, R413); CP3 to CP15 are absent. -/
def copHas (cp f : Nat) : Bool :=
  match cp with
  | 0 => decide (f % 64 < 0x18) || (decide (0x20 ≤ f % 64) && decide (f % 64 < 0x27))
  | 1 => [0x00, 0x01, 0x10, 0x11, 0x12].contains f
  | 2 => [0x00, 0x01, 0x10, 0x11, 0x12, 0x20].contains f
  | _ => false

/-- Codes 0xF0 to 0xFF. -/
def codeF (q : SeqId) (k : Nat) (b : Byte) : Option Instr :=
  match k with
  | 0 => some (.dxMfs q b) | 1 => some (.dxMts q b) | 2 => some (.dxSvc q b) | 3 => some (.dxVcall q b) | 4 => some (.dxRti q)
  | 5 => some (.dxEi q) | 6 => some (.dxDi q) | 7 => some (.dxWait q) | 8 => some (.dxSetb q) | 9 => some (.dxClrb q)
  | 10 => some (.dxNotb q) | 11 => some (.dxBrk q) | _ => none

/-- The command of the opcode map that a code byte outside the escapes and the four bytes after it spell on a sequencer. -/
def codeRow (q : SeqId) (op : Nat) (b c d e : Byte) : Option Instr :=
  match op / 16 with
  | 0 => code0 q (op % 16) b | 1 => code1 q (op % 16) b c | 2 => code2 q (op % 16) b c | 3 => code3 q (op % 16) b
  | 4 => code4 q (op % 16) b | 5 => code5 q (op % 16) b | 6 => code6 q (op % 16) b | 7 => code7 q (op % 16) b c
  | 8 => code8 q (op % 16) b c d e | 9 => code9 q (op % 16) b c | 10 => codeA q (op % 16) b c d | 15 => codeF q (op % 16) b
  | _ => none

/-- What a code byte and the four bytes after it spell; none where the code, or a coprocessor's function, is reserved (R373, R374). -/
def dxCode (q : SeqId) (op : Nat) (b c d e : Byte) : Option DxRead :=
  if op / 16 = 14 then if copHas (op % 16) b.toNat then some (.escape (op % 16) b [c, d, e]) else none
  else (codeRow q op b c d e).map .row

end Sys2Proof.Machine
end

