-- ==== Sys2Proof/Machine/Flags.lean ====
section
/-! DEFINITION. The condition results and edge cases of the 8-bit and the wide arithmetic (R377 to R379, R403 to R407):
every function gives the result and the value written to B. -/
namespace Sys2Proof.Machine

/-- A condition result in B: 0 or 1 (R364). -/
def flag (c : Bool) : BitVec 8 := if c then 1 else 0

/-- A truth value of B: any nonzero value is true (R364). -/
def truth (b : BitVec 8) : Bool := b != 0

/-- Sum with a carry in, and the carry out of bit 7 (R377). -/
def add8 (a m : BitVec 8) (c : Bool) : BitVec 8 × BitVec 8 :=
  let t := a.toNat + m.toNat + (if c then 1 else 0)
  (BitVec.ofNat 8 t, flag (decide (256 ≤ t)))

/-- Difference with a borrow in, and the borrow out (R377). -/
def sub8 (a m : BitVec 8) (c : Bool) : BitVec 8 × BitVec 8 :=
  let t := m.toNat + (if c then 1 else 0)
  (BitVec.ofNat 8 (a.toNat + 512 - t), flag (decide (a.toNat < t)))

/-- NEG: 0x80 gives 0x80 and B 1, any other value B 0 (R377). -/
def neg8 (a : BitVec 8) : BitVec 8 × BitVec 8 := (-a, flag (a == 0x80))

/-- INC: B is 1 when 0xFF wraps to 0x00 (R375). -/
def inc8 (a : BitVec 8) : BitVec 8 × BitVec 8 := (a + 1, flag (a == 0xFF))

/-- DEC: B is 1 when 0x00 wraps to 0xFF (R375). -/
def dec8 (a : BitVec 8) : BitVec 8 × BitVec 8 := (a - 1, flag (a == 0))

/-- SHL by an unsigned 8-bit count (R378). -/
def shl8 (a n : BitVec 8) : BitVec 8 × BitVec 8 :=
  if n.toNat = 0 then (a, 0)
  else if n.toNat ≤ 8 then (a <<< n.toNat, flag (a.getLsbD (8 - n.toNat)))
  else (0, 0)

/-- SHR by an unsigned 8-bit count (R378). -/
def shr8 (a n : BitVec 8) : BitVec 8 × BitVec 8 :=
  if n.toNat = 0 then (a, 0)
  else if n.toNat ≤ 8 then (a >>> n.toNat, flag (a.getLsbD (n.toNat - 1)))
  else (0, 0)

/-- ASR by an unsigned 8-bit count: counts of 9 or more give sign fill with B the sign (R378). -/
def asr8 (a n : BitVec 8) : BitVec 8 × BitVec 8 :=
  if n.toNat = 0 then (a, 0)
  else if n.toNat ≤ 8 then (a.sshiftRight n.toNat, flag (a.getLsbD (n.toNat - 1)))
  else (a.sshiftRight 8, flag a.msb)

/-- ROL by the count modulo 8; B is bit 0 of the result (R378). (Assumption 19, DEDUCED.) -/
def rol8 (a n : BitVec 8) : BitVec 8 × BitVec 8 :=
  let r := a.rotateLeft (n.toNat % 8)
  (r, if n = 0 then 0 else flag (r.getLsbD 0))

/-- MUL: X is the unsigned product, B is 1 when it passes 0x00FF (R375). -/
def mul8 (a m : BitVec 8) : BitVec 16 × BitVec 8 :=
  (BitVec.ofNat 16 (a.toNat * m.toNat), flag (decide (0xFF < a.toNat * m.toNat)))

/-- DIV of X by an 8-bit operand: A, X and B; a divisor of 0 and a quotient above 0xFF give A 0xFF, X unchanged, B 1 (R379). -/
def div8 (x : BitVec 16) (m : BitVec 8) : BitVec 8 × BitVec 16 × BitVec 8 :=
  if m.toNat = 0 ∨ 0xFF < x.toNat / m.toNat then (0xFF, x, 1)
  else (BitVec.ofNat 8 (x.toNat / m.toNat), BitVec.ofNat 16 (x.toNat % m.toNat), 0)

/-! The wide arithmetic of CP0. `w` is the width, 32 or 48; `sg` says the mode is signed (R403). -/

/-- A source register read at the width, as the exact integer it stands for (R403). -/
def wideVal (w : Nat) (sg : Bool) (v : BitVec 48) : Int :=
  let n := v.toNat % 2 ^ w
  if sg && decide (2 ^ (w - 1) ≤ n) then (n : Int) - 2 ^ w else n

/-- A result kept modulo 2^width and extended to 48 bits as the mode says (R403). -/
def wideOf (w : Nat) (sg : Bool) (i : Int) : BitVec 48 :=
  BitVec.ofInt 48 (wideVal w sg (BitVec.ofInt 48 (i % (2 ^ w : Int))))

/-- Whether an exact value fits the width in the mode's signedness (R405). -/
def wideFits (w : Nat) (sg : Bool) (i : Int) : Bool := wideVal w sg (wideOf w sg i) == i

/-- The most negative value of a width. -/
def wideMin (w : Nat) : Int := -(2 ^ (w - 1) : Int)

/-- NEG (R406): the most negative value is returned unchanged with B 1. -/
def wideNeg (w : Nat) (v : BitVec 48) : BitVec 48 × Bool :=
  let i := wideVal w true v
  if i = wideMin w then (wideOf w true i, true) else (wideOf w true (-i), false)

/-- ABS (R406). -/
def wideAbs (w : Nat) (v : BitVec 48) : BitVec 48 × Bool :=
  let i := wideVal w true v
  if i = wideMin w then (wideOf w true i, true) else (wideOf w true (if i < 0 then -i else i), false)

/-- DIV (R406): quotient, remainder and B. -/
def wideDiv (w : Nat) (sg : Bool) (n d : BitVec 48) : BitVec 48 × BitVec 48 × Bool :=
  let a := wideVal w sg n
  let b := wideVal w sg d
  if b = 0 then
    (wideOf w sg (if sg then (if 0 ≤ a then 2 ^ (w - 1) - 1 else wideMin w) else 2 ^ w - 1), wideOf w sg a, true)
  else if sg ∧ a = wideMin w ∧ b = -1 then (wideOf w sg (2 ^ (w - 1) - 1), 0, true)
  else (wideOf w sg (Int.tdiv a b), wideOf w sg (Int.tmod a b), false)

/-- SHL (R407). -/
def wideShl (w : Nat) (sg : Bool) (v : BitVec 48) (n : Nat) : BitVec 48 × Bool :=
  let u := v.toNat % 2 ^ w
  if n = 0 then (wideOf w sg u, false)
  else if n ≤ w then (wideOf w sg (u * 2 ^ n), u.testBit (w - n))
  else (0, false)

/-- SHR, logical (R407). -/
def wideShr (w : Nat) (sg : Bool) (v : BitVec 48) (n : Nat) : BitVec 48 × Bool :=
  let u := v.toNat % 2 ^ w
  if n = 0 then (wideOf w sg u, false)
  else if n ≤ w then (wideOf w sg (u / 2 ^ n), u.testBit (n - 1))
  else (0, false)

/-- ASR (R407): above the width, sign fill with B the sign. -/
def wideAsr (w : Nat) (sg : Bool) (v : BitVec 48) (n : Nat) : BitVec 48 × Bool :=
  let u := v.toNat % 2 ^ w
  let i := wideVal w true v
  if n = 0 then (wideOf w sg u, false)
  else if n ≤ w then (wideOf w sg (i / 2 ^ n), u.testBit (n - 1))
  else (wideOf w sg (if i < 0 then -1 else 0), decide (i < 0))

/-- ROL by n modulo the width; B is bit 0 of the result (R407). -/
def wideRol (w : Nat) (sg : Bool) (v : BitVec 48) (n : Nat) : BitVec 48 × Bool :=
  let u := v.toNat % 2 ^ w
  let k := n % w
  let r := u * 2 ^ k % 2 ^ w + u / 2 ^ (w - k)
  if n = 0 then (wideOf w sg u, false) else (wideOf w sg r, r.testBit 0)

/-- ROR by n modulo the width; B is bit 0 of the result (R407). -/
def wideRor (w : Nat) (sg : Bool) (v : BitVec 48) (n : Nat) : BitVec 48 × Bool :=
  let u := v.toNat % 2 ^ w
  let k := n % w
  let r := u / 2 ^ k + u % 2 ^ k * 2 ^ (w - k)
  if n = 0 then (wideOf w sg u, false) else (wideOf w sg r, r.testBit 0)

end Sys2Proof.Machine
end

