-- ==== Sys2Proof/Machine/Operands.lean ====
section
/-! DEFINITION. The data accesses of a DX-8 sequencer: where an address of its 64 KiB space lies (R366 to R369), the protection
unit's check (R513), register space through the read and write buffers (R370, R371), the surcharges (R376), and the
stack (R380, R382). An access either answers the state after it or the fault it raises. -/
namespace Sys2Proof.Machine

/-- Where an address of a sequencer's space lies (R366). -/
inductive DxPlace where
  /-- Private RAM: its BAR 0 offset, and whether the byte belongs to the vector table (R367). -/
  | ram (off : Nat) (vector : Bool)
  /-- A mailbox byte: its BAR 0 offset (R369). -/
  | box (off : Nat)
  /-- Ring-shared memory: its device memory map address. -/
  | ring (addr : Nat)
  /-- Local I/O register space: its BAR 0 offset. -/
  | io (off : Nat)
  /-- Register space through the bank window. -/
  | winReg (off : Nat)
  /-- Mailboxes and private RAM in BAR 0, through the bank window. -/
  | winMem (off : Nat)
  /-- The device memory map through the bank window. -/
  | winMap (addr : Nat)
deriving DecidableEq, Repr

/-- A fault about to be raised (R391): its cause, the data address, and the protection unit's denial to record: space,
address, write. -/
structure DxErr where
  cause : Nat
  addr : Option (BitVec 16) := none
  deny : Option (Nat × Nat × Bool) := none
  detail : Option (Nat × Nat) := none
deriving DecidableEq, Repr

/-- The reader a sequencer is (R35). -/
def seqReader (q : SeqId) : Reader := if h : q.val < 10 then .sq ⟨q.val, h⟩ else .sqm

/-- The privilege field of MODE (R365). -/
def Seq.priv (sq : Seq) : Nat := sq.mode.toNat % 4

/-- BAR 0 offset of a byte of private RAM. -/
def privRam (q : SeqId) (a : Nat) : Nat := 0x590000 + 0x8000 * q.val + a

/-- The place of an address (R366 to R369). (Assumption 18, DEDUCED.) (Assumption 20, DESIGN CHOICE.) -/
def dxPlace (q : SeqId) (sq : Seq) (a : BitVec 16) : DxPlace :=
  let n := a.toNat
  if n < 0x8000 then .ram (privRam q n) (decide (0x7FE0 ≤ n))
  else if n < 0x9000 then .io (if q.val = 10 then 0x580000 + (n - 0x8000) else 0x100000 + 0x10000 * q.val + (n - 0x8000))
  else if n < 0xA000 then .box (0x581000 + (n - 0x9000))
  else if n < 0xC000 then .ring (0x2000000 + 0x40000 * (if q.val = 10 then sq.rsel.toNat else q.val) + (n - 0xA000))
  else if 0xFFE0 ≤ n then .ram (privRam q (0x7FE0 + (n - 0xFFE0))) true
  else
    let bank := sq.bank.toNat
    if bank < 0x200 then
      let off := bank * 0x4000 + (n - 0xC000)
      if bar0Mem off then .winMem off else .winReg off
    else .winMap (sq.aper.toNat * 0x800000 + (bank - 0x200) * 0x4000 + (n - 0xC000))

/-- Register space: where the read-modify-write instructions do not reach (R372). -/
def DxPlace.isReg : DxPlace → Bool
  | .io _ => true
  | .winReg _ => true
  | _ => false

/-- The space and address at which the protection unit checks a place; none where the access passes unchecked (R513). -/
def DxPlace.checked : DxPlace → Option (Nat × Nat)
  | .ram _ _ => none
  | .io _ => none
  | .box off => some (0, off)
  | .ring a => some (1, a)
  | .winReg off => some (0, off)
  | .winMem off => some (0, off)
  | .winMap a => some (1, a)

/-- The surcharge of one read or write at a place (R376). -/
def DxPlace.cost (write : Bool) : DxPlace → Nat
  | .ram _ _ => 0
  | .box _ => 1
  | .ring _ => 1
  | .io _ => if write then 1 else 3
  | .winReg _ => if write then 2 else 12
  | .winMem _ => if write then 2 else 8
  | .winMap _ => if write then 2 else 8

/-- A sequencer's cycle count and timer advanced (R389, R394). (Assumption 21, DEDUCED.) -/
def Seq.advance (sq : Seq) (n : Nat) : Seq :=
  let sq := { sq with cyc := sq.cyc + BitVec.ofNat 32 n }
  if sq.ctl.getLsbD 1 && sq.tmr != 0 then
    let p := sq.presc + n
    { sq with presc := p % 64, timer := BitVec.ofNat 16 (sq.timer.toNat - p / 64) }
  else sq

/-- An FS tick of a waiting sequencer: ten CK_MAIN cycles by its divider, or a third of that from the holding oscillator, go on in
its cycle count and timer (R320, R323, R387, R389, R394). (Assumption 21, DEDUCED.) -/
def Seq.waitTick (div : Nat) (coarse : Bool) (sq : Seq) : Seq :=
  let p := sq.waitPart + (if coarse then 10 else 30)
  let d := 3 * max 1 div
  ({ sq with waitPart := p % d }).advance (p / d)

/-- Cycles spent by a sequencer. (Assumption 21, DEDUCED.) -/
def addCycles (q : SeqId) (n : Nat) (s : State) : State := s.setSeq q.val ((s.seq q.val).advance n)

/-- The check of a data access: a denial of the protection unit, or a write of the vector table from Ring mode, raises PROT
(R367, R513, R516). (Assumption 18, DEDUCED.) -/
def dxCheck (q : SeqId) (a : BitVec 16) (write : Bool) (s : State) : Except DxErr DxPlace :=
  let sq := s.seq q.val
  let p := dxPlace q sq a
  match p with
  | .ram _ true => if write ∧ sq.priv = 0 then .error { cause := 4, addr := some a } else .ok p
  | _ =>
    match p.checked with
    | none => .ok p
    | some (space, addr) =>
      if unitAllows (seqReader q) space addr write s then .ok p
      else .error { cause := 4, addr := some a, deny := some (space, addr, write) }

/-- Byte `i` of a register word. -/
def wordByte (w : Word) (i : Nat) : Byte := BitVec.ofNat 8 (w.toNat / 256 ^ i)

/-- A register word with byte `i` replaced. -/
def setWordByte (w : Word) (i : Nat) (b : Byte) : Word :=
  BitVec.ofNat 32 (insertBits w.toNat (8 * i + 7) (8 * i) b.toNat)

/-- A byte read of register space (R370). -/
def regByteRead (q : SeqId) (off : Nat) (s : State) : Byte × State :=
  let w := off - off % 4
  if off % 4 = 0 then
    let (v, s1) := busRead (seqReader q) w s
    (wordByte v 0, s1.setSeq q.val { s1.seq q.val with rdBuf := some (w, v) })
  else
    match (s.seq q.val).rdBuf with
    | some (w', v) =>
      if w' = w then (wordByte v (off % 4), s)
      else let (v, s1) := busRead (seqReader q) w s; (wordByte v (off % 4), s1)
    | none => let (v, s1) := busRead (seqReader q) w s; (wordByte v (off % 4), s1)

/-- A byte write of register space: offsets 0 to 2 are buffered, offset 3 commits the word and empties the buffer (R371). -/
def regByteWrite (q : SeqId) (off : Nat) (v : Byte) (s : State) : State :=
  let w := off - off % 4
  let buf := (s.seq q.val).wrBuf
  if off % 4 = 3 then
    let held : Word := match buf with
      | some (w', b) => if w' = w then b else 0
      | none => 0
    let s1 := s.setSeq q.val { s.seq q.val with wrBuf := none }
    busWrite (seqReader q) w (setWordByte held 3 v) s1
  else
    match buf with
    | some (w', b) =>
      if w' = w then s.setSeq q.val { s.seq q.val with wrBuf := some (w, setWordByte b (off % 4) v) }
      else (s.setSeq q.val { s.seq q.val with wrBuf := some (w, setWordByte 0 (off % 4) v) }).setFld (F.SQ_STAT_WR_DROP q.val) 1
    | none => s.setSeq q.val { s.seq q.val with wrBuf := some (w, setWordByte 0 (off % 4) v) }

/-- The byte at a place, with the effects of reading it. -/
def placeRead (q : SeqId) (p : DxPlace) (s : State) : Byte × State :=
  match p with
  | .ram off _ => (s.ramByte off, s)
  | .box off => (bar0ReadByte (seqReader q) off s, s)
  | .ring a => mapReadByte (seqReader q) a s
  | .io off => regByteRead q off s
  | .winReg off => regByteRead q off s
  | .winMem off => (bar0ReadByte (seqReader q) off s, s)
  | .winMap a => mapReadByte (seqReader q) a s

/-- The state after a byte is written at a place. -/
def placeWrite (q : SeqId) (p : DxPlace) (v : Byte) (s : State) : State :=
  match p with
  | .ram off _ => s.setRamByte off v
  | .box off => bar0WriteByte (seqReader q) off v s
  | .ring a => mapWriteByte (seqReader q) a v s
  | .io off => regByteWrite q off v s
  | .winReg off => regByteWrite q off v s
  | .winMem off => bar0WriteByte (seqReader q) off v s
  | .winMap a => mapWriteByte (seqReader q) a v s

/-- A byte read at an address of a sequencer's space. -/
def dxRead (q : SeqId) (a : BitVec 16) (s : State) : Except DxErr (Byte × State) :=
  match dxCheck q a false s with
  | .error e => .error e
  | .ok p =>
    let r := placeRead q p s
    .ok (r.1, addCycles q (p.cost false) r.2)

/-- A byte write at an address of a sequencer's space. -/
def dxWrite (q : SeqId) (a : BitVec 16) (v : Byte) (s : State) : Except DxErr State :=
  match dxCheck q a true s with
  | .error e => .error e
  | .ok p => .ok (addCycles q (p.cost true) (placeWrite q p v s))

/-- A 16-bit read, low byte first (R366). (Assumption 17, DEDUCED.) -/
def dxRead16 (q : SeqId) (a : BitVec 16) (s : State) : Except DxErr (BitVec 16 × State) :=
  match dxRead q a s with
  | .error e => .error e
  | .ok (lo, s1) =>
    match dxRead q (a + 1) s1 with
    | .error e => .error e
    | .ok (hi, s2) => .ok (hi ++ lo, s2)

/-- A 16-bit write, low byte first; a denial of either byte leaves both unwritten (R391: no effect). (Assumption 17, DEDUCED.) -/
def dxWrite16 (q : SeqId) (a : BitVec 16) (v : BitVec 16) (s : State) : Except DxErr State :=
  match dxWrite q a (v.setWidth 8) s with
  | .error e => .error e
  | .ok s1 => dxWrite q (a + 1) ((v >>> 8).setWidth 8) s1

/-- A read-modify-write: register space raises RMW_IO; else one access reads the byte and writes what `f` makes of it
(R372, R376). -/
def dxModify (q : SeqId) (a : BitVec 16) (f : Byte → Byte × (Seq → Seq)) (s : State) : Except DxErr State :=
  if (dxPlace q (s.seq q.val) a).isReg then .error { cause := 5, addr := some a }
  else
    match dxRead q a s with
    | .error e => .error e
    | .ok (m, s1) =>
      let r := f m
      match dxWrite q a r.1 s1 with
      | .error e => .error e
      | .ok s2 => .ok (s2.setSeq q.val (r.2 (s2.seq q.val)))

/-- A push of one byte at SP - 1; below SPLIM it raises STACK (R380, R382), and FADDR shows the address. (Assumption 140, DEDUCED.) -/
def dxPush8 (q : SeqId) (v : Byte) (s : State) : Except DxErr State :=
  let sp := (s.seq q.val).sp - 1
  if sp < (s.seq q.val).splim then .error { cause := 6, addr := some sp }
  else
    match dxWrite q sp v s with
    | .error e => .error e
    | .ok s1 => .ok (s1.setSeq q.val { s1.seq q.val with sp := sp })

/-- A push of 16 bits, high byte first (R380). -/
def dxPush16 (q : SeqId) (v : BitVec 16) (s : State) : Except DxErr State :=
  match dxPush8 q ((v >>> 8).setWidth 8) s with
  | .error e => .error e
  | .ok s1 => dxPush8 q (v.setWidth 8) s1

/-- A pop of one byte; from above 0x7FDF it raises STACK (R380, R382), and FADDR shows the address. (Assumption 140, DEDUCED.) -/
def dxPop8 (q : SeqId) (s : State) : Except DxErr (Byte × State) :=
  let sp := (s.seq q.val).sp
  if 0x7FDF < sp then .error { cause := 6, addr := some sp }
  else
    match dxRead q sp s with
    | .error e => .error e
    | .ok (v, s1) => .ok (v, s1.setSeq q.val { s1.seq q.val with sp := sp + 1 })

/-- A pop of 16 bits, low byte first (R380). -/
def dxPop16 (q : SeqId) (s : State) : Except DxErr (BitVec 16 × State) :=
  match dxPop8 q s with
  | .error e => .error e
  | .ok (lo, s1) =>
    match dxPop8 q s1 with
    | .error e => .error e
    | .ok (hi, s2) => .ok (hi ++ lo, s2)

/-- A fetched byte: what the address holds, without any effect (R366). -/
def fetchByte (q : SeqId) (a : BitVec 16) (s : State) : Byte :=
  match dxPlace q (s.seq q.val) a with
  | .ram off _ => s.ramByte off
  | .io off => wordByte (busRead (seqReader q) (off - off % 4) s).1 (off % 4)
  | .winReg off => wordByte (busRead (seqReader q) (off - off % 4) s).1 (off % 4)
  | p => (placeRead q p s).1

/-! The addresses of the operand forms (R373). -/

/-- The direct page address 0x00nn. -/
def dirAddr (d : Byte) : BitVec 16 := d.setWidth 16

/-- [X + d8], modulo 2^16. -/
def ixAddr (sq : Seq) (d : Byte) : BitVec 16 := sq.x + d.setWidth 16

/-- [Y + d8], modulo 2^16. -/
def iyAddr (sq : Seq) (d : Byte) : BitVec 16 := sq.y + d.setWidth 16

end Sys2Proof.Machine

namespace Sys2Proof
open Machine

/-- The address of an STB, INC, DEC, CLR, TST or bit operand, and the bytes its form takes besides the opcode. -/
def MemDax.addr (m : MemDax) (sq : Seq) : BitVec 16 :=
  match m with
  | .dir d => dirAddr d
  | .abs a => a
  | .ix d => ixAddr sq d

/-- Length of the operand bytes of the form. -/
def MemDax.len : MemDax → Nat
  | .abs _ => 2
  | _ => 1

/-- One cycle more for the absolute form (R375). -/
def MemDax.extra : MemDax → Nat
  | .abs _ => 1
  | _ => 0

/-- The address of an ADDM, SUBM, ANDM, ORM or XORM operand. -/
def MemDx.addr (m : MemDx) (sq : Seq) : BitVec 16 :=
  match m with
  | .dir d => dirAddr d
  | .ix d => ixAddr sq d

/-- The address of an STX or STY operand. -/
def MemDa.addr : MemDa → BitVec 16
  | .dir d => dirAddr d
  | .abs a => a

/-- Length of the operand bytes of the form. -/
def MemDa.len : MemDa → Nat
  | .abs _ => 2
  | .dir _ => 1

/-- One cycle more for the absolute form. -/
def MemDa.extra : MemDa → Nat
  | .abs _ => 1
  | .dir _ => 0

/-- The operand of an arithmetic or logic instruction. -/
def AluSrc.read (src : AluSrc) (q : SeqId) (s : State) : Except DxErr (Byte × State) :=
  match src with
  | .imm n => .ok (n, s)
  | .dir d => dxRead q (dirAddr d) s
  | .abs a => dxRead q a s
  | .ix d => dxRead q (ixAddr (s.seq q.val) d) s
  | .iy d => dxRead q (iyAddr (s.seq q.val) d) s

/-- Length of the instruction in bytes. -/
def AluSrc.len : AluSrc → Nat
  | .abs _ => 3
  | _ => 2

/-- Base cycles: 2, and 3 in the absolute form (R375). -/
def AluSrc.base : AluSrc → Nat
  | .abs _ => 3
  | _ => 2

/-- The forms of ADC and SBC among those of ADD. -/
def AdcSrc.alu : AdcSrc → AluSrc
  | .imm n => .imm n
  | .dir d => .dir d
  | .ix d => .ix d
  | .iy d => .iy d

/-- The forms of the shifts, MUL and DIV among those of ADD. -/
def ImmDir.alu : ImmDir → AluSrc
  | .imm n => .imm n
  | .dir d => .dir d

/-- The forms of LDB among those of ADD. -/
def LdbSrc.alu : LdbSrc → AluSrc
  | .imm n => .imm n
  | .dir d => .dir d
  | .abs a => .abs a
  | .ix d => .ix d

/-- Whether a register PUSH and POP move is 8 bits wide. -/
def StackReg.is8 : StackReg → Bool
  | .a => true
  | .b => true
  | _ => false

/-- The value of a register PUSH stores. -/
def StackReg.val (r : StackReg) (sq : Seq) : BitVec 16 :=
  match r with
  | .a => sq.a.setWidth 16
  | .b => sq.b.setWidth 16
  | .x => sq.x
  | .y => sq.y
  | .ct => sq.ct

/-- A register POP has loaded. -/
def StackReg.set (r : StackReg) (v : BitVec 16) (sq : Seq) : Seq :=
  match r with
  | .a => { sq with a := v.setWidth 8 }
  | .b => { sq with b := v.setWidth 8 }
  | .x => { sq with x := v }
  | .y => { sq with y := v }
  | .ct => { sq with ct := v }

/-- The FCAUSE code of a cause (R391). -/
def DxCause.code : DxCause → Nat
  | .illegalOpcode => 1
  | .illegalSequence => 2
  | .priv => 3
  | .prot => 4
  | .rmwIo => 5
  | .stack => 6
  | .arith => 7
  | .break_ => 8
  | .coproc => 9

end Sys2Proof
end

