-- ==== Sys2Proof/Machine/Dx8.lean ====
section
/-! DEFINITION. The DX-8 instructions (R374 to R382, R390, R393, R394), interrupt and fault entry (R383 to R387, R391, R392),
the timer and the mailboxes. A command says which sequencer executes which instruction; it acts when that sequencer is
at an instruction boundary with STATE RUN (assumption 20). -/
namespace Sys2Proof.Machine

/-- A sequencer executes instructions: STATE RUN and not halted for the debug port. (Assumption 20, DESIGN CHOICE.) -/
def seqReady (q : SeqId) (s : State) : Bool := decide ((s.seq q.val).run = .run) && !(s.seq q.val).dbgHalt

/-- A sequencer's registers changed by a function. -/
def onSeq (q : SeqId) (f : Seq → Seq) (s : State) : State := s.setSeq q.val (f (s.seq q.val))

/-- MODE with its fields set. -/
def mkMode (ie rr flt : Bool) (priv : Nat) : BitVec 8 :=
  BitVec.ofNat 8 ((if ie then 0x80 else 0) + (if rr then 0x40 else 0) + (if flt then 0x20 else 0) + priv % 4)

/-- The address a vector entry loads PC from: entry i of the vector table (R367). -/
def vectorTarget (q : SeqId) (input : Nat) (s : State) : BitVec 16 :=
  s.ramByte (privRam q (0x7FE0 + 2 * input + 1)) ++ s.ramByte (privRam q (0x7FE0 + 2 * input))

/-- A double fault: the sequencer stops in DFAULT (R392). -/
def doubleFault (q : SeqId) (s : State) : State :=
  raise 101 (onSeq q (fun sq => { sq with run := .dfault, rep := none }) s)

/-- Pushes PC, then MODE, then B (R385). -/
def pushFrame (q : SeqId) (pc : BitVec 16) (mode b : BitVec 8) (s : State) : Except DxErr State :=
  match dxPush16 q pc s with
  | .error e => .error e
  | .ok s1 =>
    match dxPush8 q mode s1 with
    | .error e => .error e
    | .ok s2 => dxPush8 q b s2

/-- Entry to a vector (R385): the frame pushed, PRIV at least Supervisor, IE and RR clear, FLT set for a fault, PC from the
vector table, 6 cycles. `rep` says the boundary lies inside a REP: the pushed MODE has RR set. A STACK condition is a
double fault (R392). -/
def vectorEntry (q : SeqId) (input : Nat) (pushPc : BitVec 16) (rr : Bool) (s : State) : State :=
  let sq := s.seq q.val
  let mode := if rr then sq.mode ||| 0x40 else sq.mode
  match pushFrame q pushPc mode sq.b s with
  | .error _ => doubleFault q s
  | .ok s1 =>
    onSeq q (fun t => ({ t with
      mode := mkMode false false (decide (input = 15) || sq.mode.getLsbD 5) (max sq.priv 1),
      pc := vectorTarget q input s1, rep := none }).advance 6) s1

/-- The PC a boundary pushes: the prefix's address inside a REP, else PC. -/
def boundaryPc (sq : Seq) : BitVec 16 × Bool :=
  match sq.rep with
  | some (p, _) => (p, true)
  | none => (sq.pc, false)

/-- A fault (R391, R392): FCAUSE and FADDR written, counted, EV_100 raised, vector 15 entered; a fault while FLT is 1 is a
double fault. A denial of the protection unit is recorded (R516); a COPROC fault leaves its detail (R401). -/
def dxFault (q : SeqId) (e : DxErr) (s : State) : State :=
  let s := match e.deny with
    | some (space, addr, w) => protRecord (seqReader q) space addr w s
    | none => s
  let s := match e.detail with
    | some (cp, d) => onSeq q (fun t => { t with cpStat := Sparse.put (fun _ => 0) t.cpStat cp d }) s
    | none => s
  let s := onSeq q (fun t => { t with fcause := BitVec.ofNat 8 e.cause, faddr := e.addr.getD t.faddr }) s
  let s := s.setFld (F.SQ_STAT_FCAUSE q.val) e.cause
  let s := s.setFld (F.SQ_STAT_FAULT_CNT q.val) (satNat 255 (s.fld (F.SQ_STAT_FAULT_CNT q.val) + 1))
  let s := raise 100 s
  let sq := s.seq q.val
  if sq.mode.getLsbD 5 then doubleFault q s
  else vectorEntry q 15 (boundaryPc sq).1 (boundaryPc sq).2 s

/-- A coprocessor is present on a sequencer: CP0 on SQ0 to SQ9, CP1 and CP2 on SQM. -/
def copPresent (q : SeqId) (cp : Nat) : Bool := if cp = 0 then decide (q.val < 10) else decide (q.val = 10)

/-- The instruction was fetched for an earlier iteration of a REP (R381). -/
def Seq.fetched (sq : Seq) : Bool := match sq.rep with | some (_, false) => true | _ => false

/-- The check of an instruction's fetch by the protection unit (R513). (Assumption 20, DESIGN CHOICE.) -/
def fetchDenied (q : SeqId) (s : State) : Option DxErr :=
  let sq := s.seq q.val
  match if sq.fetched then none else (dxPlace q sq sq.pc).checked with
  | none => none
  | some (space, addr) =>
    if unitAllows (seqReader q) space addr false s then none
    else some { cause := 4, deny := some (space, addr, false) }

/-- An instruction fetched through the bank window costs 4 cycles more (R376). -/
def fetchCost (q : SeqId) (sq : Seq) : Nat :=
  if sq.fetched then 0
  else
    match dxPlace q sq sq.pc with
    | .winReg _ => 4
    | .winMem _ => 4
    | .winMap _ => 4
    | _ => 0

/-- After an instruction's effect: inside a REP, CT counts down and the same instruction runs again until CT is 0 (R381). -/
def dxRetire (pc : BitVec 16) (sq : Seq) : Seq :=
  match sq.rep with
  | none => sq
  | some (p, _) =>
    let ct := sq.ct - 1
    if ct = 0 then { sq with ct := ct, rep := none } else { sq with ct := ct, pc := pc, rep := some (p, false) }

/-- The state in which an instruction of `len` bytes and `cyc` base cycles has its effect: fetched, PC moved past it. -/
def dxFetched (q : SeqId) (len cyc : Nat) (s : State) : State :=
  onSeq q (fun sq => ({ sq with pc := sq.pc + BitVec.ofNat 16 len }).advance (cyc + fetchCost q sq)) s

/-- One instruction of `len` bytes and `cyc` base cycles: fetched, PC moved past it, its effect `body`; a fault leaves no
effect but the fault's own (R391). (Assumption 20, DESIGN CHOICE.) -/
def dxInstr (q : SeqId) (len cyc : Nat) (body : State → Except DxErr State) (s : State) : State :=
  if !seqReady q s then s
  else
    match fetchDenied q s with
    | some e => dxFault q e s
    | none =>
      match body (dxFetched q len cyc s) with
      | .error e => dxFault q e s
      | .ok t => onSeq q (dxRetire (s.seq q.val).pc) t

/-- An instruction that touches no memory: its effect on the sequencer's registers. -/
def dxReg (q : SeqId) (len cyc : Nat) (f : Seq → Seq) (s : State) : State :=
  dxInstr q len cyc (fun s => .ok (onSeq q f s)) s

/-! Implied transfers. -/

def execDxNop (q : SeqId) (s : State) : Host.Outcome State Fault Refusal := .next (dxReg q 1 1 id s)
def execDxTab (q : SeqId) (s : State) : Host.Outcome State Fault Refusal :=
  .next (dxReg q 1 1 (fun r => { r with b := r.a }) s)
def execDxTba (q : SeqId) (s : State) : Host.Outcome State Fault Refusal :=
  .next (dxReg q 1 1 (fun r => { r with a := r.b }) s)
def execDxTax (q : SeqId) (s : State) : Host.Outcome State Fault Refusal :=
  .next (dxReg q 1 1 (fun r => { r with x := r.a.setWidth 16 }) s)
def execDxTay (q : SeqId) (s : State) : Host.Outcome State Fault Refusal :=
  .next (dxReg q 1 1 (fun r => { r with y := r.a.setWidth 16 }) s)
def execDxTxa (q : SeqId) (s : State) : Host.Outcome State Fault Refusal :=
  .next (dxReg q 1 1 (fun r => { r with a := r.x.setWidth 8 }) s)
def execDxTya (q : SeqId) (s : State) : Host.Outcome State Fault Refusal :=
  .next (dxReg q 1 1 (fun r => { r with a := r.y.setWidth 8 }) s)
def execDxTsx (q : SeqId) (s : State) : Host.Outcome State Fault Refusal :=
  .next (dxReg q 1 1 (fun r => { r with x := r.sp }) s)
def execDxTxs (q : SeqId) (s : State) : Host.Outcome State Fault Refusal :=
  .next (dxReg q 1 1 (fun r => { r with sp := r.x }) s)
def execDxXxy (q : SeqId) (s : State) : Host.Outcome State Fault Refusal :=
  .next (dxReg q 1 1 (fun r => { r with x := r.y, y := r.x }) s)

/-! Loads and stores. -/

/-- A load into A or B from a memory operand. -/
def dxLoad8 (q : SeqId) (len cyc : Nat) (addr : Seq → BitVec 16) (f : Byte → Seq → Seq) (s : State) : State :=
  dxInstr q len cyc (fun s =>
    match dxRead q (addr (s.seq q.val)) s with
    | .error e => .error e
    | .ok (m, s1) => .ok (onSeq q (f m) s1)) s

/-- A store of a byte, and what else the form changes. -/
def dxStore8 (q : SeqId) (len cyc : Nat) (addr : Seq → BitVec 16) (v : Seq → Byte) (f : Seq → Seq) (s : State) : State :=
  dxInstr q len cyc (fun s =>
    match dxWrite q (addr (s.seq q.val)) (v (s.seq q.val)) s with
    | .error e => .error e
    | .ok s1 => .ok (onSeq q f s1)) s

/-- A load of 16 bits from a memory operand. -/
def dxLoad16 (q : SeqId) (len cyc : Nat) (addr : Seq → BitVec 16) (f : BitVec 16 → Seq → Seq) (s : State) : State :=
  dxInstr q len cyc (fun s =>
    match dxRead16 q (addr (s.seq q.val)) s with
    | .error e => .error e
    | .ok (m, s1) => .ok (onSeq q (f m) s1)) s

/-- A store of 16 bits. -/
def dxStore16 (q : SeqId) (len cyc : Nat) (addr : BitVec 16) (v : Seq → BitVec 16) (s : State) : State :=
  dxInstr q len cyc (fun s => dxWrite16 q addr (v (s.seq q.val)) s) s

def execDxLda (q : SeqId) (src : LdaSrc) (s : State) : Host.Outcome State Fault Refusal :=
  .next (match src with
    | .imm n => dxReg q 2 2 (fun r => { r with a := n }) s
    | .dir d => dxLoad8 q 2 2 (fun _ => dirAddr d) (fun m r => { r with a := m }) s
    | .abs a => dxLoad8 q 3 3 (fun _ => a) (fun m r => { r with a := m }) s
    | .ix d => dxLoad8 q 2 2 (fun r => ixAddr r d) (fun m r => { r with a := m }) s
    | .iy d => dxLoad8 q 2 2 (fun r => iyAddr r d) (fun m r => { r with a := m }) s
    | .xinc => dxLoad8 q 1 2 (fun r => r.x) (fun m r => { r with a := m, x := r.x + 1 }) s)

def execDxSta (q : SeqId) (dst : StaDst) (s : State) : Host.Outcome State Fault Refusal :=
  .next (match dst with
    | .dir d => dxStore8 q 2 2 (fun _ => dirAddr d) (fun r => r.a) id s
    | .abs a => dxStore8 q 3 3 (fun _ => a) (fun r => r.a) id s
    | .ix d => dxStore8 q 2 2 (fun r => ixAddr r d) (fun r => r.a) id s
    | .iy d => dxStore8 q 2 2 (fun r => iyAddr r d) (fun r => r.a) id s
    | .xinc => dxStore8 q 1 2 (fun r => r.x) (fun r => r.a) (fun r => { r with x := r.x + 1 }) s)

/-- An instruction whose operand is a byte of one of the arithmetic forms, and what it makes of it. -/
def dxAlu (q : SeqId) (src : AluSrc) (cyc : Nat) (f : Byte → Seq → Seq) (s : State) : State :=
  dxInstr q src.len cyc (fun s =>
    match src.read q s with
    | .error e => .error e
    | .ok (m, s1) => .ok (onSeq q (f m) s1)) s

def execDxLdb (q : SeqId) (src : LdbSrc) (s : State) : Host.Outcome State Fault Refusal :=
  .next (dxAlu q src.alu src.alu.base (fun m r => { r with b := m }) s)
def execDxStb (q : SeqId) (dst : MemDax) (s : State) : Host.Outcome State Fault Refusal :=
  .next (dxStore8 q (1 + dst.len) (2 + dst.extra) dst.addr (fun r => r.b) id s)
def execDxLdx (q : SeqId) (src : LdxSrc) (s : State) : Host.Outcome State Fault Refusal :=
  .next (match src with
    | .imm n => dxReg q 3 3 (fun r => { r with x := n }) s
    | .dir d => dxLoad16 q 2 3 (fun _ => dirAddr d) (fun m r => { r with x := m }) s
    | .abs a => dxLoad16 q 3 4 (fun _ => a) (fun m r => { r with x := m }) s
    | .iy d => dxLoad16 q 2 3 (fun r => iyAddr r d) (fun m r => { r with x := m }) s)
def execDxLdy (q : SeqId) (src : LdySrc) (s : State) : Host.Outcome State Fault Refusal :=
  .next (match src with
    | .imm n => dxReg q 3 3 (fun r => { r with y := n }) s
    | .dir d => dxLoad16 q 2 3 (fun _ => dirAddr d) (fun m r => { r with y := m }) s
    | .abs a => dxLoad16 q 3 4 (fun _ => a) (fun m r => { r with y := m }) s
    | .ix d => dxLoad16 q 2 3 (fun r => ixAddr r d) (fun m r => { r with y := m }) s)
def execDxLdct (q : SeqId) (src : LdctSrc) (s : State) : Host.Outcome State Fault Refusal :=
  .next (match src with
    | .imm n => dxReg q 3 3 (fun r => { r with ct := n }) s
    | .dir d => dxLoad16 q 2 3 (fun _ => dirAddr d) (fun m r => { r with ct := m }) s)
def execDxLdsp (q : SeqId) (n : BitVec 16) (s : State) : Host.Outcome State Fault Refusal :=
  .next (dxReg q 3 3 (fun r => { r with sp := n }) s)
def execDxStx (q : SeqId) (dst : MemDa) (s : State) : Host.Outcome State Fault Refusal :=
  .next (dxStore16 q (1 + dst.len) (3 + dst.extra) dst.addr (fun r => r.x) s)
def execDxSty (q : SeqId) (dst : MemDa) (s : State) : Host.Outcome State Fault Refusal :=
  .next (dxStore16 q (1 + dst.len) (3 + dst.extra) dst.addr (fun r => r.y) s)
def execDxStct (q : SeqId) (d : Byte) (s : State) : Host.Outcome State Fault Refusal :=
  .next (dxStore16 q 2 3 (dirAddr d) (fun r => r.ct) s)

/-! Arithmetic, logic and comparisons (R375, R377). -/

def execDxAdd (q : SeqId) (src : AluSrc) (s : State) : Host.Outcome State Fault Refusal :=
  .next (dxAlu q src src.base (fun m r => { r with a := (add8 r.a m false).1, b := (add8 r.a m false).2 }) s)
def execDxSub (q : SeqId) (src : AluSrc) (s : State) : Host.Outcome State Fault Refusal :=
  .next (dxAlu q src src.base (fun m r => { r with a := (sub8 r.a m false).1, b := (sub8 r.a m false).2 }) s)
def execDxAdc (q : SeqId) (src : AdcSrc) (s : State) : Host.Outcome State Fault Refusal :=
  .next (dxAlu q src.alu 2 (fun m r => { r with a := (add8 r.a m (truth r.b)).1, b := (add8 r.a m (truth r.b)).2 }) s)
def execDxSbc (q : SeqId) (src : AdcSrc) (s : State) : Host.Outcome State Fault Refusal :=
  .next (dxAlu q src.alu 2 (fun m r => { r with a := (sub8 r.a m (truth r.b)).1, b := (sub8 r.a m (truth r.b)).2 }) s)
def execDxAnd (q : SeqId) (src : AluSrc) (s : State) : Host.Outcome State Fault Refusal :=
  .next (dxAlu q src src.base (fun m r => { r with a := r.a &&& m }) s)
def execDxOr (q : SeqId) (src : AluSrc) (s : State) : Host.Outcome State Fault Refusal :=
  .next (dxAlu q src src.base (fun m r => { r with a := r.a ||| m }) s)
def execDxXor (q : SeqId) (src : AluSrc) (s : State) : Host.Outcome State Fault Refusal :=
  .next (dxAlu q src src.base (fun m r => { r with a := r.a ^^^ m }) s)
def execDxCeq (q : SeqId) (src : AluSrc) (s : State) : Host.Outcome State Fault Refusal :=
  .next (dxAlu q src src.base (fun m r => { r with b := flag (r.a == m) }) s)
def execDxCltu (q : SeqId) (src : AluSrc) (s : State) : Host.Outcome State Fault Refusal :=
  .next (dxAlu q src src.base (fun m r => { r with b := flag (r.a.ult m) }) s)
def execDxClts (q : SeqId) (src : AluSrc) (s : State) : Host.Outcome State Fault Refusal :=
  .next (dxAlu q src src.base (fun m r => { r with b := flag (r.a.slt m) }) s)

/-! Memory operands (R372, R375). -/

/-- A read-modify-write instruction. -/
def dxRmw (q : SeqId) (len cyc : Nat) (addr : Seq → BitVec 16) (f : Seq → Byte → Byte × (Seq → Seq)) (s : State) : State :=
  dxInstr q len cyc (fun s => dxModify q (addr (s.seq q.val)) (f (s.seq q.val)) s) s

def execDxInc (q : SeqId) (dst : MemDax) (s : State) : Host.Outcome State Fault Refusal :=
  .next (dxRmw q (1 + dst.len) (3 + dst.extra) dst.addr (fun _ m => ((inc8 m).1, fun r => { r with b := (inc8 m).2 })) s)
def execDxDec (q : SeqId) (dst : MemDax) (s : State) : Host.Outcome State Fault Refusal :=
  .next (dxRmw q (1 + dst.len) (3 + dst.extra) dst.addr (fun _ m => ((dec8 m).1, fun r => { r with b := (dec8 m).2 })) s)
def execDxClr (q : SeqId) (dst : MemDax) (s : State) : Host.Outcome State Fault Refusal :=
  .next (dxStore8 q (1 + dst.len) (2 + dst.extra) dst.addr (fun _ => 0) id s)
def execDxTst (q : SeqId) (src : MemDax) (s : State) : Host.Outcome State Fault Refusal :=
  .next (dxLoad8 q (1 + src.len) (2 + src.extra) src.addr (fun m r => { r with b := flag (m == 0) }) s)
def execDxNeg (q : SeqId) (s : State) : Host.Outcome State Fault Refusal :=
  .next (dxReg q 1 1 (fun r => { r with a := (neg8 r.a).1, b := (neg8 r.a).2 }) s)
def execDxNot (q : SeqId) (s : State) : Host.Outcome State Fault Refusal :=
  .next (dxReg q 1 1 (fun r => { r with a := ~~~r.a }) s)
def execDxInca (q : SeqId) (s : State) : Host.Outcome State Fault Refusal :=
  .next (dxReg q 1 1 (fun r => { r with a := (inc8 r.a).1, b := (inc8 r.a).2 }) s)
def execDxDeca (q : SeqId) (s : State) : Host.Outcome State Fault Refusal :=
  .next (dxReg q 1 1 (fun r => { r with a := (dec8 r.a).1, b := (dec8 r.a).2 }) s)

/-! Shifts, multiply and divide (R375, R378, R379). -/

def execDxShl (q : SeqId) (src : ImmDir) (s : State) : Host.Outcome State Fault Refusal :=
  .next (dxAlu q src.alu 2 (fun m r => { r with a := (shl8 r.a m).1, b := (shl8 r.a m).2 }) s)
def execDxShr (q : SeqId) (src : ImmDir) (s : State) : Host.Outcome State Fault Refusal :=
  .next (dxAlu q src.alu 2 (fun m r => { r with a := (shr8 r.a m).1, b := (shr8 r.a m).2 }) s)
def execDxAsr (q : SeqId) (src : ImmDir) (s : State) : Host.Outcome State Fault Refusal :=
  .next (dxAlu q src.alu 2 (fun m r => { r with a := (asr8 r.a m).1, b := (asr8 r.a m).2 }) s)
/-- See assumption 19, DEDUCED. -/
def execDxRol (q : SeqId) (src : ImmDir) (s : State) : Host.Outcome State Fault Refusal :=
  .next (dxAlu q src.alu 2 (fun m r => { r with a := (rol8 r.a m).1, b := (rol8 r.a m).2 }) s)
def execDxMul (q : SeqId) (src : ImmDir) (s : State) : Host.Outcome State Fault Refusal :=
  .next (dxAlu q src.alu 3 (fun m r => { r with x := (mul8 r.a m).1, b := (mul8 r.a m).2 }) s)

/-- DIV; with ARITH_TRAP 1 its two edges raise ARITH after the result is written (R379): PC then stands past the
instruction, or inside a REP at the prefix with CT still counting this iteration. -/
def execDxDiv (q : SeqId) (src : ImmDir) (s : State) : Host.Outcome State Fault Refusal :=
  .next (
    if !seqReady q s then s
    else
      match fetchDenied q s with
      | some e => dxFault q e s
      | none =>
        let pc := (s.seq q.val).pc
        let s1 := onSeq q (fun sq => ({ sq with pc := pc + 2 }).advance (10 + fetchCost q sq)) s
        match src.alu.read q s1 with
        | .error e => dxFault q e s
        | .ok (m, s2) =>
          let d := div8 (s2.seq q.val).x m
          let s3 := onSeq q (fun r => { r with a := d.1, x := d.2.1, b := d.2.2 }) s2
          if d.2.2 = 1 ∧ (s3.seq q.val).ctl.getLsbD 0 = true then dxFault q { cause := 7 } s3
          else onSeq q (dxRetire pc) s3)

/-! Control flow. -/

/-- A relative branch from the next instruction, when a condition holds: 3 cycles taken, 2 not. -/
def dxBranch (q : SeqId) (r : Byte) (taken : Seq → Bool) (f : Seq → Seq) (s : State) : State :=
  dxInstr q 2 2 (fun s =>
    .ok (onSeq q (fun t =>
      let t := f t
      if taken t then ({ t with pc := t.pc + r.signExtend 16 }).advance 1 else t) s)) s

def execDxBra (q : SeqId) (r : Byte) (s : State) : Host.Outcome State Fault Refusal :=
  .next (dxBranch q r (fun _ => true) id s)
def execDxBt (q : SeqId) (r : Byte) (s : State) : Host.Outcome State Fault Refusal :=
  .next (dxBranch q r (fun t => truth t.b) id s)
def execDxBf (q : SeqId) (r : Byte) (s : State) : Host.Outcome State Fault Refusal :=
  .next (dxBranch q r (fun t => !truth t.b) id s)
def execDxDbnz (q : SeqId) (r : Byte) (s : State) : Host.Outcome State Fault Refusal :=
  .next (dxBranch q r (fun t => t.ct != 0) (fun t => { t with ct := t.ct - 1 }) s)
def execDxJmp (q : SeqId) (dst : JmpDst) (s : State) : Host.Outcome State Fault Refusal :=
  .next (match dst with
    | .abs a => dxReg q 3 2 (fun t => { t with pc := a }) s
    | .x => dxReg q 1 2 (fun t => { t with pc := t.x }) s)

/-- JSR pushes the address of the next instruction and jumps. -/
def dxCall (q : SeqId) (len : Nat) (target : Seq → BitVec 16) (s : State) : State :=
  dxInstr q len 4 (fun s =>
    match dxPush16 q (s.seq q.val).pc s with
    | .error e => .error e
    | .ok s1 => .ok (onSeq q (fun t => { t with pc := target t }) s1)) s

def execDxJsr (q : SeqId) (dst : JmpDst) (s : State) : Host.Outcome State Fault Refusal :=
  .next (match dst with
    | .abs a => dxCall q 3 (fun _ => a) s
    | .x => dxCall q 1 (fun t => t.x) s)
def execDxRts (q : SeqId) (s : State) : Host.Outcome State Fault Refusal :=
  .next (dxInstr q 1 4 (fun s =>
    match dxPop16 q s with
    | .error e => .error e
    | .ok (pc, s1) => .ok (onSeq q (fun t => { t with pc := pc }) s1)) s)

/-! Index registers. -/

def execDxInx (q : SeqId) (s : State) : Host.Outcome State Fault Refusal :=
  .next (dxReg q 1 1 (fun r => { r with x := r.x + 1 }) s)
def execDxDex (q : SeqId) (s : State) : Host.Outcome State Fault Refusal :=
  .next (dxReg q 1 1 (fun r => { r with x := r.x - 1 }) s)
def execDxIny (q : SeqId) (s : State) : Host.Outcome State Fault Refusal :=
  .next (dxReg q 1 1 (fun r => { r with y := r.y + 1 }) s)
def execDxDey (q : SeqId) (s : State) : Host.Outcome State Fault Refusal :=
  .next (dxReg q 1 1 (fun r => { r with y := r.y - 1 }) s)
def execDxAdx (q : SeqId) (src : AdxSrc) (s : State) : Host.Outcome State Fault Refusal :=
  .next (match src with
    | .imm n => dxReg q 2 1 (fun r => { r with x := r.x + n.signExtend 16 }) s
    | .a => dxReg q 1 1 (fun r => { r with x := r.x + r.a.setWidth 16 }) s)
def execDxAdy (q : SeqId) (n : Byte) (s : State) : Host.Outcome State Fault Refusal :=
  .next (dxReg q 2 1 (fun r => { r with y := r.y + n.signExtend 16 }) s)
def execDxCpx (q : SeqId) (n : BitVec 16) (s : State) : Host.Outcome State Fault Refusal :=
  .next (dxReg q 3 2 (fun r => { r with b := flag (r.x == n) }) s)
def execDxCpy (q : SeqId) (n : BitVec 16) (s : State) : Host.Outcome State Fault Refusal :=
  .next (dxReg q 3 2 (fun r => { r with b := flag (r.y == n) }) s)

/-! The stack (R380). -/

def execDxPush (q : SeqId) (r : StackReg) (s : State) : Host.Outcome State Fault Refusal :=
  .next (dxInstr q 1 (if r.is8 then 2 else 3) (fun s =>
    let v := r.val (s.seq q.val)
    if r.is8 then dxPush8 q (v.setWidth 8) s else dxPush16 q v s) s)
def execDxPop (q : SeqId) (r : StackReg) (s : State) : Host.Outcome State Fault Refusal :=
  .next (dxInstr q 1 (if r.is8 then 2 else 3) (fun s =>
    if r.is8 then
      match dxPop8 q s with
      | .error e => .error e
      | .ok (v, s1) => .ok (onSeq q (r.set (v.setWidth 16)) s1)
    else
      match dxPop16 q s with
      | .error e => .error e
      | .ok (v, s1) => .ok (onSeq q (r.set v) s1)) s)

/-! Moves. -/

/-- A byte copied from one address to another. -/
def dxCopy (q : SeqId) (len cyc : Nat) (dst src : Seq → BitVec 16) (f : Seq → Seq) (s : State) : State :=
  dxInstr q len cyc (fun s =>
    match dxRead q (src (s.seq q.val)) s with
    | .error e => .error e
    | .ok (m, s1) =>
      match dxWrite q (dst (s.seq q.val)) m s1 with
      | .error e => .error e
      | .ok s2 => .ok (onSeq q f s2)) s

def execDxMov (q : SeqId) (f : MovForm) (s : State) : Host.Outcome State Fault Refusal :=
  .next (match f with
    | .dir dst src => dxCopy q 3 3 (fun _ => dirAddr dst) (fun _ => dirAddr src) id s
    | .abs dst src => dxCopy q 5 5 (fun _ => dst) (fun _ => src) id s
    | .inc => dxCopy q 1 2 (fun r => r.x) (fun r => r.y) (fun r => { r with x := r.x + 1, y := r.y + 1 }) s)

/-- Whether four bytes from an address are one aligned register word: MOVW then makes one 32-bit access (R371, R375). -/
def movwWord (q : SeqId) (sq : Seq) (a : BitVec 16) : Option Nat :=
  match dxPlace q sq a with
  | .io off => if off % 4 = 0 then some off else none
  | .winReg off => if off % 4 = 0 then some off else none
  | _ => none

/-- The check of the four bytes of a MOVW side. -/
def movwCheck (q : SeqId) (a : BitVec 16) (write : Bool) (s : State) : Except DxErr DxPlace :=
  match dxCheck q a write s, dxCheck q (a + 1) write s, dxCheck q (a + 2) write s, dxCheck q (a + 3) write s with
  | .ok p, .ok _, .ok _, .ok _ => .ok p
  | .error e, _, _, _ => .error e
  | _, .error e, _, _ => .error e
  | _, _, .error e, _ => .error e
  | _, _, _, .error e => .error e

/-- Four bytes read as one access (R375, R376). (Assumption 17, DEDUCED.) -/
def movwRead (q : SeqId) (a : BitVec 16) (s : State) : Except DxErr (Word × State) :=
  match movwCheck q a false s with
  | .error e => .error e
  | .ok p =>
    match movwWord q (s.seq q.val) a with
    | some off =>
      let r := busRead (seqReader q) off s
      .ok (r.1, addCycles q (p.cost false) r.2)
    | none =>
      let r0 := placeRead q (dxPlace q (s.seq q.val) a) s
      let r1 := placeRead q (dxPlace q (s.seq q.val) (a + 1)) r0.2
      let r2 := placeRead q (dxPlace q (s.seq q.val) (a + 2)) r1.2
      let r3 := placeRead q (dxPlace q (s.seq q.val) (a + 3)) r2.2
      .ok (r3.1 ++ r2.1 ++ r1.1 ++ r0.1, addCycles q (p.cost false) r3.2)

/-- Four bytes written as one access (R375, R376). (Assumption 17, DEDUCED.) -/
def movwWrite (q : SeqId) (a : BitVec 16) (v : Word) (s : State) : Except DxErr State :=
  match movwCheck q a true s with
  | .error e => .error e
  | .ok p =>
    match movwWord q (s.seq q.val) a with
    | some off => .ok (addCycles q (p.cost true) (busWrite (seqReader q) off v s))
    | none =>
      let s1 := placeWrite q (dxPlace q (s.seq q.val) a) (wordByte v 0) s
      let s2 := placeWrite q (dxPlace q (s.seq q.val) (a + 1)) (wordByte v 1) s1
      let s3 := placeWrite q (dxPlace q (s.seq q.val) (a + 2)) (wordByte v 2) s2
      .ok (addCycles q (p.cost true) (placeWrite q (dxPlace q (s.seq q.val) (a + 3)) (wordByte v 3) s3))

def execDxMovw (q : SeqId) (s : State) : Host.Outcome State Fault Refusal :=
  .next (dxInstr q 1 5 (fun s =>
    match movwRead q (s.seq q.val).y s with
    | .error e => .error e
    | .ok (v, s1) =>
      match movwWrite q (s.seq q.val).x v s1 with
      | .error e => .error e
      | .ok s2 => .ok (onSeq q (fun r => { r with x := r.x + 4, y := r.y + 4 }) s2)) s)
def execDxXch (q : SeqId) (d : Byte) (s : State) : Host.Outcome State Fault Refusal :=
  .next (dxRmw q 2 3 (fun _ => dirAddr d) (fun sq m => (sq.a, fun r => { r with a := m })) s)
def execDxAddm (q : SeqId) (dst : MemDx) (s : State) : Host.Outcome State Fault Refusal :=
  .next (dxRmw q 2 3 dst.addr (fun sq m => ((add8 m sq.a false).1, fun r => { r with b := (add8 m sq.a false).2 })) s)
def execDxSubm (q : SeqId) (dst : MemDx) (s : State) : Host.Outcome State Fault Refusal :=
  .next (dxRmw q 2 3 dst.addr (fun sq m => ((sub8 m sq.a false).1, fun r => { r with b := (sub8 m sq.a false).2 })) s)
def execDxAndm (q : SeqId) (dst : MemDx) (s : State) : Host.Outcome State Fault Refusal :=
  .next (dxRmw q 2 3 dst.addr (fun sq m => (m &&& sq.a, id)) s)
def execDxOrm (q : SeqId) (dst : MemDx) (s : State) : Host.Outcome State Fault Refusal :=
  .next (dxRmw q 2 3 dst.addr (fun sq m => (m ||| sq.a, id)) s)
def execDxXorm (q : SeqId) (dst : MemDx) (s : State) : Host.Outcome State Fault Refusal :=
  .next (dxRmw q 2 3 dst.addr (fun sq m => (m ^^^ sq.a, id)) s)

/-! Bit operations; a bit byte with bits [7:3] nonzero is an illegal opcode (R391). -/

def execDxBtst (q : SeqId) (src : MemDax) (bit : Byte) (s : State) : Host.Outcome State Fault Refusal :=
  .next (dxInstr q (2 + src.len) (2 + src.extra) (fun s =>
    if 8 ≤ bit.toNat then .error { cause := 1 }
    else
      match dxRead q (src.addr (s.seq q.val)) s with
      | .error e => .error e
      | .ok (m, s1) => .ok (onSeq q (fun r => { r with b := flag (m.getLsbD bit.toNat) }) s1)) s)

/-- BSET and BCLR: the bit's previous value in B. -/
def dxBitWrite (q : SeqId) (dst : MemDax) (bit : Byte) (f : Byte → Byte) (s : State) : State :=
  dxInstr q (2 + dst.len) (3 + dst.extra) (fun s =>
    if 8 ≤ bit.toNat then .error { cause := 1 }
    else dxModify q (dst.addr (s.seq q.val)) (fun m => (f m, fun r => { r with b := flag (m.getLsbD bit.toNat) })) s) s

def execDxBset (q : SeqId) (dst : MemDax) (bit : Byte) (s : State) : Host.Outcome State Fault Refusal :=
  .next (dxBitWrite q dst bit (fun m => m ||| (1#8 <<< bit.toNat)) s)
def execDxBclr (q : SeqId) (dst : MemDax) (bit : Byte) (s : State) : Host.Outcome State Fault Refusal :=
  .next (dxBitWrite q dst bit (fun m => m &&& ~~~(1#8 <<< bit.toNat)) s)

/-! The repeat prefix (R381, R385, R386). -/

/-- Length in bytes of the instruction with an opcode byte and the byte after it (R373, R374). -/
def opLength (op fn : Nat) : Nat :=
  if op < 0x02 then 1
  else if op = 0x02 then 2
  else if op < 0x10 then 1
  else if op < 0x20 then (if op = 0x12 ∨ op = 0x16 ∨ op = 0x1B ∨ op = 0x1E then 3 else 2)
  else if op < 0x30 then
    (if op = 0x20 ∨ op = 0x22 ∨ op = 0x23 ∨ op = 0x25 ∨ op = 0x27 ∨ op = 0x29 ∨ op = 0x2A ∨ op = 0x2D then 3 else 2)
  else if op < 0x60 then 2
  else if op < 0x64 then 1
  else if op < 0x70 then 2
  else if op < 0x74 then 2
  else if op = 0x74 ∨ op = 0x76 ∨ op = 0x7F then 3
  else if op = 0x7C ∨ op = 0x7D then 2
  else if op < 0x8A then 1
  else if op = 0x8A then 3
  else if op = 0x8B then 5
  else if op = 0x8E then 2
  else if op < 0x90 then 1
  else if op < 0x9A then 2
  else if op < 0xA0 then 3
  else if 0xA8 ≤ op ∧ op ≤ 0xAA then 4
  else if op < 0xB0 then 3
  else if op < 0xE0 then 1
  else if op = 0xE0 then
    (let o := fn % 64
     if o < 2 then 2
     else if o = 0x02 ∨ o = 0x03 ∨ o = 0x0B ∨ o = 0x0C ∨ (0x0D ≤ o ∧ o ≤ 0x11) ∨ o = 0x16 ∨ o = 0x17 ∨ o = 0x25 ∨ o = 0x26 then 4
     else if o = 0x05 ∨ o = 0x20 then 5
     else if o ≤ 0x26 ∧ ¬(0x18 ≤ o ∧ o ≤ 0x1F) then 3 else 2)
  else if op = 0xE2 then (if fn = 0x20 then 3 else 2)
  else if op < 0xF0 then 2
  else if op < 0xF4 then 2
  else 1

/-- Opcodes that must not follow a repeat prefix (R381). -/
def repForbids (op : Nat) : Bool :=
  op == 0x2A || op == 0x2B || op == 0x89 || (decide (0x70 ≤ op) && decide (op ≤ 0x77)) || op == 0x01 ||
  op == 0xF4 || op == 0xF2 || op == 0xF3 || op == 0xFB || op == 0xF7 || op == 0x02 || op == 0x03

/-- REP: the count into CT unless RR resumes it, the following instruction looked at; a count of 0 skips it. -/
def execDxRep (q : SeqId) (src : RepSrc) (s : State) : Host.Outcome State Fault Refusal :=
  .next (
    if !seqReady q s then s
    else
      match fetchDenied q s with
      | some e => dxFault q e s
      | none =>
        let sq := s.seq q.val
        let len := match src with
          | .imm _ => 2
          | .ct => 1
        let nextPc := sq.pc + BitVec.ofNat 16 len
        let op := (fetchByte q nextPc s).toNat
        if repForbids op then dxFault q { cause := 2 } s
        else
          let rr := sq.mode.getLsbD 6
          let ct := if rr then sq.ct else match src with
            | .imm n => n.setWidth 16
            | .ct => sq.ct
          let pc' := if ct = 0 then nextPc + BitVec.ofNat 16 (opLength op (fetchByte q (nextPc + 1) s).toNat) else nextPc
          onSeq q (fun t => ({ t with
            ct := ct, pc := pc', mode := t.mode &&& 0xBF,
            rep := if ct = 0 then none else some (sq.pc, true) }).advance (1 + fetchCost q sq)) s)

/-! Special registers (R393, R394). -/

/-- Low or high byte of a 16-bit special register. -/
def half (v : BitVec 16) (hi : Bool) : BitVec 8 := if hi then (v >>> 8).setWidth 8 else v.setWidth 8

/-- A 16-bit special register with one half written. -/
def setHalf (v : BitVec 16) (hi : Bool) (b : BitVec 8) : BitVec 16 :=
  if hi then b ++ (v.setWidth 8) else (v >>> 8).setWidth 8 ++ b

/-- All pending inputs as IPEND shows them: the latched bits and the level inputs asserted now (R383). -/
def ipendNow (q : SeqId) (s : State) : BitVec 16 :=
  (List.range 14).foldl (fun v i => if inputPending q.val i s then v ||| (1#16 <<< i) else v) (s.seq q.val).ipend

/-- The value of a readable special register and the sequencer after the read; CYC is a latch group of its own (R394). -/
def specialRead (q : SeqId) (n : Nat) (s : State) : BitVec 8 × (Seq → Seq) :=
  let sq := s.seq q.val
  match n with
  | 0 => (sq.mode, id)
  | 1 => (sq.ctl, id)
  | 2 => (half sq.imask false, id)
  | 3 => (half sq.imask true ||| 0xC0, id)
  | 4 => (half (ipendNow q s) false, id)
  | 5 => (half (ipendNow q s) true, id)
  | 6 => (sq.bank.setWidth 8, id)
  | 7 => (((sq.bank >>> 8).setWidth 8), id)
  | 8 => (sq.aper.setWidth 8, id)
  | 9 => (if q.val = 10 then sq.rsel.setWidth 8 else 0, id)
  | 10 => (half sq.splim false, id)
  | 11 => (half sq.splim true, id)
  | 12 => (sq.fcause, id)
  | 13 => (half sq.faddr false, id)
  | 14 => (half sq.faddr true, id)
  | 15 => (half sq.tmr false, id)
  | 16 => (half sq.tmr true, id)
  | 17 => (BitVec.ofNat 8 q.val, id)
  | 18 => (sq.cyc.setWidth 8, fun t => { t with cycCap := some sq.cyc })
  | 19 => (((sq.cycCap.getD sq.cyc) >>> 8).setWidth 8, id)
  | 20 => (((sq.cycCap.getD sq.cyc) >>> 16).setWidth 8, id)
  | 21 => (((sq.cycCap.getD sq.cyc) >>> 24).setWidth 8, fun t => { t with cycCap := none })
  | 22 => (if q.val = 10 then half sq.ventry false else 0, id)
  | _ => (if q.val = 10 then half sq.ventry true else 0, id)

def execDxMfs (q : SeqId) (sr : Byte) (s : State) : Host.Outcome State Fault Refusal :=
  .next (dxInstr q 2 2 (fun s1 =>
    if 24 ≤ sr.toNat then .error { cause := 1 }
    else
      let r := specialRead q sr.toNat s
      .ok (onSeq q (fun t => { r.2 t with a := r.1 }) s1)) s)

/-- The timer's reload written; a stopped counter takes it up (assumption 21). -/
def setTmr (sq : Seq) (v : BitVec 16) : Seq :=
  { sq with tmr := v, timer := if sq.timer = 0 then v else sq.timer }

/-- What an MTS of A to a special register does, once its rights are checked. (Assumption 22, DEDUCED.) -/
def specialWrite (q : SeqId) (n : Nat) (sq : Seq) : Seq :=
  match n with
  | 0 => { sq with mode := sq.a &&& 0xE3 }
  | 1 => if !sq.ctl.getLsbD 1 && sq.a.getLsbD 1 then { sq with ctl := sq.a &&& 3, timer := sq.tmr, presc := 0 }
         else { sq with ctl := sq.a &&& 3 }
  | 2 => { sq with imask := setHalf sq.imask false sq.a }
  | 3 => { sq with imask := setHalf sq.imask true (sq.a &&& 0x3F) }
  | 6 => { sq with bank := (sq.bank >>> 8).setWidth 2 ++ sq.a }
  | 7 => { sq with bank := (sq.a.setWidth 2) ++ (sq.bank.setWidth 8) }
  | 8 => { sq with aper := sq.a.setWidth 3 }
  | 9 => if q.val = 10 ∧ sq.a.toNat ≤ 9 then { sq with rsel := sq.a.setWidth 4 } else sq
  | 10 => { sq with splim := setHalf sq.splim false sq.a }
  | 11 => { sq with splim := setHalf sq.splim true sq.a }
  | 15 => setTmr sq (setHalf sq.tmr false sq.a)
  | 16 => setTmr sq (setHalf sq.tmr true sq.a)
  | 22 => { sq with ventry := setHalf sq.ventry false sq.a }
  | 23 => { sq with ventry := setHalf sq.ventry true sq.a }
  | _ => sq

/-- Whether an MTS raises PRIV (R393, R394): any but BANK, APER and RSEL from Ring mode; a MODE that would raise PRIV or set
FLT; VENTRY outside Vault mode. -/
def mtsDenied (n : Nat) (sq : Seq) : Bool :=
  (sq.priv == 0 && !(n == 6 || n == 7 || n == 8 || n == 9)) ||
  (n == 0 && (decide (sq.priv < sq.a.toNat % 4) || (sq.a.getLsbD 5 && !sq.mode.getLsbD 5))) ||
  ((n == 22 || n == 23) && sq.priv != 2)

def execDxMts (q : SeqId) (sr : Byte) (s : State) : Host.Outcome State Fault Refusal :=
  .next (dxInstr q 2 2 (fun s =>
    if 24 ≤ sr.toNat then .error { cause := 1 }
    else if mtsDenied sr.toNat (s.seq q.val) then .error { cause := 3 }
    else .ok (onSeq q (specialWrite q sr.toNat) s)) s)

/-! Calls and returns (R386, R390). -/

/-- SVC: vector 14 with the number in A; the pushed PC is the address after it. -/
def execDxSvc (q : SeqId) (n : Byte) (s : State) : Host.Outcome State Fault Refusal :=
  .next (
    if !seqReady q s then s
    else
      match fetchDenied q s with
      | some e => dxFault q e s
      | none =>
        let sq := s.seq q.val
        let s1 := onSeq q (fun t => ({ t with a := n, pc := sq.pc + 2 }).advance (fetchCost q sq)) s
        vectorEntry q 14 (sq.pc + 2) false s1)

/-- VCALL: on SQM from Supervisor or Vault mode, the frame of R385, PRIV Vault, PC from VENTRY. (Assumption 22, DEDUCED.) -/
def execDxVcall (q : SeqId) (n : Byte) (s : State) : Host.Outcome State Fault Refusal :=
  .next (
    if !seqReady q s then s
    else
      match fetchDenied q s with
      | some e => dxFault q e s
      | none =>
        let sq := s.seq q.val
        if q.val ≠ 10 then dxFault q { cause := 1 } s
        else if sq.priv = 0 then dxFault q { cause := 3 } s
        else
          match pushFrame q (sq.pc + 2) sq.mode sq.b s with
          | .error _ => doubleFault q s
          | .ok s1 =>
            onSeq q (fun t => ({ t with
              mode := mkMode false false (sq.mode.getLsbD 5) 2, a := n,
              pc := t.ventry }).advance (6 + fetchCost q sq)) s1)

/-- RTI pops B, MODE and PC; a popped PRIV above the current one raises PRIV and changes nothing; RR stays only when the
instruction at the popped PC is a REP prefix. -/
def execDxRti (q : SeqId) (s : State) : Host.Outcome State Fault Refusal :=
  .next (dxInstr q 1 6 (fun s =>
    match dxPop8 q s with
    | .error e => .error e
    | .ok (b, s1) =>
      match dxPop8 q s1 with
      | .error e => .error e
      | .ok (m, s2) =>
        match dxPop16 q s2 with
        | .error e => .error e
        | .ok (pc, s3) =>
          if (s.seq q.val).priv < m.toNat % 4 then .error { cause := 3 }
          else
            let op := (fetchByte q pc s3).toNat
            let m' := if op = 0x02 ∨ op = 0x03 then m &&& 0xE3 else m &&& 0xA3
            .ok (onSeq q (fun t => { t with b := b, mode := m', pc := pc }) s3)) s)

/-- EI and DI; from Ring mode they raise PRIV (R393). -/
def dxSetIe (q : SeqId) (ie : Bool) (s : State) : State :=
  dxInstr q 1 1 (fun s =>
    if (s.seq q.val).priv = 0 then .error { cause := 3 }
    else .ok (onSeq q (fun t => { t with mode := if ie then t.mode ||| 0x80 else t.mode &&& 0x7F }) s)) s

def execDxEi (q : SeqId) (s : State) : Host.Outcome State Fault Refusal := .next (dxSetIe q true s)
def execDxDi (q : SeqId) (s : State) : Host.Outcome State Fault Refusal := .next (dxSetIe q false s)
def execDxWait (q : SeqId) (s : State) : Host.Outcome State Fault Refusal :=
  .next (dxReg q 1 1 (fun t => { t with run := .wait }) s)

/-- The inputs that end a WAIT or may be taken: pending and enabled by IMASK, 0 to 13 (R384, R387). -/
def enabledInputs (q : SeqId) (s : State) : BitVec 16 := ipendNow q s &&& (s.seq q.val).imask &&& 0x3FFF

/-- WAIT ends when an enabled input is pending (R387). -/
def execDxWaitWake (q : SeqId) (s : State) : Host.Outcome State Fault Refusal :=
  .next (if (s.seq q.val).run = .wait ∧ enabledInputs q s ≠ 0 then onSeq q (fun t => { t with run := .run }) s else s)
def execDxSetb (q : SeqId) (s : State) : Host.Outcome State Fault Refusal :=
  .next (dxReg q 1 1 (fun r => { r with b := 1 }) s)
def execDxClrb (q : SeqId) (s : State) : Host.Outcome State Fault Refusal :=
  .next (dxReg q 1 1 (fun r => { r with b := 0 }) s)
def execDxNotb (q : SeqId) (s : State) : Host.Outcome State Fault Refusal :=
  .next (dxReg q 1 1 (fun r => { r with b := flag (!truth r.b) }) s)

/-- BRK halts for the debug port when DBG_BRK is 1 and the debug level permits halting; else BREAK, with the next
instruction's address pushed (R388, R391). -/
def execDxBrk (q : SeqId) (s : State) : Host.Outcome State Fault Refusal :=
  .next (
    if !seqReady q s then s
    else
      match fetchDenied q s with
      | some e => dxFault q e s
      | none =>
        let s1 := onSeq q (fun t => ({ t with pc := t.pc + 1 }).advance (1 + fetchCost q t)) s
        if s.bit (F.SQ_CTRL_DBG_BRK q.val) && haltPermitted s then onSeq q (fun t => { t with dbgHalt := true }) s1
        else dxFault q { cause := 8 } s1)

/-! Interrupts, faults, the timer, mailboxes. -/

/-- Whether the sequencer stands at a boundary where an input may be taken: not between a prefix and its first iteration. -/
def atBoundary (sq : Seq) : Bool :=
  match sq.rep with
  | some (_, fresh) => !fresh
  | none => true

/-- An input from 0 to 13 is taken when it is the lowest of the enabled pending inputs, IE is 1 and the sequencer is at a
boundary; a latched input's bit clears (R383 to R385). -/
def execDxInterruptEntry (q : SeqId) (input : Fin 16) (s : State) : Host.Outcome State Fault Refusal :=
  .next (
    let sq := s.seq q.val
    let en := enabledInputs q s
    if seqReady q s && sq.mode.getLsbD 7 && atBoundary sq && en.getLsbD input.val &&
        (List.range input.val).all (fun i => !en.getLsbD i) then
      vectorEntry q input.val (boundaryPc sq).1 (boundaryPc sq).2
        (onSeq q (fun t => { t with ipend := t.ipend &&& ~~~(1#16 <<< input.val) }) s)
    else s)

/-- The command the code at PC spells; none where that code is reserved (R373, R374). (Assumption 20, DESIGN CHOICE.) -/
def dxAt (q : SeqId) (s : State) : Option DxRead :=
  let at_ := fun n => fetchByte q ((s.seq q.val).pc + BitVec.ofNat 16 n) s
  dxCode q (at_ 0).toNat (at_ 1) (at_ 2) (at_ 3) (at_ 4)

/-- The fault of the reserved code at PC (R374, R391): detail 0x01 from a coprocessor the sequencer has, whose function is
reserved (R401); ILLEGAL_OPCODE from any other. A code that spells a command faults here with nothing: that command's row
acts on it. (Assumption 20, DESIGN CHOICE.) -/
def codeFault (q : SeqId) (s : State) : State :=
  match fetchDenied q s, dxAt q s with
  | some e, _ => dxFault q e s
  | none, some _ => s
  | none, none =>
    let cp := (fetchByte q (s.seq q.val).pc s).toNat - 0xE0
    let escape := 0xE0 ≤ (fetchByte q (s.seq q.val).pc s).toNat ∧ cp < 3
    if escape ∧ copPresent q cp then dxFault q { cause := 9, detail := some (cp, 1) } s
    else dxFault q { cause := 1 } s

/-- A fault that arises outside the rows of the instructions: a reserved code, an escape to an absent coprocessor or a
reserved function, read from the bytes at PC, and any other cause by its name (R391). (Assumption 20, DESIGN CHOICE.) -/
def execDxFaultEntry (q : SeqId) (cause : DxCause) (addr : Option (BitVec 16)) (s : State) : Host.Outcome State Fault Refusal :=
  .next (if seqReady q s then
      match cause with
      | .illegalOpcode => codeFault q s
      | .coproc => codeFault q s
      | _ => dxFault q { cause := cause.code, addr := addr } s
    else s)

/-- The timer reached 0: input 12 is set and the counter reloads (R389). (Assumption 21, DEDUCED.) -/
def execDxTimer (q : SeqId) (s : State) : Host.Outcome State Fault Refusal :=
  .next (
    let sq := s.seq q.val
    if sq.ctl.getLsbD 1 && sq.tmr != 0 && sq.timer == 0 then
      onSeq q (fun t => { t with ipend := t.ipend ||| 0x1000, timer := t.tmr }) s
    else s)

end Sys2Proof.Machine
end

