-- ==== Sys2Proof/Machine/Copro.lean ====
section
/-! DEFINITION. The coprocessors of the DX-8 sequencers (R399 to R415): the loop coprocessor CP0 with its wide registers and the
discriminators of R154, the orbit unit port CP1, and the hash engine port CP2 with its jobs. -/
namespace Sys2Proof.Machine

/-! The escape (R399 to R402). -/

/-- A COPROC fault with its detail code (R401). -/
def copErr (cp detail : Nat) : DxErr := { cause := 9, detail := some (cp, detail) }

/-- The three regions an operand block may lie in (R400); the vector table's own addresses are private RAM (R367). (Assumption 18, DEDUCED.) -/
def copRegion (n : Nat) : Nat :=
  if n < 0x8000 then 1 else if 0x9000 ≤ n ∧ n < 0xA000 then 2 else if 0xA000 ≤ n ∧ n < 0xC000 then 3
  else if 0xFFE0 ≤ n ∧ n < 0x10000 then 4 else 0

/-- A block lies wholly in one region. -/
def copFits (a n : Nat) : Bool := copRegion a != 0 && copRegion a == copRegion (a + n - 1)

/-- The check of `n` bytes from an address, in order: the first denied one is reported (R400). (Assumption 18, DEDUCED.) -/
def copDenied (q : SeqId) (write : Bool) (s : State) : BitVec 16 → Nat → Option DxErr
  | _, 0 => none
  | a, n + 1 =>
    match dxCheck q a write s with
    | .error e => some e
    | .ok _ => copDenied q write s (a + 1) n

/-- The check of an operand block of `n` bytes at an address which must be a multiple of `al` (R400, R401). (Assumption 126, DEDUCED.) -/
def copBlock (q : SeqId) (cp : Nat) (a : BitVec 16) (n al : Nat) (write : Bool) (s : State) : Except DxErr Nat :=
  if !copFits a.toNat n || a.toNat % al != 0 then .error (copErr cp 3)
  else
    match copDenied q write s a n with
    | some e => .error e
    | none => .ok ((dxPlace q (s.seq q.val) a).cost write)

/-- The bytes of an operand block. -/
def copBytes (q : SeqId) (a : BitVec 16) (s : State) (n : Nat) : List Byte :=
  (List.range n).map (fun i => (placeRead q (dxPlace q (s.seq q.val) (a + BitVec.ofNat 16 i)) s).1)

/-- An operand block written. -/
def copPut (q : SeqId) (a : BitVec 16) (bs : List Byte) (s : State) : State :=
  bs.zipIdx.foldl (fun s (p : Byte × Nat) => placeWrite q (dxPlace q (s.seq q.val) (a + BitVec.ofNat 16 p.2)) p.1 s) s

/-- An operand block read: its bytes and the state with the surcharge (R399). -/
def copRead (q : SeqId) (cp : Nat) (a : BitVec 16) (n al : Nat) (s : State) : Except DxErr (List Byte × State) :=
  match copBlock q cp a n al false s with
  | .error e => .error e
  | .ok c => .ok (copBytes q a s n, addCycles q c s)

/-- An operand block written, with the surcharge (R399). -/
def copWrite (q : SeqId) (cp : Nat) (a : BitVec 16) (bs : List Byte) (s : State) : Except DxErr State :=
  match copBlock q cp a bs.length 1 true s with
  | .error e => .error e
  | .ok c => .ok (addCycles q c (copPut q a bs s))


/-- An escape with `k` operand bytes and the function's cycles: absent coprocessors raise ILLEGAL_OPCODE (R401). -/
def copInstr (q : SeqId) (cp k cyc : Nat) (body : State → Except DxErr State) (s : State) : State :=
  dxInstr q (2 + k) (2 + cyc) (fun s => if copPresent q cp then body s else .error { cause := 1 }) s

/-- VER (R402): number, major 1, minor 0, features 0. -/
def copVer (q : SeqId) (cp : Nat) (s : State) : Except DxErr State :=
  copWrite q cp (s.seq q.val).x [BitVec.ofNat 8 cp, 1, 0, 0] s

/-- STAT (R402): the detail code into A. -/
def copStat (q : SeqId) (cp : Nat) (s : State) : Except DxErr State :=
  .ok (onSeq q (fun t => { t with a := BitVec.ofNat 8 (Sparse.get (fun _ => 0) t.cpStat cp) }) s)

/-! CP0: the wide registers (R403 to R408). -/

/-- The width of a mode. -/
def wWidth : WideMode → Nat
  | .u32 => 32
  | .s32 => 32
  | .u48 => 48
  | .s48 => 48

/-- The signedness of a mode. -/
def wSigned : WideMode → Bool
  | .u32 => false
  | .s32 => true
  | .u48 => false
  | .s48 => true

/-- The destination of operand byte r. -/
def rDst (r : Byte) : Nat := r.toNat / 16

/-- The source of operand byte r. -/
def rSrc (r : Byte) : Nat := r.toNat % 16

/-- A wide register. -/
def Seq.w (sq : Seq) (i : Nat) : BitVec 48 := Sparse.get (fun _ => 0) sq.wide i

/-- A wide register replaced. -/
def Seq.setW (sq : Seq) (i : Nat) (v : BitVec 48) : Seq := { sq with wide := Sparse.put (fun _ => 0) sq.wide i v }

/-- A function of CP0: its modes, whether r has a source, a further check on the operands, and the effect on the issuing
sequencer. (Assumption 126, DEDUCED.) -/
def wideFn (q : SeqId) (k cyc : Nat) (modes : Bool) (r : Byte) (src ok : Bool) (f : Seq → Seq) (s : State) : State :=
  copInstr q 0 k cyc (fun s =>
    if !modes then .error (copErr 0 1)
    else if (!src && rSrc r != 0) || !ok then .error (copErr 0 2)
    else .ok (onSeq q f s)) s

/-- A two-operand function whose exact result is narrowed; B says the result did not fit (R404, R405). -/
def wideArith (q : SeqId) (m : WideMode) (k cyc : Nat) (r : Byte) (ok : Bool) (f : Int → Int → Int) (s : State) : State :=
  wideFn q k cyc true r true ok (fun t =>
    let i := f (wideVal (wWidth m) (wSigned m) (t.w (rDst r))) (wideVal (wWidth m) (wSigned m) (t.w (rSrc r)))
    { t.setW (rDst r) (wideOf (wWidth m) (wSigned m) i) with b := flag (!wideFits (wWidth m) (wSigned m) i) }) s

/-- A function of one source with its B. -/
def wideUnary (q : SeqId) (k : Nat) (modes : Bool) (r : Byte) (f : BitVec 48 → BitVec 48 × Bool) (s : State) : State :=
  wideFn q k 1 modes r true true (fun t =>
    { t.setW (rDst r) (f (t.w (rSrc r))).1 with b := flag (f (t.w (rSrc r))).2 }) s

/-- A comparison: B only. -/
def wideCompare (q : SeqId) (m : WideMode) (r : Byte) (f : Int → Int → Bool) (s : State) : State :=
  wideFn q 1 1 true r true true (fun t =>
    { t with b := flag (f (wideVal (wWidth m) (wSigned m) (t.w (rDst r))) (wideVal (wWidth m) (wSigned m) (t.w (rSrc r)))) }) s

/-- A choice between the two registers, without B. -/
def widePick (q : SeqId) (m : WideMode) (r : Byte) (f : Int → Int → Int) (s : State) : State :=
  wideFn q 1 1 true r true true (fun t =>
    t.setW (rDst r) (wideOf (wWidth m) (wSigned m)
      (f (wideVal (wWidth m) (wSigned m) (t.w (rDst r))) (wideVal (wWidth m) (wSigned m) (t.w (rSrc r)))))) s

def execCp0Ver (q : SeqId) (m : WideMode) (s : State) : Host.Outcome State Fault Refusal :=
  .next (copInstr q 0 0 1 (fun s => if m = .u32 then copVer q 0 s else .error (copErr 0 1)) s)
def execCp0Stat (q : SeqId) (m : WideMode) (s : State) : Host.Outcome State Fault Refusal :=
  .next (copInstr q 0 0 1 (fun s => if m = .u32 then copStat q 0 s else .error (copErr 0 1)) s)

def execCp0Ld (q : SeqId) (m : WideMode) (r d8 : Byte) (s : State) : Host.Outcome State Fault Refusal :=
  .next (copInstr q 0 2 2 (fun s =>
    if rSrc r ≠ 0 then .error (copErr 0 2)
    else
      match copRead q 0 (ixAddr (s.seq q.val) d8) ((wWidth m) / 8) 1 s with
      | .error e => .error e
      | .ok (bs, s1) => .ok (onSeq q (fun t => t.setW (rDst r) (wideOf (wWidth m) (wSigned m) (leNat bs : Nat))) s1)) s)
def execCp0St (q : SeqId) (m : WideMode) (r d8 : Byte) (s : State) : Host.Outcome State Fault Refusal :=
  .next (copInstr q 0 2 2 (fun s =>
    if rSrc r ≠ 0 then .error (copErr 0 2)
    else copWrite q 0 (ixAddr (s.seq q.val) d8) (leBytes ((wWidth m) / 8) ((s.seq q.val).w (rDst r)).toNat) s) s)

def execCp0Mov (q : SeqId) (m : WideMode) (r : Byte) (s : State) : Host.Outcome State Fault Refusal :=
  .next (wideFn q 1 1 true r true true (fun t =>
    t.setW (rDst r) (wideOf (wWidth m) (wSigned m) (wideVal (wWidth m) (wSigned m) (t.w (rSrc r))))) s)
def execCp0Ldi (q : SeqId) (m : WideMode) (r : Byte) (n : BitVec 16) (s : State) : Host.Outcome State Fault Refusal :=
  .next (wideFn q 3 1 true r false true (fun t => t.setW (rDst r) (wideOf (wWidth m) (wSigned m) n.toInt)) s)
def execCp0Add (q : SeqId) (m : WideMode) (r : Byte) (s : State) : Host.Outcome State Fault Refusal :=
  .next (wideArith q m 1 1 r true (fun a b => a + b) s)
def execCp0Sub (q : SeqId) (m : WideMode) (r : Byte) (s : State) : Host.Outcome State Fault Refusal :=
  .next (wideArith q m 1 1 r true (fun a b => a - b) s)
def execCp0Neg (q : SeqId) (m : WideMode) (r : Byte) (s : State) : Host.Outcome State Fault Refusal :=
  .next (wideUnary q 1 (wSigned m) r (wideNeg (wWidth m)) s)
def execCp0Abs (q : SeqId) (m : WideMode) (r : Byte) (s : State) : Host.Outcome State Fault Refusal :=
  .next (wideUnary q 1 (wSigned m) r (wideAbs (wWidth m)) s)
def execCp0Mul (q : SeqId) (m : WideMode) (r : Byte) (s : State) : Host.Outcome State Fault Refusal :=
  .next (wideArith q m 1 3 r true (fun a b => a * b) s)
def execCp0Mulq (q : SeqId) (m : WideMode) (r sh : Byte) (s : State) : Host.Outcome State Fault Refusal :=
  .next (wideArith q m 2 4 r (decide (sh.toNat ≤ 95)) (fun a b => a * b / 2 ^ sh.toNat) s)

/-- DIV writes the remainder first and the quotient second (R408). -/
def execCp0Div (q : SeqId) (m : WideMode) (r t : Byte) (s : State) : Host.Outcome State Fault Refusal :=
  .next (wideFn q 2 (if (wWidth m) = 32 then 12 else 18) true r true (decide (t.toNat < 16)) (fun sq =>
    let d := wideDiv (wWidth m) (wSigned m) (sq.w (rDst r)) (sq.w (rSrc r))
    { (sq.setW t.toNat d.2.1).setW (rDst r) d.1 with b := flag d.2.2 }) s)

def execCp0Shl (q : SeqId) (m : WideMode) (r n : Byte) (s : State) : Host.Outcome State Fault Refusal :=
  .next (wideUnary q 2 true r (fun v => wideShl (wWidth m) (wSigned m) v n.toNat) s)
def execCp0Shr (q : SeqId) (m : WideMode) (r n : Byte) (s : State) : Host.Outcome State Fault Refusal :=
  .next (wideUnary q 2 true r (fun v => wideShr (wWidth m) (wSigned m) v n.toNat) s)
def execCp0Asr (q : SeqId) (m : WideMode) (r n : Byte) (s : State) : Host.Outcome State Fault Refusal :=
  .next (wideUnary q 2 true r (fun v => wideAsr (wWidth m) (wSigned m) v n.toNat) s)
/-- See assumption 19, DEDUCED. -/
def execCp0Rol (q : SeqId) (m : WideMode) (r n : Byte) (s : State) : Host.Outcome State Fault Refusal :=
  .next (wideUnary q 2 true r (fun v => wideRol (wWidth m) (wSigned m) v n.toNat) s)
def execCp0Ror (q : SeqId) (m : WideMode) (r n : Byte) (s : State) : Host.Outcome State Fault Refusal :=
  .next (wideUnary q 2 true r (fun v => wideRor (wWidth m) (wSigned m) v n.toNat) s)
def execCp0Clt (q : SeqId) (m : WideMode) (r : Byte) (s : State) : Host.Outcome State Fault Refusal :=
  .next (wideCompare q m r (fun a b => decide (a < b)) s)
def execCp0Ceq (q : SeqId) (m : WideMode) (r : Byte) (s : State) : Host.Outcome State Fault Refusal :=
  .next (wideCompare q m r (fun a b => decide (a = b)) s)
def execCp0Min (q : SeqId) (m : WideMode) (r : Byte) (s : State) : Host.Outcome State Fault Refusal :=
  .next (widePick q m r (fun a b => if a ≤ b then a else b) s)
def execCp0Max (q : SeqId) (m : WideMode) (r : Byte) (s : State) : Host.Outcome State Fault Refusal :=
  .next (widePick q m r (fun a b => if a ≤ b then b else a) s)

def execCp0Toa (q : SeqId) (m : WideMode) (r k : Byte) (s : State) : Host.Outcome State Fault Refusal :=
  .next (wideFn q 2 1 (m == .u32) r false (decide (k.toNat ≤ 5)) (fun t =>
    { t with a := ((t.w (rDst r)) >>> (8 * k.toNat)).setWidth 8 }) s)
def execCp0Froma (q : SeqId) (m : WideMode) (r k : Byte) (s : State) : Host.Outcome State Fault Refusal :=
  .next (wideFn q 2 1 (m == .u32) r false (decide (k.toNat ≤ 5)) (fun t =>
    t.setW (rDst r) (BitVec.ofNat 48 (insertBits (t.w (rDst r)).toNat (8 * k.toNat + 7) (8 * k.toNat) t.a.toNat))) s)

/-! The discriminators (R154, R409). -/

/-- A quotient rounded to the nearest whole number, ties away from zero. -/
def roundAway (num : Int) (den : Nat) : Int :=
  let m : Nat := (2 * num.natAbs + den) / (2 * den)
  if num < 0 then -(m : Int) else m

/-- A tap of a dump record: I and Q. -/
def tapOf (rec : List Byte) (k : Nat) : Int × Int :=
  (toSigned 32 (leAt rec (8 + 8 * k) 4), toSigned 32 (leAt rec (12 + 8 * k) 4))

/-- |T|² of a tap. -/
def tapPower (t : Int × Int) : Nat := (t.1 * t.1 + t.2 * t.2).toNat

/-- The number of fraction bits the angle is worked out in. -/
abbrev angWork : Nat := 320

/-- A complex number scaled so that its greater part has about `angWork` bits. -/
def angScale (re im : Int) : Int × Int :=
  let n := Nat.log2 (max re.natAbs im.natAbs)
  if n ≤ angWork then (re * 2 ^ (angWork - n), im * 2 ^ (angWork - n))
  else (Int.tdiv re (2 ^ (n - angWork)), Int.tdiv im (2 ^ (n - angWork)))

/-- The first `n` binary digits of the angle of a number in turns, in [0, 1): the half turn it lies in, then the same of
the number squared. -/
def angBits : Nat → Int → Int → Nat → Nat
  | 0, _, _, acc => acc
  | n + 1, re, im, acc =>
    let bit := if im < 0 ∨ (im = 0 ∧ re < 0) then 1 else 0
    let z := angScale (re * re - im * im) (2 * re * im)
    angBits n z.1 z.2 (2 * acc + bit)

/-- The angle of (re, im) in 2^-97 turn, signed, in (-1/2, 1/2]: the digits of the angle of (re, |im|) with the sign of im.
The squares of the rational multiples of an eighth are exact, so ties are. -/
def angTurns (re im : Int) : Int :=
  let z := angScale re im.natAbs
  let a : Int := angBits 97 z.1 z.2 0
  if im < 0 then -a else a

/-- atan(y / x) in 2^-97 turn, in [-1/4, 1/4]. (Assumption 127, DEDUCED.) -/
def atanTurns (x y : Int) : Int := if x < 0 then angTurns (-x) (-y) else angTurns x y

/-- DLL_EL in 2^-16 chip: (|L| - |E|) / (|L| + |E|) as (A + B - 2√(AB)) / (B - A) of the powers. -/
def dllEl (e l k he : Nat) : Option Int :=
  if e + l = 0 ∨ k = 0 ∨ 256 ≤ k * he then none
  else if e = l then some 0
  else
    let r := Nat.sqrt (e * l * 2 ^ 256)
    let num : Int := 65536 * (256 - k * he : Nat) * ((e + l) * 2 ^ 128 - 2 * r : Nat)
    let den : Nat := 256 * k * (max e l - min e l) * 2 ^ 128
    some (roundAway (if l < e then -num else num) den)

/-- An average updated: truncated, 64 bits (R409). (Assumption 128, DEDUCED.) -/
def avgStep (avg x a : Nat) : Nat := (avg * 2 ^ a + x - avg) / 2 ^ a % 2 ^ 64

/-- What a discriminator finds from its record, from its second record, and from its state and shift: the result, none
when it is invalid, and the state to write back. -/
structure DiscOut where
  result : Option Int
  state : List Byte := []
deriving DecidableEq, Repr

/-- PLL_C in 2^-32 cycle. (Assumption 127, DEDUCED.) -/
def pllC (rec : List Byte) : DiscOut :=
  let p := tapOf rec 2
  ⟨if p.1 = 0 ∧ p.2 = 0 then none else some (roundAway (atanTurns p.1 p.2) (2 ^ 65)), []⟩

/-- PLL_A in 2^-32 cycle; an angle of exactly half a cycle is -0.5 (R154's range). (Assumption 127, DEDUCED.) -/
def pllA (rec : List Byte) : DiscOut :=
  let p := tapOf rec 2
  ⟨if p.1 = 0 ∧ p.2 = 0 then none
   else if p.2 = 0 ∧ p.1 < 0 then some (-2147483648)
   else some (roundAway (angTurns p.1 p.2) (2 ^ 65)), []⟩

/-- The older and the newer of two records, where their SEQ are consecutive (R409). -/
def fllOrder (r0 r1 : List Byte) : Option (List Byte × List Byte) :=
  let a := leAt r0 4 2
  let b := leAt r1 4 2
  if b = (a + 1) % 65536 then some (r0, r1) else if a = (b + 1) % 65536 then some (r1, r0) else none

/-- An FLL discriminator in 2^-12 Hz, T in µs. -/
def fll (full : Bool) (r0 r1 : List Byte) (t : Nat) : DiscOut :=
  match fllOrder r0 r1 with
  | none => ⟨none, []⟩
  | some (o, n) =>
    let a := tapOf o 2
    let b := tapOf n 2
    let x := a.1 * b.2 - b.1 * a.2
    let d := a.1 * b.1 + a.2 * b.2
    if (x = 0 ∧ d = 0) ∨ t = 0 then ⟨none, []⟩
    else ⟨some (roundAway ((if full then angTurns d x else atanTurns d x) * 4096000000) (t * 2 ^ 97)), []⟩

/-- CN0_MB in 0.01 dB-Hz. (Assumption 128, DEDUCED.) -/
def cn0Mb (rec st : List Byte) (t a : Nat) : DiscOut :=
  let p := avgStep (leAt st 0 8) (tapPower (tapOf rec 2)) a
  let n := avgStep (leAt st 8 8) (tapPower (tapOf rec 6)) a
  if n = 0 ∨ t = 0 then ⟨none, []⟩
  else ⟨some (if p ≤ n then 0 else (centiDb ((p - n) * 1000000) (n * t) : Nat)), leBytes 8 p ++ leBytes 8 n⟩

/-- PLI in 2^-15, held at +1 - 2^-15. (Assumption 128, DEDUCED.) -/
def pliOf (rec st : List Byte) (a : Nat) : DiscOut :=
  let p := tapOf rec 2
  let i := avgStep (leAt st 0 8) (p.1 * p.1).toNat a
  let k := avgStep (leAt st 8 8) (p.2 * p.2).toNat a
  if i + k = 0 then ⟨none, []⟩
  else ⟨some (min 32767 (roundAway (((i : Int) - k) * 32768) (i + k))), leBytes 8 i ++ leBytes 8 k⟩

/-- A discriminator's result into Wd: 0 with B 1 when it is invalid. -/
def discPut (q : SeqId) (r : Byte) (res : Option Int) (s : State) : State :=
  onSeq q (fun t => { t.setW (rDst r) (wideOf 48 true (res.getD 0)) with b := flag res.isNone }) s

/-- A discriminator of `k` operand bytes: the checks in the order mode, operands, blocks; then its effect on a record at X. (Assumption 126, DEDUCED.) -/
def discFn (q : SeqId) (m : WideMode) (k cyc : Nat) (r : Byte) (src ok : Bool)
    (f : List Byte → State → Except DxErr State) (s : State) : State :=
  copInstr q 0 k cyc (fun s =>
    if m ≠ .u32 then .error (copErr 0 1)
    else if (!src && rSrc r != 0) || !ok then .error (copErr 0 2)
    else
      match copRead q 0 (s.seq q.val).x 64 64 s with
      | .error e => .error e
      | .ok (rec, s1) => f rec s1) s

def execCp0DllEl (q : SeqId) (m : WideMode) (r k he : Byte) (s : State) : Host.Outcome State Fault Refusal :=
  .next (discFn q m 3 24 r false (decide (k.toNat ≤ 15) && decide (he.toNat ≤ 127)) (fun rec s =>
    .ok (discPut q r (dllEl (tapPower (tapOf rec 1)) (tapPower (tapOf rec 3)) k.toNat he.toNat) s)) s)
def execCp0PllC (q : SeqId) (m : WideMode) (r : Byte) (s : State) : Host.Outcome State Fault Refusal :=
  .next (discFn q m 1 20 r false true (fun rec s => .ok (discPut q r (pllC rec).result s)) s)

/-- PLL_A: an angle below half a cycle that rounds to it lies outside the stated range, so its result is a free value
(assumption 10). -/
def execCp0PllA (q : SeqId) (m : WideMode) (r : Byte) (s : State) : Host.Outcome State Fault Refusal :=
  .next (discFn q m 1 20 r false true (fun rec s =>
    if (pllA rec).result = some 2147483648 then .ok (discPut q r (some (s.draw.1 : Nat)) s.draw.2)
    else .ok (discPut q r (pllA rec).result s)) s)

/-- The two records of an FLL function; it costs one access more than its records (R409). -/
def fllFn (q : SeqId) (full : Bool) (r : Byte) (rec : List Byte) (s : State) : Except DxErr State :=
  match copRead q 0 ((s.seq q.val).x + 64) 64 64 s with
  | .error e => .error e
  | .ok (rec1, s1) =>
    .ok (addCycles q ((dxPlace q (s1.seq q.val) (s1.seq q.val).x).cost false)
      (discPut q r (fll full rec rec1 (((s1.seq q.val).w (rSrc r)).toNat % 2 ^ 32)).result s1))

def execCp0FllC (q : SeqId) (m : WideMode) (r : Byte) (s : State) : Host.Outcome State Fault Refusal :=
  .next (discFn q m 1 30 r true true (fllFn q false r) s)
def execCp0FllA (q : SeqId) (m : WideMode) (r : Byte) (s : State) : Host.Outcome State Fault Refusal :=
  .next (discFn q m 1 30 r true true (fllFn q true r) s)

/-- The functions with a state at Y: read, and written back unless the result is invalid. -/
def avgFn (q : SeqId) (r : Byte) (f : List Byte → Seq → DiscOut) (s : State) : Except DxErr State :=
  let y := (s.seq q.val).y
  match copRead q 0 y 16 1 s with
  | .error e => .error e
  | .ok (st, s1) =>
    match copBlock q 0 y 16 1 true s1 with
    | .error e => .error e
    | .ok _ =>
      let o := f st (s1.seq q.val)
      .ok (discPut q r o.result (if o.result.isNone then s1 else copPut q y o.state s1))

def execCp0Cn0Mb (q : SeqId) (m : WideMode) (r a : Byte) (s : State) : Host.Outcome State Fault Refusal :=
  .next (discFn q m 2 36 r true (decide (a.toNat ≤ 15)) (fun rec s =>
    avgFn q r (fun st t => cn0Mb rec st ((t.w (rSrc r)).toNat % 2 ^ 32) a.toNat) s) s)
def execCp0Pli (q : SeqId) (m : WideMode) (r a : Byte) (s : State) : Host.Outcome State Fault Refusal :=
  .next (discFn q m 2 22 r false (decide (a.toNat ≤ 15)) (fun rec s => avgFn q r (fun st _ => pliOf rec st a.toNat) s) s)

/-! CP1: the orbit unit port (R410). -/

def execCp1Ver (q : SeqId) (s : State) : Host.Outcome State Fault Refusal := .next (copInstr q 1 0 1 (copVer q 1) s)
def execCp1Stat (q : SeqId) (s : State) : Host.Outcome State Fault Refusal := .next (copInstr q 1 0 1 (copStat q 1) s)

/-- An orbit function: the instant at X, the output at Y, zeros with B 1 where it has none. -/
def orbitFn (q : SeqId) (n cyc : Nat) (slot : State → Nat → List Byte)
    (f : Nat → List Byte → Nat → State → Option (List Byte)) (s : State) : State :=
  copInstr q 1 0 cyc (fun s =>
    let i := (s.seq q.val).a.toNat
    match copRead q 1 (s.seq q.val).x 8 1 s with
    | .error e => .error e
    | .ok (tb, s1) =>
      let t := s1.widen (leNat tb)
      let b := slot s1 i
      let out := if i ≤ 220 ∧ slotUsable b t = true then f i b t s1 else none
      match copWrite q 1 (s1.seq q.val).y (out.getD (List.replicate n 0)) s1 with
      | .error e => .error e
      | .ok s2 => .ok (onSeq q (fun r => { r with b := flag out.isNone }) s2)) s

/-- The 48 bytes of EVAL. -/
def orbitBytes (i : Nat) (b : List Byte) (t : Nat) (s : State) : List Byte :=
  ((orbitWords i b t s).map (fun w => leBytes 4 w.toNat)).flatten

/-- See assumption 31, DESIGN CHOICE. -/
def execCp1Eval (q : SeqId) (s : State) : Host.Outcome State Fault Refusal :=
  .next (orbitFn q 48 20 skySlot (fun i b t s => some (orbitBytes i b t s)) s)
def execCp1Evalp (q : SeqId) (s : State) : Host.Outcome State Fault Refusal :=
  .next (orbitFn q 48 20 (fun s i => Sparse.get (fun _ => emptySlot) s.sky.pend i)
    (fun i b t s => some (orbitBytes i b t s)) s)
def execCp1Elaz (q : SeqId) (s : State) : Host.Outcome State Fault Refusal :=
  .next (orbitFn q 4 24 skySlot (fun i b t s => (refPos s).map (fun pos =>
    let z := slotLook i b t pos s
    leBytes 2 (ofSigned 16 z.1) ++ leBytes 2 z.2.1)) s)

/-! CP2: the hash engine port (R411 to R414). -/

def execCp2Ver (q : SeqId) (s : State) : Host.Outcome State Fault Refusal := .next (copInstr q 2 0 1 (copVer q 2) s)
def execCp2Stat (q : SeqId) (s : State) : Host.Outcome State Fault Refusal := .next (copInstr q 2 0 1 (copStat q 2) s)

/-- The CP2 job on a lane. -/
def hashJob (s : State) (lane : Nat) : Option HashJob := Sparse.get (fun _ => none) s.hash lane

/-- The CP2 job on a lane replaced. -/
def setHashJob (lane : Nat) (j : Option HashJob) (s : State) : State :=
  { s with hash := Sparse.put (fun _ => none) s.hash lane j }

/-- SQM's number. -/
abbrev sqmId : SeqId := 10

/-- A local block is open to the engine at SQM's rights (R400, R412). -/
def localOpen (a n : Nat) (write : Bool) (s : State) : Bool :=
  n == 0 || (copFits a n && (copDenied sqmId write s (BitVec.ofNat 16 a) n).isNone)

/-- A job that ends with ST_FORMAT without reading any data (R412). (Assumption 129, DEDUCED.) -/
def hashRefused (d : List Byte) (s : State) : Bool :=
  let op := leAt d 0 1
  let outlen := leAt d 1 1
  let keylen := leAt d 3 1
  let src := leAt d 8 4
  let len := leAt d 12 4
  decide (2 < op) || decide (1 < leAt d 2 1) || leAt d 17 3 != 0 || leAt d 24 8 != 0 || decide (32 < outlen) ||
    decide (64 < keylen) || (op == 2 && decide (outlen < 4)) ||
    (if leAt d 2 1 = 1 then decide (65536 < src + len) || !localOpen src len false s
     else decide (0x4000000 < src + len) || (len != 0 && !rangeOpen .sqm src len false s)) ||
    (op != 0 && !localOpen (leAt d 4 2) keylen false s) || !localOpen (leAt d 6 2) outlen (op != 2) s

/-- A free lane for a CP2 job: the lowest, while fewer than three hold one (R411). (Assumption 173, DESIGN CHOICE.) -/
def freeLane (s : State) : Option Nat :=
  let used := (List.range 4).filter (fun l => (hashJob s l).isSome)
  if 3 ≤ used.length then none else (List.range 4).find? (fun l => (hashJob s l).isNone)

/-- A device read of a job that the protection unit denies is recorded at submission (R412, R516). -/
def hashRecord (d : List Byte) (s : State) : State :=
  if leAt d 2 1 = 0 ∧ leAt d 12 4 ≠ 0 then rangeRecord .sqm (leAt d 8 4) (leAt d 12 4) false s else s

/-- See assumption 129, DEDUCED. (Assumption 173, DESIGN CHOICE.) -/
def execCp2Submit (q : SeqId) (s : State) : Host.Outcome State Fault Refusal :=
  .next (copInstr q 2 0 4 (fun s =>
    let x := (s.seq q.val).x
    match copRead q 2 x 32 1 s with
    | .error e => .error e
    | .ok (d, s1) =>
      match freeLane s1 with
      | none => .ok (onSeq q (fun t => { t with b := 1 }) s1)
      | some l => .ok (onSeq q (fun t => { t with a := BitVec.ofNat 8 l, b := 0 })
          (setHashJob l (some { desc := x, bytes := d, refused := hashRefused d s1 }) (hashRecord d s1)))) s)

/-- A function on lane A: a number above 3 raises detail 0x02 (R413). -/
def laneFn (q : SeqId) (f : Nat → State → State) (s : State) : State :=
  copInstr q 2 0 1 (fun s =>
    let l := (s.seq q.val).a.toNat
    if 3 < l then .error (copErr 2 2) else .ok (f l s)) s

def execCp2Poll (q : SeqId) (s : State) : Host.Outcome State Fault Refusal :=
  .next (laneFn q (fun l s => onSeq q (fun t => { t with b := flag (hashJob s l).isSome }) s) s)
def execCp2Abort (q : SeqId) (s : State) : Host.Outcome State Fault Refusal :=
  .next (laneFn q (fun l s => match hashJob s l with
    | some j => setHashJob l (some { j with abort := true }) s
    | none => s) s)

/-- VERDICT (R414): the monitor takes it at the next epoch. (Assumption 126, DEDUCED.) -/
def execCp2Verdict (q : SeqId) (v : Byte) (s : State) : Host.Outcome State Fault Refusal :=
  .next (copInstr q 2 1 1 (fun s =>
    let sq := s.seq q.val
    let i := sq.a.toNat
    if sq.priv = 0 then .error { cause := 3 }
    else if v ≠ 1 ∧ v ≠ 2 then .error (copErr 2 2)
    else if i < 32 ∨ 67 < i then .error (copErr 2 4)
    else .ok { s with fsm := { s.fsm with osnma := s.fsm.osnma.filter (fun e => e.1 != i) ++ [(i, v == 1)] } }) s)

/-- The message of a job. -/
def hashMessage (d : List Byte) (s : State) : List Byte :=
  if leAt d 2 1 = 1 then copBytes sqmId (BitVec.ofNat 16 (leAt d 8 4)) s (leAt d 12 4)
  else (List.range (leAt d 12 4)).map (fun i => (mapReadByte .sqm (leAt d 8 4 + i) s).1)

/-- Blocks a job processes: an HMAC adds the two key blocks and the outer digest's (R412). (Assumption 129, DEDUCED.) -/
def hashBlocks (d : List Byte) : Nat :=
  if leAt d 0 1 = 0 then shaBlockCount (leAt d 12 4) else shaBlockCount (leAt d 12 4 + 64) + 2

/-- A job ends: STATUS and BLOCKS in its descriptor, EV_103, its lane free (R413). -/
def hashEnd (lane : Nat) (j : HashJob) (status blocks : Nat) (s : State) : State :=
  let s := copPut sqmId (j.desc + 16) [BitVec.ofNat 8 status] s
  let s := copPut sqmId (j.desc + 20) (leBytes 4 blocks) s
  raise 103 (setHashJob lane none s)

/-- A job's work, done. -/
def hashWork (lane : Nat) (j : HashJob) (s : State) : State :=
  let d := j.bytes
  let key := copBytes sqmId (BitVec.ofNat 16 (leAt d 4 2)) s (leAt d 3 1)
  let msg := hashMessage d s
  let n := leAt d 1 1
  let out := BitVec.ofNat 16 (leAt d 6 2)
  let dig := (if leAt d 0 1 = 0 then sha256 msg else hmac256 key msg).take n
  if leAt d 0 1 = 2 then hashEnd lane j (if dig == copBytes sqmId out s n then ST.ok else ST.auth) (hashBlocks d) s
  else hashEnd lane j ST.ok (hashBlocks d) (copPut sqmId out dig s)

/-- A lane's CP2 job ends after `done` blocks: aborted at a block boundary before its last, or complete (R413). (Assumption 129, DEDUCED.) (Assumption 173, DESIGN CHOICE.) -/
def execCp2JobDone (lane : Fin 4) (done : Word) (s : State) : Host.Outcome State Fault Refusal :=
  .next (match hashJob s lane.val with
    | none => s
    | some j =>
      if j.refused then hashEnd lane.val j ST.format 0 s
      else if j.abort && decide (done.toNat < hashBlocks j.bytes) then hashEnd lane.val j ST.abort done.toNat s
      else hashWork lane.val j s)

end Sys2Proof.Machine
end

