-- ==== Sys2Proof/Machine/Grant.lean ====
section
/-! DEFINITION. The grant of a queued domain start (R533, R56): the oldest request whose domain may start, and what its domain does
then. -/
namespace Sys2Proof.Machine

/-- A granted domain begins its start. -/
def domainGranted (d : Nat) (s : State) : State :=
  if d < 4 then chainGranted d s
  else if d = 4 then bcnGranted s
  else if d < 15 then ringGranted (d - 5) s
  else groupGranted (d - 15) s

/-- The start budget grants its oldest request where spacing and inrush allow it (R533); a timetable occurrence that
waited for it fires (R56), and one that has become too late has its requests withdrawn first. (Assumption 134, DEDUCED.) -/
def execDomainStartGrant (s : State) : Host.Outcome State Fault Refusal :=
  .next (
    if s.pwr.hib then s
    else
      let s := ttExpireAll s
      match s.budget.queue with
      | [] => s
      | r :: _ =>
        if !canGrant r.domain s then s
        else
          let s := domainGranted r.domain (grantHead s)
          match r.tt with
          | some i => ttSettle i s
          | none => s)

end Sys2Proof.Machine
end

