-- ==== Sys2Proof/Machine/Dispatch.lean ====
section
/-! DEFINITION. One arm per command: a direct call of its meaning. -/
namespace Sys2Proof.Machine

/-- A command's effect on the machine. -/
def exec (i : Instr) (s : State) : Host.Outcome State Fault Refusal :=
  match i with
  | .registerWrite who off v => Sys2Proof.Machine.execRegisterWrite who off v s
  | .latchCapture who off => Sys2Proof.Machine.execLatchCapture who off s
  | .latchRelease who off => Sys2Proof.Machine.execLatchRelease who off s
  | .armSecond who v => Sys2Proof.Machine.execArmSecond who v s
  | .armNow who v => Sys2Proof.Machine.execArmNow who v s
  | .stepCancel who v => Sys2Proof.Machine.execStepCancel who v s
  | .stepApply => Sys2Proof.Machine.execStepApply s
  | .leapEffective => Sys2Proof.Machine.execLeapEffective s
  | .backupRealign => Sys2Proof.Machine.execBackupRealign s
  | .ttNone iv => Sys2Proof.Machine.execTtNone iv s
  | .raiseEvent iv => Sys2Proof.Machine.execRaiseEvent iv s
  | .burstOpen iv => Sys2Proof.Machine.execBurstOpen iv s
  | .burstClose iv => Sys2Proof.Machine.execBurstClose iv s
  | .beaconFrame iv => Sys2Proof.Machine.execBeaconFrame iv s
  | .armPulse iv => Sys2Proof.Machine.execArmPulse iv s
  | .wakeSeq iv => Sys2Proof.Machine.execWakeSeq iv s
  | .startCal iv => Sys2Proof.Machine.execStartCal iv s
  | .flashStore iv => Sys2Proof.Machine.execFlashStore iv s
  | .ttPortRead who iv => Sys2Proof.Machine.execTtPortRead who iv s
  | .ttPortWrite who iv => Sys2Proof.Machine.execTtPortWrite who iv s
  | .ttPortDisarm who iv => Sys2Proof.Machine.execTtPortDisarm who iv s
  | .ttPortComplete => Sys2Proof.Machine.execTtPortComplete s
  | .evtEdge n rising sub => Sys2Proof.Machine.execEvtEdge n rising sub s
  | .evtPop who n v => Sys2Proof.Machine.execEvtPop who n v s
  | .chainTargetWrite who x v => Sys2Proof.Machine.execChainTargetWrite who x v s
  | .chainTransitionDone x locked => Sys2Proof.Machine.execChainTransitionDone x locked s
  | .profileWrite who x v => Sys2Proof.Machine.execProfileWrite who x v s
  | .staleLockTimeout x => Sys2Proof.Machine.execStaleLockTimeout x s
  | .calRequest who v => Sys2Proof.Machine.execCalRequest who v s
  | .pendingCalStart x => Sys2Proof.Machine.execPendingCalStart x s
  | .calDone x r => Sys2Proof.Machine.execCalDone x r s
  | .calStale x n why => Sys2Proof.Machine.execCalStale x n why s
  | .lockLost x => Sys2Proof.Machine.execLockLost x s
  | .segmentStart x => Sys2Proof.Machine.execSegmentStart x s
  | .antShort x first second => Sys2Proof.Machine.execAntShort x first second s
  | .antOpen x last => Sys2Proof.Machine.execAntOpen x last s
  | .antOk x last => Sys2Proof.Machine.execAntOk x last s
  | .antRetry x => Sys2Proof.Machine.execAntRetry x s
  | .antCfgWrite who x v => Sys2Proof.Machine.execAntCfgWrite who x v s
  | .agcWindowEnd x usable magSum clipped => Sys2Proof.Machine.execAgcWindowEnd x usable magSum clipped s
  | .blankIntervalEnd x count => Sys2Proof.Machine.execBlankIntervalEnd x count s
  | .notchAllocate x spectrum carriers => Sys2Proof.Machine.execNotchAllocate x spectrum carriers s
  | .notchRelease x n carrier => Sys2Proof.Machine.execNotchRelease x n carrier s
  | .spectrumComplete x bins => Sys2Proof.Machine.execSpectrumComplete x bins s
  | .ifcLearn who x => Sys2Proof.Machine.execIfcLearn who x s
  | .learnDone x => Sys2Proof.Machine.execLearnDone x s
  | .fsmEpoch obs => Sys2Proof.Machine.execFsmEpoch obs s
  | .fsmClear who n => Sys2Proof.Machine.execFsmClear who n s
  | .rootOkWrite who v => Sys2Proof.Machine.execRootOkWrite who v s
  | .ringPower who n v => Sys2Proof.Machine.execRingPower who n v s
  | .domainStartGrant => Sys2Proof.Machine.execDomainStartGrant s
  | .channelStart who k v => Sys2Proof.Machine.execChannelStart who k v s
  | .timedStart k => Sys2Proof.Machine.execTimedStart k s
  | .channelStop who k => Sys2Proof.Machine.execChannelStop who k s
  | .rateWrite who k carrier hi => Sys2Proof.Machine.execRateWrite who k carrier hi s
  | .codeAdj who k v => Sys2Proof.Machine.execCodeAdj who k v s
  | .secSet who k v => Sys2Proof.Machine.execSecSet who k v s
  | .alignGo who k v => Sys2Proof.Machine.execAlignGo who k v s
  | .trkDump k sums => Sys2Proof.Machine.execTrkDump k sums s
  | .epochCapture n => Sys2Proof.Machine.execEpochCapture n s
  | .measPublish who n => Sys2Proof.Machine.execMeasPublish who n s
  | .symbolWrite who n v => Sys2Proof.Machine.execSymbolWrite who n v s
  | .symbolDequeue n unit => Sys2Proof.Machine.execSymbolDequeue n unit s
  | .unitStage => Sys2Proof.Machine.execUnitStage s
  | .stgRdWrite who v => Sys2Proof.Machine.execStgRdWrite who v s
  | .dropClear who v => Sys2Proof.Machine.execDropClear who v s
  | .sievePortRead who iv => Sys2Proof.Machine.execSievePortRead who iv s
  | .sievePortWrite who iv => Sys2Proof.Machine.execSievePortWrite who iv s
  | .sievePortDisarm who iv => Sys2Proof.Machine.execSievePortDisarm who iv s
  | .sievePortComplete => Sys2Proof.Machine.execSievePortComplete s
  | .sieveCaptureStart iv => Sys2Proof.Machine.execSieveCaptureStart iv s
  | .sieveCaptureDone iv samples invalid => Sys2Proof.Machine.execSieveCaptureDone iv samples invalid s
  | .sieveTransformStart lane => Sys2Proof.Machine.execSieveTransformStart lane s
  | .sieveSearchDone iv => Sys2Proof.Machine.execSieveSearchDone iv s
  | .sieveHandoff iv => Sys2Proof.Machine.execSieveHandoff iv s
  | .sieveHandoffTimeout iv => Sys2Proof.Machine.execSieveHandoffTimeout iv s
  | .sieveStale who h => Sys2Proof.Machine.execSieveStale who h s
  | .autoPlan => Sys2Proof.Machine.execAutoPlan s
  | .laneWindow => Sys2Proof.Machine.execLaneWindow s
  | .leanGroup0Stop => Sys2Proof.Machine.execLeanGroup0Stop s
  | .descriptorTake j desc => Sys2Proof.Machine.execDescriptorTake j desc s
  | .stageBlocksGrant => Sys2Proof.Machine.execStageBlocksGrant s
  | .snapshotStaged slot block => Sys2Proof.Machine.execSnapshotStaged slot block s
  | .windowsEntry j => Sys2Proof.Machine.execWindowsEntry j s
  | .passStart lane => Sys2Proof.Machine.execPassStart lane s
  | .passDone p => Sys2Proof.Machine.execPassDone p s
  | .solveStart slot => Sys2Proof.Machine.execSolveStart slot s
  | .solveDone slot => Sys2Proof.Machine.execSolveDone slot s
  | .resultRecordWrite slot => Sys2Proof.Machine.execResultRecordWrite slot s
  | .jobDeadline slot => Sys2Proof.Machine.execJobDeadline slot s
  | .carCancel who v => Sys2Proof.Machine.execCarCancel who v s
  | .fwdTimeout slot => Sys2Proof.Machine.execFwdTimeout slot s
  | .profileValidSet who p v => Sys2Proof.Machine.execProfileValidSet who p v s
  | .profileValidClear who p v => Sys2Proof.Machine.execProfileValidClear who p v s
  | .profileDrained p => Sys2Proof.Machine.execProfileDrained p s
  | .storeWrite who a v => Sys2Proof.Machine.execStoreWrite who a v s
  | .laneGroupRequest => Sys2Proof.Machine.execLaneGroupRequest s
  | .laneGroupGate g => Sys2Proof.Machine.execLaneGroupGate g s
  | .laneTest lane pass => Sys2Proof.Machine.execLaneTest lane pass s
  | .skyPortRead who pending iv => Sys2Proof.Machine.execSkyPortRead who pending iv s
  | .skyPortWrite who iv => Sys2Proof.Machine.execSkyPortWrite who iv s
  | .skyPortClear who iv => Sys2Proof.Machine.execSkyPortClear who iv s
  | .skyPortComplete => Sys2Proof.Machine.execSkyPortComplete s
  | .skyCommit => Sys2Proof.Machine.execSkyCommit s
  | .ionoAgeExpiry => Sys2Proof.Machine.execIonoAgeExpiry s
  | .skyQuery who v => Sys2Proof.Machine.execSkyQuery who v s
  | .skyQueryDone who => Sys2Proof.Machine.execSkyQueryDone who s
  | .liveSolve e => Sys2Proof.Machine.execLiveSolve e s
  | .liveSolveDone => Sys2Proof.Machine.execLiveSolveDone s
  | .surveyStart who v => Sys2Proof.Machine.execSurveyStart who v s
  | .announcedStepArm => Sys2Proof.Machine.execAnnouncedStepArm s
  | .holdoverEnter => Sys2Proof.Machine.execHoldoverEnter s
  | .holdoverExpired => Sys2Proof.Machine.execHoldoverExpired s
  | .sandglassUpdate => Sys2Proof.Machine.execSandglassUpdate s
  | .discEnWrite who v => Sys2Proof.Machine.execDiscEnWrite who v s
  | .pulseEdge n => Sys2Proof.Machine.execPulseEdge n s
  | .pulseTrail n => Sys2Proof.Machine.execPulseTrail n s
  | .foutDiv who v => Sys2Proof.Machine.execFoutDiv who v s
  | .takeover pin => Sys2Proof.Machine.execTakeover pin s
  | .twinYield => Sys2Proof.Machine.execTwinYield s
  | .holdoverRefresh => Sys2Proof.Machine.execHoldoverRefresh s
  | .refLoss why part => Sys2Proof.Machine.execRefLoss why part s
  | .refQualify => Sys2Proof.Machine.execRefQualify s
  | .refReturn who v => Sys2Proof.Machine.execRefReturn who v s
  | .refQualifyDone err => Sys2Proof.Machine.execRefQualifyDone err s
  | .rampDone phi => Sys2Proof.Machine.execRampDone phi s
  | .refSelWrite who v => Sys2Proof.Machine.execRefSelWrite who v s
  | .lockHoldDone => Sys2Proof.Machine.execLockHoldDone s
  | .lockTimeout => Sys2Proof.Machine.execLockTimeout s
  | .refProbe found => Sys2Proof.Machine.execRefProbe found s
  | .divCommit who v => Sys2Proof.Machine.execDivCommit who v s
  | .divApply => Sys2Proof.Machine.execDivApply s
  | .tsynFault => Sys2Proof.Machine.execTsynFault s
  | .bcnTargetWrite who v => Sys2Proof.Machine.execBcnTargetWrite who v s
  | .bcnTransitionDone locked => Sys2Proof.Machine.execBcnTransitionDone locked s
  | .bcnCalStart => Sys2Proof.Machine.execBcnCalStart s
  | .bcnCalDone r => Sys2Proof.Machine.execBcnCalDone r s
  | .bcnCalStale n why => Sys2Proof.Machine.execBcnCalStale n why s
  | .tunerSearch energy probes => Sys2Proof.Machine.execTunerSearch energy probes s
  | .frameStart fwd ref => Sys2Proof.Machine.execFrameStart fwd ref s
  | .lbtEnd energy fwd ref => Sys2Proof.Machine.execLbtEnd energy fwd ref s
  | .frameDone => Sys2Proof.Machine.execFrameDone s
  | .bcnOverpower first second => Sys2Proof.Machine.execBcnOverpower first second s
  | .bcnTrip first second => Sys2Proof.Machine.execBcnTrip first second s
  | .dutyMinute => Sys2Proof.Machine.execDutyMinute s
  | .keyWrite who v => Sys2Proof.Machine.execKeyWrite who v s
  | .keyErase who v => Sys2Proof.Machine.execKeyErase who v s
  | .chainInterval => Sys2Proof.Machine.execChainInterval s
  | .bcnCycRead who iv => Sys2Proof.Machine.execBcnCycRead who iv s
  | .bcnCycWrite who => Sys2Proof.Machine.execBcnCycWrite who s
  | .bcnCycInvalidate who iv => Sys2Proof.Machine.execBcnCycInvalidate who iv s
  | .bcnCycComplete => Sys2Proof.Machine.execBcnCycComplete s
  | .charterQuery who v => Sys2Proof.Machine.execCharterQuery who v s
  | .dxNop q => Sys2Proof.Machine.execDxNop q s
  | .dxTab q => Sys2Proof.Machine.execDxTab q s
  | .dxTba q => Sys2Proof.Machine.execDxTba q s
  | .dxTax q => Sys2Proof.Machine.execDxTax q s
  | .dxTay q => Sys2Proof.Machine.execDxTay q s
  | .dxTxa q => Sys2Proof.Machine.execDxTxa q s
  | .dxTya q => Sys2Proof.Machine.execDxTya q s
  | .dxTsx q => Sys2Proof.Machine.execDxTsx q s
  | .dxTxs q => Sys2Proof.Machine.execDxTxs q s
  | .dxXxy q => Sys2Proof.Machine.execDxXxy q s
  | .dxLda q src => Sys2Proof.Machine.execDxLda q src s
  | .dxSta q dst => Sys2Proof.Machine.execDxSta q dst s
  | .dxLdb q src => Sys2Proof.Machine.execDxLdb q src s
  | .dxStb q dst => Sys2Proof.Machine.execDxStb q dst s
  | .dxLdx q src => Sys2Proof.Machine.execDxLdx q src s
  | .dxLdy q src => Sys2Proof.Machine.execDxLdy q src s
  | .dxLdct q src => Sys2Proof.Machine.execDxLdct q src s
  | .dxLdsp q n => Sys2Proof.Machine.execDxLdsp q n s
  | .dxStx q dst => Sys2Proof.Machine.execDxStx q dst s
  | .dxSty q dst => Sys2Proof.Machine.execDxSty q dst s
  | .dxStct q d => Sys2Proof.Machine.execDxStct q d s
  | .dxAdd q src => Sys2Proof.Machine.execDxAdd q src s
  | .dxSub q src => Sys2Proof.Machine.execDxSub q src s
  | .dxAdc q src => Sys2Proof.Machine.execDxAdc q src s
  | .dxSbc q src => Sys2Proof.Machine.execDxSbc q src s
  | .dxAnd q src => Sys2Proof.Machine.execDxAnd q src s
  | .dxOr q src => Sys2Proof.Machine.execDxOr q src s
  | .dxXor q src => Sys2Proof.Machine.execDxXor q src s
  | .dxCeq q src => Sys2Proof.Machine.execDxCeq q src s
  | .dxCltu q src => Sys2Proof.Machine.execDxCltu q src s
  | .dxClts q src => Sys2Proof.Machine.execDxClts q src s
  | .dxInc q dst => Sys2Proof.Machine.execDxInc q dst s
  | .dxDec q dst => Sys2Proof.Machine.execDxDec q dst s
  | .dxClr q dst => Sys2Proof.Machine.execDxClr q dst s
  | .dxTst q src => Sys2Proof.Machine.execDxTst q src s
  | .dxNeg q => Sys2Proof.Machine.execDxNeg q s
  | .dxNot q => Sys2Proof.Machine.execDxNot q s
  | .dxInca q => Sys2Proof.Machine.execDxInca q s
  | .dxDeca q => Sys2Proof.Machine.execDxDeca q s
  | .dxShl q src => Sys2Proof.Machine.execDxShl q src s
  | .dxShr q src => Sys2Proof.Machine.execDxShr q src s
  | .dxAsr q src => Sys2Proof.Machine.execDxAsr q src s
  | .dxRol q src => Sys2Proof.Machine.execDxRol q src s
  | .dxMul q src => Sys2Proof.Machine.execDxMul q src s
  | .dxDiv q src => Sys2Proof.Machine.execDxDiv q src s
  | .dxBra q r => Sys2Proof.Machine.execDxBra q r s
  | .dxBt q r => Sys2Proof.Machine.execDxBt q r s
  | .dxBf q r => Sys2Proof.Machine.execDxBf q r s
  | .dxDbnz q r => Sys2Proof.Machine.execDxDbnz q r s
  | .dxJmp q dst => Sys2Proof.Machine.execDxJmp q dst s
  | .dxJsr q dst => Sys2Proof.Machine.execDxJsr q dst s
  | .dxRts q => Sys2Proof.Machine.execDxRts q s
  | .dxInx q => Sys2Proof.Machine.execDxInx q s
  | .dxDex q => Sys2Proof.Machine.execDxDex q s
  | .dxIny q => Sys2Proof.Machine.execDxIny q s
  | .dxDey q => Sys2Proof.Machine.execDxDey q s
  | .dxAdx q src => Sys2Proof.Machine.execDxAdx q src s
  | .dxAdy q n => Sys2Proof.Machine.execDxAdy q n s
  | .dxCpx q n => Sys2Proof.Machine.execDxCpx q n s
  | .dxCpy q n => Sys2Proof.Machine.execDxCpy q n s
  | .dxPush q r => Sys2Proof.Machine.execDxPush q r s
  | .dxPop q r => Sys2Proof.Machine.execDxPop q r s
  | .dxMov q f => Sys2Proof.Machine.execDxMov q f s
  | .dxMovw q => Sys2Proof.Machine.execDxMovw q s
  | .dxXch q d => Sys2Proof.Machine.execDxXch q d s
  | .dxAddm q dst => Sys2Proof.Machine.execDxAddm q dst s
  | .dxSubm q dst => Sys2Proof.Machine.execDxSubm q dst s
  | .dxAndm q dst => Sys2Proof.Machine.execDxAndm q dst s
  | .dxOrm q dst => Sys2Proof.Machine.execDxOrm q dst s
  | .dxXorm q dst => Sys2Proof.Machine.execDxXorm q dst s
  | .dxBtst q src bit => Sys2Proof.Machine.execDxBtst q src bit s
  | .dxBset q dst bit => Sys2Proof.Machine.execDxBset q dst bit s
  | .dxBclr q dst bit => Sys2Proof.Machine.execDxBclr q dst bit s
  | .dxRep q src => Sys2Proof.Machine.execDxRep q src s
  | .dxMfs q sr => Sys2Proof.Machine.execDxMfs q sr s
  | .dxMts q sr => Sys2Proof.Machine.execDxMts q sr s
  | .dxSvc q n => Sys2Proof.Machine.execDxSvc q n s
  | .dxVcall q n => Sys2Proof.Machine.execDxVcall q n s
  | .dxRti q => Sys2Proof.Machine.execDxRti q s
  | .dxEi q => Sys2Proof.Machine.execDxEi q s
  | .dxDi q => Sys2Proof.Machine.execDxDi q s
  | .dxWait q => Sys2Proof.Machine.execDxWait q s
  | .dxWaitWake q => Sys2Proof.Machine.execDxWaitWake q s
  | .dxSetb q => Sys2Proof.Machine.execDxSetb q s
  | .dxClrb q => Sys2Proof.Machine.execDxClrb q s
  | .dxNotb q => Sys2Proof.Machine.execDxNotb q s
  | .dxBrk q => Sys2Proof.Machine.execDxBrk q s
  | .dxInterruptEntry q input => Sys2Proof.Machine.execDxInterruptEntry q input s
  | .dxFaultEntry q cause addr => Sys2Proof.Machine.execDxFaultEntry q cause addr s
  | .dxTimer q => Sys2Proof.Machine.execDxTimer q s
  | .dxMailbox who box v => Sys2Proof.Machine.execDxMailbox who box v s
  | .seqRunStart who n dbgBrk => Sys2Proof.Machine.execSeqRunStart who n dbgBrk s
  | .seqRunStop who n dbgBrk => Sys2Proof.Machine.execSeqRunStop who n dbgBrk s
  | .cp0Ver q m => Sys2Proof.Machine.execCp0Ver q m s
  | .cp0Stat q m => Sys2Proof.Machine.execCp0Stat q m s
  | .cp0Ld q m r d8 => Sys2Proof.Machine.execCp0Ld q m r d8 s
  | .cp0St q m r d8 => Sys2Proof.Machine.execCp0St q m r d8 s
  | .cp0Mov q m r => Sys2Proof.Machine.execCp0Mov q m r s
  | .cp0Ldi q m r n => Sys2Proof.Machine.execCp0Ldi q m r n s
  | .cp0Add q m r => Sys2Proof.Machine.execCp0Add q m r s
  | .cp0Sub q m r => Sys2Proof.Machine.execCp0Sub q m r s
  | .cp0Neg q m r => Sys2Proof.Machine.execCp0Neg q m r s
  | .cp0Abs q m r => Sys2Proof.Machine.execCp0Abs q m r s
  | .cp0Mul q m r => Sys2Proof.Machine.execCp0Mul q m r s
  | .cp0Mulq q m r sh => Sys2Proof.Machine.execCp0Mulq q m r sh s
  | .cp0Div q m r t => Sys2Proof.Machine.execCp0Div q m r t s
  | .cp0Shl q m r n => Sys2Proof.Machine.execCp0Shl q m r n s
  | .cp0Shr q m r n => Sys2Proof.Machine.execCp0Shr q m r n s
  | .cp0Asr q m r n => Sys2Proof.Machine.execCp0Asr q m r n s
  | .cp0Rol q m r n => Sys2Proof.Machine.execCp0Rol q m r n s
  | .cp0Ror q m r n => Sys2Proof.Machine.execCp0Ror q m r n s
  | .cp0Clt q m r => Sys2Proof.Machine.execCp0Clt q m r s
  | .cp0Ceq q m r => Sys2Proof.Machine.execCp0Ceq q m r s
  | .cp0Min q m r => Sys2Proof.Machine.execCp0Min q m r s
  | .cp0Max q m r => Sys2Proof.Machine.execCp0Max q m r s
  | .cp0Toa q m r k => Sys2Proof.Machine.execCp0Toa q m r k s
  | .cp0Froma q m r k => Sys2Proof.Machine.execCp0Froma q m r k s
  | .cp0DllEl q m r k he => Sys2Proof.Machine.execCp0DllEl q m r k he s
  | .cp0PllC q m r => Sys2Proof.Machine.execCp0PllC q m r s
  | .cp0PllA q m r => Sys2Proof.Machine.execCp0PllA q m r s
  | .cp0FllC q m r => Sys2Proof.Machine.execCp0FllC q m r s
  | .cp0FllA q m r => Sys2Proof.Machine.execCp0FllA q m r s
  | .cp0Cn0Mb q m r a => Sys2Proof.Machine.execCp0Cn0Mb q m r a s
  | .cp0Pli q m r a => Sys2Proof.Machine.execCp0Pli q m r a s
  | .cp1Ver q => Sys2Proof.Machine.execCp1Ver q s
  | .cp1Stat q => Sys2Proof.Machine.execCp1Stat q s
  | .cp1Eval q => Sys2Proof.Machine.execCp1Eval q s
  | .cp1Evalp q => Sys2Proof.Machine.execCp1Evalp q s
  | .cp1Elaz q => Sys2Proof.Machine.execCp1Elaz q s
  | .cp2Ver q => Sys2Proof.Machine.execCp2Ver q s
  | .cp2Stat q => Sys2Proof.Machine.execCp2Stat q s
  | .cp2Submit q => Sys2Proof.Machine.execCp2Submit q s
  | .cp2Poll q => Sys2Proof.Machine.execCp2Poll q s
  | .cp2Abort q => Sys2Proof.Machine.execCp2Abort q s
  | .cp2Verdict q v => Sys2Proof.Machine.execCp2Verdict q v s
  | .cp2JobDone lane done => Sys2Proof.Machine.execCp2JobDone lane done s
  | .ringCfgWrite who n reg v => Sys2Proof.Machine.execRingCfgWrite who n reg v s
  | .jobDoorbell who n tail => Sys2Proof.Machine.execJobDoorbell who n tail s
  | .resultHeadWrite who n head => Sys2Proof.Machine.execResultHeadWrite who n head s
  | .descDmaFail n => Sys2Proof.Machine.execDescDmaFail n s
  | .haltedClear who n => Sys2Proof.Machine.execHaltedClear who n s
  | .coalTimeout n => Sys2Proof.Machine.execCoalTimeout n s
  | .streamRecord q batch => Sys2Proof.Machine.execStreamRecord q batch s
  | .copyGo who c v => Sys2Proof.Machine.execCopyGo who c v s
  | .copyAbort who c v => Sys2Proof.Machine.execCopyAbort who c v s
  | .copyDone c moved data => Sys2Proof.Machine.execCopyDone c moved data s
  | .negotiate who v => Sys2Proof.Machine.execNegotiate who v s
  | .evPendClear who k v => Sys2Proof.Machine.execEvPendClear who k v s
  | .msixEnable w => Sys2Proof.Machine.execMsixEnable w s
  | .d3hotEntry => Sys2Proof.Machine.execD3hotEntry s
  | .functionLevelReset => Sys2Proof.Machine.execFunctionLevelReset s
  | .portEnable who p v => Sys2Proof.Machine.execPortEnable who p v s
  | .blockLock p => Sys2Proof.Machine.execBlockLock p s
  | .laneAlign p lane1 => Sys2Proof.Machine.execLaneAlign p lane1 s
  | .lane1Loss p => Sys2Proof.Machine.execLane1Loss p s
  | .helloSend p => Sys2Proof.Machine.execHelloSend p s
  | .helloFrame p h b => Sys2Proof.Machine.execHelloFrame p h b s
  | .linkTimeout p lockLost => Sys2Proof.Machine.execLinkTimeout p lockLost s
  | .replayTimeout p => Sys2Proof.Machine.execReplayTimeout p s
  | .creditSend p => Sys2Proof.Machine.execCreditSend p s
  | .creditFrame p h jobs blocks results => Sys2Proof.Machine.execCreditFrame p h jobs blocks results s
  | .jobFrame p h body => Sys2Proof.Machine.execJobFrame p h body s
  | .resultFrame p h tag record => Sys2Proof.Machine.execResultFrame p h tag record s
  | .cancelFrame p h tag => Sys2Proof.Machine.execCancelFrame p h tag s
  | .mirrorFrame p h kind index data => Sys2Proof.Machine.execMirrorFrame p h kind index data s
  | .mirrorSend p due => Sys2Proof.Machine.execMirrorSend p due s
  | .heartbeatSend => Sys2Proof.Machine.execHeartbeatSend s
  | .heartbeatFrame h hbSeq role => Sys2Proof.Machine.execHeartbeatFrame h hbSeq role s
  | .heartbeatCheck => Sys2Proof.Machine.execHeartbeatCheck s
  | .timeReqSend p sub => Sys2Proof.Machine.execTimeReqSend p sub s
  | .timeReq p h exno t1 sub depart => Sys2Proof.Machine.execTimeReq p h exno t1 sub depart s
  | .timeResp p h b sub peerStepped => Sys2Proof.Machine.execTimeResp p h b sub peerStepped s
  | .timeMeasure => Sys2Proof.Machine.execTimeMeasure s
  | .bootBlock => Sys2Proof.Machine.execBootBlock s
  | .spimGo who v => Sys2Proof.Machine.execSpimGo who v s
  | .spimTransferStart => Sys2Proof.Machine.execSpimTransferStart s
  | .spimTransferDone data => Sys2Proof.Machine.execSpimTransferDone data s
  | .xipRead who a => Sys2Proof.Machine.execXipRead who a s
  | .xipFillDone => Sys2Proof.Machine.execXipFillDone s
  | .spimXipWrite who v => Sys2Proof.Machine.execSpimXipWrite who v s
  | .requestSelect units broken => Sys2Proof.Machine.execRequestSelect units broken s
  | .pollSelect units broken => Sys2Proof.Machine.execPollSelect units broken s
  | .respReady who v => Sys2Proof.Machine.execRespReady who v s
  | .spisFlush who v => Sys2Proof.Machine.execSpisFlush who v s
  | .spisTxWrite who v => Sys2Proof.Machine.execSpisTxWrite who v s
  | .spisRxPop who v => Sys2Proof.Machine.execSpisRxPop who v s
  | .uartDivWrite who n v => Sys2Proof.Machine.execUartDivWrite who n v s
  | .uartRxChar n line parity framing brk => Sys2Proof.Machine.execUartRxChar n line parity framing brk s
  | .uartTxChar n card => Sys2Proof.Machine.execUartTxChar n card s
  | .uartTxWrite who n v => Sys2Proof.Machine.execUartTxWrite who n v s
  | .uartRxPop who n v => Sys2Proof.Machine.execUartRxPop who n v s
  | .deTail => Sys2Proof.Machine.execDeTail s
  | .bootRom readErr twin ms found => Sys2Proof.Machine.execBootRom readErr twin ms found s
  | .pushGo who v => Sys2Proof.Machine.execPushGo who v s
  | .otpProgram who v => Sys2Proof.Machine.execOtpProgram who v s
  | .otpProgramDone => Sys2Proof.Machine.execOtpProgramDone s
  | .rbAdvance who v => Sys2Proof.Machine.execRbAdvance who v s
  | .rootRevoke who v => Sys2Proof.Machine.execRootRevoke who v s
  | .attestGo who v => Sys2Proof.Machine.execAttestGo who v s
  | .attestDone written => Sys2Proof.Machine.execAttestDone written s
  | .puCommit who n v => Sys2Proof.Machine.execPuCommit who n v s
  | .lcTransition who v => Sys2Proof.Machine.execLcTransition who v s
  | .lcTransitionDone => Sys2Proof.Machine.execLcTransitionDone s
  | .jtagBypass => Sys2Proof.Machine.execJtagBypass s
  | .jtagIdcode => Sys2Proof.Machine.execJtagIdcode s
  | .jtagSamplePreload pins cells => Sys2Proof.Machine.execJtagSamplePreload pins cells s
  | .jtagExtest pins cells => Sys2Proof.Machine.execJtagExtest pins cells s
  | .jtagNonce => Sys2Proof.Machine.execJtagNonce s
  | .jtagCred cred => Sys2Proof.Machine.execJtagCred cred s
  | .credVerifyDone => Sys2Proof.Machine.execCredVerifyDone s
  | .jtagAcc write space addr data => Sys2Proof.Machine.execJtagAcc write space addr data s
  | .sessionExpiry => Sys2Proof.Machine.execSessionExpiry s
  | .dbgEnd who v => Sys2Proof.Machine.execDbgEnd who v s
  | .powerStateGo who v => Sys2Proof.Machine.execPowerStateGo who v s
  | .leanEntryDone => Sys2Proof.Machine.execLeanEntryDone s
  | .burstExitDone => Sys2Proof.Machine.execBurstExitDone s
  | .pwrReqGo who v => Sys2Proof.Machine.execPwrReqGo who v s
  | .reqClr who v => Sys2Proof.Machine.execReqClr who v s
  | .hibernateEntry => Sys2Proof.Machine.execHibernateEntry s
  | .hibernateWake c => Sys2Proof.Machine.execHibernateWake c s
  | .backupPor => Sys2Proof.Machine.execBackupPor s
  | .mainPor => Sys2Proof.Machine.execMainPor s
  | .pinReset => Sys2Proof.Machine.execPinReset s
  | .wdtKick who v => Sys2Proof.Machine.execWdtKick who v s
  | .rstWdt => Sys2Proof.Machine.execRstWdt s
  | .watchdogReset => Sys2Proof.Machine.execWatchdogReset s
  | .softReset who v => Sys2Proof.Machine.execSoftReset who v s
  | .twinCmd who v => Sys2Proof.Machine.execTwinCmd who v s
  | .resetBlock serial => Sys2Proof.Machine.execResetBlock serial s
  | .xtalFail => Sys2Proof.Machine.execXtalFail s
  | .pwrfailAssert => Sys2Proof.Machine.execPwrfailAssert s
  | .pwrfailDeassert => Sys2Proof.Machine.execPwrfailDeassert s
  | .storeGo who v => Sys2Proof.Machine.execStoreGo who v s
  | .restoreGo who v => Sys2Proof.Machine.execRestoreGo who v s
  | .storeStart a b c d => Sys2Proof.Machine.execStoreStart a b c d s
  | .storeDone ok => Sys2Proof.Machine.execStoreDone ok s
  | .slotErase => Sys2Proof.Machine.execSlotErase s
  | .roleClaim peerPrefer pin => Sys2Proof.Machine.execRoleClaim peerPrefer pin s
  | .msixUnmask v => Sys2Proof.Machine.execMsixUnmask v s
  | .linkRetrain degraded => Sys2Proof.Machine.execLinkRetrain degraded s
  | .windowsDone slot => Sys2Proof.Machine.execWindowsDone slot s

end Sys2Proof.Machine
end

