-- ==== Sys2Proof/Machine/Samples.lean ====
section
/-! DEFINITION. The sample path in one FS tick (chapters 02, 03): the chains' sample words, the delay line with the pulse blanker, the
notch filters and the output stage, what AGC, blanker and spectrum gather of it, and the Sieve's captures. -/
namespace Sys2Proof.Machine

/-! Sample words (R72, R74). -/

/-- The level of a code: 2c + 1 in half-LSB units (R72). -/
def levelOf (code : Nat) : Int := 2 * toSigned 5 code + 1

/-- The I and Q levels of a valid sample (R72). -/
def levels (c : BitVec 10) : Int × Int := (levelOf (c.toNat % 32), levelOf (c.toNat / 32))

/-- A code that means the ADC clipped: −16 or +15 (R72). -/
def clipCode (code : Nat) : Bool := code == 16 || code == 15

/-- A sample clipped in either code (R101). -/
def clipped (c : BitVec 10) : Bool := clipCode (c.toNat % 32) || clipCode (c.toNat / 32)

/-- The 11-bit sample word of a tick (R72): VALID, Q, I; the codes of an invalid sample, which are undefined (R74), are written as
0 here and nothing reads them. (Assumption 169, DESIGN CHOICE.) -/
def sampleWord (a : AdcWord) : BitVec 11 := match a with | some c => 1#1 ++ c | none => 0

/-- The sample a chain delivers in this tick: the ADC's next code while samples are valid (R72, R74); a free value where none is
given (assumption 10). (Assumption 13, DESIGN CHOICE.) -/
def adcTake (x : Nat) (s : State) : AdcWord × State :=
  if sampleValid x s then
    match Sparse.get (fun _ => []) s.adc x with
    | c :: rest => (some c, { s with adc := Sparse.put (fun _ => []) s.adc x rest })
    | [] => let d := s.draw; (some (BitVec.ofNat 10 d.1), d.2)
  else (none, s)

/-! The delay line and the pulse blanker (R99, R104). -/

/-- A sample triggers the blanker: either level magnitude is at least 2·TH + 1 (R104). -/
def blankTrigger (th : Nat) (a : AdcWord) : Bool :=
  match a with
  | some c => decide (2 * th + 1 ≤ (levels c).1.natAbs) || decide (2 * th + 1 ≤ (levels c).2.natAbs)
  | none => false

/-- A delay line in which nothing but idle words stands is the empty one. -/
def tidyLine (l : List (AdcWord × Bool)) : List (AdcWord × Bool) := if l.all (fun e => e.1.isNone && !e.2) then [] else l

/-- A sample enters the delay line: the line, newest first, the samples still to blank, and the word that leaves, 8 ticks old,
with whether it is blanked (R99, R104). The trigger, PRE samples before it and LEN samples after the last one are. (Assumption 148, DESIGN CHOICE.) -/
def lineStep (on : Bool) (th pre len : Nat) (line : List (AdcWord × Bool)) (after : Nat) (a : AdcWord) :
    List (AdcWord × Bool) × Nat × (AdcWord × Bool) :=
  let hit := on && blankTrigger th a
  let old := if hit then (line.take pre).map (fun e => (e.1, true)) ++ line.drop pre else line
  let line' := (a, on && (hit || after != 0)) :: old
  (tidyLine (line'.take 8), if hit then len else if on then after - 1 else 0, line'.getD 8 (none, false))

/-- A word that leaves the delay line as the chain's blanker gives it on (R104, R105): one marked to be blanked is not blanked
while blanking is suspended. -/
def blankedAs (x : Nat) (e : AdcWord × Bool) (s : State) : AdcWord × Bool :=
  (e.1, e.2 && !s.bit (F.IFC_CH_BLANK_STAT_SUSPENDED x))

/-! Notch filters (R106). -/

/-- The tangent of half the angle of a notch's half width: its −3 dB width is 2 kHz × 2^W of 120 MHz (R106). -/
def notchTan (w : Nat) : Rat :=
  let x : Rat := (2 ^ w : Nat) / (120000 : Nat)
  Num.sinTurn (x / 2) / Num.cosTurn (x / 2)

/-- The pole radius of a notch of width code W: (1 − t) / (1 + t) for the tangent t above, which puts its −3 dB points there. -/
def notchRadius (w : Nat) : Rat := (1 - notchTan w) / (1 + notchTan w)

/-- The product of two complex numbers. -/
def cmul (a b : Rat × Rat) : Rat × Rat := (a.1 * b.1 - a.2 * b.2, a.1 * b.2 + a.2 * b.1)

/-- One first-order complex notch for one sample (R106): from the input, in output units, and the filter's state in 2^-32 of
one, the output and the new state. Its zero lies on the unit circle at FREQ × 120 MHz / 2^32, its pole on the same radius. (Assumption 148, DESIGN CHOICE.) -/
def notchStep (w : Nat) (freq : BitVec 32) (st : Int × Int) (x : Rat × Rat) : (Rat × Rat) × (Int × Int) :=
  let r := notchRadius w
  let z : Rat × Rat := (Num.cosTurn (freq.toInt / 2 ^ 32), Num.sinTurn (freq.toInt / 2 ^ 32))
  let v1 : Rat × Rat := (st.1 / 2 ^ 32, st.2 / 2 ^ 32)
  let zv := cmul z v1
  let v : Rat × Rat := (x.1 + r * zv.1, x.2 + r * zv.2)
  let k := (1 + r) / 2
  ((k * (v.1 - zv.1), k * (v.2 - zv.2)), ((v.1 * 2 ^ 32).floor, (v.2 * 2 ^ 32).floor))

/-- A notch attenuates: it is ACTIVE (R108, R109). -/
def notchActive (x n : Nat) (s : State) : Bool := s.bit (F.IFC_CH_NOTCH_CTRL_ACTIVE x n)

/-- The bank of notches on one sample (R99, R106): those that are ACTIVE, in their order. -/
def notchBank (x : Nat) (s : State) (v : Rat × Rat) : (Rat × Rat) × State :=
  ((List.range 8).filter (fun n => notchActive x n s)).foldl (fun p n =>
    let c := ifcCh p.2 x
    let o := notchStep (p.2.fld (F.IFC_CH_NOTCH_CFG_W x)) (p.2.word (R.IFC_CH_NOTCH_FREQ x n)) (Sparse.get (fun _ => (0, 0)) c.notch n) p.1
    (o.1, setIfcCh p.2 x { c with notch := Sparse.put (fun _ => (0, 0)) c.notch n o.2 })) (v, s)

/-- An output value: the nearest whole number within ±127 (R99), where a notch is at work with up to one unit of its
arithmetic's error, which the spec does not state. (Assumption 148, DESIGN CHOICE.) -/
def notchOut (err : Nat) (v : Rat) : Int := clampInt 127 (Num.round v + ((err % 3 : Nat) : Int) - 1)

/-- The word of the output stage of a sample that has left the notches (R99, R100). -/
def outWord (valid : Bool) (i q : Int) : BitVec 17 :=
  if valid then BitVec.ofNat 17 (2 ^ 16 + ofSigned 8 q * 2 ^ 8 + ofSigned 8 i) else 0

/-- A sample from the delay line through the notches (R99, R100): scaled by 4; an invalid or blanked one enters as zero and
leaves without VALID. -/
def conditioned (x : Nat) (e : AdcWord × Bool) (s : State) : BitVec 17 × State :=
  let v : Int × Int := match e with | (some c, false) => (4 * (levels c).1, 4 * (levels c).2) | _ => (0, 0)
  let valid := e.1.isSome && !e.2
  if (List.range 8).any (fun n => notchActive x n s) then
    let o := notchBank x s ((v.1 : Rat), (v.2 : Rat))
    let d1 := o.2.draw
    let d2 := d1.2.draw
    (outWord valid (notchOut d1.1 o.1.1) (notchOut d2.1 o.1.2), d2.2)
  else (outWord valid v.1 v.2, s)

/-- Sixteen ticks of the output stage: the words behind it and the one it emits (R99). -/
def pipeStep (pipe : List (BitVec 17)) (w : BitVec 17) : List (BitVec 17) × BitVec 17 :=
  let p := w :: pipe
  (if (p.take 16).all (· == 0) then [] else p.take 16, p.getD 16 0)

/-! What the path's blocks gather (R101, R105, R110). -/

/-- AGC takes a sample that leaves the delay line usable: |I| + |Q| and whether it clipped (R101). -/
def agcTake (a : Nat × Nat × Nat) (e : AdcWord × Bool) : Nat × Nat × Nat :=
  match e with
  | (some c, false) => (a.1 + 1, a.2.1 + (levels c).1.natAbs + (levels c).2.natAbs, a.2.2 + if clipped c then 1 else 0)
  | _ => a

/-- The periodic Hann window of 2,048 samples, at sample `n`. (Assumption 148, DESIGN CHOICE.) -/
def hann (n : Nat) : Rat := (1 - Num.cosTurn ((n : Rat) / 2048)) / 2

/-- The squared magnitude of a windowed frame's transform at bin `k`, whose centre is (k − 1,024) × 58,593.75 Hz from the LO
(R110), in units of 2^-20 of a squared output unit. -/
def binPower (frame : List (Int × Int)) (k : Nat) : Nat :=
  let z := frame.zipIdx.foldl (fun (a : Rat × Rat) e =>
    let t : Rat := -((((k : Int) - 1024) * (e.2 : Int) : Int) : Rat) / 2048
    let p := cmul ((e.1.1 : Rat) * hann e.2, (e.1.2 : Rat) * hann e.2) (Num.cosTurn t, Num.sinTurn t)
    (a.1 + p.1, a.2 + p.2)) (0, 0)
  ((z.1 * z.1 + z.2 * z.2) * 2 ^ 20).floor.toNat

/-- A spectrum of 2,048 bins from sums of powers over a number of frames, 0.01 dB relative to one squared level unit, which is
16 squared output units (R99, R110). (Assumption 148, DESIGN CHOICE.) -/
def spectrumOf (sums : List Nat) (frames : Nat) : List (BitVec 16) :=
  sums.map (fun p => BitVec.ofNat 16 (centiDb p (frames * Config.binScale * 2 ^ 24)))

/-- A sample enters the frames of a spectrum of `need` of them (R110): the frames, and the spectrum this sample completes. A frame
that an invalid sample meets is discarded, and the next begins after it. (Assumption 148, DESIGN CHOICE.) -/
def frameStep (need : Nat) (f : SpecFrames) (a : Option (Int × Int)) : SpecFrames × Option (List (BitVec 16)) :=
  match a with
  | none => ({ f with frame := [] }, none)
  | some v =>
    let fr := v :: f.frame
    if fr.length < 2048 then ({ f with frame := fr }, none)
    else
      let ps := (List.range 2048).map (binPower fr.reverse)
      let sums := if f.sums.isEmpty then ps else (List.range 2048).map (fun k => f.sums.getD k 0 + ps.getD k 0)
      if f.taken + 1 < need then ({ frame := [], sums := sums, taken := f.taken + 1 }, none)
      else ({}, some (spectrumOf sums (f.taken + 1)))

/-- A valid sample before the blanker in output units (R99). -/
def adcUnits (a : AdcWord) : Option (Int × Int) := a.map (fun c => (4 * (levels c).1, 4 * (levels c).2))

/-- A valid output word's I and Q (R99). -/
def wordUnits (w : BitVec 17) : Option (Int × Int) :=
  if w.getLsbD 16 then some (toSigned 8 (w.toNat % 2 ^ 8), toSigned 8 (w.toNat / 2 ^ 8 % 2 ^ 8)) else none

/-- The monitor's input: before the blanker, or the output stage (R110). -/
def tapSample (x : Nat) (a : AdcWord) (w : BitVec 17) (s : State) : Option (Int × Int) :=
  if s.bit (F.IFC_CH_SPEC_CTRL_TAP x) then wordUnits w else adcUnits a

/-- The spectral monitor and the notch detector take a sample (R107, R110). -/
def spectraStep (x : Nat) (a : AdcWord) (w : BitVec 17) (s : State) : State :=
  let c := ifcCh s x
  let m := if s.bit (F.IFC_CH_SPEC_CTRL_EN x) then frameStep (2 ^ s.fld (F.IFC_CH_SPEC_CTRL_AVG x)) c.spec (tapSample x a w s)
    else (({} : SpecFrames), none)
  let d := frameStep 64 c.det (adcUnits a)
  setIfcCh s x { c with spec := m.1, specEnd := if m.2.isSome then m.2 else c.specEnd
                        det := d.1, detEnd := if d.2.isSome then d.2 else c.detEnd }

/-- The end of an AGC window, every 4,096 ticks, and of a blanker interval, every 120,000 (R101, R105). (Assumption 148, DESIGN CHOICE.) -/
def windowEnds (x : Nat) (s : State) : State :=
  let c := ifcCh s x
  let c := if s.tick % 4096 = 0 then { c with agc := (0, 0, 0), agcEnd := some c.agc } else c
  setIfcCh s x (if s.tick % 120000 = 0 then { c with blanked := 0, blankEnd := some c.blanked } else c)

/-- Whether a chain's path has nothing to do in a tick: no valid sample, none on its way, no frame begun, and no notch at work
whose state still decays (R100). -/
def chainQuiet (x : Nat) (s : State) : Bool :=
  let c := ifcCh s x
  (List.range 8).all (fun n => !notchActive x n s || Sparse.get (fun _ => (0, 0)) c.notch n == (0, 0)) && !c.valid &&
  c.line.isEmpty && c.pipe.isEmpty && c.word == 0 && c.spec.frame.isEmpty && c.det.frame.isEmpty &&
    (chain s x).openAt.isNone && !sampleValid x s

/-- A sample's way through a chain's conditioning path (R99, R100); while blanking is suspended what the blanker would blank is
counted (R105). (Assumption 169, DEDUCED.) -/
def pathStep (x : Nat) (s : State) : State :=
  let a := adcTake x s
  let s := windowTick x a.1.isSome a.2
  let c := ifcCh s x
  let l := lineStep (s.bit (F.IFC_CH_BLANK_CFG_EN x)) (s.fld (F.IFC_CH_BLANK_CFG_TH x)) (s.fld (F.IFC_CH_BLANK_CFG_PRE x))
    (s.fld (F.IFC_CH_BLANK_CFG_LEN x)) c.line c.after a.1
  let e := blankedAs x l.2.2 s
  let s := setIfcCh s x { c with
    line := l.1, after := l.2.1, agc := agcTake c.agc e, blanked := c.blanked + if l.2.2.2 then 1 else 0
    profs := (s.fld (F.GRF_CH_STATUS_PROFILE_ACT x) :: c.profs).take 25
    validTicks := c.validTicks + (if a.1.isSome then 1 else 0), valid := a.1.isSome }
  let o := conditioned x e s
  let s := o.2
  let c := ifcCh s x
  let p := pipeStep c.pipe o.1
  spectraStep x a.1 p.2 (setIfcCh s x { c with pipe := p.1, word := p.2 })

/-- A chain in one FS tick. (Assumption 169, DEDUCED.) -/
def chainTick (x : Nat) (s : State) : State := windowEnds x (if chainQuiet x s then s else pathStep x s)

/-- The sample path in one FS tick: the chains, then the channels and the Sieve, which take the words the chains emit (R99,
R123, R191). (Assumption 8, DESIGN CHOICE.) -/
def samplesTick (s : State) : State :=
  if s.pwr.hib then s else capturesTick (channelsTick (chainTick 3 (chainTick 2 (chainTick 1 (chainTick 0 s)))))

end Sys2Proof.Machine
end

