-- ==== Sys2Proof/Machine/Tick.lean ====
section
/-! DEFINITION. One FS tick with no command waiting (R30 to R33, R327, R548): the model's clock, the crystal and the backup counter,
the timebase, TSYN's return from a fault (assumption 8), the beacon's symbol 24 (R348), the waiting sequencers (R387), the sample path, and the JOB frames that wait to be taken (R204). -/
namespace Sys2Proof.Machine

/-- Crystal cycles an FS tick adds to the crystal's count: 32,768 of 120,000,000 parts (assumption 8). -/
def xtalParts (s : State) : Nat := s.tb.xtal + 32768

/-- Whether the crystal completes a cycle in the tick. (Assumption 25, DEDUCED.) -/
def xtalEdge (s : State) : Bool := !s.pwr.xtalOff && decide (120000000 ≤ xtalParts s)

/-- The crystal's fraction after the tick; it stands still while the crystal does. (Assumption 8, DESIGN CHOICE; assumption 25, DEDUCED; assumption 54, DEDUCED.) -/
def xtalTick (s : State) : State :=
  if s.pwr.xtalOff then s else { s with tb := { s.tb with xtal := xtalParts s % 120000000 } }

/-- TSYN's own count goes on through a tick while the core domains are held, at the TB_RATE in force in it (R31, R320). -/
def holdTick (s : State) : State :=
  if s.coarse && !s.pwr.hib then { s with ck := { s.ck with holdU := s.ck.holdU + s.tickStep } } else s

/-- The timebase after the tick: by TB_RATE from CK_MAIN, or by 2^-15 s at a crystal cycle while it is coarse (R30, R33); it
stands still in HIBERNATE. (Assumption 8, DESIGN CHOICE.) -/
def baseTick (edge : Bool) (s : State) : State :=
  if s.pwr.hib then s
  else if s.coarse then (if edge then s.setNowU (s.nowU + secUnits / 32768) else s)
  else s.setNowU (s.nowU + s.tickStep)

/-- The waiting sequencers in a tick (R387). -/
def waitsTick (s : State) : State :=
  { s with seqs := s.seqs.map (fun (p : Nat × Seq) =>
      if p.2.run = .wait then (p.1, p.2.waitTick (s.fld F.CK_DIV_NOW_SEQ) s.coarse) else p) }

/-- Clock synthesis in a tick: nothing but the crystal runs in HIBERNATE (R330). -/
def clockTick (s : State) : State := if s.pwr.hib then s else tuneTick (foutTick (tsynTick s))

/-- One FS tick. (Assumption 8, DESIGN CHOICE.) -/
def idleTick (s : State) : State :=
  let edge := xtalEdge s
  let s := xtalTick { s with tick := s.tick + 1 }
  waitsTick (jobsTake (samplesTick (ttMarkDue (readyTick (bcnMid (clockTick (baseTick edge (holdTick (if edge then bkCycle s else s)))))))))

end Sys2Proof.Machine
end

