-- ==== Sys2Proof/Machine/Step.lean ====
section
/-! DEFINITION. One step: the command at the front of the queue, or one FS tick when none waits. -/
namespace Sys2Proof.Machine

/-- Take the oldest waiting command and run it with the queue's rest; with none waiting, one FS tick passes. (Assumption 8, DESIGN CHOICE; assumption 23, DESIGN CHOICE.) -/
def step (s : State) : Host.Outcome State Fault Refusal :=
  match s.pending with
  | [] => .next (idleTick s)
  | c :: rest => exec c { s with pending := rest }

/-- A state with the command that a word spells put at the front of its queue. (Assumption 40, DESIGN CHOICE.) -/
def State.withFetchWord (s : State) (nbits w : Nat) : State :=
  match decodeTableWord nbits w with
  | some c => { s with pending := c :: s.pending }
  | none => s

end Sys2Proof.Machine
end

