-- ==== Sys2Proof/Safety.lean ====
section
/-! DEFINITION. What counts as a safe run: every step answers a next state. And the canonical form that the machine keeps its
register file and its memories in. -/
namespace Sys2Proof.Machine

/-- A step from the state answers a next state. -/
def Steps (s : State) : Prop := ∃ t, step s = .next t

/-- The register file and the four memories are in canonical form: keys strictly rising, nothing listed that equals what an
unlisted key reads as, so that equal memories are equal data. -/
structure Canon (s : State) : Prop where
  regs : Sparse.wf regDflt s.regs
  mem : Sparse.wf memDflt s.mem
  ram : Sparse.wf byteDflt s.ram
  hostMem : Sparse.wf byteDflt s.hostMem
  flash : Sparse.wf flashDflt s.flash

/-! Terms that statements about commands use. -/

/-- A BAR 0 access passes: the offset answers its initiator, and the protection unit allows it (R422, R513). -/
abbrev Open (who : Reader) (off : Nat) (s : State) : Prop :=
  bar0Answers who off s = true ∧ protAllows who 0 off true s = true

/-- A sequencer executes its next instruction: STATE RUN, and the protection unit allows the fetch (R387, R513). -/
abbrev DxReady (q : SeqId) (s : State) : Prop := seqReady q s = true ∧ fetchDenied q s = none

/-- An instruction's effect on the issuing sequencer's registers, and the repeat prefix at its end (R381). -/
def dxEnded (q : SeqId) (pc : BitVec 16) (f : Seq → Seq) (s : State) : State := onSeq q (fun r => dxRetire pc (f r)) s

/-- A frame of four bytes fits the stack in private RAM, above SPLIM (R382, R385). -/
abbrev FrameFits (q : SeqId) (s : State) : Prop :=
  4 ≤ (s.seq q.val).sp.toNat ∧ (s.seq q.val).sp.toNat ≤ 0x7FE0 ∧ (s.seq q.val).splim.toNat + 4 ≤ (s.seq q.val).sp.toNat

/-- A frame was pushed (R385): PC, high byte first, then MODE, then B; SP is 4 lower, and no other byte of private RAM or the
mailboxes changed. -/
def FramePushed (q : SeqId) (pc : BitVec 16) (mode b : Byte) (s t : State) : Prop :=
  let sp := (s.seq q.val).sp.toNat
  (t.seq q.val).sp = (s.seq q.val).sp - 4 ∧
  ∀ x, t.ramByte x =
    if x = privRam q (sp - 1) then pc.extractLsb' 8 8 else if x = privRam q (sp - 2) then pc.extractLsb' 0 8
    else if x = privRam q (sp - 3) then mode else if x = privRam q (sp - 4) then b else s.ramByte x

/-- A handler's address in the vector table (R367). -/
def vectorWord (q : SeqId) (i : Nat) (s : State) : BitVec 16 :=
  s.ramByte (privRam q (0x7FE1 + 2 * i)) ++ s.ramByte (privRam q (0x7FE0 + 2 * i))

/-- An event is pending for the host and for SQM (R440). -/
def EventUp (n : Nat) (s : State) : Prop :=
  s.maskBit (copyOff .host (R.EV_PEND (n / 32))) (n % 32) = true ∧ s.maskBit (copyOff .sqm (R.EV_PEND (n / 32))) (n % 32) = true

/-! Frames. -/

/-- The device's and the host's memories and the flash stand as they were. -/
def MemsSame (s t : State) : Prop := t.mem = s.mem ∧ t.ram = s.ram ∧ t.hostMem = s.hostMem ∧ t.flash = s.flash

/-- Every register word but those of the list stands as it was. -/
def RegsBut (ks : List Nat) (s t : State) : Prop := ∀ k, k ∉ ks → t.word k = s.word k

/-- The register words that an event changes: its pending words and the MSI-X pending bits (R440, R441). -/
def evKeys (n : Nat) : List Nat :=
  [copyOff .host (R.EV_PEND (n / 32)), copyOff .sqm (R.EV_PEND (n / 32)), R.MSIX_PBA 0, R.MSIX_PBA 1]

/-- The register words that a denied access changes (R516). -/
def protKeys : List Nat := evKeys 124 ++ [R.SEC_PROT_STAT, R.SEC_PROT_ADDR]

/-! Terms for the families of commands. -/

/-- A timetable entry whose occurrence is dispatched next with an action, in time, and which waits for no start (R50 to R57). -/
abbrev TtDue (i act : Nat) (s : State) : Prop :=
  (ttEntry s i).action = act ∧ ttPick s = some i ∧
    ((ttEntry s i).latest s).tooLate (((ttEntry s i).latest s).late s) s = false ∧
    s.budget.queue.any (fun r => r.tt == some i) = false

/-- An occurrence of an entry has fired (R50, R53, R57, R59): its log says so, with its lateness and nothing deferred, and the entry
stands at its next due time or is disarmed. -/
def TtFired (i : Nat) (s t : State) : Prop :=
  let e := (ttEntry s i).latest s
  let f := ttEntry t i
  f.fired = true ∧ f.dropped = false ∧ f.deferred = false ∧ f.waiting = none ∧ f.lateTicks = min 0xFFFF (e.late s) ∧
    f.skip = min 255 ((ttEntry s i).skip + (ttEntry s i).passed s) ∧
    (if e.period = 0 then f.armed = false ∧ f.due = e.due else f.armed = e.armed ∧ f.due = (e.due + e.period) % 2 ^ 80)

/-- A port of a family takes a command for a reader (R61): the control word, the window and the tick are latched, and BUSY shows from
the next tick on. -/
def PortTaken (p : PortFam) (who : Reader) (v : Word) (s t : State) : Prop :=
  portCmd p who t = some ⟨v.toNat, portWindow p who s, s.tick⟩ ∧ portBusy p who t = false ∧
    (∀ n, portBusy p who { t with tick := t.tick + (n + 1) } = true) ∧
    (∀ r, r ≠ who → portCmd p r t = portCmd p r s) ∧ MemsSame s t

/-- A port's command has ended with a result (R61). -/
def PortEnded (p : PortFam) (r : Reader) (res : Nat) (t : State) : Prop :=
  portCmd p r t = none ∧ portBusy p r t = false ∧ t.fld (Fld.at ⟨p.ctrl, 23, 16⟩ r) = res

/-- What the beacon has radiated (R353). -/
def radios (s : State) : List Output := s.out.filter (fun o => match o with | .radio .. => true | _ => false)

end Sys2Proof.Machine
end

