-- ==== Sys2Proof/WellFormed.lean ====
section
/-! DEFINITION. Which commands are well formed: where a row's operand is a block of bytes or a list, the length the spec
gives it. Every other operand's type admits only what the spec admits. A meaning answers a next state on an ill-formed
command too: it takes the bytes that are there. -/
namespace Sys2Proof

/-- The checks of a command's operands. -/
def Instr.wf (i : Instr) : Bool :=
  match i with
  | .descriptorTake _ desc => desc.length == 128
  | .snapshotStaged _ block => match block with | some b => decide (b.length ≤ 65568) | none => true
  | .jobFrame _ _ body => decide (128 ≤ body.length) && decide (body.length ≤ 65696)
  | .resultFrame _ _ _ record => decide (64 ≤ record.length) && decide (record.length ≤ 1664)
  | .storeWrite _ _ v => decide (v.length ≤ 512)
  | .copyDone _ moved data => decide (moved.toNat ≤ 16777216) && (data.isEmpty || data.length == moved.toNat)
  | .streamRecord _ batch => !batch.isEmpty
  | .jtagSamplePreload pins cells => pins.length == cells.length
  | .jtagExtest pins cells => pins.length == cells.length
  | .jtagCred cred => decide (cred.length ≤ 32768)
  | .bootRom _ twin _ _ => match twin with | some b => decide (b.length ≤ 0x400000) | none => true
  | _ => true

end Sys2Proof
end

