-- ==== Sys2Proof/Certificates/Slice0/Obligations.lean ====
section
/-! DEFINITION. The statements for the provers. -/

open Sys2Proof Sys2Proof.Machine

/-! The queue and the register file. -/

/-- One step takes the command at the front of the queue and runs it on the state whose queue is the rest. -/
def Obligations.StepRunsFrontCommand : Prop :=
  ∀ (c : Instr) (rest : List Instr) (s : State),
    step { s with pending := c :: rest } = exec c { s with pending := rest }

/-- R5, R8, R41, R395, R422, R516: a write of a word that has no row of its own. An offset that does not answer takes nothing; a
denied write is recorded and raises EV_124; the host's that is misaligned or writes part of a word sets BAD_ACCESS. Of TB_CTRL, LOCK is set by a 1 and stays, and
locks HOST_WRITE_EN; TT_STATUS's flags clear where 1 is written; SQ_n_START takes a write with Vault rights only, and one without
that would change it raises EV_124.
Where the spec leaves a choice it is the model's: assumptions 15, 45. -/
def Obligations.RegisterWriteRules : Prop :=
  ∀ (who : Reader) (off : BitVec 24) (whole : Bool) (v : Word) (n : SeqId) (s : State),
    (off.toNat % 4 = 0 → bar0Answers who off.toNat s = false → exec (.registerWrite who ⟨off, true⟩ v) s = .next s) ∧
    (off.toNat % 4 = 0 → bar0Answers who off.toNat s = true → protAllows who 0 off.toNat true s = false →
      ∃ t, exec (.registerWrite who ⟨off, true⟩ v) s = .next t ∧ EventUp 124 t ∧ RegsBut protKeys s t ∧ MemsSame s t ∧
        t.bit F.SEC_PROT_STAT_VALID = true ∧
        (s.bit F.SEC_PROT_STAT_VALID = false → t.bit F.SEC_PROT_STAT_WRITE = true ∧
          t.fld F.SEC_PROT_STAT_INIT = initCode who ∧ t.fld F.SEC_PROT_ADDR_ADDR = off.toNat)) ∧
    (off.toNat % 4 ≠ 0 ∨ whole = false → who = .host → s.pwr.hib = false → s.pwr.pcieOff = false →
      ∃ t, exec (.registerWrite who ⟨off, whole⟩ v) s = .next t ∧ t.bit F.HOST_ERR_BAD_ACCESS = true ∧
        RegsBut (R.HOST_ERR :: evKeys 7) s t ∧ MemsSame s t ∧
        (s.bit F.HOST_ERR_BAD_ACCESS = false → EventUp 7 t)) ∧
    (Open who R.TB_CTRL s → ∃ t, exec (.registerWrite who ⟨BitVec.ofNat 24 R.TB_CTRL, true⟩ v) s = .next t ∧
      RegsBut [R.TB_CTRL] s t ∧ MemsSame s t ∧
      t.bit F.TB_CTRL_LOCK = (s.bit F.TB_CTRL_LOCK || v.getLsbD 31) ∧
      t.bit F.TB_CTRL_HOST_WRITE_EN = if s.bit F.TB_CTRL_LOCK then s.bit F.TB_CTRL_HOST_WRITE_EN else v.getLsbD 0) ∧
    (Open who R.TT_STATUS s → ∃ t, exec (.registerWrite who ⟨BitVec.ofNat 24 R.TT_STATUS, true⟩ v) s = .next t ∧
      RegsBut [R.TT_STATUS] s t ∧ MemsSame s t ∧
      t.bit F.TT_STATUS_LATE = (s.bit F.TT_STATUS_LATE && !v.getLsbD F.TT_STATUS_LATE.lo) ∧
      t.bit F.TT_STATUS_DROP = (s.bit F.TT_STATUS_DROP && !v.getLsbD F.TT_STATUS_DROP.lo) ∧
      t.fld F.TT_STATUS_ARMED_CNT = s.fld F.TT_STATUS_ARMED_CNT) ∧
    (Open who (R.SQ_START n.val) s → ∃ t, exec (.registerWrite who ⟨BitVec.ofNat 24 (R.SQ_START n.val), true⟩ v) s = .next t ∧
      RegsBut (R.SQ_START n.val :: protKeys) s t ∧ MemsSame s t ∧
      t.fld (F.SQ_START_START n.val) = (if vaultRights who s then v.toNat % 65536 else s.fld (F.SQ_START_START n.val)) ∧
      (vaultRights who s = false → v.toNat % 65536 ≠ s.fld (F.SQ_START_START n.val) → EventUp 124 t))

/-- R34, R35: a read of a group's lowest word captures the whole group for the reader; one of its highest returns the captured
value and releases the capture; nothing else changes. Of the other reads (R419, R422, R424), the host's unsound one sets BAD_ACCESS, a
read of configuration space gives the field, and one of a device-map range that is open gives its bytes.
Where the spec leaves a choice it is the model's: assumption 12. -/
def Obligations.LatchGroupReads : Prop :=
  (∀ (who : Reader) (r : RegReq) (f : CfgField) (a : BitVec 26) (n : BitVec 2) (s : State),
    (reqSound r = false → who = .host → s.pwr.hib = false → s.pwr.pcieOff = false → ∃ t, exec (.latchCapture who (.reg r)) s = .next t ∧
      t.bit F.HOST_ERR_BAD_ACCESS = true ∧ RegsBut (R.HOST_ERR :: evKeys 7) s t ∧ MemsSame s t) ∧
    (s.bit F.DEV_STATUS_READY = true → s.pwr.pcieOff = false →
      exec (.latchCapture who (.cfg f)) s = .next { s with busData := BitVec.ofNat 32 (cfgValue f s) }) ∧
    (mapAnswers who s = true → rangeDenied who a.toNat (n.toNat + 1) false s = none → ∃ t, exec (.latchCapture who (.map a n)) s = .next t ∧
      t.busData = BitVec.ofNat 32 (leNat (mapReadBytes who a.toNat (n.toNat + 1) s).1)) ∧
    (∀ x, mapAnswers who s = true → rangeDenied who a.toNat (n.toNat + 1) false s = some x →
      ∃ t, exec (.latchCapture who (.map a n)) s = .next t ∧ t.busData = 0 ∧ EventUp 124 t ∧ MemsSame s t)) ∧
  (∀ (who : Reader) (off : BitVec 24) (lo n : Nat) (s : State), latchGroup off.toNat = some (lo, n) →
    bar0Answers who off.toNat s = true → protAllows who 0 off.toNat false s = true → ringOffReg off.toNat s = false →
    (off.toNat = lo → ∃ t, exec (.latchCapture who (.reg ⟨off, true⟩)) s = .next t ∧ t.busData = liveWord who lo s ∧
      capture who lo t = (List.range n).map (fun k => liveWord who (lo + 4 * k) s) ∧ t.regs = s.regs ∧ MemsSame s t ∧
      (∀ who' lo', (who', lo') ≠ (who, lo) → lo' < 0x1000000 → capture who' lo' t = capture who' lo' s)) ∧
    (off.toNat = lo + 4 * (n - 1) → off.toNat ≠ lo → capture who lo s ≠ [] → ∃ t, exec (.latchRelease who off) s = .next t ∧
      t.busData = (capture who lo s).getD (n - 1) 0 ∧ capture who lo t = [] ∧ t.regs = s.regs ∧ MemsSame s t))

/-! The timebase and the timetable (chapter 01). -/

/-- R44: when the effective leap count changes, by counting or by a step, NEXT goes into CUR and EV_009 is raised. -/
def Obligations.LeapTakesEffect : Prop :=
  ∀ s : State,
    (leapDue s = true → ∃ t, exec .leapEffective s = .next t ∧ t.fld F.TB_LEAP_CUR = s.fld F.TB_LEAP_NEXT ∧ EventUp 9 t ∧
      t.fld F.TB_LEAP_NEXT = s.fld F.TB_LEAP_NEXT ∧ RegsBut (R.TB_LEAP :: evKeys 9) s t ∧ MemsSame s t ∧
      t.nowU = s.nowU ∧ t.tick = s.tick) ∧
    (leapDue s = false → exec .leapEffective s = .next s) ∧
    (∀ st, s.tb.step = some st → stepDue st s = true →
      leapDue (s.setNowU (((s.nowU : Int) + st.amount) % (wrapUnits : Int)).toNat) = true →
      ∃ t, exec .stepApply s = .next t ∧ t.fld F.TB_LEAP_CUR = s.fld F.TB_LEAP_NEXT ∧ EventUp 9 t)

/-- R38, R39, R40: ARM_SECOND and ARM_NOW arm the step of the operand registers, one with several command bits is ignored and one
with a reserved SOURCE too, CANCEL withdraws it; the armed step, when due, moves the timebase by exactly its amount, counts
STEP_SEQ, raises EV_008 and, with a SOURCE, writes SOURCE and VALID. -/
def Obligations.TimebaseSteps : Prop :=
  ∀ (who : Reader) (v : Word) (s : State),
    let amount := toSigned 48 (v.toNat / 65536 * 2 ^ 32 + (s.word R.TB_STEP_SEC).toNat) * secUnits +
      ((s.word R.TB_STEP_FRAC).toNat * fracUnits : Nat)
    let src := bitsOf v.toNat 15 12
    let armed (t : State) (st : Option ArmedStep) : Prop := t.tb.step = st ∧ t.bit F.TB_STATUS_STEP_ARMED = st.isSome ∧
      t.nowU = s.nowU ∧ MemsSame s t ∧ RegsBut [R.TB_STEP_CMD, R.TB_STATUS, R.TP_STATUS] s t
    (Open who R.TB_STEP_CMD s → mayWriteTime who s = true →
      (v.toNat % 8 = 1 → src ≤ 5 → ∃ t, exec (.armSecond who v) s = .next t ∧
        armed t (some ⟨amount, src, some ((s.nowU + (if s.coarse then 0 else s.tickStep)) / secUnits + 1), s.tick⟩)) ∧
      (v.toNat % 8 = 2 → src ≤ 5 → ∃ t, exec (.armNow who v) s = .next t ∧ armed t (some ⟨amount, src, none, s.tick⟩)) ∧
      (v.toNat % 8 = 4 → ∃ t, exec (.stepCancel who v) s = .next t ∧ armed t none) ∧
      (v.toNat % 8 = 3 ∨ v.toNat % 8 = 5 ∨ v.toNat % 8 = 6 ∨ v.toNat % 8 = 7 ∨ (v.toNat % 8 = 1 ∧ 5 < src) →
        exec (.armSecond who v) s = .next s)) ∧
    (Open who R.TB_STEP_CMD s → mayWriteTime who s = false → exec (.armNow who v) s = .next s) ∧
    (∀ st, s.tb.step = some st → stepDue st s = true → st.source ≤ 5 → s.tb.sec < 2 ^ 48 → s.tb.phase < secUnits →
      ∃ t, exec .stepApply s = .next t ∧ (t.nowU : Int) = ((s.nowU : Int) + st.amount) % (wrapUnits : Int) ∧
        t.fld F.TB_STATUS_STEP_SEQ = (s.fld F.TB_STATUS_STEP_SEQ + 1) % 256 ∧ EventUp 8 t ∧ t.tb.step = none ∧
        t.bit F.TB_STATUS_STEP_ARMED = false ∧
        t.fld F.TB_STATUS_SOURCE = (if st.source = 0 then s.fld F.TB_STATUS_SOURCE else st.source) ∧
        t.bit F.TB_STATUS_VALID = (s.bit F.TB_STATUS_VALID || st.source != 0)) ∧
    ((∀ st, s.tb.step = some st → stepDue st s = false) → exec .stepApply s = .next s) ∧
    (s.tb.sec < 2 ^ 48 → wholeSecond s = true → s.bit F.TB_STATUS_VALID = true → s.fld F.TB_STATUS_SOURCE ≠ 1 →
      ∃ t, exec .backupRealign s = .next t ∧ bkSec t = s.tb.sec ∧ t.fld F.PWR_BK_SUB_SUB = 0 ∧
        t.bit F.PWR_BK_SUB_VALID = true ∧ RegsBut [R.PWR_BK_SUB, R.PWR_BK_SEC_LO, R.PWR_BK_SEC_HI] s t ∧ MemsSame s t) ∧
    (s.bit F.TB_STATUS_VALID = false → exec .backupRealign s = .next s)

/-- R48, R50 to R53, R57, R59, R383: the timetable's actions. An entry that is next, in time and waiting for no domain start fires: its log
and its next due time are written, and its action is done; WAKE_SEQ sets inputs 4 to 11 only. One that is too late is dropped without its action, with EV_011.
Where the spec leaves a choice it is the model's: assumptions 24, 26, 27. -/
def Obligations.TimetableActions : Prop :=
  ∀ (i : BitVec 12) (s : State),
    let e := (ttEntry s i.toNat).latest s
    let p := e.param
    (TtDue i.toNat 0 s → ∃ t, exec (.ttNone i) s = .next t ∧ TtFired i.toNat s t ∧ MemsSame s t ∧ t.chains = s.chains ∧
      t.bcn = s.bcn) ∧
    (TtDue i.toNat 1 s → ∃ t, exec (.raiseEvent i) s = .next t ∧ TtFired i.toNat s t ∧ EventUp (16 + p % 8) t ∧ MemsSame s t) ∧
    (TtDue i.toNat 2 s →
      let opens (x : Nat) : Bool := p.testBit x && (pstate s != 2 || s.fld F.GRF_BURST_CTRL_HOP_CHAIN == x)
      ∃ t, exec (.burstOpen i) s = .next t ∧ (ttEntry t i.toNat).dropped = false ∧
        ((∀ x < 4, opens x = true → chainState x s ≠ 0) → TtFired i.toNat s t) ∧
        (∀ x < 4, opens x = true → t.bit (F.GRF_CH_STATUS_IN_WINDOW x) = true ∧ t.fld (F.GRF_CH_CTRL_TARGET x) = 3) ∧
        (∀ x < 4, opens x = false → t.word (R.GRF_CH_STATUS x) = s.word (R.GRF_CH_STATUS x))) ∧
    (TtDue i.toNat 3 s → ∃ t, exec (.burstClose i) s = .next t ∧ TtFired i.toNat s t ∧
      (∀ x < 4, p.testBit x = true → s.bit (F.GRF_CH_STATUS_IN_WINDOW x) = true →
        t.bit (F.GRF_CH_STATUS_IN_WINDOW x) = false ∧ t.fld (F.GRF_CH_CTRL_TARGET x) = s.fld F.GRF_BURST_CTRL_GAP_STATE)) ∧
    (TtDue i.toNat 4 s → p < 256 → s.bit F.BCN_CFG_EN = false → descOk (s.memBytes (descAddr p) 256) = true →
      ∃ t, exec (.beaconFrame i) s = .next t ∧ TtFired i.toNat s t ∧ t.memByte (descAddr p + 16) = BitVec.ofNat 8 ST.abort ∧
        EventUp 105 t ∧ t.bcn = s.bcn ∧ (∀ a, a ≠ descAddr p + 16 → t.memByte a = s.memByte a)) ∧
    (TtDue i.toNat 4 s → 256 ≤ p → ∃ t, exec (.beaconFrame i) s = .next t ∧ TtFired i.toNat s t ∧ EventUp 105 t ∧ t.bcn = s.bcn ∧
      MemsSame s t) ∧
    (TtDue i.toNat 5 s → ∃ t, exec (.armPulse i) s = .next t ∧ TtFired i.toNat s t ∧ MemsSame s t ∧
      (tpOut t (p % 2)).armed = (tpOut s (p % 2)).armed ++
        [⟨((e.due * fracUnits : Nat) : Int) + psUnits (toSigned 32 (s.word (R.TP_DELAY (p % 2))).toNat),
          if e.period = 0 then none else some (e.period * fracUnits / 2)⟩]) ∧
    (TtDue i.toNat 6 s → ∃ t, exec (.wakeSeq i) s = .next t ∧ TtFired i.toNat s t ∧ MemsSame s t ∧
      ∀ q, (t.seq q).ipend = if q = p % 16 ∧ 4 ≤ p / 16 % 16 ∧ p / 16 % 16 ≤ 11 then (s.seq q).ipend ||| (1#16 <<< (p / 16 % 16))
        else (s.seq q).ipend) ∧
    (TtDue i.toNat 7 s → ∃ t, exec (.startCal i) s = .next t ∧ TtFired i.toNat s t ∧ MemsSame s t ∧
      (p % 256 < 16 → chainState (p % 256 / 4) s ≠ 3 →
        t.bit (F.GRF_CH_PROF_CAL_CAL_PEND (p % 256 / 4) (p % 256 % 4)) = true) ∧
      (0x15 ≤ p % 256 → p % 256 < 0x40 → t.fld F.GRF_CAL_STATUS_LAST_RESULT = ST.format ∧ EventUp 39 t) ∧
      (0x40 ≤ p % 256 → p % 256 < 0x80 → chtEnabled (p % 64) s = true → t.bit (F.BCN_CH_CAL_CAL_PEND (p % 64)) = true) ∧
      (0x40 ≤ p % 256 → p % 256 < 0x80 → chtEnabled (p % 64) s = false → t.fld F.BCN_STATUS_CAL_RESULT = ST.format)) ∧
    (∀ l, (ttEntry s i.toNat).action = 0 → ttPick s = some i.toNat → l = e.late s → e.tooLate l s = true →
      ∃ t, exec (.ttNone i) s = .next t ∧ (ttEntry t i.toNat).dropped = true ∧ (ttEntry t i.toNat).lateTicks = min 0xFFFF l ∧
        EventUp 11 t ∧ t.bit F.TT_STATUS_DROP = true ∧ MemsSame s t) ∧
    (ttPick s ≠ some i.toNat → exec (.ttNone i) s = .next s ∧ exec (.raiseEvent i) s = .next s)

/-- R61, R62, R63, R188, R201, R265, R361: a command written to a free port of a family is taken, with the window as it stands; while
one is in progress another write gets ST_BUSY and the first stands. -/
def Obligations.EntryPortsTake : Prop :=
  ∀ (who : Reader) (i : BitVec 12) (j : BitVec 7) (b : Byte) (k : Bool) (s : State) (p : PortFam) (c : Instr) (v : Word),
    (p, c, v) ∈ [(ttPorts, .ttPortRead who i, portWord ttPorts 1 i.toNat), (ttPorts, .ttPortWrite who i, portWord ttPorts 2 i.toNat),
      (ttPorts, .ttPortDisarm who i, portWord ttPorts 3 i.toNat),
      (sievePorts, .sievePortRead who j, portWord sievePorts 1 j.toNat),
      (sievePorts, .sievePortWrite who j, portWord sievePorts 2 j.toNat),
      (sievePorts, .sievePortDisarm who j, portWord sievePorts 3 j.toNat),
      (skyPorts, .skyPortRead who k b, portWord skyPorts 1 ((if k then 2 ^ 15 else 0) + b.toNat)),
      (skyPorts, .skyPortWrite who b, portWord skyPorts 2 b.toNat), (skyPorts, .skyPortClear who b, portWord skyPorts 3 b.toNat),
      (cycPorts, .bcnCycRead who b, portWord cycPorts 1 b.toNat), (cycPorts, .bcnCycWrite who, portWord cycPorts 2 0),
      (cycPorts, .bcnCycInvalidate who b, portWord cycPorts 3 b.toNat)] →
    Open who p.ctrl s →
    (portCmd p who s = none → ∃ t, exec c s = .next t ∧ PortTaken p who v s t) ∧
    (∀ d, portCmd p who s = some d → ∃ t, exec c s = .next t ∧ portCmd p who t = some d ∧
      t.fld (Fld.at ⟨p.ctrl, 23, 16⟩ who) = ST.busy ∧ RegsBut [copyOff who p.ctrl] s t ∧ MemsSame s t)

/-- R49, R61, R63, R189, R201, R262, R265, R361: a port command that completes gives its reader the entry, stores what the window
held or refuses it with ST_FORMAT and changes nothing, or disarms, clears or invalidates the entry. -/
def Obligations.EntryPortsComplete : Prop :=
  ∀ (r : Reader) (c : PortCmd) (s : State),
    let cmd := bitsOf c.ctrl 13 12
    let i := c.ctrl % 4096
    let j := c.ctrl % 128
    let b := c.ctrl % 256
    let w := wordBytes c.window
    let win (p : PortFam) (ws : List Word) (t : State) : Prop := ∀ n < p.words, t.word (copyOff r (p.win + 4 * n)) = ws.getD n 0
    let done (x : Instr) (p : PortFam) (res : Nat) (post : State → Prop) : Prop :=
      ∃ t, exec x s = .next t ∧ PortEnded p r res t ∧ MemsSame s t ∧ post t
    (portsDue ttPorts s = [(r, c)] →
      (cmd = 1 → done .ttPortComplete ttPorts ST.ok (fun t => win ttPorts (ttEntry s i).words t ∧ t.tt = s.tt)) ∧
      (∀ e, cmd = 2 → ttEntryOf c.window = some e → done .ttPortComplete ttPorts ST.ok (fun t => ttEntry t i = { e with changed := some s.tick })) ∧
      (cmd = 2 → ttEntryOf c.window = none → done .ttPortComplete ttPorts ST.format (fun t => t.tt = s.tt)) ∧
      (cmd = 3 → done .ttPortComplete ttPorts ST.ok (fun t => ttEntry t i = { ttEntry s i with armed := false, changed := some s.tick }))) ∧
    (portsDue sievePorts s = [(r, c)] →
      (cmd = 1 → done .sievePortComplete sievePorts ST.ok (fun t => win sievePorts (planEntry s j).words t ∧ t.sieve = s.sieve)) ∧
      (cmd = 2 → j < 64 → sieveReqOk (c.window.take 8) s = true → done .sievePortComplete sievePorts ST.ok (fun t =>
        (planEntry t j).req = c.window.take 8 ∧ (planEntry t j).state = if (winWord c.window 0).testBit 31 then 1 else 0)) ∧
      (cmd = 2 → j < 64 → sieveReqOk (c.window.take 8) s = false → done .sievePortComplete sievePorts ST.format (fun t =>
        t.sieve = s.sieve)) ∧
      (cmd = 3 → (planEntry s j).armed = true → done .sievePortComplete sievePorts ST.ok (fun t =>
        (planEntry t j).armed = false ∧ (planEntry t j).state = 6 ∧ (planEntry t j).result = ST.abort ∧ EventUp 64 t))) ∧
    (portsDue skyPorts s = [(r, c)] →
      (cmd = 1 → b ≤ 220 → c.ctrl.testBit 15 = false → done .skyPortComplete skyPorts ST.ok (fun t =>
        win skyPorts (bytesWords 64 (skySlot s b)) t ∧ t.sky = s.sky)) ∧
      (cmd = 2 → slotOk b w = true → done .skyPortComplete skyPorts ST.ok (fun t => skyPending t b = slotStored w ∧
        t.sky.cur = s.sky.cur)) ∧
      (cmd = 2 → slotOk b w = false → done .skyPortComplete skyPorts ST.format (fun t => t.sky = s.sky)) ∧
      (cmd = 3 → b ≤ 220 → done .skyPortComplete skyPorts ST.ok (fun t => skyPending t b = emptySlot ∧ t.sky.cur = s.sky.cur)) ∧
      (cmd = 3 → 220 < b → done .skyPortComplete skyPorts ST.format (fun t => t.sky = s.sky))) ∧
    (portsDue cycPorts s = [(r, c)] →
      (bitsOf c.ctrl 9 8 = 2 → cycOk w = true → done .bcnCycComplete cycPorts ST.ok (fun t =>
        cycRec t (leAt w 0 4 % 256) = w)) ∧
      (bitsOf c.ctrl 9 8 = 2 → cycOk w = false → done .bcnCycComplete cycPorts ST.format (fun t => t.bcn = s.bcn)) ∧
      (bitsOf c.ctrl 9 8 = 3 → done .bcnCycComplete cycPorts ST.ok (fun t => cycRec t b = putAt (cycRec s b) 8 [0])))

/-- R65, R66, R67: an accepted edge on an enabled event input is stamped with the timebase and raises the input's event; a full FIFO
sets OVERRUN and raises EV_024, and an edge too soon after the last accepted one sets MISSED; POP removes the oldest stamp.
Where the spec leaves a choice it is the model's: assumption 28. -/
def Obligations.EventInputs : Prop :=
  ∀ (n : Fin 4) (rising : Bool) (sub : BitVec 44) (who : Reader) (v : Word) (s : State),
    let e := evtIn s n.val
    let at_ := s.tick * tickUnits + sub.toNat
    let on := (s.fld (F.TB_EVT_CTRL_EDGE n)).testBit (if rising then 0 else 1)
    let soon := ∃ l, e.last = some l ∧ (at_ - l) * 10 ^ 11 < 1667 * 120000000 * tickUnits
    let now := s.nowU + (if s.coarse then 0 else sub.toNat * s.tickStep / tickUnits)
    (on = false → exec (.evtEdge n rising sub) s = .next s) ∧
    (on = true → ¬soon → e.fifo.length < 8 → ∃ t st, exec (.evtEdge n rising sub) s = .next t ∧
      evtIn t n.val = ⟨e.fifo ++ [st], some at_⟩ ∧ st.sec = now / secUnits % 2 ^ 48 ∧
      st.frac * 2 ^ 16 + st.sub = now % secUnits * 2 ^ 48 / secUnits ∧ st.sub < 2 ^ 16 ∧
      st.rising = rising ∧ st.valid = s.bit F.TB_STATUS_VALID ∧ st.refLost = s.refLost ∧
      st.stepSeq = s.fld F.TB_STATUS_STEP_SEQ % 16 ∧
      t.fld (F.TB_EVT_CTRL_COUNT n) = e.fifo.length + 1 ∧ EventUp (12 + n.val) t ∧
      RegsBut (R.TB_EVT_CTRL n :: evKeys (12 + n.val)) s t ∧ MemsSame s t) ∧
    (on = true → ¬soon → 8 ≤ e.fifo.length → ∃ t, exec (.evtEdge n rising sub) s = .next t ∧
      evtIn t n.val = ⟨e.fifo, some at_⟩ ∧ t.bit (F.TB_EVT_CTRL_OVERRUN n) = true ∧ EventUp 24 t ∧
      RegsBut (R.TB_EVT_CTRL n :: evKeys 24) s t ∧ MemsSame s t) ∧
    (on = true → soon → ∃ t, exec (.evtEdge n rising sub) s = .next t ∧ t.bit (F.TB_EVT_CTRL_MISSED n) = true ∧
      t.evt = s.evt ∧ RegsBut [R.TB_EVT_CTRL n] s t ∧ MemsSame s t) ∧
    (Open who (R.TB_EVT_CTRL n) s → ∃ t, exec (.evtPop who n v) s = .next t ∧
      (v.getLsbD 31 = true → evtIn t n.val = ⟨e.fifo.drop 1, e.last⟩ ∧
        t.fld (F.TB_EVT_CTRL_COUNT n) = (e.fifo.length - 1) % 16) ∧
      (v.getLsbD 31 = false → t.evt = s.evt) ∧ t.fld (F.TB_EVT_CTRL_EDGE n) = v.toNat % 4 ∧
      t.bit (F.TB_EVT_CTRL_OVERRUN n) = (s.bit (F.TB_EVT_CTRL_OVERRUN n) && !v.getLsbD 30) ∧
      t.bit (F.TB_EVT_CTRL_MISSED n) = (s.bit (F.TB_EVT_CTRL_MISSED n) && !v.getLsbD 29) ∧
      RegsBut [R.TB_EVT_CTRL n] s t ∧ MemsSame s t)

/-! Radio chains, conditioning and signal trust (chapters 02 and 03). -/

/-- R75 to R79, R87, R91, R92: a chain at rest takes one step toward the TARGET and profile written, leaving OFF by a start
request; a step that ends at TARGET rests there, a lock that fails calibrates once and then faults; lost lock relocks; the next
segment hops. The other chains and the memories stand.
Where the spec leaves a choice it is the model's: assumptions 55, 56. -/
def Obligations.ChainTransitions : Prop :=
  ∀ (who : Reader) (x : Fin 4) (v : Word) (s : State),
    let c := chain s x
    let st := chainState x s
    let act := s.fld (F.GRF_CH_STATUS_PROFILE_ACT x)
    let tgt := v.toNat % 4
    let rest (t : State) : Prop := MemsSame s t ∧ ∀ y : Fin 4, y ≠ x → chain t y = chain s y ∧
      t.word (R.GRF_CH_STATUS y) = s.word (R.GRF_CH_STATUS y) ∧ t.word (R.GRF_CH_CTRL y) = s.word (R.GRF_CH_CTRL y)
    let goes (i : Instr) (post : State → Prop) : Prop := ∃ t, exec i s = .next t ∧ rest t ∧ post t
    (Open who (R.GRF_CH_CTRL x) s → c.step = .none → c.cal = none → c.seq = false →
      (st = 0 → tgt ≠ 0 → domainOn x s = false → startQueued x s = false → goes (.chainTargetWrite who x v) (fun t =>
        t.budget.queue = s.budget.queue ++ [⟨x.val, s.tick, none⟩] ∧ t.bit (F.GRF_CH_STATUS_BUSY x) = true)) ∧
      (st = 1 → 2 ≤ tgt → goes (.chainTargetWrite who x v) (fun t => (chain t x).step = .standby)) ∧
      (st = 1 → tgt = 0 → goes (.chainTargetWrite who x v) (fun t => (chain t x).step = .off)) ∧
      (st = 2 → tgt < 2 → goes (.chainTargetWrite who x v) (fun t => (chain t x).step = .sleep)) ∧
      (st = 2 → tgt = 3 → s.bit (F.GRF_CH_PROF_CAL_CAL_VALID x (bitsOf v.toNat 9 8)) = true →
        goes (.chainTargetWrite who x v) (fun t => (chain t x).step = .lock ∧ (chain t x).cal = none ∧
          t.fld (F.GRF_CH_STATUS_PROFILE_ACT x) = bitsOf v.toNat 9 8)) ∧
      (st = 3 → tgt < 3 → goes (.chainTargetWrite who x v) (fun t => (chain t x).step = .down ∧
        t.bit (F.GRF_CH_STATUS_LOCKED x) = false)) ∧
      (st = 3 → tgt = 3 → bitsOf v.toNat 9 8 ≠ act → s.bit (F.GRF_CH_PROF_CAL_CAL_VALID x (bitsOf v.toNat 9 8)) = true →
        goes (.profileWrite who x v) (fun t => (chain t x).step = .hop (bitsOf v.toNat 9 8) ∧ chainState x t = 5 ∧
          t.bit (F.GRF_CH_STATUS_LOCKED x) = false ∧ t.bit (F.GRF_CH_STATUS_BUSY x) = true))) ∧
    (c.cal = none → ∀ k r : Nat, (k, c.step, r) ∈ [(1, ChainStep.wake, 1), (2, .standby, 2), (2, .down, 2), (1, .sleep, 1), (0, .off, 0),
        (3, .lock, 3)] → s.fld (F.GRF_CH_CTRL_TARGET x) = k → (k = 3 → wantProfile x s = act) →
      goes (.chainTransitionDone x true) (fun t => chainState x t = r ∧ (chain t x).step = .none ∧
        t.bit (F.GRF_CH_STATUS_BUSY x) = false ∧ (k = 3 → t.bit (F.GRF_CH_STATUS_LOCKED x) = true) ∧
        (k = 0 → domainOn x t = false))) ∧
    (∀ p, c.cal = none → c.step = .hop p → p < 4 → wantProfile x s = p → s.fld (F.GRF_CH_CTRL_TARGET x) = 3 →
      goes (.chainTransitionDone x true) (fun t => chainState x t = 3 ∧ t.fld (F.GRF_CH_STATUS_PROFILE_ACT x) = p ∧
        t.bit (F.GRF_CH_STATUS_LOCKED x) = true ∧ (chain t x).step = .none)) ∧
    (c.cal = none → c.step = .lock → c.cold = false → goes (.chainTransitionDone x false) (fun t =>
      (chain t x).cal = some (act, .inStep) ∧ chainState x t = 4 ∧ (chain t x).step = .lock)) ∧
    (c.cal = none → c.step = .lock → c.cold = true → goes (.chainTransitionDone x false) (fun t =>
      t.bit (F.GRF_CH_STATUS_FAULT x) = true ∧ chainState x t = 2 ∧ (chain t x).step = .none)) ∧
    (c.cal = none → c.step = .lock → c.cold = false → s.bit (F.GRF_CH_PROF_CAL_STALE x act) = true →
      goes (.staleLockTimeout x) (fun t => (chain t x).cal = some (act, .inStep) ∧ chainState x t = 4)) ∧
    (c.step = .none → exec (.staleLockTimeout x) s = .next s) ∧
    (st = 3 → c.step = .none → s.bit (F.GRF_CH_STATUS_LOCKED x) = true → goes (.lockLost x) (fun t =>
      (chain t x).step = .relock ∧ t.bit (F.GRF_CH_STATUS_LOCKED x) = false ∧ t.bit (F.GRF_CH_STATUS_LOCK_LOST x) = true ∧
      sampleValid x t = false ∧
      EventUp 36 t)) ∧
    (st ≠ 3 → exec (.lockLost x) s = .next s) ∧
    (∀ k, s.bit (F.GRF_CH_STATUS_IN_WINDOW x) = true → c.seq = true → segFrom (c.seg + 1) s = some k → st = 3 → c.step = .none →
      c.cal = none → s.fld (F.GRF_CH_CTRL_TARGET x) = 3 → s.fld (F.GRF_BURST_SEG_PROFILE k) ≠ act →
      s.bit (F.GRF_CH_PROF_CAL_CAL_VALID x (s.fld (F.GRF_BURST_SEG_PROFILE k))) = true →
      goes (.segmentStart x) (fun t => (chain t x).step = .hop (s.fld (F.GRF_BURST_SEG_PROFILE k)) ∧ (chain t x).seg = k))

/-- R81 to R86: a calibration request is pending, runs at once on the active profile of a chain in RECEIVE outside a window, or is
refused with EV_039; a pending one starts in STANDBY, lowest profile first; its result is stored, or it failed with EV_038;
a profile whose temperature moved by more than 15 K becomes stale with EV_037.
Where the spec leaves a choice it is the model's: assumptions 56, 57. -/
def Obligations.SynthesiserCalibrations : Prop :=
  ∀ (who : Reader) (v : Word) (x n : Fin 4) (r : CalResult) (temp : BitVec 8) (s : State),
    let code := v.toNat % 256
    let y := code / 4
    let p := code % 4
    let c := chain s x
    let goes (i : Instr) (post : State → Prop) : Prop := ∃ t, exec i s = .next t ∧ MemsSame s t ∧ post t
    (Open who R.GRF_CAL_CTRL s → v.toNat.testBit 31 = true →
      (code < 16 → chainState y s ≠ 3 → goes (.calRequest who v) (fun t =>
        t.bit (F.GRF_CH_PROF_CAL_CAL_PEND y p) = true ∧ t.chains = s.chains)) ∧
      (code < 16 → chainState y s = 3 → (chain s y).step = .none → (chain s y).cal = none →
        s.bit (F.GRF_CH_STATUS_IN_WINDOW y) = false → s.fld (F.GRF_CH_STATUS_PROFILE_ACT y) = p →
        goes (.calRequest who v) (fun t => (chain t y).cal = some (p, .requested) ∧ (chain t y).step = .relock ∧
          chainState y t = 4 ∧ t.bit F.GRF_CAL_STATUS_ACTIVE = true)) ∧
      (0x15 ≤ code → code < 0x40 → goes (.calRequest who v) (fun t =>
        t.fld F.GRF_CAL_STATUS_LAST_RESULT = ST.format ∧ EventUp 39 t ∧ t.chains = s.chains)) ∧
      (0x40 ≤ code → code < 0x80 → chtEnabled (code % 64) s = true → goes (.calRequest who v) (fun t =>
        t.bit (F.BCN_CH_CAL_CAL_PEND (code % 64)) = true ∧ t.chains = s.chains))) ∧
    (chainState x s = 2 → c.step = .none → c.cal = none → s.bit (F.GRF_CH_STATUS_IN_WINDOW x) = false →
      s.bit (F.GRF_CH_PROF_CAL_CAL_PEND x n) = true → (∀ m < n.val, s.bit (F.GRF_CH_PROF_CAL_CAL_PEND x m) = false) →
      goes (.pendingCalStart x) (fun t => (chain t x).cal = some (n.val, .requested) ∧ chainState x t = 4)) ∧
    (chainState x s ≠ 2 → exec (.pendingCalStart x) s = .next s) ∧
    (∀ q k, c.cal = some (q, k) → q < 4 → c.step = .none → s.fld (F.GRF_CH_CTRL_TARGET x) = 2 →
      goes (.calDone x (some r)) (fun t => (chain t x).cal = none ∧ chainState x t = 2 ∧
        t.fld (F.GRF_CH_PROF_CAL_CAL_TEMP x q) = r.temp.toNat ∧ t.fld (F.GRF_CH_PROF_CAL_VCO_BAND x q) = r.band.toNat ∧
        t.fld (F.GRF_CH_PROF_CAL_KVCO_TRIM x q) = r.trim.toNat ∧ t.bit (F.GRF_CH_PROF_CAL_CAL_VALID x q) = true ∧
        t.bit (F.GRF_CH_PROF_CAL_STALE x q) = false ∧ t.bit (F.GRF_CH_PROF_CAL_CAL_FAILED x q) = false ∧
        t.bit (F.GRF_CH_PROF_CAL_CAL_PEND x q) = false ∧ t.fld F.GRF_CAL_STATUS_LAST_RESULT = ST.ok) ∧
      goes (.calDone x none) (fun t => (chain t x).cal = none ∧ t.bit (F.GRF_CH_PROF_CAL_CAL_FAILED x q) = true ∧
        t.bit (F.GRF_CH_PROF_CAL_CAL_VALID x q) = false ∧ t.fld F.GRF_CAL_STATUS_LAST_RESULT = 0x10 ∧ EventUp 38 t)) ∧
    (c.cal = none → exec (.calDone x none) s = .next s) ∧
    (s.bit (F.GRF_CH_PROF_CAL_CAL_VALID x n) = true → s.bit (F.GRF_CH_PROF_CAL_STALE x n) = false →
      (15 < (temp.toInt - toSigned 8 (s.fld (F.GRF_CH_PROF_CAL_CAL_TEMP x n))).natAbs →
        goes (.calStale x n (.temperature temp)) (fun t => t.bit (F.GRF_CH_PROF_CAL_STALE x n) = true ∧ EventUp 37 t ∧
          RegsBut (R.GRF_CH_PROF_CAL x n :: evKeys 37) s t)) ∧
      ((temp.toInt - toSigned 8 (s.fld (F.GRF_CH_PROF_CAL_CAL_TEMP x n))).natAbs ≤ 15 →
        exec (.calStale x n (.temperature temp)) s = .next s))

/-- R94, R95, R96: the antenna supervisor: two samples at SHORT_TH open the switch, to be retried or latched; 1,000 samples below
OPEN_TH, or between the thresholds, give OPEN or OK; a retry closes the switch; a write of ANT_CFG clears a short. Each change of
STATE raises EV_032 + x.
Where the spec leaves a choice it is the model's: assumption 58. -/
def Obligations.AntennaSupervision : Prop :=
  ∀ (who : Reader) (x : Fin 4) (a b : BitVec 10) (v : Word) (s : State),
    let th := 5 * s.fld (F.GRF_CH_ANT_CFG_SHORT_TH x)
    let lo := 5 * s.fld (F.GRF_CH_ANT_CFG_OPEN_TH x)
    let was := s.fld (F.GRF_CH_ANT_STAT_STATE x)
    let latch := s.fld (F.GRF_CH_ANT_CFG_RETRY_MAX x) = 0 ∨ s.fld (F.GRF_CH_ANT_CFG_RETRY_INT x) = 0 ∨
      s.fld (F.GRF_CH_ANT_STAT_RETRIES x) = s.fld (F.GRF_CH_ANT_CFG_RETRY_MAX x)
    let goes (i : Instr) (st : Nat) (on : Bool) (post : State → Prop) : Prop := ∃ t, exec i s = .next t ∧ MemsSame s t ∧
      t.fld (F.GRF_CH_ANT_STAT_STATE x) = st ∧ (chain t x).biasOn = on ∧ (was ≠ st → EventUp (32 + x.val) t) ∧ post t
    ((chain s x).biasOn = true →
      (th ≤ a.toNat → th ≤ b.toNat →
        (latch → goes (.antShort x a b) 4 false (fun t => t.fld (F.GRF_CH_ANT_STAT_CURRENT x) = b.toNat)) ∧
        (¬latch → goes (.antShort x a b) 3 false (fun t => t.fld (F.GRF_CH_ANT_STAT_CURRENT x) = b.toNat))) ∧
      (2 * b.toNat < lo → goes (.antOpen x b) 2 true (fun t => t.fld (F.GRF_CH_ANT_STAT_CURRENT x) = b.toNat)) ∧
      (lo ≤ 2 * b.toNat → b.toNat < th → goes (.antOk x b) 1 true (fun t => t.fld (F.GRF_CH_ANT_STAT_CURRENT x) = b.toNat))) ∧
    ((chain s x).biasOn = false → goes (.antShort x a b) was false (fun t =>
      t.fld (F.GRF_CH_ANT_STAT_CURRENT x) = b.toNat ∧ RegsBut [R.GRF_CH_ANT_STAT x] s t)) ∧
    (was = 3 → biasWanted x s = true → goes (.antRetry x) 3 true (fun t =>
      t.fld (F.GRF_CH_ANT_STAT_RETRIES x) = (s.fld (F.GRF_CH_ANT_STAT_RETRIES x) + 1) % 256)) ∧
    (was ≠ 3 → exec (.antRetry x) s = .next s) ∧
    (Open who (R.GRF_CH_ANT_CFG x) s →
      (v.toNat % 4 = 1 → goes (.antCfgWrite who x v) (if was = 3 ∨ was = 4 then 0 else was) true (fun t =>
        t.fld (F.GRF_CH_ANT_STAT_RETRIES x) = 0 ∧ t.fld (F.GRF_CH_ANT_CFG_SHORT_TH x) = bitsOf v.toNat 15 8)) ∧
      (v.toNat % 4 = 0 → goes (.antCfgWrite who x v) 0 false (fun t => t.fld (F.GRF_CH_ANT_STAT_RETRIES x) = 0)))

/-- R101, R102, R105, R107 to R111, R114: gain control's window, the blanker's interval, a notch allotted and released, a spectrum
published unless frozen, each from what the sample path gathered and once, the notches only while the samples are valid, and the
learning of the quiet-sky gain.
Where the spec leaves a choice it is the model's: assumptions 59, 60, 61, 62, 63. -/
def Obligations.InterferenceConditioning : Prop :=
  ∀ (who : Reader) (x : Fin 4) (u mag clip count : Nat) (bins : List (BitVec 16)) (n : Fin 8) (carriers : List (Fin 8 × BitVec 32))
    (f : BitVec 32) (s : State),
    let c := ifcCh s x
    let g := s.fld (F.IFC_CH_AGC_STAT_GAIN x)
    let ratio := s.fld (F.IFC_CH_BLANK_CFG_SAT_RATIO x)
    let goes (i : Instr) (post : State → Prop) : Prop := ∃ t, exec i s = .next t ∧ MemsSame s t ∧ post t
    (c.agcEnd = some (u, mag, clip) → u < 1024 → goes (.agcWindowEnd x .byDevice .byDevice .byDevice) (fun t =>
        t.bit (F.IFC_CH_AGC_STAT_NO_DATA x) = true ∧
      t.fld (F.IFC_CH_AGC_STAT_GAIN x) = g ∧ (ifcCh t x).agcEnd = none ∧ RegsBut [R.IFC_CH_AGC_STAT x] s t)) ∧
    (c.agcEnd = some (u, mag, clip) → 1024 ≤ u → goes (.agcWindowEnd x .byDevice .byDevice .byDevice) (fun t =>
        t.bit (F.IFC_CH_AGC_STAT_NO_DATA x) = false ∧
      t.bit (F.IFC_CH_AGC_STAT_CLIP x) = decide (u < 16 * clip) ∧ (ifcCh t x).agcEnd = none ∧
      t.fld (F.IFC_CH_AGC_STAT_MEAN x) = 8 * mag / (2 * u) % 256 ∧
      (s.fld (F.IFC_CH_AGC_CFG_MODE x) = 1 → t.fld (F.IFC_CH_AGC_STAT_GAIN x) = g) ∧
      (s.fld (F.IFC_CH_AGC_CFG_MODE x) = 2 → t.fld (F.IFC_CH_AGC_STAT_GAIN x) = s.fld (F.IFC_CH_AGC_CFG_MAN_GAIN x)) ∧
      (s.fld (F.IFC_CH_AGC_CFG_MODE x) = 0 → u < 16 * clip →
        t.fld (F.IFC_CH_AGC_STAT_GAIN x) = g - s.fld (F.IFC_CH_AGC_CFG_MAX_STEP x)))) ∧
    (c.agcEnd = none → exec (.agcWindowEnd x .byDevice .byDevice .byDevice) s = .next s) ∧
    (c.blankEnd = some count → ratio ≠ 0 → ratio * 120000 < count * 256 → s.bit (F.IFC_CH_BLANK_STAT_SUSPENDED x) = false →
      goes (.blankIntervalEnd x .byDevice) (fun t => t.bit (F.IFC_CH_BLANK_STAT_SUSPENDED x) = true ∧ (ifcCh t x).blankEnd = none ∧
        t.bit (F.IFC_CH_BLANK_STAT_SATURATED x) = true ∧ EventUp 45 t ∧
        t.fld (F.IFC_CH_BLANK_STAT_COUNT x) = count % 2 ^ 17)) ∧
    (c.blankEnd = some count → count * 256 < ratio * 120000 → goes (.blankIntervalEnd x .byDevice) (fun t =>
      t.bit (F.IFC_CH_BLANK_STAT_SUSPENDED x) = false ∧ t.fld (F.IFC_CH_BLANK_STAT_COUNT x) = count % 2 ^ 17 ∧
      (ifcCh t x).blankEnd = none ∧ RegsBut [R.IFC_CH_BLANK_STAT x] s t)) ∧
    (c.blankEnd = none → exec (.blankIntervalEnd x .byDevice) s = .next s) ∧
    (∀ k p, c.detEnd = some bins → c.valid = true → s.bit (F.IFC_CH_NOTCH_CFG_AUTO x) = true → (∀ m < 8, s.bit (F.IFC_CH_NOTCH_CTRL_ACTIVE x m) = false) →
      strongest (notchCandidates (bins.map (·.toNat)) (s.fld (F.IFC_CH_NOTCH_CFG_DETECT_TH x))) = some (k, p) →
      s.fld (F.IFC_CH_NOTCH_CTRL_MODE x n) = 1 → (∀ m < n.val, s.fld (F.IFC_CH_NOTCH_CTRL_MODE x m) ≠ 1) →
      goes (.notchAllocate x .byDevice carriers) (fun t => t.bit (F.IFC_CH_NOTCH_CTRL_ACTIVE x n) = true ∧
        t.word (R.IFC_CH_NOTCH_FREQ x n) = freqOfBin k ∧
        t.fld (F.IFC_CH_NOTCH_CTRL_LEVEL x n) = min 255 ((2 * p - median2 (bins.map (·.toNat))) / 100) ∧
        RegsBut [R.IFC_CH_NOTCH_CTRL x n, R.IFC_CH_NOTCH_FREQ x n] s t)) ∧
    (c.valid = true → s.fld (F.IFC_CH_NOTCH_CTRL_MODE x n) = 1 → s.bit (F.IFC_CH_NOTCH_CTRL_ACTIVE x n) = true →
      within4Bins f (Sparse.get (fun _ => 0) c.alloc n) = false →
      goes (.notchRelease x n (some f)) (fun t => t.bit (F.IFC_CH_NOTCH_CTRL_ACTIVE x n) = false ∧
        RegsBut [R.IFC_CH_NOTCH_CTRL x n] s t)) ∧
    (s.fld (F.IFC_CH_NOTCH_CTRL_MODE x n) = 2 → exec (.notchRelease x n (some f)) s = .next s) ∧
    (c.detEnd = none ∨ c.valid = false → exec (.notchAllocate x .byDevice carriers) s = .next s) ∧
    (c.valid = false → exec (.notchRelease x n (some f)) s = .next s) ∧
    (c.specEnd = some bins → s.bit (F.IFC_CH_SPEC_CTRL_EN x) = true → s.bit (F.IFC_CH_SPEC_CTRL_FREEZE x) = false →
      bins.length = 2048 → goes (.spectrumComplete x .byDevice) (fun t => (ifcCh t x).specEnd = none ∧
        t.fld (F.IFC_CH_SPEC_CTRL_SEQ x) = (s.fld (F.IFC_CH_SPEC_CTRL_SEQ x) + 1) % 65536 ∧
        ∀ j < 1024, t.word (R.IFC_CH_SPEC_BIN x j) = bins.getD (2 * j + 1) 0 ++ bins.getD (2 * j) 0)) ∧
    (s.bit (F.IFC_CH_SPEC_CTRL_FREEZE x) = true → goes (.spectrumComplete x .byDevice) (fun t => t.regs = s.regs)) ∧
    (c.specEnd = none → exec (.spectrumComplete x .byDevice) s = .next s) ∧
    (Open who (R.IFC_CH_JAM_STAT x) s → goes (.ifcLearn who x) (fun t => t.bit (F.IFC_CH_JAM_STAT_LEARN_BUSY x) = true ∧
      (ifcCh t x).learnSum = 0 ∧ (ifcCh t x).learnCount = 0 ∧ RegsBut [R.IFC_CH_JAM_STAT x] s t)) ∧
    (s.bit (F.IFC_CH_JAM_STAT_LEARN_BUSY x) = true → c.learnBad = false → c.learnCount ≠ 0 →
      goes (.learnDone x) (fun t => t.bit (F.IFC_CH_JAM_STAT_LEARN_BUSY x) = false ∧
        t.fld (F.IFC_CH_JAM_CFG_GAIN_REF x) =
          (2 * c.learnSum + c.learnCount) / (2 * c.learnCount) % 64)) ∧
    (s.bit (F.IFC_CH_JAM_STAT_LEARN_BUSY x) = true → c.learnBad = true → goes (.learnDone x) (fun t =>
      t.bit (F.IFC_CH_JAM_STAT_LEARN_BUSY x) = false ∧ RegsBut [R.IFC_CH_JAM_STAT x] s t))

/-- R115 to R120: at an epoch a satellite whose OSNMA verdict is FAIL, or one of whose signals was off in Doppler at two epochs
running, becomes SUSPECT; with no check enabled and no failure
remembered it is TRUSTED while its last OSNMA OK is young enough and ROOT_OK is 1, else UNVERIFIED. CLEAR forgets a satellite;
clearing ROOT_OK ends every TRUSTED.
Where the spec leaves a choice it is the model's: assumption 64. -/
def Obligations.FalseSignalMonitor : Prop :=
  ∀ (who : Reader) (n : Nat) (v : Word) (b : BitVec 8) (s : State), n < 221 →
    let obs := fsmObs s
    let goes (i : Instr) (post : State → Prop) : Prop := ∃ t, exec i s = .next t ∧ MemsSame s t ∧ post t
    (s.fsm.osnma = [] → s.bit F.IFC_FSM_CFG_EN_OSNMA = true → s.bit F.IFC_FSM_CFG_ROOT_OK = true →
      s.fld (F.IFC_FSM_SAT_OSNMA n) = 2 → goes (.fsmEpoch .byDevice) (fun t => verdict n t = 2 ∧ t.fsm.fail n = some s.tick)) ∧
    (∀ sig, s.bit F.IFC_FSM_CFG_EN_DOP = true → (n, sig) ∈ dopOver obs s → (n, sig) ∈ s.fsm.dopOver →
      goes (.fsmEpoch .byDevice) (fun t => verdict n t = 2 ∧ t.bit (F.IFC_FSM_SAT_DOP n) = true ∧ t.fsm.fail n = some s.tick)) ∧
    (s.fsm.osnma = [] → s.bit F.IFC_FSM_CFG_EN_OSNMA = false → s.bit F.IFC_FSM_CFG_EN_PWR = false →
      s.bit F.IFC_FSM_CFG_EN_DOP = false → s.bit F.IFC_FSM_CFG_EN_XB = false → s.fsm.fail n = none →
      goes (.fsmEpoch .byDevice) (fun t => t.fsm.drift = obs.drift ∧ verdict n t =
        if s.bit F.IFC_FSM_CFG_ROOT_OK = true ∧
          (s.fsm.ok n).any (fun k => decide (s.tick < k + s.fld F.IFC_FSM_CFG_OSNMA_AGE * secTicks)) = true
        then 1 else 0)) ∧
    (b.toNat = n → Open who (R.IFC_FSM_SAT n) s → goes (.fsmClear who b) (fun t => verdict n t = 0 ∧ t.fsm.fail n = none ∧
      t.fld (F.IFC_FSM_SAT_OSNMA n) = (if s.fld (F.IFC_FSM_SAT_OSNMA n) = 2 then 0 else s.fld (F.IFC_FSM_SAT_OSNMA n)) ∧
      (verdict n s ≠ 0 → s.fsm.satEvent = false → EventUp 46 t) ∧
      ∀ m < 221, m ≠ n → t.word (R.IFC_FSM_SAT m) = s.word (R.IFC_FSM_SAT m))) ∧
    (221 ≤ b.toNat → Open who (R.IFC_FSM_SAT b.toNat) s → exec (.fsmClear who b) s = .next s) ∧
    (Open who R.IFC_FSM_CFG s → goes (.rootOkWrite who v) (fun t =>
      t.bit F.IFC_FSM_CFG_ROOT_OK = v.getLsbD 29 ∧
      verdict n t = if v.getLsbD 29 = false ∧ verdict n s = 1 then 0 else verdict n s))

/-! Tracking and navigation data (chapters 04, 05 and 06), and the start budget (chapter 20). -/

/-- R125, R131, R134 to R140, R143, R144, R149, R533, R534: a ring's power is asked for and ends its channels; a channel starts at
once, waits for its time, is refused with its reason, or stops; rate words wait for a running channel, an adjustment and a secondary
index are pending, and ALIGN_GO ends the integration at the unit boundary it names. Other channels and the memories stand.
Where the spec leaves a choice it is the model's: assumptions 65, 66, 67. -/
def Obligations.RingsAndChannels : Prop :=
  ∀ (who : Reader) (n : Fin 10) (k : Fin 320) (v : Word) (carrier : Bool) (s : State),
    let c := trkCh s k
    let d := 5 + n.val
    let w := v ||| 0x80000000
    let goes (i : Instr) (post : State → Prop) : Prop := ∃ t, exec i s = .next t ∧ MemsSame s t ∧ post t
    let chan (i : Instr) (post : State → Prop) : Prop := goes i (fun t => post t ∧ ∀ j < 320, j / 2 ≠ k.val / 2 →
      trkCh t j = trkCh s j ∧ t.word (R.TRK_CH_STATUS j) = s.word (R.TRK_CH_STATUS j))
    (Open who (R.TRK_RING_CTRL n) s →
      (v.toNat % 2 = 1 → domainOn d s = false → startQueued d s = false → goes (.ringPower who n v) (fun t =>
        t.budget.queue = s.budget.queue ++ [⟨d, s.tick, none⟩] ∧
        t.bit (F.TRK_RING_CTRL_BUSY n) = (!s.budget.queue.isEmpty || !canGrant d s))) ∧
      (v.toNat % 2 = 0 → domainOn d s = true → goes (.ringPower who n v) (fun t => domainOn d t = false ∧
        (∀ j < 32, chState (32 * n + j) t = 0) ∧ (t.seq n).run = .halted ∧
        (∀ j < 320, j / 32 ≠ n.val → chState j t = chState j s ∧ trkCh t j = trkCh s j)))) ∧
    (∀ r rest, s.pwr.hib = false → (∀ p ∈ s.tt, p.2.waiting = none) → s.budget.queue = r :: rest → r.domain < 23 → r.tt = none →
      (canGrant r.domain s = true → goes .domainStartGrant (fun t => domainOn r.domain t = true ∧ t.budget.queue = rest)) ∧
      (canGrant r.domain s = false → exec .domainStartGrant s = .next s)) ∧
    (Open who (R.TRK_CH_CTRL k) s → domainOn (5 + k.val / 32) s = true →
      (chState k s = 0 → v.getLsbD 29 = false → v.getLsbD 30 = false →
        startRefusal k (plainWrite who (R.TRK_CH_CTRL k) w s) = none → chan (.channelStart who k v) (fun t => chState k t = 2 ∧
          t.fld (F.TRK_CH_STATUS_REASON k) = 0 ∧ t.fld (F.TRK_CH_STATUS_RESULT k) = ST.ok ∧ (trkCh t k).at_ = s.tick + 1 ∧
          t.maskBit (R.TRK_RING_RUN (k.val / 32)) (k.val % 32) = true)) ∧
      (∀ reason result, chState k s = 0 → v.getLsbD 29 = false →
        startRefusal k (plainWrite who (R.TRK_CH_CTRL k) w s) = some (reason, result) → chan (.channelStart who k v) (fun t =>
          chState k t = 0 ∧ t.bit (F.TRK_CH_CTRL_EN k) = false ∧ t.fld (F.TRK_CH_STATUS_REASON k) = reason ∧
          t.fld (F.TRK_CH_STATUS_RESULT k) = result ∧ t.maskBit (R.TRK_RING_ERR_PEND (k.val / 32)) (k.val % 32) = true ∧
          (s.maskBit (R.TRK_RING_ERR_PEND (k.val / 32)) (k.val % 32) = false → EventUp (48 + k.val / 32) t))) ∧
      (chState k s ≠ 0 → (k.val % 2 = 1 ∨ s.bit (F.TRK_CH_CTRL_PAIR k) = false) → chan (.channelStop who k) (fun t =>
        chState k t = 0 ∧ t.bit (F.TRK_CH_CTRL_EN k) = false ∧ t.maskBit (R.TRK_RING_RUN (k.val / 32)) (k.val % 32) = false ∧
        (trkCh t k).dumps = c.dumps))) ∧
    (chState k s = 1 → isFollower k s = false →
      (∀ m, startPassed k s = some m → chan (.timedStart k) (fun t => chState k t = 2 ∧ (trkCh t k).at_ = s.tick ∧
        (trkCh t k).phase = (loadNco k s c).phase + c.codeRate * m)) ∧
      (startPassed k s = none → exec (.timedStart k) s = .next s)) ∧
    (Open who (rateHiOff k carrier) s → domainOn (5 + k.val / 32) s = true → isFollower k s = false →
      let code := v.toNat % 2 ^ 16 * 2 ^ 32 + c.codeLo
      let carr := toSigned 48 (v.toNat % 2 ^ 16 * 2 ^ 32 + c.carrLo)
      (carrier = false → code ≤ 2 ^ 45 → chan (.rateWrite who k carrier v) (fun t =>
        if chState k s = 0 then (trkCh t k).codeRate = code ∧ (trkCh t k).codeNew = none else (trkCh t k).codeNew = some (code, s.tick))) ∧
      (carrier = true → carr.natAbs ≤ 2 ^ 46 → chan (.rateWrite who k carrier v) (fun t =>
        if chState k s = 0 then (trkCh t k).carrRate = carr ∧ (trkCh t k).carrNew = none else (trkCh t k).carrNew = some (carr, s.tick))) ∧
      (carrier = false → 2 ^ 45 < code → chan (.rateWrite who k carrier v) (fun t =>
        t.fld (F.TRK_CH_STATUS_REASON k) = 7 ∧ t.fld (F.TRK_CH_STATUS_RESULT k) = ST.format ∧ trkCh t k = c))) ∧
    (Open who (R.TRK_CH_CODE_ADJ k) s → domainOn (5 + k.val / 32) s = true → isFollower k s = false →
      chan (.codeAdj who k v) (fun t => trkCh t k = { c with adj := some (v.toInt, s.tick) })) ∧
    (Open who (R.TRK_CH_SEC k) s → domainOn (5 + k.val / 32) s = true → v.getLsbD 30 = true →
      (chState k s ≠ 2 → chan (.secSet who k v) (fun t => (trkCh t k).idx = v.toNat % 2 ^ 11 ∧ (trkCh t k).secSet = none)) ∧
      (chState k s = 2 → chan (.secSet who k v) (fun t =>
        (trkCh t k).secSet = some (v.toNat % 2 ^ 11, (ncoNow (ncoOf k s) s).epochs (chLen (ncoOf k s) s) + 1)))) ∧
    (Open who (R.TRK_CH_INT k) s → domainOn (5 + k.val / 32) s = true → isFollower k s = false → chState k s = 2 →
      (intOk k (v.toNat % 256) s = true → bitsOf v.toNat 23 16 ≠ 0 → c.n0 ≠ 0 → chan (.alignGo who k v) (fun t =>
        (trkCh t k).uEnd = (ncoNow k s).phase / unitPhase k s + bitsOf v.toNat 23 16)) ∧
      (intOk k (v.toNat % 256) s = false → chan (.alignGo who k v) (fun t => t.fld (F.TRK_CH_STATUS_REASON k) = 6 ∧
        t.word (R.TRK_CH_INT k) = s.word (R.TRK_CH_INT k) ∧ trkCh t k = c)))

/-- R144 to R148, R161 to R163, R165: an integration whose end the code phase reaches is kept to be dumped and the next one begins; a
dump writes its record into one of the channel's two places and sets PEND or LOST; an epoch's capture, once every channel has reached
its sample of it, writes one record a running or waiting channel, the epoch, CSEQ, PEND and MISSED; PUBLISH hands over the current
capture's records, or is late where the capture before it was not published.
Where the spec leaves a choice it is the model's: assumptions 68, 168. -/
def Obligations.DumpsAndEpochs : Prop :=
  ∀ (who : Reader) (n : Fin 10) (k : Fin 320) (d : TrkDump) (rest : List TrkDump) (s : State),
    let c := trkCh s k
    let now := c.run (s.tick - c.at_)
    let at_ := ringMem (k.val / 32) + 0x80 * (k.val % 32) + 0x40 * (c.seq % 2)
    let pend := s.maskBit (R.TRK_RING_DUMP_PEND (k.val / 32)) (k.val % 32)
    let cseq := s.fld (F.TRK_RING_EPOCH_STAT_CSEQ n)
    let last := s.fld (F.TRK_RING_MEAS_CTRL_LAST_CSEQ n)
    let rs := measOf n cseq s
    (chState k s = 2 → isFollower k s = false → c.at_ ≤ s.tick → c.n0 ≠ 0 →
      (c.uEnd * unitPhase k s ≤ now.phase → let t := channelTick k s
        ∃ e, (trkCh t k).dumps = c.dumps ++ [e] ∧ e.nvalid = c.nvalid ∧ e.acc = c.acc ∧ e.shift = s.fld (F.TRK_CH_INT_SHIFT k) ∧
          e.epoch = (now.epochs (chLen k s) % 256).toNat ∧ e.flags = (if c.first ∨ c.uEnd - c.u0 ≠ c.n0 then 2 else 0) +
            (if c.rateFlag then 4 else 0) + (if c.adjFlag then 8 else 0) + (if strips k s then 16 else 0) ∧
          (trkCh t k).n0 = planUnits k s ∧ (trkCh t k).first = false) ∧
      (now.phase < c.uEnd * unitPhase k s → (trkCh (channelTick k s) k).dumps = c.dumps)) ∧
    (c.dumps = d :: rest → domainOn (5 + k.val / 32) s = true → ∃ t, exec (.trkDump k .byDevice) s = .next t ∧
      t.memBytes at_ 64 = (dumpRecord c.seq d).1 ∧
      (∀ x, x < at_ ∨ at_ + 64 ≤ x → t.memByte x = s.memByte x) ∧
      t.maskBit (R.TRK_RING_DUMP_PEND (k.val / 32)) (k.val % 32) = true ∧
      (pend = true → t.maskBit (R.TRK_RING_DUMP_LOST (k.val / 32)) (k.val % 32) = true) ∧
      t.fld (F.TRK_CH_STATUS_DUMP_SEQ k) = c.seq % 256 ∧ trkCh t k = { c with seq := (c.seq + 1) % 2 ^ 16, dumps := rest } ∧
      (∀ j, j ≠ k.val → trkCh t j = trkCh s j)) ∧
    (c.dumps = [] ∨ domainOn (5 + k.val / 32) s = false → exec (.trkDump k .byDevice) s = .next s) ∧
    (∀ e, domainOn (5 + n.val) s = true →
      let reached := ∀ j < 32, chState (32 * n + j) s = 0 ∨ captureReached (32 * n + j) e s = true
      (epochNext n s = some e ∨ ((trkRing s n).passed = [] ∧ epochBy n s.nowU s = some e ∧ epochDue n e s = true ∧ reached) →
        ∃ t, exec (.epochCapture n) s = .next t ∧
        (∀ j < 32, t.memBytes (ringMem n + 0x1000 + 0x20 * j) 32 = if chState (32 * n + j) s = 0
          then s.memBytes (ringMem n + 0x1000 + 0x20 * j) 32
          else captureRecord (32 * n + j) e (trkRing s n).stepped ((cseq + 1) % 2 ^ 16) s) ∧
        (∀ x, x < ringMem n + 0x1000 ∨ ringMem n + 0x1400 ≤ x → t.memByte x = s.memByte x) ∧
        t.fld (F.TRK_RING_EPOCH_STAT_CSEQ n) = (cseq + 1) % 2 ^ 16 ∧ t.bit (F.TRK_RING_EPOCH_STAT_PEND n) = true ∧
        (s.bit (F.TRK_RING_EPOCH_STAT_PEND n) = true → t.bit (F.TRK_RING_EPOCH_STAT_MISSED n) = true) ∧
        t.word (R.TRK_RING_EPOCH_FRAC n) = BitVec.ofNat 32 (e / fracUnits) ∧
        t.word (R.TRK_RING_EPOCH_SEC n) = BitVec.ofNat 32 (e / fracUnits / 2 ^ 32) ∧
        trkRing t n = ⟨some e, (trkRing s n).passed.filter (fun p => decide (e < p.2)), false, (List.range 32).filter (fun j => chState (32 * n + j) s == 2)⟩ ∧ t.trk = s.trk) ∧
      ((trkRing s n).passed = [] → epochBy n s.nowU s = some e → epochDue n e s = false ∨ ¬reached →
        exec (.epochCapture n) s = .next s)) ∧
    (Open who (R.TRK_RING_MEAS_CTRL n) s →
      (rs ≠ [] ∨ cseq = last ∨ cseq = (last + 1) % 2 ^ 16 → ∃ t, exec (.measPublish who n) s = .next t ∧ t.mem = s.mem ∧
        t.trk = s.trk ∧ t.fld (F.TRK_RING_MEAS_CTRL_LAST_CSEQ n) = cseq ∧ publishedOf n t =
          (s.fld (F.TRK_RING_EPOCH_SEC_SEC_LO n) * 2 ^ 32 + s.fld (F.TRK_RING_EPOCH_FRAC_FRAC n), rs)) ∧
      (rs = [] → cseq ≠ last → cseq ≠ (last + 1) % 2 ^ 16 → s.bit (F.TRK_RING_EPOCH_STAT_PEND n) = true → ∃ t, exec (.measPublish who n) s = .next t ∧ MemsSame s t ∧
        t.bit (F.TRK_RING_EPOCH_STAT_MEAS_LATE n) = true ∧ EventUp (48 + n.val) t ∧ t.published = s.published))

/-- R169 to R172, R178, R182 to R184: a symbol word is queued, refused or dropped; a dequeued symbol is appended and moves the
channel's synchronisation; a unit is staged with its sequence number or dropped on a full ring; RD consumes and DROP clears.
Where the spec leaves a choice it is the model's: assumptions 69, 70. -/
def Obligations.NavigationPath : Prop :=
  ∀ (who : Reader) (n : Fin 10) (v : Word) (s : State),
    let q := navQueue s n
    let k := 32 * n.val + bitsOf v.toNat 31 27
    let wr := s.fld F.NAV_STG_WR_WR
    let rd := s.fld F.NAV_STG_RD_RD
    let full (t : State) : Bool := (t.fld F.NAV_STG_WR_WR + 1) % 512 == t.fld F.NAV_STG_RD_RD
    (Open who (R.NAV_RING_SYM n) s →
      (symbolRefused k v s = false → q.length < 64 → ∃ t, exec (.symbolWrite who n v) s = .next t ∧ MemsSame s t ∧
        navQueue t n = q ++ [(v, (navCh s k).tag, (navCh s k).owed)] ∧ t.fld (F.NAV_RING_STAT_LEVEL n) = q.length + 1 ∧
        navCh t k = { navCh s k with owed := 0 } ∧ (∀ j, j ≠ k → navCh t j = navCh s j) ∧ RegsBut [R.NAV_RING_STAT n] s t) ∧
      (symbolRefused k v s = false → 64 ≤ q.length → ∃ t, exec (.symbolWrite who n v) s = .next t ∧ MemsSame s t ∧
        t.navFifo = s.navFifo ∧ t.bit (F.NAV_RING_STAT_OVF n) = true ∧ (navCh t k).owed = (navCh s k).owed + 1) ∧
      (symbolRefused k v s = true → ∃ t, exec (.symbolWrite who n v) s = .next t ∧ MemsSame s t ∧ t.navFifo = s.navFifo ∧
        t.bit (F.NAV_CH_STAT_REJ k) = true ∧ t.nav = s.nav ∧ RegsBut [R.NAV_CH_STAT k] s t)) ∧
    (q = [] → exec (.symbolDequeue n .byDevice) s = .next s) ∧
    (∀ tag owed rest f, q = (v, tag, owed) :: rest → chFmt k s = some f →
      let c := navCh s k
      let go (post : State → Prop) : Prop := ∃ t, exec (.symbolDequeue n .byDevice) s = .next t ∧ navQueue t n = rest ∧ MemsSame s t ∧ post t
      let sync (t : State) : Nat := t.fld (F.NAV_CH_STAT_SYNC k)
      let a := navAppend k [⟨softOf v, v.getLsbD 11, some (BitVec.ofNat 8 (bitsOf v.toNat 23 16))⟩] (setNavQueue s n rest)
      let units (m : Nat) (pol : Bool) : List NavOut := navUnits k f m pol a
      (c.tag ≠ tag → go (fun t => t.nav = s.nav)) ∧
      (c.tag = tag → v.getLsbD 10 = false → go (fun t => t.fld (F.NAV_CH_SYMIDX_SYMIDX k) =
        (s.fld (F.NAV_CH_SYMIDX_SYMIDX k) + bitsOf v.toNat 14 12 + owed + 1) % 2 ^ 32)) ∧
      (c.tag = tag → v.getLsbD 10 = true → sync s = 2 → go (fun t => t.bit (F.NAV_CH_STAT_SYNC_LOST k) = true ∧ EventUp 61 t)) ∧
      (c.tag = tag → v.getLsbD 10 = false → bitsOf v.toNat 14 12 = 0 → owed = 0 → c.seen = c.buf.length →
        (sync s = 0 → f.sync = .mark → v.getLsbD 11 = true → go (fun t => sync t = 1 ∧ (navCh t k).start = c.seen)) ∧
        (sync s = 1 → f.words = true → c.seen + 1 = c.start + 60 →
          (units 60 (s.bit (F.NAV_CH_STAT_POL k))).all (fun o => (o.checks.take 2).all id) = true →
          go (fun t => sync t = 2 ∧ t.bit (F.NAV_CH_STAT_POL_VALID k) = true ∧ t.navUnits = s.navUnits)) ∧
        (sync s = 1 → f.words = false → f.sync ≠ .mark → 2 ≤ c.start + f.unit → c.seen + 1 = c.start + f.unit + f.tail →
          ∀ o os, units (f.unit + f.tail) (s.bit (F.NAV_CH_STAT_POL k)) = o :: os → o.pass = true →
            go (fun t => sync t = 2 ∧ t.bit (F.NAV_CH_STAT_POL_VALID k) = true ∧
              s.navUnits.length + os.length < t.navUnits.length)) ∧
        (sync s = 2 → f.sync ≠ .mark → 2 ≤ c.start + f.unit → c.seen + 1 = c.start + f.unit + f.tail →
          (∀ p ∈ f.places, c.seen + 1 ≠ c.start + p + f.patLen) →
          ∀ o os, units (f.unit + f.tail) (s.bit (F.NAV_CH_STAT_POL k)) = o :: os → (∀ u ∈ o :: os, u.verdict f = 1) →
            s.fld F.NAV_CFG_LOSS_N ≠ 0 → s.fld F.NAV_CFG_LOSS_N ≤ c.fails + 1 →
            go (fun t => sync t = 0 ∧ t.bit (F.NAV_CH_STAT_SYNC_LOST k) = true ∧ EventUp 61 t ∧
              s.navUnits.length < t.navUnits.length)))) ∧
    (s.navUnits = [] → exec .unitStage s = .next s) ∧
    (∀ r rest, s.navUnits = r :: rest →
      ((wr + 1) % 512 ≠ rd → ∃ t, exec .unitStage s = .next t ∧ t.navUnits = rest ∧
        t.memBytes (stagingBase + 0x80 * wr) 128 = stagedBytes r (s.fld F.NAV_STG_WR_NSEQ) s ∧
        (∀ x, x < stagingBase + 0x80 * wr ∨ stagingBase + 0x80 * wr + 128 ≤ x → t.memByte x = s.memByte x) ∧
        t.fld F.NAV_STG_WR_WR = (wr + 1) % 512 ∧ t.fld F.NAV_STG_WR_NSEQ = (s.fld F.NAV_STG_WR_NSEQ + 1) % 2 ^ 16 ∧
        t.bit F.NAV_STG_STAT_FULL = full t) ∧
      ((wr + 1) % 512 = rd → ∃ t, exec .unitStage s = .next t ∧ t.navUnits = rest ∧ MemsSame s t ∧
        t.bit F.NAV_STG_STAT_DROP = true ∧ t.fld F.NAV_STG_STAT_DROP_CNT = min 0xFFFF (s.fld F.NAV_STG_STAT_DROP_CNT + 1) ∧
        EventUp 60 t ∧ t.fld F.NAV_STG_WR_WR = wr)) ∧
    (Open who R.NAV_STG_RD s →
      ((v.toNat % 512 + 512 - rd) % 512 ≤ (wr + 512 - rd) % 512 → ∃ t, exec (.stgRdWrite who v) s = .next t ∧ MemsSame s t ∧
        t.fld F.NAV_STG_RD_RD = v.toNat % 512 ∧ t.bit F.NAV_STG_STAT_FULL = full t ∧
        RegsBut [R.NAV_STG_RD, R.NAV_STG_STAT] s t) ∧
      ((wr + 512 - rd) % 512 < (v.toNat % 512 + 512 - rd) % 512 → ∃ t, exec (.stgRdWrite who v) s = .next t ∧ MemsSame s t ∧
        t.bit F.NAV_STG_STAT_BADRD = true ∧ RegsBut [R.NAV_STG_STAT] s t)) ∧
    (Open who R.NAV_STG_STAT s → v.getLsbD 30 = true → ∃ t, exec (.dropClear who v) s = .next t ∧ MemsSame s t ∧
      t.bit F.NAV_STG_STAT_DROP = false ∧ t.fld F.NAV_STG_STAT_DROP_CNT = 0 ∧ RegsBut [R.NAV_STG_STAT] s t)

/-! The Sieve, the Carousel, and the sky table with its solver (chapters 07 to 10). -/

/-- R190 to R200: a queued entry at the head of its chain starts its capture; a good capture is searched, a bad one, or one that a
step of the timebase fell into, taken again three times at most; a transform takes its lane cycles from the window's budget or is capped; a finished search detects, confirms or ends; a
detection goes to a hand-off slot or times out; a stale hand-off is armed again; the planner fills free entries from 64 on; a window
starts its budgets afresh; in LEAN an idle lane group 0 stops.
Where the spec leaves a choice it is the model's: assumptions 33, 35, 71, 72, 73, 74, 75. -/
def Obligations.SieveSearches : Prop :=
  ∀ (who : Reader) (i : BitVec 7) (lane : Fin 64) (h : BitVec 16) (s : State),
    let e := planEntry s i.toNat
    let steps := s.fld F.TB_STATUS_STEP_SEQ
    let goes (c : Instr) (post : State → PlanEntry → Prop) : Prop := ∃ t, exec c s = .next t ∧ post t (planEntry t i.toNat) ∧
      (∀ j, j ≠ i.toNat → planEntry t j = planEntry s j) ∧ t.ram = s.ram ∧ t.flash = s.flash
    let ended (res : Nat) (t : State) (f : PlanEntry) : Prop := f.state = 6 ∧ f.armed = false ∧ f.result = res ∧ EventUp 64 t
    (s.bit F.SIEVE_CFG_EN = true → pstate s ≠ 2 → e.state = 1 → captureBusy e.chain s = false →
      planFirst (fun x => x.state == 1 && x.chain == e.chain) s = some i.toNat → e.conf = false →
      goes (.sieveCaptureStart i) (fun t f => f.state = 2 ∧ f.t = captureTag s ∧ f.steps = steps ∧ f.samples = [] ∧ t.regs = s.regs ∧
        (e.flag 29 = false → f.dopC = toSigned 32 (winWord e.req 2) ∧ f.dopHW = winWord e.req 3 ∧ f.codHW = winWord e.req 5))) ∧
    (s.bit F.SIEVE_CFG_EN = false → exec (.sieveCaptureStart i) s = .next s) ∧
    (∀ g, sigOf e.sig = some g → e.state = 2 → e.conf = false →
      let n := captureRate g.kcps * e.tcoh * e.nnc
      (n ≤ e.got.length → 8 * e.invalid ≤ n → steps = e.steps → goes (.sieveCaptureDone i .byDevice .byDevice) (fun _ f =>
        f.state = 3 ∧ f.samples = e.got.reverse ∧ f.got = [] ∧ f.left = (2 * e.binHalf + 1) * e.nnc * 2)) ∧
      (n ≤ e.got.length → n < 8 * e.invalid ∨ steps ≠ e.steps → e.retries < 3 → goes (.sieveCaptureDone i .byDevice .byDevice) (fun _ f =>
        f.state = 2 ∧ f.retries = e.retries + 1 ∧ f.t = captureTag s ∧ f.samples = [])) ∧
      (n ≤ e.got.length → n < 8 * e.invalid ∨ steps ≠ e.steps → 3 ≤ e.retries → goes (.sieveCaptureDone i .byDevice .byDevice) (ended ST.nosig)) ∧
      (e.got.length < n → exec (.sieveCaptureDone i .byDevice .byDevice) s = .next s)) ∧
    (laneFree lane s = true → sieveReady s = some i.toNat →
      (s.sieve.used + passCost e.size ≤ sieveBudget s → goes (.sieveTransformStart lane) (fun t f =>
        f = { e with left := e.left - 1, busy := e.busy + 1, lcyc := e.lcyc + passCost e.size } ∧
        (Machine.lane t lane).work = some (.sieve i.toNat e.order) ∧ t.sieve.used = s.sieve.used + passCost e.size ∧
        t.regs = s.regs)) ∧
      (sieveBudget s < s.sieve.used + passCost e.size → s.sieve.capped = false → goes (.sieveTransformStart lane) (fun t f =>
        f = e ∧ t.sieve.capped = true ∧ t.bit F.SIEVE_STAT_CAPPED = true ∧ EventUp 66 t ∧ t.car = s.car))) ∧
    (laneFree lane s = false → exec (.sieveTransformStart lane) s = .next s) ∧
    (e.searching = true → e.left = 0 → e.busy = 0 → goes (.sieveSearchDone i) (fun t f => t.mem = s.mem ∧
      ((f.state = 4 ∧ f.conf = true ∧ e.conf = false ∧ e.flag 30 = true) ∨ (f.state = 5 ∧ e.flag 28 = true) ∨
        (ended ST.ok t f ∧ e.flag 28 = false) ∨ ended (if e.conf then ST.weak else ST.nosig) t f ∨ ended ST.nosig t f))) ∧
    (e.searching = false → exec (.sieveSearchDone i) s = .next s) ∧
    (∀ n k, e.state = 5 → handRing s = some n → handSlot n s = some k → goes (.sieveHandoff i) (fun t f => ended ST.ok t f ∧
      f.ring = n ∧ f.hslot = k ∧ f.hseq = s.sieve.hseq ∧ f.issued = true ∧ t.sieve.hseq = (s.sieve.hseq + 1) % 2 ^ 16 ∧
      t.memBytes (ringMem n + 0x1400 + 0x20 * k) 32 = handBytes e s.sieve.hseq ∧
      (∀ a, a < ringMem n + 0x1400 + 0x20 * k ∨ ringMem n + 0x1420 + 0x20 * k ≤ a → t.memByte a = s.memByte a) ∧
      t.maskBit (R.TRK_RING_HANDOFF_PEND n) k = true)) ∧
    (e.state = 5 → handRing s = none →
      (2 ^ 32 / 10 : Int) ≤ toSigned 64 ((s.now64 + 2 ^ 64 - e.t) % 2 ^ 64) →
      goes (.sieveHandoffTimeout i) (fun t f => ended ST.busy t f ∧ EventUp 65 t ∧ t.mem = s.mem)) ∧
    (e.state ≠ 5 → exec (.sieveHandoff i) s = .next s ∧ exec (.sieveHandoffTimeout i) s = .next s) ∧
    (Open who R.SIEVE_STALE s →
      (∀ x, s.sieve.plan.find? (fun x => x.2.issued && x.2.hseq == h.toNat) = some (i.toNat, x) →
        goes (.sieveStale who h) (fun t f => f.armed = true ∧ f.state = 1 ∧ f.req.drop 1 = x.req.drop 1 ∧ t.regs = s.regs)) ∧
      (s.sieve.plan.find? (fun x => x.2.issued && x.2.hseq == h.toNat) = none → exec (.sieveStale who h) s = .next s)) ∧
    (s.bit F.SIEVE_CFG_AUTO = true → s.bit F.SIEVE_CFG_EN = true → s.fld F.SIEVE_CFG_PERIOD ≠ 0 → ∃ t, exec .autoPlan s = .next t ∧
      t.regs = s.regs ∧ MemsSame s t ∧ (∀ j, (planEntry s j).armed = true ∨ j < 64 → planEntry t j = planEntry s j) ∧
      (∀ j, planEntry t j ≠ planEntry s j → j < 128 ∧ (planEntry t j).armed = true ∧ (planEntry t j).state = 1)) ∧
    (s.bit F.SIEVE_CFG_AUTO = false → exec .autoPlan s = .next s) ∧
    (∃ t, exec .laneWindow s = .next t ∧ t.sieve = { s.sieve with used := 0, capped := false } ∧
      t.car = { s.car with used := 0, hit := false } ∧ t.regs = s.regs ∧ MemsSame s t) ∧
    (pstate s = 1 → domainOn 15 s = true → s.sieve.last + 1200000 ≤ s.tick → sieveReady s = none →
      (∀ l < 8, (Machine.lane s l).work = none) → ∃ t, exec .leanGroup0Stop s = .next t ∧ domainOn 15 t = false ∧ MemsSame s t) ∧
    (pstate s ≠ 1 → exec .leanGroup0Stop s = .next s)

/-- R204, R205, R213, R216 to R218, R222 to R226, R229, R254, R431, R433: a descriptor whose read completes gets a slot and its first six checks, or stays in its ring; blocks go to
the oldest waiting job; a staged snapshot passes its checks into QUEUED; the oldest queued job of the source served enters WINDOWS, and
leaves it with its passes ready; a record is written when there is room and none decided before it waits; deadlines and cancels end jobs; a lost forward is taken
back.
Where the spec leaves a choice it is the model's: assumptions 76, 77, 78, 79. -/
def Obligations.SnapshotJobs : Prop :=
  ∀ (who : Reader) (x : Fin 32) (y : Fin 34) (d : List Byte) (slot : BitVec 14) (block : Option (List Byte)) (v : Word) (j : Job)
    (s : State),
    let k := slot.toNat
    let desc := d.take 128 ++ List.replicate (128 - d.length) 0
    let w := backlogSync s
    let others (k : Nat) (t : State) : Prop := ∀ i, i ≠ k → jobAt t i = jobAt s i
    let goes (c : Instr) (post : State → Prop) : Prop := ∃ t, exec c s = .next t ∧ t.mem = s.mem ∧ t.ram = s.ram ∧ post t
    let ends (k st dt : Nat) (t : State) : Prop := others k t ∧ ∃ b, jobAt t k = some b ∧ b.state = 6 ∧ b.status = st ∧ b.detail = dt ∧
      b.record.isSome = true
    (s.car.reading = some x.val → s.host.d3hot = false → s.fld (F.CAR_SRC_LIMIT_MAXSLOT x) ≠ 0 → ringOn x s = true →
      ∀ n, nextSlot s = some n →
      (∀ st dt, descCheck x false desc s = some (st, dt) → goes (.descriptorTake x d) (fun t => ends n st dt t ∧
        t.word (R.HOST_RING_HEAD x) = s.word (R.HOST_RING_HEAD x) + 1 ∧ slotGen t n = (slotGen s n + 1) % 256)) ∧
      (descCheck x false desc s = none → goes (.descriptorTake x d) (fun t => others n t ∧ (∃ b, jobAt t n = some b ∧
          b.state = 1 ∧ b.src = x.val ∧ b.desc = desc ∧ (b.blocks = 0 ∨ b.blocks = blocksFor (descLen desc))) ∧
        t.word (R.HOST_RING_HEAD x) = s.word (R.HOST_RING_HEAD x) + 1 ∧ slotGen t n = (slotGen s n + 1) % 256))) ∧
    (s.car.reading ≠ some x.val ∨ s.host.d3hot = true → exec (.descriptorTake x d) s = .next s) ∧
    (s.car.reading = some x.val → s.host.d3hot = false → descTakes x s = false →
      exec (.descriptorTake x d) s = .next { s with car := { s.car with reading := none } }) ∧
    (∀ n b, stageWaiting s = some (n, b) → jobAt s n = some b →
      (blocksFor (descLen b.desc) ≤ stageFree s → goes .stageBlocksGrant (fun t => others n t ∧ t.regs = s.regs ∧
        jobAt t n = some { b with blocks := blocksFor (descLen b.desc) } ∧
        (b.src < 32 → t.out = s.out ++ [.hostRead (leAt b.desc 96 8) (descLen b.desc)]))) ∧
      (stageFree s < blocksFor (descLen b.desc) → exec .stageBlocksGrant s = .next s)) ∧
    (jobAt s k = some j → j.state = 1 → j.blocks ≠ 0 → j.ending = none → j.src < 32 →
      (∀ b, block = some b → leAt b 1 1 = 2 →
        (∀ p, snapCheck j.desc b = none → profileFor (leAt b 4 4) s = some p → deadlinePassed j.desc s = true →
          goes (.snapshotStaged slot block) (ends k ST.deadline 0x41)) ∧
        (∀ p, snapCheck j.desc b = none → profileFor (leAt b 4 4) s = some p → deadlinePassed j.desc s = false → descFlag j.desc 5 = false →
          goes (.snapshotStaged slot block) (fun t => others k t ∧ t.regs = s.regs ∧
            jobAt t k = some { j with snap := b, prof := some p, state := 2, order := s.car.seq })) ∧
        (∀ dt, snapCheck j.desc b = some dt → goes (.snapshotStaged slot block) (ends k ST.format dt)) ∧
        (snapCheck j.desc b = none → profileFor (leAt b 4 4) s = none → goes (.snapshotStaged slot block) (ends k 0x20 0))) ∧
      (block = none → goes (.snapshotStaged slot block) (ends k ST.abort 0x30))) ∧
    (∀ n b, windowsFree y w = true → srcPick ((List.range 34).filter (fun i => windowsFree i w)) w = some y.val →
      oldestQueued y w = some (n, b) →
      (jobInstant b w = none → goes (.windowsEntry y) (ends n 0x21 0)) ∧
      (∀ tc p, jobInstant b w = some tc → b.prof = some p →
        ((maskSigs (descMask b.desc)).all (fun c => (usableSats c (w.widen tc) w).isEmpty) = true →
          goes (.windowsEntry y) (ends n 0x22 0x51)) ∧
        ((maskSigs (descMask b.desc)).all (fun c => (usableSats c (w.widen tc) w).isEmpty) = false →
          goes (.windowsEntry y) (fun t => ends n ST.empty 0x03 t ∨ (deadlinePassed b.desc w = true ∧ ends n ST.deadline 0x41 t) ∨
            (deadlinePassed b.desc w = false ∧ others n t ∧ ∃ c, jobAt t n = some c ∧ c.state = 3 ∧
            c.tc = some tc ∧ c.segs = jobSegs b p w ∧ c.scratch = jobScratch b w ∧ c.cands.length ≤ leAt b.desc 4 1))))) ∧
    (jobAt s k = some j → j.state = 3 → deadlinePassed j.desc s = false → goes (.windowsDone slot) (fun t => others k t ∧
      t.regs = s.regs ∧ ∃ b, jobAt t k = some b ∧ b.state = 4 ∧ b.epoch = none ∧ b.fwdLeft = jobOffsets j * j.segs ∧
        b.cands = j.cands)) ∧
    (∀ r, jobAt s k = some j → j.record = some r → j.state = 6 → j.silent = false → j.src < 32 →
      (recordHeld j s = true → exec (.resultRecordWrite slot) s = .next s) ∧
      (recordHeld j s = false → recordRoom j.src r s = true → goes (.resultRecordWrite slot) (fun t => others k t ∧ jobAt t k = none ∧
        t.car.done = s.car.done + 1 ∧
        t.word (R.HOST_RING_TAIL (32 + j.src)) = s.word (R.HOST_RING_TAIL (32 + j.src)) + BitVec.ofNat 32 (unitsOf r))) ∧
      (recordHeld j s = false → recordRoom j.src r s = false → goes (.resultRecordWrite slot) (fun t => t.car = s.car ∧ t.bit F.CAR_ERR_STALL = true ∧
        t.hostMem = s.hostMem))) ∧
    (jobAt s k = some j → deadlinePassed j.desc s = true → j.state ≠ 6 → j.ending = none →
      goes (.jobDeadline slot) (ends k ST.deadline (if j.state = 7 then 0x42 else 0x41))) ∧
    (jobAt s k = some j → deadlinePassed j.desc s = false ∨ j.ending ≠ none → exec (.jobDeadline slot) s = .next s) ∧
    (Open who R.CAR_CANCEL_CTRL s → v.getLsbD 31 = true → v.toNat % 64 ≤ 33 →
      let tag := s.fld F.CAR_CANCEL_TAG_HI_TAG_HI * 2 ^ 32 + s.fld F.CAR_CANCEL_TAG_LO_TAG_LO
      let hit := (jobList s).filter (fun e => e.2.src == v.toNat % 64 && mayDecide e.2 ST.abort 0x31 s && (v.getLsbD 30 || leAt e.2.desc 8 8 == tag))
      goes (.carCancel who v) (fun t => t.fld F.CAR_CANCEL_CTRL_COUNT = min 0x3FFF hit.length ∧
        (hit = [] → t.car = s.car) ∧ ∀ e ∈ hit, ∀ b, jobAt s e.1 = some b → b.state = 2 →
          ∃ c, jobAt t e.1 = some c ∧ c.state = 6 ∧ c.status = ST.abort ∧ c.detail = 0x31)) ∧
    (jobAt s k = some j → j.state = 7 → descDeadline j.desc = 0 → s.fld F.CAR_FWD_CFG_TIMEOUT ≠ 0 →
      (j.sentAt + s.fld F.CAR_FWD_CFG_TIMEOUT * 120000 ≤ s.tick → goes (.fwdTimeout slot) (fun t => others k t ∧
        jobAt t k = some { j with state := 2, retaken := true, order := s.car.seq } ∧ t.bit F.CAR_ERR_FWD_LOST = true ∧
        t.fld F.CAR_FWD_STAT_RETAKEN = min 0xFFFF (s.fld F.CAR_FWD_STAT_RETAKEN + 1))) ∧
      (s.tick < j.sentAt + s.fld F.CAR_FWD_CFG_TIMEOUT * 120000 → exec (.fwdTimeout slot) s = .next s))

/-- R233, R236, R239, R246, R249, R250, R252, R255, R257, R282, R285: profiles become VALID, DRAINING and IDLE, and a region in use is
not written; a free lane starts the pass of the source served next within the budget, and a lane's pass ends; a job whose passes are
done is solved and gets its status; lane groups are asked for and gated; a lane that fails its test leaves service.
Where the spec leaves a choice it is the model's: assumptions 33, 80, 82, 83. -/
def Obligations.CarouselPasses : Prop :=
  ∀ (who : Reader) (p : Fin 3) (v : Word) (a : BitVec 26) (bs : List Byte) (l : Fin 64) (pass : Bool) (slot : BitVec 14) (g : Fin 8) (j : Job)
    (s : State),
    let w := v ||| 0x80000000
    let cfg := (s.setFld (F.CAR_PROF_CFG_GCODE p) (w.toNat / 2 ^ 26)).setFld (F.CAR_PROF_CFG_TSEG p) (w.toNat / 2 ^ 23)
    let k := slot.toNat
    let goes (c : Instr) (post : State → Prop) : Prop := ∃ t, exec c s = .next t ∧ MemsSame s t ∧ post t
    let ends (st dt : Nat) (t : State) : Prop := (∀ i, i ≠ k → jobAt t i = jobAt s i) ∧ ∃ b, jobAt t k = some b ∧ b.state = 6 ∧
      b.status = st ∧ b.detail = dt ∧ b.record.isSome = true
    (Open who (R.CAR_PROF_CFG p) s →
      (profIdle p s = true → profOk p cfg = true → goes (.profileValidSet who p v) (fun t =>
        t.bit (F.CAR_PROF_CFG_VALID p) = true ∧ t.bit (F.CAR_PROF_CFG_DRAINING p) = false ∧ RegsBut [R.CAR_PROF_CFG p] s t)) ∧
      (profIdle p s = true → profOk p cfg = false → goes (.profileValidSet who p v) (fun t =>
        t.bit (F.CAR_PROF_CFG_VALID p) = false ∧ t.bit F.CAR_CORR_ERR_PROF_REFUSED = true)) ∧
      (s.bit (F.CAR_PROF_CFG_VALID p) = true → exec (.profileValidSet who p v) s = .next s ∧
        goes (.profileValidClear who p v) (fun t => t.bit (F.CAR_PROF_CFG_VALID p) = false ∧
          t.bit (F.CAR_PROF_CFG_DRAINING p) = decide (profJobs p s ≠ 0) ∧ RegsBut [R.CAR_PROF_CFG p] s t))) ∧
    (profJobs p s = 0 → goes (.profileDrained p) (fun t => t.bit (F.CAR_PROF_CFG_DRAINING p) = false ∧ t.car = s.car ∧
      RegsBut [R.CAR_PROF_CFG p] s t)) ∧
    (profJobs p s ≠ 0 → exec (.profileDrained p) s = .next s) ∧
    (rangeDenied who a.toNat bs.length true s = none → mapAnswers who s = true → a.toNat + bs.length ≤ 2 ^ 24 →
      ((∀ i < bs.length, storeHeld (a.toNat + i) s = false) → ∃ t, exec (.storeWrite who a bs) s = .next t ∧
        t.memBytes a.toNat bs.length = bs ∧ t.regs = s.regs ∧
        ∀ b, b < a.toNat ∨ a.toNat + bs.length ≤ b → t.memByte b = s.memByte b) ∧
      ((∀ i < bs.length, storeHeld (a.toNat + i) s = true) → bs ≠ [] → goes (.storeWrite who a bs) (fun t =>
        t.bit F.CAR_CORR_ERR_STORE_WR = true))) ∧
    (∀ b, rangeDenied who a.toNat bs.length true s = some b → mapAnswers who s = true →
      goes (.storeWrite who a bs) (fun t => EventUp 124 t ∧ RegsBut protKeys s t)) ∧
    (laneFree l s = false → exec (.passStart l) s = .next s) ∧
    (laneFree l s = true → sieveReady s = none → testDue l s = true ∨ pstate s ≠ 0 → exec (.passStart l) s = .next s) ∧
    (laneFree l s = true → sieveReady s = none → testDue l s = false → pstate s = 0 → (lane s l).next = none →
      (∀ src n b, passSource (backlogSync s) = some src → src ≠ 34 → passJob src s = some (n, b) → jobReady b = true →
        (s.car.used + passCost (jobSize b s) ≤ carBudget s → goes (.passStart l) (fun t => t.regs = s.regs ∧
          t.car.used = s.car.used + passCost (jobSize b s) ∧ (b.fwdLeft ≠ 0 → (lane t l).work = some (.fwd n (slotGen s n)) ∧
            jobAt t n = some { b with
              fwdLeft := b.fwdLeft - 1, fwdBusy := b.fwdBusy + 1, lcyc := b.lcyc + passCost (jobSize b s) }))) ∧
        (carBudget s < s.car.used + passCost (jobSize b s) → s.car.hit = false → goes (.passStart l) (fun t =>
          t.bit F.CAR_CORR_ERR_BUDGET_HIT = true ∧ t.car.lanes = s.car.lanes ∧ t.car.jobs = s.car.jobs))) ∧
      (passSource (backlogSync s) = some 34 → s.car.used + passCost 4096 ≤ carBudget s → goes (.passStart l) (fun t =>
        (lane t l).work = some .cal))) ∧
    ((lane s l).work = none → exec (.passDone ⟨l, pass⟩) s = .next s) ∧
    (∀ i o, pstate s ≠ 1 → (lane s l).work = some (.sieve i o) → (planEntry s i).busy ≠ 0 → (planEntry s i).order = o →
      goes (.passDone ⟨l, pass⟩) (fun t => (lane t l).work = none ∧ (lane t l).idle = s.tick ∧
        planEntry t i = { planEntry s i with busy := (planEntry s i).busy - 1 } ∧ t.regs = s.regs)) ∧
    (∀ n b, pstate s ≠ 1 → (lane s l).work = some (.fwd n (slotGen s n)) → jobAt s n = some b → b.ending = none →
      deadlinePassed b.desc s = false → goes (.passDone ⟨l, pass⟩) (fun t => (lane t l).work = none ∧
        jobAt t n = some { b with fwdBusy := b.fwdBusy - 1 } ∧ t.regs = s.regs)) ∧
    ((lane s l).work = some .cal → (lane s l).next = none → (lane s l).since = [] → goes (.passDone ⟨l, false⟩) (fun t =>
      (lane t l).work = none ∧ laneFaulty l t = true ∧ t.bit F.CAR_CORR_ERR_LANE_FAULT = true)) ∧
    (jobAt s k = some j → passesDone j = true →
      (deadlinePassed j.desc s = true → goes (.solveStart slot) (ends ST.deadline 0x41)) ∧
      (deadlinePassed j.desc s = false → j.prof.isSome = true → (descFlag j.desc 0 = false ∨ (enginesBusy s < 4 ∧ s.sky.wait = [])) →
        goes (.solveStart slot) (fun t => t.regs = s.regs ∧ ∃ b, jobAt t k = some b ∧ b.state = 5 ∧ b.prof = none ∧
          b.scratch = 0))) ∧
    (jobAt s k = some j → j.state = 5 → goes (.solveDone slot) (ends (if j.meas = [] then ST.nosig
      else if j.fix = [] ∨ leAt j.fix 0 1 = 0 then ST.ok else if leAt j.fix 0 1 = 1 then ST.weak else 0x23) 0)) ∧
    (jobAt s k = some j → j.state ≠ 5 → j.state ≠ 6 → exec (.solveDone slot) s = .next s) ∧
    (pstate s = 0 → s.pwr.trans ≠ some 1 → groupsOn s < s.fld F.CAR_LANE_CFG_MIN_ON →
      (∀ n, groupNext s = some n → goes .laneGroupRequest (fun t =>
        t.budget.queue = s.budget.queue ++ [⟨groupDomain n, s.tick, none⟩] ∧ t.car = s.car)) ∧
      (groupNext s = none → exec .laneGroupRequest s = .next s)) ∧
    (s.bit F.CAR_LANE_CFG_GATE_EN = true → pstate s = 0 → groupLast s = some g.val →
      (∀ i < 8, (lane s (8 * g + i)).work = none ∧ (lane s (8 * g + i)).next = none ∧
        (lane s (8 * g + i)).idle + s.fld F.CAR_LANE_CFG_IDLE_T * 1200 ≤ s.tick) →
      s.fld F.CAR_LANE_CFG_MIN_ON < ((List.range 8).filter (fun g => domainOn (groupDomain g) s)).length →
      goes (.laneGroupGate g) (fun t => domainOn (groupDomain g) t = false ∧ t.car = s.car)) ∧
    (s.bit F.CAR_LANE_CFG_GATE_EN = false → exec (.laneGroupGate g) s = .next s) ∧
    (laneFree l s = true → testDue l s = true → sieveReady s = none →
      (pass = true → goes (.laneTest l pass) (fun t => (lane t l).tested = s.tick ∧ (lane t l).since = [] ∧ t.regs = s.regs)) ∧
      (pass = false → (lane s l).next = none → (lane s l).since = [] → goes (.laneTest l pass) (fun t =>
        laneFaulty l t = true ∧ t.bit F.CAR_CORR_ERR_LANE_FAULT = true ∧ t.car.jobs = s.car.jobs)))

/-- R263, R269, R272, R283, R284: a commit makes the pending bank current unless a third epoch would be read; the ionosphere model's
validity follows its age; a query answers its reader; a live solve starts on a free engine, or waits for one, and ends with its record, the last fix and
its events; writing MODE starts or ends a survey.
Where the spec leaves a choice it is the model's: assumptions 31, 32, 85, 86. -/
def Obligations.SkyAndSolver : Prop :=
  ∀ (who : Reader) (v : Word) (e : BitVec 64) (s : State),
    let goes (c : Instr) (post : State → Prop) : Prop := ∃ t, exec c s = .next t ∧ t.mem = s.mem ∧ t.ram = s.ram ∧ t.flash = s.flash ∧
      post t
    let q := v.toNat % 256
    let at_ := s.widen (s.fld (F.SKY_QRY_T_SEC_SEC_LO.at who) * 2 ^ 32 + s.fld (F.SKY_QRY_T_FRAC_FRAC.at who))
    let valid := s.sky.ionoSet && s.bit F.SKY_CFG_IONO_EN &&
      decide (s.tb.sec ≤ s.widen (s.fld F.SKY_IONO_REF_SEC_LO * 2 ^ 32) / 2 ^ 32 + s.fld F.SKY_CFG_IONO_AGE)
    (wholeSecond s = false ∨ s.pwr.hib = true → exec .skyCommit s = .next s) ∧
    (wholeSecond s = true → s.pwr.hib = false → (∃ x ∈ epochsRead s, x ≠ s.sky.epochs) → goes .skyCommit (fun t => t.sky = s.sky ∧ t.bit F.SKY_STAT_COMMIT_DEFER = true ∧
      EventUp 82 t)) ∧
    (wholeSecond s = true → s.pwr.hib = false → (∀ x ∈ epochsRead s, x = s.sky.epochs) → s.sky.pend.Pairwise (fun a b => a.1 < b.1) → goes .skyCommit (fun t =>
      (∀ i, skySlot t i = slotCommit i s (skyPending s i)) ∧ (t.seq 10).ipend.getLsbD 1 = true ∧ t.sky.pend = s.sky.pend ∧ t.sky.epochs = s.sky.epochs + 1 ∧
      t.fld F.SKY_STAT_EPOCH = (s.sky.epochs + 1) % 2 ^ 16)) ∧
    (∃ t, exec .ionoAgeExpiry s = .next t ∧ t.bit F.SKY_STAT_IONO_VALID = valid ∧
      (valid ≠ s.bit F.SKY_STAT_IONO_VALID → EventUp 81 t ∧ RegsBut (R.SKY_STAT :: evKeys 81) s t) ∧
      (valid = s.bit F.SKY_STAT_IONO_VALID → t = s)) ∧
    (Open who R.SKY_QRY_CTRL s → v.getLsbD 31 = true →
      (skyQuery who s = none → goes (.skyQuery who v) (fun t => t.bit (F.SKY_QRY_CTRL_BUSY.at who) = true ∧
        skyQuery who t = some (if 220 < q then (ST.format, []) else if slotUsable (skySlot s q) at_
          then (ST.ok, orbitWords q (skySlot s q) at_ s) else (0x22, [])) ∧ RegsBut [copyOff who R.SKY_QRY_CTRL] s t)) ∧
      (skyQuery who s ≠ none → goes (.skyQuery who v) (fun t => t.sky = s.sky))) ∧
    (skyQuery who s = none → exec (.skyQueryDone who) s = .next s) ∧
    (∀ st ws, skyQuery who s = some (st, ws) → st < 256 → goes (.skyQueryDone who) (fun t => skyQuery who t = none ∧
      t.bit (F.SKY_QRY_CTRL_BUSY.at who) = false ∧ t.fld (F.SKY_QRY_CTRL_RESULT.at who) = st ∧
      ∀ i < ws.length, t.word (copyOff who (R.SKY_QRY_POS 0 + 4 * i)) = ws.getD i 0)) ∧
    (s.pwr.hib = false → liveReady e.toNat s = true → s.sky.wait.contains e.toNat = false →
      (enginesBusy s < 4 → goes (.liveSolve e) (fun t => t.regs = s.regs ∧ ∃ recs,
        (∀ r ∈ recs, ∃ n < 10, r ∈ (publishedOf n s).2) ∧
        t.sky.live = s.sky.live ++ [⟨e.toNat, s.sky.epochs, fixRecord (liveSetup e.toNat recs s)⟩])) ∧
      (4 ≤ enginesBusy s → goes (.liveSolve e) (fun t => t.regs = s.regs ∧ t.sky = { s.sky with wait := s.sky.wait ++ [e.toNat] }))) ∧
    (liveReady e.toNat s = false → exec (.liveSolve e) s = .next s) ∧
    (s.sky.live = [] → exec .liveSolveDone s = .next s) ∧
    (∀ x rest, s.sky.live = x :: rest → s.sky.wait = [] → goes .liveSolveDone (fun t =>
      let o := leAt x.record 0 1
      t.sky.live = rest ∧ t.fld F.SOL_STAT_OUTCOME = o ∧ t.sky.lastOk = (o == 0) ∧ EventUp 83 t ∧
      (∀ i < 16, t.word (R.SOL_FIX_W i) = (bytesWords 16 x.record).getD i 0) ∧
      (o = 0 → ∃ f, t.sky.fix = some f ∧ f.x = toSigned 64 (leAt x.record 8 8) ∧ f.unc = leAt x.record 48 4) ∧
      (o ≠ 0 → t.sky.fix = s.sky.fix) ∧
      (o ≠ 0 → s.sky.lastOk = true → t.bit F.SOL_STAT_LIVE_FAIL = true ∧ EventUp 84 t) ∧
      (s.sky.lastOk = false → t.bit F.SOL_STAT_LIVE_FAIL = s.bit F.SOL_STAT_LIVE_FAIL))) ∧
    (Open who R.SOL_LIVE_CFG s →
      (v.toNat / 2 ^ 30 = 2 → goes (.surveyStart who v) (fun t => t.sky.survey = some { start := s.tick } ∧
        t.bit F.SOL_STAT_SURVEYING = true ∧ t.fld F.SOL_LIVE_CFG_MODE = 2)) ∧
      (v.toNat / 2 ^ 30 < 2 → goes (.surveyStart who v) (fun t => t.sky.survey = none ∧ t.bit F.SOL_STAT_SURVEYING = false ∧
        t.fld F.SOL_LIVE_CFG_MODE = v.toNat / 2 ^ 30)) ∧
      (v.toNat / 2 ^ 30 = 3 → goes (.surveyStart who v) (fun t => t.sky = s.sky ∧
        t.fld F.SOL_LIVE_CFG_MODE = s.fld F.SOL_LIVE_CFG_MODE)))

/-! Time outputs, clocks and the beacon (chapters 11, 12 and 13). -/

/-- R290 to R293, R295, R298 to R301, R303, R304, R308, R309, R311: an announced step is armed 10 ms before its second; LOCKED falls
to HOLDOVER and to HOLDOVER_EXPIRED with EV_088; the Sandglass fills TP_UNC, TP_FUNC and TP_HOLD_T; DISC_EN ends or resumes
steering; a due edge leaves with its pulse or is squelched, and its trailing edge follows; DIV of 1 to 11 is ignored; the standby takes
the active role and an active device yields; the holdover record goes into the older copy.
Where the spec leaves a choice it is the model's: assumptions 87, 88, 89, 91, 92. -/
def Obligations.TimeDiscipline : Prop :=
  ∀ (who : Reader) (v : Word) (n : Fin 2) (pin : Bool) (s : State),
    let goes (c : Instr) (post : State → Prop) : Prop := ∃ t, exec c s = .next t ∧ MemsSame s t ∧ post t
    let level (t : State) : Prop := tpLevel t = (if (s.fld F.TP_HOLD_CFG_EXPIRY : Rat) ≤ sgT s then 3 else 2) ∧ EventUp 88 t
    (∀ sec src, s.disc.pend = some (sec, src) → s.disc.armed = false →
      (sec * secUnits ≤ s.nowU + secUnits / 100 → goes .announcedStepArm (fun t => t.disc.armed = true ∧
        t.tb.step = some ⟨roundRat (-(ofsNow s) * 2 ^ 32 / 10 ^ 9) * fracUnits, s.fld F.TP_STATUS_SRC_ACT, some sec, s.tick⟩ ∧
        t.bit F.TB_STATUS_STEP_ARMED = true ∧ t.nowU = s.nowU)) ∧
      (s.nowU + secUnits / 100 < sec * secUnits → exec .announcedStepArm s = .next s)) ∧
    (s.disc.pend = none → exec .announcedStepArm s = .next s) ∧
    (tpLevel s = 1 → lossTime s = true → goes .holdoverEnter (fun t => level t ∧ t.disc.slew = 0 ∧
      t.disc.pend = none ∧ t.bit F.TP_STATUS_STEP_PENDING = (s.bit F.TP_STATUS_STEP_PENDING && s.disc.pend.isNone) ∧
      acqOf (srcInUse s) t = 0 ∧ t.nowU = s.nowU)) ∧
    (tpLevel s ≠ 1 ∨ sgT s < (s.fld F.TP_CTRL_LOSS_T : Rat) → exec .holdoverEnter s = .next s) ∧
    (tpLevel s = 2 → (s.fld F.TP_HOLD_CFG_EXPIRY : Rat) ≤ sgT s → goes .holdoverExpired (fun t => tpLevel t = 3 ∧ EventUp 88 t ∧
      t.disc = s.disc ∧ RegsBut (R.TP_STATUS :: evKeys 88) s t)) ∧
    (tpLevel s ≠ 2 → exec .holdoverExpired s = .next s) ∧
    (2 ≤ tpLevel s → goes .sandglassUpdate (fun t => t.word R.TP_UNC = BitVec.ofNat 32 (sgU (sgAccrue s)) ∧
      t.word R.TP_FUNC = BitVec.ofNat 32 (sgF s) ∧ t.word R.TP_HOLD_T = BitVec.ofNat 32 (satNat 0xFFFFFFFF (sgT s).floor.toNat) ∧
      tpLevel t = tpLevel s ∧ t.nowU = s.nowU)) ∧
    (tpLevel s < 2 → goes .sandglassUpdate (fun t => t.word R.TP_HOLD_T = 0 ∧ t.word R.TP_UNC = s.word R.TP_UNC ∧
      t.word R.TP_FUNC = s.word R.TP_FUNC ∧ t.nowU = s.nowU)) ∧
    (Open who R.TP_CTRL s →
      (s.bit F.TP_CTRL_DISC_EN = true → v.getLsbD 31 = false → tpLevel s = 1 → goes (.discEnWrite who v) (fun t => level t ∧
        t.disc.slew = 0 ∧ t.disc.acq = [] ∧ t.bit F.TP_CTRL_DISC_EN = false)) ∧
      (s.bit F.TP_CTRL_DISC_EN = false → v.getLsbD 31 = true → goes (.discEnWrite who v) (fun t => t.disc.fresh = true ∧
        t.disc.tuneBase = s.fld F.TP_OCXO_TUNE ∧ t.disc.acq = [] ∧ t.bit F.TP_CTRL_DISC_EN = true ∧ tpLevel t = tpLevel s ∧
        RegsBut [R.TP_CTRL] s t)) ∧
      (s.bit F.TP_CTRL_DISC_EN = true → v.getLsbD 31 = false → 2 ≤ tpLevel s → goes (.discEnWrite who v) (fun t =>
        t.disc.slew = 0 ∧ t.disc.acq = [] ∧ tpLevel t = tpLevel s ∧
        t.word R.TB_RATE = (setRate s.disc.rest s).1.word R.TB_RATE))) ∧
    (∀ e, firstEdge n s = some e → e.at_ < edgeNow s + s.tickStep →
      let w := s.fld (F.TP_WIDTH_WIDTH n) * usUnits
      let g := gridAt (realAt e.at_ s)
      (squelched s = false → w ≠ 0 → w < e.spacing.getD (2 * w) → (tpOut s n).last = none → goes (.pulseEdge n) (fun t =>
        tpOut t n = { tpOut s n with
          armed := (tpOut s n).armed.erase e, last := some (realAt e.at_ s), high := true,
          ends := g + s.fld (F.TP_WIDTH_WIDTH n) * 120 * tickGrid } ∧
        t.out = s.out ++ (if tpDriven n s then [.pulse n (e.at_.toNat / fracUnits) g (activeLevel n s)] else []) ∧
        RegsBut [R.TP_STAT n] s t)) ∧
      (∀ l, squelched s = false → w ≠ 0 → (tpOut s n).last = some l → realAt e.at_ s < l + e.spacing.getD (2 * w) →
        e.spacing.getD (2 * w) ≤ w → goes (.pulseEdge n) (fun t => (tpOut t n).armed = (tpOut s n).armed.erase e ∧
          t.fld (F.TP_STAT_SUPP_CNT n) = min 0xFFFF (s.fld (F.TP_STAT_SUPP_CNT n) + 1) ∧ EventUp 90 t ∧
          t.bit F.TP_STATUS_SUPPRESSED = true ∧ t.bit F.TP_STATUS_CFG_ERR = true ∧ EventUp 93 t)) ∧
      (squelched s = true → goes (.pulseEdge n) (fun t => (tpOut t n).armed = (tpOut s n).armed.erase e ∧
        (tpOut t n).high = (tpOut s n).high ∧ t.out = s.out ∧ t.regs = s.regs))) ∧
    (firstEdge n s = none → exec (.pulseEdge n) s = .next s) ∧
    (∀ p, tpOut s n = p →
      (p.high = true → (p.ends : Int) < gridNow s + tickGrid → goes (.pulseTrail n) (fun t =>
        tpOut t n = { p with high := false, held := false } ∧
        t.bit F.TP_STATUS_ACTIVE = (s.bit F.TP_STATUS_ACTIVE && !(p.held && n == 0)) ∧ RegsBut [R.TP_STATUS] s t ∧
        t.out = s.out ++ (if p.held || tpDriven n s then [.pulseEnd n p.ends (!activeLevel n s)] else []))) ∧
      (p.high = false ∨ gridNow s + tickGrid ≤ (p.ends : Int) → exec (.pulseTrail n) s = .next s)) ∧
    (Open who R.TP_FOUT_CFG s → goes (.foutDiv who v) (fun t => t.bit F.TP_FOUT_CFG_FOLLOW = v.getLsbD 30 ∧
      t.fld F.TP_FOUT_CFG_DIV = if 1 ≤ v.toNat % 4096 ∧ v.toNat % 4096 ≤ 11 then s.fld F.TP_FOUT_CFG_DIV else v.toNat % 4096)) ∧
    (pulseSafe s = true → s.disc.takeover = true → isStandby s = true → peerSerial 0 s ≠ 0 →
      (pin = false ∨ peerSerial 0 s < ownSerial s) →
      goes (.takeover pin) (fun t => t.fld F.TRP_TWIN_STAT_ROLE = 2 ∧ t.bit F.TP_STATUS_ACTIVE = true ∧
        t.fld F.TP_STATUS_SRC_ACT = s.fld F.TP_CTRL_SRC ∧ t.bit F.TP_STATUS_TAKEOVER = true ∧ EventUp 91 t ∧ t.disc = { s.disc with takeover := false })) ∧
    (s.disc.takeover = false ∨ pulseSafe s = false → exec (.takeover pin) s = .next { s with twinPin := pin }) ∧
    (s.fld F.TRP_TWIN_STAT_ROLE = 2 → ownSerial s < peerSerial 0 s → goes .twinYield (fun t =>
      t.fld F.TRP_TWIN_STAT_ROLE = 1 ∧ t.bit F.TP_STATUS_ACTIVE = false ∧ t.bit F.TP_STATUS_YIELDED = true ∧ t.twinPin = true ∧
      EventUp 91 t)) ∧
    (s.fld F.TRP_TWIN_STAT_ROLE ≠ 2 → exec .twinYield s = .next s) ∧
    (∃ t, exec .holdoverRefresh s = .next t ∧ t.regs = s.regs ∧ t.ram = s.ram ∧ t.flash = s.flash ∧
      let c := match holdNewest s with | some b => !b | none => false
      holdOk (holdCopy c t) = true ∧ leAt (holdCopy c t) 0 1 = tpLevel s ∧ holdCopy (!c) t = holdCopy (!c) s ∧
      ∀ a, a < holdAddr c ∨ holdAddr c + 64 ≤ a → t.memByte a = s.memByte a)

/-- R313 to R317, R319 to R325, R327: REFIN lost, its return qualified, the ramp that absorbs φ, an N change over the holding oscillator
and its failures, the probe, the post-dividers committed and applied together, and TSYN's fault.
Where the spec leaves a choice it is the model's: assumptions 25, 90, 93, 94. -/
def Obligations.ClockSynthesis : Prop :=
  ∀ (who : Reader) (v err : Word) (why : LossCause) (phi : BitVec 12) (found : Fin 4) (s : State),
    let c := s.ck
    let limit : Nat := if c.boot then 1000000 else 50000
    let goes (i : Instr) (post : State → Prop) : Prop := ∃ t, exec i s = .next t ∧ MemsSame s t ∧ post t
    (refLostBy why s = false → exec (.refLoss why phi) s = .next s) ∧
    (refLostBy why s = true → c.change = false → c.after = none →
      (ckState s = 4 → goes (.refLoss why phi) (fun t => ckState t = 5 ∧ t.bit F.CK_STATUS_REF_LOST = true ∧
        EventUp 96 t ∧
        t.fld F.CK_STATUS_LOSS_CNT = min 0xFFFF (s.fld F.CK_STATUS_LOSS_CNT + 1) ∧
        (s.bit F.CK_STATUS_REF_LOST = false → tpLevel s = 1 → 2 ≤ tpLevel t) ∧
        t.bit (match why with
          | .miss _ => F.CK_STATUS_LOSS_MISS | .phase _ _ => F.CK_STATUS_LOSS_PHASE | .amp _ => F.CK_STATUS_LOSS_AMP) = true)) ∧
      (ckState s = 3 → s.bit F.CK_STATUS_REF_LOST = true → goes (.refLoss why phi) (fun t => ckState t = 5 ∧
        t.fld F.CK_STATUS_LOSS_CNT = min 0xFFFF (s.fld F.CK_STATUS_LOSS_CNT + 1) ∧ EventUp 96 t ∧
        t.fld F.CK_JUMP_PHASE = ofSigned 16 (phiNear phi) ∧ t.ck = { c with absorbed := c.absorbed + phiNear phi } ∧
        (t.nowU : Int) = ((s.nowU : Int) + phiUnits (phiNear phi)) % (wrapUnits : Int) ∧
        RegsBut (R.CK_STATUS :: R.CK_JUMP :: evKeys 96) s t)) ∧
      (ckState s = 1 → s.bit F.CK_STATUS_REF_LOST = true → goes (.refLoss why phi) (fun t => ckState t = 5 ∧ t.ck = c ∧
        t.fld F.CK_STATUS_LOSS_CNT = min 0xFFFF (s.fld F.CK_STATUS_LOSS_CNT + 1) ∧ EventUp 96 t ∧
        t.nowU = s.nowU ∧ RegsBut (R.CK_STATUS :: evKeys 96) s t)) ∧
      (ckState s = 5 → exec (.refLoss why phi) s = .next s)) ∧
    (refLostBy why s = true → c.change = true →
      (ckState s = 1 ∨ ckState s = 2 → goes (.refLoss why phi) (fun t => ckState t = 0 ∧ t.ck = c ∧ RegsBut [R.CK_STATUS] s t ∧
        t.bit F.CK_STATUS_QUAL_FAIL = (s.bit F.CK_STATUS_QUAL_FAIL || ckState s == 2))) ∧
      (ckState s = 0 → exec (.refLoss why phi) s = .next s)) ∧
    (ckState s = 5 → s.bit F.CK_CFG_AUTO_RETURN = true → goes .refQualify (fun t => ckState t = 1 ∧ t.ck = { c with ret := false })) ∧
    (ckState s = 0 → c.change = true → c.inUse ≠ 0 → goes .refQualify (fun t => ckState t = 1 ∧ t.ck = c)) ∧
    (ckState s = 4 → exec .refQualify s = .next s) ∧
    (Open who R.CK_CTRL s →
      (v.getLsbD 0 = true → ckState s = 5 → s.bit F.CK_CFG_AUTO_RETURN = false → exec (.refReturn who v) s =
        .next { s with ck := { c with ret := true } }) ∧
      (ckState s ≠ 5 → exec (.refReturn who v) s = .next s)) ∧
    (ckState s = 1 →
      (err.toInt.natAbs ≤ limit → goes (.refQualifyDone err) (fun t => t.word R.CK_REF_MEAS = err ∧
        ckState t = if c.change then 2 else 3)) ∧
      (limit < err.toInt.natAbs → goes (.refQualifyDone err) (fun t => t.word R.CK_REF_MEAS = err ∧
        t.bit F.CK_STATUS_QUAL_FAIL = true ∧ ckState t = 1))) ∧
    (ckState s ≠ 1 → exec (.refQualifyDone err) s = .next s) ∧
    (ckState s = 3 → c.after = none → goes (.rampDone phi) (fun t => ckState t = 4 ∧ t.bit F.CK_STATUS_REF_LOST = false ∧
      t.bit F.CK_STATUS_TSYN_LOCK = true ∧ t.bit F.CK_STATUS_NO_REF = false ∧ t.fld F.CK_JUMP_PHASE = ofSigned 16 (phiNear phi) ∧
      (t.nowU : Int) = ((s.nowU : Int) + phiUnits (phiNear phi)) % (wrapUnits : Int) ∧
      t.ck = { c with absorbed := c.absorbed + phiNear phi, tsynAt := none } ∧
      (s.bit F.CK_STATUS_REF_LOST = true → EventUp 97 t))) ∧
    (Open who R.CK_CFG s →
      (v.toNat % 4 = c.inUse → goes (.refSelWrite who v) (fun t => t.ck = { c with selBySw := true } ∧ ckState t = ckState s ∧
        RegsBut [R.CK_CFG] s t)) ∧
      (ckState s ≠ 3 → v.toNat % 4 ≠ c.inUse → goes (.refSelWrite who v) (fun t => ckState t = 0 ∧ t.ck.inUse = v.toNat % 4 ∧
        t.ck.change = true ∧ t.bit F.CK_STATUS_CORE_HOLD = true ∧ t.bit F.CK_STATUS_COARSE = true ∧
        t.bit F.CK_STATUS_REF_LOST = true ∧ t.bit F.CK_STATUS_TSYN_LOCK = false)) ∧
      (ckState s = 3 → v.toNat % 4 ≠ c.inUse → goes (.refSelWrite who v) (fun t => ckState t = 3 ∧
        t.ck = { c with selBySw := true, after := some (v.toNat % 4) }))) ∧
    (ckState s = 2 → mdllHeld s = true → goes .lockHoldDone (fun t => ckState t = 3 ∧ t.bit F.CK_STATUS_CORE_HOLD = false ∧
      t.bit F.CK_STATUS_COARSE = false ∧ t.ck = { c with change := false, boot := false } ∧
      t.nowU = edgeNow s % wrapUnits)) ∧
    (ckState s = 2 → mdllFails s = true → goes .lockTimeout (fun t => ckState t = 0 ∧ t.bit F.CK_STATUS_QUAL_FAIL = true ∧
      t.ck = { c with change := true } ∧ RegsBut [R.CK_STATUS] s t)) ∧
    (ckState s ≠ 2 ∨ mdllHeld s = false → exec .lockHoldDone s = .next s) ∧
    (ckState s ≠ 2 ∨ mdllFails s = false → exec .lockTimeout s = .next s) ∧
    (c.errs.length = 256 → lockEdges s = 256 → (∀ e ∈ c.errs, e.natAbs ≤ s.fld F.CK_CFG_PHASE_TH * 256) → mdllHeld s = true) ∧
    (s.bit F.CK_STATUS_NO_REF = true → c.selBySw = true → exec (.refProbe found) s = .next s) ∧
    (s.bit F.CK_STATUS_NO_REF = true → c.inUse = 0 → c.selBySw = false →
      (found.val ≠ 0 → goes (.refProbe found) (fun t => t.fld F.CK_CFG_REF_SEL = found.val ∧
        t.ck = { c with inUse := found.val, change := true, boot := true } ∧ RegsBut [R.CK_CFG] s t)) ∧
      (found.val = 0 → exec (.refProbe found) s = .next s)) ∧
    (Open who R.CK_DIV_COMMIT s → v.getLsbD 31 = true → s.bit F.CK_DIV_COMMIT_PEND = false →
      (divsOk s = true → goes (.divCommit who v) (fun t => t.bit F.CK_DIV_COMMIT_PEND = true ∧
        t.ck = { c with div := some (s.word R.CK_DIV_NEXT, s.tick) } ∧ RegsBut [R.CK_DIV_COMMIT] s t)) ∧
      (divsOk s = false → goes (.divCommit who v) (fun t => t.bit F.CK_STATUS_DIV_REFUSED = true ∧ EventUp 99 t ∧ t.ck = c ∧
        t.bit F.CK_DIV_COMMIT_PEND = false))) ∧
    (Open who R.CK_DIV_COMMIT s → s.bit F.CK_DIV_COMMIT_PEND = true → exec (.divCommit who v) s = .next s) ∧
    (∀ w t0, c.div = some (w, t0) → (s.tick - c.porTick) % 12 = 0 → t0 + 2 ≤ s.tick → s.bit F.CK_STATUS_CORE_HOLD = false →
      goes .divApply (fun t => t.word R.CK_DIV_NOW = w ∧ t.bit F.CK_DIV_COMMIT_PEND = false ∧ t.ck = { c with div := none } ∧
        RegsBut [R.CK_DIV_NOW, R.CK_DIV_COMMIT] s t)) ∧
    (c.div = none ∨ (s.tick - c.porTick) % 12 ≠ 0 → exec .divApply s = .next s) ∧
    (s.bit F.CK_STATUS_TSYN_LOCK = true → (∀ e ∈ tsynPhases s, 512 < e.natAbs) →
      goes .tsynFault (fun t => t.bit F.CK_STATUS_TSYN_FAULT = true ∧ t.bit F.CK_STATUS_TSYN_LOCK = false ∧
        EventUp 98 t ∧ t.ck = { c with tsynAt := some (s.tick, freePhase 16 s) } ∧ RegsBut (R.CK_STATUS :: evKeys 98) s t)) ∧
    (s.bit F.CK_STATUS_TSYN_LOCK = true → (∃ e ∈ tsynPhases s, e.natAbs ≤ 512) →
      exec .tsynFault s = .next { s with free := s.free + 17 }) ∧
    (s.bit F.CK_STATUS_TSYN_LOCK = false → exec .tsynFault s = .next s) ∧
    (∀ t0 p, c.tsynAt = some (t0, p) → t0 + 240 ≤ s.tick → (tsynTick s).bit F.CK_STATUS_TSYN_LOCK = true ∧
      (tsynTick s).fld F.CK_JUMP_PHASE = ofSigned 16 p ∧ (tsynTick s).nowU = s.nowU)

/-- R337, R339, R340, R343 to R346, R349: the beacon radio takes the steps that TARGET and CHAN ask for, leaving OFF by a start request; a
step ends where it leads, a lock that fails is calibrated; calibrations start when the radio is idle and store their result; a tuner
search goes to its channel and transmits only as the charter, the duty rule and the channel allow, and is cut for too much power or a
low return loss; a query shows a channel's
limits.
Where the spec leaves a choice it is the model's: assumptions 95, 96, 97, 98. -/
def Obligations.BeaconRadio : Prop :=
  ∀ (who : Reader) (v : Word) (n : Fin 64) (locked : Bool) (r : CalResult) (temp energy : BitVec 8)
    (probes : List (BitVec 12 × BitVec 12)) (s : State),
    let b := s.bcn
    let st := bcnState s
    let c := bitsOf v.toNat 13 8
    let tgt := v.toNat % 4
    let goes (i : Instr) (post : State → Prop) : Prop := ∃ t, exec i s = .next t ∧ MemsSame s t ∧ post t
    let free := b.cal = none ∧ b.tx = none ∧ b.held = none ∧ b.search = none ∧ bcnMuted s = false
    (Open who R.BCN_CTRL s → free → b.step = .none →
      (chtEnabled c s = false → goes (.bcnTargetWrite who v) (fun t => t.bit F.BCN_STATUS_REFUSED = true ∧
        t.fld F.BCN_CTRL_CHAN = s.fld F.BCN_CTRL_CHAN)) ∧
      (chtEnabled c s = true →
        (st = 0 → tgt ≠ 0 → domainOn 4 s = false → startQueued 4 s = false → goes (.bcnTargetWrite who v) (fun t =>
          t.budget.queue = s.budget.queue ++ [⟨4, s.tick, none⟩] ∧ t.fld F.BCN_CTRL_TARGET = tgt ∧ t.fld F.BCN_CTRL_CHAN = c)) ∧
        (∀ x y k, (x, y, k) ∈ [(1, 2, BcnStep.standby), (1, 3, .standby), (1, 0, .off), (2, 0, .sleep), (2, 1, .sleep), (3, 0, .down),
            (3, 1, .down), (3, 2, .down)] → st = x → tgt = y → goes (.bcnTargetWrite who v) (fun t => t.bcn.step = k ∧
          t.fld F.BCN_CTRL_TARGET = tgt ∧ t.fld F.BCN_CTRL_CHAN = c)) ∧
        (st = 2 ∨ (st = 3 ∧ s.fld F.BCN_STATUS_CHAN_ACT ≠ c) → tgt = 3 → s.bit (F.BCN_CH_CAL_CAL_VALID c) = true →
          goes (.bcnTargetWrite who v) (fun t => t.bcn.step = .lock c)))) ∧
    (free → b.stay = none → ∀ k x g, (k, x, g) ∈ [(BcnStep.wake, 1, 1), (.standby, 2, 2), (.down, 2, 2), (.sleep, 1, 1), (.off, 0, 0)] → b.step = k →
      s.fld F.BCN_CTRL_TARGET = g → goes (.bcnTransitionDone locked) (fun t => bcnState t = x ∧ t.bcn.step = .none ∧
        (x = 0 → domainOn 4 t = false))) ∧
    (∀ k, k < 64 → b.step = .lock k →
      (locked = true → free → s.fld F.BCN_CTRL_TARGET = 3 → b.stay.getD (s.fld F.BCN_CTRL_CHAN) = k →
        goes (.bcnTransitionDone locked) (fun t => bcnState t = 3 ∧ t.fld F.BCN_STATUS_CHAN_ACT = k ∧ t.bcn.step = .none)) ∧
      (locked = false → goes (.bcnTransitionDone locked) (fun t => bcnState t = 6 ∧ t.bcn.cal = some (k, true) ∧
        t.bcn.step = .none))) ∧
    (b.step = .none → exec (.bcnTransitionDone locked) s = .next s) ∧
    (∀ k, bcnCalNext s = some k → bcnIdle s = true → b.search = none → goes .bcnCalStart (fun t => t.bcn.cal = some (k, false) ∧
      bcnState t = 6)) ∧
    (bcnCalNext s = none → exec .bcnCalStart s = .next s) ∧
    (∀ k, b.cal = some (n.val, k) →
      goes (.bcnCalDone (some r)) (fun t => t.fld (F.BCN_CH_CAL_CAL_TEMP n) = r.temp.toNat ∧
        t.fld (F.BCN_CH_CAL_VCO_BAND n) = r.band.toNat ∧ t.fld (F.BCN_CH_CAL_KVCO_TRIM n) = r.trim.toNat ∧
        t.bit (F.BCN_CH_CAL_CAL_VALID n) = true ∧ t.bit (F.BCN_CH_CAL_STALE n) = false ∧
        t.bit (F.BCN_CH_CAL_CAL_FAILED n) = false ∧ t.bit (F.BCN_CH_CAL_CAL_PEND n) = false ∧
        t.fld F.BCN_STATUS_CAL_RESULT = ST.ok) ∧
      goes (.bcnCalDone none) (fun t => t.bit (F.BCN_CH_CAL_CAL_FAILED n) = true ∧ t.fld F.BCN_STATUS_CAL_RESULT = 0x10 ∧
        EventUp 109 t)) ∧
    (b.cal = none → exec (.bcnCalDone none) s = .next s) ∧
    (s.bit (F.BCN_CH_CAL_CAL_VALID n) = true → s.bit (F.BCN_CH_CAL_STALE n) = false →
      (15 < (temp.toInt - toSigned 8 (s.fld (F.BCN_CH_CAL_CAL_TEMP n))).natAbs → goes (.bcnCalStale n (.temperature temp)) (fun t =>
        t.bit (F.BCN_CH_CAL_STALE n) = true ∧ t.bit (F.BCN_CH_CAL_CAL_PEND n) = true ∧ EventUp 109 t ∧
        RegsBut (R.BCN_CH_CAL n :: evKeys 109) s t)) ∧
      ((temp.toInt - toSigned 8 (s.fld (F.BCN_CH_CAL_CAL_TEMP n))).natAbs ≤ 15 →
        exec (.bcnCalStale n (.temperature temp)) s = .next s)) ∧
    (bcnTuneNext s = some n.val → bcnIdle s = true → bcnCalNext s = none → b.search = none → s.bit F.BCN_CFG_PA_MODE = true →
      goes (.tunerSearch energy probes) (fun t => t.bcn.search = none ∧ t.bit (F.BCN_CH_TUNE_TUNE_PEND n) = false ∧
        t.fld F.BCN_STATUS_CAL_RESULT = ST.format ∧ t.out = s.out)) ∧
    (bcnTuneNext s = some n.val → bcnIdle s = true → bcnCalNext s = none → b.search = none → s.bit F.BCN_CFG_PA_MODE = false →
      goes (.tunerSearch energy probes) (fun t => t.bcn.search = some n.val ∧ t.out = s.out)) ∧
    (b.search = some n.val → bcnRests s = true → s.bit F.BCN_CFG_PA_MODE = false →
      (st = 3 → s.fld F.BCN_STATUS_CHAN_ACT = n.val → chtEnabled n s = true → chtDuty n s ≠ 0 →
        chtTotal s ≠ 0 → dutyAllows n 375 s = true →
        (chtLbt n s = true → lbtThreshold n s ≤ energy.toInt → goes (.tunerSearch energy probes) (fun t =>
          t.bcn.search = none ∧ t.out = s.out ∧ t.bit (F.BCN_CH_TUNE_TUNE_PEND n) = s.bit (F.BCN_CH_TUNE_TUNE_PEND n))) ∧
        (∀ k cut, chtLbt n s = false → burstCut n s 1 (probes.take 17) = some (k, cut) → cut < 256 →
          goes (.tunerSearch energy probes) (fun t => t.bcn.search = none ∧ t.bit (F.BCN_CH_TUNE_TUNE_PEND n) = false ∧
            t.fld F.BCN_STATUS_CAL_RESULT = cut ∧ dutyBin t n 0 = dutyBin s n 0 + (35 + 20 * k) ∧
            (cut = ST.charter → t.bit F.BCN_STATUS_OVERPWR = true ∧ EventUp 107 t))) ∧
        (burstCut n s 1 (probes.take 17) = none → chtLbt n s = false ∨ energy.toInt < lbtThreshold n s → goes (.tunerSearch energy probes) (fun t =>
          t.bcn.search = none ∧ t.bit (F.BCN_CH_TUNE_TUNE_VALID n) = true ∧ t.bit (F.BCN_CH_TUNE_TUNE_PEND n) = false ∧
          t.fld F.BCN_STATUS_CAL_RESULT = ST.ok ∧ dutyBin t n 0 = dutyBin s n 0 + 375 ∧
          ∃ p, p ≤ chtPower n s ∧ t.out = s.out ++
            [.pa true (s.fld F.BCN_PA_BIAS), .radio n p (carrierOf n s) 0 [] [], .pa false 0])))) ∧
    (b.search = none → bcnTuneNext s = none → exec (.tunerSearch energy probes) s = .next s) ∧
    (Open who R.BCN_CHT_QRY s → ∀ x, v.toNat % 64 = x → goes (.charterQuery who v) (fun t =>
      t.fld (F.BCN_CHT_QRY_CHAN.at who) = x ∧ t.bit (F.BCN_CHT_QRY_ENABLED.at who) = chtEnabled x s ∧
      t.fld (F.BCN_CHT_QRY_MAX_PWR.at who) = (if chtEnabled x s then ofSigned 8 (chtPower x s) else 0) ∧
      t.bit (F.BCN_CHT_QRY_LBT.at who) = (chtEnabled x s && chtLbt x s) ∧
      t.fld (F.BCN_CHT_FREQ_FREQ_HZ.at who) = chtFreq x s ∧
      RegsBut [copyOff who R.BCN_CHT_QRY, copyOff who R.BCN_CHT_FREQ, copyOff who R.BCN_CHT_USED] s t))

/-- R336, R349 to R359: a descriptor that passes its checks is held; a held frame starts in time, listens or ramps up, or ends with ST_LATE,
ST_DUTY or, where the charter bars it meanwhile, ST_CHARTER; a busy channel ends it with ST_LBT; its end writes its result and counts its time on air; two samples over the power limit or
below the return loss cut it; each minute the duty bins move; keys are written, erased, and given up as intervals pass.
Where the spec leaves a choice it is the model's: assumptions 99, 100, 101, 102. -/
def Obligations.BeaconFrames : Prop :=
  ∀ (who : Reader) (v : Word) (i : BitVec 12) (energy : BitVec 8) (fwd ref : BitVec 12) (x y : BitVec 12 × BitVec 12) (f : BcnFrame)
    (s : State),
    let b := s.bcn
    let e := (ttEntry s i.toNat).latest s
    let at_ := descAddr f.index + 16
    let goes (c : Instr) (post : State → Prop) : Prop := ∃ t, exec c s = .next t ∧ t.ram = s.ram ∧ t.flash = s.flash ∧ post t
    let late := s.nowU - f.due * fracUnits
    let listens := chtLbt f.chan s || (leAt f.desc 0 1).testBit 1
    let only (t : State) (n : Nat) : Prop := ∀ a, a < at_ ∨ at_ + n ≤ a → t.memByte a = s.memByte a
    (TtDue i.toNat 4 s → e.param < 256 → frameFault (s.memBytes (descAddr e.param) 256) e.due s = none → bcnState s ≠ 0 →
      goes (.beaconFrame i) (fun t => TtFired i.toNat s t ∧ t.mem = s.mem ∧ t.bit F.BCN_STATUS_HELD = true ∧
        t.bcn.held = some { index := e.param, due := e.due, desc := s.memBytes (descAddr e.param) 256 })) ∧
    (b.held = some f → frameReady f s = true → chtBars f.desc s = true → goes (.frameStart fwd ref) (fun t => t.bcn.held = none ∧
      t.memByte at_ = BitVec.ofNat 8 ST.charter ∧ only t 1 ∧ EventUp 105 t ∧ EventUp 107 t ∧ radios t = radios s)) ∧
    (b.held = some f → frameReady f s = true → chtBars f.desc s = false →
      (s.fld F.BCN_TX_CFG_SLOT_TOL * usUnits < late → s.tickStep ≤ late → goes (.frameStart fwd ref) (fun t =>
        t.bcn.held = none ∧ t.memByte at_ = BitVec.ofNat 8 ST.late ∧ only t 1 ∧ EventUp 105 t ∧ radios t = radios s)) ∧
      (late ≤ s.fld F.BCN_TX_CFG_SLOT_TOL * usUnits →
        (dutyAllows f.chan f.air s = false → goes (.frameStart fwd ref) (fun t => t.bcn.held = none ∧
          t.memByte at_ = BitVec.ofNat 8 ST.duty ∧ only t 1 ∧ EventUp 106 t ∧ radios t = radios s)) ∧
        (dutyAllows f.chan f.air s = true → listens = true → goes (.frameStart fwd ref) (fun t => t.bcn.held = none ∧
          t.bcn.tx = some { f with rflags := 2, listen := s.tick } ∧ bcnState t = 4 ∧ t.mem = s.mem ∧ radios t = radios s)) ∧
        (dutyAllows f.chan f.air s = true → listens = false → goes (.frameStart fwd ref) (fun t => t.bcn.held = none ∧
          bcnState t = 5 ∧ t.mem = s.mem ∧ t.bcn.fseq = (b.fseq + 1) % 256 ∧
          (∃ g, t.bcn.tx = some g ∧ g.ramp = some s.tick ∧ g.index = f.index ∧ g.airUs = f.air) ∧
          ∃ p bs, p ≤ chtPower f.chan s ∧ radios t = radios s ++
            [.radio f.chan p (carrierOf f.chan s) f.symUs (airSymbols (f.m == 2) bs) bs])))) ∧
    (b.held = none → exec (.frameStart fwd ref) s = .next s) ∧
    (b.tx = some f → f.ramp = none → s.tick < f.listen + 120 * lbtTime f.chan s →
      exec (.lbtEnd energy fwd ref) s = .next s) ∧
    (b.tx = some f → f.ramp = none → f.listen + 120 * lbtTime f.chan s ≤ s.tick → chtBars f.desc s = true →
      goes (.lbtEnd energy fwd ref) (fun t => t.bcn.tx = none ∧ t.memByte at_ = BitVec.ofNat 8 ST.charter ∧ only t 19 ∧
        EventUp 104 t ∧ EventUp 107 t ∧ radios t = radios s)) ∧
    (b.tx = some f → f.ramp = none → f.listen + 120 * lbtTime f.chan s ≤ s.tick → chtBars f.desc s = false →
      (lbtThreshold f.chan s ≤ energy.toInt → goes (.lbtEnd energy fwd ref) (fun t => t.bcn.tx = none ∧ t.memByte at_ = 0x30#8 ∧
        only t 19 ∧ EventUp 104 t ∧ radios t = radios s)) ∧
      (energy.toInt < lbtThreshold f.chan s → goes (.lbtEnd energy fwd ref) (fun t => bcnState t = 5 ∧ t.mem = s.mem ∧
        ∃ g, t.bcn.tx = some g ∧ g.ramp = some s.tick)) ∧
      (f.mid = none → exec .frameDone s = .next s)) ∧
    (∀ t0, b.tx = some f → f.ramp = some t0 → f.chan < 64 →
      let us := (s.tick - t0 + 119) / 120
      exec (.lbtEnd energy fwd ref) s = .next s ∧
      (f.status ≠ 0 ∨ f.airUs ≤ us → goes .frameDone (fun t => t.bcn.tx = none ∧ t.memByte at_ = BitVec.ofNat 8 f.status ∧
        only t 19 ∧ EventUp 104 t ∧ dutyBin t f.chan 0 = dutyBin s f.chan 0 + min us f.airUs ∧
        dutyBin t 64 0 = dutyBin s 64 0 + min us f.airUs)) ∧
      (f.status = 0 → us < f.airUs →
        (f.mid = none → exec .frameDone s = .next s) ∧
        (∀ m, f.mid = some m → m.at_ ≤ s.tick → m.code < 128 → goes .frameDone (fun t =>
          t.fld (F.BCN_CH_TUNE_GAIN f.chan) = m.code ∧ t.mem = s.mem ∧ radios t = radios s ∧
          (∃ g, t.bcn.tx = some g ∧ g.mid = none ∧ g.gain = m.code ∧ g.ramp = f.ramp ∧ g.status = 0) ∧
          (m.mismatch = true → t.bit F.BCN_STATUS_MISMATCH = true ∧ EventUp 108 t) ∧
          (m.limit = true → t.bit F.BCN_STATUS_PWR_LIMIT = true ∧ EventUp 110 t))))) ∧
    (onAir s = some f →
      let hot (c : BitVec 12) : Prop := (chtPower f.chan s : Rat) + 4 < pFwd c.toNat s
      let bad (p : BitVec 12 × BitVec 12) : Prop := returnLoss p.1.toNat p.2.toNat s < (s.fld F.BCN_PROT_RL_TRIP : Rat)
      (hot fwd → hot ref → goes (.bcnOverpower fwd ref) (fun t => t.bcn.tx = some { f with status := ST.charter } ∧
        t.bit F.BCN_STATUS_OVERPWR = true ∧ EventUp 107 t ∧ t.mem = s.mem)) ∧
      (¬hot ref → exec (.bcnOverpower fwd ref) s = .next s) ∧
      (bad x → bad y → goes (.bcnTrip x y) (fun t => t.bcn.tx = some { f with status := 0x31 } ∧ t.regs = s.regs ∧ t.mem = s.mem)) ∧
      (¬bad x → exec (.bcnTrip x y) s = .next s)) ∧
    (goes .dutyMinute (fun t => t.regs = s.regs ∧ (∀ row, dutyBin t row 0 = 0) ∧
      (∀ row, ∀ k < 60, dutyBin t row (k + 1) = dutyBin s row k) ∧ (s.bit F.PWR_BK_SUB_VALID = false → t.mem = s.mem) ∧
      ∀ a, a < 0x3F10080 ∨ 0x3F10180 ≤ a → t.memByte a = s.memByte a)) ∧
    (Open who R.BCN_KEY_CTRL s → vaultRights who s = true →
      let w (k : Nat) : Nat := (Sparse.get (fun _ => (0 : Word)) b.keyW k).toNat
      (bitsOf v.toNat 31 30 = 1 → s.fld F.BCN_AUTH_CFG_CHAIN_INT = 0 ∨ -1 ≤ keyAhead (keyIndex s.tb.sec s) (w 0) →
        goes (.keyWrite who v) (fun t => t.mem = s.mem ∧ keyEntry t (v.toNat % 8) =
          some (w 0, leBytes 4 (w 1) ++ leBytes 4 (w 2) ++ leBytes 4 (w 3) ++ leBytes 4 (w 4)))) ∧
      (bitsOf v.toNat 31 30 = 2 → goes (.keyErase who v) (fun t => t.mem = s.mem ∧ keyEntry t (v.toNat % 8) = none))) ∧
    (Open who R.BCN_KEY_CTRL s → vaultRights who s = false → goes (.keyWrite who v) (fun t => t.bcn = b) ∧
      goes (.keyErase who v) (fun t => t.bcn = b)) ∧
    (s.fld F.BCN_AUTH_CFG_CHAIN_INT ≠ 0 → goes .chainInterval (fun t => t.mem = s.mem ∧ ∀ k < 8, keyEntry t k =
      (keyEntry s k).filter (fun p => decide (-1 ≤ keyAhead (keyIndex s.tb.sec s) p.1)))) ∧
    (s.fld F.BCN_AUTH_CFG_CHAIN_INT = 0 → exec .chainInterval s = .next s)

/-! The host port and the sequencers' start (chapters 16 and 14). -/

/-- R428 to R434, R436: a ring's BASE is taken while it is disabled, a legal SIZE_E enables it with both counts zero, an illegal one
is ignored with RING_CFG; a doorbell whose level rises within the size is accepted, and so is a HEAD between HEAD and TAIL, any
other is refused; a failed descriptor read halts a ring until HALTED is cleared; the age of an unnotified unit sets the pending
bit; a batch of records goes to a stream whole or is counted in DROPS.
Where the spec leaves a choice it is the model's: assumptions 41, 43, 44. -/
def Obligations.HostRings : Prop :=
  ∀ (who : Reader) (n : Fin 67) (j : Fin 32) (r : Fin 35) (q : Fin 3) (v : Word) (batch : List (List Byte)) (b : List Byte)
    (s : State),
    let goes (c : Instr) (post : State → Prop) : Prop :=
      ∃ t, exec c s = .next t ∧ t.mem = s.mem ∧ t.ram = s.ram ∧ t.flash = s.flash ∧ post t
    let e := v.toNat % 32
    let old := s.fld (F.HOST_RING_CFG_SIZE_E n)
    let head (k : Nat) (t : State) := t.word (R.HOST_RING_HEAD k)
    let tail (k : Nat) (t : State) := t.word (R.HOST_RING_TAIL k)
    let refused (k : Nat) (t : State) : Prop := t.bit (F.HOST_RING_STAT_REFUSED k) = true ∧ t.bit F.HOST_ERR_DOORBELL = true ∧
      (s.bit F.HOST_ERR_DOORBELL = false → EventUp 7 t) ∧ RegsBut ([R.HOST_RING_STAT k, R.HOST_ERR] ++ evKeys 7) s t ∧
      t.hostMem = s.hostMem
    let h := 32 + r.val
    let w := 64 + q.val
    let units := (batch.map unitsOf).sum
    (Open who (R.HOST_RING_BASE_LO n) s →
      (ringOn n s = true → exec (.ringCfgWrite who n .baseLo v) s = .next s) ∧
      (ringOn n s = false → goes (.ringCfgWrite who n .baseLo v) (fun t => RegsBut [R.HOST_RING_BASE_LO n] s t ∧
        t.fld (F.HOST_RING_BASE_LO_BASE n) = v.toNat / 2 ^ 12))) ∧
    (Open who (R.HOST_RING_BASE_HI n) s →
      (ringOn n s = true → exec (.ringCfgWrite who n .baseHi v) s = .next s) ∧
      (ringOn n s = false → goes (.ringCfgWrite who n .baseHi v) (fun t => RegsBut [R.HOST_RING_BASE_HI n] s t ∧
        t.word (R.HOST_RING_BASE_HI n) = v))) ∧
    (Open who (R.HOST_RING_CFG n) s →
      (old = 0 → e ≠ 0 → sizeOk n e = true → goes (.ringCfgWrite who n .cfg v) (fun t => t.fld (F.HOST_RING_CFG_SIZE_E n) = e ∧
        head n t = 0 ∧ tail n t = 0 ∧ t.fld (F.HOST_RING_STAT_LEVEL n) = 0 ∧
        RegsBut [R.HOST_RING_CFG n, R.HOST_RING_HEAD n, R.HOST_RING_TAIL n, R.HOST_RING_STAT n] s t)) ∧
      (old ≠ 0 → e = 0 → goes (.ringCfgWrite who n .cfg v) (fun t => t.fld (F.HOST_RING_CFG_SIZE_E n) = 0 ∧
        RegsBut [R.HOST_RING_CFG n] s t)) ∧
      (e ≠ old → (sizeOk n e = false ∨ (old ≠ 0 ∧ e ≠ 0)) → goes (.ringCfgWrite who n .cfg v) (fun t =>
        t.fld (F.HOST_RING_CFG_SIZE_E n) = old ∧ t.bit F.HOST_ERR_RING_CFG = true ∧
        (s.bit F.HOST_ERR_RING_CFG = false → EventUp 7 t) ∧ RegsBut ([R.HOST_RING_CFG n, R.HOST_ERR] ++ evKeys 7) s t))) ∧
    (Open who (R.HOST_RING_TAIL j) s →
      let l := (v - head j s).toNat
      (ringOn j s = true → ringLevel j s ≤ l → l ≤ ringSize j s → goes (.jobDoorbell who j v) (fun t => tail j t = v ∧
        ringLevel j t = l ∧ RegsBut [R.HOST_RING_TAIL j, R.HOST_RING_STAT j] s t)) ∧
      (ringOn j s = false ∨ l < ringLevel j s ∨ ringSize j s < l → goes (.jobDoorbell who j v) (refused j))) ∧
    (Open who (R.HOST_RING_HEAD h) s →
      let l := (tail h s - v).toNat
      (ringOn h s = true → l ≤ ringLevel h s → goes (.resultHeadWrite who r v) (fun t => head h t = v ∧ ringLevel h t = l ∧
        RegsBut [R.HOST_RING_HEAD h, R.HOST_RING_STAT h] s t)) ∧
      (ringOn h s = false ∨ ringLevel h s < l → goes (.resultHeadWrite who r v) (refused h))) ∧
    (s.car.reading = some j.val → goes (.descDmaFail j) (fun t => t.car = { s.car with reading := none } ∧ t.bit (F.HOST_RING_STAT_HALTED j) = true ∧
      t.bit F.HOST_ERR_DESC_DMA = true ∧ (s.bit F.HOST_ERR_DESC_DMA = false → EventUp 7 t) ∧
      RegsBut ([R.HOST_RING_STAT j, R.HOST_ERR] ++ evKeys 7) s t)) ∧
    (s.car.reading ≠ some j.val → exec (.descDmaFail j) s = .next s) ∧
    (Open who (R.HOST_RING_STAT j) s → goes (.haltedClear who j) (fun t => t.bit (F.HOST_RING_STAT_HALTED j) = false ∧
      t.bit (F.HOST_RING_STAT_REFUSED j) = s.bit (F.HOST_RING_STAT_REFUSED j) ∧
      t.fld (F.HOST_RING_STAT_LEVEL j) = s.fld (F.HOST_RING_STAT_LEVEL j) ∧ RegsBut [R.HOST_RING_STAT j] s t)) ∧
    (∀ t0, s.fld (F.HOST_RING_CFG_COAL_US h) ≠ 0 → (notifier s h).oldest = some t0 → s.bit (pendFld h) = false →
      (s.tick < t0 + 120 * s.fld (F.HOST_RING_CFG_COAL_US h) → exec (.coalTimeout r) s = .next s) ∧
      (t0 + 120 * s.fld (F.HOST_RING_CFG_COAL_US h) ≤ s.tick → goes (.coalTimeout r) (fun t => t.bit (pendFld h) = true ∧ EventUp (if h < 64 then r.val / 8 else 5) t ∧
        notifier t h = {} ∧ t.hostMem = s.hostMem))) ∧
    ((notifier s h).oldest = none ∨ s.bit (pendFld h) = true ∨ s.fld (F.HOST_RING_CFG_COAL_US h) = 0 →
      exec (.coalTimeout r) s = .next s) ∧
    (ringOn w s = true → s.host.d3hot = false → ringLevel w s + units ≤ ringSize w s → goes (.streamRecord q batch) (fun t =>
      tail w t = tail w s + BitVec.ofNat 32 units ∧ head w t = head w s ∧ ringLevel w t = ringLevel w s + units)) ∧
    (ringOn w s = true → s.host.d3hot = false → ringLevel w s < ringSize w s → 0 < b.length → b.length ≤ 64 →
      goes (.streamRecord q [b]) (fun t => tail w t = tail w s + 1 ∧ ∀ a, Sparse.get byteDflt t.hostMem a =
        (if entryAddr w 64 (tail w s) s ≤ a ∧ a < entryAddr w 64 (tail w s) s + 64
         then b.getD (a - entryAddr w 64 (tail w s) s) 0 else Sparse.get byteDflt s.hostMem a))) ∧
    (ringOn w s = true → batch ≠ [] → s.host.d3hot = true ∨ ringSize w s < ringLevel w s + units →
      goes (.streamRecord q batch) (fun t => t.fld (F.HOST_RING_STAT_DROPS w) =
        min 0x1FFF (s.fld (F.HOST_RING_STAT_DROPS w) + batch.length) ∧ t.bit F.HOST_ERR_STREAM_DROP = true ∧
        t.hostMem = s.hostMem ∧ RegsBut ([R.HOST_RING_STAT w, R.HOST_ERR] ++ evKeys 7) s t)) ∧
    (ringOn w s = false → exec (.streamRecord q batch) s = .next s)

/-- R395, R396, R421, R437, R439 to R442, R444: copies are checked, run, stop after ABORT and end with their result and EV_006;
negotiation selects the highest common major; a clear leaves an event of the same tick pending; MSI-X messages leave on enable and
unmask; D3hot; configuration requests act only after release; a link that comes back degraded sets LINK; sequencers start and stop.
Where the spec leaves a choice it is the model's: assumptions 16, 47, 50. -/
def Obligations.HostTransactions : Prop :=
  ∀ (who : Reader) (c : Fin 2) (k : Fin 4) (x : Fin 64) (n : SeqId) (brk fm : Bool) (v : Word) (moved : BitVec 25) (data : List Byte)
    (s : State),
    let goes (i : Instr) (post : State → Prop) : Prop := ∃ t, exec i s = .next t ∧ t.ram = s.ram ∧ t.flash = s.flash ∧ post t
    let ctl := R.HOST_COPY_CTRL c
    let copied (res : Nat) (t : State) : Prop := copyJob t c = none ∧ t.fld (F.HOST_COPY_CTRL_RESULT c) = res ∧
      t.bit (F.HOST_COPY_CTRL_BUSY c) = false ∧ EventUp 6 t
    (Open who ctl s → copyTakes c who = true →
      let host := s.fld (F.HOST_COPY_ADDR_HI_ADDR_HI c) * 2 ^ 32 + s.fld (F.HOST_COPY_ADDR_LO_ADDR c)
      let dev := s.fld (F.HOST_COPY_DEV_DEV c)
      let len := s.fld (F.HOST_COPY_LEN_LEN c)
      let toHost := v.getLsbD 28
      let ok := decide (len ≤ 16777216) && rangeOpen (copyOwner c) dev len (!toHost) (plainWrite who ctl v s)
      (v.getLsbD 31 = true → copyJob s c = none →
        (ok = true → 0 < len → goes (.copyGo who c v) (fun t => copyJob t c = some ⟨host, dev, len, toHost, false⟩ ∧
          t.bit (F.HOST_COPY_CTRL_BUSY c) = true ∧ MemsSame s t ∧ RegsBut [ctl] s t)) ∧
        (ok = false → goes (.copyGo who c v) (fun t => copied ST.format t ∧ MemsSame s t)) ∧
        (ok = true → len = 0 → goes (.copyGo who c v) (fun t => copied ST.ok t ∧ MemsSame s t))) ∧
      (∀ j, copyJob s c = some j →
        (v.getLsbD 31 = true → exec (.copyGo who c v) s = .next s) ∧
        (v.getLsbD 31 = false → v.getLsbD 30 = true → goes (.copyAbort who c v) (fun t =>
          copyJob t c = some { j with abort := true } ∧ MemsSame s t ∧ RegsBut [ctl] s t)))) ∧
    (Open who ctl s → copyTakes c who = false → exec (.copyGo who c v) s = .next s) ∧
    (∀ j, copyJob s c = some j →
      (j.abort = false → j.len ≤ moved.toNat → goes (.copyDone c moved data) (copied ST.ok)) ∧
      (j.abort = true ∨ moved.toNat < j.len → goes (.copyDone c moved data) (copied ST.abort)) ∧
      (j.abort = false → j.len ≤ moved.toNat → j.len ≤ data.length → j.toHost = false → mapKind j.dev ≠ .codeStore →
        (∀ i < j.len, mapWritable (copyOwner c) (j.dev + i) s = true) →
        goes (.copyDone c moved data) (fun t => t.hostMem = s.hostMem ∧ ∀ a, t.memByte a =
          if j.dev ≤ a ∧ a < j.dev + j.len then data.getD (a - j.dev) 0 else s.memByte a)) ∧
      (j.abort = false → j.len ≤ moved.toNat → j.toHost = true → goes (.copyDone c moved data) (fun t => t.mem = s.mem ∧
        ∀ a, (a < j.host ∨ j.host + j.len ≤ a) → Sparse.get byteDflt t.hostMem a = Sparse.get byteDflt s.hostMem a))) ∧
    (copyJob s c = none → exec (.copyDone c moved data) s = .next s) ∧
    (Open who R.HOST_NEG s → v.getLsbD 31 = true →
      (v.getLsbD 2 = true ∨ v.getLsbD 1 = true → goes (.negotiate who v) (fun t => t.bit F.HOST_NEG_NEGOTIATED = true ∧
        t.fld F.HOST_NEG_MAJOR = (if v.getLsbD 2 then 2 else 1) ∧ t.fld F.HOST_NEG_RESULT = ST.ok ∧ t.word R.CAR_FEAT_GRANT = 0 ∧
        RegsBut [R.HOST_NEG, R.CAR_FEAT_GRANT] s t ∧ MemsSame s t)) ∧
      (v.getLsbD 2 = false → v.getLsbD 1 = false → goes (.negotiate who v) (fun t => t.bit F.HOST_NEG_NEGOTIATED = false ∧
        t.fld F.HOST_NEG_RESULT = ST.version ∧ t.bit F.HOST_ERR_VERSION = true ∧ t.word R.CAR_FEAT_GRANT = 0 ∧
        (s.bit F.HOST_ERR_VERSION = false → EventUp 7 t) ∧ MemsSame s t))) ∧
    (Open who (R.EV_PEND k) s →
      (who = .host ∨ who = .sqm → goes (.evPendClear who k v) (fun t => MemsSame s t ∧
        (∀ i < 32, t.maskBit (copyOff who (R.EV_PEND k)) i = (s.maskBit (copyOff who (R.EV_PEND k)) i &&
          (!v.getLsbD i || Sparse.get (fun _ => 0) s.evAt (32 * k.val + i) == s.tick + 1))) ∧
        RegsBut [copyOff who (R.EV_PEND k), R.MSIX_PBA 0, R.MSIX_PBA 1] s t)) ∧
      (who ≠ .host → who ≠ .sqm → exec (.evPendClear who k v) s = .next s)) ∧
    (s.bit F.DEV_STATUS_READY = true → goes (.msixEnable (.control false fm)) (fun t => t.host.msixEn = false ∧ t.host.fnMask = fm ∧ t.word (R.MSIX_PBA 0) = 0 ∧
      t.word (R.MSIX_PBA 1) = 0 ∧ t.out = s.out ∧ RegsBut [R.MSIX_PBA 0, R.MSIX_PBA 1] s t ∧ MemsSame s t)) ∧
    (s.bit F.DEV_STATUS_READY = true → s.host.msixEn = false → s.host.d3hot = false →
      goes (.msixEnable (.control true false)) (fun t => t.host.msixEn = true ∧
        (∀ y ∈ routedVectors s, s.bit (F.MSIX_CTL_MASK y) = false → .msix y ∈ t.out) ∧
        (∀ y ∈ routedVectors s, s.bit (F.MSIX_CTL_MASK y) = true → t.maskBit (R.MSIX_PBA (y / 32)) (y % 32) = true))) ∧
    (s.bit F.DEV_STATUS_READY = true → s.host.d3hot = true → goes (.msixEnable .d0) (fun t => t.host = { s.host with d3hot := false } ∧ MemsSame s t ∧
      (s.host.msixEn = true → s.host.fnMask = false → ∀ y ∈ routedVectors s,
        (s.bit (F.MSIX_CTL_MASK y) = false → .msix y ∈ t.out) ∧
        (s.bit (F.MSIX_CTL_MASK y) = true → t.maskBit (R.MSIX_PBA (y / 32)) (y % 32) = true)))) ∧
    (Open .host (R.MSIX_CTL x) s → s.host.msixEn = true → s.host.d3hot = false → s.host.fnMask = false →
      goes (.msixUnmask (some x)) (fun t => t.bit (F.MSIX_CTL_MASK x) = false ∧
        t.maskBit (R.MSIX_PBA (x.val / 32)) (x.val % 32) = false ∧ t.out = s.out ++
          (if s.maskBit (R.MSIX_PBA (x.val / 32)) (x.val % 32) then [.msix x.val] else []) ∧
        RegsBut [R.MSIX_CTL x, R.MSIX_PBA (x.val / 32)] s t)) ∧
    (s.bit F.DEV_STATUS_READY = true → goes (.msixUnmask none) (fun t => t.host = { s.host with fnMask := false } ∧ MemsSame s t)) ∧
    (s.bit F.DEV_STATUS_READY = true → exec .d3hotEntry s = .next { s with host := { s.host with d3hot := true } }) ∧
    (s.bit F.DEV_STATUS_READY = false → exec .d3hotEntry s = .next s ∧ exec (.msixUnmask none) s = .next s ∧ ∀ w, exec (.msixEnable w) s = .next s) ∧
    goes (.linkRetrain true) (fun t => t.bit F.HOST_ERR_LINK = true ∧ (s.bit F.HOST_ERR_LINK = false → EventUp 7 t) ∧
      RegsBut (R.HOST_ERR :: evKeys 7) s t) ∧
    exec (.linkRetrain false) s = .next s ∧
    (Open who (R.SQ_CTRL n) s → vaultRights who s = true →
      (s.bit (F.SQ_CTRL_RUN n) = false → goes (.seqRunStart who n brk) (fun t => t.seq n = { s.seq n with
          pc := BitVec.ofNat 16 (s.fld (F.SQ_START_START n)), mode := 1, sp := 0x7FE0, splim := 0x0100, a := 0, b := 0, x := 0,
          y := 0, ct := 0, ctl := 0, imask := 0, bank := 0, aper := 0, rsel := 0, ipend := 0, tmr := 0, timer := 0, presc := 0,
          rdBuf := none, wrBuf := none, rep := none, dbgHalt := false, run := .run } ∧
        t.bit (F.SQ_CTRL_RUN n) = true ∧ t.bit (F.SQ_CTRL_DBG_BRK n) = brk ∧ RegsBut [R.SQ_CTRL n] s t ∧ MemsSame s t)) ∧
      (s.bit (F.SQ_CTRL_RUN n) = true → n.val ≠ 10 → goes (.seqRunStop who n brk) (fun t =>
        t.seq n = { s.seq n with run := .halted, dbgHalt := false, rep := none } ∧ t.bit (F.SQ_CTRL_RUN n) = false ∧
        RegsBut [R.SQ_CTRL n] s t ∧ MemsSame s t)) ∧
      (s.bit (F.SQ_CTRL_RUN n) = true → n.val = 10 → goes (.seqRunStop who n brk) (fun t => t.seq n = s.seq n ∧
        t.bit (F.SQ_CTRL_RUN n) = true ∧ RegsBut [R.SQ_CTRL n] s t ∧ MemsSame s t)))

/-! The Tightrope ports and the twin (chapter 17). -/

/-- R445 to R447, R449 to R456, R228, R458: EN, block lock, alignment and a matching HELLO take a port to UP; a version or a topology
that does not match leaves it in HELLO; a loss of lock or 100 µs of silence takes it to DOWN, and its jobs with it; unacknowledged
frames are sent again every 20 µs, eight times; a malformed frame is counted and discarded, a reliable one is taken in order only;
credits are kept as cumulative counts; a job within its credits is admitted, one beyond them is a violation; a result finds
its FORWARDED job or is late; a cancel ends the port's job. A scrambled word is what the peer descrambles, and a frame's words are dealt
to the lanes in turn, word 0 to lane 0.
Where the spec leaves a choice it is the model's: assumptions 103, 104, 105, 106, 171. -/
def Obligations.LinkPorts : Prop :=
  ∀ (who : Reader) (p : Fin 4) (v : Word) (lane1 lost : Bool) (h : FrameHead) (b : HelloBody) (nj nb nr tag : BitVec 32)
    (body record : List Byte) (j : Job) (s : State),
    let st := linkState p s
    let l := link s p
    let goes (c : Instr) (post : State → Prop) : Prop := ∃ t, exec c s = .next t ∧ t.ram = s.ram ∧ t.flash = s.flash ∧ post t
    let stat := R.TRP_PORT_STAT p
    let downed (x : Nat) (t : State) : Prop := linkState p t = x ∧ EventUp (112 + p.val) t ∧
      t.fld (F.TRP_PORT_STAT_DOWN_CNT p) = min 255 (s.fld (F.TRP_PORT_STAT_DOWN_CNT p) + 1) ∧
      (∀ k, jobList s = [(k, j)] → jobAt s k = some j → (j.src = 32 + p.val → jobAt t k = none) ∧
        (j.src ≠ 32 + p.val → j.state = 7 → j.port = p.val → ∃ y, jobAt t k = some y ∧ y.retaken = true ∧
          if deadlinePassed j.desc s then y.state = 6 ∧ y.status = ST.deadline ∧ y.detail = 0x41 else y.state = 2))
    let sound := frameSound h = true
    let quiet := ∀ x < 32, hostServed x s = false
    let first := ∀ e ∈ jobList s, e.2.src = j.src → e.2.record = none ∨ e.2.silent = true
    let good := sound ∧ h.rest = 0
    let sent (kind : Nat) (f : List Byte) : Output := frameSent p s.out.length (frameOf kind 0 l.rxSeq f) s
    let common := b.majors.toNat &&& 0x000C
    let frames : List Instr := [.creditFrame p h nj nb nr, .jobFrame p h body, .resultFrame p h tag record, .cancelFrame p h tag]
    let takes (x : Nat) (t : State) : Prop := (link t p).rxSeq = x ∧ (link t p).lastRx = s.tick
    let next := (l.rxSeq + 1) % 2 ^ 32
    let d := body.take 128 ++ List.replicate (128 - body.length) 0
    let n := blocksFor (descLen d)
    let held := (l.waiting.map (fun b => blocksFor (descLen (bodyDesc b)))).sum
    let k := tag.toNat % 2 ^ 14
    (Open who (R.TRP_PORT_CFG p) s →
      (v.getLsbD 31 = true → st = 0 → pstate s ≠ 2 → goes (.portEnable who p v) (fun t => linkState p t = 1 ∧
        RegsBut [R.TRP_PORT_CFG p, stat] s t)) ∧
      (v.getLsbD 31 = false → 0 < st → st < 4 → goes (.portEnable who p v) (fun t => linkState p t = 0 ∧
        RegsBut [R.TRP_PORT_CFG p, stat] s t)) ∧
      (v.getLsbD 31 = false → st = 4 → goes (.portEnable who p v) (downed 0))) ∧
    (st = 1 → goes (.blockLock p) (fun t => linkState p t = 2 ∧ RegsBut [stat] s t)) ∧
    (st ≠ 1 → exec (.blockLock p) s = .next s) ∧
    (st = 2 → goes (.laneAlign p lane1) (fun t => linkState p t = 3 ∧ t.bit (F.TRP_PORT_STAT_WIDTH1 p) = !lane1 ∧
      RegsBut [stat] s t)) ∧
    (st ≠ 2 → exec (.laneAlign p lane1) s = .next s) ∧
    (st = 4 → goes (.lane1Loss p) (fun t => linkState p t = 4 ∧ t.bit (F.TRP_PORT_STAT_WIDTH1 p) = true ∧ RegsBut [stat] s t)) ∧
    (st ≠ 4 → exec (.lane1Loss p) s = .next s) ∧
    (st = 3 → exec (.helloSend p) s = .next (s.emit (sent 1 (helloBytes p s)))) ∧
    (st ≠ 3 → exec (.helloSend p) s = .next s) ∧
    (st = 3 → good →
      (common = 0 → goes (.helloFrame p h b) (fun t => linkState p t = 3 ∧ t.bit (F.TRP_PORT_STAT_VERSION p) = true ∧
        EventUp 117 t)) ∧
      (common ≠ 0 → portsPair p b.port.toNat = false → goes (.helloFrame p h b) (fun t => linkState p t = 3 ∧
        t.bit (F.TRP_PORT_STAT_TOPOLOGY p) = true ∧ EventUp (112 + p.val) t)) ∧
      (common ≠ 0 → portsPair p b.port.toNat = true → goes (.helloFrame p h b) (fun t => linkState p t = 4 ∧
        t.fld (F.TRP_PORT_STAT_MAJOR p) = (if b.majors.getLsbD 3 then 3 else 2) ∧
        t.fld (F.TRP_PORT_FEAT_GRANT p) = s.fld (F.TRP_PORT_FEAT_OFFER p) &&& b.feat.toNat ∧
        peerSerial p t = b.serial.toNat ∧ EventUp (112 + p.val) t))) ∧
    (st = 4 → lost = true ∨ l.lastRx + 12000 ≤ s.tick → goes (.linkTimeout p lost) (downed 1)) ∧
    (2 ≤ st → st < 4 → lost = true → goes (.linkTimeout p lost) (fun t => linkState p t = 1 ∧ RegsBut [stat] s t)) ∧
    (st = 4 → lost = false → s.tick < l.lastRx + 12000 → exec (.linkTimeout p lost) s = .next s) ∧
    (st < 2 → exec (.linkTimeout p lost) s = .next s) ∧
    (st = 4 → l.unacked ≠ [] → l.progress + 2400 ≤ s.tick →
      (l.resends < 8 → goes (.replayTimeout p) (fun t => t.out = s.out ++ l.unacked.zipIdx.map (fun f =>
          frameSent p.val (s.out.length + f.2) (frameOf f.1.kind f.1.seq l.rxSeq f.1.body) s) ∧
        t.fld (F.TRP_PORT_ERRCNT_RETX p) = min 0xFFFF (s.fld (F.TRP_PORT_ERRCNT_RETX p) + l.unacked.length) ∧
        t.bit (F.TRP_PORT_STAT_REPLAY p) = true ∧ link t p = { l with resends := l.resends + 1, progress := s.tick } ∧
        RegsBut [stat, R.TRP_PORT_ERRCNT p] s t)) ∧
      (8 ≤ l.resends → goes (.replayTimeout p) (downed 1))) ∧
    (st ≠ 4 ∨ l.unacked = [] ∨ s.tick < l.progress + 2400 → exec (.replayTimeout p) s = .next s) ∧
    (st = 4 → goes (.creditSend p) (fun t => let m := link t p
      t.out = s.out ++ [sent 2 (leBytes 4 m.jobGrant ++ leBytes 4 m.blkGrant ++ leBytes 4 m.resGrant ++ List.replicate 4 0)] ∧ l.jobGrant ≤ m.jobGrant ∧ l.blkGrant ≤ m.blkGrant ∧ l.resGrant ≤ m.resGrant ∧
      (1 < p.val → m.jobGrant = l.jobGrant ∧ m.blkGrant = l.blkGrant) ∧ (p.val = 1 → m.resGrant = l.resGrant) ∧
      t.regs = s.regs ∧ t.car = s.car)) ∧
    (st ≠ 4 → exec (.creditSend p) s = .next s) ∧
    (∀ c ∈ frames, (st < 2 → exec c s = .next s) ∧ (sound → st ≠ 4 → exec c s = .next s) ∧
      (st = 4 → sound → h.rest ≠ 0 → goes c (fun t => t.regs = s.regs ∧ t.car = s.car ∧ (link t p).lastRx = s.tick)) ∧
      (2 ≤ st → ¬sound → goes c (fun t => RegsBut [R.TRP_PORT_ERRCNT p] s t ∧ t.links = s.links ∧ t.car = s.car ∧
        t.fld (F.TRP_PORT_ERRCNT_CRC_ERR p) = min 0xFFFF (s.fld (F.TRP_PORT_ERRCNT_CRC_ERR p) + 1)))) ∧
    (st = 4 → good →
      goes (.creditFrame p h nj nb nr) (fun t => takes l.rxSeq t ∧ t.regs = s.regs ∧ let m := link t p
        m.jobGot % 2 ^ 32 = nj.toNat ∧ l.jobGot ≤ m.jobGot ∧ m.blkGot % 2 ^ 32 = nb.toNat ∧ l.blkGot ≤ m.blkGot ∧
        m.resGot % 2 ^ 32 = nr.toNat ∧ l.resGot ≤ m.resGot) ∧
      (frameSeq h ≠ l.rxSeq → goes (.jobFrame p h body) (fun t => takes l.rxSeq t ∧ t.car = s.car ∧ t.regs = s.regs)) ∧
      (frameSeq h = l.rxSeq →
        (2 ≤ p.val ∨ jobOut p s ≤ l.waiting.length ∨ blkOut p s < held + n → goes (.jobFrame p h body) (fun t => takes next t ∧
          t.car = s.car ∧ t.bit (F.TRP_PORT_STAT_CREDIT_VIOL p) = true ∧ EventUp 119 t)) ∧
        (p.val < 2 → l.waiting.length < jobOut p s → held + n ≤ blkOut p s → srcTakes (32 + p.val) s = false →
          (link s (1 - p.val)).waiting = [] → quiet → goes (.jobFrame p h body) (fun t => takes next t ∧ t.car = s.car ∧ t.regs = s.regs ∧
            (link t p).waiting = l.waiting ++ [body])) ∧
        (∀ i, nextSlot s = some i → p.val < 2 → l.waiting = [] → (link s (1 - p.val)).waiting = [] → jobOut p s ≠ 0 →
          n ≤ blkOut p s → quiet → srcTakes (32 + p.val) s = true → s.fld (F.CAR_SRC_LIMIT_MAXSLOT (32 + p.val)) ≠ 0 →
          (∀ r, descCheck (32 + p.val) (s.fld (F.TRP_PORT_STAT_MAJOR p) == 2) d s = some r → goes (.jobFrame p h body) (fun t =>
            takes next t ∧ ∃ y, jobAt t i = some y ∧ y.state = 6 ∧ y.status = r.1 ∧ y.detail = r.2 ∧ y.src = 32 + p.val)) ∧
          (descCheck (32 + p.val) (s.fld (F.TRP_PORT_STAT_MAJOR p) == 2) d s = none → body.length = 128 + descLen d →
            goes (.jobFrame p h body) (fun t => takes next t ∧ t.regs = s.regs ∧ (link t p).jobUsed = l.jobUsed + 1 ∧
              (link t p).blkUsed = l.blkUsed + n ∧ jobAt t i = some {
                src := 32 + p.val, state := 1, desc := d, order := s.car.seq, blocks := n, snap := body.drop 128 })))) ∧
      (frameSeq h = l.rxSeq → jobAt s k = none → goes (.resultFrame p h tag record) (fun t => takes next t ∧
        t.bit F.CAR_ERR_LATE_RES = true ∧ (link t p).resUsed = l.resUsed + 1 ∧ t.car = s.car ∧
        t.fld F.CAR_FWD_STAT_LATE_RES = min 0xFFFF (s.fld F.CAR_FWD_STAT_LATE_RES + 1))) ∧
      (frameSeq h = l.rxSeq → jobAt s k = some j → j.state = 7 → slotGen s k = tag.toNat / 2 ^ 14 → p.val ≠ 1 → j.src < 32 →
        j.silent = false → first → recordOk record = true → let r := putAt record 6 [BitVec.ofNat 8 (min 255 (leAt record 6 1 + 1)),
          BitVec.ofNat 8 (leAt record 7 1 ||| 4)]
        (recordRoom j.src r s = true → goes (.resultFrame p h tag record) (fun t => takes next t ∧ jobAt t k = none ∧
          t.word (R.HOST_RING_TAIL (32 + j.src)) = s.word (R.HOST_RING_TAIL (32 + j.src)) + BitVec.ofNat 32 (unitsOf r))) ∧
        (recordRoom j.src r s = false → goes (.resultFrame p h tag record) (fun t => takes next t ∧
          t.bit F.CAR_ERR_STALL = true ∧ jobAt t k = some { j with
            state := 6, status := leAt r 2 1, detail := leAt r 3 1, prof := none, epoch := none, was := 7, endTick := s.tick,
            rank := 1, order := s.car.seq, record := some r }))) ∧
      (frameSeq h = l.rxSeq → jobList s = [] → goes (.cancelFrame p h tag) (fun t => takes next t ∧ t.car = s.car ∧
        t.regs = s.regs)) ∧
      (frameSeq h = l.rxSeq → ∀ i, jobList s = [(i, j)] → jobAt s i = some j → j.src = 32 + p.val → j.state ≠ 6 → j.state ≠ 7 →
        descFwd j.desc = tag.toNat → goes (.cancelFrame p h tag) (fun t => takes next t ∧ ∃ y, jobAt t i = some y ∧ y.silent = true ∧
          if (j.state = 4 ∧ jobBusy j = true) ∨ (j.state = 1 ∧ j.blocks ≠ 0) then y.ending = some (ST.abort, 0x31) ∧ y.state = j.state
          else y.state = 6 ∧ y.status = ST.abort ∧ y.detail = 0x31))) ∧
    (∀ w x, w < 2 ^ 64 → x < 2 ^ 58 → descrambleWord (scrambleWord w x).1 x = (w, (scrambleWord w x).2)) ∧
    (∀ (ws : List Nat) (k : Nat), laneWords 1 0 ws = ws ∧ (laneWords 2 (k % 2) ws)[k / 2]? = ws[k]?)

/-- R459 to R467, R308: mirrors are sent by priority and applied where MIR_IN and the role say, or refused with EV_119; a device of a
twin sends heartbeats, a standby counts those it misses and asks for the role after ten; the preferred or higher device claims the
role; a requester asks for the time, the other side answers with its stamps, the answer is kept or discarded, and each second
gives a measurement or TIME_REFUSED.
Where the spec leaves a choice it is the model's: assumptions 92, 107, 108. -/
def Obligations.TwinAndTime : Prop :=
  ∀ (p : Fin 4) (h : FrameHead) (kind role : Byte) (idx exno hb : BitVec 16) (data : List Byte) (due : MirrorDue) (sub : BitVec 44)
    (depart : BitVec 52) (t1 : BitVec 96) (b : TimeResp) (peer pin : Bool) (s : State),
    let l := link s p
    let l0 := link s 0
    let goes (c : Instr) (post : State → Prop) : Prop := ∃ t, exec c s = .next t ∧ MemsSame s t ∧ post t
    let rx := linkState p s = 4 ∧ frameSound h = true
    let due1 := l.mirrors.filter (fun e => (mirrorPorts e.1 s).contains p.val)
    let inOrder := rx ∧ frameSeq h = l.rxSeq
    let may := p.val ≠ 1 ∧ linkState p s = 4 ∧ s.bit (F.TRP_PORT_CFG_MIR_OUT p) = true ∧ ¬(p.val = 0 ∧ isStandby s = true) ∧
      linkFits p 264 s = true
    let mbody (k i : Nat) : List Byte := [BitVec.ofNat 8 k, 0] ++ leBytes 2 i ++ leBytes 2 (s.fld F.SKY_STAT_EPOCH) ++ [0, 0] ++
      mirrorData k i s
    let sends (k i : Nat) (t : State) : Prop :=
      t.out = s.out ++ [frameSent p s.out.length (frameOf 0x20 l.txSeq l.rxSeq (mbody k i)) s] ∧ t.regs = s.regs ∧
      (link t p).unacked = l.unacked ++ [⟨l.txSeq, 0x20, mbody k i⟩]
    let stamp := stampAt sub.toNat s
    let m := s.fld F.TRP_TWIN_STAT_MISSED
    let claims := pulseSafe s && isStandby s && linkUp 0 s && !pin && s.fld F.TRP_TWIN_STAT_PEER_ROLE != 2 && l0.peerRole != 2 &&
      ((s.bit F.TRP_TWIN_CFG_PREFER && !peer) || (s.bit F.TRP_TWIN_CFG_PREFER == peer && decide (peerSerial 0 s < ownSerial s)))
    (inOrder → mirrorsIn p s = false → goes (.mirrorFrame p h kind idx data) (fun t => t.regs = s.regs ∧ t.sky = s.sky ∧
      t.bcn = s.bcn ∧ (link t p).rxSeq = (l.rxSeq + 1) % 2 ^ 32)) ∧
    (inOrder → mirrorsIn p s = true → h.rest ≠ 0 → goes (.mirrorFrame p h kind idx data) (fun t => t.sky = s.sky ∧ t.bcn = s.bcn ∧
      t.bit F.TRP_TWIN_STAT_MIR_REFUSED = true ∧ EventUp 119 t)) ∧
    (inOrder → mirrorsIn p s = true → h.rest = 0 →
      (kind = 1 → data.length = 256 → slotOk idx.toNat (peerSlot data) = true → goes (.mirrorFrame p h kind idx data) (fun t =>
        t.regs = s.regs ∧ skyPending t idx.toNat = slotStored (peerSlot data))) ∧
      (kind = 3 → data.length = 32 → s.fld (F.TRP_PORT_STAT_MAJOR p) ≠ 2 → (leAt data 8 1).testBit 0 = true → cycOk data = true →
        goes (.mirrorFrame p h kind idx data) (fun t => t.regs = s.regs ∧ cycRec t (leAt data 0 4 % 256) = data)) ∧
      (kind = 0 ∨ 4 < kind.toNat ∨ (kind = 1 ∧ slotOk idx.toNat (peerSlot data) = false) → goes (.mirrorFrame p h kind idx data)
        (fun t => t.sky = s.sky ∧ t.bcn = s.bcn ∧ t.bit F.TRP_TWIN_STAT_MIR_REFUSED = true ∧ EventUp 119 t))) ∧
    (may →
      goes (.mirrorSend p .second) (sends 4 0) ∧
      (∀ k i, mirrorFirst due1 = some (k, i) → ¬(k = 3 ∧ s.fld (F.TRP_PORT_STAT_MAJOR p) = 2) →
        goes (.mirrorSend p .waiting) (fun t => sends k i t ∧ (link t p).mirrors = due1.filter (fun e => e != (k, i)))) ∧
      (due1 ≠ [] → exec (.mirrorSend p .rolling) s = .next s) ∧
      (due1 = [] → l.roll < 220 → goes (.mirrorSend p .rolling) (fun t => (link t p).roll = l.roll + 1 ∧
        ((mirrorPorts 1 s).contains p.val = true → sends 1 l.roll t) ∧
        ((mirrorPorts 1 s).contains p.val = false → t.out = s.out)))) ∧
    (¬may → exec (.mirrorSend p due) s = .next s) ∧
    (s.fld F.TRP_TWIN_STAT_ROLE ≠ 0 → linkUp 0 s = true → goes .heartbeatSend (fun t => t.regs = s.regs ∧
      (link t 0).hbSeq = (l0.hbSeq + 1) % 65536 ∧ ∃ f, t.out = s.out ++ [frameSent 0 s.out.length (frameOf 3 0 l0.rxSeq f) s] ∧ leAt f 0 2 = l0.hbSeq % 65536 ∧
        leAt f 2 1 = s.fld F.TRP_TWIN_STAT_ROLE ∧ leAt f 4 4 = (s.word R.TP_UNC).toNat)) ∧
    (s.fld F.TRP_TWIN_STAT_ROLE = 0 → exec .heartbeatSend s = .next s) ∧
    (linkState 0 s = 4 → frameSound h = true → h.rest = 0 → role.toNat ≤ 2 → goes (.heartbeatFrame h hb role) (fun t =>
      RegsBut [R.TRP_TWIN_STAT] s t ∧ t.fld F.TRP_TWIN_STAT_PEER_ROLE = role.toNat ∧ (link t 0).peerRole = role.toNat ∧ t.fld F.TRP_TWIN_STAT_HB_SEQ = hb.toNat ∧
      t.fld F.TRP_TWIN_STAT_ROLE = s.fld F.TRP_TWIN_STAT_ROLE ∧ (link t 0).lastRx = s.tick ∧
      (link t 0).hbSeen = (l0.hbSeen || role == 2))) ∧
    (isStandby s = false → exec .heartbeatCheck s = .next s) ∧
    (isStandby s = true →
      (l0.hbSeen = true → linkUp 0 s = true → goes .heartbeatCheck (fun t => t.fld F.TRP_TWIN_STAT_MISSED = 0 ∧
        t.disc.takeover = false ∧ (link t 0).hbSeen = false ∧ (m ≠ 0 → EventUp 116 t))) ∧
      (l0.hbSeen = false ∨ linkUp 0 s = false → goes .heartbeatCheck (fun t => t.fld F.TRP_TWIN_STAT_MISSED = min 15 (m + 1) ∧
        (m = 0 → EventUp 116 t) ∧ t.disc.takeover = (s.disc.takeover || decide (9 ≤ m)) ∧ (link t 0).hbSeen = false))) ∧
    (claims = true → goes (.roleClaim peer pin) (fun t => t.fld F.TRP_TWIN_STAT_ROLE = 2 ∧ t.bit F.TP_STATUS_ACTIVE = true ∧
      t.bit F.TP_STATUS_TAKEOVER = true ∧ EventUp 91 t)) ∧
    (claims = false → exec (.roleClaim peer pin) s = .next { s with twinPin := pin }) ∧
    (timeAsks p s = true → let n := (l.exNo + 1) % 65536
      goes (.timeReqSend p sub) (fun t => t.regs = s.regs ∧
        t.out = s.out ++ [frameSent p s.out.length (frameOf 4 0 l.rxSeq (leBytes 2 n ++ List.replicate 6 0 ++ stampBytes stamp)) s] ∧
        (link t p).exOpen = some (n, stamp, s.fld F.TB_STATUS_STEP_SEQ))) ∧
    (timeAsks p s = false → exec (.timeReqSend p sub) s = .next s) ∧
    (rx → h.rest = 0 → l.later = [] → (p.val = 2 ∨ p.val = 3 ∨ (p.val = 0 ∧ s.fld F.TRP_TWIN_STAT_ROLE = 2) → goes (.timeReq p h exno t1 sub depart) (fun t =>
        t.regs = s.regs ∧ ∃ f, t.out = s.out ++ [frameSent p s.out.length (frameOf 5 0 l.rxSeq f) s] ∧ leAt f 0 2 = exno.toNat ∧
          (f.drop 8).take 16 = stampBytes t1.toNat ∧ (f.drop 24).take 16 = stampBytes stamp ∧
          (f.drop 40).take 16 = stampBytes (stampAt depart.toNat s))) ∧
      (p.val = 1 ∨ (p.val = 0 ∧ s.fld F.TRP_TWIN_STAT_ROLE ≠ 2) → goes (.timeReq p h exno t1 sub depart) (fun t =>
        t.regs = s.regs ∧ t.out = s.out))) ∧
    (rx → h.rest = 0 → ∀ n u q, l.exOpen = some (n, u, q) →
      (n ≠ b.exno.toNat ∨ u ≠ b.t1.toNat → goes (.timeResp p h b sub peer) (fun t => (link t p).exs = l.exs ∧ t.regs = s.regs)) ∧
      (n = b.exno.toNat → u = b.t1.toNat →
        let keep := stampPs stamp u ≤ 10 ^ 9 ∧ b.flags.toNat < 16 ∧ b.flags.getLsbD 2 = true ∧ b.flags.toNat % 4 ≠ 0 ∧ peer = false ∧
          s.fld F.TB_STATUS_STEP_SEQ = q
        let back := stampPs stamp b.t3.toNat
        let fwd := stampPs b.t2.toNat u
        (keep → goes (.timeResp p h b sub peer) (fun t => (link t p).exOpen = none ∧ t.regs = s.regs ∧ (link t p).exs = l.exs ++
          [⟨(back - fwd + (toSigned 32 (s.word (R.TRP_PORT_ASYM p)).toNat : Rat)) / 2, (fwd + back) / 2, b.ofs.toInt, b.unc.toNat,
            b.func.toNat⟩])) ∧
        (¬keep → goes (.timeResp p h b sub peer) (fun t => (link t p).exOpen = none ∧ (link t p).exs = l.exs ∧
          t.regs = s.regs)))) ∧
    (timeAsks 0 s = false → l0.had = false → timeAsks 1 s = false → (link s 1).had = false → goes .timeMeasure (fun t =>
      t.regs = s.regs ∧ (link t 0).exs = [] ∧ (link t 1).exs = [] ∧ (link t 0).offs = l0.offs)) ∧
    (timeAsks 0 s = false → l0.had = false → timeAsks 1 s = true → (link s 1).stepMark = s.fld F.TB_STATUS_STEP_SEQ →
      let kept := exKept (link s 1).exs s
      (kept ≠ [] → s.fld F.TRP_TIME_CFG_MIN_EX ≤ kept.length →
        let ofs := ofSigned 64 (roundRat (ratSum (kept.map (fun e => e.e + (e.ofs : Rat))) / (kept.length : Rat)))
        goes .timeMeasure (fun t => t.fld F.TRP_TIME_STAT_EXCH = min 255 kept.length ∧ t.fld F.TRP_TIME_STAT_PORT = 1 ∧
          t.word R.TRP_TIME_OFS_LO = BitVec.ofNat 32 ofs ∧ t.word R.TRP_TIME_OFS_HI = BitVec.ofNat 32 (ofs / 2 ^ 32) ∧
          (link t 1).had = true ∧ (link t 1).exs = [])) ∧
      (kept.length < s.fld F.TRP_TIME_CFG_MIN_EX → (link s 1).had = true → goes .timeMeasure (fun t =>
        t.bit F.TRP_TIME_STAT_TIME_REFUSED = true ∧ EventUp 118 t ∧ (link t 1).had = false ∧
        t.word R.TRP_TIME_OFS_LO = s.word R.TRP_TIME_OFS_LO)))

/-! The serial ports (chapter 18). -/

/-- R473 to R494: a command port checks and queues a transfer, the bus takes line fills first and then the ports, and the end writes
the data and the result; the window is served from a line, waits for a fill, or reads 0 with XIP_OFF; requests fill the receive FIFO and polls
shift out a committed response; the UARTs divide, receive, send, repeat and drop as their registers say.
Where the spec leaves a choice it is the model's: assumptions 110, 111, 112, 113. -/
def Obligations.SerialPorts : Prop :=
  ∀ (who : Reader) (n : Fin 2) (v : Word) (a : BitVec 24) (data : List Byte) (units : List Word) (polled : Byte)
    (line : List Bool) (broken level card7 card8 card9 : Bool) (s : State),
    let goes (c : Instr) (post : State → Prop) : Prop := ∃ t, exec c s = .next t ∧ t.mem = s.mem ∧ t.ram = s.ram ∧
      t.hostMem = s.hostMem ∧ post t
    let ctl := copyOff who R.SPIM_CMD_CTRL
    let len := s.fld (F.SPIM_CMD_LEN_LEN.at who)
    let res (t : State) := t.fld (F.SPIM_CMD_LEN_RESULT.at who)
    let cmdAt (t : State) (r : Nat) : Option SpimCmd := Sparse.get (fun _ => none) t.spim.cmds r
    let held := s.spim.lines.find? (fun e => e.1 == a.toNat / 64)
    let w := s.fld F.SPIS_CFG_UNIT
    let us := units.map (fun x => x.toNat % 2 ^ w)
    let p := polled.toNat
    let u := uart s n
    let sig := cardSignals card7 card8 card9
    let high := level.xor (lineInv n s)
    let stop := stopBit n s
    let flashAt (t : State) (x : Nat) := Sparse.get flashDflt t.flash x
    (Open who R.SPIM_CMD_CTRL s → v.getLsbD 31 = true →
      (spimBusy who s = false → spimOk v.toNat len = true → goes (.spimGo who v) (fun t => cmdAt t (readerIdx who) =
        some ⟨v, s.word (copyOff who R.SPIM_CMD_ADDR), len, (spimData who s).take len⟩ ∧ spimBusy who t = true ∧
        t.flash = s.flash ∧ RegsBut [ctl] s t)) ∧
      (spimBusy who s = false → spimOk v.toNat len = false → goes (.spimGo who v) (fun t => res t = ST.format ∧ t.spim = s.spim ∧
        EventUp 120 t)) ∧
      (spimBusy who s = true → goes (.spimGo who v) (fun t => res t = ST.busy ∧ t.spim = s.spim ∧
        RegsBut [copyOff who R.SPIM_CMD_LEN] s t))) ∧
    (s.spim.bus.isSome = true ∨ s.pwr.store.isSome = true ∨ s.pwr.queue ≠ [] ∨ s.pwr.hib = true →
      exec .spimTransferStart s = .next s) ∧
    (s.spim.bus = none → s.pwr.store = none → s.pwr.queue = [] → s.pwr.hib = false →
      (∀ line read rest, s.spim.fills = (line, read) :: rest → goes .spimTransferStart (fun t => t.spim.bus = some (.fill line read) ∧
        t.spim.fills = rest ∧ t.out = s.out ++ [.spim 0 (spimClock s) (fillPhases line s)] ∧
        t.bit F.SPIM_STAT_OMIT_ACT = (s.bit F.SPIM_STAT_OMIT_ACT || s.bit F.SPIM_XIP_OMIT))) ∧
      (s.spim.fills = [] → ∀ r c, s.spim.cmds.findSome? (fun e => e.2.map (fun c => (e.1, c))) = some (r, c) →
        let dev := bitsOf c.ctrl.toNat 7 5
        let off := dev = 0 ∧ s.bit F.SPIM_STAT_OMIT_ACT = true
        goes .spimTransferStart (fun t => t.spim.bus = some (.cmd r) ∧ t.bit F.SPIM_STAT_OMIT_ACT =
            (s.bit F.SPIM_STAT_OMIT_ACT && dev != 0) ∧
          t.out = s.out ++ (if off then [.spim 0 (spimClock s) (leavePhases s)] else []) ++ [.spim dev (spimClock s) c.phases]))) ∧
    (∀ c, s.spim.bus = some (.cmd (readerIdx who)) → cmdAt s (readerIdx who) = some c →
      let op := bitsOf c.ctrl.toNat 15 8
      let flash := bitsOf c.ctrl.toNat 7 5 = 0 ∧ bitsOf c.ctrl.toNat 22 21 ≠ 0
      goes (.spimTransferDone data) (fun t => t.spim.bus = none ∧ cmdAt t (readerIdx who) = none ∧ spimBusy who t = false ∧
        res t = ST.ok ∧ EventUp 120 t ∧ (bitsOf c.ctrl.toNat 7 5 = 0 → t.spim.lines = []) ∧
        (c.ctrl.getLsbD 29 = false → c.len ≤ 256 → ∀ i < c.len, bitsOf (t.word (copyOff who (R.SPIM_CMD_DATA (i / 4)))).toNat
          (8 * (i % 4) + 7) (8 * (i % 4)) = (data.getD i 0).toNat) ∧
        (flash → op = 0x20 → ∀ x, flashAt t x = if x / 4096 = c.address / 4096 then 0xFF else flashAt s x) ∧
        (flash → op = 0x02 → c.ctrl.getLsbD 29 = true → ∀ x, flashAt t x =
          if c.address ≤ x ∧ x < c.address + c.data.length then c.data.getD (x - c.address) 0 &&& flashAt s x else flashAt s x) ∧
        (¬flash ∨ (op ≠ 0x20 ∧ op ≠ 0x02) → t.flash = s.flash))) ∧
    (s.spim.bus = none → exec (.spimTransferDone data) s = .next s ∧ exec .xipFillDone s = .next s) ∧
    (s.pwr.hib = true ∨ lcState s = 4 → exec (.xipRead who a) s = .next s) ∧
    (s.pwr.hib = false → lcState s ≠ 4 → protAllows who 1 (0x2800000 + a.toNat) false s = true →
      (who = .host → goes (.xipRead who a) (fun t => t = { s with busData := 0 })) ∧
      (who ≠ .host →
        (s.bit F.SPIM_XIP_EN = false → goes (.xipRead who a) (fun t => t.busData = 0 ∧ t.bit F.SPIM_STAT_XIP_OFF = true ∧
          (s.bit F.SPIM_STAT_XIP_OFF = false → EventUp 120 t) ∧ t.spim = s.spim)) ∧
        (∀ e, s.bit F.SPIM_XIP_EN = true → held = some e → goes (.xipRead who a) (fun t => t.regs = s.regs ∧
          t.busData = (lineByte e.2 a.toNat).setWidth 32 ∧ t.spim.lines.head? = some e ∧ t.spim.fills = s.spim.fills)) ∧
        (s.bit F.SPIM_XIP_EN = true → held = none → s.spim.fills.contains (a.toNat / 64, some a.toNat) = false →
          goes (.xipRead who a) (fun t => t.busData = s.busData ∧ t.regs = s.regs ∧ t.spim = { s.spim with
            fills := s.spim.fills ++ [(a.toNat / 64, some a.toNat)] })))) ∧
    (s.pwr.hib = false → lcState s ≠ 4 → protAllows who 1 (0x2800000 + a.toNat) false s = false → goes (.xipRead who a) (fun t => EventUp 124 t ∧ t.spim = s.spim ∧
      t.busData = s.busData ∧ RegsBut protKeys s t)) ∧
    (∀ line x, s.spim.bus = some (.fill line (some x)) → goes .xipFillDone (fun t => t.spim.bus = none ∧ t.flash = s.flash ∧
      t.busData = (lineByte (flashLine line s) x).setWidth 32 ∧ t.spim.lines.head? = some (line, flashLine line s) ∧
      t.fld F.SPIM_STAT_MISS = min 0xFFFF (s.fld F.SPIM_STAT_MISS + 1) ∧
      (s.bit F.SPIM_XIP_PREF_NEXT = false → t.spim.fills = s.spim.fills))) ∧
    (Open who R.SPIM_XIP s → goes (.spimXipWrite who v) (fun t => t.spim.lines = [] ∧ t.bit F.SPIM_STAT_OMIT_ACT = false ∧
      t.fld F.SPIM_XIP_CMD = v.toNat % 256 ∧ t.bit F.SPIM_XIP_EN = v.getLsbD 31 ∧ t.flash = s.flash ∧
      RegsBut [R.SPIM_XIP, R.SPIM_STAT] s t)) ∧
    (s.bit F.SPIS_CFG_EN = true → unitOk s = true →
      (∀ h rest, us = h :: rest → 2 ^ (w - 1) ≤ h → goes (.requestSelect units broken) (fun t => t.bit F.SPIS_STAT_REQ_DONE = true ∧
        (broken = true → t.bit F.SPIS_STAT_SEL_ABORT = true) ∧ (s.bit F.SPIS_STAT_REQ_DONE = false → EventUp 121 t) ∧
        (s.spis.rx.length + us.length ≤ 64 → t.spis.rx = s.spis.rx ++ us.zipIdx.map (fun e => (e.1, e.2 == 0))) ∧
        (64 < s.spis.rx.length + us.length → t.bit F.SPIS_STAT_RX_OVF = true) ∧ t.spis.tx = s.spis.tx)) ∧
      (∀ count, count = s.spis.count →
        (s.bit F.SPIS_RESP_PENDING = true → count + 1 ≤ p → goes (.pollSelect polled broken) (fun t => t.spis.tx = [] ∧
          t.bit F.SPIS_RESP_PENDING = false ∧ t.fld F.SPIS_STAT_OVERCLK = min 255 (s.fld F.SPIS_STAT_OVERCLK + (p - (count + 1))) ∧
          t.spis.rx = s.spis.rx ∧ .spis (busyUnit w :: ((2 ^ (w - 2) + s.spis.status % 2 ^ (w - 2)) ::
            s.spis.tx.take count ++ List.replicate p (busyUnit w)).take p) ∈ t.out)) ∧
        (s.bit F.SPIS_RESP_PENDING = false → goes (.pollSelect polled broken) (fun t => t.spis = s.spis ∧
          .spis (List.replicate (p + 1) (busyUnit w)) ∈ t.out)))) ∧
    (s.bit F.SPIS_CFG_EN = false ∨ unitOk s = false → exec (.requestSelect units broken) s = .next s ∧
      exec (.pollSelect polled broken) s = .next s) ∧
    (Open who R.SPIS_RESP s →
      (v.getLsbD 31 = true → v.getLsbD 30 = false →
        (bitsOf v.toNat 22 16 ≤ s.spis.tx.length → goes (.respReady who v) (fun t => t.bit F.SPIS_RESP_PENDING = true ∧
          t.fld F.SPIS_RESP_COUNT = bitsOf v.toNat 22 16 ∧ t.fld F.SPIS_RESP_STATUS = v.toNat % 65536 ∧
          t.spis = { s.spis with count := bitsOf v.toNat 22 16, status := v.toNat % 65536 })) ∧
        (s.spis.tx.length < bitsOf v.toNat 22 16 → goes (.respReady who v) (fun t => t.bit F.SPIS_STAT_RESP_ERR = true ∧
          t.bit F.SPIS_RESP_PENDING = s.bit F.SPIS_RESP_PENDING ∧ t.spis = s.spis))) ∧
      (v.getLsbD 30 = true → v.getLsbD 31 = false → goes (.spisFlush who v) (fun t => t.spis.tx = [] ∧ t.spis.rx = s.spis.rx ∧
        t.bit F.SPIS_RESP_PENDING = false ∧ t.fld F.SPIS_STAT_TX_LEVEL = 0))) ∧
    (Open who R.SPIS_TX s →
      (s.bit F.SPIS_RESP_PENDING = false → s.spis.tx.length < 64 → goes (.spisTxWrite who v) (fun t =>
        t.spis = { s.spis with tx := s.spis.tx ++ [v.toNat % 2 ^ w] } ∧ t.fld F.SPIS_STAT_TX_LEVEL = s.spis.tx.length + 1)) ∧
      (s.bit F.SPIS_RESP_PENDING = true ∨ 64 ≤ s.spis.tx.length → goes (.spisTxWrite who v) (fun t => t.spis = s.spis ∧
        t.bit F.SPIS_STAT_RESP_ERR = true ∧ (s.bit F.SPIS_STAT_RESP_ERR = false → EventUp 121 t)))) ∧
    (Open who R.SPIS_RX_CTRL s → v.getLsbD 31 = true → goes (.spisRxPop who v) (fun t =>
      t.spis = { s.spis with rx := s.spis.rx.drop 1 } ∧ t.bit F.SPIS_RX_CTRL_VALID = !(s.spis.rx.drop 1).isEmpty)) ∧
    (Open who (R.UA_DIV n) s →
      (v.toNat % 65536 = 0 → v.toNat / 2 ^ 24 ≠ 0 → goes (.uartDivWrite who n v) (fun t => t.bit (F.UA_STAT_CFG_ERR n) = true ∧
        RegsBut [R.UA_STAT n] s t ∧ t.uarts = s.uarts)) ∧
      (¬(v.toNat % 65536 = 0 ∧ v.toNat / 2 ^ 24 ≠ 0) → goes (.uartDivWrite who n v) (fun t =>
        t.fld (F.UA_DIV_INT n) = v.toNat % 65536 ∧ t.fld (F.UA_DIV_FRAC n) = v.toNat / 2 ^ 24 ∧ (uart t n).rx = u.rx))) ∧
    (uartDeaf n s = true → exec (.uartRxChar n line .byDevice .byDevice .byDevice) s = .next s) ∧
    (uartDeaf n s = false → goes (.uartRxChar n line .byDevice .byDevice .byDevice) (fun t =>
        (uart t n).tx = u.tx ∧ (uart t n).shift = u.shift)) ∧
    (uartDeaf n s = false → divStopped (rxDivider n s) = true → goes (.uartRxChar n [level] .byDevice .byDevice .byDevice) (fun t =>
      (uart t n).rx = u.rx ∧ (uart t n).rxCur = u.rxCur)) ∧
    (uartDeaf n s = false → divStopped (rxDivider n s) = false → u.rxBrk = false →
      (u.rxCur = none → goes (.uartRxChar n [level] .byDevice .byDevice .byDevice) (fun t =>
        uart t n = { u with
          rxCur := if u.rxHigh && !high then some [high] else none, rxDiv := s.word (R.UA_DIV n), rxHigh := high })) ∧
      (∀ xs ys, u.rxCur = some xs → ys = xs ++ [high] →
        (ys.length = 10 → sampledBit ys 0 = true → goes (.uartRxChar n [level] .byDevice .byDevice .byDevice) (fun t =>
          uart t n = { u with rxCur := none, rxHigh := high })) ∧
        (ys.length ≠ 10 → ys.length ≠ 16 * stop + 10 → goes (.uartRxChar n [level] .byDevice .byDevice .byDevice) (fun t =>
          uart t n = { u with rxCur := some ys, rxHigh := high })) ∧
        (ys.length = 16 * stop + 10 → let c := judgeChar n ys s
          (n.val = 0 ∨ c.pe = false → goes (.uartRxChar n [level] .byDevice .byDevice .byDevice) (fun t =>
            (u.rx.length < 16 → (uart t n).rx = u.rx ++ [c]) ∧
            (16 ≤ u.rx.length → (uart t n).rx = u.rx ∧ t.bit (F.UA_STAT_OVERRUN n) = true) ∧
            (c.pe = true → t.bit (F.UA_STAT_PE_SEEN n) = true) ∧ (c.fe = true → t.bit (F.UA_STAT_FE_SEEN n) = true))) ∧
          (n.val = 1 → c.pe = true → s.bit F.UA_1_CARD_ERRSIG = true → u.errs < s.fld F.UA_1_CARD_REP_MAX →
            goes (.uartRxChar n [level] .byDevice .byDevice .byDevice) (fun t => (uart t n).rx = u.rx ∧ (uart t n).errs = u.errs + 1 ∧
              t.bit (F.UA_STAT_PE_SEEN n) = true ∧ .uart 1 [(false, tickSpan u.rxDiv 168 24)] ∈ t.out))))) ∧
    (u.shift = none → exec (.uartTxChar n ⟨card7, card8, card9⟩) s = .next s) ∧
    (∀ c, u.shift = some c →
      (n.val = 0 ∨ sig = false → uartLoop n s = false → goes (.uartTxChar n ⟨card7, card8, card9⟩) (fun t =>
        .uart n.val u.wave ∈ t.out ∧ (uart t n).rx = u.rx ∧ (u.tx = [] → (uart t n).shift = none))) ∧
      (uartLoop n s = true → u.rx.length < 16 → goes (.uartTxChar n ⟨card7, card8, card9⟩) (fun t =>
        (uart t n).rx = u.rx ++ [⟨uartMask n c s, false, false, false⟩])) ∧
      (n.val = 1 → sig = true → u.reps < s.fld F.UA_1_CARD_REP_MAX → goes (.uartTxChar n ⟨card7, card8, card9⟩) (fun t =>
        uart t n = { u with reps := u.reps + 1 } ∧ .uart 1 (charWave 1 c true u.txDiv s) ∈ t.out)) ∧
      (n.val = 1 → sig = true → s.fld F.UA_1_CARD_REP_MAX ≤ u.reps → goes (.uartTxChar n ⟨card7, card8, card9⟩) (fun t =>
        uart t n = { u with shift := none, reps := 0, txEnd := s.tick } ∧ t.bit (F.UA_STAT_TX_FAIL n) = true))) ∧
    (Open who (R.UA_TX n) s → let c := uartMask n (v.toNat % 256) s
      (16 ≤ u.tx.length → goes (.uartTxWrite who n v) (fun t => uart t n = u ∧ t.bit (F.UA_STAT_TX_OVF n) = true)) ∧
      (u.tx.length < 16 → u.shift.isSome = true → goes (.uartTxWrite who n v) (fun t => uart t n = { u with tx := u.tx ++ [c] })) ∧
      (u.tx = [] → u.shift = none → divStopped (s.word (R.UA_DIV n)) = false → s.bit (F.UA_STAT_TX_FAIL n) = false →
        (n.val = 0 → s.bit (F.UA_CFG_ECHO 0) = false) → goes (.uartTxWrite who n v) (fun t => (uart t n).shift = some c ∧
          (uart t n).tx = []))) ∧
    (Open who (R.UA_RX n) s →
      (v.getLsbD 31 = true → goes (.uartRxPop who n v) (fun t => uart t n = { u with rx := u.rx.drop 1 } ∧
        t.bit (F.UA_RX_VALID n) = !(u.rx.drop 1).isEmpty)) ∧
      (v.getLsbD 31 = false → exec (.uartRxPop who n v) s = .next s)) ∧
    (tailOver s = true → goes .deTail (fun t => t.bit (F.UA_STAT_DE 0) = false ∧ t.uarts = s.uarts ∧
      RegsBut [R.UA_STAT 0] s t)) ∧
    (tailOver s = false → exec .deTail s = .next s) ∧
    ((uart s 0).shift.isSome = true ∨ (uart s 0).tx ≠ [] → tailOver s = false)

/-! Boot, trust and debug (chapter 19). -/

/-- R496, R497, R508, R509, R511 to R520, R523 to R526, R421, R498, R500, R501: OTP words are programmed by Vault mode only and bits only
go to 1; the rollback count advances and roots are revoked within their limits; a report is made and its signature written; a
protection entry commits; lifecycle states advance; the JTAG instructions, credentials and sessions; the ROM releases the device,
in VOID, in recovery or with a pushed image, and after a BACKUP step in the next FS tick (R45). The bits of a report's signature are a free value (assumption 38).
Where the spec leaves a choice it is the model's: assumptions 114, 115, 116, 117, 118, 130, 132. -/
def Obligations.SecurityCommands : Prop :=
  ∀ (who : Reader) (n : Fin 32) (v addr data : Word) (pins cells : List Bool) (cred : List Byte) (wr space : Bool)
    (err : BitVec 4) (twin : Option (List Byte)) (ms : BitVec 16) (found : Fin 4) (s : State),
    let goes (c : Instr) (post : State → Prop) : Prop := ∃ t, exec c s = .next t ∧ t.ram = s.ram ∧ t.flash = s.flash ∧ post t
    let vault := vaultRights who s = true ∧ v.getLsbD 31 = true
    let otp := 0x3F00000
    let memBut (a k : Nat) (t : State) : Prop := ∀ x, x < a ∨ a + k ≤ x → t.memByte x = s.memByte x
    let lc := lcState s
    let shifts (k x : Nat) (t : State) : Prop := t.out = s.out ++ [.jtag k x] ∧ t.regs = s.regs ∧ t.mem = s.mem
    let bypass (t : State) : Prop := shifts 1 0 t ∧ t.sec.jtag.ir = 0xFF ∧ t.sec.jtag.drives = false
    let ended (t : State) : Prop := t.dbg = none ∧ t.fld F.SEC_DBG_STAT_LEVEL = 0 ∧ t.bit F.SEC_DBG_STAT_SESSION = false ∧
      EventUp 127 t ∧ t.mem = s.mem
    let freed (t : State) : Prop := t.bit F.DEV_STATUS_READY = true ∧ EventUp 26 t ∧ t.sec.boot = 0
    (Open who R.SEC_OTP_CTRL s →
      (vault → s.bit F.SEC_OTP_CTRL_BUSY = false → let a := v.toNat % 65536
        (a % 4 = 0 ∧ otpAllowed a lc = true → goes (.otpProgram who v) (fun t => t.sec.otp = some (a, s.word R.SEC_OTP_DATA) ∧
          t.bit F.SEC_OTP_CTRL_BUSY = true ∧ t.mem = s.mem ∧ RegsBut [R.SEC_OTP_CTRL] s t)) ∧
        (¬(a % 4 = 0 ∧ otpAllowed a lc = true) → goes (.otpProgram who v) (fun t => t.fld F.SEC_OTP_CTRL_RESULT = ST.format ∧
          EventUp 124 t ∧ t.sec = s.sec ∧ t.mem = s.mem))) ∧
      (vault → s.bit F.SEC_OTP_CTRL_BUSY = true → goes (.otpProgram who v) (fun t => t.fld F.SEC_OTP_CTRL_RESULT = ST.busy ∧
        t.sec = s.sec ∧ RegsBut [R.SEC_OTP_CTRL] s t)) ∧
      (vaultRights who s = false → goes (.otpProgram who v) (fun t => t.sec = s.sec ∧ t.mem = s.mem))) ∧
    (∀ a w, s.sec.otp = some (a, w) → goes .otpProgramDone (fun t => t.sec.otp = none ∧ t.bit F.SEC_OTP_CTRL_BUSY = false ∧
      t.fld F.SEC_OTP_CTRL_RESULT = ST.ok ∧ memBut (otp + a) 4 t ∧
      ∀ i < 4, t.memByte (otp + a + i) = s.memByte (otp + a + i) ||| w.extractLsb' (8 * i) 8)) ∧
    (s.sec.otp = none → exec .otpProgramDone s = .next s) ∧
    (Open who R.SEC_RB s → vault → ∀ x, x = bitsOf v.toNat 23 16 →
      (x ≤ s.fld F.SEC_RB_IMG → rollbackCount s ≤ x → goes (.rbAdvance who v) (fun t => memBut (otp + 0x4E0) 32 t ∧ ∀ i < 256,
        (leNat (otpBytes t 0x4E0 32)).testBit i = ((leNat (otpBytes s 0x4E0 32)).testBit i || decide (i < x)))) ∧
      (s.fld F.SEC_RB_IMG < x ∨ x < rollbackCount s → goes (.rbAdvance who v) (fun t => t.mem = s.mem ∧ EventUp 124 t))) ∧
    (Open who R.SEC_ROOT s → vault → ∀ x, x = bitsOf v.toNat 18 16 →
      (revocable x s = true → goes (.rootRevoke who v) (fun t => slotRevoked t x = true ∧
        (∀ k < 32, k ≠ x → slotRevoked t k = slotRevoked s k) ∧ memBut (otp + 0x4C0) 4 t)) ∧
      (revocable x s = false → goes (.rootRevoke who v) (fun t => t.mem = s.mem))) ∧
    (Open who R.SEC_ATT_CTRL s →
      (v.getLsbD 31 = true → s.sec.att = none → lc ≠ 4 → goes (.attestGo who v) (fun t => t.bit F.SEC_ATT_CTRL_BUSY = true ∧
        t.sec.att = some (attReport s, s.fld F.SEC_ATT_ADDR_HI_ADDR_HI * 2 ^ 32 + s.fld F.SEC_ATT_ADDR_LO_ADDR / 64 * 64) ∧
        t.mem = s.mem ∧ RegsBut [R.SEC_ATT_CTRL] s t)) ∧
      (s.sec.att.isSome = true → exec (.attestGo who v) s = .next s)) ∧
    (∀ r a, s.sec.att = some (r, a) →
      goes (.attestDone true) (fun t => t.sec.att = none ∧ t.bit F.SEC_ATT_CTRL_BUSY = false ∧
        t.fld F.SEC_ATT_CTRL_RESULT = ST.ok ∧ EventUp 125 t ∧ t.mem = s.mem ∧
        ∀ i < r.length, Sparse.get byteDflt t.hostMem (a + i) = r.getD i 0) ∧
      goes (.attestDone false) (fun t => t.sec.att = none ∧ t.bit F.SEC_ATT_CTRL_BUSY = false ∧
        t.fld F.SEC_ATT_CTRL_RESULT = ST.abort ∧ t.hostMem = s.hostMem ∧ t.mem = s.mem)) ∧
    (s.sec.att = none → exec (.attestDone wr) s = .next s) ∧
    (Open who (R.SEC_PU_PERM n) s →
      (vaultRights who s = true → goes (.puCommit who n v) (fun t => puEntry t n = ⟨v.getLsbD 31, s.fld (F.SEC_PU_BASE_SPACE n),
        s.fld (F.SEC_PU_BASE_BASE n), s.fld (F.SEC_PU_LIMIT_LIMIT n), bitsOf v.toNat 26 16, v.toNat % 256⟩ ∧
        (∀ k, k ≠ n.val → puEntry t k = puEntry s k) ∧ RegsBut [R.SEC_PU_PERM n] s t)) ∧
      (vaultRights who s = false → goes (.puCommit who n v) (fun t => t.pu = s.pu))) ∧
    (Open who R.LC_CTRL s → vault → s.bit F.LC_CTRL_BUSY = false → ∀ x, x = v.toNat % 8 →
      (bitsOf v.toNat 15 8 = 0xA5 → lcAllowed lc x s = true → goes (.lcTransition who v) (fun t => t.sec.lc = some x ∧
        t.bit F.LC_CTRL_BUSY = true ∧ (x ≠ 3 → t.mem = s.mem) ∧ memBut (otp + 0x500) 1 t ∧
        (x = 3 → t.memByte (otp + 0x500) = s.memByte (otp + 0x500) ||| 4))) ∧
      (bitsOf v.toNat 15 8 ≠ 0xA5 ∨ lcAllowed lc x s = false → goes (.lcTransition who v) (fun t => t.sec = s.sec ∧ t.mem = s.mem ∧
        t.fld F.LC_CTRL_RESULT = ST.format))) ∧
    (∀ x, s.sec.lc = some x → 1 ≤ x → x ≤ 4 → lc < x → goes .lcTransitionDone (fun t => t.sec.lc = none ∧ lcState t = x ∧
      t.fld F.LC_CTRL_RESULT = ST.ok ∧ t.bit F.LC_CTRL_BUSY = false ∧ EventUp 126 t ∧
      (x = 3 → ∀ i < 0x1000, t.memByte (otp + 0x1000 + i) = 0xFF) ∧ (x = 4 → ∀ i < 32, t.memByte (otp + 0x600 + i) = 0xFF) ∧
      (x ≤ 2 → memBut (otp + 0x500) 1 t) ∧ (x = 4 → t.dbg = none))) ∧
    (s.sec.lc = none → exec .lcTransitionDone s = .next s) ∧
    goes .jtagBypass bypass ∧
    goes .jtagIdcode (fun t => shifts 32 (idcode s) t ∧ t.sec.jtag.ir = 1) ∧
    goes (.jtagSamplePreload pins cells) (fun t => shifts pins.length (cellsNat pins) t ∧ t.sec.jtag.cells = cells) ∧
    (dbgLevel s = 2 → goes (.jtagExtest pins cells) (fun t => shifts pins.length (cellsNat pins) t ∧ t.sec.jtag.cells = cells ∧
      t.sec.jtag.drives = true)) ∧
    (dbgLevel s ≠ 2 → goes (.jtagExtest pins cells) bypass) ∧
    (lc ≠ 4 → goes .jtagNonce (shifts 192 (ownSerial s + leNat (regBytes s (R.SEC_DBG_NONCE 0) 4) * 2 ^ 64)) ∧
      goes (.jtagCred cred) (fun t => t.sec.cred = some (cred.take 32768) ∧ t.regs = s.regs)) ∧
    (lc = 4 → goes .jtagNonce bypass ∧ goes (.jtagCred cred) bypass) ∧
    (∀ c, s.sec.cred = some c →
      let r := if credForm c s = false then ST.format else if credAuth c s = false then ST.auth
        else if credTime c s = false then ST.late else ST.ok
      goes .credVerifyDone (fun t => t.sec.cred = none ∧ t.fld F.SEC_DBG_STAT_LAST_RESULT = r ∧ t.mem = s.mem ∧
        (r = ST.ok → t.dbg = some ⟨min (leAt c 3 1) (lcCap lc), leAt c 2 1, leAt c 32 8⟩ ∧ EventUp 127 t) ∧
        (r ≠ ST.ok → t.dbg = s.dbg ∧ EventUp 125 t))) ∧
    (s.sec.cred = none → exec .credVerifyDone s = .next s) ∧
    (let a := addr.toNat - addr.toNat % 4
     let sp := if space then 1 else 0
     (protAllows .debug sp a wr s = false → goes (.jtagAcc wr space addr data) (fun t => EventUp 124 t ∧ t.busData = 0 ∧
       t.mem = s.mem ∧ RegsBut protKeys s t ∧ .jtag 66 (2 ^ 64 + addr.toNat * 2 ^ 32) ∈ t.out)) ∧
     (protAllows .debug sp a wr s = true → space = true → wr = false → mapReadable .debug a s = true → mapKind a = .primaryStore →
       goes (.jtagAcc wr space addr data) (fun t => t.regs = s.regs ∧ t.mem = s.mem ∧
         t.busData = s.memByte (a + 3) ++ s.memByte (a + 2) ++ s.memByte (a + 1) ++ s.memByte a))) ∧
    (∀ d, s.dbg = some d →
      (d.expiry ≠ 0 → expiryPast d.expiry s = true → goes .sessionExpiry ended) ∧
      (d.expiry = 0 ∨ expiryPast d.expiry s = false → exec .sessionExpiry s = .next s) ∧
      (Open who R.SEC_DBG_CTRL s → vault → goes (.dbgEnd who v) ended)) ∧
    (s.dbg = none → exec .sessionExpiry s = .next s) ∧
    (let src := s.fld F.SEC_BOOT_STAT_SRC
     let answers := !s.pwr.hib && (linkState 0 s == 2 || linkState 0 s == 3) && s.bit F.SEC_BOOT_CTRL_TWIN_SERVE &&
       (src == 1 || src == 2)
     (answers = true → exec .bootBlock s = .next (s.emit (.linkBlock 0 (flashImage src s)))) ∧
     (answers = false → exec .bootBlock s = .next s)) ∧
    (Open who R.SEC_BOOT_CTRL s → v.getLsbD 31 = true →
      (inRecovery s = true → s.sec.boot = 0 → goes (.pushGo who v) (fun t => t.sec.boot = 3 ∧
        t.bit F.DEV_STATUS_READY = false ∧ t.mem = s.mem)) ∧
      (inRecovery s = false ∨ s.sec.boot ≠ 0 → goes (.pushGo who v) (fun t => t.sec = s.sec ∧ t.mem = s.mem))) ∧
    (s.sec.boot = 0 ∨ s.pwr.hib = true → exec (.bootRom err twin ms found) s = .next s) ∧
    (s.pwr.hib = false →
      (s.sec.boot = 1 ∨ s.sec.boot = 2 → lc = 4 → goes (.bootRom err twin ms found) (fun t => freed t ∧ t.mem = s.mem ∧
        t.fld F.DEV_STATUS_BOOT_MS = ms.toNat)) ∧
      (s.sec.boot = 1 ∨ s.sec.boot = 2 → lc ≠ 4 → ∀ rest, bootOrder s = 4 :: rest → goes (.bootRom err twin ms found) (fun t =>
        freed t ∧ t.bit F.SEC_BOOT_STAT_RECOVERY = true)) ∧
      (s.sec.boot = 3 → imgFail (bufferImage s) false s = 0 → ∃ t, exec (.bootRom err twin ms found) s = .next t ∧ t.sec.boot = 0 ∧
        (freed t ∨ t.sec.ready = some ms.toNat) ∧ (s.sec.firstRel = false → freed t)) ∧
      (s.sec.boot = 3 → imgFail (bufferImage s) false s ≠ 0 → goes (.bootRom err twin ms found) (fun t => EventUp 125 t ∧
        t.bit F.DEV_STATUS_READY = true ∧ t.sec.boot = 0 ∧ t.mem = s.mem ∧
        t.fld F.SEC_BOOT_STAT_LAST_FAIL = imgFail (bufferImage s) false s)))

/-! Power, stores and resets (chapter 20). -/

/-- R537 to R541, R552 to R561, R52: SQM changes the power state, a TARGET behind a transition is latched; LEAN, the return from BURST and
HIBERNATE complete when what they wait for is over; a wake is a main POR; stores are queued, start on the measured energy, end with their
result and EV_030, and erase their other slot later; a restore takes the newest record; PWRFAIL_N queues its stores, and its
deassertion abandons the entry.
Where the spec leaves a choice it is the model's: assumptions 120, 122, 123, 124, 125. -/
def Obligations.PowerStates : Prop :=
  ∀ (who : Reader) (v : Word) (i : BitVec 12) (c : WakeCause) (x y z w : BitVec 12) (s : State),
    let p := s.pwr
    let st := pstate s
    let goes (i : Instr) (post : State → Prop) : Prop := ∃ t, exec i s = .next t ∧ post t
    let tgt := v.toNat % 4
    let transit (o : Option Nat) (t : State) : Prop := t.pwr.trans = o ∧ t.bit F.PWR_STAT_TRANSIT = o.isSome
    let kind := v.toNat % 256
    let e := (ttEntry s i.toNat).latest s
    let flashAt (t : State) (a : Nat) := Sparse.get flashDflt t.flash a
    let m := holdupMeasure [x.toNat, y.toNat, z.toNat, w.toNat] s
    (Open .sqm R.PWR_CTRL s → readerPriv .sqm s ≠ 0 → v.getLsbD 31 = true →
      (p.trans = none →
        (tgt = st → goes (.powerStateGo .sqm v) (fun t => t.pwr = p ∧ pstate t = st ∧ t.bit F.PWR_REQ_REQ_PEND = false ∧
          RegsBut [R.PWR_CTRL, R.PWR_REQ] s t ∧ MemsSame s t)) ∧
        (tgt = 1 → st = 0 → goes (.powerStateGo .sqm v) (fun t => transit (some 1) t ∧ pstate t = 0 ∧ MemsSame s t)) ∧
        (tgt = 0 → st = 1 → goes (.powerStateGo .sqm v) (fun t => pstate t = 0 ∧ EventUp 27 t ∧ MemsSame s t)) ∧
        (tgt = 2 → st ≠ 2 → goes (.powerStateGo .sqm v) (fun t => pstate t = 2 ∧ EventUp 27 t)) ∧
        (tgt = 3 → st ≠ 3 → goes (.powerStateGo .sqm v) (fun t => transit (some 3) t ∧ pstate t = st ∧ MemsSame s t))) ∧
      (p.trans = some 1 → tgt = 0 → st = 0 → goes (.powerStateGo .sqm v) (fun t => transit none t ∧ t.pwr.latch = none ∧
        pstate t = 0 ∧ MemsSame s t)) ∧
      (∀ a, p.trans = some a → ¬(a = 1 ∧ tgt = 0 ∧ st = 0) → goes (.powerStateGo .sqm v) (fun t => t.pwr.trans = some a ∧
        t.pwr.latch = some tgt ∧ t.fld F.PWR_STAT_LATCHED = tgt ∧ pstate t = st ∧ MemsSame s t))) ∧
    (Open who R.PWR_CTRL s → who ≠ .sqm ∨ readerPriv .sqm s = 0 → exec (.powerStateGo who v) s = .next s) ∧
    (p.trans = some 1 → st = 0 → jobList s = [] → p.latch = none → goes .leanEntryDone (fun t => pstate t = 1 ∧ EventUp 27 t ∧
      transit none t ∧ MemsSame s t)) ∧
    (p.trans ≠ some 1 → exec .leanEntryDone s = .next s) ∧
    (∀ a, p.trans = some a → a < 2 → st = 2 → restoredOn s = true → p.latch = none → goes .burstExitDone (fun t => pstate t = a ∧
      EventUp 27 t ∧ transit none t ∧ t.pwr.savedRings = 0 ∧ t.pwr.savedChains = [])) ∧
    (p.trans = none ∨ st ≠ 2 → exec .burstExitDone s = .next s) ∧
    (Open who R.PWR_REQ s →
      (v.getLsbD 31 = true → goes (.pwrReqGo who v) (fun t => t.bit F.PWR_REQ_REQ_PEND = true ∧ t.fld F.PWR_REQ_TARGET = tgt ∧
        RegsBut [R.PWR_REQ] s t ∧ MemsSame s t)) ∧
      (v.getLsbD 30 = true → v.getLsbD 31 = false → goes (.reqClr who v) (fun t => t.bit F.PWR_REQ_REQ_PEND = false ∧
        RegsBut [R.PWR_REQ] s t ∧ MemsSame s t))) ∧
    (p.hib = false →
      (p.trans = some 3 ∧ heldAwake s = false ∨ p.pfHib = true → p.store = none → p.queue.filter (fun r => r.pf) = [] →
        s.sec.otp = none → goes .hibernateEntry (fun t => t.pwr.hib = true ∧ t.bit F.DEV_STATUS_READY = false ∧ t.ram = [] ∧
          t.flash = s.flash ∧ ∀ a, 0x3F00000 ≤ a → a < 0x3F10000 → t.memByte a = s.memByte a)) ∧
      (p.trans ≠ some 3 ∧ p.pfHib = false ∨ p.pfHib = false ∧ heldAwake s = true → exec .hibernateEntry s = .next s)) ∧
    (p.hib = true → wakeOn c s = true → goes (.hibernateWake c) (fun t => t.pwr.hib = false ∧ t.sec.boot = 1 ∧
      t.fld F.RST_CAUSE_LAST = 2 ∧ t.bit F.RST_CAUSE_MPOR = true ∧ t.bit F.DEV_STATUS_READY = false ∧
      t.bit (match c with
        | .alarm => F.PWR_WAKE_STAT_ALARM | .uart => F.PWR_WAKE_STAT_UART | .mains => F.PWR_WAKE_STAT_MAINS
        | .pin => F.PWR_WAKE_STAT_PIN) = true)) ∧
    (p.hib = false ∨ wakeOn c s = false → exec (.hibernateWake c) s = .next s) ∧
    (Open who R.PWR_STORE_CTRL s → v.getLsbD 31 = true →
      (storeLen kind = 0 → goes (.storeGo who v) (fun t => t.fld F.PWR_STORE_CTRL_RESULT = ST.format ∧ t.pwr = p ∧
        MemsSame s t)) ∧
      (storeLen kind ≠ 0 → v.getLsbD 8 = false → p.queue = [] → goes (.storeGo who v) (fun t =>
        t.pwr.queue = [⟨kind, false, true, true⟩] ∧ MemsSame s t ∧ RegsBut [R.PWR_STORE_CTRL] s t)) ∧
      (storeLen kind ≠ 0 → v.getLsbD 8 = true → storeNewest kind s = none → goes (.restoreGo who v) (fun t =>
        t.fld F.PWR_STORE_CTRL_RESULT = ST.empty ∧ MemsSame s t ∧ RegsBut [R.PWR_STORE_CTRL] s t)) ∧
      (v.getLsbD 8 = true → ∀ n, storeLen kind ≠ 0 → storeNewest kind s = some n → storeReservedOk kind n.1 s = false →
        goes (.restoreGo who v) (fun t => t.fld F.PWR_STORE_CTRL_RESULT = ST.format ∧ MemsSame s t ∧
          RegsBut [R.PWR_STORE_CTRL] s t)) ∧
      (kind = 5 → v.getLsbD 8 = true → ∀ n, storeNewest 5 s = some n → storeReservedOk 5 n.1 s = true →
        goes (.restoreGo who v) (fun t =>
          t.fld F.PWR_STORE_CTRL_RESULT = ST.ok ∧ ∀ k < 3584, t.memByte (0x3F10200 + k) = n.2.2.getD k 0))) ∧
    (TtDue i.toNat 8 s → p.queue = [] → goes (.flashStore i) (fun t => TtFired i.toNat s t ∧ MemsSame s t ∧
      t.pwr.queue = if storeLen (e.param % 256) = 0 then [] else [⟨e.param % 256, false, true, false⟩])) ∧
    (∀ r rest, p.store = none → p.queue = r :: rest → 1 ≤ r.kind → r.kind ≤ 5 → s.spim.bus = none →
      let shown (t : State) : Prop := t.fld F.PWR_HOLDUP_STAT_V_MV = m.1 ∧ t.fld F.PWR_HOLDUP_STAT_E = m.2 ∧ t.pwr.queue = rest
      let ends (res : Nat) (t : State) : Prop := shown t ∧ t.fld (F.PWR_STORE_STAT_RESULT r.kind) = res ∧ EventUp 30 t ∧
        t.pwr.store = none ∧ t.flash = s.flash
      (m.2 < s.fld (F.PWR_STORE_CFG_NEED r.kind) → goes (.storeStart x y z w) (ends 0x40)) ∧
      (s.fld (F.PWR_STORE_CFG_NEED r.kind) ≤ m.2 → storeBody r.kind s = none → goes (.storeStart x y z w) (ends ST.empty)) ∧
      (∀ b, s.fld (F.PWR_STORE_CFG_NEED r.kind) ≤ m.2 → storeBody r.kind s = some b → goes (.storeStart x y z w) (fun t => shown t ∧
        ∃ run, t.pwr.store = some run ∧ run.req = r ∧ run.record = storeHead r.kind run.seq b s ++ b ∧
          ∀ n, storeNewest r.kind s = some n → run.slot = !n.1 ∧ run.seq = (n.2.1 + 1) % 2 ^ 32))) ∧
    (p.store.isSome = true ∨ p.queue = [] ∨ s.spim.bus.isSome = true → exec (.storeStart x y z w) s = .next s) ∧
    (∀ r, p.store = some r → 1 ≤ r.req.kind → r.req.kind ≤ 5 → let a := slotAddr r.req.kind r.slot s
      goes (.storeDone false) (fun t => t.pwr.store = none ∧ t.fld (F.PWR_STORE_STAT_RESULT r.req.kind) = 0x41 ∧ EventUp 30 t) ∧
      ((∀ k < r.record.length, flashAt s (a + k) = 0xFF) → goes (.storeDone true) (fun t => t.pwr.store = none ∧
        t.fld (F.PWR_STORE_STAT_RESULT r.req.kind) = ST.ok ∧ EventUp 30 t ∧ (r.req.kind, !r.slot) ∈ t.pwr.erase ∧
        ∀ k, flashAt t k = if a ≤ k ∧ k < a + r.record.length then r.record.getD (k - a) 0 else flashAt s k))) ∧
    (p.store = none → exec (.storeDone true) s = .next s ∧ exec (.storeDone false) s = .next s) ∧
    (∀ k rest, p.store = none → p.queue = [] → p.erase = k :: rest → s.spim.bus = none → let a := slotAddr k.1 k.2 s
      goes .slotErase (fun t => t.pwr.erase = rest ∧ t.pwr.blank = p.blank ++ [k] ∧
        ∀ n, flashAt t n = if a ≤ n ∧ n < a + slotSize k.1 then 0xFF else flashAt s n)) ∧
    (p.store.isSome = true ∨ p.queue ≠ [] ∨ p.erase = [] ∨ s.spim.bus.isSome = true → exec .slotErase s = .next s) ∧
    (s.bit F.PWR_STAT_PF = false → p.hib = false → goes .pwrfailAssert (fun t => t.bit F.PWR_STAT_PF = true ∧ EventUp 29 t ∧
      MemsSame s t ∧ (s.fld F.PWR_PF_CFG_ACTION = 0 → t.pwr = p) ∧
      (s.fld F.PWR_PF_CFG_ACTION ≠ 0 → t.pwr.latch = none ∧ t.pwr.pfHib = (s.fld F.PWR_PF_CFG_ACTION == 1) ∧
        ∀ k, 1 ≤ k → k ≤ 5 → (s.fld F.PWR_PF_CFG_STORE_MASK).testBit k = true →
          t.pwr.queue.any (fun r => r.kind == k && r.pf) = true))) ∧
    (s.bit F.PWR_STAT_PF = true ∨ p.hib = true → exec .pwrfailAssert s = .next s) ∧
    (s.bit F.PWR_STAT_PF = true → goes .pwrfailDeassert (fun t => t.bit F.PWR_STAT_PF = false ∧ EventUp 29 t ∧ t.pwr.pfHib = false ∧
      MemsSame s t ∧ (p.pfHib = true → t.pwr.queue.any (fun r => r.pf) = false) ∧ (p.pfHib = false → t.pwr = p))) ∧
    (s.bit F.PWR_STAT_PF = false → exec .pwrfailDeassert s = .next s)

/-- R6, R310, R420, R444, R542 to R548: each reset records its cause and leaves the device not READY, in RUN, for the ROM to boot; the
PORs lose the memories outside OTP and backup RAM, the others leave the timebase running, with a step of the discipline loop
withdrawn; the watchdog counts from its last kick;
a twin's reset block and RST_CTRL command resets; a function-level reset ends with EV_025 and leaves no ring enabled; a
stopped crystal.
Where the spec leaves a choice it is the model's: assumptions 5, 119, 121. -/
def Obligations.Resets : Prop :=
  ∀ (who : Reader) (v : Word) (serial : BitVec 64) (s : State),
    let goes (i : Instr) (post : State → Prop) : Prop := ∃ t, exec i s = .next t ∧ post t
    let cause (k : Nat) (t : State) : Prop := t.fld F.RST_CAUSE_LAST = k ∧ t.maskBit R.RST_CAUSE (k - 1) = true
    let reset (k : Nat) (t : State) : Prop := cause k t ∧ t.bit F.DEV_STATUS_READY = false ∧ t.fld F.DEV_STATUS_PSTATE = 0 ∧
      pstate t = 0 ∧ t.dbg = none ∧ t.pu = [] ∧ jobList t = [] ∧ t.pwr.store = none ∧ t.sec.otp = none ∧
      t.sec.boot = (if k ≤ 2 then 1 else 2)
    let warm (k : Nat) (t : State) : Prop := reset k t ∧ (s.disc.pend = none → t.tb = s.tb) ∧
      t.nowU = s.nowU ∧ t.disc.pend = none ∧ (s.disc.pend.isSome = true → s.disc.armed = true → t.tb.step = none) ∧ t.ram = s.ram ∧ t.hostMem = s.hostMem ∧
      t.word R.TB_RATE = s.word R.TB_RATE ∧ (s.sec.otp = none → t.mem = s.mem) ∧ (s.pwr.store = none → t.flash = s.flash)
    let cold (k : Nat) (t : State) : Prop := reset k t ∧ t.ram = [] ∧ (s.sec.otp = none → ∀ a, t.memByte a =
      if (0x3F00000 ≤ a ∧ a < 0x3F10000) ∨ (k = 2 ∧ 0x3F10000 ≤ a ∧ a < 0x3F11000) then s.memByte a else 0)
    goes .backupPor (fun t => cold 1 t ∧ t.bit F.PWR_BK_SUB_VALID = false) ∧
    goes .mainPor (fun t => cold 2 t ∧ bkSec t = bkSec s ∧ t.word R.PWR_BK_SUB = s.word R.PWR_BK_SUB) ∧
    (s.pwr.hib = false → goes .pinReset (warm 3)) ∧
    (s.pwr.hib = true → exec .pinReset s = .next s) ∧
    (Open who R.RST_WDT_KICK s →
      (v.toNat % 256 = 0x4B → mayKick who s = true → s.pwr.wdtAt.isSome = true → goes (.wdtKick who v) (fun t =>
        t = { s with pwr := { s.pwr with wdtAt := some s.tick, wdtHalf := false } })) ∧
      (v.toNat % 256 ≠ 0x4B ∨ mayKick who s = false ∨ s.pwr.wdtAt = none → exec (.wdtKick who v) s = .next s)) ∧
    (wdtPast 1 s = true → s.pwr.wdtHalf = false → goes .rstWdt (fun t => EventUp 31 t ∧ t.pwr.wdtHalf = true ∧
      RegsBut (evKeys 31) s t ∧ MemsSame s t)) ∧
    (wdtPast 1 s = false ∨ s.pwr.wdtHalf = true → exec .rstWdt s = .next s) ∧
    (wdtPast 2 s = true → goes .watchdogReset (warm 4)) ∧
    (wdtPast 2 s = false → exec .watchdogReset s = .next s) ∧
    (Open who R.RST_CTRL s →
      (vaultRights who s = true → v.getLsbD 31 = true → goes (.softReset who v) (warm 5)) ∧
      (vaultRights who s = true → v.getLsbD 30 = true → v.getLsbD 31 = false → goes (.twinCmd who v) (fun t =>
        t.out = s.out ++ (if linkState 0 s = 0 then [] else [.linkBlock 1 (leBytes 8 (ownSerial s))]) ∧
        RegsBut [R.RST_CTRL] s t ∧ MemsSame s t)) ∧
      (vaultRights who s = false → goes (.softReset who v) (fun t => t.sec = s.sec ∧ t.tb = s.tb ∧ MemsSame s t ∧
        RegsBut (R.RST_CTRL :: protKeys) s t))) ∧
    (s.bit F.RST_CTRL_TWIN_RESET_EN = true ∧ 2 ≤ linkState 0 s ∧ serial.toNat = peerSerial 0 s → goes (.resetBlock serial) (warm 6)) ∧
    (¬(s.bit F.RST_CTRL_TWIN_RESET_EN = true ∧ 2 ≤ linkState 0 s ∧ serial.toNat = peerSerial 0 s) →
      exec (.resetBlock serial) s = .next s) ∧
    goes .functionLevelReset (fun t => cause 7 t ∧ EventUp 25 t ∧ t.host = {} ∧ (∀ n < 67, ringOn n t = false) ∧ t.tb = s.tb ∧
      copyJob t 0 = none ∧ copyJob t 1 = copyJob s 1 ∧ MemsSame s t ∧ t.bit F.HOST_NEG_NEGOTIATED = false ∧
      t.word R.TB_RATE = s.word R.TB_RATE ∧ t.bit F.DEV_STATUS_READY = s.bit F.DEV_STATUS_READY) ∧
    goes .xtalFail (fun t => t.bit F.PWR_BK_SUB_VALID = false ∧ t.bit F.PWR_BK_SUB_XTAL_FAIL = true ∧
      t.bit F.PWR_BK_SUB_XTAL_OK = false ∧ t.pwr.xtalOff = true ∧ RegsBut [R.PWR_BK_SUB] s t ∧ MemsSame s t)

/-- R1, R6, R30 to R33, R45, R517, R531: what the reset state holds: the reset words, no session, no command, the lifecycle state BLANK of an
unprogrammed OTP, memories in canonical form. With no command waiting a step is one FS tick (DESIGN CHOICE, assumption 8), by
which the timebase moves as TB_RATE says; a release that a BACKUP step held back ends in it. The reset state is the one after a backup POR (assumption 9).
Where the spec leaves a choice it is the model's: assumptions 3, 4, 5, 6. -/
def Obligations.ResetAndIdle : Prop :=
  let r := State.reset
  (Canon r ∧ r.pending = [] ∧ r.fld F.DEV_ID_PART = 0x0960 ∧ r.bit F.DEV_STATUS_READY = false ∧ r.fld F.RST_CAUSE_LAST = 1 ∧
    r.bit F.RST_CAUSE_BKPOR = true ∧ r.word R.TB_RATE = 0 ∧ r.nowU = 0 ∧ r.dbg = none ∧ lcState r = 0 ∧ pstate r = 0 ∧
    r.fld F.RST_WDT_CFG_TIMEOUT = 2000 ∧ (∀ n < 10, (r.seq n).run = .halted) ∧ (∀ k < 32, puEntry r k = {}) ∧
    ∀ a, r.memByte a = (if (0x3F00400 ≤ a ∧ a < 0x3F00420) ∨ (0x3F00480 ≤ a ∧ a < 0x3F004A0) then 0x5A else 0) ∧
      Sparse.get flashDflt r.flash a = 0xFF) ∧
  ∀ s : State, s.pending = [] → ∃ t, step s = .next t ∧ t.tick = s.tick + 1 ∧ t.pending = [] ∧
    (s.sec.ready = none → s.ck.tsynAt = none → s.bit F.TP_FOUT_CFG_FOLLOW = false → s.bcn.tx = none → s.chains = [] → s.trk = [] →
      (link s 0).waiting = [] → (link s 1).waiting = [] →
      MemsSame s t ∧ RegsBut [R.PWR_BK_SUB, R.PWR_BK_SEC_LO, R.PWR_BK_SEC_HI] s t) ∧
    (∀ ms, s.sec.ready = some ms → t.sec.ready = none ∧ t.bit F.DEV_STATUS_READY = true ∧ EventUp 26 t) ∧
    (s.pwr.hib = false → s.coarse = false → t.nowU = (s.nowU + s.tickStep) % wrapUnits) ∧
    (s.pwr.hib = true → t.nowU = s.nowU) ∧ (s.pwr.xtalOff = true → t.word R.PWR_BK_SUB = s.word R.PWR_BK_SUB)

/-- Every step keeps the register file and the four memories in canonical form, from every state in it: whatever command stands at the
front of the queue, and by a tick when none does. -/
def Obligations.CanonKept : Prop := ∀ s t : State, Canon s → step s = .next t → Canon t

/-! The DX-8 sequencers (chapter 14). Each clause holds at every state in which the sequencer may execute, inside a repeat
prefix too, and gives the whole next state. -/

/-- R374, R375: the transfers between registers, and the condition register's own instructions: each moves what its name
says, costs 1 cycle and 1 byte, and changes nothing else of the machine. -/
def Obligations.DxTransfers : Prop :=
  ∀ (q : SeqId) (s : State), DxReady q s →
    let fin (f : Seq → Seq) := Host.Outcome.next (dxEnded q (s.seq q.val).pc f (dxFetched q 1 1 s))
    exec (.dxNop q) s = fin (fun r => r) ∧
    exec (.dxTab q) s = fin (fun r => { r with b := r.a }) ∧
    exec (.dxTba q) s = fin (fun r => { r with a := r.b }) ∧
    exec (.dxTax q) s = fin (fun r => { r with x := 0#8 ++ r.a }) ∧
    exec (.dxTay q) s = fin (fun r => { r with y := 0#8 ++ r.a }) ∧
    exec (.dxTxa q) s = fin (fun r => { r with a := r.x.extractLsb' 0 8 }) ∧
    exec (.dxTya q) s = fin (fun r => { r with a := r.y.extractLsb' 0 8 }) ∧
    exec (.dxTsx q) s = fin (fun r => { r with x := r.sp }) ∧
    exec (.dxTxs q) s = fin (fun r => { r with sp := r.x }) ∧
    exec (.dxXxy q) s = fin (fun r => { r with x := r.y, y := r.x }) ∧
    exec (.dxSetb q) s = fin (fun r => { r with b := 1 }) ∧
    exec (.dxClrb q) s = fin (fun r => { r with b := 0 }) ∧
    exec (.dxNotb q) s = fin (fun r => { r with b := if r.b = 0 then 1 else 0 })

/-- R377: ADD, SUB, ADC and SBC with every operand form: A is the sum or difference modulo 256 and B its carry or borrow,
with B's truth value carried in by ADC and SBC; AND, OR and XOR leave B; CEQ, CLTU and CLTS write only B. -/
def Obligations.DxArithmetic : Prop :=
  ∀ (q : SeqId) (src : AluSrc) (adc : AdcSrc) (s t u : State) (m n : Byte), DxReady q s →
    src.read q (dxFetched q src.len src.base s) = .ok (m, t) →
    adc.alu.read q (dxFetched q adc.alu.len 2 s) = .ok (n, u) →
    let fin (f : Seq → Seq) := Host.Outcome.next (dxEnded q (s.seq q.val).pc f t)
    let fic (f : Seq → Seq) := Host.Outcome.next (dxEnded q (s.seq q.val).pc f u)
    let c (r : Seq) : Nat := if r.b = 0 then 0 else 1
    exec (.dxAdd q src) s = fin (fun r => { r with a := r.a + m, b := if 256 ≤ r.a.toNat + m.toNat then 1 else 0 }) ∧
    exec (.dxSub q src) s = fin (fun r => { r with a := r.a - m, b := if r.a.toNat < m.toNat then 1 else 0 }) ∧
    exec (.dxAdc q adc) s = fic (fun r => { r with
      a := BitVec.ofNat 8 (r.a.toNat + n.toNat + c r), b := if 256 ≤ r.a.toNat + n.toNat + c r then 1 else 0 }) ∧
    exec (.dxSbc q adc) s = fic (fun r => { r with
      a := BitVec.ofInt 8 (r.a.toNat - n.toNat - c r), b := if r.a.toNat < n.toNat + c r then 1 else 0 }) ∧
    exec (.dxAnd q src) s = fin (fun r => { r with a := r.a &&& m }) ∧
    exec (.dxOr q src) s = fin (fun r => { r with a := r.a ||| m }) ∧
    exec (.dxXor q src) s = fin (fun r => { r with a := r.a ^^^ m }) ∧
    exec (.dxCeq q src) s = fin (fun r => { r with b := if r.a = m then 1 else 0 }) ∧
    exec (.dxCltu q src) s = fin (fun r => { r with b := if r.a.toNat < m.toNat then 1 else 0 }) ∧
    exec (.dxClts q src) s = fin (fun r => { r with b := if r.a.toInt < m.toInt then 1 else 0 })

/-- R375, R377: NEG, NOT, INCA and DECA on A; INC, DEC, CLR and TST on memory, where they reach it and it is no register
space (R372). -/
def Obligations.DxUnary : Prop :=
  ∀ (q : SeqId) (m : MemDax) (s : State), DxReady q s →
    let fin (f : Seq → Seq) := Host.Outcome.next (dxEnded q (s.seq q.val).pc f (dxFetched q 1 1 s))
    let s3 := dxFetched q (1 + m.len) (3 + m.extra) s
    let s2 := dxFetched q (1 + m.len) (2 + m.extra) s
    exec (.dxNeg q) s = fin (fun r => { r with a := -r.a, b := if r.a = 0x80 then 1 else 0 }) ∧
    exec (.dxNot q) s = fin (fun r => { r with a := ~~~r.a }) ∧
    exec (.dxInca q) s = fin (fun r => { r with a := r.a + 1, b := if r.a = 0xFF then 1 else 0 }) ∧
    exec (.dxDeca q) s = fin (fun r => { r with a := r.a - 1, b := if r.a = 0 then 1 else 0 }) ∧
    (∀ v t u, (dxPlace q (s3.seq q.val) (m.addr (s3.seq q.val))).isReg = false →
      dxRead q (m.addr (s3.seq q.val)) s3 = .ok (v, t) →
      (dxWrite q (m.addr (s3.seq q.val)) (v + 1) t = .ok u → exec (.dxInc q m) s =
        .next (dxEnded q (s.seq q.val).pc (fun r => { r with b := if v = 0xFF then 1 else 0 }) u)) ∧
      (dxWrite q (m.addr (s3.seq q.val)) (v - 1) t = .ok u → exec (.dxDec q m) s =
        .next (dxEnded q (s.seq q.val).pc (fun r => { r with b := if v = 0 then 1 else 0 }) u))) ∧
    (∀ t, dxWrite q (m.addr (s2.seq q.val)) 0 s2 = .ok t →
      exec (.dxClr q m) s = .next (dxEnded q (s.seq q.val).pc (fun r => r) t)) ∧
    (∀ v t, dxRead q (m.addr (s2.seq q.val)) s2 = .ok (v, t) →
      exec (.dxTst q m) s = .next (dxEnded q (s.seq q.val).pc (fun r => { r with b := if v = 0 then 1 else 0 }) t))

/-- R378, R379: the shifts by an unsigned count, with the last bit shifted out in B and their edges above 8; ROL by the count
modulo 8; MUL's unsigned product in X; DIV's quotient in A and remainder in X.
Where the spec leaves a choice it is the model's: assumption 19. -/
def Obligations.DxShifts : Prop :=
  ∀ (q : SeqId) (src : ImmDir) (s t d u : State) (n m o : Byte), DxReady q s →
    src.alu.read q (dxFetched q src.alu.len 2 s) = .ok (n, t) →
    src.alu.read q (dxFetched q src.alu.len 3 s) = .ok (m, u) →
    src.alu.read q (dxFetched q src.alu.len 10 s) = .ok (o, d) →
    let fin (f : Seq → Seq) := Host.Outcome.next (dxEnded q (s.seq q.val).pc f t)
    let bit (v : Byte) (i : Nat) : Byte := if v.getLsbD i then 1 else 0
    let k := n.toNat
    exec (.dxShl q src) s = fin (fun r => { r with
      a := if 8 < k then 0 else r.a <<< k, b := if k = 0 ∨ 8 < k then 0 else bit r.a (8 - k) }) ∧
    exec (.dxShr q src) s = fin (fun r => { r with
      a := if 8 < k then 0 else r.a >>> k, b := if k = 0 ∨ 8 < k then 0 else bit r.a (k - 1) }) ∧
    exec (.dxAsr q src) s = fin (fun r => { r with
      a := BitVec.ofInt 8 (r.a.toInt / 2 ^ min k 8), b := if k = 0 then 0 else bit r.a (min (k - 1) 7) }) ∧
    exec (.dxRol q src) s = fin (fun r => { r with
      a := r.a.rotateLeft (k % 8), b := if k = 0 then 0 else bit (r.a.rotateLeft (k % 8)) 0 }) ∧
    exec (.dxMul q src) s = .next (dxEnded q (s.seq q.val).pc (fun r => { r with
      x := BitVec.ofNat 16 (r.a.toNat * m.toNat), b := if 0xFF < r.a.toNat * m.toNat then 1 else 0 }) u) ∧
    ((d.seq q.val).ctl.getLsbD 0 = false →
      exec (.dxDiv q src) s = .next (dxEnded q (s.seq q.val).pc (fun r =>
        if o = 0 ∨ 0xFF < r.x.toNat / o.toNat then { r with a := 0xFF, b := 1 }
        else { r with a := BitVec.ofNat 8 (r.x.toNat / o.toNat), x := BitVec.ofNat 16 (r.x.toNat % o.toNat), b := 0 }) d))

/-- R375: the relative branches count from the next instruction and take one cycle more when taken; DBNZ counts CT down; the
index registers wrap modulo 2^16, with a sign-extended immediate; JMP, JSR and RTS. -/
def Obligations.DxBranches : Prop :=
  ∀ (q : SeqId) (d n : Byte) (w : BitVec 16) (s : State), DxReady q s →
    let pc := (s.seq q.val).pc
    let go (r : Seq) : Seq := ({ r with pc := r.pc + d.signExtend 16 }).advance 1
    let br (f : Seq → Seq) := Host.Outcome.next (dxEnded q pc f (dxFetched q 2 2 s))
    let ix (len cyc : Nat) (f : Seq → Seq) := Host.Outcome.next (dxEnded q pc f (dxFetched q len cyc s))
    exec (.dxBra q d) s = br go ∧
    exec (.dxBt q d) s = br (fun r => if r.b = 0 then r else go r) ∧
    exec (.dxBf q d) s = br (fun r => if r.b = 0 then go r else r) ∧
    exec (.dxDbnz q d) s = br (fun r => if r.ct - 1 = 0 then { r with ct := 0 } else go { r with ct := r.ct - 1 }) ∧
    exec (.dxJmp q (.abs w)) s = ix 3 2 (fun r => { r with pc := w }) ∧
    exec (.dxJmp q .x) s = ix 1 2 (fun r => { r with pc := r.x }) ∧
    (∀ t, dxPush16 q (pc + 3) (dxFetched q 3 4 s) = .ok t →
      exec (.dxJsr q (.abs w)) s = .next (dxEnded q pc (fun r => { r with pc := w }) t)) ∧
    (∀ t, dxPush16 q (pc + 1) (dxFetched q 1 4 s) = .ok t →
      exec (.dxJsr q .x) s = .next (dxEnded q pc (fun r => { r with pc := r.x }) t)) ∧
    (∀ t v, dxPop16 q (dxFetched q 1 4 s) = .ok (v, t) →
      exec (.dxRts q) s = .next (dxEnded q pc (fun r => { r with pc := v }) t)) ∧
    exec (.dxInx q) s = ix 1 1 (fun r => { r with x := r.x + 1 }) ∧
    exec (.dxDex q) s = ix 1 1 (fun r => { r with x := r.x - 1 }) ∧
    exec (.dxIny q) s = ix 1 1 (fun r => { r with y := r.y + 1 }) ∧
    exec (.dxDey q) s = ix 1 1 (fun r => { r with y := r.y - 1 }) ∧
    exec (.dxAdx q (.imm n)) s = ix 2 1 (fun r => { r with x := r.x + n.signExtend 16 }) ∧
    exec (.dxAdx q .a) s = ix 1 1 (fun r => { r with x := r.x + (0#8 ++ r.a) }) ∧
    exec (.dxAdy q n) s = ix 2 1 (fun r => { r with y := r.y + n.signExtend 16 }) ∧
    exec (.dxCpx q w) s = ix 3 2 (fun r => { r with b := if r.x = w then 1 else 0 }) ∧
    exec (.dxCpy q w) s = ix 3 2 (fun r => { r with b := if r.y = w then 1 else 0 })

/-- R375: the loads take an immediate, or the byte or the 16 bits (low byte first) at their operand's address; [X+] moves X on
by 1. -/
def Obligations.DxLoads : Prop :=
  ∀ (q : SeqId) (d n : Byte) (w : BitVec 16) (s : State), DxReady q s →
    let pc := (s.seq q.val).pc
    let x := (s.seq q.val).x
    let y := (s.seq q.val).y
    let z : BitVec 16 := 0#8 ++ d
    let imm (len cyc : Nat) (f : Seq → Seq) := Host.Outcome.next (dxEnded q pc f (dxFetched q len cyc s))
    let mem (i : Instr) (len cyc : Nat) (a : BitVec 16) (f : Byte → Seq → Seq) : Prop :=
      ∀ m t, dxRead q a (dxFetched q len cyc s) = .ok (m, t) → exec i s = .next (dxEnded q pc (f m) t)
    let mem16 (i : Instr) (len cyc : Nat) (a : BitVec 16) (f : BitVec 16 → Seq → Seq) : Prop :=
      ∀ m t, dxRead16 q a (dxFetched q len cyc s) = .ok (m, t) → exec i s = .next (dxEnded q pc (f m) t)
    let la (m : Byte) (r : Seq) : Seq := { r with a := m }
    let lx (m : BitVec 16) (r : Seq) : Seq := { r with x := m }
    let ly (m : BitVec 16) (r : Seq) : Seq := { r with y := m }
    exec (.dxLda q (.imm n)) s = imm 2 2 (la n) ∧ mem (.dxLda q (.dir d)) 2 2 z la ∧ mem (.dxLda q (.abs w)) 3 3 w la ∧
    mem (.dxLda q (.ix d)) 2 2 (x + z) la ∧ mem (.dxLda q (.iy d)) 2 2 (y + z) la ∧
    mem (.dxLda q .xinc) 1 2 x (fun m r => { r with a := m, x := r.x + 1 }) ∧
    (∀ src m t, src.alu.read q (dxFetched q src.alu.len src.alu.base s) = .ok (m, t) →
      exec (.dxLdb q src) s = .next (dxEnded q pc (fun r => { r with b := m }) t)) ∧
    exec (.dxLdx q (.imm w)) s = imm 3 3 (lx w) ∧ mem16 (.dxLdx q (.dir d)) 2 3 z lx ∧ mem16 (.dxLdx q (.abs w)) 3 4 w lx ∧
    mem16 (.dxLdx q (.iy d)) 2 3 (y + z) lx ∧
    exec (.dxLdy q (.imm w)) s = imm 3 3 (ly w) ∧ mem16 (.dxLdy q (.dir d)) 2 3 z ly ∧ mem16 (.dxLdy q (.abs w)) 3 4 w ly ∧
    mem16 (.dxLdy q (.ix d)) 2 3 (x + z) ly ∧
    exec (.dxLdct q (.imm w)) s = imm 3 3 (fun r => { r with ct := w }) ∧
    mem16 (.dxLdct q (.dir d)) 2 3 z (fun m r => { r with ct := m }) ∧
    exec (.dxLdsp q w) s = imm 3 3 (fun r => { r with sp := w })

/-- R375, R369, R371: the stores of a register into private RAM write its bytes at their operand's address, low byte first,
leave every other byte of private RAM and the mailboxes, the register file and the device memory map alone, and leave the
registers but PC, [X+]'s X, the cycle count and the timer. -/
def Obligations.DxStores : Prop :=
  ∀ (q : SeqId) (d : Byte) (w : BitVec 16) (s : State), DxReady q s → (s.seq q.val).rep = none →
    let r := s.seq q.val
    let z : BitVec 16 := 0#8 ++ d
    let at8 (i : Instr) (a : BitVec 16) (v : Byte) (x : BitVec 16) : Prop := a.toNat < 0x7FE0 →
      ∃ t, exec i s = .next t ∧ t.regs = s.regs ∧ t.mem = s.mem ∧ t.flash = s.flash ∧ t.hostMem = s.hostMem ∧
        (∀ b, t.ramByte b = if b = privRam q a.toNat then v else s.ramByte b) ∧
        (t.seq q.val).a = r.a ∧ (t.seq q.val).b = r.b ∧ (t.seq q.val).x = x ∧ (t.seq q.val).y = r.y ∧
        (t.seq q.val).sp = r.sp ∧ (t.seq q.val).ct = r.ct ∧ (t.seq q.val).mode = r.mode
    let at16 (i : Instr) (a : BitVec 16) (v : BitVec 16) : Prop := a.toNat + 1 < 0x7FE0 →
      ∃ t, exec i s = .next t ∧ t.regs = s.regs ∧ t.mem = s.mem ∧ t.flash = s.flash ∧ t.hostMem = s.hostMem ∧
        (∀ b, t.ramByte b = if b = privRam q a.toNat then v.extractLsb' 0 8
          else if b = privRam q (a.toNat + 1) then v.extractLsb' 8 8 else s.ramByte b) ∧
        (t.seq q.val).a = r.a ∧ (t.seq q.val).b = r.b ∧ (t.seq q.val).x = r.x ∧ (t.seq q.val).y = r.y ∧
        (t.seq q.val).sp = r.sp ∧ (t.seq q.val).ct = r.ct ∧ (t.seq q.val).mode = r.mode
    at8 (.dxSta q (.dir d)) z r.a r.x ∧ at8 (.dxSta q (.abs w)) w r.a r.x ∧ at8 (.dxSta q (.ix d)) (r.x + z) r.a r.x ∧
    at8 (.dxSta q (.iy d)) (r.y + z) r.a r.x ∧ at8 (.dxSta q .xinc) r.x r.a (r.x + 1) ∧
    at8 (.dxStb q (.dir d)) z r.b r.x ∧ at8 (.dxStb q (.abs w)) w r.b r.x ∧ at8 (.dxStb q (.ix d)) (r.x + z) r.b r.x ∧
    at16 (.dxStx q (.dir d)) z r.x ∧ at16 (.dxStx q (.abs w)) w r.x ∧
    at16 (.dxSty q (.dir d)) z r.y ∧ at16 (.dxSty q (.abs w)) w r.y ∧ at16 (.dxStct q d) z r.ct

/-- R372, R375, R376: a store anywhere the sequencer may write makes exactly the access at its operand's address: the state
after is the access's, with the repeat prefix's step. -/
def Obligations.DxStoreAccess : Prop :=
  ∀ (q : SeqId) (d : Byte) (w : BitVec 16) (s : State), DxReady q s →
    let pc := (s.seq q.val).pc
    let r := s.seq q.val
    let z : BitVec 16 := 0#8 ++ d
    let st (i : Instr) (len cyc : Nat) (a : BitVec 16) (v : Byte) (f : Seq → Seq) : Prop :=
      ∀ t, dxWrite q a v (dxFetched q len cyc s) = .ok t → exec i s = .next (dxEnded q pc f t)
    let st16 (i : Instr) (len cyc : Nat) (a v : BitVec 16) : Prop :=
      ∀ t, dxWrite16 q a v (dxFetched q len cyc s) = .ok t → exec i s = .next (dxEnded q pc (fun r => r) t)
    st (.dxSta q (.dir d)) 2 2 z r.a (fun r => r) ∧ st (.dxSta q (.abs w)) 3 3 w r.a (fun r => r) ∧
    st (.dxSta q (.ix d)) 2 2 (r.x + z) r.a (fun r => r) ∧ st (.dxSta q (.iy d)) 2 2 (r.y + z) r.a (fun r => r) ∧
    st (.dxSta q .xinc) 1 2 r.x r.a (fun r => { r with x := r.x + 1 }) ∧
    st (.dxStb q (.dir d)) 2 2 z r.b (fun r => r) ∧ st (.dxStb q (.abs w)) 3 3 w r.b (fun r => r) ∧
    st (.dxStb q (.ix d)) 2 2 (r.x + z) r.b (fun r => r) ∧
    st16 (.dxStx q (.dir d)) 2 3 z r.x ∧ st16 (.dxStx q (.abs w)) 3 4 w r.x ∧ st16 (.dxSty q (.dir d)) 2 3 z r.y ∧
    st16 (.dxSty q (.abs w)) 3 4 w r.y ∧ st16 (.dxStct q d) 2 3 z r.ct

/-- R380, R382: in private RAM above SPLIM, PUSH stores a byte at SP - 1, or 16 bits with the low byte at SP - 2, and lowers
SP; POP reverses it. A push that would reach below SPLIM and a pop from above 0x7FDF raise STACK and do nothing else, with
that address in FADDR (the model's reading, log entry 140); so do JSR, RTS and RTI. -/
def Obligations.DxStack : Prop :=
  ∀ (q : SeqId) (s : State) (w : BitVec 16), DxReady q s → (s.seq q.val).rep = none →
    let r := s.seq q.val
    let sp := r.sp.toNat
    let stack (a : BitVec 16) (i : Instr) : Prop := exec i s = .next (dxFault q { cause := 6, addr := some a } s)
    let low : BitVec 16 := if (r.sp - 1).toNat < r.splim.toNat then r.sp - 1 else r.sp - 2
    let push8 (k : StackReg) (v : Byte) : Prop := 1 ≤ sp → sp ≤ 0x7FE0 → r.splim.toNat + 1 ≤ sp →
      ∃ t, exec (.dxPush q k) s = .next t ∧ (t.seq q.val).sp = r.sp - 1 ∧
        (∀ b, t.ramByte b = if b = privRam q (sp - 1) then v else s.ramByte b)
    let push16 (k : StackReg) (v : BitVec 16) : Prop := 2 ≤ sp → sp ≤ 0x7FE0 → r.splim.toNat + 2 ≤ sp →
      ∃ t, exec (.dxPush q k) s = .next t ∧ (t.seq q.val).sp = r.sp - 2 ∧
        (∀ b, t.ramByte b = if b = privRam q (sp - 2) then v.extractLsb' 0 8
          else if b = privRam q (sp - 1) then v.extractLsb' 8 8 else s.ramByte b)
    let pop8 (k : StackReg) (get : Seq → Byte) : Prop := sp ≤ 0x7FDF →
      ∃ t, exec (.dxPop q k) s = .next t ∧ (t.seq q.val).sp = r.sp + 1 ∧ t.ram = s.ram ∧
        get (t.seq q.val) = s.ramByte (privRam q sp)
    let pop16 (k : StackReg) (get : Seq → BitVec 16) : Prop := sp + 1 ≤ 0x7FDF →
      ∃ t, exec (.dxPop q k) s = .next t ∧ (t.seq q.val).sp = r.sp + 2 ∧ t.ram = s.ram ∧
        get (t.seq q.val) = s.ramByte (privRam q (sp + 1)) ++ s.ramByte (privRam q sp)
    push8 .a r.a ∧ push8 .b r.b ∧ push16 .x r.x ∧ push16 .y r.y ∧ push16 .ct r.ct ∧
    pop8 .a (·.a) ∧ pop8 .b (·.b) ∧ pop16 .x (·.x) ∧ pop16 .y (·.y) ∧ pop16 .ct (·.ct) ∧
    ((r.sp - 1).toNat < r.splim.toNat → ∀ k, stack (r.sp - 1) (.dxPush q k)) ∧
    (2 ≤ sp → sp ≤ 0x7FE0 → sp < r.splim.toNat + 2 →
      stack low (.dxPush q .x) ∧ stack low (.dxPush q .y) ∧ stack low (.dxPush q .ct) ∧ stack low (.dxJsr q (.abs w)) ∧
      stack low (.dxJsr q .x)) ∧
    (0x7FDF < sp → (∀ k, stack r.sp (.dxPop q k)) ∧ stack r.sp (.dxRts q) ∧ stack r.sp (.dxRti q)) ∧
    (sp = 0x7FDF → stack 0x7FE0 (.dxPop q .x) ∧ stack 0x7FE0 (.dxPop q .y) ∧ stack 0x7FE0 (.dxPop q .ct) ∧
      stack 0x7FE0 (.dxRts q) ∧ stack 0x7FE0 (.dxRti q))

/-- R372, R375, R376: the moves copy from the source's address to the destination's; the read-modify-write instructions reach
no register space, where they raise RMW_IO; XCH exchanges A with memory; the arithmetic on memory writes memory and, for
ADDM and SUBM, B. -/
def Obligations.DxMoves : Prop :=
  ∀ (q : SeqId) (d e : Byte) (w v : BitVec 16) (m : MemDx) (s : State), DxReady q s →
    let pc := (s.seq q.val).pc
    let r := s.seq q.val
    let zd : BitVec 16 := 0#8 ++ d
    let ze : BitVec 16 := 0#8 ++ e
    let mov (f : MovForm) (len cyc : Nat) (dst src : BitVec 16) (g : Seq → Seq) : Prop :=
      ∀ b t u, dxRead q src (dxFetched q len cyc s) = .ok (b, t) → (t.seq q.val).x = r.x → (t.seq q.val).y = r.y →
        dxWrite q dst b t = .ok u → exec (.dxMov q f) s = .next (dxEnded q pc g u)
    let rmw (i : Instr) (a : BitVec 16) (f : Byte → Byte) (g : Byte → Seq → Seq) : Prop :=
      let s1 := dxFetched q 2 3 s
      if (dxPlace q (s1.seq q.val) a).isReg then exec i s = .next (dxFault q { cause := 5, addr := some a } s)
      else ∀ b t u, dxRead q a s1 = .ok (b, t) → dxWrite q a (f b) t = .ok u → exec i s = .next (dxEnded q pc (g b) u)
    let ma : BitVec 16 := match m with | .dir d => 0#8 ++ d | .ix d => r.x + (0#8 ++ d)
    mov (.dir d e) 3 3 zd ze (fun r => r) ∧ mov (.abs w v) 5 5 w v (fun r => r) ∧
    mov .inc 1 2 r.x r.y (fun r => { r with x := r.x + 1, y := r.y + 1 }) ∧
    (∀ b t u, movwRead q r.y (dxFetched q 1 5 s) = .ok (b, t) → movwWrite q r.x b t = .ok u →
      exec (.dxMovw q) s = .next (dxEnded q pc (fun r => { r with x := r.x + 4, y := r.y + 4 }) u)) ∧
    rmw (.dxXch q d) zd (fun _ => r.a) (fun b r => { r with a := b }) ∧
    rmw (.dxAddm q m) ma (fun b => b + r.a) (fun b t => { t with b := if 256 ≤ b.toNat + r.a.toNat then 1 else 0 }) ∧
    rmw (.dxSubm q m) ma (fun b => b - r.a) (fun b t => { t with b := if b.toNat < r.a.toNat then 1 else 0 }) ∧
    rmw (.dxAndm q m) ma (fun b => b &&& r.a) (fun _ t => t) ∧ rmw (.dxOrm q m) ma (fun b => b ||| r.a) (fun _ t => t) ∧
    rmw (.dxXorm q m) ma (fun b => b ^^^ r.a) (fun _ t => t)

/-- R375, R391: BTST, BSET and BCLR put the bit's value before into B, BSET and BCLR set and clear it in memory, and a bit
byte with bits [7:3] nonzero is an ILLEGAL_OPCODE. -/
def Obligations.DxBits : Prop :=
  ∀ (q : SeqId) (m : MemDax) (k : Byte) (s : State), DxReady q s →
    let pc := (s.seq q.val).pc
    let s2 := dxFetched q (2 + m.len) (2 + m.extra) s
    let s3 := dxFetched q (2 + m.len) (3 + m.extra) s
    let a2 := m.addr (s2.seq q.val)
    let a3 := m.addr (s3.seq q.val)
    let fin (v : Byte) (t : State) :=
      Host.Outcome.next (dxEnded q pc (fun r => { r with b := if v.getLsbD k.toNat then 1 else 0 }) t)
    let rmw (i : Instr) (f : Byte → Byte) : Prop :=
      ∀ v t u, (dxPlace q (s3.seq q.val) a3).isReg = false → dxRead q a3 s3 = .ok (v, t) → dxWrite q a3 (f v) t = .ok u →
        exec i s = fin v u
    if k.toNat < 8 then
      (∀ v t, dxRead q a2 s2 = .ok (v, t) → exec (.dxBtst q m k) s = fin v t) ∧
      rmw (.dxBset q m k) (fun v => v ||| BitVec.ofNat 8 (2 ^ k.toNat)) ∧
      rmw (.dxBclr q m k) (fun v => v &&& ~~~BitVec.ofNat 8 (2 ^ k.toNat))
    else
      let ill := Host.Outcome.next (dxFault q { cause := 1 } s)
      exec (.dxBtst q m k) s = ill ∧ exec (.dxBset q m k) s = ill ∧ exec (.dxBclr q m k) s = ill

/-- R381, R384: a repeat prefix puts its count into CT (the immediate, or CT as it stands), marks the prefix, and a count of
0 skips the instruction after it; a forbidden instruction after it is an ILLEGAL_SEQUENCE. At the end of each iteration
CT counts down, and at 0 the prefix ends. -/
def Obligations.DxRepeat : Prop :=
  ∀ (q : SeqId) (n : Byte) (s : State), DxReady q s → (s.seq q.val).mode.getLsbD 6 = false →
    let r := s.seq q.val
    let cost := 1 + fetchCost q r
    let rep (i : Instr) (len : BitVec 16) (ct : BitVec 16) : Prop :=
      let op := (fetchByte q (r.pc + len) s).toNat
      (repForbids op = true → exec i s = .next (dxFault q { cause := 2 } s)) ∧
      (repForbids op = false → ct ≠ 0 → exec i s = .next (onSeq q (fun t =>
        ({ t with ct := ct, pc := r.pc + len, mode := t.mode &&& 0xBF, rep := some (r.pc, true) }).advance cost) s)) ∧
      (repForbids op = false → ct = 0 → exec i s = .next (onSeq q (fun t =>
        ({ t with ct := 0, pc := r.pc + len + BitVec.ofNat 16 (opLength op (fetchByte q (r.pc + len + 1) s).toNat),
                  mode := t.mode &&& 0xBF, rep := none }).advance cost) s))
    rep (.dxRep q (.imm n)) 2 (0#8 ++ n) ∧ rep (.dxRep q .ct) 1 r.ct ∧
    (∀ pc : BitVec 16, r.rep = none → dxRetire pc r = r) ∧
    (∀ (p pc : BitVec 16) (b : Bool), r.rep = some (p, b) → r.ct = 1 → dxRetire pc r = { r with ct := 0, rep := none }) ∧
    (∀ (p pc : BitVec 16) (b : Bool), r.rep = some (p, b) → r.ct ≠ 1 →
      dxRetire pc r = { r with ct := r.ct - 1, pc := pc, rep := some (p, false) })

/-- R374, R385, R391, R401: a fault outside another fault writes its cause into FCAUSE and the address of a data access into
FADDR, counts it, raises EV_100, pushes PC, MODE and B, and enters vector 15 with IE and RR 0, FLT 1 and PRIV at least Supervisor.
The code at PC decides an opcode or coprocessor fault: a reserved code raises ILLEGAL_OPCODE; a reserved function of a coprocessor
the sequencer has raises COPROC with detail 1; a code that spells an instruction is no fault. -/
def Obligations.DxFaults : Prop :=
  ∀ (q : SeqId) (c : DxCause) (addr : Option (BitVec 16)) (s : State),
    seqReady q s = true → (s.seq q.val).mode.getLsbD 5 = false → (s.seq q.val).rep = none → FrameFits q s →
    let r := s.seq q.val
    let op := (fetchByte q r.pc s).toNat
    let enters (code : Nat) (fa : BitVec 16) (t : State) : Prop := FramePushed q r.pc r.mode r.b s t ∧
      (t.seq q.val).fcause = BitVec.ofNat 8 code ∧ (t.seq q.val).faddr = fa ∧
      (t.seq q.val).pc = vectorWord q 15 s ∧ (t.seq q.val).mode = (if r.mode.toNat % 4 = 2 then 0x22 else if r.mode.toNat % 4 = 3 then 0x23 else 0x21) ∧
      t.fld (F.SQ_STAT_FCAUSE q.val) = code ∧
      t.fld (F.SQ_STAT_FAULT_CNT q.val) = min 255 (s.fld (F.SQ_STAT_FAULT_CNT q.val) + 1) ∧ EventUp 100 t ∧
      (t.seq q.val).a = r.a ∧ (t.seq q.val).x = r.x ∧ (t.seq q.val).y = r.y ∧ t.mem = s.mem
    (c ≠ .illegalOpcode → c ≠ .coproc → ∃ t, exec (.dxFaultEntry q c addr) s = .next t ∧ enters c.code (addr.getD r.faddr) t) ∧
    (c = .illegalOpcode ∨ c = .coproc → fetchDenied q s = none →
      (dxAt q s = none → ∃ t, exec (.dxFaultEntry q c addr) s = .next t ∧
        if 0xE0 ≤ op ∧ op < 0xE3 ∧ copPresent q (op - 0xE0) = true then
          enters 9 r.faddr t ∧ Sparse.get (fun _ => 0) (t.seq q.val).cpStat (op - 0xE0) = 1
        else enters 1 r.faddr t) ∧
      (op = 0x0F ∨ op = 0x8F ∨ 0xB0 ≤ op ∧ op < 0xE0 ∨ 0xE3 ≤ op ∧ op < 0xF0 ∨ 0xFC ≤ op →
        ∃ t, exec (.dxFaultEntry q c addr) s = .next t ∧ enters 1 r.faddr t) ∧
      ((dxAt q s).isSome = true → exec (.dxFaultEntry q c addr) s = .next s))

/-- R384, R385: the lowest enabled pending input of 0 to 13 is taken at a boundary when IE is 1: its latched bit clears, the
frame is pushed, and PC comes from its vector with IE 0 and PRIV at least Supervisor; with IE 0 nothing changes. -/
def Obligations.DxInterrupts : Prop :=
  ∀ (q : SeqId) (i : Fin 16) (s : State),
    let r := s.seq q.val
    (seqReady q s = true → r.mode.getLsbD 7 = true → r.rep = none → (enabledInputs q s).getLsbD i.val = true →
      (∀ j < i.val, (enabledInputs q s).getLsbD j = false) → FrameFits q s →
      ∃ t, exec (.dxInterruptEntry q i) s = .next t ∧ FramePushed q r.pc r.mode r.b s t ∧
        (t.seq q.val).pc = vectorWord q i.val s ∧ (t.seq q.val).mode.getLsbD 7 = false ∧
        (t.seq q.val).mode.toNat % 4 = max 1 (r.mode.toNat % 4) ∧ (t.seq q.val).ipend.getLsbD i.val = false ∧
        t.regs = s.regs ∧ t.mem = s.mem) ∧
    (r.mode.getLsbD 7 = false → exec (.dxInterruptEntry q i) s = .next s)

/-- R390, R386: SVC puts its number into A and enters vector 14; VCALL, on SQM from Supervisor or Vault mode, enters Vault
mode at VENTRY; RTI restores B, MODE and PC and raises PRIV where it would raise the privilege. -/
def Obligations.DxCalls : Prop :=
  ∀ (q : SeqId) (n : Byte) (s : State), DxReady q s → (s.seq q.val).rep = none →
    let r := s.seq q.val
    let sp := r.sp.toNat
    (FrameFits q s → ∃ t, exec (.dxSvc q n) s = .next t ∧ FramePushed q (r.pc + 2) r.mode r.b s t ∧ (t.seq q.val).a = n ∧
      (t.seq q.val).pc = vectorWord q 14 s ∧ (t.seq q.val).mode.toNat % 4 = max 1 (r.mode.toNat % 4) ∧
      (t.seq q.val).mode.getLsbD 7 = false ∧ t.regs = s.regs) ∧
    (FrameFits q s → q.val = 10 → r.mode.toNat % 4 ≠ 0 → ∃ t, exec (.dxVcall q n) s = .next t ∧
      FramePushed q (r.pc + 2) r.mode r.b s t ∧ (t.seq q.val).a = n ∧ (t.seq q.val).pc = r.ventry ∧
      (t.seq q.val).mode.toNat % 4 = 2 ∧ (t.seq q.val).mode.getLsbD 7 = false ∧ t.regs = s.regs) ∧
    (q.val ≠ 10 → exec (.dxVcall q n) s = .next (dxFault q { cause := 1 } s)) ∧
    (q.val = 10 → r.mode.toNat % 4 = 0 → exec (.dxVcall q n) s = .next (dxFault q { cause := 3 } s)) ∧
    (sp + 3 ≤ 0x7FDF →
      let m := s.ramByte (privRam q (sp + 1))
      (m.toNat % 4 ≤ r.mode.toNat % 4 → ∃ t, exec (.dxRti q) s = .next t ∧ (t.seq q.val).b = s.ramByte (privRam q sp) ∧
        (t.seq q.val).mode &&& 0xBF = m &&& 0xA3 ∧
        (t.seq q.val).pc = s.ramByte (privRam q (sp + 3)) ++ s.ramByte (privRam q (sp + 2)) ∧
        (t.seq q.val).sp = r.sp + 4 ∧ t.ram = s.ram ∧ t.regs = s.regs) ∧
      (r.mode.toNat % 4 < m.toNat % 4 → exec (.dxRti q) s = .next (dxFault q { cause := 3 } s)))

/-- R388, R391: BRK halts for the debug port where DBG_BRK is 1 and the debug level permits it, and raises BREAK, with the
next instruction's address, in every other case. -/
def Obligations.DxBreak : Prop :=
  ∀ (q : SeqId) (s : State), DxReady q s → (s.seq q.val).rep = none →
    let r := s.seq q.val
    if s.bit (F.SQ_CTRL_DBG_BRK q.val) = true ∧ haltPermitted s = true then
      ∃ t, exec (.dxBrk q) s = .next t ∧ (t.seq q.val).dbgHalt = true ∧ seqReady q t = false ∧
        (∀ who, (liveWord who (R.SQ_STAT q.val) t).getLsbD 27 = true) ∧ (t.seq q.val).pc = r.pc + 1 ∧ t.regs = s.regs ∧
        t.ram = s.ram
    else
      exec (.dxBrk q) s = .next (dxFault q { cause := 8 } (dxFetched q 1 1 s)) ∧
      (FrameFits q s → r.mode.getLsbD 5 = false →
        ∃ t, exec (.dxBrk q) s = .next t ∧ FramePushed q (r.pc + 1) r.mode r.b s t ∧ (t.seq q.val).fcause = 8 ∧
          (t.seq q.val).pc = vectorWord q 15 s ∧ EventUp 100 t)

/-- R393, R394: MFS reads each special register into A, CYC_0 capturing the count that CYC_1 to CYC_3 then give; MTS writes
those its mode may write, from A, with reserved bits left 0, and ignores the read-only ones; EI and DI set and clear IE; the
attempts the rules forbid raise ILLEGAL_OPCODE or PRIV.
Where the spec leaves a choice it is the model's: assumption 22. -/
def Obligations.DxSpecial : Prop :=
  ∀ (q : SeqId) (n : Byte) (s : State), DxReady q s → (s.seq q.val).rep = none →
    let r := s.seq q.val
    let r' := (dxFetched q 2 2 s).seq q.val
    let lo (v : BitVec 16) : Byte := v.extractLsb' 0 8
    let hi (v : BitVec 16) : Byte := v.extractLsb' 8 8
    let sqm := decide (q.val = 10)
    let readsTo (k : Byte) (v : Byte) (f : Seq → Seq) : Prop := exec (.dxMfs q k) s = .next (s.setSeq q.val { f r' with a := v })
    let reads (k : Byte) (v : Byte) : Prop := readsTo k v id
    let held := r.cycCap.getD r.cyc
    let writes (k : Byte) (f : Seq → Seq) : Prop := exec (.dxMts q k) s = .next (s.setSeq q.val (f r'))
    let timed (t : Seq) (v : BitVec 16) : Seq := { t with tmr := v, timer := if t.timer = 0 then v else t.timer }
    let priv := Host.Outcome.next (dxFault q { cause := 3 } s)
    r'.pc = r.pc + 2 ∧ r'.b = r.b ∧
    reads 0 r.mode ∧ reads 1 r.ctl ∧ reads 2 (lo r.imask) ∧ reads 3 (hi r.imask ||| 0xC0) ∧
    reads 4 (lo (ipendNow q s)) ∧ reads 5 (hi (ipendNow q s)) ∧ reads 6 (r.bank.extractLsb' 0 8) ∧
    reads 7 (0#6 ++ r.bank.extractLsb' 8 2) ∧ reads 8 (0#5 ++ r.aper) ∧ reads 9 (if sqm then 0#4 ++ r.rsel else 0) ∧
    reads 10 (lo r.splim) ∧ reads 11 (hi r.splim) ∧ reads 12 r.fcause ∧ reads 13 (lo r.faddr) ∧ reads 14 (hi r.faddr) ∧
    reads 15 (lo r.tmr) ∧ reads 16 (hi r.tmr) ∧ reads 17 (BitVec.ofNat 8 q.val) ∧
    readsTo 18 (r.cyc.extractLsb' 0 8) (fun t => { t with cycCap := some r.cyc }) ∧ reads 19 (held.extractLsb' 8 8) ∧
    reads 20 (held.extractLsb' 16 8) ∧ readsTo 21 (held.extractLsb' 24 8) (fun t => { t with cycCap := none }) ∧
    reads 22 (if sqm then lo r.ventry else 0) ∧ reads 23 (if sqm then hi r.ventry else 0) ∧
    (24 ≤ n.toNat → exec (.dxMfs q n) s = .next (dxFault q { cause := 1 } s) ∧
      exec (.dxMts q n) s = .next (dxFault q { cause := 1 } s)) ∧
    writes 6 (fun t => { t with bank := t.bank.extractLsb' 8 2 ++ t.a }) ∧
    writes 7 (fun t => { t with bank := t.a.extractLsb' 0 2 ++ t.bank.extractLsb' 0 8 }) ∧
    writes 8 (fun t => { t with aper := t.a.extractLsb' 0 3 }) ∧
    writes 9 (fun t => if sqm ∧ t.a.toNat ≤ 9 then { t with rsel := t.a.extractLsb' 0 4 } else t) ∧
    (r.mode.toNat % 4 = 0 → (∀ k : Byte, k.toNat < 24 → k ∉ [6, 7, 8, 9] → exec (.dxMts q k) s = priv) ∧
      exec (.dxEi q) s = priv ∧ exec (.dxDi q) s = priv) ∧
    (r.mode.toNat % 4 ≠ 0 →
      writes 1 (fun t => if r.ctl.getLsbD 1 = false ∧ t.a.getLsbD 1 = true then { t with ctl := t.a &&& 3, timer := t.tmr, presc := 0 }
        else { t with ctl := t.a &&& 3 }) ∧
      writes 2 (fun t => { t with imask := hi t.imask ++ t.a }) ∧
      writes 3 (fun t => { t with imask := (t.a &&& 0x3F) ++ lo t.imask }) ∧
      writes 10 (fun t => { t with splim := hi t.splim ++ t.a }) ∧
      writes 11 (fun t => { t with splim := t.a ++ lo t.splim }) ∧
      writes 15 (fun t => timed t (hi t.tmr ++ t.a)) ∧ writes 16 (fun t => timed t (t.a ++ lo t.tmr)) ∧
      (∀ k : Byte, k ∈ [4, 5, 12, 13, 14, 17, 18, 19, 20, 21] → writes k (fun t => t)) ∧
      (r.a.toNat % 4 ≤ r.mode.toNat % 4 → (r.a.getLsbD 5 = false ∨ r.mode.getLsbD 5 = true) →
        writes 0 (fun t => { t with mode := t.a &&& 0xE3 })) ∧
      (r.mode.toNat % 4 < r.a.toNat % 4 ∨ r.a.getLsbD 5 = true ∧ r.mode.getLsbD 5 = false → exec (.dxMts q 0) s = priv) ∧
      (r.mode.toNat % 4 = 2 → writes 22 (fun t => { t with ventry := hi t.ventry ++ t.a }) ∧
        writes 23 (fun t => { t with ventry := t.a ++ lo t.ventry })) ∧
      (r.mode.toNat % 4 ≠ 2 → exec (.dxMts q 22) s = priv ∧ exec (.dxMts q 23) s = priv) ∧
      (∃ t, exec (.dxEi q) s = .next t ∧ (t.seq q.val).mode = r.mode ||| 0x80 ∧ t.regs = s.regs ∧ t.ram = s.ram) ∧
      (∃ t, exec (.dxDi q) s = .next t ∧ (t.seq q.val).mode = r.mode &&& 0x7F ∧ t.regs = s.regs ∧ t.ram = s.ram)) ∧
    (n.toNat < 24 → ∃ t, exec (.dxMfs q n) s = .next t ∧ (t.seq q.val).pc = r.pc + 2 ∧ t.regs = s.regs ∧ MemsSame s t)

/-- R387, R389, R369, R383: WAIT stops fetching, and an enabled pending input ends it; the timer at 0 sets input 12 and
reloads; byte 0xFF of mailbox m sets its sequencer's input 13, byte 0xFF of the host's mailbox 11 raises EV_102, and mailboxes 12
to 15 take nothing.
Where the spec leaves a choice it is the model's: assumption 21. -/
def Obligations.DxWaits : Prop :=
  ∀ (q : SeqId) (s : State) (who : Reader) (m : Fin 16) (v : Byte),
    let r := s.seq q.val
    (DxReady q s → r.rep = none → ∃ t, exec (.dxWait q) s = .next t ∧ (t.seq q.val).run = .wait ∧ (t.seq q.val).pc = r.pc + 1 ∧
      t.regs = s.regs ∧ t.ram = s.ram) ∧
    (r.run = .wait → enabledInputs q s ≠ 0 → exec (.dxWaitWake q) s = .next (s.setSeq q.val { r with run := .run })) ∧
    (enabledInputs q s = 0 → exec (.dxWaitWake q) s = .next s) ∧
    (r.ctl.getLsbD 1 = true → r.tmr ≠ 0 → r.timer = 0 →
      exec (.dxTimer q) s = .next (s.setSeq q.val { r with ipend := r.ipend ||| 0x1000, timer := r.tmr })) ∧
    (Open who (0x5810FC + 0x100 * m.val) s → ∃ t, exec (.dxMailbox who m v) s = .next t ∧ t.mem = s.mem ∧
      (m.val < 12 → ∀ x, t.ramByte x = if x = 0x5810FF + 0x100 * m.val then v else s.ramByte x) ∧
      (m.val < 11 → (t.seq m.val).ipend.getLsbD 13 = true ∧ t.regs = s.regs) ∧
      (m.val = 11 → EventUp 102 t) ∧ (12 ≤ m.val → t = s))

/-- R374, R375: what the DX-8 instructions on registers leave alone: the register file, every memory, the device's outputs, its
timebase, and every other sequencer; and the issuing sequencer's special registers and wide registers. -/
def Obligations.DxRegisterFrame : Prop :=
  ∀ (q : SeqId) (i : Instr) (n d : Byte) (w : BitVec 16) (s t : State),
    i ∈ [.dxNop q, .dxTab q, .dxTba q, .dxTax q, .dxTay q, .dxTxa q, .dxTya q, .dxTsx q, .dxTxs q, .dxXxy q, .dxSetb q,
      .dxClrb q, .dxNotb q, .dxNeg q, .dxNot q, .dxInca q, .dxDeca q, .dxInx q, .dxDex q, .dxIny q, .dxDey q,
      .dxAdx q (.imm n), .dxAdx q .a, .dxAdy q n, .dxCpx q w, .dxCpy q w, .dxBra q d, .dxBt q d, .dxBf q d, .dxDbnz q d,
      .dxJmp q (.abs w), .dxJmp q .x, .dxLda q (.imm n), .dxLdb q (.imm n), .dxLdx q (.imm w), .dxLdy q (.imm w),
      .dxLdct q (.imm w), .dxLdsp q w, .dxAdd q (.imm n), .dxSub q (.imm n), .dxAnd q (.imm n), .dxOr q (.imm n),
      .dxXor q (.imm n), .dxCeq q (.imm n), .dxCltu q (.imm n), .dxClts q (.imm n), .dxShl q (.imm n), .dxShr q (.imm n),
      .dxAsr q (.imm n), .dxRol q (.imm n), .dxMul q (.imm n)] →
    DxReady q s → exec i s = .next t →
    t.regs = s.regs ∧ t.mem = s.mem ∧ t.ram = s.ram ∧ t.hostMem = s.hostMem ∧ t.flash = s.flash ∧ t.out = s.out ∧ t.tb = s.tb ∧
    t.pending = s.pending ∧ (∀ k ≠ q.val, t.seq k = s.seq k) ∧ (t.seq q.val).wide = (s.seq q.val).wide ∧
    (t.seq q.val).mode = (s.seq q.val).mode ∧ (t.seq q.val).ctl = (s.seq q.val).ctl ∧
    (t.seq q.val).imask = (s.seq q.val).imask ∧ (t.seq q.val).ipend = (s.seq q.val).ipend ∧
    (t.seq q.val).bank = (s.seq q.val).bank ∧ (t.seq q.val).splim = (s.seq q.val).splim ∧
    (t.seq q.val).fcause = (s.seq q.val).fcause ∧ (t.seq q.val).faddr = (s.seq q.val).faddr ∧
    (t.seq q.val).ventry = (s.seq q.val).ventry ∧ (t.seq q.val).run = (s.seq q.val).run

/-! The coprocessors (chapter 15). -/

/-- R402, R403, R404, R408: CP0's transfers and arithmetic at the width and signedness of M, on the rings' sequencers: the
exact result kept modulo 2^width and extended, B saying it did not fit; DIV's quotient and remainder. -/
def Obligations.CopArithmetic : Prop :=
  ∀ (q : SeqId) (m : WideMode) (d u : Fin 16) (n : BitVec 16) (sh t : Byte) (s : State), DxReady q s → q.val < 10 →
    (s.seq q.val).rep = none →
    let w := wWidth m
    let sg := wSigned m
    let r := BitVec.ofNat 8 (16 * d.val + u.val)
    let rd := BitVec.ofNat 8 (16 * d.val)
    let q0 := s.seq q.val
    let a := wideVal w sg (q0.w d.val)
    let b := wideVal w sg (q0.w u.val)
    let does (i : Instr) (len cyc : Nat) (f : Seq → Seq) : Prop :=
      exec i s = .next (s.setSeq q.val (f ((dxFetched q len cyc s).seq q.val)))
    let res (x : Int) (t : Seq) : Seq := { t.setW d.val (wideOf w sg x) with b := if wideFits w sg x then 0 else 1 }
    does (.cp0Mov q m r) 3 3 (fun t => t.setW d.val (wideOf w sg b)) ∧
    does (.cp0Ldi q m rd n) 5 3 (fun t => t.setW d.val (wideOf w sg n.toInt)) ∧
    does (.cp0Add q m r) 3 3 (res (a + b)) ∧ does (.cp0Sub q m r) 3 3 (res (a - b)) ∧
    does (.cp0Mul q m r) 3 5 (res (a * b)) ∧
    (sh.toNat ≤ 95 → does (.cp0Mulq q m r sh) 4 6 (res (a * b / 2 ^ sh.toNat))) ∧
    (sg = true → b ≠ -(2 ^ (w - 1) : Int) →
      does (.cp0Neg q m r) 3 3 (fun t => { t.setW d.val (wideOf w sg (-b)) with b := 0 }) ∧
      does (.cp0Abs q m r) 3 3 (fun t => { t.setW d.val (wideOf w sg (b.natAbs : Int)) with b := 0 })) ∧
    (sg = true → b = -(2 ^ (w - 1) : Int) →
      does (.cp0Neg q m r) 3 3 (fun t => { t.setW d.val (wideOf w sg b) with b := 1 }) ∧
      does (.cp0Abs q m r) 3 3 (fun t => { t.setW d.val (wideOf w sg b) with b := 1 })) ∧
    (sg = false → exec (.cp0Neg q m r) s = .next (dxFault q (copErr 0 1) s) ∧
      exec (.cp0Abs q m r) s = .next (dxFault q (copErr 0 1) s)) ∧
    (t.toNat < 16 → b ≠ 0 → ¬(sg = true ∧ a = -(2 ^ (w - 1) : Int) ∧ b = -1) →
      does (.cp0Div q m r t) 4 (if w = 32 then 14 else 20) (fun x =>
        { (x.setW t.toNat (wideOf w sg (a.tmod b))).setW d.val (wideOf w sg (a.tdiv b)) with b := 0 })) ∧
    (95 < sh.toNat → exec (.cp0Mulq q m r sh) s = .next (dxFault q (copErr 0 2) s)) ∧
    (16 ≤ t.toNat → exec (.cp0Div q m r t) s = .next (dxFault q (copErr 0 2) s))

/-- R404, R407: CP0's shifts and rotates by an unsigned count, its comparisons, minimum and maximum, and the exchange of a
byte with A.
Where the spec leaves a choice it is the model's: assumption 19. -/
def Obligations.CopShifts : Prop :=
  ∀ (q : SeqId) (m : WideMode) (d u : Fin 16) (n k : Byte) (s : State), DxReady q s → q.val < 10 →
    (s.seq q.val).rep = none →
    let w := wWidth m
    let sg := wSigned m
    let r := BitVec.ofNat 8 (16 * d.val + u.val)
    let rd := BitVec.ofNat 8 (16 * d.val)
    let q0 := s.seq q.val
    let a := wideVal w sg (q0.w d.val)
    let b := wideVal w sg (q0.w u.val)
    let bits := (q0.w u.val).toNat % 2 ^ w
    let i := wideVal w true (q0.w u.val)
    let c := n.toNat
    let does (i : Instr) (len : Nat) (f : Seq → Seq) : Prop :=
      exec i s = .next (s.setSeq q.val (f ((dxFetched q len 3 s).seq q.val)))
    let put (x : Int) (bit : Bool) (t : Seq) : Seq := { t.setW d.val (wideOf w sg x) with b := if bit then 1 else 0 }
    (c = 0 → does (.cp0Shl q m r n) 4 (put b false) ∧ does (.cp0Shr q m r n) 4 (put b false) ∧
      does (.cp0Asr q m r n) 4 (put b false) ∧ does (.cp0Rol q m r n) 4 (put b false) ∧ does (.cp0Ror q m r n) 4 (put b false)) ∧
    (0 < c → c ≤ w → does (.cp0Shl q m r n) 4 (put (bits * 2 ^ c : Nat) (bits.testBit (w - c))) ∧
      does (.cp0Shr q m r n) 4 (put (bits / 2 ^ c : Nat) (bits.testBit (c - 1))) ∧
      does (.cp0Asr q m r n) 4 (put (i / 2 ^ c) (bits.testBit (c - 1)))) ∧
    (w < c → does (.cp0Shl q m r n) 4 (put 0 false) ∧ does (.cp0Shr q m r n) 4 (put 0 false) ∧
      does (.cp0Asr q m r n) 4 (put (if i < 0 then -1 else 0) (decide (i < 0)))) ∧
    does (.cp0Clt q m r) 3 (fun t => { t with b := if a < b then 1 else 0 }) ∧
    does (.cp0Ceq q m r) 3 (fun t => { t with b := if a = b then 1 else 0 }) ∧
    does (.cp0Min q m r) 3 (fun t => t.setW d.val (wideOf w sg (min a b))) ∧
    does (.cp0Max q m r) 3 (fun t => t.setW d.val (wideOf w sg (max a b))) ∧
    (k.toNat ≤ 5 → does (.cp0Toa q .u32 rd k) 4 (fun t => { t with a := (q0.w d.val).extractLsb' (8 * k.toNat) 8 })) ∧
    (k.toNat ≤ 5 → ∃ t, exec (.cp0Froma q .u32 rd k) s = .next t ∧
      ((t.seq q.val).w d.val).extractLsb' (8 * k.toNat) 8 = q0.a ∧
      (∀ j < 6, j ≠ k.toNat → ((t.seq q.val).w d.val).extractLsb' (8 * j) 8 = (q0.w d.val).extractLsb' (8 * j) 8)) ∧
    (5 < k.toNat → exec (.cp0Toa q .u32 rd k) s = .next (dxFault q (copErr 0 2) s) ∧
      exec (.cp0Froma q .u32 rd k) s = .next (dxFault q (copErr 0 2) s)) ∧
    (m ≠ .u32 → exec (.cp0Toa q m rd k) s = .next (dxFault q (copErr 0 1) s)) ∧
    (0 < c → let h := c % w
      let v := q0.w u.val
      (∃ t, exec (.cp0Rol q m r n) s = .next t ∧
        (∀ i < w, ((t.seq q.val).w d.val).getLsbD i = v.getLsbD ((i + w - h) % w)) ∧
        (t.seq q.val).b = (if ((t.seq q.val).w d.val).getLsbD 0 then 1 else 0) ∧ t.regs = s.regs ∧ t.ram = s.ram) ∧
      (∃ t, exec (.cp0Ror q m r n) s = .next t ∧
        (∀ i < w, ((t.seq q.val).w d.val).getLsbD i = v.getLsbD ((i + h) % w)) ∧
        (t.seq q.val).b = (if ((t.seq q.val).w d.val).getLsbD 0 then 1 else 0) ∧ t.regs = s.regs ∧ t.ram = s.ram))

/-- R400, R402, R403: VER writes the coprocessor's number and version 1.0 at X and STAT reads the detail code, on all three
coprocessors; LD and ST move 4 or 6 bytes between a wide register and private RAM; on a ring's sequencer the functions VER, STAT and EVAL of
CP1 and SUBMIT of CP2, and on SQM VER and ADD of CP0, are an ILLEGAL_OPCODE.
Where the spec leaves a choice it is the model's: assumption 126. -/
def Obligations.CopTransfers : Prop :=
  ∀ (q : SeqId) (m : WideMode) (d : Fin 16) (d8 : Byte) (s : State), DxReady q s → (s.seq q.val).rep = none →
    let r := s.seq q.val
    let rd := BitVec.ofNat 8 (16 * d.val)
    let a := (r.x + (0#8 ++ d8)).toNat
    let k := wWidth m / 8
    let ver (i : Instr) (cp : Byte) : Prop := r.x.toNat + 4 ≤ 0x7FE0 → ∃ t, exec i s = .next t ∧
      t.ramByte (privRam q r.x.toNat) = cp ∧ t.ramByte (privRam q (r.x.toNat + 1)) = 1 ∧
      t.ramByte (privRam q (r.x.toNat + 2)) = 0 ∧ t.ramByte (privRam q (r.x.toNat + 3)) = 0 ∧
      (∀ y, (y < privRam q r.x.toNat ∨ privRam q r.x.toNat + 4 ≤ y) → t.ramByte y = s.ramByte y) ∧ t.regs = s.regs
    let stat (i : Instr) (cp : Nat) : Prop := ∃ t, exec i s = .next t ∧
      (t.seq q.val).a = BitVec.ofNat 8 (Sparse.get (fun _ => 0) r.cpStat cp) ∧ (t.seq q.val).b = r.b ∧ t.regs = s.regs ∧ t.ram = s.ram
    let ill (i : Instr) : Prop := exec i s = .next (dxFault q { cause := 1 } s)
    (q.val < 10 → ver (.cp0Ver q .u32) 0 ∧ stat (.cp0Stat q .u32) 0 ∧
      (a + k ≤ 0x7FE0 → ∃ t, exec (.cp0Ld q m rd d8) s = .next t ∧ t.regs = s.regs ∧ t.ram = s.ram ∧
        (t.seq q.val).w d.val = wideOf (wWidth m) (wSigned m) (leNat (Sparse.bytes byteDflt s.ram (privRam q a) k) : Nat)) ∧
      (a + k ≤ 0x7FE0 → ∃ t, exec (.cp0St q m rd d8) s = .next t ∧ t.regs = s.regs ∧
        (∀ y, t.ramByte y = if privRam q a ≤ y ∧ y < privRam q a + k
          then (r.w d.val).extractLsb' (8 * (y - privRam q a)) 8 else s.ramByte y)) ∧
      ill (.cp1Ver q) ∧ ill (.cp1Stat q) ∧ ill (.cp1Eval q) ∧ ill (.cp2Submit q)) ∧
    (q.val = 10 → ver (.cp1Ver q) 1 ∧ stat (.cp1Stat q) 1 ∧ ver (.cp2Ver q) 2 ∧ stat (.cp2Stat q) 2 ∧
      ill (.cp0Ver q .u32) ∧ ill (.cp0Add q m rd))

/-- R154, R409: with X a multiple of 0x40, the records and the state in private RAM, each discriminator completes: it writes its
result to Wd as a 48-bit value with B 0, or 0 with B 1 where R154 calls it invalid. Invalid: DLL_EL with K 0, K times HE of 256
or more, or no power on E and L; PLL_C and PLL_A without a prompt; FLL_C and FLL_A with T 0 or records not one apart; CN0_MB
with T 0; PLI with all zero. DLL_EL with E equal to L and the phase of a prompt on the positive real axis are 0, equal prompts have
no frequency, and a prompt on the negative real axis gives PLL_A −0.5 cycle (the model's choice, assumption 127). A misaligned X
is detail 3 and K or HE out of range detail 2.
Where the spec leaves a choice it is the model's: assumption 128. -/
def Obligations.CopDiscriminators : Prop :=
  ∀ (q : SeqId) (d : Fin 16) (u : Fin 16) (k he a : Byte) (s : State), DxReady q s → q.val < 10 → (s.seq q.val).rep = none →
    let r := s.seq q.val
    let rd := BitVec.ofNat 8 (16 * d.val)
    let ru := BitVec.ofNat 8 (16 * d.val + u.val)
    let x := r.x.toNat
    let rec0 := Sparse.bytes byteDflt s.ram (privRam q x) 64
    let rec1 := Sparse.bytes byteDflt s.ram (privRam q (x + 64)) 64
    let st := Sparse.bytes byteDflt s.ram (privRam q r.y.toNat) 16
    let t32 := (r.w u.val).toNat % 2 ^ 32
    let e := tapPower (tapOf rec0 1)
    let l := tapPower (tapOf rec0 3)
    let p := tapOf rec0 2
    let none (i : Instr) : Prop := ∃ t, exec i s = .next t ∧ (t.seq q.val).w d.val = 0 ∧ (t.seq q.val).b = 1 ∧ t.ram = s.ram ∧
      t.regs = s.regs
    let gives (i : Instr) (v : Int) : Prop := ∃ t, exec i s = .next t ∧ (t.seq q.val).w d.val = BitVec.ofInt 48 v ∧
      (t.seq q.val).b = 0 ∧ t.regs = s.regs
    let does (i : Instr) (o : Option Int) : Prop := ∃ t, exec i s = .next t ∧
      (t.seq q.val).w d.val = BitVec.ofInt 48 (o.getD 0) ∧ (t.seq q.val).b = (if o.isNone then 1 else 0) ∧ t.regs = s.regs
    (x % 64 = 0 → x + 128 ≤ 0x7FE0 → r.y.toNat + 16 ≤ 0x7FE0 →
      (k.toNat ≤ 15 → he.toNat ≤ 127 → k = 0 ∨ 256 ≤ k.toNat * he.toNat ∨ e + l = 0 → none (.cp0DllEl q .u32 rd k he)) ∧
      (k.toNat ≤ 15 → he.toNat ≤ 127 → k ≠ 0 → k.toNat * he.toNat < 256 → e = l → 0 < e → gives (.cp0DllEl q .u32 rd k he) 0) ∧
      (p = (0, 0) → none (.cp0PllC q .u32 rd) ∧ none (.cp0PllA q .u32 rd)) ∧
      (p.1 < 0 → p.2 = 0 → gives (.cp0PllA q .u32 rd) (-2147483648)) ∧
      (0 < p.1 → p.2 = 0 → gives (.cp0PllC q .u32 rd) 0 ∧ gives (.cp0PllA q .u32 rd) 0) ∧
      (t32 = 0 ∨ (leAt rec1 4 2 ≠ (leAt rec0 4 2 + 1) % 65536 ∧ leAt rec0 4 2 ≠ (leAt rec1 4 2 + 1) % 65536) →
        none (.cp0FllC q .u32 ru) ∧ none (.cp0FllA q .u32 ru)) ∧
      (t32 ≠ 0 → leAt rec1 4 2 = (leAt rec0 4 2 + 1) % 65536 → tapOf rec1 2 = p → p ≠ (0, 0) →
        gives (.cp0FllC q .u32 ru) 0 ∧ gives (.cp0FllA q .u32 ru) 0) ∧
      (k.toNat ≤ 15 → he.toNat ≤ 127 → does (.cp0DllEl q .u32 rd k he) (dllEl e l k.toNat he.toNat)) ∧
      does (.cp0PllC q .u32 rd) (pllC rec0).result ∧
      ((pllA rec0).result ≠ some 2147483648 → does (.cp0PllA q .u32 rd) (pllA rec0).result) ∧
      does (.cp0FllC q .u32 ru) (fll false rec0 rec1 t32).result ∧ does (.cp0FllA q .u32 ru) (fll true rec0 rec1 t32).result ∧
      (a.toNat ≤ 15 → does (.cp0Cn0Mb q .u32 ru a) (cn0Mb rec0 st t32 a.toNat).result ∧
        does (.cp0Pli q .u32 rd a) (pliOf rec0 st a.toNat).result) ∧
      (a.toNat ≤ 15 → t32 = 0 → none (.cp0Cn0Mb q .u32 ru a)) ∧
      (a.toNat ≤ 15 → p = (0, 0) → (∀ b ∈ st, b = 0) → none (.cp0Pli q .u32 rd a))) ∧
    (x % 64 ≠ 0 → exec (.cp0PllC q .u32 rd) s = .next (dxFault q (copErr 0 3) s) ∧
      exec (.cp0PllA q .u32 rd) s = .next (dxFault q (copErr 0 3) s)) ∧
    (15 < k.toNat ∨ 127 < he.toNat → exec (.cp0DllEl q .u32 rd k he) s = .next (dxFault q (copErr 0 2) s))

/-- R410: the orbit unit port writes an evaluation, or zeros with B 1 where the index lies above 220, the slot is not usable at
the time, or, for ELAZ, there is no reference position; A and the times and outputs lie in private RAM.
Where the spec leaves a choice it is the model's: assumption 31. -/
def Obligations.CopOrbit : Prop :=
  ∀ (q : SeqId) (s : State), DxReady q s → q.val = 10 → (s.seq q.val).rep = none →
    let r := s.seq q.val
    let x := r.x.toNat
    let y := r.y.toNat
    let i := r.a.toNat
    let t0 := s.widen (leNat (Sparse.bytes byteDflt s.ram (privRam q x) 8))
    let pend := Sparse.get (fun _ => emptySlot) s.sky.pend i
    let out (c : Instr) (bs : List Byte) (b : Byte) : Prop := ∃ t, exec c s = .next t ∧ (t.seq q.val).b = b ∧ t.regs = s.regs ∧
      Sparse.bytes byteDflt t.ram (privRam q y) bs.length = bs ∧
      (∀ z, (z < privRam q y ∨ privRam q y + bs.length ≤ z) → t.ramByte z = s.ramByte z)
    x + 8 ≤ 0x7FE0 → y + 48 ≤ 0x7FE0 →
    (i ≤ 220 → slotUsable (skySlot s i) t0 = true → out (.cp1Eval q) (orbitBytes i (skySlot s i) t0 s) 0) ∧
    (i ≤ 220 → slotUsable pend t0 = true → out (.cp1Evalp q) (orbitBytes i pend t0 s) 0) ∧
    (∀ pos, i ≤ 220 → slotUsable (skySlot s i) t0 = true → refPos s = some pos →
      let z := slotLook i (skySlot s i) t0 pos s
      out (.cp1Elaz q) (leBytes 2 (ofSigned 16 z.1) ++ leBytes 2 z.2.1) 0) ∧
    (220 < i → out (.cp1Eval q) (List.replicate 48 0) 1 ∧ out (.cp1Evalp q) (List.replicate 48 0) 1 ∧
      out (.cp1Elaz q) (List.replicate 4 0) 1) ∧
    (slotUsable (skySlot s i) t0 = false → out (.cp1Eval q) (List.replicate 48 0) 1) ∧
    (refPos s = none → out (.cp1Elaz q) (List.replicate 4 0) 1)

/-- R411, R413, R414: SUBMIT starts a job on a free lane while fewer than three hold one, and answers B 1 otherwise; POLL shows
whether lane A runs one; ABORT marks it; a device read of the job that the protection unit denies raises EV_124; VERDICT hands a
Galileo satellite's result to the monitor, in place of an earlier one not yet taken; at completion STATUS and
BLOCKS are written, the lane is free and EV_103 is raised.
Where the spec leaves a choice it is the model's: assumption 129. -/
def Obligations.CopHash : Prop :=
  ∀ (q : SeqId) (v : Byte) (lane : Fin 4) (done : Word) (s : State),
    let r := s.seq q.val
    (DxReady q s → q.val = 10 → r.rep = none →
      (r.x.toNat + 32 ≤ 0x7FE0 → ∀ l, freeLane s = some l → ∃ t j, exec (.cp2Submit q) s = .next t ∧
        (t.seq q.val).a = BitVec.ofNat 8 l ∧ (t.seq q.val).b = 0 ∧ hashJob t l = some j ∧ j.desc = r.x ∧
        j.bytes = Sparse.bytes byteDflt s.ram (privRam q r.x.toNat) 32 ∧ t.ram = s.ram ∧
        (leAt j.bytes 2 1 ≠ 0 ∨ leAt j.bytes 12 4 = 0 ∨ rangeDenied .sqm (leAt j.bytes 8 4) (leAt j.bytes 12 4) false s = none →
          t.regs = s.regs) ∧
        (leAt j.bytes 2 1 = 0 → leAt j.bytes 12 4 ≠ 0 →
          (rangeDenied .sqm (leAt j.bytes 8 4) (leAt j.bytes 12 4) false s).isSome = true → EventUp 124 t ∧ j.refused = true)) ∧
      (r.x.toNat + 32 ≤ 0x7FE0 → freeLane s = none → ∃ t, exec (.cp2Submit q) s = .next t ∧ (t.seq q.val).b = 1 ∧
        t.hash = s.hash ∧ (t.seq q.val).a = r.a) ∧
      (r.a.toNat ≤ 3 → (∃ t, exec (.cp2Poll q) s = .next t ∧ t.hash = s.hash ∧
          (t.seq q.val).b = (if (hashJob s r.a.toNat).isSome then 1 else 0)) ∧
        (∃ t, exec (.cp2Abort q) s = .next t ∧
          hashJob t r.a.toNat = (hashJob s r.a.toNat).map (fun j => { j with abort := true }))) ∧
      (3 < r.a.toNat → exec (.cp2Poll q) s = .next (dxFault q (copErr 2 2) s) ∧
        exec (.cp2Abort q) s = .next (dxFault q (copErr 2 2) s)) ∧
      (r.mode.toNat % 4 ≠ 0 → (v = 1 ∨ v = 2) → 32 ≤ r.a.toNat → r.a.toNat ≤ 67 → ∃ t, exec (.cp2Verdict q v) s = .next t ∧
        t.fsm = { s.fsm with osnma := s.fsm.osnma.filter (fun e => e.1 != r.a.toNat) ++ [(r.a.toNat, v == 1)] } ∧
        t.regs = s.regs) ∧
      (r.mode.toNat % 4 = 0 → exec (.cp2Verdict q v) s = .next (dxFault q { cause := 3 } s))) ∧
    (((List.range 4).filter (fun l => (hashJob s l).isSome)).length < 3 → (freeLane s).isSome) ∧
    (3 ≤ ((List.range 4).filter (fun l => (hashJob s l).isSome)).length → freeLane s = none) ∧
    (∀ j, hashJob s lane.val = some j → j.desc.toNat + 32 ≤ 0x7FE0 →
      ∃ t st n, exec (.cp2JobDone lane done) s = .next t ∧ hashJob t lane.val = none ∧ EventUp 103 t ∧
        t.ramByte (privRam 10 (j.desc.toNat + 16)) = BitVec.ofNat 8 st ∧
        Sparse.bytes byteDflt t.ram (privRam 10 (j.desc.toNat + 20)) 4 = leBytes 4 n ∧
        (j.refused = true → st = 2 ∧ n = 0) ∧
        (j.refused = false → j.abort = true → done.toNat < hashBlocks j.bytes → st = 9 ∧ n = done.toNat) ∧
        (j.refused = false → j.abort = false → n = hashBlocks j.bytes ∧ (leAt j.bytes 0 1 ≠ 2 → st = 0))) ∧
    (hashJob s lane.val = none → exec (.cp2JobDone lane done) s = .next s)
end

