-- ==== Sys2Proof/Laws/Sparse.lean ====
section
/-! SUPPORT. The laws of the sorted tables: what a read gives after a write, and that every operation keeps the canonical form. -/
namespace Sys2Proof.Machine

variable {α : Type} {d : Nat → α}

theorem Sparse.get_drop (m : Sparse α) (k j : Nat) :
    Sparse.get d (Sparse.drop m k) j = if j = k then d j else Sparse.get d m j := by
  induction m with
  | nil => simp [Sparse.drop, Sparse.get]
  | cons p m ih =>
    obtain ⟨a, v⟩ := p
    by_cases hk : k = a
    · subst hk
      simp only [Sparse.drop, if_true, Sparse.get, ih]
      by_cases hj : j = k <;> simp [hj]
    · by_cases hj : j = a
      · subst hj; simp [Sparse.drop, Sparse.get, hk, Ne.symm hk]
      · simp [Sparse.drop, Sparse.get, hk, hj, ih]

theorem Sparse.get_insert_ne (m : Sparse α) {k j : Nat} (v : α) (h : j ≠ k) :
    Sparse.get d (Sparse.insert m k v) j = Sparse.get d m j := by
  induction m with
  | nil => simp [Sparse.insert, Sparse.get, h]
  | cons p m ih =>
    obtain ⟨a, w⟩ := p
    by_cases hk : k < a
    · simp [Sparse.insert, hk, Sparse.get, h]
    · by_cases hj : j = a <;> simp [Sparse.insert, hk, Sparse.get, hj, ih]

theorem Sparse.get_insert_drop (m : Sparse α) (k : Nat) (v : α) :
    Sparse.get d (Sparse.insert (Sparse.drop m k) k v) k = v := by
  induction m with
  | nil => simp [Sparse.drop, Sparse.insert, Sparse.get]
  | cons p m ih =>
    obtain ⟨a, w⟩ := p
    by_cases hk : k = a
    · subst hk; simpa [Sparse.drop] using ih
    · by_cases hl : k < a
      · simp [Sparse.drop, hk, Sparse.insert, hl, Sparse.get]
      · simp [Sparse.drop, hk, Sparse.insert, hl, Sparse.get, ih]

/-- A read after a write: the value written at its key, what was there at every other. -/
theorem Sparse.get_put [DecidableEq α] (m : Sparse α) (k j : Nat) (v : α) :
    Sparse.get d (Sparse.put d m k v) j = if j = k then v else Sparse.get d m j := by
  unfold Sparse.put
  by_cases hv : v = d k
  · rw [if_pos hv, Sparse.get_drop]
    by_cases hj : j = k
    · subst hj; simp [hv]
    · simp [hj]
  · rw [if_neg hv]
    by_cases hj : j = k
    · subst hj; simp [Sparse.get_insert_drop]
    · rw [Sparse.get_insert_ne _ _ hj, Sparse.get_drop]; simp [hj]

@[simp] theorem Sparse.get_put_self [DecidableEq α] (m : Sparse α) (k : Nat) (v : α) :
    Sparse.get d (Sparse.put d m k v) k = v := by simp [Sparse.get_put]

theorem Sparse.get_put_ne [DecidableEq α] (m : Sparse α) {k j : Nat} (v : α) (h : j ≠ k) :
    Sparse.get d (Sparse.put d m k v) j = Sparse.get d m j := by simp [Sparse.get_put, h]

theorem Sparse.drop_drop (m : Sparse α) (k : Nat) : Sparse.drop (Sparse.drop m k) k = Sparse.drop m k := by
  induction m with
  | nil => rfl
  | cons p m ih =>
    obtain ⟨a, v⟩ := p
    by_cases hk : k = a <;> simp [Sparse.drop, hk]
    · subst hk; exact ih
    · simp [ih]

theorem Sparse.drop_insert (m : Sparse α) (k : Nat) (v : α) :
    Sparse.drop (Sparse.insert m k v) k = Sparse.drop m k := by
  induction m with
  | nil => simp [Sparse.insert, Sparse.drop]
  | cons p m ih =>
    obtain ⟨a, w⟩ := p
    by_cases hl : k < a
    · simp [Sparse.insert, hl, Sparse.drop]
    · by_cases hk : k = a <;> simp [Sparse.insert, hl, Sparse.drop, hk]
      · subst hk; exact ih
      · simp [ih]

/-- Of two writes to one key the later one stands. -/
@[simp] theorem Sparse.put_put [DecidableEq α] (m : Sparse α) (k : Nat) (v w : α) :
    Sparse.put d (Sparse.put d m k v) k w = Sparse.put d m k w := by
  have h : Sparse.drop (Sparse.put d m k v) k = Sparse.drop m k := by
    unfold Sparse.put
    split
    · exact Sparse.drop_drop m k
    · rw [Sparse.drop_insert, Sparse.drop_drop]
  unfold Sparse.put at h ⊢
  simp only [h]

theorem Sparse.mem_drop {m : Sparse α} {k : Nat} {p : Nat × α} (h : p ∈ Sparse.drop m k) : p ∈ m ∧ p.1 ≠ k := by
  induction m with
  | nil => simp [Sparse.drop] at h
  | cons q m ih =>
    obtain ⟨a, v⟩ := q
    by_cases hk : k = a
    · simp only [Sparse.drop, hk, if_true] at h
      have := ih (by simpa [hk] using h)
      exact ⟨List.mem_cons_of_mem _ this.1, this.2⟩
    · simp only [Sparse.drop, hk, if_false, List.mem_cons] at h
      rcases h with h | h
      · subst h; exact ⟨List.mem_cons_self, fun e => hk e.symm⟩
      · exact ⟨List.mem_cons_of_mem _ (ih h).1, (ih h).2⟩

theorem Sparse.mem_insert {m : Sparse α} {k : Nat} {v : α} {p : Nat × α} (h : p ∈ Sparse.insert m k v) :
    p = (k, v) ∨ p ∈ m := by
  induction m with
  | nil => simpa [Sparse.insert] using h
  | cons q m ih =>
    obtain ⟨a, w⟩ := q
    by_cases hk : k < a
    · simpa [Sparse.insert, hk] using h
    · simp only [Sparse.insert, hk, if_false, List.mem_cons] at h
      rcases h with h | h
      · exact .inr (by simp [h])
      · rcases ih h with h | h
        · exact .inl h
        · exact .inr (List.mem_cons_of_mem _ h)

theorem Sparse.pairwise_drop {m : Sparse α} (k : Nat) (h : m.Pairwise (fun p q => p.1 < q.1)) :
    (Sparse.drop m k).Pairwise (fun p q => p.1 < q.1) := by
  induction m with
  | nil => simp [Sparse.drop]
  | cons q m ih =>
    obtain ⟨a, v⟩ := q
    rw [List.pairwise_cons] at h
    by_cases hk : k = a
    · simpa [Sparse.drop, hk] using ih h.2
    · simp only [Sparse.drop, hk, if_false, List.pairwise_cons]
      exact ⟨fun p hp => h.1 p (Sparse.mem_drop hp).1, ih h.2⟩

theorem Sparse.pairwise_insert {m : Sparse α} {k : Nat} (v : α) (h : m.Pairwise (fun p q => p.1 < q.1))
    (hk : ∀ p ∈ m, p.1 ≠ k) : (Sparse.insert m k v).Pairwise (fun p q => p.1 < q.1) := by
  induction m with
  | nil => simp [Sparse.insert]
  | cons q m ih =>
    obtain ⟨a, w⟩ := q
    have h' := List.pairwise_cons.1 h
    have ha : a ≠ k := hk (a, w) List.mem_cons_self
    by_cases hl : k < a
    · simp only [Sparse.insert, hl, if_true, List.pairwise_cons]
      refine ⟨fun p hp => ?_, h'⟩
      rcases List.mem_cons.1 hp with hp | hp
      · subst hp; exact hl
      · exact lt_trans hl (h'.1 p hp)
    · simp only [Sparse.insert, hl, if_false, List.pairwise_cons]
      refine ⟨fun p hp => ?_, ih h'.2 (fun p hp => hk p (List.mem_cons_of_mem _ hp))⟩
      rcases Sparse.mem_insert hp with hp | hp
      · subst hp; exact lt_of_le_of_ne (Nat.le_of_not_lt hl) ha
      · exact h'.1 p hp

/-- A write keeps the canonical form. -/
theorem Sparse.wf_put [DecidableEq α] {m : Sparse α} (k : Nat) (v : α) (h : Sparse.wf d m) :
    Sparse.wf d (Sparse.put d m k v) := by
  unfold Sparse.put
  split
  · exact ⟨Sparse.pairwise_drop k h.1, fun p hp => h.2 p (Sparse.mem_drop hp).1⟩
  · rename_i hv
    refine ⟨Sparse.pairwise_insert v (Sparse.pairwise_drop k h.1) (fun p hp => (Sparse.mem_drop hp).2), fun p hp => ?_⟩
    rcases Sparse.mem_insert hp with hp | hp
    · subst hp; exact hv
    · exact h.2 p (Sparse.mem_drop hp).1

/-- Keeping only some keys keeps the canonical form. -/
theorem Sparse.wf_keep {m : Sparse α} (p : Nat → Bool) (h : Sparse.wf d m) : Sparse.wf d (Sparse.keep p m) :=
  ⟨List.Pairwise.filter _ h.1, fun q hq => h.2 q (List.mem_filter.1 hq).1⟩

/-- A block of bytes written keeps the canonical form. -/
theorem Sparse.wf_putBytes {d : Nat → Byte} {m : Sparse Byte} (a : Nat) (bs : List Byte) (h : Sparse.wf d m) :
    Sparse.wf d (Sparse.putBytes d m a bs) := by
  induction bs generalizing m a with
  | nil => exact h
  | cons b bs ih => exact ih (a + 1) (Sparse.wf_put a b h)

/-- The empty table is canonical. -/
theorem Sparse.wf_nil : Sparse.wf d ([] : Sparse α) := ⟨List.Pairwise.nil, by simp⟩

/-- A byte outside a block written reads as before. -/
theorem Sparse.get_putBytes_of_not_mem {d : Nat → Byte} (m : Sparse Byte) (a : Nat) (bs : List Byte) {x : Nat}
    (h : x < a ∨ a + bs.length ≤ x) : Sparse.get d (Sparse.putBytes d m a bs) x = Sparse.get d m x := by
  induction bs generalizing m a with
  | nil => rfl
  | cons b bs ih =>
    simp only [List.length_cons] at h
    rw [Sparse.putBytes, ih _ (a + 1) (by omega), Sparse.get_put_ne _ _ (by omega)]

/-- A byte of a block written reads as written. -/
theorem Sparse.get_putBytes {d : Nat → Byte} (m : Sparse Byte) (a : Nat) (bs : List Byte) {i : Nat} (h : i < bs.length) :
    Sparse.get d (Sparse.putBytes d m a bs) (a + i) = bs[i] := by
  induction bs generalizing m a i with
  | nil => simp at h
  | cons b bs ih =>
    cases i with
    | zero =>
      rw [Nat.add_zero, Sparse.putBytes, Sparse.get_putBytes_of_not_mem _ _ _ (by omega), Sparse.get_put_self]; rfl
    | succ i =>
      have := ih (Sparse.put d m a b) (a + 1) (i := i) (by simpa using h)
      rw [Sparse.putBytes, show a + (i + 1) = a + 1 + i by omega, this]; rfl

end Sys2Proof.Machine
end

