-- ==== Sys2Proof/Laws/State.lean ====
section
/-! SUPPORT. What each named update of the state leaves as it was: one lemma per field and update, so that no proof unfolds a
record update. -/
namespace Sys2Proof.Machine

variable (s : State)

/-! setWord changes regs alone. -/

@[simp] theorem State.setWord_pending (off : Nat) (w : Word) : (s.setWord off w).pending = s.pending := rfl
@[simp] theorem State.setWord_mem (off : Nat) (w : Word) : (s.setWord off w).mem = s.mem := rfl
@[simp] theorem State.setWord_ram (off : Nat) (w : Word) : (s.setWord off w).ram = s.ram := rfl
@[simp] theorem State.setWord_hostMem (off : Nat) (w : Word) : (s.setWord off w).hostMem = s.hostMem := rfl
@[simp] theorem State.setWord_flash (off : Nat) (w : Word) : (s.setWord off w).flash = s.flash := rfl
@[simp] theorem State.setWord_out (off : Nat) (w : Word) : (s.setWord off w).out = s.out := rfl
@[simp] theorem State.setWord_free (off : Nat) (w : Word) : (s.setWord off w).free = s.free := rfl
@[simp] theorem State.setWord_tick (off : Nat) (w : Word) : (s.setWord off w).tick = s.tick := rfl
@[simp] theorem State.setWord_adc (off : Nat) (w : Word) : (s.setWord off w).adc = s.adc := rfl
@[simp] theorem State.setWord_busData (off : Nat) (w : Word) : (s.setWord off w).busData = s.busData := rfl
@[simp] theorem State.setWord_tb (off : Nat) (w : Word) : (s.setWord off w).tb = s.tb := rfl
@[simp] theorem State.setWord_caps (off : Nat) (w : Word) : (s.setWord off w).caps = s.caps := rfl
@[simp] theorem State.setWord_tt (off : Nat) (w : Word) : (s.setWord off w).tt = s.tt := rfl
@[simp] theorem State.setWord_ports (off : Nat) (w : Word) : (s.setWord off w).ports = s.ports := rfl
@[simp] theorem State.setWord_arb (off : Nat) (w : Word) : (s.setWord off w).arb = s.arb := rfl
@[simp] theorem State.setWord_evt (off : Nat) (w : Word) : (s.setWord off w).evt = s.evt := rfl
@[simp] theorem State.setWord_chains (off : Nat) (w : Word) : (s.setWord off w).chains = s.chains := rfl
@[simp] theorem State.setWord_ifc (off : Nat) (w : Word) : (s.setWord off w).ifc = s.ifc := rfl
@[simp] theorem State.setWord_fsm (off : Nat) (w : Word) : (s.setWord off w).fsm = s.fsm := rfl
@[simp] theorem State.setWord_trk (off : Nat) (w : Word) : (s.setWord off w).trk = s.trk := rfl
@[simp] theorem State.setWord_rings (off : Nat) (w : Word) : (s.setWord off w).rings = s.rings := rfl
@[simp] theorem State.setWord_published (off : Nat) (w : Word) : (s.setWord off w).published = s.published := rfl
@[simp] theorem State.setWord_nav (off : Nat) (w : Word) : (s.setWord off w).nav = s.nav := rfl
@[simp] theorem State.setWord_navFifo (off : Nat) (w : Word) : (s.setWord off w).navFifo = s.navFifo := rfl
@[simp] theorem State.setWord_navUnits (off : Nat) (w : Word) : (s.setWord off w).navUnits = s.navUnits := rfl
@[simp] theorem State.setWord_sieve (off : Nat) (w : Word) : (s.setWord off w).sieve = s.sieve := rfl
@[simp] theorem State.setWord_car (off : Nat) (w : Word) : (s.setWord off w).car = s.car := rfl
@[simp] theorem State.setWord_sky (off : Nat) (w : Word) : (s.setWord off w).sky = s.sky := rfl
@[simp] theorem State.setWord_tp (off : Nat) (w : Word) : (s.setWord off w).tp = s.tp := rfl
@[simp] theorem State.setWord_disc (off : Nat) (w : Word) : (s.setWord off w).disc = s.disc := rfl
@[simp] theorem State.setWord_twinPin (off : Nat) (w : Word) : (s.setWord off w).twinPin = s.twinPin := rfl
@[simp] theorem State.setWord_ck (off : Nat) (w : Word) : (s.setWord off w).ck = s.ck := rfl
@[simp] theorem State.setWord_bcn (off : Nat) (w : Word) : (s.setWord off w).bcn = s.bcn := rfl
@[simp] theorem State.setWord_seqs (off : Nat) (w : Word) : (s.setWord off w).seqs = s.seqs := rfl
@[simp] theorem State.setWord_hash (off : Nat) (w : Word) : (s.setWord off w).hash = s.hash := rfl
@[simp] theorem State.setWord_host (off : Nat) (w : Word) : (s.setWord off w).host = s.host := rfl
@[simp] theorem State.setWord_evAt (off : Nat) (w : Word) : (s.setWord off w).evAt = s.evAt := rfl
@[simp] theorem State.setWord_notif (off : Nat) (w : Word) : (s.setWord off w).notif = s.notif := rfl
@[simp] theorem State.setWord_copies (off : Nat) (w : Word) : (s.setWord off w).copies = s.copies := rfl
@[simp] theorem State.setWord_links (off : Nat) (w : Word) : (s.setWord off w).links = s.links := rfl
@[simp] theorem State.setWord_spim (off : Nat) (w : Word) : (s.setWord off w).spim = s.spim := rfl
@[simp] theorem State.setWord_spis (off : Nat) (w : Word) : (s.setWord off w).spis = s.spis := rfl
@[simp] theorem State.setWord_uarts (off : Nat) (w : Word) : (s.setWord off w).uarts = s.uarts := rfl
@[simp] theorem State.setWord_pu (off : Nat) (w : Word) : (s.setWord off w).pu = s.pu := rfl
@[simp] theorem State.setWord_dbg (off : Nat) (w : Word) : (s.setWord off w).dbg = s.dbg := rfl
@[simp] theorem State.setWord_sec (off : Nat) (w : Word) : (s.setWord off w).sec = s.sec := rfl
@[simp] theorem State.setWord_budget (off : Nat) (w : Word) : (s.setWord off w).budget = s.budget := rfl
@[simp] theorem State.setWord_pwr (off : Nat) (w : Word) : (s.setWord off w).pwr = s.pwr := rfl

/-! setFld changes regs alone. -/

@[simp] theorem State.setFld_pending (f : Fld) (v : Nat) : (s.setFld f v).pending = s.pending := rfl
@[simp] theorem State.setFld_mem (f : Fld) (v : Nat) : (s.setFld f v).mem = s.mem := rfl
@[simp] theorem State.setFld_ram (f : Fld) (v : Nat) : (s.setFld f v).ram = s.ram := rfl
@[simp] theorem State.setFld_hostMem (f : Fld) (v : Nat) : (s.setFld f v).hostMem = s.hostMem := rfl
@[simp] theorem State.setFld_flash (f : Fld) (v : Nat) : (s.setFld f v).flash = s.flash := rfl
@[simp] theorem State.setFld_out (f : Fld) (v : Nat) : (s.setFld f v).out = s.out := rfl
@[simp] theorem State.setFld_free (f : Fld) (v : Nat) : (s.setFld f v).free = s.free := rfl
@[simp] theorem State.setFld_tick (f : Fld) (v : Nat) : (s.setFld f v).tick = s.tick := rfl
@[simp] theorem State.setFld_adc (f : Fld) (v : Nat) : (s.setFld f v).adc = s.adc := rfl
@[simp] theorem State.setFld_busData (f : Fld) (v : Nat) : (s.setFld f v).busData = s.busData := rfl
@[simp] theorem State.setFld_tb (f : Fld) (v : Nat) : (s.setFld f v).tb = s.tb := rfl
@[simp] theorem State.setFld_caps (f : Fld) (v : Nat) : (s.setFld f v).caps = s.caps := rfl
@[simp] theorem State.setFld_tt (f : Fld) (v : Nat) : (s.setFld f v).tt = s.tt := rfl
@[simp] theorem State.setFld_ports (f : Fld) (v : Nat) : (s.setFld f v).ports = s.ports := rfl
@[simp] theorem State.setFld_arb (f : Fld) (v : Nat) : (s.setFld f v).arb = s.arb := rfl
@[simp] theorem State.setFld_evt (f : Fld) (v : Nat) : (s.setFld f v).evt = s.evt := rfl
@[simp] theorem State.setFld_chains (f : Fld) (v : Nat) : (s.setFld f v).chains = s.chains := rfl
@[simp] theorem State.setFld_ifc (f : Fld) (v : Nat) : (s.setFld f v).ifc = s.ifc := rfl
@[simp] theorem State.setFld_fsm (f : Fld) (v : Nat) : (s.setFld f v).fsm = s.fsm := rfl
@[simp] theorem State.setFld_trk (f : Fld) (v : Nat) : (s.setFld f v).trk = s.trk := rfl
@[simp] theorem State.setFld_rings (f : Fld) (v : Nat) : (s.setFld f v).rings = s.rings := rfl
@[simp] theorem State.setFld_published (f : Fld) (v : Nat) : (s.setFld f v).published = s.published := rfl
@[simp] theorem State.setFld_nav (f : Fld) (v : Nat) : (s.setFld f v).nav = s.nav := rfl
@[simp] theorem State.setFld_navFifo (f : Fld) (v : Nat) : (s.setFld f v).navFifo = s.navFifo := rfl
@[simp] theorem State.setFld_navUnits (f : Fld) (v : Nat) : (s.setFld f v).navUnits = s.navUnits := rfl
@[simp] theorem State.setFld_sieve (f : Fld) (v : Nat) : (s.setFld f v).sieve = s.sieve := rfl
@[simp] theorem State.setFld_car (f : Fld) (v : Nat) : (s.setFld f v).car = s.car := rfl
@[simp] theorem State.setFld_sky (f : Fld) (v : Nat) : (s.setFld f v).sky = s.sky := rfl
@[simp] theorem State.setFld_tp (f : Fld) (v : Nat) : (s.setFld f v).tp = s.tp := rfl
@[simp] theorem State.setFld_disc (f : Fld) (v : Nat) : (s.setFld f v).disc = s.disc := rfl
@[simp] theorem State.setFld_twinPin (f : Fld) (v : Nat) : (s.setFld f v).twinPin = s.twinPin := rfl
@[simp] theorem State.setFld_ck (f : Fld) (v : Nat) : (s.setFld f v).ck = s.ck := rfl
@[simp] theorem State.setFld_bcn (f : Fld) (v : Nat) : (s.setFld f v).bcn = s.bcn := rfl
@[simp] theorem State.setFld_seqs (f : Fld) (v : Nat) : (s.setFld f v).seqs = s.seqs := rfl
@[simp] theorem State.setFld_hash (f : Fld) (v : Nat) : (s.setFld f v).hash = s.hash := rfl
@[simp] theorem State.setFld_host (f : Fld) (v : Nat) : (s.setFld f v).host = s.host := rfl
@[simp] theorem State.setFld_evAt (f : Fld) (v : Nat) : (s.setFld f v).evAt = s.evAt := rfl
@[simp] theorem State.setFld_notif (f : Fld) (v : Nat) : (s.setFld f v).notif = s.notif := rfl
@[simp] theorem State.setFld_copies (f : Fld) (v : Nat) : (s.setFld f v).copies = s.copies := rfl
@[simp] theorem State.setFld_links (f : Fld) (v : Nat) : (s.setFld f v).links = s.links := rfl
@[simp] theorem State.setFld_spim (f : Fld) (v : Nat) : (s.setFld f v).spim = s.spim := rfl
@[simp] theorem State.setFld_spis (f : Fld) (v : Nat) : (s.setFld f v).spis = s.spis := rfl
@[simp] theorem State.setFld_uarts (f : Fld) (v : Nat) : (s.setFld f v).uarts = s.uarts := rfl
@[simp] theorem State.setFld_pu (f : Fld) (v : Nat) : (s.setFld f v).pu = s.pu := rfl
@[simp] theorem State.setFld_dbg (f : Fld) (v : Nat) : (s.setFld f v).dbg = s.dbg := rfl
@[simp] theorem State.setFld_sec (f : Fld) (v : Nat) : (s.setFld f v).sec = s.sec := rfl
@[simp] theorem State.setFld_budget (f : Fld) (v : Nat) : (s.setFld f v).budget = s.budget := rfl
@[simp] theorem State.setFld_pwr (f : Fld) (v : Nat) : (s.setFld f v).pwr = s.pwr := rfl

/-! setBit changes regs alone. -/

@[simp] theorem State.setBit_pending (f : Fld) (b : Bool) : (s.setBit f b).pending = s.pending := rfl
@[simp] theorem State.setBit_mem (f : Fld) (b : Bool) : (s.setBit f b).mem = s.mem := rfl
@[simp] theorem State.setBit_ram (f : Fld) (b : Bool) : (s.setBit f b).ram = s.ram := rfl
@[simp] theorem State.setBit_hostMem (f : Fld) (b : Bool) : (s.setBit f b).hostMem = s.hostMem := rfl
@[simp] theorem State.setBit_flash (f : Fld) (b : Bool) : (s.setBit f b).flash = s.flash := rfl
@[simp] theorem State.setBit_out (f : Fld) (b : Bool) : (s.setBit f b).out = s.out := rfl
@[simp] theorem State.setBit_free (f : Fld) (b : Bool) : (s.setBit f b).free = s.free := rfl
@[simp] theorem State.setBit_tick (f : Fld) (b : Bool) : (s.setBit f b).tick = s.tick := rfl
@[simp] theorem State.setBit_adc (f : Fld) (b : Bool) : (s.setBit f b).adc = s.adc := rfl
@[simp] theorem State.setBit_busData (f : Fld) (b : Bool) : (s.setBit f b).busData = s.busData := rfl
@[simp] theorem State.setBit_tb (f : Fld) (b : Bool) : (s.setBit f b).tb = s.tb := rfl
@[simp] theorem State.setBit_caps (f : Fld) (b : Bool) : (s.setBit f b).caps = s.caps := rfl
@[simp] theorem State.setBit_tt (f : Fld) (b : Bool) : (s.setBit f b).tt = s.tt := rfl
@[simp] theorem State.setBit_ports (f : Fld) (b : Bool) : (s.setBit f b).ports = s.ports := rfl
@[simp] theorem State.setBit_arb (f : Fld) (b : Bool) : (s.setBit f b).arb = s.arb := rfl
@[simp] theorem State.setBit_evt (f : Fld) (b : Bool) : (s.setBit f b).evt = s.evt := rfl
@[simp] theorem State.setBit_chains (f : Fld) (b : Bool) : (s.setBit f b).chains = s.chains := rfl
@[simp] theorem State.setBit_ifc (f : Fld) (b : Bool) : (s.setBit f b).ifc = s.ifc := rfl
@[simp] theorem State.setBit_fsm (f : Fld) (b : Bool) : (s.setBit f b).fsm = s.fsm := rfl
@[simp] theorem State.setBit_trk (f : Fld) (b : Bool) : (s.setBit f b).trk = s.trk := rfl
@[simp] theorem State.setBit_rings (f : Fld) (b : Bool) : (s.setBit f b).rings = s.rings := rfl
@[simp] theorem State.setBit_published (f : Fld) (b : Bool) : (s.setBit f b).published = s.published := rfl
@[simp] theorem State.setBit_nav (f : Fld) (b : Bool) : (s.setBit f b).nav = s.nav := rfl
@[simp] theorem State.setBit_navFifo (f : Fld) (b : Bool) : (s.setBit f b).navFifo = s.navFifo := rfl
@[simp] theorem State.setBit_navUnits (f : Fld) (b : Bool) : (s.setBit f b).navUnits = s.navUnits := rfl
@[simp] theorem State.setBit_sieve (f : Fld) (b : Bool) : (s.setBit f b).sieve = s.sieve := rfl
@[simp] theorem State.setBit_car (f : Fld) (b : Bool) : (s.setBit f b).car = s.car := rfl
@[simp] theorem State.setBit_sky (f : Fld) (b : Bool) : (s.setBit f b).sky = s.sky := rfl
@[simp] theorem State.setBit_tp (f : Fld) (b : Bool) : (s.setBit f b).tp = s.tp := rfl
@[simp] theorem State.setBit_disc (f : Fld) (b : Bool) : (s.setBit f b).disc = s.disc := rfl
@[simp] theorem State.setBit_twinPin (f : Fld) (b : Bool) : (s.setBit f b).twinPin = s.twinPin := rfl
@[simp] theorem State.setBit_ck (f : Fld) (b : Bool) : (s.setBit f b).ck = s.ck := rfl
@[simp] theorem State.setBit_bcn (f : Fld) (b : Bool) : (s.setBit f b).bcn = s.bcn := rfl
@[simp] theorem State.setBit_seqs (f : Fld) (b : Bool) : (s.setBit f b).seqs = s.seqs := rfl
@[simp] theorem State.setBit_hash (f : Fld) (b : Bool) : (s.setBit f b).hash = s.hash := rfl
@[simp] theorem State.setBit_host (f : Fld) (b : Bool) : (s.setBit f b).host = s.host := rfl
@[simp] theorem State.setBit_evAt (f : Fld) (b : Bool) : (s.setBit f b).evAt = s.evAt := rfl
@[simp] theorem State.setBit_notif (f : Fld) (b : Bool) : (s.setBit f b).notif = s.notif := rfl
@[simp] theorem State.setBit_copies (f : Fld) (b : Bool) : (s.setBit f b).copies = s.copies := rfl
@[simp] theorem State.setBit_links (f : Fld) (b : Bool) : (s.setBit f b).links = s.links := rfl
@[simp] theorem State.setBit_spim (f : Fld) (b : Bool) : (s.setBit f b).spim = s.spim := rfl
@[simp] theorem State.setBit_spis (f : Fld) (b : Bool) : (s.setBit f b).spis = s.spis := rfl
@[simp] theorem State.setBit_uarts (f : Fld) (b : Bool) : (s.setBit f b).uarts = s.uarts := rfl
@[simp] theorem State.setBit_pu (f : Fld) (b : Bool) : (s.setBit f b).pu = s.pu := rfl
@[simp] theorem State.setBit_dbg (f : Fld) (b : Bool) : (s.setBit f b).dbg = s.dbg := rfl
@[simp] theorem State.setBit_sec (f : Fld) (b : Bool) : (s.setBit f b).sec = s.sec := rfl
@[simp] theorem State.setBit_budget (f : Fld) (b : Bool) : (s.setBit f b).budget = s.budget := rfl
@[simp] theorem State.setBit_pwr (f : Fld) (b : Bool) : (s.setBit f b).pwr = s.pwr := rfl

/-! setMaskBit changes regs alone. -/

@[simp] theorem State.setMaskBit_pending (off i : Nat) (b : Bool) : (s.setMaskBit off i b).pending = s.pending := rfl
@[simp] theorem State.setMaskBit_mem (off i : Nat) (b : Bool) : (s.setMaskBit off i b).mem = s.mem := rfl
@[simp] theorem State.setMaskBit_ram (off i : Nat) (b : Bool) : (s.setMaskBit off i b).ram = s.ram := rfl
@[simp] theorem State.setMaskBit_hostMem (off i : Nat) (b : Bool) : (s.setMaskBit off i b).hostMem = s.hostMem := rfl
@[simp] theorem State.setMaskBit_flash (off i : Nat) (b : Bool) : (s.setMaskBit off i b).flash = s.flash := rfl
@[simp] theorem State.setMaskBit_out (off i : Nat) (b : Bool) : (s.setMaskBit off i b).out = s.out := rfl
@[simp] theorem State.setMaskBit_free (off i : Nat) (b : Bool) : (s.setMaskBit off i b).free = s.free := rfl
@[simp] theorem State.setMaskBit_tick (off i : Nat) (b : Bool) : (s.setMaskBit off i b).tick = s.tick := rfl
@[simp] theorem State.setMaskBit_adc (off i : Nat) (b : Bool) : (s.setMaskBit off i b).adc = s.adc := rfl
@[simp] theorem State.setMaskBit_busData (off i : Nat) (b : Bool) : (s.setMaskBit off i b).busData = s.busData := rfl
@[simp] theorem State.setMaskBit_tb (off i : Nat) (b : Bool) : (s.setMaskBit off i b).tb = s.tb := rfl
@[simp] theorem State.setMaskBit_caps (off i : Nat) (b : Bool) : (s.setMaskBit off i b).caps = s.caps := rfl
@[simp] theorem State.setMaskBit_tt (off i : Nat) (b : Bool) : (s.setMaskBit off i b).tt = s.tt := rfl
@[simp] theorem State.setMaskBit_ports (off i : Nat) (b : Bool) : (s.setMaskBit off i b).ports = s.ports := rfl
@[simp] theorem State.setMaskBit_arb (off i : Nat) (b : Bool) : (s.setMaskBit off i b).arb = s.arb := rfl
@[simp] theorem State.setMaskBit_evt (off i : Nat) (b : Bool) : (s.setMaskBit off i b).evt = s.evt := rfl
@[simp] theorem State.setMaskBit_chains (off i : Nat) (b : Bool) : (s.setMaskBit off i b).chains = s.chains := rfl
@[simp] theorem State.setMaskBit_ifc (off i : Nat) (b : Bool) : (s.setMaskBit off i b).ifc = s.ifc := rfl
@[simp] theorem State.setMaskBit_fsm (off i : Nat) (b : Bool) : (s.setMaskBit off i b).fsm = s.fsm := rfl
@[simp] theorem State.setMaskBit_trk (off i : Nat) (b : Bool) : (s.setMaskBit off i b).trk = s.trk := rfl
@[simp] theorem State.setMaskBit_rings (off i : Nat) (b : Bool) : (s.setMaskBit off i b).rings = s.rings := rfl
@[simp] theorem State.setMaskBit_published (off i : Nat) (b : Bool) : (s.setMaskBit off i b).published = s.published := rfl
@[simp] theorem State.setMaskBit_nav (off i : Nat) (b : Bool) : (s.setMaskBit off i b).nav = s.nav := rfl
@[simp] theorem State.setMaskBit_navFifo (off i : Nat) (b : Bool) : (s.setMaskBit off i b).navFifo = s.navFifo := rfl
@[simp] theorem State.setMaskBit_navUnits (off i : Nat) (b : Bool) : (s.setMaskBit off i b).navUnits = s.navUnits := rfl
@[simp] theorem State.setMaskBit_sieve (off i : Nat) (b : Bool) : (s.setMaskBit off i b).sieve = s.sieve := rfl
@[simp] theorem State.setMaskBit_car (off i : Nat) (b : Bool) : (s.setMaskBit off i b).car = s.car := rfl
@[simp] theorem State.setMaskBit_sky (off i : Nat) (b : Bool) : (s.setMaskBit off i b).sky = s.sky := rfl
@[simp] theorem State.setMaskBit_tp (off i : Nat) (b : Bool) : (s.setMaskBit off i b).tp = s.tp := rfl
@[simp] theorem State.setMaskBit_disc (off i : Nat) (b : Bool) : (s.setMaskBit off i b).disc = s.disc := rfl
@[simp] theorem State.setMaskBit_twinPin (off i : Nat) (b : Bool) : (s.setMaskBit off i b).twinPin = s.twinPin := rfl
@[simp] theorem State.setMaskBit_ck (off i : Nat) (b : Bool) : (s.setMaskBit off i b).ck = s.ck := rfl
@[simp] theorem State.setMaskBit_bcn (off i : Nat) (b : Bool) : (s.setMaskBit off i b).bcn = s.bcn := rfl
@[simp] theorem State.setMaskBit_seqs (off i : Nat) (b : Bool) : (s.setMaskBit off i b).seqs = s.seqs := rfl
@[simp] theorem State.setMaskBit_hash (off i : Nat) (b : Bool) : (s.setMaskBit off i b).hash = s.hash := rfl
@[simp] theorem State.setMaskBit_host (off i : Nat) (b : Bool) : (s.setMaskBit off i b).host = s.host := rfl
@[simp] theorem State.setMaskBit_evAt (off i : Nat) (b : Bool) : (s.setMaskBit off i b).evAt = s.evAt := rfl
@[simp] theorem State.setMaskBit_notif (off i : Nat) (b : Bool) : (s.setMaskBit off i b).notif = s.notif := rfl
@[simp] theorem State.setMaskBit_copies (off i : Nat) (b : Bool) : (s.setMaskBit off i b).copies = s.copies := rfl
@[simp] theorem State.setMaskBit_links (off i : Nat) (b : Bool) : (s.setMaskBit off i b).links = s.links := rfl
@[simp] theorem State.setMaskBit_spim (off i : Nat) (b : Bool) : (s.setMaskBit off i b).spim = s.spim := rfl
@[simp] theorem State.setMaskBit_spis (off i : Nat) (b : Bool) : (s.setMaskBit off i b).spis = s.spis := rfl
@[simp] theorem State.setMaskBit_uarts (off i : Nat) (b : Bool) : (s.setMaskBit off i b).uarts = s.uarts := rfl
@[simp] theorem State.setMaskBit_pu (off i : Nat) (b : Bool) : (s.setMaskBit off i b).pu = s.pu := rfl
@[simp] theorem State.setMaskBit_dbg (off i : Nat) (b : Bool) : (s.setMaskBit off i b).dbg = s.dbg := rfl
@[simp] theorem State.setMaskBit_sec (off i : Nat) (b : Bool) : (s.setMaskBit off i b).sec = s.sec := rfl
@[simp] theorem State.setMaskBit_budget (off i : Nat) (b : Bool) : (s.setMaskBit off i b).budget = s.budget := rfl
@[simp] theorem State.setMaskBit_pwr (off i : Nat) (b : Bool) : (s.setMaskBit off i b).pwr = s.pwr := rfl

/-! setMemByte changes mem alone. -/

@[simp] theorem State.setMemByte_pending (a : Nat) (v : Byte) : (s.setMemByte a v).pending = s.pending := rfl
@[simp] theorem State.setMemByte_regs (a : Nat) (v : Byte) : (s.setMemByte a v).regs = s.regs := rfl
@[simp] theorem State.setMemByte_ram (a : Nat) (v : Byte) : (s.setMemByte a v).ram = s.ram := rfl
@[simp] theorem State.setMemByte_hostMem (a : Nat) (v : Byte) : (s.setMemByte a v).hostMem = s.hostMem := rfl
@[simp] theorem State.setMemByte_flash (a : Nat) (v : Byte) : (s.setMemByte a v).flash = s.flash := rfl
@[simp] theorem State.setMemByte_out (a : Nat) (v : Byte) : (s.setMemByte a v).out = s.out := rfl
@[simp] theorem State.setMemByte_free (a : Nat) (v : Byte) : (s.setMemByte a v).free = s.free := rfl
@[simp] theorem State.setMemByte_tick (a : Nat) (v : Byte) : (s.setMemByte a v).tick = s.tick := rfl
@[simp] theorem State.setMemByte_adc (a : Nat) (v : Byte) : (s.setMemByte a v).adc = s.adc := rfl
@[simp] theorem State.setMemByte_busData (a : Nat) (v : Byte) : (s.setMemByte a v).busData = s.busData := rfl
@[simp] theorem State.setMemByte_tb (a : Nat) (v : Byte) : (s.setMemByte a v).tb = s.tb := rfl
@[simp] theorem State.setMemByte_caps (a : Nat) (v : Byte) : (s.setMemByte a v).caps = s.caps := rfl
@[simp] theorem State.setMemByte_tt (a : Nat) (v : Byte) : (s.setMemByte a v).tt = s.tt := rfl
@[simp] theorem State.setMemByte_ports (a : Nat) (v : Byte) : (s.setMemByte a v).ports = s.ports := rfl
@[simp] theorem State.setMemByte_arb (a : Nat) (v : Byte) : (s.setMemByte a v).arb = s.arb := rfl
@[simp] theorem State.setMemByte_evt (a : Nat) (v : Byte) : (s.setMemByte a v).evt = s.evt := rfl
@[simp] theorem State.setMemByte_chains (a : Nat) (v : Byte) : (s.setMemByte a v).chains = s.chains := rfl
@[simp] theorem State.setMemByte_ifc (a : Nat) (v : Byte) : (s.setMemByte a v).ifc = s.ifc := rfl
@[simp] theorem State.setMemByte_fsm (a : Nat) (v : Byte) : (s.setMemByte a v).fsm = s.fsm := rfl
@[simp] theorem State.setMemByte_trk (a : Nat) (v : Byte) : (s.setMemByte a v).trk = s.trk := rfl
@[simp] theorem State.setMemByte_rings (a : Nat) (v : Byte) : (s.setMemByte a v).rings = s.rings := rfl
@[simp] theorem State.setMemByte_published (a : Nat) (v : Byte) : (s.setMemByte a v).published = s.published := rfl
@[simp] theorem State.setMemByte_nav (a : Nat) (v : Byte) : (s.setMemByte a v).nav = s.nav := rfl
@[simp] theorem State.setMemByte_navFifo (a : Nat) (v : Byte) : (s.setMemByte a v).navFifo = s.navFifo := rfl
@[simp] theorem State.setMemByte_navUnits (a : Nat) (v : Byte) : (s.setMemByte a v).navUnits = s.navUnits := rfl
@[simp] theorem State.setMemByte_sieve (a : Nat) (v : Byte) : (s.setMemByte a v).sieve = s.sieve := rfl
@[simp] theorem State.setMemByte_car (a : Nat) (v : Byte) : (s.setMemByte a v).car = s.car := rfl
@[simp] theorem State.setMemByte_sky (a : Nat) (v : Byte) : (s.setMemByte a v).sky = s.sky := rfl
@[simp] theorem State.setMemByte_tp (a : Nat) (v : Byte) : (s.setMemByte a v).tp = s.tp := rfl
@[simp] theorem State.setMemByte_disc (a : Nat) (v : Byte) : (s.setMemByte a v).disc = s.disc := rfl
@[simp] theorem State.setMemByte_twinPin (a : Nat) (v : Byte) : (s.setMemByte a v).twinPin = s.twinPin := rfl
@[simp] theorem State.setMemByte_ck (a : Nat) (v : Byte) : (s.setMemByte a v).ck = s.ck := rfl
@[simp] theorem State.setMemByte_bcn (a : Nat) (v : Byte) : (s.setMemByte a v).bcn = s.bcn := rfl
@[simp] theorem State.setMemByte_seqs (a : Nat) (v : Byte) : (s.setMemByte a v).seqs = s.seqs := rfl
@[simp] theorem State.setMemByte_hash (a : Nat) (v : Byte) : (s.setMemByte a v).hash = s.hash := rfl
@[simp] theorem State.setMemByte_host (a : Nat) (v : Byte) : (s.setMemByte a v).host = s.host := rfl
@[simp] theorem State.setMemByte_evAt (a : Nat) (v : Byte) : (s.setMemByte a v).evAt = s.evAt := rfl
@[simp] theorem State.setMemByte_notif (a : Nat) (v : Byte) : (s.setMemByte a v).notif = s.notif := rfl
@[simp] theorem State.setMemByte_copies (a : Nat) (v : Byte) : (s.setMemByte a v).copies = s.copies := rfl
@[simp] theorem State.setMemByte_links (a : Nat) (v : Byte) : (s.setMemByte a v).links = s.links := rfl
@[simp] theorem State.setMemByte_spim (a : Nat) (v : Byte) : (s.setMemByte a v).spim = s.spim := rfl
@[simp] theorem State.setMemByte_spis (a : Nat) (v : Byte) : (s.setMemByte a v).spis = s.spis := rfl
@[simp] theorem State.setMemByte_uarts (a : Nat) (v : Byte) : (s.setMemByte a v).uarts = s.uarts := rfl
@[simp] theorem State.setMemByte_pu (a : Nat) (v : Byte) : (s.setMemByte a v).pu = s.pu := rfl
@[simp] theorem State.setMemByte_dbg (a : Nat) (v : Byte) : (s.setMemByte a v).dbg = s.dbg := rfl
@[simp] theorem State.setMemByte_sec (a : Nat) (v : Byte) : (s.setMemByte a v).sec = s.sec := rfl
@[simp] theorem State.setMemByte_budget (a : Nat) (v : Byte) : (s.setMemByte a v).budget = s.budget := rfl
@[simp] theorem State.setMemByte_pwr (a : Nat) (v : Byte) : (s.setMemByte a v).pwr = s.pwr := rfl

/-! setMemBytes changes mem alone. -/

@[simp] theorem State.setMemBytes_pending (a : Nat) (bs : List Byte) : (s.setMemBytes a bs).pending = s.pending := rfl
@[simp] theorem State.setMemBytes_regs (a : Nat) (bs : List Byte) : (s.setMemBytes a bs).regs = s.regs := rfl
@[simp] theorem State.setMemBytes_ram (a : Nat) (bs : List Byte) : (s.setMemBytes a bs).ram = s.ram := rfl
@[simp] theorem State.setMemBytes_hostMem (a : Nat) (bs : List Byte) : (s.setMemBytes a bs).hostMem = s.hostMem := rfl
@[simp] theorem State.setMemBytes_flash (a : Nat) (bs : List Byte) : (s.setMemBytes a bs).flash = s.flash := rfl
@[simp] theorem State.setMemBytes_out (a : Nat) (bs : List Byte) : (s.setMemBytes a bs).out = s.out := rfl
@[simp] theorem State.setMemBytes_free (a : Nat) (bs : List Byte) : (s.setMemBytes a bs).free = s.free := rfl
@[simp] theorem State.setMemBytes_tick (a : Nat) (bs : List Byte) : (s.setMemBytes a bs).tick = s.tick := rfl
@[simp] theorem State.setMemBytes_adc (a : Nat) (bs : List Byte) : (s.setMemBytes a bs).adc = s.adc := rfl
@[simp] theorem State.setMemBytes_busData (a : Nat) (bs : List Byte) : (s.setMemBytes a bs).busData = s.busData := rfl
@[simp] theorem State.setMemBytes_tb (a : Nat) (bs : List Byte) : (s.setMemBytes a bs).tb = s.tb := rfl
@[simp] theorem State.setMemBytes_caps (a : Nat) (bs : List Byte) : (s.setMemBytes a bs).caps = s.caps := rfl
@[simp] theorem State.setMemBytes_tt (a : Nat) (bs : List Byte) : (s.setMemBytes a bs).tt = s.tt := rfl
@[simp] theorem State.setMemBytes_ports (a : Nat) (bs : List Byte) : (s.setMemBytes a bs).ports = s.ports := rfl
@[simp] theorem State.setMemBytes_arb (a : Nat) (bs : List Byte) : (s.setMemBytes a bs).arb = s.arb := rfl
@[simp] theorem State.setMemBytes_evt (a : Nat) (bs : List Byte) : (s.setMemBytes a bs).evt = s.evt := rfl
@[simp] theorem State.setMemBytes_chains (a : Nat) (bs : List Byte) : (s.setMemBytes a bs).chains = s.chains := rfl
@[simp] theorem State.setMemBytes_ifc (a : Nat) (bs : List Byte) : (s.setMemBytes a bs).ifc = s.ifc := rfl
@[simp] theorem State.setMemBytes_fsm (a : Nat) (bs : List Byte) : (s.setMemBytes a bs).fsm = s.fsm := rfl
@[simp] theorem State.setMemBytes_trk (a : Nat) (bs : List Byte) : (s.setMemBytes a bs).trk = s.trk := rfl
@[simp] theorem State.setMemBytes_rings (a : Nat) (bs : List Byte) : (s.setMemBytes a bs).rings = s.rings := rfl
@[simp] theorem State.setMemBytes_published (a : Nat) (bs : List Byte) : (s.setMemBytes a bs).published = s.published := rfl
@[simp] theorem State.setMemBytes_nav (a : Nat) (bs : List Byte) : (s.setMemBytes a bs).nav = s.nav := rfl
@[simp] theorem State.setMemBytes_navFifo (a : Nat) (bs : List Byte) : (s.setMemBytes a bs).navFifo = s.navFifo := rfl
@[simp] theorem State.setMemBytes_navUnits (a : Nat) (bs : List Byte) : (s.setMemBytes a bs).navUnits = s.navUnits := rfl
@[simp] theorem State.setMemBytes_sieve (a : Nat) (bs : List Byte) : (s.setMemBytes a bs).sieve = s.sieve := rfl
@[simp] theorem State.setMemBytes_car (a : Nat) (bs : List Byte) : (s.setMemBytes a bs).car = s.car := rfl
@[simp] theorem State.setMemBytes_sky (a : Nat) (bs : List Byte) : (s.setMemBytes a bs).sky = s.sky := rfl
@[simp] theorem State.setMemBytes_tp (a : Nat) (bs : List Byte) : (s.setMemBytes a bs).tp = s.tp := rfl
@[simp] theorem State.setMemBytes_disc (a : Nat) (bs : List Byte) : (s.setMemBytes a bs).disc = s.disc := rfl
@[simp] theorem State.setMemBytes_twinPin (a : Nat) (bs : List Byte) : (s.setMemBytes a bs).twinPin = s.twinPin := rfl
@[simp] theorem State.setMemBytes_ck (a : Nat) (bs : List Byte) : (s.setMemBytes a bs).ck = s.ck := rfl
@[simp] theorem State.setMemBytes_bcn (a : Nat) (bs : List Byte) : (s.setMemBytes a bs).bcn = s.bcn := rfl
@[simp] theorem State.setMemBytes_seqs (a : Nat) (bs : List Byte) : (s.setMemBytes a bs).seqs = s.seqs := rfl
@[simp] theorem State.setMemBytes_hash (a : Nat) (bs : List Byte) : (s.setMemBytes a bs).hash = s.hash := rfl
@[simp] theorem State.setMemBytes_host (a : Nat) (bs : List Byte) : (s.setMemBytes a bs).host = s.host := rfl
@[simp] theorem State.setMemBytes_evAt (a : Nat) (bs : List Byte) : (s.setMemBytes a bs).evAt = s.evAt := rfl
@[simp] theorem State.setMemBytes_notif (a : Nat) (bs : List Byte) : (s.setMemBytes a bs).notif = s.notif := rfl
@[simp] theorem State.setMemBytes_copies (a : Nat) (bs : List Byte) : (s.setMemBytes a bs).copies = s.copies := rfl
@[simp] theorem State.setMemBytes_links (a : Nat) (bs : List Byte) : (s.setMemBytes a bs).links = s.links := rfl
@[simp] theorem State.setMemBytes_spim (a : Nat) (bs : List Byte) : (s.setMemBytes a bs).spim = s.spim := rfl
@[simp] theorem State.setMemBytes_spis (a : Nat) (bs : List Byte) : (s.setMemBytes a bs).spis = s.spis := rfl
@[simp] theorem State.setMemBytes_uarts (a : Nat) (bs : List Byte) : (s.setMemBytes a bs).uarts = s.uarts := rfl
@[simp] theorem State.setMemBytes_pu (a : Nat) (bs : List Byte) : (s.setMemBytes a bs).pu = s.pu := rfl
@[simp] theorem State.setMemBytes_dbg (a : Nat) (bs : List Byte) : (s.setMemBytes a bs).dbg = s.dbg := rfl
@[simp] theorem State.setMemBytes_sec (a : Nat) (bs : List Byte) : (s.setMemBytes a bs).sec = s.sec := rfl
@[simp] theorem State.setMemBytes_budget (a : Nat) (bs : List Byte) : (s.setMemBytes a bs).budget = s.budget := rfl
@[simp] theorem State.setMemBytes_pwr (a : Nat) (bs : List Byte) : (s.setMemBytes a bs).pwr = s.pwr := rfl

/-! setRamByte changes ram alone. -/

@[simp] theorem State.setRamByte_pending (a : Nat) (v : Byte) : (s.setRamByte a v).pending = s.pending := rfl
@[simp] theorem State.setRamByte_regs (a : Nat) (v : Byte) : (s.setRamByte a v).regs = s.regs := rfl
@[simp] theorem State.setRamByte_mem (a : Nat) (v : Byte) : (s.setRamByte a v).mem = s.mem := rfl
@[simp] theorem State.setRamByte_hostMem (a : Nat) (v : Byte) : (s.setRamByte a v).hostMem = s.hostMem := rfl
@[simp] theorem State.setRamByte_flash (a : Nat) (v : Byte) : (s.setRamByte a v).flash = s.flash := rfl
@[simp] theorem State.setRamByte_out (a : Nat) (v : Byte) : (s.setRamByte a v).out = s.out := rfl
@[simp] theorem State.setRamByte_free (a : Nat) (v : Byte) : (s.setRamByte a v).free = s.free := rfl
@[simp] theorem State.setRamByte_tick (a : Nat) (v : Byte) : (s.setRamByte a v).tick = s.tick := rfl
@[simp] theorem State.setRamByte_adc (a : Nat) (v : Byte) : (s.setRamByte a v).adc = s.adc := rfl
@[simp] theorem State.setRamByte_busData (a : Nat) (v : Byte) : (s.setRamByte a v).busData = s.busData := rfl
@[simp] theorem State.setRamByte_tb (a : Nat) (v : Byte) : (s.setRamByte a v).tb = s.tb := rfl
@[simp] theorem State.setRamByte_caps (a : Nat) (v : Byte) : (s.setRamByte a v).caps = s.caps := rfl
@[simp] theorem State.setRamByte_tt (a : Nat) (v : Byte) : (s.setRamByte a v).tt = s.tt := rfl
@[simp] theorem State.setRamByte_ports (a : Nat) (v : Byte) : (s.setRamByte a v).ports = s.ports := rfl
@[simp] theorem State.setRamByte_arb (a : Nat) (v : Byte) : (s.setRamByte a v).arb = s.arb := rfl
@[simp] theorem State.setRamByte_evt (a : Nat) (v : Byte) : (s.setRamByte a v).evt = s.evt := rfl
@[simp] theorem State.setRamByte_chains (a : Nat) (v : Byte) : (s.setRamByte a v).chains = s.chains := rfl
@[simp] theorem State.setRamByte_ifc (a : Nat) (v : Byte) : (s.setRamByte a v).ifc = s.ifc := rfl
@[simp] theorem State.setRamByte_fsm (a : Nat) (v : Byte) : (s.setRamByte a v).fsm = s.fsm := rfl
@[simp] theorem State.setRamByte_trk (a : Nat) (v : Byte) : (s.setRamByte a v).trk = s.trk := rfl
@[simp] theorem State.setRamByte_rings (a : Nat) (v : Byte) : (s.setRamByte a v).rings = s.rings := rfl
@[simp] theorem State.setRamByte_published (a : Nat) (v : Byte) : (s.setRamByte a v).published = s.published := rfl
@[simp] theorem State.setRamByte_nav (a : Nat) (v : Byte) : (s.setRamByte a v).nav = s.nav := rfl
@[simp] theorem State.setRamByte_navFifo (a : Nat) (v : Byte) : (s.setRamByte a v).navFifo = s.navFifo := rfl
@[simp] theorem State.setRamByte_navUnits (a : Nat) (v : Byte) : (s.setRamByte a v).navUnits = s.navUnits := rfl
@[simp] theorem State.setRamByte_sieve (a : Nat) (v : Byte) : (s.setRamByte a v).sieve = s.sieve := rfl
@[simp] theorem State.setRamByte_car (a : Nat) (v : Byte) : (s.setRamByte a v).car = s.car := rfl
@[simp] theorem State.setRamByte_sky (a : Nat) (v : Byte) : (s.setRamByte a v).sky = s.sky := rfl
@[simp] theorem State.setRamByte_tp (a : Nat) (v : Byte) : (s.setRamByte a v).tp = s.tp := rfl
@[simp] theorem State.setRamByte_disc (a : Nat) (v : Byte) : (s.setRamByte a v).disc = s.disc := rfl
@[simp] theorem State.setRamByte_twinPin (a : Nat) (v : Byte) : (s.setRamByte a v).twinPin = s.twinPin := rfl
@[simp] theorem State.setRamByte_ck (a : Nat) (v : Byte) : (s.setRamByte a v).ck = s.ck := rfl
@[simp] theorem State.setRamByte_bcn (a : Nat) (v : Byte) : (s.setRamByte a v).bcn = s.bcn := rfl
@[simp] theorem State.setRamByte_seqs (a : Nat) (v : Byte) : (s.setRamByte a v).seqs = s.seqs := rfl
@[simp] theorem State.setRamByte_hash (a : Nat) (v : Byte) : (s.setRamByte a v).hash = s.hash := rfl
@[simp] theorem State.setRamByte_host (a : Nat) (v : Byte) : (s.setRamByte a v).host = s.host := rfl
@[simp] theorem State.setRamByte_evAt (a : Nat) (v : Byte) : (s.setRamByte a v).evAt = s.evAt := rfl
@[simp] theorem State.setRamByte_notif (a : Nat) (v : Byte) : (s.setRamByte a v).notif = s.notif := rfl
@[simp] theorem State.setRamByte_copies (a : Nat) (v : Byte) : (s.setRamByte a v).copies = s.copies := rfl
@[simp] theorem State.setRamByte_links (a : Nat) (v : Byte) : (s.setRamByte a v).links = s.links := rfl
@[simp] theorem State.setRamByte_spim (a : Nat) (v : Byte) : (s.setRamByte a v).spim = s.spim := rfl
@[simp] theorem State.setRamByte_spis (a : Nat) (v : Byte) : (s.setRamByte a v).spis = s.spis := rfl
@[simp] theorem State.setRamByte_uarts (a : Nat) (v : Byte) : (s.setRamByte a v).uarts = s.uarts := rfl
@[simp] theorem State.setRamByte_pu (a : Nat) (v : Byte) : (s.setRamByte a v).pu = s.pu := rfl
@[simp] theorem State.setRamByte_dbg (a : Nat) (v : Byte) : (s.setRamByte a v).dbg = s.dbg := rfl
@[simp] theorem State.setRamByte_sec (a : Nat) (v : Byte) : (s.setRamByte a v).sec = s.sec := rfl
@[simp] theorem State.setRamByte_budget (a : Nat) (v : Byte) : (s.setRamByte a v).budget = s.budget := rfl
@[simp] theorem State.setRamByte_pwr (a : Nat) (v : Byte) : (s.setRamByte a v).pwr = s.pwr := rfl

/-! setHostBytes changes hostMem alone. -/

@[simp] theorem State.setHostBytes_pending (a : Nat) (bs : List Byte) : (s.setHostBytes a bs).pending = s.pending := rfl
@[simp] theorem State.setHostBytes_regs (a : Nat) (bs : List Byte) : (s.setHostBytes a bs).regs = s.regs := rfl
@[simp] theorem State.setHostBytes_mem (a : Nat) (bs : List Byte) : (s.setHostBytes a bs).mem = s.mem := rfl
@[simp] theorem State.setHostBytes_ram (a : Nat) (bs : List Byte) : (s.setHostBytes a bs).ram = s.ram := rfl
@[simp] theorem State.setHostBytes_flash (a : Nat) (bs : List Byte) : (s.setHostBytes a bs).flash = s.flash := rfl
@[simp] theorem State.setHostBytes_out (a : Nat) (bs : List Byte) : (s.setHostBytes a bs).out = s.out := rfl
@[simp] theorem State.setHostBytes_free (a : Nat) (bs : List Byte) : (s.setHostBytes a bs).free = s.free := rfl
@[simp] theorem State.setHostBytes_tick (a : Nat) (bs : List Byte) : (s.setHostBytes a bs).tick = s.tick := rfl
@[simp] theorem State.setHostBytes_adc (a : Nat) (bs : List Byte) : (s.setHostBytes a bs).adc = s.adc := rfl
@[simp] theorem State.setHostBytes_busData (a : Nat) (bs : List Byte) : (s.setHostBytes a bs).busData = s.busData := rfl
@[simp] theorem State.setHostBytes_tb (a : Nat) (bs : List Byte) : (s.setHostBytes a bs).tb = s.tb := rfl
@[simp] theorem State.setHostBytes_caps (a : Nat) (bs : List Byte) : (s.setHostBytes a bs).caps = s.caps := rfl
@[simp] theorem State.setHostBytes_tt (a : Nat) (bs : List Byte) : (s.setHostBytes a bs).tt = s.tt := rfl
@[simp] theorem State.setHostBytes_ports (a : Nat) (bs : List Byte) : (s.setHostBytes a bs).ports = s.ports := rfl
@[simp] theorem State.setHostBytes_arb (a : Nat) (bs : List Byte) : (s.setHostBytes a bs).arb = s.arb := rfl
@[simp] theorem State.setHostBytes_evt (a : Nat) (bs : List Byte) : (s.setHostBytes a bs).evt = s.evt := rfl
@[simp] theorem State.setHostBytes_chains (a : Nat) (bs : List Byte) : (s.setHostBytes a bs).chains = s.chains := rfl
@[simp] theorem State.setHostBytes_ifc (a : Nat) (bs : List Byte) : (s.setHostBytes a bs).ifc = s.ifc := rfl
@[simp] theorem State.setHostBytes_fsm (a : Nat) (bs : List Byte) : (s.setHostBytes a bs).fsm = s.fsm := rfl
@[simp] theorem State.setHostBytes_trk (a : Nat) (bs : List Byte) : (s.setHostBytes a bs).trk = s.trk := rfl
@[simp] theorem State.setHostBytes_rings (a : Nat) (bs : List Byte) : (s.setHostBytes a bs).rings = s.rings := rfl
@[simp] theorem State.setHostBytes_published (a : Nat) (bs : List Byte) : (s.setHostBytes a bs).published = s.published := rfl
@[simp] theorem State.setHostBytes_nav (a : Nat) (bs : List Byte) : (s.setHostBytes a bs).nav = s.nav := rfl
@[simp] theorem State.setHostBytes_navFifo (a : Nat) (bs : List Byte) : (s.setHostBytes a bs).navFifo = s.navFifo := rfl
@[simp] theorem State.setHostBytes_navUnits (a : Nat) (bs : List Byte) : (s.setHostBytes a bs).navUnits = s.navUnits := rfl
@[simp] theorem State.setHostBytes_sieve (a : Nat) (bs : List Byte) : (s.setHostBytes a bs).sieve = s.sieve := rfl
@[simp] theorem State.setHostBytes_car (a : Nat) (bs : List Byte) : (s.setHostBytes a bs).car = s.car := rfl
@[simp] theorem State.setHostBytes_sky (a : Nat) (bs : List Byte) : (s.setHostBytes a bs).sky = s.sky := rfl
@[simp] theorem State.setHostBytes_tp (a : Nat) (bs : List Byte) : (s.setHostBytes a bs).tp = s.tp := rfl
@[simp] theorem State.setHostBytes_disc (a : Nat) (bs : List Byte) : (s.setHostBytes a bs).disc = s.disc := rfl
@[simp] theorem State.setHostBytes_twinPin (a : Nat) (bs : List Byte) : (s.setHostBytes a bs).twinPin = s.twinPin := rfl
@[simp] theorem State.setHostBytes_ck (a : Nat) (bs : List Byte) : (s.setHostBytes a bs).ck = s.ck := rfl
@[simp] theorem State.setHostBytes_bcn (a : Nat) (bs : List Byte) : (s.setHostBytes a bs).bcn = s.bcn := rfl
@[simp] theorem State.setHostBytes_seqs (a : Nat) (bs : List Byte) : (s.setHostBytes a bs).seqs = s.seqs := rfl
@[simp] theorem State.setHostBytes_hash (a : Nat) (bs : List Byte) : (s.setHostBytes a bs).hash = s.hash := rfl
@[simp] theorem State.setHostBytes_host (a : Nat) (bs : List Byte) : (s.setHostBytes a bs).host = s.host := rfl
@[simp] theorem State.setHostBytes_evAt (a : Nat) (bs : List Byte) : (s.setHostBytes a bs).evAt = s.evAt := rfl
@[simp] theorem State.setHostBytes_notif (a : Nat) (bs : List Byte) : (s.setHostBytes a bs).notif = s.notif := rfl
@[simp] theorem State.setHostBytes_copies (a : Nat) (bs : List Byte) : (s.setHostBytes a bs).copies = s.copies := rfl
@[simp] theorem State.setHostBytes_links (a : Nat) (bs : List Byte) : (s.setHostBytes a bs).links = s.links := rfl
@[simp] theorem State.setHostBytes_spim (a : Nat) (bs : List Byte) : (s.setHostBytes a bs).spim = s.spim := rfl
@[simp] theorem State.setHostBytes_spis (a : Nat) (bs : List Byte) : (s.setHostBytes a bs).spis = s.spis := rfl
@[simp] theorem State.setHostBytes_uarts (a : Nat) (bs : List Byte) : (s.setHostBytes a bs).uarts = s.uarts := rfl
@[simp] theorem State.setHostBytes_pu (a : Nat) (bs : List Byte) : (s.setHostBytes a bs).pu = s.pu := rfl
@[simp] theorem State.setHostBytes_dbg (a : Nat) (bs : List Byte) : (s.setHostBytes a bs).dbg = s.dbg := rfl
@[simp] theorem State.setHostBytes_sec (a : Nat) (bs : List Byte) : (s.setHostBytes a bs).sec = s.sec := rfl
@[simp] theorem State.setHostBytes_budget (a : Nat) (bs : List Byte) : (s.setHostBytes a bs).budget = s.budget := rfl
@[simp] theorem State.setHostBytes_pwr (a : Nat) (bs : List Byte) : (s.setHostBytes a bs).pwr = s.pwr := rfl

/-! setFlashBytes changes flash alone. -/

@[simp] theorem State.setFlashBytes_pending (a : Nat) (bs : List Byte) : (s.setFlashBytes a bs).pending = s.pending := rfl
@[simp] theorem State.setFlashBytes_regs (a : Nat) (bs : List Byte) : (s.setFlashBytes a bs).regs = s.regs := rfl
@[simp] theorem State.setFlashBytes_mem (a : Nat) (bs : List Byte) : (s.setFlashBytes a bs).mem = s.mem := rfl
@[simp] theorem State.setFlashBytes_ram (a : Nat) (bs : List Byte) : (s.setFlashBytes a bs).ram = s.ram := rfl
@[simp] theorem State.setFlashBytes_hostMem (a : Nat) (bs : List Byte) : (s.setFlashBytes a bs).hostMem = s.hostMem := rfl
@[simp] theorem State.setFlashBytes_out (a : Nat) (bs : List Byte) : (s.setFlashBytes a bs).out = s.out := rfl
@[simp] theorem State.setFlashBytes_free (a : Nat) (bs : List Byte) : (s.setFlashBytes a bs).free = s.free := rfl
@[simp] theorem State.setFlashBytes_tick (a : Nat) (bs : List Byte) : (s.setFlashBytes a bs).tick = s.tick := rfl
@[simp] theorem State.setFlashBytes_adc (a : Nat) (bs : List Byte) : (s.setFlashBytes a bs).adc = s.adc := rfl
@[simp] theorem State.setFlashBytes_busData (a : Nat) (bs : List Byte) : (s.setFlashBytes a bs).busData = s.busData := rfl
@[simp] theorem State.setFlashBytes_tb (a : Nat) (bs : List Byte) : (s.setFlashBytes a bs).tb = s.tb := rfl
@[simp] theorem State.setFlashBytes_caps (a : Nat) (bs : List Byte) : (s.setFlashBytes a bs).caps = s.caps := rfl
@[simp] theorem State.setFlashBytes_tt (a : Nat) (bs : List Byte) : (s.setFlashBytes a bs).tt = s.tt := rfl
@[simp] theorem State.setFlashBytes_ports (a : Nat) (bs : List Byte) : (s.setFlashBytes a bs).ports = s.ports := rfl
@[simp] theorem State.setFlashBytes_arb (a : Nat) (bs : List Byte) : (s.setFlashBytes a bs).arb = s.arb := rfl
@[simp] theorem State.setFlashBytes_evt (a : Nat) (bs : List Byte) : (s.setFlashBytes a bs).evt = s.evt := rfl
@[simp] theorem State.setFlashBytes_chains (a : Nat) (bs : List Byte) : (s.setFlashBytes a bs).chains = s.chains := rfl
@[simp] theorem State.setFlashBytes_ifc (a : Nat) (bs : List Byte) : (s.setFlashBytes a bs).ifc = s.ifc := rfl
@[simp] theorem State.setFlashBytes_fsm (a : Nat) (bs : List Byte) : (s.setFlashBytes a bs).fsm = s.fsm := rfl
@[simp] theorem State.setFlashBytes_trk (a : Nat) (bs : List Byte) : (s.setFlashBytes a bs).trk = s.trk := rfl
@[simp] theorem State.setFlashBytes_rings (a : Nat) (bs : List Byte) : (s.setFlashBytes a bs).rings = s.rings := rfl
@[simp] theorem State.setFlashBytes_published (a : Nat) (bs : List Byte) : (s.setFlashBytes a bs).published = s.published := rfl
@[simp] theorem State.setFlashBytes_nav (a : Nat) (bs : List Byte) : (s.setFlashBytes a bs).nav = s.nav := rfl
@[simp] theorem State.setFlashBytes_navFifo (a : Nat) (bs : List Byte) : (s.setFlashBytes a bs).navFifo = s.navFifo := rfl
@[simp] theorem State.setFlashBytes_navUnits (a : Nat) (bs : List Byte) : (s.setFlashBytes a bs).navUnits = s.navUnits := rfl
@[simp] theorem State.setFlashBytes_sieve (a : Nat) (bs : List Byte) : (s.setFlashBytes a bs).sieve = s.sieve := rfl
@[simp] theorem State.setFlashBytes_car (a : Nat) (bs : List Byte) : (s.setFlashBytes a bs).car = s.car := rfl
@[simp] theorem State.setFlashBytes_sky (a : Nat) (bs : List Byte) : (s.setFlashBytes a bs).sky = s.sky := rfl
@[simp] theorem State.setFlashBytes_tp (a : Nat) (bs : List Byte) : (s.setFlashBytes a bs).tp = s.tp := rfl
@[simp] theorem State.setFlashBytes_disc (a : Nat) (bs : List Byte) : (s.setFlashBytes a bs).disc = s.disc := rfl
@[simp] theorem State.setFlashBytes_twinPin (a : Nat) (bs : List Byte) : (s.setFlashBytes a bs).twinPin = s.twinPin := rfl
@[simp] theorem State.setFlashBytes_ck (a : Nat) (bs : List Byte) : (s.setFlashBytes a bs).ck = s.ck := rfl
@[simp] theorem State.setFlashBytes_bcn (a : Nat) (bs : List Byte) : (s.setFlashBytes a bs).bcn = s.bcn := rfl
@[simp] theorem State.setFlashBytes_seqs (a : Nat) (bs : List Byte) : (s.setFlashBytes a bs).seqs = s.seqs := rfl
@[simp] theorem State.setFlashBytes_hash (a : Nat) (bs : List Byte) : (s.setFlashBytes a bs).hash = s.hash := rfl
@[simp] theorem State.setFlashBytes_host (a : Nat) (bs : List Byte) : (s.setFlashBytes a bs).host = s.host := rfl
@[simp] theorem State.setFlashBytes_evAt (a : Nat) (bs : List Byte) : (s.setFlashBytes a bs).evAt = s.evAt := rfl
@[simp] theorem State.setFlashBytes_notif (a : Nat) (bs : List Byte) : (s.setFlashBytes a bs).notif = s.notif := rfl
@[simp] theorem State.setFlashBytes_copies (a : Nat) (bs : List Byte) : (s.setFlashBytes a bs).copies = s.copies := rfl
@[simp] theorem State.setFlashBytes_links (a : Nat) (bs : List Byte) : (s.setFlashBytes a bs).links = s.links := rfl
@[simp] theorem State.setFlashBytes_spim (a : Nat) (bs : List Byte) : (s.setFlashBytes a bs).spim = s.spim := rfl
@[simp] theorem State.setFlashBytes_spis (a : Nat) (bs : List Byte) : (s.setFlashBytes a bs).spis = s.spis := rfl
@[simp] theorem State.setFlashBytes_uarts (a : Nat) (bs : List Byte) : (s.setFlashBytes a bs).uarts = s.uarts := rfl
@[simp] theorem State.setFlashBytes_pu (a : Nat) (bs : List Byte) : (s.setFlashBytes a bs).pu = s.pu := rfl
@[simp] theorem State.setFlashBytes_dbg (a : Nat) (bs : List Byte) : (s.setFlashBytes a bs).dbg = s.dbg := rfl
@[simp] theorem State.setFlashBytes_sec (a : Nat) (bs : List Byte) : (s.setFlashBytes a bs).sec = s.sec := rfl
@[simp] theorem State.setFlashBytes_budget (a : Nat) (bs : List Byte) : (s.setFlashBytes a bs).budget = s.budget := rfl
@[simp] theorem State.setFlashBytes_pwr (a : Nat) (bs : List Byte) : (s.setFlashBytes a bs).pwr = s.pwr := rfl

/-! emit changes out alone. -/

@[simp] theorem State.emit_pending (o : Output) : (s.emit o).pending = s.pending := rfl
@[simp] theorem State.emit_regs (o : Output) : (s.emit o).regs = s.regs := rfl
@[simp] theorem State.emit_mem (o : Output) : (s.emit o).mem = s.mem := rfl
@[simp] theorem State.emit_ram (o : Output) : (s.emit o).ram = s.ram := rfl
@[simp] theorem State.emit_hostMem (o : Output) : (s.emit o).hostMem = s.hostMem := rfl
@[simp] theorem State.emit_flash (o : Output) : (s.emit o).flash = s.flash := rfl
@[simp] theorem State.emit_free (o : Output) : (s.emit o).free = s.free := rfl
@[simp] theorem State.emit_tick (o : Output) : (s.emit o).tick = s.tick := rfl
@[simp] theorem State.emit_adc (o : Output) : (s.emit o).adc = s.adc := rfl
@[simp] theorem State.emit_busData (o : Output) : (s.emit o).busData = s.busData := rfl
@[simp] theorem State.emit_tb (o : Output) : (s.emit o).tb = s.tb := rfl
@[simp] theorem State.emit_caps (o : Output) : (s.emit o).caps = s.caps := rfl
@[simp] theorem State.emit_tt (o : Output) : (s.emit o).tt = s.tt := rfl
@[simp] theorem State.emit_ports (o : Output) : (s.emit o).ports = s.ports := rfl
@[simp] theorem State.emit_arb (o : Output) : (s.emit o).arb = s.arb := rfl
@[simp] theorem State.emit_evt (o : Output) : (s.emit o).evt = s.evt := rfl
@[simp] theorem State.emit_chains (o : Output) : (s.emit o).chains = s.chains := rfl
@[simp] theorem State.emit_ifc (o : Output) : (s.emit o).ifc = s.ifc := rfl
@[simp] theorem State.emit_fsm (o : Output) : (s.emit o).fsm = s.fsm := rfl
@[simp] theorem State.emit_trk (o : Output) : (s.emit o).trk = s.trk := rfl
@[simp] theorem State.emit_rings (o : Output) : (s.emit o).rings = s.rings := rfl
@[simp] theorem State.emit_published (o : Output) : (s.emit o).published = s.published := rfl
@[simp] theorem State.emit_nav (o : Output) : (s.emit o).nav = s.nav := rfl
@[simp] theorem State.emit_navFifo (o : Output) : (s.emit o).navFifo = s.navFifo := rfl
@[simp] theorem State.emit_navUnits (o : Output) : (s.emit o).navUnits = s.navUnits := rfl
@[simp] theorem State.emit_sieve (o : Output) : (s.emit o).sieve = s.sieve := rfl
@[simp] theorem State.emit_car (o : Output) : (s.emit o).car = s.car := rfl
@[simp] theorem State.emit_sky (o : Output) : (s.emit o).sky = s.sky := rfl
@[simp] theorem State.emit_tp (o : Output) : (s.emit o).tp = s.tp := rfl
@[simp] theorem State.emit_disc (o : Output) : (s.emit o).disc = s.disc := rfl
@[simp] theorem State.emit_twinPin (o : Output) : (s.emit o).twinPin = s.twinPin := rfl
@[simp] theorem State.emit_ck (o : Output) : (s.emit o).ck = s.ck := rfl
@[simp] theorem State.emit_bcn (o : Output) : (s.emit o).bcn = s.bcn := rfl
@[simp] theorem State.emit_seqs (o : Output) : (s.emit o).seqs = s.seqs := rfl
@[simp] theorem State.emit_hash (o : Output) : (s.emit o).hash = s.hash := rfl
@[simp] theorem State.emit_host (o : Output) : (s.emit o).host = s.host := rfl
@[simp] theorem State.emit_evAt (o : Output) : (s.emit o).evAt = s.evAt := rfl
@[simp] theorem State.emit_notif (o : Output) : (s.emit o).notif = s.notif := rfl
@[simp] theorem State.emit_copies (o : Output) : (s.emit o).copies = s.copies := rfl
@[simp] theorem State.emit_links (o : Output) : (s.emit o).links = s.links := rfl
@[simp] theorem State.emit_spim (o : Output) : (s.emit o).spim = s.spim := rfl
@[simp] theorem State.emit_spis (o : Output) : (s.emit o).spis = s.spis := rfl
@[simp] theorem State.emit_uarts (o : Output) : (s.emit o).uarts = s.uarts := rfl
@[simp] theorem State.emit_pu (o : Output) : (s.emit o).pu = s.pu := rfl
@[simp] theorem State.emit_dbg (o : Output) : (s.emit o).dbg = s.dbg := rfl
@[simp] theorem State.emit_sec (o : Output) : (s.emit o).sec = s.sec := rfl
@[simp] theorem State.emit_budget (o : Output) : (s.emit o).budget = s.budget := rfl
@[simp] theorem State.emit_pwr (o : Output) : (s.emit o).pwr = s.pwr := rfl

/-! setSeq changes seqs alone. -/

@[simp] theorem State.setSeq_pending (n : Nat) (q : Seq) : (s.setSeq n q).pending = s.pending := rfl
@[simp] theorem State.setSeq_regs (n : Nat) (q : Seq) : (s.setSeq n q).regs = s.regs := rfl
@[simp] theorem State.setSeq_mem (n : Nat) (q : Seq) : (s.setSeq n q).mem = s.mem := rfl
@[simp] theorem State.setSeq_ram (n : Nat) (q : Seq) : (s.setSeq n q).ram = s.ram := rfl
@[simp] theorem State.setSeq_hostMem (n : Nat) (q : Seq) : (s.setSeq n q).hostMem = s.hostMem := rfl
@[simp] theorem State.setSeq_flash (n : Nat) (q : Seq) : (s.setSeq n q).flash = s.flash := rfl
@[simp] theorem State.setSeq_out (n : Nat) (q : Seq) : (s.setSeq n q).out = s.out := rfl
@[simp] theorem State.setSeq_free (n : Nat) (q : Seq) : (s.setSeq n q).free = s.free := rfl
@[simp] theorem State.setSeq_tick (n : Nat) (q : Seq) : (s.setSeq n q).tick = s.tick := rfl
@[simp] theorem State.setSeq_adc (n : Nat) (q : Seq) : (s.setSeq n q).adc = s.adc := rfl
@[simp] theorem State.setSeq_busData (n : Nat) (q : Seq) : (s.setSeq n q).busData = s.busData := rfl
@[simp] theorem State.setSeq_tb (n : Nat) (q : Seq) : (s.setSeq n q).tb = s.tb := rfl
@[simp] theorem State.setSeq_caps (n : Nat) (q : Seq) : (s.setSeq n q).caps = s.caps := rfl
@[simp] theorem State.setSeq_tt (n : Nat) (q : Seq) : (s.setSeq n q).tt = s.tt := rfl
@[simp] theorem State.setSeq_ports (n : Nat) (q : Seq) : (s.setSeq n q).ports = s.ports := rfl
@[simp] theorem State.setSeq_arb (n : Nat) (q : Seq) : (s.setSeq n q).arb = s.arb := rfl
@[simp] theorem State.setSeq_evt (n : Nat) (q : Seq) : (s.setSeq n q).evt = s.evt := rfl
@[simp] theorem State.setSeq_chains (n : Nat) (q : Seq) : (s.setSeq n q).chains = s.chains := rfl
@[simp] theorem State.setSeq_ifc (n : Nat) (q : Seq) : (s.setSeq n q).ifc = s.ifc := rfl
@[simp] theorem State.setSeq_fsm (n : Nat) (q : Seq) : (s.setSeq n q).fsm = s.fsm := rfl
@[simp] theorem State.setSeq_trk (n : Nat) (q : Seq) : (s.setSeq n q).trk = s.trk := rfl
@[simp] theorem State.setSeq_rings (n : Nat) (q : Seq) : (s.setSeq n q).rings = s.rings := rfl
@[simp] theorem State.setSeq_published (n : Nat) (q : Seq) : (s.setSeq n q).published = s.published := rfl
@[simp] theorem State.setSeq_nav (n : Nat) (q : Seq) : (s.setSeq n q).nav = s.nav := rfl
@[simp] theorem State.setSeq_navFifo (n : Nat) (q : Seq) : (s.setSeq n q).navFifo = s.navFifo := rfl
@[simp] theorem State.setSeq_navUnits (n : Nat) (q : Seq) : (s.setSeq n q).navUnits = s.navUnits := rfl
@[simp] theorem State.setSeq_sieve (n : Nat) (q : Seq) : (s.setSeq n q).sieve = s.sieve := rfl
@[simp] theorem State.setSeq_car (n : Nat) (q : Seq) : (s.setSeq n q).car = s.car := rfl
@[simp] theorem State.setSeq_sky (n : Nat) (q : Seq) : (s.setSeq n q).sky = s.sky := rfl
@[simp] theorem State.setSeq_tp (n : Nat) (q : Seq) : (s.setSeq n q).tp = s.tp := rfl
@[simp] theorem State.setSeq_disc (n : Nat) (q : Seq) : (s.setSeq n q).disc = s.disc := rfl
@[simp] theorem State.setSeq_twinPin (n : Nat) (q : Seq) : (s.setSeq n q).twinPin = s.twinPin := rfl
@[simp] theorem State.setSeq_ck (n : Nat) (q : Seq) : (s.setSeq n q).ck = s.ck := rfl
@[simp] theorem State.setSeq_bcn (n : Nat) (q : Seq) : (s.setSeq n q).bcn = s.bcn := rfl
@[simp] theorem State.setSeq_hash (n : Nat) (q : Seq) : (s.setSeq n q).hash = s.hash := rfl
@[simp] theorem State.setSeq_host (n : Nat) (q : Seq) : (s.setSeq n q).host = s.host := rfl
@[simp] theorem State.setSeq_evAt (n : Nat) (q : Seq) : (s.setSeq n q).evAt = s.evAt := rfl
@[simp] theorem State.setSeq_notif (n : Nat) (q : Seq) : (s.setSeq n q).notif = s.notif := rfl
@[simp] theorem State.setSeq_copies (n : Nat) (q : Seq) : (s.setSeq n q).copies = s.copies := rfl
@[simp] theorem State.setSeq_links (n : Nat) (q : Seq) : (s.setSeq n q).links = s.links := rfl
@[simp] theorem State.setSeq_spim (n : Nat) (q : Seq) : (s.setSeq n q).spim = s.spim := rfl
@[simp] theorem State.setSeq_spis (n : Nat) (q : Seq) : (s.setSeq n q).spis = s.spis := rfl
@[simp] theorem State.setSeq_uarts (n : Nat) (q : Seq) : (s.setSeq n q).uarts = s.uarts := rfl
@[simp] theorem State.setSeq_pu (n : Nat) (q : Seq) : (s.setSeq n q).pu = s.pu := rfl
@[simp] theorem State.setSeq_dbg (n : Nat) (q : Seq) : (s.setSeq n q).dbg = s.dbg := rfl
@[simp] theorem State.setSeq_sec (n : Nat) (q : Seq) : (s.setSeq n q).sec = s.sec := rfl
@[simp] theorem State.setSeq_budget (n : Nat) (q : Seq) : (s.setSeq n q).budget = s.budget := rfl
@[simp] theorem State.setSeq_pwr (n : Nat) (q : Seq) : (s.setSeq n q).pwr = s.pwr := rfl

/-! setNowU changes tb alone. -/

@[simp] theorem State.setNowU_pending (u : Nat) : (s.setNowU u).pending = s.pending := rfl
@[simp] theorem State.setNowU_regs (u : Nat) : (s.setNowU u).regs = s.regs := rfl
@[simp] theorem State.setNowU_mem (u : Nat) : (s.setNowU u).mem = s.mem := rfl
@[simp] theorem State.setNowU_ram (u : Nat) : (s.setNowU u).ram = s.ram := rfl
@[simp] theorem State.setNowU_hostMem (u : Nat) : (s.setNowU u).hostMem = s.hostMem := rfl
@[simp] theorem State.setNowU_flash (u : Nat) : (s.setNowU u).flash = s.flash := rfl
@[simp] theorem State.setNowU_out (u : Nat) : (s.setNowU u).out = s.out := rfl
@[simp] theorem State.setNowU_free (u : Nat) : (s.setNowU u).free = s.free := rfl
@[simp] theorem State.setNowU_tick (u : Nat) : (s.setNowU u).tick = s.tick := rfl
@[simp] theorem State.setNowU_adc (u : Nat) : (s.setNowU u).adc = s.adc := rfl
@[simp] theorem State.setNowU_busData (u : Nat) : (s.setNowU u).busData = s.busData := rfl
@[simp] theorem State.setNowU_caps (u : Nat) : (s.setNowU u).caps = s.caps := rfl
@[simp] theorem State.setNowU_tt (u : Nat) : (s.setNowU u).tt = s.tt := rfl
@[simp] theorem State.setNowU_ports (u : Nat) : (s.setNowU u).ports = s.ports := rfl
@[simp] theorem State.setNowU_arb (u : Nat) : (s.setNowU u).arb = s.arb := rfl
@[simp] theorem State.setNowU_evt (u : Nat) : (s.setNowU u).evt = s.evt := rfl
@[simp] theorem State.setNowU_chains (u : Nat) : (s.setNowU u).chains = s.chains := rfl
@[simp] theorem State.setNowU_ifc (u : Nat) : (s.setNowU u).ifc = s.ifc := rfl
@[simp] theorem State.setNowU_fsm (u : Nat) : (s.setNowU u).fsm = s.fsm := rfl
@[simp] theorem State.setNowU_trk (u : Nat) : (s.setNowU u).trk = s.trk := rfl
@[simp] theorem State.setNowU_rings (u : Nat) : (s.setNowU u).rings = s.rings := rfl
@[simp] theorem State.setNowU_published (u : Nat) : (s.setNowU u).published = s.published := rfl
@[simp] theorem State.setNowU_nav (u : Nat) : (s.setNowU u).nav = s.nav := rfl
@[simp] theorem State.setNowU_navFifo (u : Nat) : (s.setNowU u).navFifo = s.navFifo := rfl
@[simp] theorem State.setNowU_navUnits (u : Nat) : (s.setNowU u).navUnits = s.navUnits := rfl
@[simp] theorem State.setNowU_sieve (u : Nat) : (s.setNowU u).sieve = s.sieve := rfl
@[simp] theorem State.setNowU_car (u : Nat) : (s.setNowU u).car = s.car := rfl
@[simp] theorem State.setNowU_sky (u : Nat) : (s.setNowU u).sky = s.sky := rfl
@[simp] theorem State.setNowU_tp (u : Nat) : (s.setNowU u).tp = s.tp := rfl
@[simp] theorem State.setNowU_disc (u : Nat) : (s.setNowU u).disc = s.disc := rfl
@[simp] theorem State.setNowU_twinPin (u : Nat) : (s.setNowU u).twinPin = s.twinPin := rfl
@[simp] theorem State.setNowU_ck (u : Nat) : (s.setNowU u).ck = s.ck := rfl
@[simp] theorem State.setNowU_bcn (u : Nat) : (s.setNowU u).bcn = s.bcn := rfl
@[simp] theorem State.setNowU_seqs (u : Nat) : (s.setNowU u).seqs = s.seqs := rfl
@[simp] theorem State.setNowU_hash (u : Nat) : (s.setNowU u).hash = s.hash := rfl
@[simp] theorem State.setNowU_host (u : Nat) : (s.setNowU u).host = s.host := rfl
@[simp] theorem State.setNowU_evAt (u : Nat) : (s.setNowU u).evAt = s.evAt := rfl
@[simp] theorem State.setNowU_notif (u : Nat) : (s.setNowU u).notif = s.notif := rfl
@[simp] theorem State.setNowU_copies (u : Nat) : (s.setNowU u).copies = s.copies := rfl
@[simp] theorem State.setNowU_links (u : Nat) : (s.setNowU u).links = s.links := rfl
@[simp] theorem State.setNowU_spim (u : Nat) : (s.setNowU u).spim = s.spim := rfl
@[simp] theorem State.setNowU_spis (u : Nat) : (s.setNowU u).spis = s.spis := rfl
@[simp] theorem State.setNowU_uarts (u : Nat) : (s.setNowU u).uarts = s.uarts := rfl
@[simp] theorem State.setNowU_pu (u : Nat) : (s.setNowU u).pu = s.pu := rfl
@[simp] theorem State.setNowU_dbg (u : Nat) : (s.setNowU u).dbg = s.dbg := rfl
@[simp] theorem State.setNowU_sec (u : Nat) : (s.setNowU u).sec = s.sec := rfl
@[simp] theorem State.setNowU_budget (u : Nat) : (s.setNowU u).budget = s.budget := rfl
@[simp] theorem State.setNowU_pwr (u : Nat) : (s.setNowU u).pwr = s.pwr := rfl

end Sys2Proof.Machine
end

