-- ==== Sys2Proof/Laws/Ops.lean ====
section
/-! SUPPORT. Reads after writes: the register file and its fields, the memories, the sequencers. -/
namespace Sys2Proof.Machine

variable (s : State)

/-! Bits of a number. -/

theorem bitsOf_lt (v hi lo : Nat) : bitsOf v hi lo < 2 ^ (hi + 1 - lo) := Nat.mod_lt _ (Nat.two_pow_pos _)

theorem insertBits_lt {old hi lo v w : Nat} (ho : old < 2 ^ w) (hh : hi < w) (hl : lo ≤ hi) :
    insertBits old hi lo v < 2 ^ w := by
  unfold insertBits
  have h1 : old % 2 ^ lo < 2 ^ lo := Nat.mod_lt _ (Nat.two_pow_pos _)
  have h2 : v % 2 ^ (hi + 1 - lo) < 2 ^ (hi + 1 - lo) := Nat.mod_lt _ (Nat.two_pow_pos _)
  have h3 : 2 ^ lo * 2 ^ (hi + 1 - lo) = 2 ^ (hi + 1) := by rw [← Nat.pow_add]; congr 1; omega
  have h4 : old / 2 ^ (hi + 1) < 2 ^ (w - (hi + 1)) := by
    rw [Nat.div_lt_iff_lt_mul (Nat.two_pow_pos _), ← Nat.pow_add]
    rwa [show w - (hi + 1) + (hi + 1) = w by omega]
  have h5 : 2 ^ (w - (hi + 1)) * 2 ^ (hi + 1) = 2 ^ w := by rw [← Nat.pow_add]; congr 1; omega
  have h6 : v % 2 ^ (hi + 1 - lo) * 2 ^ lo + 2 ^ lo ≤ 2 ^ (hi + 1) := by
    rw [← h3, Nat.mul_comm (2 ^ lo), ← Nat.succ_mul]; exact Nat.mul_le_mul_right _ h2
  have h7 : old / 2 ^ (hi + 1) * 2 ^ (hi + 1) + 2 ^ (hi + 1) ≤ 2 ^ w := by
    rw [← h5, ← Nat.succ_mul]; exact Nat.mul_le_mul_right _ h4
  omega

/-- The bits written read back. -/
theorem bitsOf_insertBits (old hi lo v : Nat) (hl : lo ≤ hi) :
    bitsOf (insertBits old hi lo v) hi lo = v % 2 ^ (hi + 1 - lo) := by
  unfold bitsOf insertBits
  have h3 : 2 ^ (hi + 1) = 2 ^ lo * 2 ^ (hi + 1 - lo) := by rw [← Nat.pow_add]; congr 1; omega
  have e : old % 2 ^ lo + v % 2 ^ (hi + 1 - lo) * 2 ^ lo + old / 2 ^ (hi + 1) * 2 ^ (hi + 1) =
      old % 2 ^ lo + 2 ^ lo * (v % 2 ^ (hi + 1 - lo) + 2 ^ (hi + 1 - lo) * (old / 2 ^ (hi + 1))) := by
    conv_lhs => rw [show old / 2 ^ (hi + 1) * 2 ^ (hi + 1) = 2 ^ lo * (2 ^ (hi + 1 - lo) * (old / 2 ^ (hi + 1))) by
      conv_lhs => rw [Nat.mul_comm, h3, Nat.mul_assoc]
      rw [← h3]]
    ring
  rw [e, Nat.add_mul_div_left _ _ (Nat.two_pow_pos _), Nat.div_eq_of_lt (Nat.mod_lt _ (Nat.two_pow_pos _)),
    Nat.zero_add, Nat.add_mul_mod_self_left, Nat.mod_mod]

theorem testBit_insertBits (old hi lo v i : Nat) (hl : lo ≤ hi) :
    (insertBits old hi lo v).testBit i =
      if i < lo then old.testBit i else if i ≤ hi then v.testBit (i - lo) else old.testBit i := by
  unfold insertBits
  have h1 : old % 2 ^ lo < 2 ^ lo := Nat.mod_lt _ (Nat.two_pow_pos _)
  have h3 : 2 ^ (hi + 1) = 2 ^ lo * 2 ^ (hi + 1 - lo) := by rw [← Nat.pow_add]; congr 1; omega
  have e : old % 2 ^ lo + v % 2 ^ (hi + 1 - lo) * 2 ^ lo + old / 2 ^ (hi + 1) * 2 ^ (hi + 1) =
      2 ^ lo * (2 ^ (hi + 1 - lo) * (old / 2 ^ (hi + 1)) + v % 2 ^ (hi + 1 - lo)) + old % 2 ^ lo := by
    have : old / 2 ^ (hi + 1) * 2 ^ (hi + 1) = 2 ^ lo * (2 ^ (hi + 1 - lo) * (old / 2 ^ (hi + 1))) := by
      rw [← Nat.mul_assoc, ← h3, Nat.mul_comm]
    rw [this]; ring
  rw [e, Nat.testBit_two_pow_mul_add _ h1, Nat.testBit_mod_two_pow]
  by_cases hi1 : i < lo
  · simp [hi1]
  · rw [if_neg hi1, if_neg hi1, Nat.testBit_two_pow_mul_add _ (Nat.mod_lt _ (Nat.two_pow_pos _)), Nat.testBit_mod_two_pow,
      Nat.testBit_div_two_pow]
    by_cases hi2 : i ≤ hi
    · have : i - lo < hi + 1 - lo := by omega
      simp [hi2, this]
    · have : ¬ i - lo < hi + 1 - lo := by omega
      rw [if_neg this, if_neg hi2]
      congr 1; omega

/-- Disjoint bits read as before. -/
theorem bitsOf_insertBits_ne (old hi lo v h l : Nat) (hl : lo ≤ hi) (hd : h < lo ∨ hi < l) :
    bitsOf (insertBits old hi lo v) h l = bitsOf old h l := by
  apply Nat.eq_of_testBit_eq
  intro i
  unfold bitsOf
  rw [Nat.testBit_mod_two_pow, Nat.testBit_mod_two_pow, Nat.testBit_div_two_pow, Nat.testBit_div_two_pow,
    testBit_insertBits _ _ _ _ _ hl]
  by_cases hi' : i < h + 1 - l
  · rcases hd with hd | hd
    · have h2 : i + l < lo := by omega
      simp [h2]
    · have h2 : ¬ i + l < lo := by omega
      have h3 : ¬ i + l ≤ hi := by omega
      simp [h2, h3]
  · simp [hi']

/-! The register file. -/

@[simp] theorem State.word_setWord (off : Nat) (w : Word) : (s.setWord off w).word off = w := by
  simp [State.word, State.setWord]

theorem State.word_setWord_ne {off off' : Nat} (w : Word) (h : off' ≠ off) : (s.setWord off w).word off' = s.word off' := by
  simp [State.word, State.setWord, Sparse.get_put_ne _ _ h]

/-- The word a field write leaves. -/
theorem State.word_setFld (f : Fld) (v : Nat) :
    (s.setFld f v).word f.off = BitVec.ofNat 32 (insertBits (s.word f.off).toNat f.hi f.lo v) := by simp [State.setFld]

theorem State.word_setFld_ne {f : Fld} {off : Nat} (v : Nat) (h : off ≠ f.off) : (s.setFld f v).word off = s.word off := by
  simp [State.setFld, State.word_setWord_ne _ _ h]

/-- A field written reads back what fits it. -/
theorem State.fld_setFld (f : Fld) (v : Nat) (hl : f.lo ≤ f.hi) (hh : f.hi < 32) :
    (s.setFld f v).fld f = v % 2 ^ (f.hi + 1 - f.lo) := by
  unfold State.fld
  rw [State.word_setFld, BitVec.toNat_ofNat, Nat.mod_eq_of_lt (insertBits_lt (s.word f.off).isLt hh hl),
    bitsOf_insertBits _ _ _ _ hl]

/-- A field of another word, or of other bits of the word, reads as before. -/
theorem State.fld_setFld_ne (f g : Fld) (v : Nat) (hl : f.lo ≤ f.hi) (hh : f.hi < 32)
    (h : g.off ≠ f.off ∨ g.hi < f.lo ∨ f.hi < g.lo) : (s.setFld f v).fld g = s.fld g := by
  unfold State.fld
  by_cases ho : g.off = f.off
  · rw [ho, State.word_setFld, BitVec.toNat_ofNat, Nat.mod_eq_of_lt (insertBits_lt (s.word f.off).isLt hh hl),
      bitsOf_insertBits_ne _ _ _ _ _ _ hl (h.resolve_left (fun n => n ho))]
  · rw [State.word_setFld_ne _ _ ho]

/-- A one-bit field set to a truth value reads as it. -/
theorem State.bit_setBit (f : Fld) (b : Bool) (hl : f.lo = f.hi) (hh : f.hi < 32) : (s.setBit f b).bit f = b := by
  unfold State.bit State.setBit
  rw [State.fld_setFld _ _ _ (by omega) hh, show f.hi + 1 - f.lo = 1 by omega]
  cases b <;> rfl

/-! The memories. -/

theorem State.memByte_setMemByte (a x : Nat) (v : Byte) :
    (s.setMemByte a v).memByte x = if x = a then v else s.memByte x := by
  simp [State.memByte, State.setMemByte, Sparse.get_put]

theorem State.memByte_setMemBytes_ne (a x : Nat) (bs : List Byte) (h : x < a ∨ a + bs.length ≤ x) :
    (s.setMemBytes a bs).memByte x = s.memByte x := by
  simp [State.memByte, State.setMemBytes, Sparse.get_putBytes_of_not_mem _ _ _ h]

theorem State.memByte_setMemBytes (a i : Nat) (bs : List Byte) (h : i < bs.length) :
    (s.setMemBytes a bs).memByte (a + i) = bs[i] := by
  simp [State.memByte, State.setMemBytes, Sparse.get_putBytes _ _ _ h]

theorem State.ramByte_setRamByte (a x : Nat) (v : Byte) :
    (s.setRamByte a v).ramByte x = if x = a then v else s.ramByte x := by
  simp [State.ramByte, State.setRamByte, Sparse.get_put]

/-! Sequencers. -/

@[simp] theorem State.seq_setSeq (n : Nat) (q : Seq) : (s.setSeq n q).seq n = q := by simp [State.seq, State.setSeq]

theorem State.seq_setSeq_ne {n m : Nat} (q : Seq) (h : m ≠ n) : (s.setSeq n q).seq m = s.seq m := by
  simp [State.seq, State.setSeq, Sparse.get_put_ne _ _ h]

@[simp] theorem State.setSeq_setSeq (n : Nat) (q r : Seq) : (s.setSeq n q).setSeq n r = s.setSeq n r := by
  simp [State.setSeq]

@[simp] theorem State.word_setSeq (n off : Nat) (q : Seq) : (s.setSeq n q).word off = s.word off := rfl
@[simp] theorem State.fld_setSeq (n : Nat) (q : Seq) (f : Fld) : (s.setSeq n q).fld f = s.fld f := rfl
@[simp] theorem State.bit_setSeq (n : Nat) (q : Seq) (f : Fld) : (s.setSeq n q).bit f = s.bit f := rfl
@[simp] theorem State.ramByte_setSeq (n a : Nat) (q : Seq) : (s.setSeq n q).ramByte a = s.ramByte a := rfl
@[simp] theorem State.memByte_setSeq (n a : Nat) (q : Seq) : (s.setSeq n q).memByte a = s.memByte a := rfl

end Sys2Proof.Machine
end

