-- ==== Sys2Proof/Laws/Canon.lean ====
section
/-! SUPPORT. The named updates of the state keep its register file and memories in canonical form. -/
namespace Sys2Proof.Machine

variable {s : State}

/-- Whatever leaves the register file and the memories alone keeps the canonical form. -/
theorem Canon.of_eq {t : State} (h : Canon s) (h1 : t.regs = s.regs) (h2 : t.mem = s.mem) (h3 : t.ram = s.ram)
    (h4 : t.hostMem = s.hostMem) (h5 : t.flash = s.flash) : Canon t :=
  ⟨h1 ▸ h.regs, h2 ▸ h.mem, h3 ▸ h.ram, h4 ▸ h.hostMem, h5 ▸ h.flash⟩

theorem Canon.setWord (h : Canon s) (off : Nat) (w : Word) : Canon (s.setWord off w) :=
  ⟨Sparse.wf_put _ _ h.regs, h.mem, h.ram, h.hostMem, h.flash⟩

theorem Canon.setFld (h : Canon s) (f : Fld) (v : Nat) : Canon (s.setFld f v) := h.setWord _ _

theorem Canon.setBit (h : Canon s) (f : Fld) (b : Bool) : Canon (s.setBit f b) := h.setFld _ _

theorem Canon.setMaskBit (h : Canon s) (off i : Nat) (b : Bool) : Canon (s.setMaskBit off i b) := h.setBit _ _

theorem Canon.setMemByte (h : Canon s) (a : Nat) (v : Byte) : Canon (s.setMemByte a v) :=
  ⟨h.regs, Sparse.wf_put _ _ h.mem, h.ram, h.hostMem, h.flash⟩

theorem Canon.setMemBytes (h : Canon s) (a : Nat) (bs : List Byte) : Canon (s.setMemBytes a bs) :=
  ⟨h.regs, Sparse.wf_putBytes _ _ h.mem, h.ram, h.hostMem, h.flash⟩

theorem Canon.setRamByte (h : Canon s) (a : Nat) (v : Byte) : Canon (s.setRamByte a v) :=
  ⟨h.regs, h.mem, Sparse.wf_put _ _ h.ram, h.hostMem, h.flash⟩

theorem Canon.setHostBytes (h : Canon s) (a : Nat) (bs : List Byte) : Canon (s.setHostBytes a bs) :=
  ⟨h.regs, h.mem, h.ram, Sparse.wf_putBytes _ _ h.hostMem, h.flash⟩

theorem Canon.setFlashBytes (h : Canon s) (a : Nat) (bs : List Byte) : Canon (s.setFlashBytes a bs) :=
  ⟨h.regs, h.mem, h.ram, h.hostMem, Sparse.wf_putBytes _ _ h.flash⟩

theorem Canon.emit (h : Canon s) (o : Output) : Canon (s.emit o) := h.of_eq rfl rfl rfl rfl rfl

theorem Canon.draw (h : Canon s) : Canon s.draw.2 := h.of_eq rfl rfl rfl rfl rfl

theorem Canon.setSeq (h : Canon s) (n : Nat) (q : Seq) : Canon (s.setSeq n q) := h.of_eq rfl rfl rfl rfl rfl

theorem Canon.setNowU (h : Canon s) (u : Nat) : Canon (s.setNowU u) := h.of_eq rfl rfl rfl rfl rfl

/-- An event and its message. -/
theorem Canon.msiSend (h : Canon s) (v : Nat) : Canon (Machine.msiSend s v) := by
  unfold Machine.msiSend
  split
  · exact h
  · split
    · exact h.setMaskBit _ _ _
    · exact h.emit _

theorem Canon.evNote (h : Canon s) (n : Nat) : Canon (Machine.evNote n s) :=
  ⟨h.regs, h.mem, h.ram, h.hostMem, h.flash⟩

theorem Canon.raise (h : Canon s) (n : Nat) : Canon (Machine.raise n s) := by
  have h0 := ((h.setMaskBit (copyOff .host (R.EV_PEND (n / 32))) (n % 32) true).setMaskBit
    (copyOff .sqm (R.EV_PEND (n / 32))) (n % 32) true).evNote n
  unfold Machine.raise
  dsimp only
  split
  · exact Canon.msiSend h0 _
  · exact h0

theorem Canon.flagEvent (h : Canon s) (f : Fld) (n : Nat) : Canon (Machine.flagEvent f n s) := by
  unfold Machine.flagEvent
  split
  · exact h
  · exact (h.setFld _ _).raise _

/-- A fold of steps that each keep the form keeps it. -/
theorem Canon.foldl {α : Type} {f : State → α → State} (hf : ∀ s a, Canon s → Canon (f s a)) (l : List α) {s : State}
    (h : Canon s) : Canon (l.foldl f s) := by
  induction l generalizing s with
  | nil => exact h
  | cons a l ih => exact ih (hf s a h)

end Sys2Proof.Machine
end

