-- ==== Sys2Proof/Laws/Access.lean ====
section
/-! SUPPORT. What the gate of an access and a write under the access codes can do. -/
namespace Sys2Proof.Machine

variable {s : State}

/-- An access that answers and is allowed has its effect. -/
theorem gate_open {r : Reader} {off : Nat} {w : Bool} {f : State → State} (h1 : bar0Answers r off s = true)
    (h2 : protAllows r 0 off w s = true) : gate r off w f s = f s := by simp [gate, h1, h2]

/-- An access that does not answer changes nothing. -/
theorem gate_silent {r : Reader} {off : Nat} {w : Bool} {f : State → State} (h : bar0Answers r off s = false) :
    gate r off w f s = s := by simp [gate, h]

/-- A denied access is recorded and changes nothing else. -/
theorem gate_denied {r : Reader} {off : Nat} {w : Bool} {f : State → State} (h1 : bar0Answers r off s = true)
    (h2 : protAllows r 0 off w s = false) : gate r off w f s = protRecord r 0 off w s := by simp [gate, h1, h2]

theorem Canon.protRecord (h : Canon s) (r : Reader) (space addr : Nat) (w : Bool) :
    Canon (Machine.protRecord r space addr w s) := by
  unfold Machine.protRecord Machine.protRecordAs
  apply Canon.raise
  split
  · exact h
  · exact ((((h.setFld _ _).setFld _ _).setFld _ _).setFld _ _).setFld _ _

theorem Canon.gate (h : Canon s) {r : Reader} {off : Nat} {w : Bool} {f : State → State} (hf : Canon s → Canon (f s)) :
    Canon (Machine.gate r off w f s) := by
  unfold Machine.gate
  split
  · exact h
  · split
    · exact h.protRecord _ _ _ _
    · exact hf h

theorem Canon.plainWrite (h : Canon s) (r : Reader) (off : Nat) (v : Word) : Canon (Machine.plainWrite r off v s) := by
  unfold Machine.plainWrite
  split
  · exact h
  · dsimp only
    apply Canon.setWord
    repeat' split
    all_goals first | exact h | exact h.protRecord _ _ _ _

end Sys2Proof.Machine
end

