-- ==== Sys2Proof/Laws/Dx.lean ====
section
/-! SUPPORT. What a DX-8 instruction's frame can do: the sequencer that issues it, and nothing else but what its body does. -/
namespace Sys2Proof.Machine

variable {s : State} {q : SeqId}

@[simp] theorem onSeq_seq (f : Seq → Seq) : (onSeq q f s).seq q.val = f (s.seq q.val) := by simp [onSeq]

@[simp] theorem onSeq_onSeq (f g : Seq → Seq) : onSeq q f (onSeq q g s) = onSeq q (fun r => f (g r)) s := by
  simp [onSeq]

/-- An instruction whose effect succeeds. -/
theorem dxInstr_ok (h : DxReady q s) {len cyc : Nat} {body : State → Except DxErr State} {t : State}
    (hb : body (dxFetched q len cyc s) = .ok t) : dxInstr q len cyc body s = onSeq q (dxRetire (s.seq q.val).pc) t := by
  unfold dxInstr
  rw [h.1, h.2, hb]
  simp only [Bool.not_true, Bool.false_eq_true, if_false]

/-- An instruction whose effect faults. -/
theorem dxInstr_fault (h : DxReady q s) {len cyc : Nat} {body : State → Except DxErr State} {e : DxErr}
    (hb : body (dxFetched q len cyc s) = .error e) : dxInstr q len cyc body s = dxFault q e s := by
  unfold dxInstr
  rw [h.1, h.2, hb]
  simp only [Bool.not_true, Bool.false_eq_true, if_false]

/-- An instruction on registers alone. -/
theorem dxReg_eq (h : DxReady q s) (len cyc : Nat) (f : Seq → Seq) :
    dxReg q len cyc f s = dxEnded q (s.seq q.val).pc f (dxFetched q len cyc s) := by
  unfold dxReg dxEnded
  rw [dxInstr_ok (t := onSeq q f (dxFetched q len cyc s)) h rfl, onSeq_onSeq]

/-- A sequencer that is not ready executes nothing. -/
theorem dxInstr_idle (h : seqReady q s = false) (len cyc : Nat) (body : State → Except DxErr State) :
    dxInstr q len cyc body s = s := by simp [dxInstr, h]

end Sys2Proof.Machine
end

