-- ==== Sys2Proof/Tests/Slice0.lean ====
section
/-! SUPPORT. The model's own tests: the refusals of WellFormed, one step on small states with results taken from the spec's worked
examples and tables, and for each statement a state and operands that meet its hypotheses. -/
namespace Sys2Proof.Tests

set_option Elab.async false
set_option synthInstance.maxSize 1000

open Sys2Proof Sys2Proof.Machine

/-- The state a step answers. -/
def after (o : Host.Outcome State Fault Refusal) : State :=
  match o with
  | .next t => t
  | _ => State.reset

abbrev r0 : State := State.reset

/-! WellFormed: one ill-formed term for each check. -/

theorem test_wf_descriptor : (Instr.descriptorTake 0 [0]).wf = false := by decide
theorem test_wf_job_frame : (Instr.jobFrame 0 ⟨[], 0⟩ [0]).wf = false := by decide
theorem test_wf_result_frame : (Instr.resultFrame 0 ⟨[], 0⟩ 0 [0]).wf = false := by decide
theorem test_wf_copy : (Instr.copyDone 0 2 [0]).wf = false := by decide
theorem test_wf_stream : (Instr.streamRecord 0 []).wf = false := by decide
theorem test_wf_preload : (Instr.jtagSamplePreload [true] []).wf = false := by decide
theorem test_wf_extest : (Instr.jtagExtest [true] []).wf = false := by decide
theorem test_wf_cred : (Instr.jtagCred (List.replicate 32769 0)).wf = false := by decide +kernel
theorem test_wf_boot (b : List Byte) (h : b.length = 0x400001) : (Instr.bootRom 0 (some b) 0 0).wf = false := by
  simp [Instr.wf, h]
theorem test_wf_snapshot (b : List Byte) (h : b.length = 65569) : (Instr.snapshotStaged 0 (some b)).wf = false := by
  simp [Instr.wf, h]
theorem test_wf_good : (Instr.copyDone 0 1 [0]).wf = true := by decide

/-! The hypotheses of the statements: one witness for each statement, and within it one for its clauses at a bound of their ranges. -/

/-- The reset state with fields written. -/
def setAll (fs : List (Fld × Nat)) : State := fs.foldl (fun s p => s.setFld p.1 p.2) r0

/-- HIBERNATE: no offset answers. -/
def hib : State := { r0 with pwr := { r0.pwr with hib := true } }

theorem witness_RegisterWriteRules :
    (bar0Answers .host 0x10000 hib = false) ∧
    (bar0Answers .debug 0xFFFFFC r0 = true ∧ protAllows .debug 0 0xFFFFFC true r0 = false ∧ r0.bit F.SEC_PROT_STAT_VALID = false) ∧
    ((0x10001#24).toNat % 4 ≠ 0 ∧ r0.pwr.hib = false ∧ r0.pwr.pcieOff = false ∧ r0.bit F.HOST_ERR_BAD_ACCESS = false) ∧
    Open .host R.TB_CTRL r0 ∧ Open .host R.TT_STATUS r0 ∧ Open .host (R.SQ_START 10) r0 ∧ vaultRights .host r0 = false ∧
    Open .sqm (R.SQ_START 0) r0 ∧ vaultRights .sqm r0 = true := by decide +kernel

/-- The host has captured the TB_NOW group. -/
def captured : State := after (exec (.latchCapture .host (.reg ⟨0x10000, true⟩)) r0)

theorem witness_LatchGroupReads :
    (reqSound ⟨0x10001, true⟩ = false ∧ reqSound ⟨0x10000, false⟩ = false ∧ r0.pwr.hib = false ∧ r0.pwr.pcieOff = false) ∧
    (let s := setAll [(F.DEV_STATUS_READY, 1)]
     s.bit F.DEV_STATUS_READY = true ∧ s.pwr.pcieOff = false ∧ mapAnswers .host s = true ∧
       rangeDenied .host 0 1 false s = none ∧ rangeDenied .debug 0 4 false s = some 0 ∧ mapAnswers .debug s = true) ∧
    (latchGroup 0x10000 = some (0x10000, 6) ∧ bar0Answers .host 0x10000 r0 = true ∧ protAllows .host 0 0x10000 false r0 = true ∧
      ringOffReg 0x10000 r0 = false) ∧
    (latchGroup 0x10014 = some (0x10000, 6) ∧ bar0Answers .host 0x10014 captured = true ∧
      protAllows .host 0 0x10014 false captured = true ∧ ringOffReg 0x10014 captured = false ∧ 0x10014 = 0x10000 + 4 * (6 - 1) ∧
      capture .host 0x10000 captured ≠ []) := by decide +kernel

/-- A leap insertion armed for second 11, in force from second 10, and the same armed at second 9 with a step of 5 s due. -/
def leap : State := { setAll [(F.TB_LEAP_CUR, 18), (F.TB_LEAP_NEXT, 19), (F.TB_LEAP_AT_AT_SEC, 11)] with tb := { sec := 10 } }
def leapStep : State := { leap with tb := { sec := 9, step := some ⟨5 * secUnits, 1, none, 0⟩ }, tick := 1 }

theorem witness_LeapTakesEffect :
    leapDue leap = true ∧ leapDue r0 = false ∧
    (leapStep.tb.step = some ⟨5 * secUnits, 1, none, 0⟩ ∧ stepDue ⟨5 * secUnits, 1, none, 0⟩ leapStep = true ∧ leapDue leapStep = false ∧
      leapDue (leapStep.setNowU (((leapStep.nowU : Int) + 5 * secUnits) % (wrapUnits : Int)).toNat) = true) := by decide +kernel

theorem witness_TimebaseSteps :
    (Open .sqm R.TB_STEP_CMD r0 ∧ mayWriteTime .sqm r0 = true ∧ bitsOf (0x5001 : Word).toNat 15 12 ≤ 5 ∧ (0x5001 : Word).toNat % 8 = 1) ∧
    ((0x2 : Word).toNat % 8 = 2 ∧ (0x4 : Word).toNat % 8 = 4 ∧ (0x6001 : Word).toNat % 8 = 1 ∧ 5 < bitsOf (0x6001 : Word).toNat 15 12) ∧
    (Open .host R.TB_STEP_CMD r0 ∧ mayWriteTime .host r0 = false) ∧
    (stepDue ⟨5 * secUnits, 1, none, 0⟩ leapStep = true ∧ leapStep.tb.sec < 2 ^ 48 ∧ leapStep.tb.phase < secUnits) ∧
    r0.tb.step = none ∧
    (let s := setAll [(F.TB_STATUS_VALID, 1), (F.TB_STATUS_SOURCE, 2)]
     s.tb.sec < 2 ^ 48 ∧ wholeSecond s = true ∧ s.bit F.TB_STATUS_VALID = true ∧ s.fld F.TB_STATUS_SOURCE ≠ 1) ∧
    r0.bit F.TB_STATUS_VALID = false := by decide +kernel

/-- One entry of the timetable, due now, with an action and its parameter. -/
def ttOne (act p : Nat) : State :=
  { r0 with tt := [(5, { armed := true, action := act, param := p, due := if act = 5 then 2 ^ 20 else 0 })],
            tb := { phase := if act = 5 then 0x100000 * fracUnits - 240 * tickUnits else 0 } }

theorem witness_TimetableActions :
    TtDue 5 0 (ttOne 0 0) ∧ TtDue 5 1 (ttOne 1 7) ∧
    (let s := (ttOne 2 1).setFld (F.GRF_CH_STATUS_STATE 0) 2
     TtDue 5 2 s ∧ pstate s ≠ 2 ∧ ∀ x < 4, (1 : Nat).testBit x = true → chainState x s ≠ 0) ∧ TtDue 5 3 (ttOne 3 15) ∧
    TtDue 5 4 (ttOne 4 256) ∧
    (let s := { ttOne 4 255 with mem := Sparse.putBytes byteDflt [] (descAddr 255) [1, 0, 1] }
     TtDue 5 4 s ∧ s.bit F.BCN_CFG_EN = false ∧ descOk (s.memBytes (descAddr 255) 256) = true) ∧
    TtDue 5 5 (ttOne 5 1) ∧ TtDue 5 6 (ttOne 6 0xFA) ∧ (TtDue 5 7 (ttOne 7 15) ∧ chainState 3 (ttOne 7 15) ≠ 3) ∧
    (let s := { ttOne 0 0 with tt := [(5, { armed := true, lateDrop := true })], tb := { sec := 1 } }
     ttPick s = some 5 ∧ (ttEntry s 5).tooLate ((ttEntry s 5).late s) s = true) ∧
    ttPick r0 ≠ some 0 := by decide +kernel

theorem witness_EntryPortsTake :
    (Open .host ttPorts.ctrl r0 ∧ portCmd ttPorts .host r0 = none) ∧
    (let s := { r0 with ports := [(16 * skyPorts.id + readerIdx .host, some ⟨portWord skyPorts 2 220 |>.toNat, [], 0⟩)] }
     Open .host skyPorts.ctrl s ∧ (portCmd skyPorts .host s).isSome = true) := by decide +kernel

/-- A port command written at tick 0, at tick 2. -/
def portAt (p : PortFam) (w : Word) (win : List Word) : State :=
  { r0 with ports := [(16 * p.id + readerIdx .host, some ⟨w.toNat, win, 0⟩)], tick := 2 }

theorem witness_EntryPortsComplete :
    (∀ k ∈ [1, 2, 3], portsDue ttPorts (portAt ttPorts (portWord ttPorts k 4095) []) =
      [(.host, ⟨(portWord ttPorts k 4095).toNat, [], 0⟩)] ∧ bitsOf (portWord ttPorts k 4095).toNat 13 12 = k ∧
      (portWord ttPorts k 4095).toNat % 4096 = 4095) ∧
    (ttEntryOf [0, 0, 0, 0, 0, 0, 0, 0]).isSome = true ∧ ttEntryOf [0, 0, 0x10000, 0, 0, 0, 0, 0] = none ∧
    (portsDue sievePorts (portAt sievePorts (portWord sievePorts 2 63) []) =
      [(.host, ⟨(portWord sievePorts 2 63).toNat, [], 0⟩)] ∧ (portWord sievePorts 2 63).toNat % 128 < 64 ∧
      sieveReqOk [0x80000001, 0x00000101, 0, 0, 0, 0, 0, 0] r0 = true ∧ sieveReqOk [0x80000300, 0, 0, 0, 0, 0, 0, 0] r0 = false) ∧
    (portsDue skyPorts (portAt skyPorts (portWord skyPorts 1 220) []) = [(.host, ⟨(portWord skyPorts 1 220).toNat, [], 0⟩)] ∧
      slotOk 220 emptySlot = true ∧ slotOk 221 emptySlot = false) ∧
    (portsDue cycPorts (portAt cycPorts (portWord cycPorts 2 0) []) = [(.host, ⟨(portWord cycPorts 2 0).toNat, [], 0⟩)] ∧
      bitsOf (portWord cycPorts 2 0).toNat 9 8 = 2 ∧ cycOk ([0, 0, 0, 0, 1, 0, 1, 0, 1] ++ List.replicate 23 0) = true ∧
      cycOk (List.replicate 32 0) = false) := by decide +kernel

theorem witness_EventInputs :
    (let s := setAll [(F.TB_EVT_CTRL_EDGE 3, 1)]
     (s.fld (F.TB_EVT_CTRL_EDGE 3)).testBit 0 = true ∧ (evtIn s 3).last = none ∧ (evtIn s 3).fifo.length < 8 ∧
       Open .host (R.TB_EVT_CTRL 3) s ∧ (0x80000000 : Word).toNat.testBit 31 = true) ∧
    (r0.fld (F.TB_EVT_CTRL_EDGE 0)).testBit 0 = false ∧
    (let s := { setAll [(F.TB_EVT_CTRL_EDGE 3, 1)] with evt := [(3, { fifo := List.replicate 8 ⟨0, 0, 0, true, false, true, 0⟩ })] }
     (evtIn s 3).last = none ∧ 8 ≤ (evtIn s 3).fifo.length) ∧
    (let s := { setAll [(F.TB_EVT_CTRL_EDGE 3, 2)] with evt := [(3, { last := some 0 })], tick := 2 }
     (s.fld (F.TB_EVT_CTRL_EDGE 3)).testBit 1 = true ∧ (evtIn s 3).last = some 0 ∧
       (s.tick * tickUnits - 0) * 10 ^ 11 < 1667 * 120000000 * tickUnits ∧
       ¬((3 * tickUnits - 0) * 10 ^ 11 < 1667 * 120000000 * tickUnits)) := by decide +kernel

/-- Chain 1 in a state, with TARGET and its step. -/
def chainOne (st tgt : Nat) (k : ChainStep) : State :=
  { setAll [(F.GRF_CH_STATUS_STATE 1, st), (F.GRF_CH_CTRL_TARGET 1, tgt), (F.GRF_CH_CTRL_PROFILE 1, 0), (F.GRF_CH_PROF_CAL_CAL_VALID 1 0, 1),
      (F.GRF_CH_PROF_CAL_CAL_VALID 1 1, 1)] with chains := [(1, { step := k })] }

theorem witness_ChainTransitions :
    (∀ st ∈ [0, 1, 2, 3], Open .host (R.GRF_CH_CTRL 1) (chainOne st 0 .none) ∧ (chain (chainOne st 0 .none) 1).step = .none ∧
      (chain (chainOne st 0 .none) 1).cal = none ∧ (chain (chainOne st 0 .none) 1).seq = false ∧
      chainState 1 (chainOne st 0 .none) = st ∧ domainOn 1 (chainOne st 0 .none) = false ∧
      startQueued 1 (chainOne st 0 .none) = false ∧
      (chainOne st 0 .none).bit (F.GRF_CH_PROF_CAL_CAL_VALID 1 (bitsOf (0x103 : Word).toNat 9 8)) = true ∧
      bitsOf (0x103 : Word).toNat 9 8 ≠ (chainOne st 0 .none).fld (F.GRF_CH_STATUS_PROFILE_ACT 1)) ∧
    (∀ p ∈ [(1, ChainStep.wake), (2, .standby), (2, .down), (1, .sleep), (0, .off), (3, .lock)],
      (chain (chainOne 3 p.1 p.2) 1).cal = none ∧ (chainOne 3 p.1 p.2).fld (F.GRF_CH_CTRL_TARGET 1) = p.1 ∧
      wantProfile 1 (chainOne 3 p.1 p.2) = (chainOne 3 p.1 p.2).fld (F.GRF_CH_STATUS_PROFILE_ACT 1)) ∧
    ((chain (chainOne 3 3 (.hop 0)) 1).step = .hop 0 ∧ wantProfile 1 (chainOne 3 3 (.hop 0)) = 0) ∧
    (let s := (chainOne 3 3 .lock).setFld (F.GRF_CH_PROF_CAL_STALE 1 0) 1
     (chain s 1).cold = false ∧ s.bit (F.GRF_CH_PROF_CAL_STALE 1 0) = true) ∧
    (let s := (chainOne 3 3 .none).setFld (F.GRF_CH_STATUS_LOCKED 1) 1
     chainState 1 s = 3 ∧ (chain s 1).step = .none ∧ s.bit (F.GRF_CH_STATUS_LOCKED 1) = true) ∧
    (let s := { (((((chainOne 3 3 .none).setFld (F.GRF_CH_STATUS_IN_WINDOW 1) 1).setFld F.GRF_BURST_CTRL_SEG_COUNT 2).setFld
        (F.GRF_BURST_SEG_DUR 1) 5).setFld (F.GRF_BURST_SEG_PROFILE 1) 1) with chains := [(1, { seq := true })] }
     segFrom ((chain s 1).seg + 1) s = some 1 ∧ s.bit (F.GRF_CH_STATUS_IN_WINDOW 1) = true ∧ (chain s 1).seq = true ∧
       s.fld (F.GRF_CH_CTRL_TARGET 1) = 3 ∧ s.fld (F.GRF_BURST_SEG_PROFILE 1) ≠ s.fld (F.GRF_CH_STATUS_PROFILE_ACT 1) ∧
       s.bit (F.GRF_CH_PROF_CAL_CAL_VALID 1 (s.fld (F.GRF_BURST_SEG_PROFILE 1))) = true) := by decide +kernel

theorem witness_SynthesiserCalibrations :
    (let s := chainOne 3 3 .none
     Open .host R.GRF_CAL_CTRL s ∧ (0x80000004 : Word).toNat.testBit 31 = true ∧ (0x80000004 : Word).toNat % 256 < 16 ∧
       chainState 1 s = 3 ∧ chainState 0 s ≠ 3 ∧ (chain s 1).step = .none ∧ (chain s 1).cal = none ∧
       s.bit (F.GRF_CH_STATUS_IN_WINDOW 1) = false ∧ s.fld (F.GRF_CH_STATUS_PROFILE_ACT 1) = 0) ∧
    (0x15 ≤ (0x80000015 : Word).toNat % 256 ∧ (0x8000003F : Word).toNat % 256 < 0x40) ∧
    (let s := (chainOne 2 2 .none).setFld (F.GRF_CH_PROF_CAL_CAL_PEND 1 3) 1
     chainState 1 s = 2 ∧ (chain s 1).step = .none ∧ s.bit (F.GRF_CH_PROF_CAL_CAL_PEND 1 3) = true ∧
       ∀ m < 3, s.bit (F.GRF_CH_PROF_CAL_CAL_PEND 1 m) = false) ∧
    (let s := { chainOne 2 2 .none with chains := [(1, { cal := some (3, .requested) })] }
     (chain s 1).cal = some (3, .requested) ∧ (chain s 1).step = .none ∧ s.fld (F.GRF_CH_CTRL_TARGET 1) = 2) ∧
    (let s := chainOne 2 2 .none
     s.bit (F.GRF_CH_PROF_CAL_STALE 1 0) = false ∧
       15 < ((16 : BitVec 8).toInt - toSigned 8 (s.fld (F.GRF_CH_PROF_CAL_CAL_TEMP 1 0))).natAbs ∧
       ((15 : BitVec 8).toInt - toSigned 8 (s.fld (F.GRF_CH_PROF_CAL_CAL_TEMP 1 0))).natAbs ≤ 15) := by decide +kernel

theorem witness_AntennaSupervision :
    (let s := { setAll [(F.GRF_CH_ANT_CFG_SHORT_TH 2, 20), (F.GRF_CH_ANT_CFG_OPEN_TH 2, 10), (F.GRF_CH_ANT_CFG_RETRY_MAX 2, 0)] with chains := [(2, { biasOn := true })] }
     (chain s 2).biasOn = true ∧ 5 * s.fld (F.GRF_CH_ANT_CFG_SHORT_TH 2) ≤ (100 : BitVec 10).toNat ∧
       2 * (24 : BitVec 10).toNat < 5 * s.fld (F.GRF_CH_ANT_CFG_OPEN_TH 2) ∧
       5 * s.fld (F.GRF_CH_ANT_CFG_OPEN_TH 2) ≤ 2 * (25 : BitVec 10).toNat ∧
       (99 : BitVec 10).toNat < 5 * s.fld (F.GRF_CH_ANT_CFG_SHORT_TH 2) ∧ s.fld (F.GRF_CH_ANT_CFG_RETRY_MAX 2) = 0) ∧
    (let s := setAll [(F.GRF_CH_ANT_CFG_RETRY_MAX 2, 1), (F.GRF_CH_ANT_CFG_RETRY_INT 2, 1)]
     s.fld (F.GRF_CH_ANT_CFG_RETRY_MAX 2) ≠ 0 ∧ s.fld (F.GRF_CH_ANT_CFG_RETRY_INT 2) ≠ 0 ∧
       s.fld (F.GRF_CH_ANT_STAT_RETRIES 2) ≠ s.fld (F.GRF_CH_ANT_CFG_RETRY_MAX 2)) ∧
    (chain r0 2).biasOn = false ∧
    (let s := setAll [(F.GRF_CH_ANT_STAT_STATE 2, 3), (F.GRF_CH_ANT_CFG_BIAS_MODE 2, 1)]
     s.fld (F.GRF_CH_ANT_STAT_STATE 2) = 3 ∧ biasWanted 2 s = true) ∧
    Open .host (R.GRF_CH_ANT_CFG 2) r0 := by decide +kernel

/-- Chain 0's sample path with what it gathered. -/
def ifcOne (c : IfcChain) (fs : List (Fld × Nat)) : State := { setAll fs with ifc := [(0, c)] }
def det0 : List (BitVec 16) := [0, 600] ++ List.replicate 6 0

theorem witness_InterferenceConditioning :
    ((ifcCh (ifcOne { agcEnd := some (1023, 0, 0) } []) 0).agcEnd = some (1023, 0, 0) ∧ 1023 < 1024 ∧
      (ifcCh (ifcOne { agcEnd := some (1024, 4096, 65) } []) 0).agcEnd = some (1024, 4096, 65) ∧ 1024 ≤ 1024 ∧ 1024 < 16 * 65 ∧
      (ifcOne {} []).fld (F.IFC_CH_AGC_CFG_MODE 0) = 0 ∧ (ifcCh r0 0).agcEnd = none) ∧
    (let s := ifcOne { blankEnd := some 469 } [(F.IFC_CH_BLANK_CFG_SAT_RATIO 0, 1)]
     (ifcCh s 0).blankEnd = some 469 ∧ s.fld (F.IFC_CH_BLANK_CFG_SAT_RATIO 0) ≠ 0 ∧
       s.fld (F.IFC_CH_BLANK_CFG_SAT_RATIO 0) * 120000 < 469 * 256 ∧ s.bit (F.IFC_CH_BLANK_STAT_SUSPENDED 0) = false ∧
       468 * 256 < s.fld (F.IFC_CH_BLANK_CFG_SAT_RATIO 0) * 120000 ∧ (ifcCh r0 0).blankEnd = none) ∧
    (let s := ifcOne { detEnd := some det0 } [(F.IFC_CH_NOTCH_CFG_AUTO 0, 1), (F.IFC_CH_NOTCH_CFG_DETECT_TH 0, 10), (F.IFC_CH_NOTCH_CTRL_MODE 0 1, 1), (F.IFC_CH_NOTCH_CTRL_MODE 0 0, 0)]
     s.bit (F.IFC_CH_NOTCH_CFG_AUTO 0) = true ∧ (∀ m < 8, s.bit (F.IFC_CH_NOTCH_CTRL_ACTIVE 0 m) = false) ∧
       (ifcCh s 0).detEnd = some det0 ∧
       strongest (notchCandidates (det0.map (·.toNat)) (s.fld (F.IFC_CH_NOTCH_CFG_DETECT_TH 0))) = some (1, 600) ∧
       s.fld (F.IFC_CH_NOTCH_CTRL_MODE 0 1) = 1 ∧ ∀ m < 1, s.fld (F.IFC_CH_NOTCH_CTRL_MODE 0 m) ≠ 1) ∧
    (let s := setAll [(F.IFC_CH_NOTCH_CTRL_MODE 0 0, 1), (F.IFC_CH_NOTCH_CTRL_ACTIVE 0 0, 1)]
     within4Bins 0x800001 (Sparse.get (fun _ => 0) (ifcCh s 0).alloc 0) = false) ∧
    (setAll [(F.IFC_CH_NOTCH_CTRL_MODE 0 7, 2)]).fld (F.IFC_CH_NOTCH_CTRL_MODE 0 7) = 2 ∧ (ifcCh r0 0).detEnd = none ∧
    (setAll [(F.IFC_CH_SPEC_CTRL_FREEZE 0, 1)]).bit (F.IFC_CH_SPEC_CTRL_FREEZE 0) = true ∧ (ifcCh r0 0).specEnd = none ∧
    (let s := ifcOne { specEnd := some (List.replicate 2048 0) } [(F.IFC_CH_SPEC_CTRL_EN 0, 1)]
     (ifcCh s 0).specEnd = some (List.replicate 2048 0) ∧ (List.replicate 2048 (0 : BitVec 16)).length = 2048 ∧ s.bit (F.IFC_CH_SPEC_CTRL_EN 0) = true ∧ s.bit (F.IFC_CH_SPEC_CTRL_FREEZE 0) = false) ∧
    Open .host (R.IFC_CH_JAM_STAT 0) r0 ∧
    (let s := { setAll [(F.IFC_CH_JAM_STAT_LEARN_BUSY 0, 1)] with ifc := [(0, { learnCount := 1 })] }
     s.bit (F.IFC_CH_JAM_STAT_LEARN_BUSY 0) = true ∧ (ifcCh s 0).learnBad = false ∧ (ifcCh s 0).learnCount ≠ 0) ∧
    (let s := { setAll [(F.IFC_CH_JAM_STAT_LEARN_BUSY 0, 1)] with ifc := [(0, { learnBad := true })] }
     (ifcCh s 0).learnBad = true) := by decide +kernel

/-- A healthy slot, a locked record of that satellite a great Doppler off, and the state in which it was off at the epoch before too. -/
def slot0 : List Byte := putAt (putAt (List.replicate 256 0) 0 [6, 2]) 18 [1]
def rec0 : List Byte := putAt (putAt (putAt (List.replicate 64 0) 0 [220, 0x3F]) 28 [0xFF, 0xFF, 0xFF, 0x7F]) 34 [1]
def dop0 : State :=
  { State.reset with
    sky := { cur := [(220, slot0)], lastOk := true, fix := some ⟨6371000000, 0, 0, 0⟩ }, published := [(0, (0, [rec0]))],
    fsm := { dopOver := [(220, 0x3F)] } }

theorem dop0_error : recDopError rec0 dop0 = some 524288000 := by
  have h : recCarrier rec0 dop0 = 0 := by decide +kernel
  have hf : dop0.sky.fix = some ⟨6371000000, 0, 0, 0⟩ := rfl
  have hu : (dop0.sky.lastOk && slotUsable (skySlot dop0 (leAt rec0 0 1)) (dop0.widen (leAt rec0 4 8))) = true := by decide +kernel
  unfold recDopError
  rw [hf]
  simp only [hu, if_true, h, Nat.cast_zero, zero_mul, zero_div, add_zero, Option.some.injEq]
  decide +kernel

theorem dop0_over : (220, 0x3F) ∈ dopOver (fsmObs dop0) dop0 := by
  have ho : (epochRecords dop0).filter (fun r => leAt r 0 1 == 220) = [rec0] := by decide +kernel
  have hs : satObs 220 [rec0] dop0 ∈ (fsmObs dop0).sats := by
    simp only [fsmObs]
    rw [List.mem_filterMap]
    refine ⟨220, List.mem_range.2 (by decide), ?_⟩
    rw [ho]
    exact if_neg (by decide)
  have hd : (satObs 220 [rec0] dop0).dop = [(0x3F, 524288000)] := by
    simp only [satObs, List.filterMap_cons, List.filterMap_nil, dop0_error, Option.map_some]
    decide +kernel
  rw [dopOver, List.mem_flatMap]
  refine ⟨_, hs, ?_⟩
  rw [hd]
  decide +kernel

theorem witness_FalseSignalMonitor :
    (let s := setAll [(F.IFC_FSM_CFG_EN_OSNMA, 1), (F.IFC_FSM_CFG_ROOT_OK, 1), (F.IFC_FSM_SAT_OSNMA 220, 2)]
     s.fsm.osnma = [] ∧ s.bit F.IFC_FSM_CFG_EN_OSNMA = true ∧ s.bit F.IFC_FSM_CFG_ROOT_OK = true ∧ s.fld (F.IFC_FSM_SAT_OSNMA 220) = 2) ∧
    (let s := setAll [(F.IFC_FSM_CFG_EN_OSNMA, 0), (F.IFC_FSM_CFG_EN_PWR, 0), (F.IFC_FSM_CFG_EN_DOP, 0), (F.IFC_FSM_CFG_EN_XB, 0)]
     s.bit F.IFC_FSM_CFG_EN_OSNMA = false ∧ s.bit F.IFC_FSM_CFG_EN_PWR = false ∧ s.bit F.IFC_FSM_CFG_EN_DOP = false ∧
       s.bit F.IFC_FSM_CFG_EN_XB = false ∧ s.fsm.fail 220 = none) ∧
    (dop0.bit F.IFC_FSM_CFG_EN_DOP = true ∧ (220, 0x3F) ∈ dopOver (fsmObs dop0) dop0 ∧ (220, 0x3F) ∈ dop0.fsm.dopOver) ∧
    (Open .host (R.IFC_FSM_SAT 220) r0 ∧ Open .host (R.IFC_FSM_SAT 221) r0 ∧ Open .host R.IFC_FSM_CFG r0) :=
  ⟨by decide +kernel, by decide +kernel, ⟨by decide +kernel, dop0_over, by decide +kernel⟩, by decide +kernel⟩

/-- Tracking channel 40 (ring 1) in a state, its ring on. -/
def trkOne (st : Nat) (c : TrkCh) (fs : List (Fld × Nat)) : State :=
  { setAll ([(F.TRK_CH_STATUS_STATE 40, st), (⟨R.PWR_DOMAIN, 6, 6⟩, 1), (F.TRK_CH_CTRL_SIG 40, 0), (F.TRK_CH_CTRL_SAT 40, 0)] ++ fs) with
    trk := [(40, c)] }

theorem witness_RingsAndChannels :
    (Open .host (R.TRK_RING_CTRL 9) r0 ∧ (1 : Word).toNat % 2 = 1 ∧ domainOn 14 r0 = false ∧ startQueued 14 r0 = false) ∧
    (domainOn 6 (trkOne 0 {} []) = true ∧ (0 : Word).toNat % 2 = 0) ∧
    (let s := { r0 with ck := { r0.ck with change := false }, budget := { queue := [⟨5, 0, none⟩] } }
     s.pwr.hib = false ∧ (∀ p ∈ s.tt, p.2.waiting = none) ∧ s.budget.queue = [⟨5, 0, none⟩] ∧
       canGrant 5 (s.setFld F.CK_STATUS_CORE_HOLD 0) = true ∧ canGrant 5 { s with budget := { grants := [(0, 1)] } } = false) ∧
    (let s := trkOne 0 {} []
     Open .host (R.TRK_CH_CTRL 40) s ∧ domainOn (5 + 40 / 32) s = true ∧ chState 40 s = 0 ∧ (0x1F : Word).getLsbD 29 = false ∧
       (0x1F : Word).getLsbD 30 = false ∧
       startRefusal 40 (plainWrite .host (R.TRK_CH_CTRL 40) ((0x3F00 : Word) ||| 0x80000000) s) = some (2, ST.format) ∧
       startRefusal 40 (plainWrite .host (R.TRK_CH_CTRL 40) ((0 : Word) ||| 0x80000000) s) = none) ∧
    (let s := trkOne 2 {} []
     chState 40 s ≠ 0 ∧ s.bit (F.TRK_CH_CTRL_PAIR 40) = false ∧ isFollower 40 s = false ∧ Open .host (rateHiOff 40 false) s ∧
       Open .host (rateHiOff 40 true) s ∧ Open .host (R.TRK_CH_CODE_ADJ 40) s ∧ Open .host (R.TRK_CH_SEC 40) s ∧
       Open .host (R.TRK_CH_INT 40) s) ∧
    ((0x2000 : Word).toNat % 2 ^ 16 * 2 ^ 32 + 0 ≤ 2 ^ 45 ∧ 2 ^ 45 < (0x2000 : Word).toNat % 2 ^ 16 * 2 ^ 32 + 1 ∧
      (toSigned 48 ((0x4000 : Word).toNat % 2 ^ 16 * 2 ^ 32)).natAbs ≤ 2 ^ 46) ∧
    (let s := trkOne 1 {} []
     chState 40 s = 1 ∧ startPassed 40 s = some 0 ∧ startPassed 40 (s.setFld (F.TRK_CH_START_FRAC_FRAC 40) 1) = none) ∧
    (let s := trkOne 2 { n0 := 1 } []
     intOk 40 ((0x10014 : Word).toNat % 256) s = true ∧ bitsOf (0x10014 : Word).toNat 23 16 ≠ 0 ∧ (trkCh s 40).n0 ≠ 0 ∧
       intOk 40 ((0x15 : Word).toNat % 256) s = false) := by decide +kernel

theorem witness_DumpsAndEpochs :
    (let u : Int := 1023 * 2 ^ 48
     let s := trkOne 2 { n0 := 1, uEnd := 1, phase := u } []
     chState 40 s = 2 ∧ isFollower 40 s = false ∧ (trkCh s 40).at_ ≤ s.tick ∧ (trkCh s 40).n0 ≠ 0 ∧
       (trkCh s 40).uEnd * unitPhase 40 s ≤ ((trkCh s 40).run (s.tick - (trkCh s 40).at_)).phase ∧
       (let c : TrkCh := { n0 := 1, uEnd := 1, phase := u - 1 }
        (c.run (s.tick - c.at_)).phase < c.uEnd * unitPhase 40 (trkOne 2 c []))) ∧
    (let d : TrkDump := ⟨1, List.replicate 7 (1, 2), 0, 0, 0⟩
     let s := trkOne 2 { dumps := [d] } []
     (trkCh s 40).dumps = [d] ∧ domainOn (5 + 40 / 32) s = true) ∧
    ((trkCh r0 40).dumps = [] ∧ domainOn (5 + 40 / 32) r0 = false) ∧
    (let s := { trkOne 2 {} [(F.TRK_RING_EPOCH_CFG_RATE 1, 1)] with tb := { phase := 24 * 0x80000 } }
     (trkRing s 1).passed = [] ∧ epochBy 1 s.nowU s = some 0 ∧ epochNext 1 s = some 0 ∧ domainOn 6 s = true ∧ epochDue 1 0 s = true ∧ chState 40 s = 2 ∧
       (∀ j < 32, chState (32 * 1 + j) s = 0 ∨ captureReached (32 * 1 + j) 0 s = true) ∧
       captureReached 40 0 (s.setFld (F.GRF_CH_PROF_CFG_DELAY_PS 0 0) 0xFFFFFF) = false ∧
       epochDue 1 0 { s with rings := [(1, { lastE := some 0 })] } = false) ∧
    Open .host (R.TRK_RING_MEAS_CTRL 1) r0 ∧
    (let s := { trkOne 2 {} [(F.TRK_RING_EPOCH_STAT_CSEQ 1, 2)] with
       rings := [(1, { captured := [8] })], mem := Sparse.putBytes byteDflt [] (ringMem 1 + 0x1A00 + 62) [2] }
     measOf 1 2 s ≠ [] ∧ measOf 1 3 s = [] ∧ measMissed 1 8 (s.setFld (F.TRK_RING_EPOCH_STAT_CSEQ 1) 3) = true) := by decide +kernel

/-- Channel 40 of GPS L1 C/A runs, with a symbol waiting. -/
def navOne (v : Word) (c : NavCh) (sync : Nat) : State :=
  { trkOne 2 {} [(F.NAV_CH_STAT_SYNC 40, sync), (F.NAV_CFG_LOSS_N, 1)] with
    nav := [(40, { c with sig := if c.sig = 0x3F then 0 else c.sig })], navFifo := [(1, [(v, 0, 0)])] }

/-- The same with another signal, and channel 40's decoder with symbols buffered and taken. -/
def navAt (sig : Nat) (v : Word) (c : NavCh) (sync : Nat) : State := navOne v { c with sig := sig } sync
def navBuf (xs : List Int) : NavCh := { buf := xs.map (fun x => ⟨x, false, none⟩), seen := xs.length }

/-- The units that the first `n` symbols decode to once a symbol of +1 is appended. -/
def unitsOne (n : Nat) (s : State) : List NavOut :=
  match chFmt 40 s with
  | some f => navUnits 40 f n (s.bit (F.NAV_CH_STAT_POL 40)) (navAppend 40 [⟨1, false, some 0⟩] (setNavQueue s 1 []))
  | none => []

theorem witness_NavigationPath :
    (let s := trkOne 2 {} []
     Open .host (R.NAV_RING_SYM 1) s ∧ symbolRefused (32 * 1 + bitsOf (0x40000000 : Word).toNat 31 27) 0x40000000 s = false ∧
       (navQueue s 1).length < 64 ∧ 64 ≤ (navQueue { s with navFifo := [(1, List.replicate 64 (0, 0, 0))] } 1).length ∧
       symbolRefused (32 * 1 + bitsOf (0x44000000 : Word).toNat 31 27) 0x44000000 s = true) ∧
    navQueue r0 1 = [] ∧
    (let s := navOne 0x40000800 {} 0
     navQueue s 1 = [(0x40000800, 0, 0)] ∧ (chFmt 40 s).isSome = true ∧ (navCh s 40).tag = 0 ∧ (0x40000800 : Word).getLsbD 10 = false ∧
       s.fld (F.NAV_CH_STAT_SYNC 40) = 0 ∧ (0x40000800 : Word).getLsbD 11 = true) ∧
    ((navCh (navOne 0x40000000 { tag := 1 } 0) 40).tag ≠ 0) ∧
    (let s := navOne 0x40000000 {} 2
     s.fld (F.NAV_CH_STAT_SYNC 40) = 2 ∧ s.fld F.NAV_CFG_LOSS_N ≠ 0 ∧ s.fld F.NAV_CFG_LOSS_N ≤ (navCh s 40).fails + 1) ∧
    (let s := navOne 0x40000400 {} 2
     (navCh s 40).tag = 0 ∧ (0x40000400 : Word).getLsbD 10 = true ∧ s.fld (F.NAV_CH_STAT_SYNC 40) = 2) ∧
    r0.navUnits = [] ∧
    (let s := { r0 with navUnits := [⟨40, 0, 0, 0, 1, 0, 300, 0, 0, 0, 0, 0, []⟩] }
     s.navUnits ≠ [] ∧ (s.fld F.NAV_STG_WR_WR + 1) % 512 ≠ s.fld F.NAV_STG_RD_RD ∧
       ((s.setFld F.NAV_STG_WR_WR 511).fld F.NAV_STG_WR_WR + 1) % 512 = s.fld F.NAV_STG_RD_RD) ∧
    (Open .host R.NAV_STG_RD r0 ∧ Open .host R.NAV_STG_STAT r0 ∧ (0x40000000 : Word).getLsbD 30 = true ∧
      (0 + 512 - 0) % 512 ≤ (0 + 512 - 0) % 512 ∧ (0 + 512 - 0) % 512 < (511 + 512 - 0) % 512) := by decide +kernel

/-- Synchronisation's own clauses: search by mark, confirmation by words and by a unit, and its loss. -/
theorem witness_NavigationPath_sync :
    (let s := navAt 0x01 0x40000800 {} 0
     (chFmt 40 s).map (·.sync) = some .mark ∧ (0x40000800 : Word).getLsbD 11 = true ∧ (navCh s 40).seen = (navCh s 40).buf.length ∧
       s.fld (F.NAV_CH_STAT_SYNC 40) = 0) ∧
    (let s := navAt 0x00 0x40000001 (navBuf (List.replicate 59 1)) 1
     (chFmt 40 s).map (·.words) = some true ∧ (navCh s 40).seen = (navCh s 40).buf.length ∧
       (navCh s 40).seen + 1 = (navCh s 40).start + 60 ∧ (unitsOne 60 s).all (fun o => (o.checks.take 2).all id) = true) ∧
    (let s := navAt 0x18 0x40000001 (navBuf (List.replicate 199 1)) 1
     (chFmt 40 s).map (·.words) = some false ∧ (chFmt 40 s).map (·.sync) ≠ some .mark ∧
       (chFmt 40 s).map (fun f => (f.unit, f.tail)) = some (200, 0) ∧ 2 ≤ (navCh s 40).start + 200 ∧
       (navCh s 40).seen + 1 = (navCh s 40).start + 200 ∧ (unitsOne 200 s).map (·.pass) = [true]) ∧
    (let s := navAt 0x00 0x40000001 (navBuf ((List.replicate 10 (-1 :: List.replicate 29 1)).flatten.take 299)) 2
     (chFmt 40 s).map (fun f => (f.unit, f.tail, f.patLen, f.places)) = some (300, 0, 8, [0]) ∧
       (navCh s 40).seen = (navCh s 40).buf.length ∧ (navCh s 40).seen + 1 = (navCh s 40).start + 300 ∧
       (navCh s 40).seen + 1 ≠ (navCh s 40).start + 0 + 8 ∧ s.fld F.NAV_CFG_LOSS_N = (navCh s 40).fails + 1 ∧
       (unitsOne 300 s).map (fun o => (chFmt 40 s).map (fun f => o.verdict f)) = [some 1]) := by decide +kernel

/-- One plan entry of the Sieve, for GPS L1 C/A on chain 0. -/
def planOne (e : PlanEntry) (fs : List (Fld × Nat)) : State :=
  { setAll (fs ++ [(F.SIEVE_CFG_EN, 1), (F.CK_STATUS_CORE_HOLD, 0)]) with sieve := { plan := [(63, e)] } }
def req0 : List Word := [0x80000000, 0x00000101, 0, 0, 0, 0, 0, 0]

theorem witness_SieveSearches :
    (let s := planOne { req := req0, state := 1 } []
     s.bit F.SIEVE_CFG_EN = true ∧ pstate s ≠ 2 ∧ (planEntry s 63).state = 1 ∧ captureBusy (planEntry s 63).chain s = false ∧
       planFirst (fun x => x.state == 1 && x.chain == (planEntry s 63).chain) s = some 63 ∧ (planEntry s 63).conf = false) ∧
    (setAll [(F.SIEVE_CFG_EN, 0)]).bit F.SIEVE_CFG_EN = false ∧
    (let s := planOne { req := req0, state := 2, got := List.replicate 4092 0, invalid := 511 } []
     let n := captureRate 1023 * (planEntry s 63).tcoh * (planEntry s 63).nnc
     (sigOf (planEntry s 63).sig).map (·.kcps) = some 1023 ∧ (planEntry s 63).state = 2 ∧ (planEntry s 63).conf = false ∧
       n = (planEntry s 63).got.length ∧ 8 * (planEntry s 63).invalid ≤ n ∧ n < 8 * 512 ∧
       s.fld F.TB_STATUS_STEP_SEQ = (planEntry s 63).steps ∧ (planEntry s 63).retries < 3) ∧
    (let s := planOne { req := req0, state := 3, samples := [0], left := 1 } [(⟨R.PWR_DOMAIN, 15, 15⟩, 1), (F.SIEVE_CAP_CAP, 10)]
     laneFree 0 s = true ∧ sieveReady s = some 63 ∧ s.sieve.used + passCost (planEntry s 63).size ≤ sieveBudget s ∧
       sieveBudget (s.setFld F.SIEVE_CAP_CAP 0) < s.sieve.used + passCost (planEntry s 63).size ∧ s.sieve.capped = false) ∧
    laneFree 0 r0 = false ∧
    (let e : PlanEntry := { req := req0, state := 3, samples := [0] }
     e.searching = true ∧ e.left = 0 ∧ e.busy = 0) ∧
    (let s := planOne { req := req0, state := 5 } [(⟨R.PWR_DOMAIN, 14, 14⟩, 1), (⟨R.SIEVE_RING_MASK, 9, 9⟩, 1)]
     (planEntry s 63).state = 5 ∧ handRing s = some 9 ∧ handSlot 9 s = some 0) ∧
    (let s := { planOne { req := req0, state := 5 } [(R.SIEVE_RING_MASK |> fun o => ⟨o, 9, 0⟩, 0)] with tb := { sec := 1 } }
     handRing s = none ∧ (2 ^ 32 / 10 : Int) ≤ toSigned 64 ((s.now64 + 2 ^ 64 - (planEntry s 63).t) % 2 ^ 64)) ∧
    (Open .host R.SIEVE_STALE r0 ∧
      (planOne { req := req0, issued := true, hseq := 0xFFFF } []).sieve.plan.find? (fun x => x.2.issued && x.2.hseq == 0xFFFF) ≠ none ∧
      r0.sieve.plan.find? (fun x => x.2.issued && x.2.hseq == 0) = none) ∧
    (let s := planOne {} [(F.SIEVE_CFG_AUTO, 1), (F.SIEVE_CFG_PERIOD, 1)]
     s.bit F.SIEVE_CFG_AUTO = true ∧ s.bit F.SIEVE_CFG_EN = true ∧ s.fld F.SIEVE_CFG_PERIOD ≠ 0) ∧
    (let s := { setAll [(F.PWR_STAT_STATE, 1), (⟨R.PWR_DOMAIN, 15, 15⟩, 1)] with tick := 1200000 }
     pstate s = 1 ∧ domainOn 15 s = true ∧ s.sieve.last + 1200000 ≤ s.tick ∧ sieveReady s = none ∧
       ∀ l < 8, (Machine.lane s l).work = none) := by decide +kernel

/-- One job in a slot. -/
def jobOne (k : Nat) (j : Job) (fs : List (Fld × Nat)) : State :=
  { setAll (fs ++ [(F.CK_STATUS_CORE_HOLD, 0)]) with car := { jobs := [(k, some j)] } }

theorem witness_SnapshotJobs :
    (let s := setAll [(F.HOST_NEG_NEGOTIATED, 1), (F.HOST_RING_CFG_SIZE_E 31, 1), (F.HOST_RING_CFG_SIZE_E 63, 5),
        (⟨R.HOST_RING_TAIL 31, 31, 0⟩, 1), (F.CAR_SRC_LIMIT_MAXSLOT 31, 1), (F.CAR_CFG_EN, 1), (F.CAR_ARB_CFG_PREFETCH, 1),
        (F.CAR_GROUP_CFG_ADMIT 0, 1), (F.CAR_GROUP_CFG_ADMIT 1, 1), (F.CAR_GROUP_CFG_ADMIT 2, 1), (F.CAR_GROUP_CFG_ADMIT 3, 1)]
     hostServed 31 s = true ∧ srcPick (takeSources s) s = some 31 ∧ ringOn 31 s = true ∧ s.host.d3hot = false ∧
       s.fld (F.CAR_SRC_LIMIT_MAXSLOT 31) ≠ 0 ∧ nextSlot { s with car := { reading := some 31 } } = some 0 ∧
       descTakes 31 { setAll [(F.CAR_SRC_LIMIT_MAXSLOT 31, 0)] with
         car := { reading := some 31, jobs := [(0, some { src := 31, state := 6, desc := [], record := some [0] })] } } = false ∧
       descCheck 31 false (List.replicate 128 0) s = some (ST.version, 0x01)) ∧
    r0.car.reading ≠ some 0 ∧
    (let j : Job := { src := 31, state := 1, desc := List.replicate 128 0 }
     let s := jobOne 16383 j []
     (stageWaiting s).map (·.1) = some 16383 ∧ jobAt s 16383 = some j ∧ blocksFor (descLen j.desc) ≤ stageFree s) ∧
    (let j : Job := { src := 31, state := 1, desc := List.replicate 128 0, blocks := 1 }
     let s := jobOne 16383 j []
     jobAt s 16383 = some j ∧ j.blocks ≠ 0 ∧ j.ending = none ∧ j.src < 32 ∧ deadlinePassed j.desc s = false ∧
       leAt [0, 2, 0xFF] 1 1 = 2 ∧ snapCheck j.desc [0, 2, 0xFF] = some 0x21) ∧
    (let j : Job := { src := 33, state := 2, desc := List.replicate 128 0 }
     let w := backlogSync (jobOne 0 j [])
     windowsFree 33 w = true ∧ srcPick ((List.range 34).filter (fun i => windowsFree i w)) w ≠ none ∧ oldestQueued 33 w = some (0, j) ∧
       jobInstant j w = some 0 ∧ deadlinePassed j.desc w = false ∧
       (maskSigs (descMask j.desc)).all (fun c => (usableSats c (w.widen 0) w).isEmpty) = true) ∧
    (let d := putAt (List.replicate 128 0) 28 [8]
     let j : Job := { src := 0, state := 2, desc := d, prof := some 2 }
     let w := backlogSync { jobOne 0 j [] with sky := { cur := [(220, slot0)] } }
     windowsFree 0 w = true ∧ srcPick ((List.range 34).filter (fun i => windowsFree i w)) w = some 0 ∧ oldestQueued 0 w = some (0, j) ∧
       jobInstant j w = some 0 ∧ (maskSigs (descMask j.desc)).all (fun c => (usableSats c (w.widen 0) w).isEmpty) = false) ∧
    (let j : Job := { src := 0, state := 3, desc := List.replicate 128 0 }
     let s := jobOne 9 j []
     jobAt s 9 = some j ∧ deadlinePassed j.desc s = false) ∧
    (let j : Job := { src := 31, state := 6, desc := List.replicate 128 0, record := some (List.replicate 64 0) }
     let s := jobOne 5 j [(F.HOST_RING_CFG_SIZE_E 63, 5)]
     j.record = some (List.replicate 64 0) ∧ j.silent = false ∧ recordRoom 31 (List.replicate 64 0) s = true ∧
       recordRoom 31 (List.replicate 64 0) (s.setFld ⟨R.HOST_RING_TAIL 63, 31, 0⟩ 32) = false) ∧
    (let d : List Byte := (List.replicate 128 0).zipIdx.map (fun e => if e.2 = 32 then 1 else e.1)
     let s := { jobOne 5 { src := 31, state := 7, desc := d } [] with tb := { sec := 1 } }
     descDeadline d ≠ 0 ∧ deadlinePassed d s = true) ∧
    (Open .host R.CAR_CANCEL_CTRL r0 ∧ (0x80000021 : Word).getLsbD 31 = true ∧ (0x80000021 : Word).toNat % 64 ≤ 33) ∧
    (let j : Job := { src := 31, state := 7, desc := List.replicate 128 0 }
     let s := { jobOne 5 j [(F.CAR_FWD_CFG_TIMEOUT, 1)] with tick := 120000 }
     descDeadline j.desc = 0 ∧ s.fld F.CAR_FWD_CFG_TIMEOUT ≠ 0 ∧ j.sentAt + s.fld F.CAR_FWD_CFG_TIMEOUT * 120000 ≤ s.tick ∧
       119999 < j.sentAt + s.fld F.CAR_FWD_CFG_TIMEOUT * 120000) := by decide +kernel

theorem witness_CarouselPasses :
    (Open .host (R.CAR_PROF_CFG 2) r0 ∧ profIdle 2 r0 = true ∧
      profOk 2 ((r0.setFld (F.CAR_PROF_CFG_GCODE 2) 0).setFld (F.CAR_PROF_CFG_TSEG 2) 5) = false ∧ profJobs 2 r0 = 0 ∧
      (setAll [(F.CAR_PROF_CFG_VALID 2, 1)]).bit (F.CAR_PROF_CFG_VALID 2) = true) ∧
    (protAllows .host 1 0xFFFFFC true r0 = true ∧ mapAnswers .host r0 = true ∧ (∀ i < 4, storeHeld (0xFFFFFC + i) r0 = false)) ∧
    laneFree 63 r0 = false ∧
    (let s := setAll [(⟨R.PWR_DOMAIN, 22, 22⟩, 1), (F.CK_STATUS_CORE_HOLD, 0)]
     laneFree 63 s = true ∧ sieveReady s = none ∧ testDue 63 s = false ∧ (lane s 63).next = none) ∧
    (let j : Job := { src := 33, state := 4, desc := List.replicate 128 0, prof := some 0, fwdLeft := 1 }
     let s := jobOne 0 j [(⟨R.PWR_DOMAIN, 22, 22⟩, 1), (F.CAR_LANE_CFG_BUDGET, 1)]
     jobReady j = true ∧ passJob 33 s = some (0, j) ∧ passSource (backlogSync s) = some 33 ∧
       s.car.used + passCost (jobSize j s) ≤ carBudget s ∧ carBudget (s.setFld F.CAR_LANE_CFG_BUDGET 0) < passCost 4096 ∧
       s.car.hit = false) ∧
    (let s := setAll [(F.CAR_ARB_CAL_WEIGHT, 1), (F.CAR_LANE_CFG_BUDGET, 1), (⟨R.PWR_DOMAIN, 22, 22⟩, 1), (F.CK_STATUS_CORE_HOLD, 0)]
     laneFree 63 s = true ∧ pstate s = 0 ∧ passSource (backlogSync s) = some 34 ∧ s.car.used + passCost 4096 ≤ carBudget s) ∧
    (let s := { r0 with car := { lanes := [(63, { work := some .cal })] } }
     (lane s 63).work = some .cal ∧ (lane s 63).next = none ∧ (lane s 63).since = []) ∧
    (let j : Job := { src := 0, state := 5, desc := List.replicate 128 0 }
     jobAt (jobOne 16383 j []) 16383 = some j) ∧
    (setAll [(F.CAR_LANE_CFG_GATE_EN, 0)]).bit F.CAR_LANE_CFG_GATE_EN = false ∧
    (let s := { planOne { busy := 1 } [] with car := { lanes := [(63, { work := some (.sieve 63 0) })] } }
     (lane s 63).work = some (.sieve 63 0) ∧ (planEntry s 63).busy ≠ 0 ∧ (planEntry s 63).order = 0) ∧
    (let j : Job := { src := 0, state := 4, desc := [], fwdBusy := 1 }
     let s := { jobOne 7 j [] with car := { jobs := [(7, some j)], lanes := [(0, { work := some (.fwd 7 0) })] } }
     (lane s 0).work = some (.fwd 7 (slotGen s 7)) ∧ jobAt s 7 = some j ∧ j.ending = none ∧ deadlinePassed j.desc s = false) ∧
    (let j : Job := { src := 0, state := 4, desc := [], prof := some 0 }
     passesDone j = true ∧ deadlinePassed j.desc r0 = false ∧ j.prof.isSome = true ∧ descFlag j.desc 0 = false) ∧
    (let s := setAll [(F.CAR_LANE_CFG_MIN_ON, 1)]
     pstate s = 0 ∧ s.pwr.trans ≠ some 1 ∧ groupsOn s < s.fld F.CAR_LANE_CFG_MIN_ON ∧ groupNext s = some 0) ∧
    (let s := { setAll [(F.CAR_LANE_CFG_GATE_EN, 1), (F.CAR_LANE_CFG_MIN_ON, 0), (⟨R.PWR_DOMAIN, 22, 22⟩, 1)] with tick := 10 ^ 9 }
     s.bit F.CAR_LANE_CFG_GATE_EN = true ∧ groupLast s = some 7 ∧
       (∀ i < 8, (lane s (8 * 7 + i)).work = none ∧ (lane s (8 * 7 + i)).next = none ∧
         (lane s (8 * 7 + i)).idle + s.fld F.CAR_LANE_CFG_IDLE_T * 1200 ≤ s.tick) ∧
       s.fld F.CAR_LANE_CFG_MIN_ON < ((List.range 8).filter (fun g => domainOn (groupDomain g) s)).length) ∧
    (let s := { setAll [(⟨R.PWR_DOMAIN, 22, 22⟩, 1), (F.CAR_ARB_CAL_TEST_INT, 1)] with tick := 120000000 }
     testDue 63 s = true ∧ laneFree 63 s = true ∧ (lane s 63).since = []) := by decide +kernel

theorem witness_SkyAndSolver :
    (let s := { r0 with sky := { live := [⟨0, 5, []⟩], epochs := 6 } }
     wholeSecond s = true ∧ s.pwr.hib = false ∧ ∃ x ∈ epochsRead s, x ≠ s.sky.epochs) ∧
    (wholeSecond { r0 with tb := { phase := 2 ^ 64 } } = false ∧ hib.pwr.hib = true) ∧
    (wholeSecond r0 = true ∧ (∀ x ∈ epochsRead r0, x = r0.sky.epochs) ∧ r0.sky.pend.Pairwise (fun a b => a.1 < b.1)) ∧
    (Open .host R.SKY_QRY_CTRL r0 ∧ (0x800000DD : Word).getLsbD 31 = true ∧ skyQuery .host r0 = none) ∧
    (let s := { r0 with sky := { query := [(readerIdx .host, some (0, [7]))] } }
     skyQuery .host s = some (0, [7])) ∧
    (let s := { r0 with published := [(0, (5, [[0]]))], sky := { epochsCap := [⟨5, [0], false⟩] } }
     s.pwr.hib = false ∧ liveReady 5 s = true ∧ s.sky.wait.contains 5 = false ∧ enginesBusy s < 4 ∧ s.sky.live = [] ∧
       4 ≤ enginesBusy { s with sky := { s.sky with live := List.replicate 4 ⟨0, 0, []⟩ } } ∧ liveReady 6 s = false) ∧
    (let s := { r0 with sky := { live := [⟨0, 0, List.replicate 64 0⟩], lastOk := true } }
     s.sky.live = [⟨0, 0, List.replicate 64 0⟩] ∧ s.sky.wait = [] ∧ leAt (List.replicate 64 0) 0 1 = 0 ∧
       leAt (1 :: List.replicate 63 0) 0 1 ≠ 0) ∧
    (Open .host R.SOL_LIVE_CFG r0 ∧ (0x80000000 : Word).toNat / 2 ^ 30 = 2 ∧ (0x40000000 : Word).toNat / 2 ^ 30 < 2 ∧
      (0xC0000000 : Word).toNat / 2 ^ 30 = 3) := by decide +kernel

/-- The discipline at a level, with its reference an hour old. -/
def tpAt (level : Nat) (fs : List (Fld × Nat)) : State :=
  { setAll ([(F.TP_STATUS_LEVEL, level), (F.TB_STATUS_VALID, 1)] ++ fs) with tb := { sec := 3600 }, disc := { ref := some 0 } }

theorem witness_TimeDiscipline :
    (let s := { tpAt 1 [] with disc := { pend := some (3600, 1) } }
     s.disc.pend = some (3600, 1) ∧ s.disc.armed = false ∧ 3600 * secUnits ≤ s.nowU + secUnits / 100 ∧
       s.nowU + secUnits / 100 < 3601 * secUnits) ∧
    (let s := tpAt 1 [(F.TP_CTRL_LOSS_T, 10)]
     tpLevel s = 1 ∧ lossTime s = true ∧ sgT { s with disc := {} } < (s.fld F.TP_CTRL_LOSS_T : Rat)) ∧
    (let s := tpAt 2 [(F.TP_HOLD_CFG_EXPIRY, 3600)]
     tpLevel s = 2 ∧ (s.fld F.TP_HOLD_CFG_EXPIRY : Rat) ≤ sgT s) ∧
    (let s := tpAt 1 [(F.TP_CTRL_DISC_EN, 1)]
     Open .host R.TP_CTRL s ∧ s.bit F.TP_CTRL_DISC_EN = true ∧ (0 : Word).getLsbD 31 = false ∧ (0x80000000 : Word).getLsbD 31 = true) ∧
    (let s := { tpAt 1 [(F.TP_WIDTH_WIDTH 1, 10), (F.CK_STATUS_CORE_HOLD, 0)] with tp := [(1, { armed := [⟨3600 * secUnits, none⟩] })] }
     firstEdge 1 s = some ⟨3600 * secUnits, none⟩ ∧ squelched (s.setFld F.TB_STATUS_VALID 0) = true ∧ (3600 * secUnits : Nat) < edgeNow s + s.tickStep ∧ squelched s = false ∧
       s.fld (F.TP_WIDTH_WIDTH 1) * usUnits ≠ 0 ∧ (tpOut s 1).last = none) ∧
    (let s := { tpAt 1 [(F.TP_WIDTH_WIDTH 1, 10)] with tp := [(1, { armed := [⟨3600 * secUnits, some 10⟩], last := some (3600 * secUnits) })] }
     firstEdge 1 s = some ⟨3600 * secUnits, some 10⟩ ∧ (tpOut s 1).last = some (3600 * secUnits) ∧ squelched s = false ∧
       realAt (3600 * secUnits) s < (3600 * secUnits : Nat) + 10 ∧ 10 ≤ s.fld (F.TP_WIDTH_WIDTH 1) * usUnits) ∧
    (let s := tpAt 2 [(F.TP_CTRL_DISC_EN, 1)]
     s.bit F.TP_CTRL_DISC_EN = true ∧ 2 ≤ tpLevel s) ∧
    firstEdge 0 r0 = none ∧
    (let s := { r0 with tp := [(0, { high := true, ends := 5 })] }
     tpOut s 0 = { high := true, ends := 5 } ∧ (5 : Int) < gridNow s + tickGrid ∧ gridNow s + tickGrid ≤ (tickGrid : Nat) ∧
       (tpOut r0 0).high = false) ∧ Open .host R.TP_FOUT_CFG r0 ∧
    (let s := { setAll [(F.TRP_TWIN_STAT_ROLE, 1), (⟨R.TRP_PORT_PEER_LO 0, 31, 0⟩, 5)] with disc := { takeover := true }, tb := { sec := 1, phase := secUnits / 2 } }
     pulseSafe s = true ∧ s.disc.takeover = true ∧ isStandby s = true ∧ peerSerial 0 s ≠ 0 ∧ ¬peerSerial 0 s < ownSerial s) ∧
    (pulseSafe r0 = false ∧ r0.disc.takeover = false ∧ r0.fld F.TRP_TWIN_STAT_ROLE ≠ 2) ∧
    (let s := setAll [(F.TRP_TWIN_STAT_ROLE, 2), (⟨R.TRP_PORT_PEER_LO 0, 31, 0⟩, 5)]
     s.fld F.TRP_TWIN_STAT_ROLE = 2 ∧ ownSerial s < peerSerial 0 s) := by decide +kernel

/-- Clock synthesis in a state. -/
def ckAt (st : Nat) (c : ClockSyn) : State := { setAll [(F.CK_STATUS_STATE, st)] with ck := c }

theorem witness_ClockSynthesis :
    (∀ st ∈ [1, 3, 4, 5], (ckAt st { change := false }).ck.change = false ∧ (ckAt st { change := false }).ck.after = none ∧
      ckState (ckAt st { change := false }) = st) ∧
    (∀ st ∈ [0, 1, 2], (ckAt st {}).ck.change = true ∧ ckState (ckAt st {}) = st) ∧
    (refLostBy (.amp 1000) r0 = true ∧ refLostBy (.amp 999) r0 = false) ∧
    (let s := { ckAt 4 { tsynAt := some (0, 5) } with tick := 240 }
     s.ck.tsynAt = some (0, 5) ∧ 0 + 240 ≤ s.tick) ∧
    (ckState (ckAt 0 { inUse := 1 }) = 0 ∧ (ckAt 0 { inUse := 1 }).ck.change = true ∧ (ckAt 0 { inUse := 1 }).ck.inUse ≠ 0) ∧
    ((ckAt 5 {}).setFld F.CK_CFG_AUTO_RETURN 1).bit F.CK_CFG_AUTO_RETURN = true ∧
    (Open .host R.CK_CTRL (ckAt 5 {}) ∧ ((ckAt 5 {}).setFld F.CK_CFG_AUTO_RETURN 0).bit F.CK_CFG_AUTO_RETURN = false) ∧
    ((50000 : Word).toInt.natAbs ≤ 50000 ∧ 50000 < (50001 : Word).toInt.natAbs ∧ (1000000 : Word).toInt.natAbs ≤ 1000000 ∧
      1000000 < (-1000001 : Word).toInt.natAbs ∧ ckState (ckAt 1 {}) = 1) ∧
    (Open .host R.CK_CFG (ckAt 4 { inUse := 2 }) ∧ (0x80000002 : Word).toNat % 4 = 2 ∧ (1 : Word).toNat % 4 ≠ 2) ∧
    (let s := { ckAt 2 { inUse := 1, errs := List.replicate 256 0 } with tick := 3072 }
     ckState s = 2 ∧ mdllHeld s = true ∧ s.ck.errs.length = 256 ∧ lockEdges s = 256) ∧
    (let s := { ckAt 2 { inUse := 1, errs := List.replicate 256 32767 } with tick := 3072 }
     ckState s = 2 ∧ mdllFails s = true ∧ mdllHeld s = false) ∧
    (let s := { setAll [(F.CK_STATUS_NO_REF, 1)] with ck := { selBySw := true } }
     s.bit F.CK_STATUS_NO_REF = true ∧ s.ck.selBySw = true ∧ r0.ck.selBySw = false) ∧
    ((setAll [(F.CK_STATUS_NO_REF, 1)]).bit F.CK_STATUS_NO_REF = true ∧ r0.ck.inUse = 0 ∧ (3 : Fin 4).val ≠ 0) ∧
    (Open .host R.CK_DIV_COMMIT r0 ∧ r0.bit F.CK_DIV_COMMIT_PEND = false ∧ divsOk r0 = true ∧
      divsOk (setAll [(F.CK_DIV_NEXT_SEQ, 0)]) = false) ∧
    (let s := { ckAt 4 { div := some (0, 0) } with tick := 12 }
     s.ck.div = some (0, 0) ∧ (s.tick - s.ck.porTick) % 12 = 0 ∧ 0 + 2 ≤ s.tick ∧ (s.setFld F.CK_STATUS_CORE_HOLD 0).bit F.CK_STATUS_CORE_HOLD = false) ∧
    (let s := { setAll [(F.CK_STATUS_TSYN_LOCK, 1)] with ck := { phases := List.replicate 16 (513 : Int) } }
     s.bit F.CK_STATUS_TSYN_LOCK = true ∧ (∀ e ∈ tsynPhases s, 512 < e.natAbs) ∧
      (∃ e ∈ tsynPhases { s with ck := { phases := [-512] } }, e.natAbs ≤ 512)) := by decide +kernel

/-- The beacon radio in a state, taking a step. -/
def bcnAt (st tgt : Nat) (b : Beacon) (fs : List (Fld × Nat)) : State :=
  { setAll ([(F.BCN_STATUS_STATE, st), (F.BCN_CTRL_TARGET, tgt), (F.CK_STATUS_CORE_HOLD, 0)] ++ fs) with bcn := b }

/-- A VALID charter: 868 MHz with 10 dBm and a duty of 1 % on channel n, with or without listening. -/
def chtOne (n : Nat) (lbt : Byte) : List Byte :=
  [0, 0, 0x10, 0x27] ++ List.replicate (12 + 16 * n) 0 ++ [0x00, 0xA1, 0xBC, 0x33, 40, 0, 0x64, 0, lbt, 0x80, 1]
def bcnCht (st tgt n : Nat) (lbt : Byte) (b : Beacon) (fs : List (Fld × Nat)) : State :=
  bcnAt st tgt { b with charter := chtOne n lbt } (fs ++ [(F.BCN_STATUS_CHT_STATE, 1)])

theorem witness_BeaconRadio :
    (∀ st ∈ [0, 1, 2, 3], let s := bcnCht st 0 63 0 {} [(F.BCN_CH_CAL_CAL_VALID 63, 1)]
     chtEnabled 63 s = true ∧ Open .host R.BCN_CTRL s ∧ s.bcn.step = .none ∧ bcnState s = st ∧ bcnMuted s = false ∧
       domainOn 4 s = false ∧ startQueued 4 s = false ∧ s.fld F.BCN_STATUS_CHAN_ACT ≠ 63 ∧ s.bit (F.BCN_CH_CAL_CAL_VALID 63) = true) ∧
    (let s := bcnCht 3 3 63 0 {} [(F.BCN_CH_TUNE_TUNE_PEND 63, 1), (F.BCN_CFG_PA_MODE, 1)]
     bcnTuneNext s = some 63 ∧ bcnIdle s = true ∧ bcnCalNext s = none ∧ s.bit F.BCN_CFG_PA_MODE = true) ∧
    (∀ lbt ∈ [0, 1], let s := bcnCht 3 3 63 lbt { search := some 63 } [(F.BCN_CH_TUNE_TUNE_PEND 63, 1), (F.BCN_CFG_PA_MODE, 0),
        (F.BCN_STATUS_CHAN_ACT, 63), (F.BCN_CH_CAL_CAL_VALID 63, 1)]
     bcnTuneNext s = some 63 ∧ bcnIdle s = true ∧ bcnCalNext s = none ∧ s.bit F.BCN_CFG_PA_MODE = false ∧
       s.fld F.BCN_STATUS_CHAN_ACT = 63 ∧ chtEnabled 63 s = true ∧ chtDuty 63 s ≠ 0 ∧ chtTotal s ≠ 0 ∧ dutyAllows 63 375 s = true ∧
       chtLbt 63 s = (lbt == 1) ∧ lbtThreshold 63 s ≤ (-128 : BitVec 8).toInt) ∧
    (let s := bcnCht 3 3 63 1 {} []
     (-129 : Int) < lbtThreshold 63 s) ∧
    (let s := bcnAt 2 2 {} []
     Open .host R.BCN_CTRL s ∧ s.bcn.cal = none ∧ s.bcn.tx = none ∧ s.bcn.held = none ∧ s.bcn.search = none ∧ bcnMuted s = false ∧
       s.bcn.step = .none ∧ chtEnabled 63 s = false) ∧
    (∀ p ∈ [(BcnStep.wake, 1), (.standby, 2), (.down, 2), (.sleep, 1), (.off, 0)],
      (bcnAt 0 p.2 { step := p.1 } []).bcn.step = p.1 ∧ (bcnAt 0 p.2 { step := p.1 } []).fld F.BCN_CTRL_TARGET = p.2) ∧
    (let s := bcnAt 2 3 { step := .lock 63 } [(F.BCN_CTRL_CHAN, 63)]
     s.bcn.step = .lock 63 ∧ s.fld F.BCN_CTRL_TARGET = 3 ∧ s.bcn.stay.getD (s.fld F.BCN_CTRL_CHAN) = 63) ∧
    (let s := bcnAt 2 2 {} [(F.BCN_CH_CAL_CAL_PEND 63, 1)]
     bcnCalNext s = some 63 ∧ bcnIdle s = true) ∧
    bcnCalNext r0 = none ∧ bcnTuneNext r0 = none ∧ (bcnAt 6 2 { cal := some (63, true) } []).bcn.cal = some (63, true) ∧
    (let s := bcnAt 2 2 {} [(F.BCN_CH_CAL_CAL_VALID 0, 1), (F.BCN_CH_CAL_STALE 0, 0), (F.BCN_CH_CAL_CAL_TEMP 0, 0)]
     s.bit (F.BCN_CH_CAL_CAL_VALID 0) = true ∧ s.bit (F.BCN_CH_CAL_STALE 0) = false ∧
       15 < ((-16 : BitVec 8).toInt - toSigned 8 (s.fld (F.BCN_CH_CAL_CAL_TEMP 0))).natAbs) ∧
    (let s := bcnAt 3 3 {} [(F.BCN_CH_TUNE_TUNE_PEND 63, 1)]
     bcnTuneNext s = some 63 ∧ bcnIdle s = true ∧ bcnCalNext s = none ∧ s.bcn.search ≠ some 63) ∧
    Open .host R.BCN_CHT_QRY r0 := by decide +kernel

/-- A held frame for channel 0, due at 0. -/
def frame0 : BcnFrame := { index := 255, due := 0, desc := [1, 0, 1] ++ List.replicate 253 0 }

theorem witness_BeaconFrames_charter :
    (let s := bcnCht 3 3 0 0 {} []
     chtBars frame0.desc s = false ∧ chtBars frame0.desc (bcnCht 3 3 1 0 {} []) = true) ∧
    (let s := bcnCht 3 3 63 0 { search := some 63 } [(F.BCN_STATUS_CHAN_ACT, 63), (F.BCN_DET_FWD_SLOPE, 0x7FFF)]
     s.bcn.search = some 63 ∧ bcnRests s = true ∧ burstCut 63 s 1 [] = none ∧ burstCut 63 s 1 [(4095, 0)] = some (1, ST.charter)) := by
  decide +kernel

theorem witness_BeaconFrames :
    (let t := ttOne 4 255
     let s := { ([(F.BCN_CFG_EN, 1), (F.TB_STATUS_VALID, 1), (F.TP_STATUS_LEVEL, 1), (F.BCN_STATUS_CHT_STATE, 1),
         (F.BCN_STATUS_STATE, 3)].foldl (fun s p => s.setFld p.1 p.2) t) with
         mem := Sparse.putBytes byteDflt [] (descAddr 255) [1, 0, 1], bcn := { t.bcn with charter := chtOne 0 0 } }
     TtDue 5 4 s ∧ ((ttEntry s 5).latest s).param = 255 ∧
       frameFault (s.memBytes (descAddr 255) 256) ((ttEntry s 5).latest s).due s = none ∧ bcnState s ≠ 0) ∧
    (∀ lbt ∈ [0, 1], let s := bcnCht 3 3 0 lbt { held := some frame0 } [(F.BCN_STATUS_CHAN_ACT, 0)]
     s.bcn.held = some frame0 ∧ frameReady frame0 s = true ∧ s.nowU - frame0.due * fracUnits ≤ s.fld F.BCN_TX_CFG_SLOT_TOL * usUnits ∧
       dutyAllows frame0.chan frame0.air s = true ∧ (chtLbt frame0.chan s || (leAt frame0.desc 0 1).testBit 1) = (lbt == 1)) ∧
    (let s := bcnCht 4 3 0 1 { tx := some frame0 } []
     s.bcn.tx = some frame0 ∧ frame0.ramp = none ∧ s.tick < frame0.listen + 120 * lbtTime frame0.chan s ∧
       (-129 : Int) < lbtThreshold frame0.chan s ∧ lbtThreshold frame0.chan s ≤ (-128 : BitVec 8).toInt ∧
       lbtThreshold frame0.chan { s with bcn := { s.bcn with charter := putAt s.bcn.charter 0x19 [0] } } ≤ 0 ∧ frame0.mid = none) ∧
    (let f := { frame0 with ramp := some 0, airUs := 100, mid := some ⟨0, 127, true, true⟩ }
     let s := { bcnCht 5 3 0 0 { tx := some f } [(F.BCN_DET_FWD_SLOPE, 0x7FFF), (F.BCN_PROT_RL_TRIP, 40)] with tick := 11880 }
     s.bcn.tx = some f ∧ f.ramp = some 0 ∧ (s.tick - 0 + 119) / 120 = 99 ∧ f.airUs ≤ (s.tick + 120 - 0 + 119) / 120 ∧ f.status = 0 ∧
       f.mid = some ⟨0, 127, true, true⟩ ∧ 0 ≤ s.tick ∧ onAir s = some f ∧
       (chtPower f.chan s : Rat) + 4 < pFwd (4095 : BitVec 12).toNat s ∧ ¬((chtPower f.chan s : Rat) + 4 < pFwd (0 : BitVec 12).toNat s) ∧
       returnLoss 0 0 s < (s.fld F.BCN_PROT_RL_TRIP : Rat) ∧ ¬(returnLoss 4095 0 s < (s.fld F.BCN_PROT_RL_TRIP : Rat))) ∧
    (let s := bcnAt 3 3 { held := some frame0 } [(F.BCN_STATUS_CHAN_ACT, 0)]
     s.bcn.held = some frame0 ∧ frameReady frame0 s = true ∧ s.nowU - frame0.due * fracUnits ≤ s.fld F.BCN_TX_CFG_SLOT_TOL * usUnits ∧
       dutyAllows frame0.chan frame0.air s = false) ∧
    (let s := { bcnAt 3 3 { held := some frame0 } [(F.BCN_STATUS_CHAN_ACT, 0)] with tb := { sec := 1 } }
     frameReady frame0 s = true ∧ s.fld F.BCN_TX_CFG_SLOT_TOL * usUnits < s.nowU - frame0.due * fracUnits ∧
       s.tickStep ≤ s.nowU - frame0.due * fracUnits) ∧
    (let s := bcnAt 4 3 { tx := some frame0 } []
     s.bcn.tx = some frame0 ∧ frame0.ramp = none ∧ (lbtThreshold 0 s ≤ (127 : BitVec 8).toInt)) ∧
    (let s := bcnAt 5 3 { tx := some { frame0 with ramp := some 0 } } []
     onAir s = some { frame0 with ramp := some 0 } ∧ frame0.chan < 64) ∧
    (Open .sqm R.BCN_KEY_CTRL r0 ∧ vaultRights .sqm r0 = true ∧ bitsOf (0x40000007 : Word).toNat 31 30 = 1 ∧
      bitsOf (0x80000007 : Word).toNat 31 30 = 2 ∧ vaultRights .host r0 = false ∧ Open .host R.BCN_KEY_CTRL r0) ∧
    (setAll [(F.BCN_AUTH_CFG_CHAIN_INT, 1)]).fld F.BCN_AUTH_CFG_CHAIN_INT ≠ 0 := by decide +kernel

theorem witness_HostRings :
    (Open .host (R.HOST_RING_BASE_LO 66) r0 ∧ ringOn 66 r0 = false ∧ Open .host (R.HOST_RING_CFG 66) r0 ∧ sizeOk 66 5 = true ∧
      sizeOk 66 16 = true ∧ sizeOk 66 4 = false ∧ sizeOk 31 1 = true ∧ sizeOk 31 17 = false ∧
      r0.fld (F.HOST_RING_CFG_SIZE_E 66) = 0) ∧
    (let s := setAll [(F.HOST_RING_CFG_SIZE_E 31, 1)]
     ringOn 31 s = true ∧ Open .host (R.HOST_RING_TAIL 31) s ∧ ringLevel 31 s ≤ ((2 : Word) - s.word (R.HOST_RING_HEAD 31)).toNat ∧
       ((2 : Word) - s.word (R.HOST_RING_HEAD 31)).toNat ≤ ringSize 31 s ∧
       ringSize 31 s < ((3 : Word) - s.word (R.HOST_RING_HEAD 31)).toNat ∧ Open .host (R.HOST_RING_STAT 31) s) ∧
    (let s := setAll [(F.HOST_RING_CFG_SIZE_E 66, 5), (⟨R.HOST_RING_TAIL 66, 31, 0⟩, 32)]
     ringOn 66 s = true ∧ s.host.d3hot = false ∧ ringSize 66 s < ringLevel 66 s + 1 ∧ ringLevel 66 s + 0 ≤ ringSize 66 s ∧
       Open .host (R.HOST_RING_HEAD 66) s ∧ ((32 : Word) - 32).toNat ≤ ringLevel 66 s ∧ ringLevel 66 s < ((32 : Word) - 33).toNat) ∧
    (let s := { setAll [(F.HOST_RING_CFG_COAL_US 66, 1)] with notif := [(66, { count := 1, oldest := some 0 })], tick := 120 }
     (0 + 120 * s.fld (F.HOST_RING_CFG_COAL_US 66) ≤ s.tick ∧ 119 < 0 + 120 * s.fld (F.HOST_RING_CFG_COAL_US 66)) ∧
     s.fld (F.HOST_RING_CFG_COAL_US 66) ≠ 0 ∧ (notifier s 66).oldest.isSome = true ∧ s.bit (pendFld 66) = false) := by decide +kernel

theorem witness_HostTransactions :
    (Open .host (R.HOST_COPY_CTRL 0) r0 ∧ copyTakes 0 .host = true ∧ copyTakes 0 .sqm = false ∧ copyJob r0 0 = none) ∧
    (let s := (setAll [(F.HOST_COPY_LEN_LEN 0, 4096), (F.HOST_COPY_DEV_DEV 0, 0x1E00000)])
     rangeOpen (copyOwner 0) 0x1E00000 4096 true (plainWrite .host (R.HOST_COPY_CTRL 0) 0x80000000 s) = true ∧
       rangeOpen (copyOwner 0) 0x3FFFFFF 2 true (plainWrite .host (R.HOST_COPY_CTRL 0) 0x80000000 s) = false) ∧
    (let s := { r0 with copies := [(1, some ⟨0, 0x1E00000, 64, false, false⟩)] }
     copyJob s 1 = some ⟨0, 0x1E00000, 64, false, false⟩ ∧ 64 ≤ (64 : BitVec 25).toNat ∧ mapKind 0x1E00000 ≠ .codeStore) ∧
    (Open .host R.HOST_NEG r0 ∧ (0x80000004 : Word).getLsbD 31 = true ∧ (0x80000004 : Word).getLsbD 2 = true) ∧
    Open .host (R.EV_PEND 3) r0 ∧ (r0.host.msixEn = false ∧ r0.host.d3hot = false) ∧
    (let s := { r0 with host := { msixEn := true } }
     Open .host (R.MSIX_CTL 63) s ∧ s.host.msixEn = true ∧ s.host.fnMask = false) ∧
    (Open .sqm (R.SQ_CTRL 0) r0 ∧ vaultRights .sqm r0 = true ∧ r0.bit (F.SQ_CTRL_RUN 0) = false ∧
      (setAll [(F.SQ_CTRL_RUN 10, 1)]).bit (F.SQ_CTRL_RUN 10) = true) := by decide +kernel

/-- Tightrope port p in a state. -/
def linkAt (p st : Nat) (l : Link) (fs : List (Fld × Nat)) : State :=
  { setAll ([(F.TRP_PORT_STAT_STATE p, st)] ++ fs) with links := [(p, l)] }

/-- A sound frame of a type whose sequence number is 0. -/
def sound0 (kind n : Nat) : FrameHead := ⟨frameOf kind 0 0 (List.replicate n 0), 0⟩

/-- R445: after 58 zeros on the line a single one is sent at once, and again 39 and 58 bits later; words go to the lanes in turn. -/
theorem test_lane_code : (scrambleWord 1 0).1 = 1 + 2 ^ 39 + 2 ^ 58 ∧ laneWords 2 1 [10, 11, 12, 13] = [11, 13] ∧
    laneBlock false 1 = 6#66 ∧ frameWords [1, 0, 0, 0, 0, 0, 0, 2, 3] = [1 + 2 * 2 ^ 56] := by decide +kernel

set_option maxRecDepth 100000 in
theorem witness_LinkPorts_frames :
    (∀ p ∈ [(2, 16), (0x10, 160), (0x12, 8), (0x20, 264), (3, 8), (4, 24), (5, 80)], frameSound (sound0 p.1 p.2) = true ∧
      frameSeq (sound0 p.1 p.2) = 0 ∧ (sound0 p.1 p.2).rest = 0) ∧
    frameSound ⟨[], 0⟩ = false := by decide +kernel

theorem witness_LinkPorts :
    (Open .host (R.TRP_PORT_CFG 3) r0 ∧ linkState 3 r0 = 0 ∧ pstate r0 ≠ 2) ∧
    (∀ st ∈ [1, 2, 3, 4], linkState 1 (linkAt 1 st {} []) = st) ∧
    ((0x0008 : BitVec 16).toNat &&& 0x000C ≠ 0 ∧ (0x0002 : BitVec 16).toNat &&& 0x000C = 0 ∧ portsPair 0 0 = true ∧ portsPair 0 1 = false) ∧
    (let s := { linkAt 1 4 {} [] with tick := 12000 }
     (link s 1).lastRx + 12000 ≤ s.tick ∧ (11999 : Nat) < (link s 1).lastRx + 12000) ∧
    (let s := { linkAt 1 4 { unacked := [⟨0, 1, []⟩], resends := 7 } [] with tick := 2400 }
     (link s 1).unacked ≠ [] ∧ (link s 1).progress + 2400 ≤ s.tick ∧ (link s 1).resends < 8) ∧
    (let s := { linkAt 1 4 { unacked := [⟨0, 1, []⟩], resends := 8 } [] with tick := 2400 }
     (link s 1).unacked ≠ [] ∧ (link s 1).progress + 2400 ≤ s.tick ∧ 8 ≤ (link s 1).resends) ∧
    (let s := linkAt 1 4 {} [(F.CAR_SRC_LIMIT_MAXSLOT 33, 1)]
     nextSlot s = some 0 ∧ jobOut 1 s = 0 ∧ jobAt s 0 = none ∧ jobList s = []) ∧
    (let s := linkAt 1 4 { jobGrant := 1, blkGrant := 16384 } [(F.CAR_SRC_LIMIT_MAXSLOT 33, 1)]
     jobOut 1 s ≠ 0 ∧ blocksFor (descLen (List.replicate 128 0)) ≤ blkOut 1 s ∧ s.fld (F.CAR_SRC_LIMIT_MAXSLOT (32 + 1)) ≠ 0 ∧
       descCheck 33 false (List.replicate 128 0) s = some (ST.version, 0x01)) ∧
    (let s := linkAt 1 4 { jobGrant := 1, blkGrant := 1 } [(F.CAR_CFG_EN, 0), (F.CAR_SRC_LIMIT_MAXSLOT 33, 1)]
     (link s 1).waiting.length < jobOut 1 s ∧ 0 + blocksFor 512 ≤ blkOut 1 s ∧ blkOut 1 s < 0 + blocksFor 513 ∧
       srcTakes 33 s = false ∧ (link s 0).waiting = []) ∧
    (let d := putAt (putAt (putAt (List.replicate 128 0) 0 [0, 1, 1, 0, 1, 0]) 24 [1]) 92 [33]
     let s := linkAt 1 4 { jobGrant := 1, blkGrant := 1 } [(F.CAR_CFG_EN, 1), (F.CAR_SRC_LIMIT_MAXSLOT 33, 1), (F.TB_STATUS_VALID, 1),
       (F.CAR_ARB_CFG_PREFETCH, 1), (F.CAR_GROUP_CFG_ADMIT 0, 1), (F.CAR_GROUP_CFG_ADMIT 1, 1), (F.CAR_GROUP_CFG_ADMIT 2, 1),
       (F.CAR_GROUP_CFG_ADMIT 3, 1), (F.TRP_PORT_STAT_MAJOR 1, 3)]
     nextSlot s = some 0 ∧ (link s 1).waiting = [] ∧ (link s 0).waiting = [] ∧ jobOut 1 s ≠ 0 ∧ blocksFor (descLen d) ≤ blkOut 1 s ∧
       srcTakes 33 s = true ∧ s.fld (F.CAR_SRC_LIMIT_MAXSLOT 33) ≠ 0 ∧ descCheck 33 (s.fld (F.TRP_PORT_STAT_MAJOR 1) == 2) d s = none ∧
       (d ++ List.replicate 33 0).length = 128 + descLen d) ∧
    (let j : Job := { src := 33, state := 2, desc := List.replicate 128 0 }
     let s := { linkAt 1 4 {} [] with car := { jobs := [(0, some j)] } }
     jobList s = [(0, j)] ∧ jobAt s 0 = some j ∧ j.src = 32 + 1 ∧ descFwd j.desc = (0 : BitVec 32).toNat) ∧
    (let j : Job := { src := 0, state := 7, desc := [] }
     let s := { linkAt 2 4 {} [(F.HOST_RING_CFG_SIZE_E 32, 5)] with car := { jobs := [(0, some j)] } }
     jobAt s 0 = some j ∧ recordOk (List.replicate 64 0) = true ∧ j.silent = false ∧ slotGen s 0 = (0 : BitVec 32).toNat / 2 ^ 14 ∧ recordRoom 0 (putAt (List.replicate 64 0) 6 [1, 4]) s = true) := by
  decide +kernel

theorem witness_TwinAndTime :
    (let s := linkAt 0 4 {} [(F.TRP_TWIN_STAT_ROLE, 1), (F.TRP_PORT_CFG_MIR_IN 0, 1)]
     linkState 0 s = 4 ∧ (0 : BitVec 32).toNat = (link s 0).rxSeq ∧ mirrorsIn 0 s = true ∧
       slotOk 220 (peerSlot (List.replicate 256 0)) = true ∧ s.fld (F.TRP_PORT_STAT_MAJOR 0) ≠ 2 ∧ isStandby s = true ∧
       timeAsks 0 s = true ∧ linkUp 0 s = true) ∧
    mirrorsIn 2 (linkAt 2 4 {} []) = false ∧
    (let s := linkAt 3 4 { mirrors := [(2, 0)], roll := 254 } [(F.TRP_PORT_CFG_MIR_OUT 3, 1)]
     linkState 3 s = 4 ∧ s.bit (F.TRP_PORT_CFG_MIR_OUT 3) = true ∧ linkFits 3 264 s = true ∧ mirrorFirst (link s 3).mirrors = some (2, 0) ∧
       s.fld (F.TRP_PORT_STAT_MAJOR 3) ≠ 2 ∧ (linkAt 3 4 { roll := 219 } []).links ≠ [] ∧ (mirrorPorts 1 s).contains 3 = true) ∧
    (let s := linkAt 1 4 { exOpen := some (1, 0, 0) } []
     (link s 1).exOpen = some (1, 0, 0) ∧ stampPs (stampAt 0 s) 0 ≤ 10 ^ 9 ∧ (6 : Byte).toNat < 16 ∧ (6 : Byte).getLsbD 2 = true ∧
       (6 : Byte).toNat % 4 ≠ 0 ∧ s.fld F.TB_STATUS_STEP_SEQ = 0 ∧ (link s 1).later = []) ∧
    (let s := { linkAt 0 4 {} [(F.TRP_TWIN_STAT_ROLE, 1), (F.TRP_TWIN_CFG_PREFER, 1)] with tb := { sec := 1, phase := secUnits / 2 } }
     (pulseSafe s && isStandby s && linkUp 0 s && s.fld F.TRP_TWIN_STAT_PEER_ROLE != 2 && (link s 0).peerRole != 2 &&
       s.bit F.TRP_TWIN_CFG_PREFER) = true) ∧
    (let s := linkAt 0 4 { hbSeen := true } [(F.TRP_TWIN_STAT_ROLE, 1)]
     isStandby s = true ∧ (link s 0).hbSeen = true ∧ linkUp 0 s = true ∧ (link (linkAt 0 4 {} []) 0).hbSeen = false) ∧
    (timeAsks 0 r0 = false ∧ (link r0 0).had = false ∧ timeAsks 1 r0 = false) ∧
    (let s := linkAt 1 4 { exs := [⟨0, 0, 0, 0, 0⟩] } [(F.TRP_TIME_CFG_MIN_EX, 1)]
     timeAsks 1 s = true ∧ (link s 1).stepMark = s.fld F.TB_STATUS_STEP_SEQ ∧ exKept (link s 1).exs s ≠ [] ∧
       s.fld F.TRP_TIME_CFG_MIN_EX ≤ (exKept (link s 1).exs s).length) ∧
    (let s := linkAt 1 4 { had := true } [(F.TRP_TIME_CFG_MIN_EX, 1)]
     (exKept (link s 1).exs s).length < s.fld F.TRP_TIME_CFG_MIN_EX ∧ (link s 1).had = true) := by decide +kernel

theorem witness_SerialPorts :
    (Open .host R.SPIM_CMD_CTRL r0 ∧ (0x80000000 : Word).getLsbD 31 = true ∧ spimBusy .host r0 = false ∧
      spimOk (0x80000000 : Word).toNat 256 = true ∧ spimOk (0x80000000 : Word).toNat 257 = false ∧
      spimBusy .host (r0.setBit (F.SPIM_CMD_CTRL_BUSY.at .host) true) = true) ∧
    ((∃ e ∈ [(7, none)], ({ r0 with spim := { fills := [(7, none)] } } : State).spim.fills = [e]) ∧ r0.spim.bus = none) ∧
    (let s := { r0 with spim := { bus := some (.cmd (readerIdx .host)), cmds := [(readerIdx .host, some ⟨0x80000000, 0, 256, []⟩)] } }
     s.spim.bus = some (.cmd (readerIdx .host)) ∧
       Sparse.get (fun _ => none) s.spim.cmds (readerIdx .host) = some ⟨0x80000000, 0, 256, []⟩) ∧
    (protAllows .sqm 1 (0x2800000 + 0xFFFFFF) false r0 = true ∧ protAllows .debug 1 0x2800000 false r0 = false ∧
      (setAll [(F.SPIM_XIP_EN, 1)]).bit F.SPIM_XIP_EN = true ∧ (setAll [(F.SPIM_XIP_EN, 0)]).bit F.SPIM_XIP_EN = false) ∧
    Open .host R.SPIM_XIP r0 ∧
    (let s := setAll [(F.SPIS_CFG_EN, 1), (F.SPIS_CFG_UNIT, 32)]
     s.bit F.SPIS_CFG_EN = true ∧ unitOk s = true ∧ 2 ^ (32 - 1) ≤ 0x80000000 % 2 ^ s.fld F.SPIS_CFG_UNIT ∧ Open .host R.SPIS_RESP s ∧
       Open .host R.SPIS_TX s ∧ Open .host R.SPIS_RX_CTRL s ∧ s.spis.tx.length < 64) ∧
    unitOk (setAll [(F.SPIS_CFG_UNIT, 33)]) = false ∧
    (Open .host (R.UA_DIV 1) r0 ∧ (0x01000000 : Word).toNat % 65536 = 0 ∧ (0x01000000 : Word).toNat / 2 ^ 24 ≠ 0) ∧
    (r0.spim.bus = none ∧ r0.pwr.store = none ∧ r0.spim.fills = [] ∧ r0.pwr.queue = [] ∧ r0.pwr.hib = false ∧ lcState r0 ≠ 4) ∧
    (let s := setAll [(F.DEV_STATUS_READY, 1), (F.UA_DIV_INT 0, 65)]
     uartDeaf 0 s = false ∧ (uart s 0).rxBrk = false ∧ (uart s 0).rxCur = none ∧ divStopped (rxDivider 0 s) = false) ∧
    (let xs := List.replicate 9 true
     let s := { setAll [(F.DEV_STATUS_READY, 1), (F.UA_DIV_INT 0, 65)] with uarts := [(0, { rxCur := some xs, rxDiv := 65 })] }
     uartDeaf 0 s = false ∧ (uart s 0).rxBrk = false ∧ (uart s 0).rxCur = some xs ∧ divStopped (rxDivider 0 s) = false ∧ (xs ++ [true]).length = 10 ∧
       sampledBit (xs ++ [true]) 0 = true) ∧
    (let s0 := setAll [(F.DEV_STATUS_READY, 1), (F.UA_DIV_INT 1, 65), (F.UA_CFG_INV 1, 0), (F.UA_1_CARD_ERRSIG, 1), (F.UA_1_CARD_REP_MAX, 1)]
     let xs := List.replicate (16 * stopBit 1 s0 + 9) true
     let s := { s0 with uarts := [(1, { rxCur := some xs, rxDiv := 65 })] }
     uartDeaf 1 s = false ∧ (uart s 1).rxCur = some xs ∧ divStopped (rxDivider 1 s) = false ∧ (xs ++ [true]).length = 16 * stopBit 1 s + 10 ∧
       (judgeChar 1 (xs ++ [true]) s).pe = true ∧ s.bit F.UA_1_CARD_ERRSIG = true ∧ (uart s 1).errs < s.fld F.UA_1_CARD_REP_MAX ∧
       (judgeChar 0 (xs ++ [true]) s).pe = false) ∧
    (cardSignals false false true = true ∧ cardSignals true false true = false) ∧
    (let s := { setAll [(F.UA_1_CARD_REP_MAX, 1)] with uarts := [(1, { shift := some 0x41, reps := 0 })] }
     (uart s 1).shift = some 0x41 ∧ (uart s 1).reps < s.fld F.UA_1_CARD_REP_MAX ∧
       (s.setFld F.UA_1_CARD_REP_MAX 0).fld F.UA_1_CARD_REP_MAX ≤ (uart s 1).reps ∧ uartLoop 1 s = false) ∧
    (tailOver r0 = true ∧ tailOver { r0 with uarts := [(0, { shift := some 0 })] } = false) ∧
    (let s := setAll [(F.DEV_STATUS_READY, 1), (F.UA_DIV_INT 1, 65)]
     uartDeaf 1 s = false ∧ (uart s 1).rx.length < 16 ∧ divStopped (s.word (R.UA_DIV 1)) = false ∧ Open .host (R.UA_TX 1) s ∧
       Open .host (R.UA_RX 1) s ∧ s.bit (F.UA_STAT_TX_FAIL 1) = false) ∧
    uartDeaf 1 r0 = true ∧
    (let s := { setAll [(F.UA_CFG_LOOP 0, 1)] with uarts := [(0, { shift := some 0x41 })] }
     (uart s 0).shift = some 0x41 ∧ uartLoop 0 s = true) := by decide +kernel

/-- An image of no records in the push buffer, its key's hash in OTP slot 0; whether its signature verifies is the free value of
assumption 38, taken as a premise below. -/
def pushed : State :=
  { r0 with
    sec := { boot := 3 }
    mem := Sparse.putBytes byteDflt (Sparse.putBytes byteDflt [] 0x1800000 [0x49, 0x46, 0x43, 0x4B, 0, 4, 0, 0, 128, 0, 0, 0, 0, 3])
      0x3F00400 (sha256 (List.replicate 32 0)) }
theorem witness_pushed_image
    (h : Config.slhVerify (imgParam (bufferImage pushed)) (imgPk (bufferImage pushed)) (imgDigest (bufferImage pushed))
      (((bufferImage pushed).drop (imgLen (bufferImage pushed))).take (sigLen (imgParam (bufferImage pushed)))) = true) :
    pushed.sec.boot = 3 ∧ pushed.pwr.hib = false ∧ imgFail (bufferImage pushed) false pushed = 0 := by
  refine ⟨rfl, rfl, ?_⟩
  unfold imgFail
  rw [if_neg (by decide), if_neg (by decide +kernel), if_neg (by decide +kernel), if_neg (by decide +kernel),
    if_neg (by decide +kernel), if_neg (by decide +kernel), h, if_neg (by decide), if_neg (by decide +kernel), if_neg (by decide +kernel)]

/-- A device in a lifecycle state: the word of R517. -/
def lcAt (w : Byte) (fs : List (Fld × Nat)) : State := { setAll fs with mem := [(0x3F00500, w)] }

theorem witness_SecurityCommands :
    (Open .sqm R.SEC_OTP_CTRL r0 ∧ vaultRights .sqm r0 = true ∧ (0x8000FFFC : Word).getLsbD 31 = true ∧ r0.bit F.SEC_OTP_CTRL_BUSY = false ∧
      (0x8000FFFC : Word).toNat % 65536 % 4 = 0 ∧ otpAllowed 0xFFFC (lcState r0) = true ∧ otpAllowed 0x4C0 (lcState r0) = false ∧
      vaultRights .host r0 = false ∧ Open .host R.SEC_OTP_CTRL r0) ∧
    (let s := { r0 with sec := { r0.sec with otp := some (0xFFFC, 5) } }
     s.sec.otp = some (0xFFFC, 5)) ∧
    (let s := setAll [(F.SEC_RB_IMG, 255)]
     Open .sqm R.SEC_RB s ∧ bitsOf (0x80FF0000 : Word).toNat 23 16 ≤ s.fld F.SEC_RB_IMG ∧ rollbackCount s ≤ bitsOf (0x80FF0000 : Word).toNat 23 16 ∧
       r0.fld F.SEC_RB_IMG < bitsOf (0x80FF0000 : Word).toNat 23 16) ∧
    (Open .sqm R.SEC_ROOT r0 ∧ revocable 5 r0 = false) ∧
    (Open .host R.SEC_ATT_CTRL r0 ∧ r0.sec.att = none ∧ lcState r0 ≠ 4) ∧ Open .sqm (R.SEC_PU_PERM 31) r0 ∧
    (let s := lcAt 1 []
     Open .sqm R.LC_CTRL s ∧ s.bit F.LC_CTRL_BUSY = false ∧ lcAllowed 1 2 s = true ∧ lcAllowed 1 3 s = false ∧
       bitsOf (0x8000A502 : Word).toNat 15 8 = 0xA5) ∧
    (lcState (lcAt 0x1F []) = 4 ∧ lcState (lcAt 7 []) = 2 ∧ lcState (lcAt 0 []) = 0) ∧
    (let s := { r0 with dbg := some ⟨2, 0, 1⟩, tb := { sec := 1 } }
     dbgLevel s = 2 ∧ s.dbg = some ⟨2, 0, 1⟩ ∧ Open .sqm R.SEC_DBG_CTRL s) ∧
    (protAllows .debug 1 0x1E00000 false { r0 with dbg := some ⟨1, 0, 0⟩ } = true ∧
      mapReadable .debug 0x1E00000 { r0 with dbg := some ⟨1, 0, 0⟩ } = true ∧ mapKind 0x1E00000 = .primaryStore ∧
      protAllows .debug 0 0 false r0 = false) ∧
    (let s := linkAt 0 2 {} [(F.SEC_BOOT_CTRL_TWIN_SERVE, 1), (F.SEC_BOOT_STAT_SRC, 2)]
     (!s.pwr.hib && (linkState 0 s == 2 || linkState 0 s == 3) && s.bit F.SEC_BOOT_CTRL_TWIN_SERVE &&
       (s.fld F.SEC_BOOT_STAT_SRC == 1 || s.fld F.SEC_BOOT_STAT_SRC == 2)) = true) ∧
    (let s := { setAll [(F.SEC_BOOT_STAT_RECOVERY, 1)] with sec := { boot := 0 } }
     Open .host R.SEC_BOOT_CTRL s ∧ inRecovery s = true ∧ s.sec.boot = 0) ∧
    (r0.sec.boot = 1 ∧ r0.pwr.hib = false ∧ lcState r0 ≠ 4) ∧
    (let s := { r0 with sec := { boot := 3 } }
     s.sec.boot = 3 ∧ imgFail (bufferImage s) false s ≠ 0) := by decide +kernel

theorem witness_PowerStates :
    (let s := r0
     Open .sqm R.PWR_CTRL s ∧ readerPriv .sqm s ≠ 0 ∧ s.pwr.trans = none ∧ pstate s = 0 ∧ (0x80000003 : Word).toNat % 4 = 3 ∧
       Open .host R.PWR_CTRL s ∧ Open .host R.PWR_REQ s) ∧
    (let s := { r0 with pwr := { r0.pwr with trans := some 1 } }
     s.pwr.trans = some 1 ∧ pstate s = 0 ∧ jobList s = [] ∧ s.pwr.latch = none) ∧
    (let s := { setAll [(F.PWR_STAT_STATE, 2)] with pwr := { r0.pwr with trans := some 1 } }
     pstate s = 2 ∧ restoredOn s = true ∧ s.pwr.latch = none) ∧
    (let s := { r0 with pwr := { r0.pwr with trans := some 3 } }
     s.pwr.hib = false ∧ heldAwake s = false ∧ s.pwr.store = none ∧ s.pwr.queue.filter (fun r => r.pf) = [] ∧ s.sec.otp = none) ∧
    (hib.pwr.hib = true ∧ wakeOn .pin hib = true ∧ wakeOn .uart hib = false) ∧
    (let s := { r0 with flash := Sparse.putBytes flashDflt [] (slotAddr 5 false r0) (storeHead 5 0 [7] r0 ++ [7]) }
     (storeNewest 5 s).map (·.1) = some false ∧ storeReservedOk 5 false s = true) ∧
    (Open .host R.PWR_STORE_CTRL r0 ∧ storeLen ((0x80000006 : Word).toNat % 256) = 0 ∧ storeLen ((0x80000105 : Word).toNat % 256) ≠ 0 ∧
      (0x80000105 : Word).getLsbD 8 = true ∧ r0.pwr.queue = []) ∧
    TtDue 5 8 (ttOne 8 5) ∧
    (let s := { setAll [(F.PWR_STORE_CFG_NEED 5, 0)] with pwr := { r0.pwr with queue := [⟨5, false, true, false⟩] } }
     s.pwr.store = none ∧ s.spim.bus = none ∧ s.pwr.queue = [⟨5, false, true, false⟩] ∧ s.fld (F.PWR_STORE_CFG_NEED 5) ≤ (holdupMeasure [0, 0, 0, 0] s).2 ∧
       (storeBody 5 s).isSome = true ∧ storeBody 1 s = none) ∧
    (let s := { setAll [(F.PWR_STORE_CFG_NEED 5, 1)] with pwr := { r0.pwr with queue := [⟨5, false, true, false⟩] } }
     (holdupMeasure [0, 0, 0, 0] s).2 < s.fld (F.PWR_STORE_CFG_NEED 5)) ∧
    (let s := { r0 with pwr := { r0.pwr with store := some ⟨⟨1, false, true, false⟩, false, 0, List.replicate 96 0⟩ } }
     s.pwr.store.isSome = true ∧ ∀ k < 96, Sparse.get flashDflt s.flash (slotAddr 1 false s + k) = 0xFF) ∧
    (let s := { r0 with pwr := { r0.pwr with erase := [(5, true)] } }
     s.pwr.store = none ∧ s.pwr.queue = [] ∧ s.pwr.erase = [(5, true)]) ∧
    (r0.bit F.PWR_STAT_PF = false ∧ (setAll [(F.PWR_STAT_PF, 1)]).bit F.PWR_STAT_PF = true) := by decide +kernel

theorem witness_Resets :
    (r0.pwr.hib = false ∧ hib.pwr.hib = true ∧ Open .sqm R.RST_WDT_KICK r0 ∧ (0x4B : Word).toNat % 256 = 0x4B ∧
      ({ r0 with pwr := { r0.pwr with wdtAt := some 0 } } : State).pwr.wdtAt.isSome = true ∧
      mayKick .sqm (setAll [(F.RST_WDT_CFG_KICKER, 0)]) = true ∧ mayKick (.sq 0) r0 = false) ∧
    (let s := { r0 with pwr := { r0.pwr with wdtAt := some 0 }, tick := 2000 * 60000 }
     wdtPast 1 s = true ∧ wdtPast 2 s = false ∧ s.pwr.wdtHalf = false ∧ wdtPast 2 { s with tick := 2 * (2000 * 60000) } = true) ∧
    (Open .sqm R.RST_CTRL r0 ∧ vaultRights .sqm r0 = true ∧ Open .host R.RST_CTRL r0 ∧ vaultRights .host r0 = false) ∧
    (let s := linkAt 0 2 {} [(F.RST_CTRL_TWIN_RESET_EN, 1)]
     s.bit F.RST_CTRL_TWIN_RESET_EN = true ∧ 2 ≤ linkState 0 s ∧ (0 : BitVec 64).toNat = peerSerial 0 s) := by decide +kernel

theorem witness_CanonKept : Canon r0 ∧ step r0 = .next (idleTick r0) ∧ r0.pending = [] := 
  ⟨⟨by decide +kernel, by decide +kernel, by decide +kernel, by decide +kernel, by decide +kernel⟩, rfl, rfl⟩

theorem witness_ResetAndIdle :
    (r0.pending = [] ∧ r0.sec.ready = none ∧ r0.ck.tsynAt = none ∧ (r0.setFld F.TP_FOUT_CFG_FOLLOW 0).bit F.TP_FOUT_CFG_FOLLOW = false ∧ r0.bcn.tx = none ∧
      r0.chains = [] ∧ r0.trk = [] ∧ (link r0 0).waiting = [] ∧ (link r0 1).waiting = [] ∧ r0.pwr.hib = false) ∧
    (r0.setFld F.CK_STATUS_CORE_HOLD 0).coarse = false ∧ hib.pwr.hib = true ∧
    (let s := { r0 with sec := { ready := some 7 }, pwr := { r0.pwr with xtalOff := true } }
     s.sec.ready = some 7 ∧ s.pwr.xtalOff = true) := by decide +kernel

theorem witness_StepRunsFrontCommand :
    step { r0 with pending := [.xtalFail, .skyCommit] } = exec .xtalFail { r0 with pending := [.skyCommit] } := rfl

/-- Sequencer 0 runs at 0x0200, its registers as given, with bytes in private RAM from an address. -/
def dx (f : Seq → Seq) (a : Nat) (bs : List Byte) : State :=
  { r0 with seqs := [(0, f { pc := 0x0200, mode := 1, run := .run })], ram := Sparse.putBytes byteDflt [] (privRam 0 a) bs }

theorem witness_DxTransfers : DxReady 0 (dx id 0 []) := by decide +kernel

theorem witness_DxArithmetic :
    DxReady 0 (dx id 0 []) ∧
    (match (AluSrc.imm 0xFF).read 0 (dxFetched 0 (AluSrc.imm 0xFF).len (AluSrc.imm 0xFF).base (dx id 0 [])) with
     | .ok (m, _) => m == 0xFF
     | .error _ => false) = true ∧
    (match (AdcSrc.dir 0x7F).alu.read 0 (dxFetched 0 (AdcSrc.dir 0x7F).alu.len 2 (dx id 0x7F [9])) with
     | .ok (m, _) => m == 9
     | .error _ => false) = true := by decide +kernel

/-- An access that passes. -/
def passes {α : Type} (e : Except DxErr α) : Bool :=
  match e with
  | .ok _ => true
  | .error _ => false

theorem witness_DxUnary :
    (let s := dx id 0x7F [0xFF]
     let m := MemDax.dir 0x7F
     let s3 := dxFetched 0 (1 + m.len) (3 + m.extra) s
     DxReady 0 s ∧ (dxPlace 0 (s3.seq 0) (m.addr (s3.seq 0))).isReg = false ∧ passes (dxRead 0 (m.addr (s3.seq 0)) s3) = true ∧
       passes (dxWrite 0 (m.addr (s3.seq 0)) 0 s3) = true) := by decide +kernel

theorem witness_DxShifts :
    (let s := dx (fun q => { q with ctl := 0 }) 0x10 [9]
     DxReady 0 s ∧ passes ((ImmDir.dir 0x10).alu.read 0 (dxFetched 0 (ImmDir.dir 0x10).alu.len 2 s)) = true ∧
       passes ((ImmDir.dir 0x10).alu.read 0 (dxFetched 0 (ImmDir.dir 0x10).alu.len 3 s)) = true ∧
       passes ((ImmDir.dir 0x10).alu.read 0 (dxFetched 0 (ImmDir.dir 0x10).alu.len 10 s)) = true ∧
       (s.seq 0).ctl.getLsbD 0 = false) := by decide +kernel

theorem witness_DxBranches :
    DxReady 0 (dx id 0 []) ∧ passes (dxPush16 0 0x0203 (dxFetched 0 3 4 (dx id 0 []))) = true ∧
    passes (dxPop16 0 (dxFetched 0 1 4 (dx (fun q => { q with sp := 0x7FDE }) 0 []))) = true := by decide +kernel

theorem witness_DxLoads :
    DxReady 0 (dx id 0 []) ∧ passes (dxRead 0 0x00FF (dxFetched 0 2 2 (dx id 0xFF [7]))) = true ∧
    passes (dxRead16 0 0x7FDE (dxFetched 0 3 4 (dx id 0 []))) = true := by decide +kernel

theorem witness_DxStores :
    DxReady 0 (dx id 0 []) ∧ ((dx id 0 []).seq 0).rep = none ∧ (0x7FDF : BitVec 16).toNat < 0x7FE0 ∧
    (0x7FDE : BitVec 16).toNat + 1 < 0x7FE0 := by decide +kernel

theorem witness_DxStoreAccess :
    DxReady 0 (dx id 0 []) ∧ passes (dxWrite 0 0x7FDF 1 (dxFetched 0 3 3 (dx id 0 []))) = true ∧
    passes (dxWrite16 0 0x00FE 1 (dxFetched 0 2 3 (dx id 0 []))) = true := by decide +kernel

theorem witness_DxStack :
    (let s := dx (fun q => { q with sp := 0x0102 }) 0 []
     DxReady 0 s ∧ (s.seq 0).rep = none ∧ 2 ≤ (s.seq 0).sp.toNat ∧ (s.seq 0).splim.toNat + 2 ≤ (s.seq 0).sp.toNat ∧
       (s.seq 0).sp.toNat + 1 ≤ 0x7FDF) ∧
    (let s := dx (fun q => { q with sp := 0x0101 }) 0 []
     2 ≤ (s.seq 0).sp.toNat ∧ (s.seq 0).sp.toNat < (s.seq 0).splim.toNat + 2) ∧
    (let s := dx (fun q => { q with sp := 0x0100 }) 0 []
     ((s.seq 0).sp - 1).toNat < (s.seq 0).splim.toNat) ∧
    (0x7FDF < ((dx id 0 []).seq 0).sp.toNat) := by decide +kernel

theorem witness_DxMoves :
    (let s := dx (fun q => { q with x := 0x100, y := 0x200 }) 0 []
     DxReady 0 s ∧ passes (dxRead 0 0x200 (dxFetched 0 1 2 s)) = true ∧ passes (movwRead 0 0x200 (dxFetched 0 1 5 s)) = true ∧
       passes (movwWrite 0 0x100 (match movwRead 0 0x200 (dxFetched 0 1 5 s) with | .ok (b, _) => b | .error _ => 0) (dxFetched 0 1 5 s)) = true ∧
       (dxPlace 0 (s.seq 0) 0x00FF).isReg = false) := by decide +kernel

theorem witness_DxBits :
    (let s := dx id 0x7F [0x80]
     let s3 := dxFetched 0 (2 + (MemDax.dir 0x7F).len) (3 + (MemDax.dir 0x7F).extra) s
     DxReady 0 s ∧ (7 : Byte).toNat < 8 ∧ ¬(8 : Byte).toNat < 8 ∧ (dxPlace 0 (s3.seq 0) ((MemDax.dir 0x7F).addr (s3.seq 0))).isReg = false ∧
       passes (dxRead 0 ((MemDax.dir 0x7F).addr (s3.seq 0)) s3) = true) := by decide +kernel

theorem witness_DxRepeat :
    (let s := dx id 0x0200 [0x02, 16, 0x8D]
     DxReady 0 s ∧ (s.seq 0).mode.getLsbD 6 = false ∧ repForbids (fetchByte 0 ((s.seq 0).pc + 2) s).toNat = false) ∧
    repForbids (fetchByte 0 0x0202 (dx id 0x0200 [0x02, 16, 0x02])).toNat = true := by decide +kernel

theorem witness_DxFaults_codes :
    (let s := dx id 0x0200 [0x0F]
     fetchDenied 0 s = none ∧ dxAt 0 s = none ∧ (fetchByte 0 0x0200 s).toNat = 0x0F) ∧
    (let s := dx id 0x0200 [0xE0, 0x27]
     dxAt 0 s = none ∧ copPresent 0 0 = true) ∧ (dxAt 0 (dx id 0x0200 [0x30, 9])).isSome = true := by decide +kernel

theorem witness_DxFaults :
    (let s := dx id 0 []
     seqReady 0 s = true ∧ (s.seq 0).mode.getLsbD 5 = false ∧ (s.seq 0).rep = none ∧ FrameFits 0 s) ∧
    FrameFits 0 (dx (fun q => { q with sp := 0x0104 }) 0 []) := by decide +kernel

theorem witness_DxInterrupts :
    (let s := dx (fun q => { q with mode := 0x81, imask := 0x1000, ipend := 0x1000 }) 0 []
     seqReady 0 s = true ∧ (s.seq 0).mode.getLsbD 7 = true ∧ (s.seq 0).rep = none ∧ (enabledInputs 0 s).getLsbD 12 = true ∧
       (∀ j < 12, (enabledInputs 0 s).getLsbD j = false) ∧ FrameFits 0 s) ∧
    ((dx id 0 []).seq 0).mode.getLsbD 7 = false := by decide +kernel

theorem witness_DxCalls :
    (let s := dx id 0 []
     DxReady 0 s ∧ (s.seq 0).rep = none ∧ FrameFits 0 s) ∧
    (DxReady 10 r0 ∧ (10 : SeqId).val = 10 ∧ (r0.seq 10).mode.toNat % 4 ≠ 0 ∧ FrameFits 10 r0) ∧
    (let s := dx (fun q => { q with sp := 0x7FDC }) 0x7FDC [1, 0x81, 0x34, 0x12]
     (s.seq 0).sp.toNat + 3 ≤ 0x7FDF ∧ (s.ramByte (privRam 0 ((s.seq 0).sp.toNat + 1))).toNat % 4 ≤ (s.seq 0).mode.toNat % 4) ∧
    (let s := dx (fun q => { q with sp := 0x7FDC }) 0x7FDC [1, 0x82, 0x34, 0x12]
     (s.seq 0).mode.toNat % 4 < (s.ramByte (privRam 0 ((s.seq 0).sp.toNat + 1))).toNat % 4) := by decide +kernel

theorem witness_DxBreak :
    (let s := { (dx id 0 []).setFld (F.SQ_CTRL_DBG_BRK 0) 1 with dbg := some ⟨2, 0, 0⟩ }
     DxReady 0 s ∧ (s.seq 0).rep = none ∧ s.bit (F.SQ_CTRL_DBG_BRK 0) = true ∧ haltPermitted s = true) ∧
    (let s := dx id 0 []
     DxReady 0 s ∧ ¬(s.bit (F.SQ_CTRL_DBG_BRK 0) = true ∧ haltPermitted s = true) ∧ FrameFits 0 s ∧
       (s.seq 0).mode.getLsbD 5 = false) := by decide +kernel

theorem witness_DxSpecial :
    (let s := dx (fun q => { q with a := 0x80 }) 0 []
     DxReady 0 s ∧ (s.seq 0).rep = none ∧ 24 ≤ (24 : Byte).toNat ∧ (s.seq 0).mode.toNat % 4 ≠ 0 ∧
       (s.seq 0).a.toNat % 4 ≤ (s.seq 0).mode.toNat % 4 ∧ (s.seq 0).a.getLsbD 5 = false) ∧
    (let s := { dx (fun q => { q with mode := 0 }) 0 [] with
                pu := [(0, { en := true, space := 1, base := 0, limit := 0x3FFFF, rights := 3 })] }
     DxReady 0 s ∧ (s.seq 0).mode.toNat % 4 = 0) ∧
    ((dx (fun q => { q with a := 2 }) 0 []).seq 0).mode.toNat % 4 < ((dx (fun q => { q with a := 2 }) 0 []).seq 0).a.toNat % 4 := by
  decide +kernel

theorem witness_DxWaits :
    (DxReady 0 (dx id 0 []) ∧ ((dx id 0 []).seq 0).rep = none) ∧
    (let s := dx (fun q => { q with run := .wait, imask := 0x2000, ipend := 0x2000 }) 0 []
     (s.seq 0).run = .wait ∧ enabledInputs 0 s ≠ 0) ∧
    (let s := dx (fun q => { q with ctl := 2, tmr := 5, timer := 0 }) 0 []
     (s.seq 0).ctl.getLsbD 1 = true ∧ (s.seq 0).tmr ≠ 0 ∧ (s.seq 0).timer = 0 ∧ enabledInputs 0 s = 0) ∧
    Open .host (0x5810FC + 0x100 * 15) r0 := by decide +kernel

theorem witness_DxRegisterFrame :
    DxReady 0 (dx id 0 []) ∧ exec (.dxNop 0) (dx id 0 []) = .next (after (exec (.dxNop 0) (dx id 0 []))) :=
  ⟨by decide +kernel, rfl⟩

theorem witness_CopArithmetic :
    (let s := dx (fun q => (q.setW 1 0x800000000000).setW 2 0xFFFFFFFFFFFF) 0 []
     DxReady 0 s ∧ (0 : SeqId).val < 10 ∧ (s.seq 0).rep = none ∧
       wideVal 48 true ((s.seq 0).w 1) = -(2 ^ (48 - 1) : Int) ∧ wideVal 48 true ((s.seq 0).w 2) ≠ 0 ∧
       wideVal 48 true ((s.seq 0).w 2) ≠ -(2 ^ (48 - 1) : Int)) ∧
    ((95 : Byte).toNat ≤ 95 ∧ 95 < (96 : Byte).toNat ∧ (15 : Byte).toNat < 16 ∧ 16 ≤ (16 : Byte).toNat ∧ wSigned .s48 = true ∧
      wSigned .u48 = false) := by decide +kernel

theorem witness_CopShifts :
    DxReady 0 (dx id 0 []) ∧ ((dx id 0 []).seq 0).rep = none ∧ 0 < (48 : Byte).toNat ∧ (48 : Byte).toNat ≤ wWidth .u48 ∧
    wWidth .u48 < (49 : Byte).toNat ∧ (5 : Byte).toNat ≤ 5 ∧ 5 < (6 : Byte).toNat := by decide +kernel

theorem witness_CopTransfers :
    (let s := dx (fun q => { q with x := 0x7FDA }) 0 []
     DxReady 0 s ∧ (s.seq 0).rep = none ∧ ((s.seq 0).x + (0#8 ++ (0 : Byte))).toNat + wWidth .u48 / 8 ≤ 0x7FE0) ∧
    (let s := dx (fun q => { q with x := 0x7FDC }) 0 []
     (s.seq 0).x.toNat + 4 ≤ 0x7FE0) ∧
    (DxReady 10 r0 ∧ (r0.seq 10).rep = none ∧ (r0.seq 10).x.toNat + 4 ≤ 0x7FE0) := by decide +kernel

theorem witness_CopDiscriminators :
    (let s := dx (fun q => { q with x := 0x7F40 }) 0 []
     DxReady 0 s ∧ (s.seq 0).rep = none ∧ (s.seq 0).x.toNat % 64 = 0 ∧ (s.seq 0).x.toNat + 128 ≤ 0x7FE0 ∧
       (s.seq 0).y.toNat + 16 ≤ 0x7FE0 ∧ tapOf (Sparse.bytes byteDflt s.ram (privRam 0 0x7F40) 64) 2 = (0, 0)) ∧
    (let s := dx (fun q => { q with x := 0x400 }) 0x410 (List.replicate 48 1)
     0 < (tapOf (Sparse.bytes byteDflt s.ram (privRam 0 0x400) 64) 2).1 ∨ 0 < tapPower (tapOf (Sparse.bytes byteDflt s.ram (privRam 0 0x400) 64) 1)) ∧
    ((2 : Byte).toNat ≤ 15 ∧ (127 : Byte).toNat ≤ 127 ∧ 256 ≤ (3 : Byte).toNat * (127 : Byte).toNat ∧
      (2 : Byte).toNat * (127 : Byte).toNat < 256 ∧ 15 < (16 : Byte).toNat ∧ 0x401 % 64 ≠ 0) ∧
    (let rec0 : List Byte := List.replicate 24 0 ++ [1] ++ List.replicate 39 0
     let rec1 : List Byte := List.replicate 4 0 ++ [1] ++ List.replicate 19 0 ++ [1] ++ List.replicate 39 0
     let s := dx (fun q => { q.setW 1 1000 with x := 0x400, y := 0x600 }) 0x400 (rec0 ++ rec1)
     ((s.seq 0).w 1).toNat % 2 ^ 32 ≠ 0 ∧ Sparse.bytes byteDflt s.ram (privRam 0 0x400) 64 = rec0 ∧
       Sparse.bytes byteDflt s.ram (privRam 0 0x440) 64 = rec1 ∧ leAt rec1 4 2 = (leAt rec0 4 2 + 1) % 65536 ∧
       tapOf rec1 2 = tapOf rec0 2 ∧ tapOf rec0 2 ≠ (0, 0) ∧ (pllA rec0).result ≠ some 2147483648) := by decide +kernel

theorem witness_CopOrbit :
    (let s := { r0 with seqs := [(10, { Seq.dflt 10 with x := 0x7FD8, y := 0x7FB0, a := 220 })] }
     DxReady 10 s ∧ (s.seq 10).rep = none ∧ (s.seq 10).x.toNat + 8 ≤ 0x7FE0 ∧ (s.seq 10).y.toNat + 48 ≤ 0x7FE0 ∧
       (s.seq 10).a.toNat ≤ 220 ∧ slotUsable (skySlot s 220) 0 = false ∧ refPos s = none) ∧
    220 < (221 : Byte).toNat := by decide +kernel

theorem witness_CopHash :
    (DxReady 10 r0 ∧ (r0.seq 10).rep = none ∧ (r0.seq 10).x.toNat + 32 ≤ 0x7FE0 ∧ freeLane r0 = some 0 ∧ (r0.seq 10).a.toNat ≤ 3 ∧
      (r0.seq 10).mode.toNat % 4 ≠ 0) ∧
    (let j : HashJob := { desc := 0x100, bytes := List.replicate 32 0 }
     let s := { r0 with hash := [(0, some j), (1, some j), (3, some j)] }
     freeLane s = none ∧ hashJob s 3 = some j ∧ j.desc.toNat + 32 ≤ 0x7FE0 ∧ j.refused = false) ∧
    (let s := { r0 with seqs := [(10, { Seq.dflt 10 with a := 67 })] }
     DxReady 10 s ∧ 32 ≤ (s.seq 10).a.toNat ∧ (s.seq 10).a.toNat ≤ 67) := by decide +kernel


/-! One step on a small state, with the result the spec's worked examples and tables give. -/

/-- The worked example of R20: 2030-03-01 00:00:00.25. -/
theorem test_spt64 : ({ r0 with tb := { sec := 0x5E546380, phase := secUnits / 4 } } : State).now64 = 0x5E54638040000000 := by decide +kernel

/-- The AGC worked example of chapter 03: a clipping window steps GAIN from 44 to 40, and window 6 from 24 to 20. -/
theorem test_agc_clip :
    (after (exec (.agcWindowEnd 0 .byDevice .byDevice .byDevice)
      (ifcOne { agcEnd := some (4096, 30000, 1000) } [(F.IFC_CH_AGC_CFG_MODE 0, 0), (F.IFC_CH_AGC_CFG_MAX_STEP 0, 4), (F.IFC_CH_AGC_CFG_TARGET 0, 16),
        (F.IFC_CH_AGC_STAT_GAIN 0, 44)]))).fld (F.IFC_CH_AGC_STAT_GAIN 0) = 40 := by decide +kernel

/-- The job ring worked example of chapter 16: a doorbell of 2,500 descriptors on 4,096. -/
def ring3 : State :=
  setAll [(F.HOST_RING_CFG_SIZE_E 3, 12), (F.HOST_RING_HEAD_HEAD 3, 0xFFFFFF00), (F.HOST_RING_TAIL_TAIL 3, 0xFFFFFF40)]

theorem test_doorbell :
    (after (exec (.jobDoorbell .host 3 0x904) ring3)).word (R.HOST_RING_TAIL 3) = 0x904 ∧
    ringLevel 3 (after (exec (.jobDoorbell .host 3 0x904) ring3)) = 2564 := by decide +kernel

theorem test_doorbell_refused :
    (after (exec (.jobDoorbell .host 3 0xF01) ring3)).word (R.HOST_RING_TAIL 3) = 0xFFFFFF40 := by decide +kernel

/-- The DLL worked example of chapter 15: the slot 1 record of channel 17 with E and L in phase. -/
def le4 (v : Nat) : List Byte :=
  [BitVec.ofNat 8 v, BitVec.ofNat 8 (v / 256), BitVec.ofNat 8 (v / 65536), BitVec.ofNat 8 (v / 16777216)]
def dll : State :=
  let m := Sparse.putBytes byteDflt [] (0x2000000 + 0x8C0 + 16) (le4 150000 ++ le4 0 ++ le4 0 ++ le4 0 ++ le4 160000 ++ le4 0)
  { setAll [(F.TRK_RING_CTRL_PWR 0, 1), (⟨R.PWR_DOMAIN, 5, 5⟩, 1)] with mem := m, seqs := [(0, { pc := 0x0200, mode := 1, run := .run, x := 0xA8C0, b := 7 })] }

theorem test_dll :
    ((after (exec (.cp0DllEl 0 .u32 0x10 1 32) dll)).seq 0).w 1 = 1850 ∧
    ((after (exec (.cp0DllEl 0 .u32 0x10 1 32) dll)).seq 0).b = 0 := by decide +kernel

/-- An interrupt at the sixth boundary of the block copy of chapter 14: the frame and the mode it leaves. -/
def copying : State :=
  let q : Seq := { mode := 0x81, x := 0x418, y := 0xA8D8, ct := 10, b := 5, imask := 0x1000, ipend := 0x1000, run := .run }
  after (exec (.dxInterruptEntry 0 12) { r0 with ram := Sparse.putBytes byteDflt [] (privRam 0 0x1206) [0x02, 0x10], seqs := [(0, { q with pc := 0x1208, rep := some (0x1206, false) })] })

theorem test_interrupt_frame :
    (copying.seq 0).sp = 0x7FDC ∧ (copying.seq 0).mode = 0x01 ∧
    Sparse.bytes byteDflt copying.ram (privRam 0 0x7FDC) 4 = [5, 0xC1, 6, 0x12] := by decide +kernel

theorem test_rti :
    ((after (exec (.dxRti 0) copying)).seq 0).pc = 0x1206 ∧ ((after (exec (.dxRti 0) copying)).seq 0).mode = 0xC1 ∧
    ((after (exec (.dxRti 0) copying)).seq 0).b = 5 := by decide +kernel

/-- LDX of the same example: X and the address of the next instruction. -/
theorem test_ldx :
    ((after (exec (.dxLdx 0 (.imm 0x0400)) (dx id 0 []))).seq 0).x = 0x0400 ∧
    ((after (exec (.dxLdx 0 (.imm 0x0400)) (dx id 0 []))).seq 0).pc = 0x0203 := by decide +kernel

/-- MULQ and ADD of the DLL example. -/
theorem test_mulq :
    ((after (exec (.cp0Mulq 0 .s48 0x12 24) (dx (fun q => (q.setW 1 1850).setW 2 2401919801) 0 []))).seq 0).w 1 = 264856 := by
  decide +kernel

theorem test_wide_add :
    ((after (exec (.cp0Add 0 .s48 0x31) (dx (fun q => (q.setW 3 2399577984291).setW 1 264856) 0 []))).seq 0).w 3 = 2399578249147 := by
  decide +kernel

/-- Arithmetic at a byte's edge: the carry of ADD and the borrow of SUB go to B (R377). -/
theorem test_add_carry :
    ((after (exec (.dxAdd 0 (.imm 0x01)) (dx (fun q => { q with a := 0xFF }) 0 []))).seq 0).a = 0 ∧
    ((after (exec (.dxAdd 0 (.imm 0x01)) (dx (fun q => { q with a := 0xFF }) 0 []))).seq 0).b = 1 := by decide +kernel

theorem test_sub_borrow :
    ((after (exec (.dxSub 0 (.imm 0x01)) (dx id 0 []))).seq 0).a = 0xFF ∧
    ((after (exec (.dxSub 0 (.imm 0x01)) (dx id 0 []))).seq 0).b = 1 := by decide +kernel

/-- The corrections of the worked example of chapter 10 for satellite index 6, in mm: ionosphere and troposphere. -/
theorem test_path_delays :
    Num.round (1000 * slantDelay (Num.snap (413 / 1800 * Num.pi)) (1240 / 100) 1575420000) = 2868 ∧
    Num.round (1000 * tropoDelay 60 (Num.snap (413 / 1800 * Num.pi))) = 3456 := by decide +kernel

/-- Descriptor 12 of the worked example of chapter 13: 120 bytes, 40,995 µs on air. -/
theorem test_frame_air :
    (let f : BcnFrame := { index := 12, due := 0, desc := [1, 3, 2, 4, 0, 40] }
     f.bytes = 120 ∧ f.air = 40995) := by decide +kernel

/-- The eighth symbol of the worked example of chapter 06: an inverted match of 0x8B, so CONFIRM. -/
theorem test_lnav_match :
    (let s := after (exec (.symbolDequeue 1 .byDevice) (navAt 0x00 0x403C0060 (navBuf [96, -96, -96, -96, 96, -96, 96]) 0))
     s.fld (F.NAV_CH_STAT_SYNC 40) = 1 ∧ s.bit (F.NAV_CH_STAT_POL 40) = true) := by decide +kernel

/-! Codes read from the table of R374 and the operand orders of R373. -/

theorem test_code_rows :
    dxCode 0 0x00 0 0 0 0 = some (.row (.dxNop 0)) ∧ dxCode 0 0x30 9 0 0 0 = some (.row (.dxAdd 0 (.imm 9))) ∧
    dxCode 0 0x12 0x34 0x12 0 0 = some (.row (.dxLda 0 (.abs 0x1234))) ∧
    dxCode 0 0x8A 1 2 0 0 = some (.row (.dxMov 0 (.dir 1 2))) ∧
    dxCode 0 0x8B 0x01 0x02 0x03 0x04 = some (.row (.dxMov 0 (.abs 0x0201 0x0403))) ∧
    dxCode 0 0x9A 0x10 7 0 0 = some (.row (.dxBtst 0 (.dir 0x10) 7)) ∧
    dxCode 0 0xA9 0x00 0x04 3 0 = some (.row (.dxBset 0 (.abs 0x0400) 3)) ∧
    dxCode 0 0xF2 7 0 0 0 = some (.row (.dxSvc 0 7)) := by decide +kernel

theorem test_code_escape :
    ((dxCode 0 0xE0 0x46 0x12 0 0).map (fun d => d.spells (.cp0Add 0 .s32 0x12))) = some true ∧
    ((dxCode 0 0xE0 0x46 0x12 0 0).map (fun d => d.spells (.cp0Add 0 .u32 0x12))) = some false ∧
    dxCode 0 0xE0 0x18 0 0 0 = none ∧ dxCode 0 0xE1 0x02 0 0 0 = none ∧ dxCode 0 0xE3 0 0 0 0 = none := by decide +kernel

theorem test_code_reserved :
    dxCode 0 0x0F 0 0 0 0 = none ∧ dxCode 0 0x8F 0 0 0 0 = none ∧ dxCode 0 0xB0 0 0 0 0 = none ∧ dxCode 0 0xFC 0 0 0 0 = none ∧
    dxCode 0 0xFF 0xFF 0xFF 0xFF 0xFF = none := by decide +kernel

end Sys2Proof.Tests
end

section
/-! SUPPORT. Frames that compose: what register writes, events and denials leave as it was, and what an event leaves pending. -/
namespace Sys2Proof.Machine

variable {s t u : State} {ks ls : List Nat}

/-- Nothing but register words of the list, the output and the ticks of events differs. -/
structure WordsOnly (ks : List Nat) (s t : State) : Prop where
  rest : t = { s with regs := t.regs, out := t.out, evAt := t.evAt }
  words : RegsBut ks s t

theorem WordsOnly.refl (ks : List Nat) (s : State) : WordsOnly ks s s := ⟨rfl, fun _ _ => rfl⟩

theorem WordsOnly.trans (h : WordsOnly ks s t) (k : WordsOnly ks t u) : WordsOnly ks s u :=
  ⟨k.rest.trans (by rw [h.rest]), fun j hj => (k.words j hj).trans (h.words j hj)⟩

theorem WordsOnly.mono (h : WordsOnly ks s t) (hs : ks ⊆ ls) : WordsOnly ls s t :=
  ⟨h.rest, fun j hj => h.words j (fun hk => hj (hs hk))⟩

theorem WordsOnly.memsSame (h : WordsOnly ks s t) : MemsSame s t :=
  ⟨(congrArg State.mem h.rest :), (congrArg State.ram h.rest :), (congrArg State.hostMem h.rest :), (congrArg State.flash h.rest :)⟩

theorem WordsOnly.setWord (off : Nat) (w : Word) (s : State) : WordsOnly [off] s (s.setWord off w) :=
  ⟨rfl, fun _ hk => State.word_setWord_ne s w (List.ne_of_not_mem_cons hk)⟩

theorem WordsOnly.setFld (f : Fld) (v : Nat) (s : State) : WordsOnly [f.off] s (s.setFld f v) := WordsOnly.setWord _ _ s

theorem WordsOnly.setMaskBit (off i : Nat) (b : Bool) (s : State) : WordsOnly [off] s (s.setMaskBit off i b) :=
  WordsOnly.setWord _ _ s

theorem WordsOnly.evNote (ks : List Nat) (n : Nat) (s : State) : WordsOnly ks s (Machine.evNote n s) := ⟨rfl, fun _ _ => rfl⟩

theorem WordsOnly.emit (ks : List Nat) (o : Output) (s : State) : WordsOnly ks s (s.emit o) := ⟨rfl, fun _ _ => rfl⟩

/-! Bits. -/

theorem testBit_bitsOf (v hi lo i : Nat) : (bitsOf v hi lo).testBit i = (decide (i < hi + 1 - lo) && v.testBit (lo + i)) := by
  rw [bitsOf, Nat.testBit_mod_two_pow, Nat.testBit_div_two_pow, Nat.add_comm i lo]

theorem State.maskBit_setMaskBit (s : State) (off i k j : Nat) (b : Bool) (hi : i < 32) :
    (s.setMaskBit off i b).maskBit k j = if k = off ∧ j = i then b else s.maskBit k j := by
  by_cases hk : k = off
  · subst hk
    have hw := State.word_setFld s ⟨k, i, i⟩ (if b then 1 else 0)
    rw [State.maskBit, State.setMaskBit, State.setBit, show k = (⟨k, i, i⟩ : Fld).off from rfl, hw, BitVec.getLsbD_ofNat,
      testBit_insertBits _ _ _ _ _ (Nat.le_refl i), State.maskBit, BitVec.getLsbD]
    by_cases hj : j = i
    · subst hj; cases b <;> simp [hi]
    · by_cases hlt : j < 32
      · by_cases h1 : j < i
        · simp [hlt, h1, hj]
        · have : ¬ j ≤ i := by omega
          simp [hlt, h1, hj, this]
      · have := (s.word k).isLt
        have h32 : (s.word k).toNat.testBit j = false :=
          Nat.testBit_lt_two_pow (this.trans_le (Nat.pow_le_pow_right (by decide) (by omega)))
        simp [hlt, hj, h32]
  · rw [State.maskBit, State.setMaskBit, State.setBit, State.word_setFld_ne s _ hk, if_neg (fun h => hk h.1)]
    rfl

/-! Events. -/

theorem fld_route_vector_lt (n : Nat) (s : State) : s.fld (F.EV_ROUTE_VECTOR n) < 64 := bitsOf_lt _ _ _

theorem WordsOnly.msiSend (s : State) {v : Nat} (hv : v < 64) :
    WordsOnly [R.MSIX_PBA 0, R.MSIX_PBA 1] s (Machine.msiSend s v) := by
  unfold Machine.msiSend
  split
  · exact .refl _ s
  · split
    · refine (WordsOnly.setFld ⟨R.MSIX_PBA (v / 32), v % 32, v % 32⟩ 1 s).mono ?_
      have : v / 32 = 0 ∨ v / 32 = 1 := by omega
      rcases this with h | h <;> simp [h]
    · exact .emit _ _ s

/-- The state of an event with its pending bits set, before any message. -/
def eventMarked (n : Nat) (s : State) : State :=
  evNote n ((s.setMaskBit (copyOff .host (R.EV_PEND (n / 32))) (n % 32) true).setMaskBit
    (copyOff .sqm (R.EV_PEND (n / 32))) (n % 32) true)

theorem raise_cases (n : Nat) (s : State) :
    raise n s = eventMarked n s ∨ ∃ v < 64, raise n s = msiSend (eventMarked n s) v := by
  unfold raise eventMarked
  dsimp only
  split
  · exact .inr ⟨_, fld_route_vector_lt n _, rfl⟩
  · exact .inl rfl

theorem WordsOnly.eventMarked (n : Nat) (s : State) : WordsOnly (evKeys n) s (Machine.eventMarked n s) := by
  unfold evKeys
  exact (((WordsOnly.setMaskBit _ _ _ s).mono (by simp)).trans ((WordsOnly.setMaskBit _ _ _ _).mono (by simp))).trans
    (WordsOnly.evNote _ n _)

theorem WordsOnly.raise (n : Nat) (s : State) : WordsOnly (evKeys n) s (Machine.raise n s) := by
  rcases raise_cases n s with h | ⟨v, hv, h⟩ <;> rw [h]
  · exact .eventMarked n s
  · exact (WordsOnly.eventMarked n s).trans ((WordsOnly.msiSend _ hv).mono (by simp [evKeys]))

theorem WordsOnly.flagEvent (f : Fld) (n : Nat) (s : State) : WordsOnly (f.off :: evKeys n) s (Machine.flagEvent f n s) := by
  unfold Machine.flagEvent
  split
  · exact .refl _ s
  · exact ((WordsOnly.setFld f 1 s).mono (by simp)).trans ((WordsOnly.raise n _).mono (List.subset_cons_self _ _))

/-- A key below the readers' copies: a word of BAR 0 itself. -/
theorem copyOff_ne {k : Nat} (h : k < 0x1000000) (r : Reader) (off : Nat) : copyOff r off ≠ k := by
  unfold copyOff
  omega

/-- An event pending stays so when words of BAR 0 itself are all that changes. -/
theorem EventUp.of_words {n : Nat} (h : EventUp n s) (hw : RegsBut ks s t) (hk : ∀ k ∈ ks, k < 0x1000000) : EventUp n t := by
  have key (r : Reader) : copyOff r (R.EV_PEND (n / 32)) ∉ ks := fun hm => copyOff_ne (hk _ hm) r _ rfl
  unfold EventUp State.maskBit at h ⊢
  rwa [hw _ (key .host), hw _ (key .sqm)]

theorem maskBit_evNote (n k i : Nat) (s : State) : (evNote n s).maskBit k i = s.maskBit k i := rfl

theorem maskBit_eventMarked (n k i : Nat) (s : State) :
    (eventMarked n s).maskBit k i =
      (decide ((k = copyOff .host (R.EV_PEND (n / 32)) ∨ k = copyOff .sqm (R.EV_PEND (n / 32))) ∧ i = n % 32) || s.maskBit k i) := by
  have hlt : n % 32 < 32 := Nat.mod_lt _ (by decide)
  rw [eventMarked, maskBit_evNote, State.maskBit_setMaskBit _ _ _ _ _ _ hlt, State.maskBit_setMaskBit _ _ _ _ _ _ hlt]
  generalize copyOff .host (R.EV_PEND (n / 32)) = a, copyOff .sqm (R.EV_PEND (n / 32)) = b
  by_cases h1 : k = b <;> by_cases h2 : k = a <;> by_cases h3 : i = n % 32 <;> simp [h1, h2, h3]

theorem EventUp.raise_of_marked {m n : Nat} (h : EventUp m (eventMarked n s)) : EventUp m (raise n s) := by
  rcases raise_cases n s with e | ⟨v, hv, e⟩ <;> rw [e]
  · exact h
  · exact h.of_words (WordsOnly.msiSend _ hv).words (by decide)

/-- An event raised is pending. -/
theorem EventUp.raise_self (n : Nat) (s : State) : EventUp n (raise n s) := by
  apply EventUp.raise_of_marked
  constructor <;> simp [maskBit_eventMarked]

/-- An event leaves those pending that were. -/
theorem EventUp.raise {m : Nat} (h : EventUp m s) (n : Nat) : EventUp m (Machine.raise n s) := by
  apply EventUp.raise_of_marked
  obtain ⟨h1, h2⟩ := h
  constructor <;> simp [maskBit_eventMarked, h1, h2]

end Sys2Proof.Machine
end

section
/-! SUPPORT. Denied accesses and writes under the access codes of R5: which words they change, and bits of the word written. -/
namespace Sys2Proof.Machine

variable {s t : State} {ks : List Nat}

theorem RegsBut.fld (h : RegsBut ks s t) {f : Fld} (hf : f.off ∉ ks) : t.fld f = s.fld f := by
  rw [State.fld, State.fld, h _ hf]

theorem RegsBut.bit (h : RegsBut ks s t) {f : Fld} (hf : f.off ∉ ks) : t.bit f = s.bit f := by
  rw [State.bit, State.bit, h.fld hf]

/-! The record of a denial (R516). -/

/-- The first denial's record: PROT_STAT and PROT_ADDR, before its event. -/
def protNoted (init space addr : Nat) (write : Bool) (s : State) : State :=
  if s.bit F.SEC_PROT_STAT_VALID then s
  else ((((s.setFld F.SEC_PROT_STAT_VALID 1).setFld F.SEC_PROT_STAT_WRITE (if write then 1 else 0)).setFld
    F.SEC_PROT_STAT_SPACE space).setFld F.SEC_PROT_STAT_INIT init).setFld F.SEC_PROT_ADDR_ADDR addr

theorem protRecord_eq (r : Reader) (space addr : Nat) (write : Bool) (s : State) :
    protRecord r space addr write s = raise 124 (protNoted (initCode r) space addr write s) := rfl

theorem WordsOnly.protNoted (init space addr : Nat) (write : Bool) (s : State) :
    WordsOnly protKeys s (Machine.protNoted init space addr write s) := by
  unfold Machine.protNoted
  split
  · exact .refl _ s
  · have stat (f : Fld) (hf : f.off = R.SEC_PROT_STAT ∨ f.off = R.SEC_PROT_ADDR) (v : Nat) (s : State) :
        WordsOnly protKeys s (s.setFld f v) :=
      (WordsOnly.setFld f v s).mono (by rcases hf with h | h <;> simp [h, protKeys])
    exact ((((stat _ (.inl rfl) _ _).trans (stat _ (.inl rfl) _ _)).trans (stat _ (.inl rfl) _ _)).trans
      (stat _ (.inl rfl) _ _)).trans (stat _ (.inr rfl) _ _)

theorem WordsOnly.protRecord (r : Reader) (space addr : Nat) (write : Bool) (s : State) :
    WordsOnly protKeys s (Machine.protRecord r space addr write s) :=
  (WordsOnly.protNoted _ _ _ _ s).trans ((WordsOnly.raise 124 _).mono (List.subset_append_left _ _))

theorem EventUp.protRecord (r : Reader) (space addr : Nat) (write : Bool) (s : State) :
    EventUp 124 (Machine.protRecord r space addr write s) := EventUp.raise_self 124 _

theorem initCode_lt (r : Reader) : initCode r < 16 := by
  cases r with
  | sq n => exact n.isLt.trans (by decide)
  | _ => decide

/-- The fields of PROT_STAT and PROT_ADDR that a first denial leaves. -/
theorem protRecord_fields (r : Reader) {space addr : Nat} (write : Bool) (ha : addr < 2 ^ 32)
    (h : s.bit F.SEC_PROT_STAT_VALID = false) :
    let t := protRecord r space addr write s
    t.bit F.SEC_PROT_STAT_VALID = true ∧ t.bit F.SEC_PROT_STAT_WRITE = write ∧
      t.fld F.SEC_PROT_STAT_INIT = initCode r ∧ t.fld F.SEC_PROT_ADDR_ADDR = addr := by
  have hr := (WordsOnly.raise 124 (protNoted (initCode r) space addr write s)).words
  have hi := initCode_lt r
  dsimp only
  rw [protRecord_eq, hr.bit (by decide), hr.bit (by decide), hr.fld (by decide), hr.fld (by decide)]
  unfold protNoted
  rw [h]
  refine ⟨?_, ?_, ?_, ?_⟩
  · simp [State.bit, State.fld_setFld, State.fld_setFld_ne]
  · cases write <;> simp [State.bit, State.fld_setFld, State.fld_setFld_ne]
  · simp only [Bool.false_eq_true, if_false]
    rw [State.fld_setFld_ne _ _ _ _ (by decide) (by decide) (by decide), State.fld_setFld _ _ _ (by decide) (by decide)]
    exact Nat.mod_eq_of_lt hi
  · simp only [Bool.false_eq_true, if_false]
    rw [State.fld_setFld _ _ _ (by decide) (by decide)]
    exact Nat.mod_eq_of_lt ha

theorem protRecord_valid (r : Reader) {space addr : Nat} (write : Bool) (ha : addr < 2 ^ 32) :
    (protRecord r space addr write s).bit F.SEC_PROT_STAT_VALID = true := by
  cases h : s.bit F.SEC_PROT_STAT_VALID
  · exact (protRecord_fields r write ha h).1
  · rw [protRecord_eq, (WordsOnly.raise 124 _).words.bit (by decide), protNoted, if_pos h, h]

/-! A write under the access codes (R5, R583). -/

/-- A denial's record where a write without Vault rights offends a VLT field. -/
def vltChecked (r : Reader) (off : Nat) (v : Word) (fl : List FieldSpec) (s : State) : State :=
  if !vaultRights r s && vltOffends (s.word off).toNat v.toNat fl then protRecord r 2 off true s else s

/-- The word a write leaves. -/
def wordWritten (vault : Bool) (w v : Word) (fl : List FieldSpec) : Word :=
  BitVec.ofNat 32 (wordAfter vault w.toNat v.toNat fl)

theorem plainWrite_shared {r : Reader} {off : Nat} {spec : RegSpec} (v : Word) (h : regAt off = some spec)
    (hp : spec.perReader = false) :
    plainWrite r off v s =
      (vltChecked r off v spec.fields s).setWord off (wordWritten (vaultRights r s) (s.word off) v spec.fields) := by
  simp [plainWrite, h, hp, vltChecked, wordWritten]

theorem WordsOnly.vltChecked (r : Reader) (off : Nat) (v : Word) (fl : List FieldSpec) (s : State) :
    WordsOnly protKeys s (Machine.vltChecked r off v fl s) := by
  unfold Machine.vltChecked
  split
  · exact .protRecord _ _ _ _ s
  · exact .refl _ s

/-- A write of a register with no VLT field that it offends changes the register's word alone. -/
theorem WordsOnly.plainWrite_of_lawful {r : Reader} {off : Nat} {spec : RegSpec} (v : Word) (h : regAt off = some spec)
    (hp : spec.perReader = false) (hv : Machine.vltChecked r off v spec.fields s = s) :
    WordsOnly [off] s (plainWrite r off v s) := by
  rw [plainWrite_shared v h hp, hv]
  exact .setWord _ _ s

end Sys2Proof.Machine
end

section
/-! PROOFS. Register writes (R5, R8, R41, R395, R422, R516). -/
namespace Sys2Proof.Machine

variable {s : State}

/-- A whole aligned request passes the gate and is a write of the word. -/
theorem exec_registerWrite (who : Reader) {off : BitVec 24} (v : Word) (s : State) (h : off.toNat % 4 = 0) :
    exec (.registerWrite who ⟨off, true⟩ v) s = .next (gate who off.toNat true (busWrite who off.toNat v) s) := by
  change execRegisterWrite who ⟨off, true⟩ v s = _
  simp [execRegisterWrite, reqSound, h]

/-- A whole request to an open word at an offset of BAR 0. -/
theorem exec_registerWrite_open {who : Reader} {off : Nat} (v : Word) (h : Open who off s) (ha : off % 4 = 0)
    (hl : off < 2 ^ 24) :
    exec (.registerWrite who ⟨BitVec.ofNat 24 off, true⟩ v) s = .next (busWrite who off v s) := by
  have ht : (BitVec.ofNat 24 off).toNat = off := by rw [BitVec.toNat_ofNat, Nat.mod_eq_of_lt hl]
  rw [exec_registerWrite who v s (by rw [ht, ha]), ht, gate_open h.1 h.2]

/-- A request that is not whole or not aligned writes nothing. -/
theorem exec_registerWrite_unsound (who : Reader) {off : BitVec 24} {whole : Bool} (v : Word) (s : State)
    (h : off.toNat % 4 ≠ 0 ∨ whole = false) :
    exec (.registerWrite who ⟨off, whole⟩ v) s = .next (badAccess who s) := by
  have hs : reqSound ⟨off, whole⟩ = false := by
    rcases h with h | h <;> simp [reqSound, h]
  change execRegisterWrite who ⟨off, whole⟩ v s = _
  simp [execRegisterWrite, hs]

theorem badAccess_host (h1 : s.pwr.hib = false) (h2 : s.pwr.pcieOff = false) :
    badAccess .host s = flagEvent F.HOST_ERR_BAD_ACCESS 7 s := by
  simp [badAccess, h1, h2]

theorem bit_flagEvent_badAccess (s : State) : (flagEvent F.HOST_ERR_BAD_ACCESS 7 s).bit F.HOST_ERR_BAD_ACCESS = true := by
  unfold flagEvent
  split
  · assumption
  · rw [(WordsOnly.raise 7 _).words.bit (by decide)]
    exact State.bit_setBit s F.HOST_ERR_BAD_ACCESS true rfl (by decide)

/-! The words that have no row of their own go to the access codes. -/

/-- A write in the timebase's page. -/
theorem busWrite_time {who : Reader} {off : Nat} (v : Word) (h : bar0Answers who off s = true) (hp : off / 0x10000 = 1) :
    busWrite who off v s = writeTime who off v s := by
  have hm : bar0Mem off = false := by simp [bar0Mem]; omega
  simp [busWrite, h, ringOffReg, hp, hm]

theorem writeTime_tbCtrl (who : Reader) (v : Word) (s : State) :
    writeTime who R.TB_CTRL v s = plainWrite who R.TB_CTRL v s := by simp [writeTime, R.TB_CTRL, R.TP_CFG]

theorem writeTime_ttStatus (who : Reader) (v : Word) (s : State) :
    writeTime who R.TT_STATUS v s = plainWrite who R.TT_STATUS v s := by simp [writeTime, R.TT_STATUS, R.TP_CFG]

theorem busWrite_sqStart {who : Reader} (n : SeqId) (v : Word) (h : bar0Answers who (R.SQ_START n.val) s = true) :
    busWrite who (R.SQ_START n.val) v s = plainWrite who (R.SQ_START n.val) v s := by
  have hn := n.isLt
  have hp : R.SQ_START n.val / 0x10000 = 0x58 := by unfold R.SQ_START; omega
  have hm : bar0Mem (R.SQ_START n.val) = false := by simp [bar0Mem, R.SQ_START]; omega
  simp [busWrite, h, ringOffReg, hp, hm]

/-- The fields of TB_CTRL (R41). -/
def tbCtrlFields : List FieldSpec := [fs 31 31 .w1s 0, fs 0 0 (.rwl 31) 0]

/-- The fields of TT_STATUS (R57). -/
def ttStatusFields : List FieldSpec := [fs 31 19 .ro 0, fs 1 1 .w1c 0, fs 0 0 .w1c 0]

/-- The field of SQ_n_START (R395). -/
def sqStartFields : List FieldSpec := [fs 15 0 .vlt 0x100]

theorem regAt_tbCtrl : regAt R.TB_CTRL = some ⟨R.TB_CTRL, [], 0, .s, false, tbCtrlFields⟩ := by decide

theorem regAt_ttStatus : regAt R.TT_STATUS = some ⟨R.TT_STATUS, [], 0, .d, false, ttStatusFields⟩ := by decide

theorem regAt_sqStart : ∀ n : SeqId, regAt (R.SQ_START n.val) = some ⟨R.SQ_START 0, [(0x100, 11)], 0, .s, false, sqStartFields⟩ := by
  decide

end Sys2Proof.Machine
end

section
/-! SUPPORT. A field of a word written is what its access code makes of it (R5). -/
namespace Sys2Proof.Machine

variable {s : State}

/-- Whether two fields share no bit. -/
def FieldSpec.apart (f g : FieldSpec) : Prop := f.hi < g.lo ∨ g.hi < f.lo

/-- A register's fields lie in its word and share no bit. -/
def fieldsApart (fl : List FieldSpec) : Prop :=
  (∀ f ∈ fl, f.lo ≤ f.hi ∧ f.hi < 32) ∧ fl.Pairwise FieldSpec.apart

theorem fieldAfter_lt (vault : Bool) (word v : Nat) {old : Nat} (f : FieldSpec) (ho : old < 2 ^ (f.hi + 1 - f.lo)) :
    fieldAfter vault word old (bitsOf v f.hi f.lo) f < 2 ^ (f.hi + 1 - f.lo) := by
  have hn := bitsOf_lt v f.hi f.lo
  unfold fieldAfter
  dsimp only
  split
  case h_4 => exact Nat.and_lt_two_pow _ (by omega)
  case h_5 => exact Nat.or_lt_two_pow ho hn
  all_goals repeat' split
  all_goals assumption

/-- What a write does to the word, field by field from an intermediate word on. -/
def fieldsWritten (vault : Bool) (word v : Nat) (fl : List FieldSpec) (acc : Nat) : Nat :=
  fl.foldl (fun acc f => insertBits acc f.hi f.lo
    (fieldAfter vault word (bitsOf word f.hi f.lo) (bitsOf v f.hi f.lo) f)) acc

theorem fieldsWritten_lt {vault : Bool} {word v acc : Nat} {fl : List FieldSpec} (h : ∀ f ∈ fl, f.lo ≤ f.hi ∧ f.hi < 32)
    (ha : acc < 2 ^ 32) : fieldsWritten vault word v fl acc < 2 ^ 32 := by
  induction fl generalizing acc with
  | nil => exact ha
  | cons f fl ih =>
    obtain ⟨hl, hh⟩ := h f List.mem_cons_self
    exact ih (fun g hg => h g (List.mem_cons_of_mem _ hg)) (insertBits_lt ha hh hl)

/-- Bits outside the fields stay. -/
theorem bitsOf_fieldsWritten_apart {vault : Bool} {word v acc hi lo : Nat} {fl : List FieldSpec}
    (h : ∀ f ∈ fl, f.lo ≤ f.hi ∧ (hi < f.lo ∨ f.hi < lo)) :
    bitsOf (fieldsWritten vault word v fl acc) hi lo = bitsOf acc hi lo := by
  induction fl generalizing acc with
  | nil => rfl
  | cons f fl ih =>
    obtain ⟨hl, hd⟩ := h f List.mem_cons_self
    exact (ih (fun g hg => h g (List.mem_cons_of_mem _ hg))).trans (bitsOf_insertBits_ne _ _ _ _ _ _ hl hd)

theorem bitsOf_fieldsWritten {vault : Bool} {word v acc : Nat} {fl : List FieldSpec} {f : FieldSpec} (hf : f ∈ fl)
    (h : fieldsApart fl) : bitsOf (fieldsWritten vault word v fl acc) f.hi f.lo =
      fieldAfter vault word (bitsOf word f.hi f.lo) (bitsOf v f.hi f.lo) f := by
  induction fl generalizing acc with
  | nil => cases hf
  | cons g fl ih =>
    obtain ⟨hr, hp⟩ := h
    obtain ⟨hg, hp⟩ := List.pairwise_cons.1 hp
    rcases List.mem_cons.1 hf with rfl | hf
    · have hl := (hr f List.mem_cons_self).1
      refine (bitsOf_fieldsWritten_apart (fun k hk => ⟨(hr k (List.mem_cons_of_mem _ hk)).1, hg k hk⟩)).trans ?_
      rw [bitsOf_insertBits _ _ _ _ hl, Nat.mod_eq_of_lt (fieldAfter_lt _ _ _ f (bitsOf_lt _ _ _))]
    · exact ih hf ⟨fun k hk => hr k (List.mem_cons_of_mem _ hk), hp⟩

/-- A field of the word that a write leaves. -/
theorem bitsOf_wordWritten (vault : Bool) (w v : Word) {fl : List FieldSpec} {f : FieldSpec} (hf : f ∈ fl)
    (h : fieldsApart fl) : bitsOf (wordWritten vault w v fl).toNat f.hi f.lo =
      fieldAfter vault w.toNat (bitsOf w.toNat f.hi f.lo) (bitsOf v.toNat f.hi f.lo) f := by
  have hlt : wordAfter vault w.toNat v.toNat fl < 2 ^ 32 := fieldsWritten_lt h.1 w.isLt
  rw [wordWritten, BitVec.toNat_ofNat, Nat.mod_eq_of_lt hlt]
  exact bitsOf_fieldsWritten hf h

/-- A field after a write of its register. -/
theorem fld_plainWrite {r : Reader} {off : Nat} {spec : RegSpec} (v : Word) (h : regAt off = some spec)
    (hp : spec.perReader = false) (ha : fieldsApart spec.fields) {f : FieldSpec} (hf : f ∈ spec.fields) :
    (plainWrite r off v s).fld ⟨off, f.hi, f.lo⟩ =
      fieldAfter (vaultRights r s) (s.word off).toNat (s.fld ⟨off, f.hi, f.lo⟩) (bitsOf v.toNat f.hi f.lo) f := by
  rw [plainWrite_shared v h hp, State.fld, State.word_setWord, bitsOf_wordWritten _ _ _ hf ha, State.fld]

/-! One-bit fields. -/

theorem bitsOf_bit_lt (v i : Nat) : bitsOf v i i < 2 := by simpa using bitsOf_lt v i i

theorem bitsOf_bit (v i : Nat) : (bitsOf v i i == 1) = v.testBit i := by
  have h := testBit_bitsOf v i i 0
  have hb := bitsOf_bit_lt v i
  simp only [Nat.add_sub_cancel_left, Nat.zero_lt_one, decide_true, Bool.true_and, Nat.add_zero] at h
  rw [← h]
  generalize bitsOf v i i = b at hb
  interval_cases b <;> rfl

theorem or_eq_one {a b : Nat} (ha : a < 2) (hb : b < 2) : ((a ||| b) == 1) = (a == 1 || b == 1) := by
  interval_cases a <;> interval_cases b <;> rfl

theorem and_not_eq_one {a b : Nat} (ha : a < 2) (hb : b < 2) : ((a &&& (2 ^ 1 - 1 - b)) == 1) = (a == 1 && !(b == 1)) := by
  interval_cases a <;> interval_cases b <;> rfl

theorem State.bit_eq_testBit (s : State) (off i : Nat) : s.bit ⟨off, i, i⟩ = (s.word off).toNat.testBit i := bitsOf_bit _ _

/-- A one-bit W1S field after a write. -/
theorem bit_plainWrite_w1s {r : Reader} {off i rst : Nat} {spec : RegSpec} {l : Legal} (v : Word) (h : regAt off = some spec)
    (hp : spec.perReader = false) (ha : fieldsApart spec.fields) (hf : (⟨i, i, .w1s, rst, l⟩ : FieldSpec) ∈ spec.fields) :
    (plainWrite r off v s).bit ⟨off, i, i⟩ = (s.bit ⟨off, i, i⟩ || v.getLsbD i) := by
  rw [State.bit, fld_plainWrite v h hp ha hf]
  exact (or_eq_one (bitsOf_bit_lt _ _) (bitsOf_bit_lt _ _)).trans (congrArg _ (bitsOf_bit _ _))

/-- A one-bit W1C field after a write. -/
theorem bit_plainWrite_w1c {r : Reader} {off i rst : Nat} {spec : RegSpec} {l : Legal} (v : Word) (h : regAt off = some spec)
    (hp : spec.perReader = false) (ha : fieldsApart spec.fields) (hf : (⟨i, i, .w1c, rst, l⟩ : FieldSpec) ∈ spec.fields) :
    (plainWrite r off v s).bit ⟨off, i, i⟩ = (s.bit ⟨off, i, i⟩ && !v.getLsbD i) := by
  rw [State.bit, fld_plainWrite v h hp ha hf]
  simp only [fieldAfter, Nat.add_sub_cancel_left]
  exact (and_not_eq_one (bitsOf_bit_lt _ _) (bitsOf_bit_lt _ _)).trans (by rw [bitsOf_bit v.toNat]; rfl)

/-- A one-bit RWL field after a write. -/
theorem bit_plainWrite_rwl {r : Reader} {off i b rst : Nat} {spec : RegSpec} (v : Word) (h : regAt off = some spec)
    (hp : spec.perReader = false) (ha : fieldsApart spec.fields) (hf : (⟨i, i, .rwl b, rst, .any⟩ : FieldSpec) ∈ spec.fields) :
    (plainWrite r off v s).bit ⟨off, i, i⟩ = if s.bit ⟨off, b, b⟩ then s.bit ⟨off, i, i⟩ else v.getLsbD i := by
  rw [State.bit, fld_plainWrite v h hp ha hf, State.bit_eq_testBit s off b]
  simp only [fieldAfter, Legal.ok, if_true]
  split
  · rfl
  · exact bitsOf_bit _ _

end Sys2Proof.Machine
end

section
/-! PROOFS. O2: register writes of words without a row of their own (R5, R8, R41, R395, R422, R516). -/
namespace Sys2Proof.Machine

variable {s : State}

/-- A write of TB_CTRL where it is open (R41). -/
theorem exec_write_tbCtrl {who : Reader} (v : Word) (h : Open who R.TB_CTRL s) :
    exec (.registerWrite who ⟨BitVec.ofNat 24 R.TB_CTRL, true⟩ v) s = .next (plainWrite who R.TB_CTRL v s) := by
  rw [exec_registerWrite_open v h (by decide) (by decide), busWrite_time v h.1 (by decide), writeTime_tbCtrl]

/-- A write of TT_STATUS where it is open. -/
theorem exec_write_ttStatus {who : Reader} (v : Word) (h : Open who R.TT_STATUS s) :
    exec (.registerWrite who ⟨BitVec.ofNat 24 R.TT_STATUS, true⟩ v) s = .next (plainWrite who R.TT_STATUS v s) := by
  rw [exec_registerWrite_open v h (by decide) (by decide), busWrite_time v h.1 (by decide), writeTime_ttStatus]

/-- A write of SQ_n_START where it is open (R395). -/
theorem exec_write_sqStart {who : Reader} (n : SeqId) (v : Word) (h : Open who (R.SQ_START n.val) s) :
    exec (.registerWrite who ⟨BitVec.ofNat 24 (R.SQ_START n.val), true⟩ v) s =
      .next (plainWrite who (R.SQ_START n.val) v s) := by
  have hn := n.isLt
  rw [exec_registerWrite_open v h (by unfold R.SQ_START; omega) (by unfold R.SQ_START; omega), busWrite_sqStart n v h.1]

theorem fieldsApart_tbCtrl : fieldsApart tbCtrlFields := by
  simp [fieldsApart, FieldSpec.apart, tbCtrlFields, fs]

theorem fieldsApart_ttStatus : fieldsApart ttStatusFields := by
  simp [fieldsApart, FieldSpec.apart, ttStatusFields, fs]

theorem fieldsApart_sqStart : fieldsApart sqStartFields := by
  simp [fieldsApart, FieldSpec.apart, sqStartFields, fs]

/-- A register without VLT fields is never offended. -/
theorem vltChecked_of_no_vlt {r : Reader} {off : Nat} {v : Word} {fl : List FieldSpec}
    (h : ∀ w v, vltOffends w v fl = false) : vltChecked r off v fl s = s := by
  simp [vltChecked, h]

theorem registerWrite_denied {who : Reader} {off : BitVec 24} (v : Word) (ha : off.toNat % 4 = 0)
    (h1 : bar0Answers who off.toNat s = true) (h2 : protAllows who 0 off.toNat true s = false) :
    ∃ t, exec (.registerWrite who ⟨off, true⟩ v) s = .next t ∧ EventUp 124 t ∧ RegsBut protKeys s t ∧ MemsSame s t ∧
      t.bit F.SEC_PROT_STAT_VALID = true ∧
      (s.bit F.SEC_PROT_STAT_VALID = false → t.bit F.SEC_PROT_STAT_WRITE = true ∧
        t.fld F.SEC_PROT_STAT_INIT = initCode who ∧ t.fld F.SEC_PROT_ADDR_ADDR = off.toNat) := by
  have hlt : off.toNat < 2 ^ 32 := off.isLt.trans (by decide)
  have hw := WordsOnly.protRecord who 0 off.toNat true s
  refine ⟨protRecord who 0 off.toNat true s, ?_, .protRecord _ _ _ _ s, hw.words, hw.memsSame,
    protRecord_valid _ _ hlt, fun h => (protRecord_fields _ _ hlt h).2⟩
  rw [exec_registerWrite who v s ha, gate_denied h1 h2]

theorem registerWrite_unsound {off : BitVec 24} {whole : Bool} (v : Word) (h : off.toNat % 4 ≠ 0 ∨ whole = false)
    (h1 : s.pwr.hib = false) (h2 : s.pwr.pcieOff = false) :
    ∃ t, exec (.registerWrite .host ⟨off, whole⟩ v) s = .next t ∧ t.bit F.HOST_ERR_BAD_ACCESS = true ∧
      RegsBut (R.HOST_ERR :: evKeys 7) s t ∧ MemsSame s t ∧ (s.bit F.HOST_ERR_BAD_ACCESS = false → EventUp 7 t) := by
  have hw := WordsOnly.flagEvent F.HOST_ERR_BAD_ACCESS 7 s
  refine ⟨_, (exec_registerWrite_unsound .host v s h).trans (congrArg _ (badAccess_host h1 h2)),
    bit_flagEvent_badAccess s, hw.words, hw.memsSame, fun hb => ?_⟩
  rw [flagEvent, hb]
  exact .raise_self 7 _

theorem registerWrite_tbCtrl {who : Reader} (v : Word) (h : Open who R.TB_CTRL s) :
    ∃ t, exec (.registerWrite who ⟨BitVec.ofNat 24 R.TB_CTRL, true⟩ v) s = .next t ∧
      RegsBut [R.TB_CTRL] s t ∧ MemsSame s t ∧
      t.bit F.TB_CTRL_LOCK = (s.bit F.TB_CTRL_LOCK || v.getLsbD 31) ∧
      t.bit F.TB_CTRL_HOST_WRITE_EN = if s.bit F.TB_CTRL_LOCK then s.bit F.TB_CTRL_HOST_WRITE_EN else v.getLsbD 0 := by
  have hw := WordsOnly.plainWrite_of_lawful (r := who) (s := s) v regAt_tbCtrl rfl (vltChecked_of_no_vlt fun _ _ => rfl)
  exact ⟨_, exec_write_tbCtrl v h, hw.words, hw.memsSame,
    bit_plainWrite_w1s (rst := 0) (l := .any) v regAt_tbCtrl rfl fieldsApart_tbCtrl (by simp [tbCtrlFields, fs]),
    bit_plainWrite_rwl (rst := 0) v regAt_tbCtrl rfl fieldsApart_tbCtrl (by simp [tbCtrlFields, fs])⟩

theorem registerWrite_ttStatus {who : Reader} (v : Word) (h : Open who R.TT_STATUS s) :
    ∃ t, exec (.registerWrite who ⟨BitVec.ofNat 24 R.TT_STATUS, true⟩ v) s = .next t ∧
      RegsBut [R.TT_STATUS] s t ∧ MemsSame s t ∧
      t.bit F.TT_STATUS_LATE = (s.bit F.TT_STATUS_LATE && !v.getLsbD F.TT_STATUS_LATE.lo) ∧
      t.bit F.TT_STATUS_DROP = (s.bit F.TT_STATUS_DROP && !v.getLsbD F.TT_STATUS_DROP.lo) ∧
      t.fld F.TT_STATUS_ARMED_CNT = s.fld F.TT_STATUS_ARMED_CNT := by
  have hw := WordsOnly.plainWrite_of_lawful (r := who) (s := s) v regAt_ttStatus rfl (vltChecked_of_no_vlt fun _ _ => rfl)
  exact ⟨_, exec_write_ttStatus v h, hw.words, hw.memsSame,
    bit_plainWrite_w1c (rst := 0) (l := .any) v regAt_ttStatus rfl fieldsApart_ttStatus (by simp [ttStatusFields, fs]),
    bit_plainWrite_w1c (rst := 0) (l := .any) v regAt_ttStatus rfl fieldsApart_ttStatus (by simp [ttStatusFields, fs]),
    fld_plainWrite (f := fs 31 19 .ro 0) v regAt_ttStatus rfl fieldsApart_ttStatus (by simp [ttStatusFields])⟩

theorem registerWrite_sqStart {who : Reader} (n : SeqId) (v : Word) (h : Open who (R.SQ_START n.val) s) :
    ∃ t, exec (.registerWrite who ⟨BitVec.ofNat 24 (R.SQ_START n.val), true⟩ v) s = .next t ∧
      RegsBut (R.SQ_START n.val :: protKeys) s t ∧ MemsSame s t ∧
      t.fld (F.SQ_START_START n.val) = (if vaultRights who s then v.toNat % 65536 else s.fld (F.SQ_START_START n.val)) ∧
      (vaultRights who s = false → v.toNat % 65536 ≠ s.fld (F.SQ_START_START n.val) → EventUp 124 t) := by
  have hbits : bitsOf v.toNat 15 0 = v.toNat % 65536 := by simp [bitsOf]
  have hc := WordsOnly.vltChecked who (R.SQ_START n.val) v sqStartFields s
  have hw : WordsOnly (R.SQ_START n.val :: protKeys) s (plainWrite who (R.SQ_START n.val) v s) := by
    rw [plainWrite_shared v (regAt_sqStart n) rfl]
    exact (hc.mono (List.subset_cons_self _ _)).trans ((WordsOnly.setWord _ _ _).mono (by simp))
  refine ⟨_, exec_write_sqStart n v h, hw.words, hw.memsSame, ?_, fun hv hne => ?_⟩
  · refine (fld_plainWrite (f := fs 15 0 .vlt 0x100) v (regAt_sqStart n) rfl fieldsApart_sqStart (by simp [sqStartFields])).trans ?_
    simp only [fieldAfter, fs, Legal.ok, Bool.and_true, hbits]
  · have hoff : vltOffends (s.word (R.SQ_START n.val)).toNat v.toNat sqStartFields = true := by
      rw [← hbits, State.fld] at hne
      simpa [vltOffends, sqStartFields, fs] using hne
    have hn := n.isLt
    have hlow : ∀ k ∈ [R.SQ_START n.val], k < 0x1000000 := by
      simp only [List.mem_singleton, forall_eq, R.SQ_START]
      omega
    rw [plainWrite_shared v (regAt_sqStart n) rfl, vltChecked, hv, hoff]
    exact (EventUp.protRecord who 2 _ true s).of_words (WordsOnly.setWord _ _ _).words hlow

/-- Settles O2: each clause is the lemma of its kind of write, all of them by the gate and the access codes. -/
theorem registerWriteRules : Obligations.RegisterWriteRules := by
  intro who off whole v n s
  refine ⟨fun ha hb => ?_, registerWrite_denied v, fun h hw h1 h2 => ?_, registerWrite_tbCtrl v,
    registerWrite_ttStatus v, registerWrite_sqStart n v⟩
  · rw [exec_registerWrite who v s ha, gate_silent hb]
  · subst hw
    exact registerWrite_unsound v h h1 h2

end Sys2Proof.Machine
end

section
/-! SUPPORT. What the parts of an FS tick leave as it was (R30 to R33, assumption 8): a frame for every tick, and one for a tick in
which nothing but the clocks has work to do. -/
namespace Sys2Proof.Machine

variable {s t u : State} {ks : List Nat}

/-- The model's clock, the queue, the timebase and the backup counter's low word stand as they were. -/
structure ClockKeeps (s t : State) : Prop where
  tick : t.tick = s.tick
  pending : t.pending = s.pending
  tb : t.tb = s.tb
  bkSub : t.word R.PWR_BK_SUB = s.word R.PWR_BK_SUB

/-- Beyond that, the release is as it was: one held back, DEV_STATUS, and every event that was pending. -/
structure TickKeeps (s t : State) : Prop extends ClockKeeps s t where
  ready : t.sec.ready = s.sec.ready
  status : t.word R.DEV_STATUS = s.word R.DEV_STATUS
  events : ∀ n, EventUp n s → EventUp n t

theorem ClockKeeps.trans (h : ClockKeeps s t) (k : ClockKeeps t u) : ClockKeeps s u :=
  ⟨k.tick.trans h.tick, k.pending.trans h.pending, k.tb.trans h.tb, k.bkSub.trans h.bkSub⟩

theorem TickKeeps.trans (h : TickKeeps s t) (k : TickKeeps t u) : TickKeeps s u :=
  ⟨h.toClockKeeps.trans k.toClockKeeps, k.ready.trans h.ready, k.status.trans h.status, fun n hn => k.events n (h.events n hn)⟩

/-- What leaves the register file, the clock, the queue and the security block alone. -/
theorem TickKeeps.of_regs (h : t.regs = s.regs := by rfl) (h1 : t.tick = s.tick := by rfl)
    (h2 : t.pending = s.pending := by rfl) (h3 : t.tb = s.tb := by rfl) (h4 : t.sec.ready = s.sec.ready := by rfl) :
    TickKeeps s t := by
  have hw (k : Nat) : t.word k = s.word k := by rw [State.word, State.word, h]
  refine ⟨⟨h1, h2, h3, hw _⟩, h4, hw _, fun n hn => ?_⟩
  simpa only [EventUp, State.maskBit, hw] using hn

theorem TickKeeps.ite {c : Prop} [Decidable c] (ht : TickKeeps s t) (hu : TickKeeps s u) :
    TickKeeps s (if c then t else u) := by split <;> assumption

theorem TickKeeps.refl (s : State) : TickKeeps s s := .of_regs

/-- A word of BAR 0 itself that is neither DEV_STATUS nor PWR_BK_SUB. -/
abbrev sideWord (k : Nat) : Prop := k < 0x1000000 ∧ k ≠ R.DEV_STATUS ∧ k ≠ R.PWR_BK_SUB

theorem WordsOnly.clockKeeps (h : WordsOnly ks s t) (hk : R.PWR_BK_SUB ∉ ks) : ClockKeeps s t :=
  ⟨(congrArg State.tick h.rest :), (congrArg State.pending h.rest :), (congrArg State.tb h.rest :), h.words _ hk⟩

theorem WordsOnly.tickKeeps (h : WordsOnly ks s t) (hs : R.DEV_STATUS ∉ ks) (hb : R.PWR_BK_SUB ∉ ks)
    (he : ∀ n, EventUp n s → EventUp n t) : TickKeeps s t :=
  ⟨h.clockKeeps hb, (congrArg (fun u => u.sec.ready) h.rest :), h.words _ hs, he⟩

theorem WordsOnly.tickKeeps_of_side (h : WordsOnly ks s t) (hk : ∀ k ∈ ks, sideWord k) : TickKeeps s t :=
  h.tickKeeps (fun hm => (hk _ hm).2.1 rfl) (fun hm => (hk _ hm).2.2 rfl)
    (fun _ hn => hn.of_words h.words (fun k hm => (hk k hm).1))

theorem TickKeeps.setFld (f : Fld) (v : Nat) (s : State) (h : sideWord f.off) : TickKeeps s (s.setFld f v) :=
  (WordsOnly.setFld f v s).tickKeeps_of_side (by simpa using h)

theorem TickKeeps.setWord (off : Nat) (w : Word) (s : State) (h : sideWord off) : TickKeeps s (s.setWord off w) :=
  (WordsOnly.setWord off w s).tickKeeps_of_side (by simpa using h)

/-- An event's words are not among the words of BAR 0 itself, but for the Pending Bit Array. -/
theorem not_mem_evKeys {k : Nat} (h : k < 0x1000000) (h0 : k ≠ R.MSIX_PBA 0) (h1 : k ≠ R.MSIX_PBA 1) (n : Nat) : k ∉ evKeys n := by
  intro hm
  rcases List.mem_cons.1 hm with e | hm
  · exact copyOff_ne h _ _ e.symm
  rcases List.mem_cons.1 hm with e | hm
  · exact copyOff_ne h _ _ e.symm
  rcases List.mem_cons.1 hm with e | hm
  · exact h0 e
  · exact h1 (List.mem_singleton.1 hm)

theorem TickKeeps.raise (n : Nat) (s : State) : TickKeeps s (Machine.raise n s) :=
  (WordsOnly.raise n s).tickKeeps (not_mem_evKeys (by decide) (by decide) (by decide) n)
    (not_mem_evKeys (by decide) (by decide) (by decide) n) (fun _ hm => hm.raise n)

theorem TickKeeps.flagEvent (f : Fld) (n : Nat) (s : State) (h : sideWord f.off) : TickKeeps s (Machine.flagEvent f n s) := by
  unfold Machine.flagEvent
  split
  · exact .refl s
  · exact (TickKeeps.setFld f 1 s h).trans (.raise n _)

/-! Clock synthesis, the beacon and the release. -/

theorem TickKeeps.setCkSyn (c : ClockSyn) (s : State) : TickKeeps s (Machine.setCkSyn c s) := .of_regs

theorem TickKeeps.emit (o : Output) (s : State) : TickKeeps s (s.emit o) := .of_regs

theorem TickKeeps.setBcn (b : Beacon) (s : State) : TickKeeps s { s with bcn := b } := .of_regs

theorem TickKeeps.tsynTick (s : State) : TickKeeps s (Machine.tsynTick s) := by
  unfold Machine.tsynTick
  split
  · exact .ite (((TickKeeps.setFld _ _ s (by decide)).trans (.setCkSyn _ _)).trans (.setFld _ _ _ (by decide))) (.refl s)
  · exact .refl s

theorem TickKeeps.foutCheck (s : State) : TickKeeps s (Machine.foutCheck s) := by
  unfold Machine.foutCheck
  split
  · exact .flagEvent _ _ s (by decide)
  · exact .refl s

theorem TickKeeps.foutTick (s : State) : TickKeeps s (Machine.foutTick s) := by
  unfold Machine.foutTick
  extract_lets d c f t
  exact .ite (.refl s) (((TickKeeps.setCkSyn _ s).trans (.foutCheck _)).trans (.emit _ _))

theorem TickKeeps.tuneTick (s : State) : TickKeeps s (Machine.tuneTick s) := by
  unfold Machine.tuneTick
  exact .ite (.setCkSyn _ s) (.refl s)

theorem TickKeeps.clockTick (s : State) : TickKeeps s (Machine.clockTick s) := by
  unfold Machine.clockTick
  split
  · exact .refl s
  · exact ((TickKeeps.tsynTick s).trans (.foutTick _)).trans (.tuneTick _)

/-- A frame's channel is a byte of its descriptor. -/
theorem BcnFrame.chan_lt (f : BcnFrame) : f.chan < 256 := by
  unfold BcnFrame.chan leAt
  rcases f.desc.drop 1 with _ | ⟨b, l⟩
  · decide
  · have := b.isLt
    simpa [leNat] using this

theorem sideWord_bcnChTune {n : Nat} (h : n < 256) : sideWord (R.BCN_CH_TUNE n) := by
  simp only [sideWord, R.BCN_CH_TUNE, R.DEV_STATUS, R.PWR_BK_SUB]
  omega

theorem TickKeeps.bcnMid (s : State) : TickKeeps s (Machine.bcnMid s) := by
  unfold Machine.bcnMid
  split
  · exact .refl s
  · rename_i f₀ _
    split
    · exact .refl s
    · refine .ite (.refl s) ?_
      extract_lets b f b₁ s₁ s₂ s₃
      have h₁ : TickKeeps s s₁ := (TickKeeps.setBcn _ s).trans (.setFld _ _ _ (sideWord_bcnChTune f.chan_lt))
      have h₂ : TickKeeps s s₂ := .ite (h₁.trans ((TickKeeps.setFld F.BCN_STATUS_PWR_LIMIT 1 _ (by decide)).trans (.raise _ _))) h₁
      have h₃ : TickKeeps s s₃ := h₂.trans ((TickKeeps.setFld F.BCN_STATUS_MISMATCH 1 _ (by decide)).trans (.raise _ _))
      exact .ite (.ite (h₃.trans (.setFld _ _ _ (sideWord_bcnChTune f.chan_lt))) h₃) h₂

theorem TickKeeps.dutyRestore (s : State) : TickKeeps s (Machine.dutyRestore s) := by
  unfold Machine.dutyRestore
  refine .ite (.refl s) ?_
  dsimp only
  exact .ite (.setBcn _ s) (.setBcn _ s)

theorem TickKeeps.setDbg (d : Option DbgSession) (s : State) : TickKeeps s { s with dbg := d } := .of_regs

theorem TickKeeps.dbgOpen (d : DbgSession) (s : State) : TickKeeps s (Machine.dbgOpen d s) :=
  (((((TickKeeps.setDbg _ s).trans (.setFld F.SEC_DBG_STAT_LEVEL _ _ (by decide))).trans
    (.setFld F.SEC_DBG_STAT_SESSION _ _ (by decide))).trans (.setWord R.SEC_DBG_EXP_LO _ _ (by decide))).trans
    (.setWord R.SEC_DBG_EXP_HI _ _ (by decide))).trans (.raise 127 _)

/-- A release before its READY: the duty bins and the session of a BLANK part (R363, R524). -/
def releasedQuietly (s : State) : State :=
  let s := dutyRestore { s with sec := { s.sec with boot := 0, ready := none } }
  if lcState s = 0 then dbgOpen ⟨2, 0, 0⟩ s else s

theorem released_eq (ms : Nat) (s : State) :
    released ms s = raise 26 (((releasedQuietly s).setFld F.DEV_STATUS_READY 1).setFld F.DEV_STATUS_BOOT_MS (satNat 0xFFFF ms)) :=
  rfl

theorem TickKeeps.releasedQuietly (s : State) :
    TickKeeps { s with sec := { s.sec with boot := 0, ready := none } } (Machine.releasedQuietly s) := by
  unfold Machine.releasedQuietly
  exact .ite ((TickKeeps.dutyRestore _).trans (.dbgOpen _ _)) (.dutyRestore _)

/-- READY and its event are what a release adds (R498). -/
theorem WordsOnly.released (ms : Nat) (s : State) :
    WordsOnly (R.DEV_STATUS :: evKeys 26) (Machine.releasedQuietly s) (Machine.released ms s) := by
  rw [released_eq]
  exact (((WordsOnly.setFld F.DEV_STATUS_READY 1 _).mono (by simp)).trans
    ((WordsOnly.setFld F.DEV_STATUS_BOOT_MS _ _).mono (by simp))).trans ((WordsOnly.raise 26 _).mono (List.subset_cons_self _ _))

theorem ClockKeeps.released (ms : Nat) (s : State) : ClockKeeps s (Machine.released ms s) :=
  have h₀ : ClockKeeps s { s with sec := { s.sec with boot := 0, ready := none } } := ⟨rfl, rfl, rfl, rfl⟩
  (h₀.trans (TickKeeps.releasedQuietly s).toClockKeeps).trans ((WordsOnly.released ms s).clockKeeps (by decide))

/-- After a release none is held back, READY is 1 and EV_026 is pending (R45, R498). -/
theorem released_done (ms : Nat) (s : State) :
    (released ms s).sec.ready = none ∧ (released ms s).bit F.DEV_STATUS_READY = true ∧ EventUp 26 (released ms s) := by
  refine ⟨?_, ?_, ?_⟩
  · exact (congrArg (fun u => u.sec.ready) (WordsOnly.released ms s).rest :).trans (TickKeeps.releasedQuietly s).ready
  · rw [released_eq, (WordsOnly.raise 26 _).words.bit (by decide), State.bit,
      State.fld_setFld_ne _ _ _ _ (by decide) (by decide) (by decide)]
    exact State.bit_setBit _ F.DEV_STATUS_READY true rfl (by decide)
  · rw [released_eq]
    exact .raise_self 26 _

theorem ClockKeeps.readyTick (s : State) : ClockKeeps s (Machine.readyTick s) := by
  unfold Machine.readyTick
  split
  · exact .released _ s
  · exact (TickKeeps.refl s).toClockKeeps

end Sys2Proof.Machine
end

section
/-! SUPPORT. The sample path and the Carousel's intake in an FS tick: what they leave as it was. -/
namespace Sys2Proof.Machine

variable {s t u : State}

/-! Samples: the conditioning paths, the ADC's codes, free values and the Sieve's plan are all they change. -/

/-- Nothing differs but the conditioning paths, the ADC's codes, the count of free values and the Sieve. -/
def SamplesOnly (s t : State) : Prop := t = { s with adc := t.adc, ifc := t.ifc, free := t.free, sieve := t.sieve }

theorem SamplesOnly.refl (s : State) : SamplesOnly s s := rfl

theorem SamplesOnly.trans (h : SamplesOnly s t) (k : SamplesOnly t u) : SamplesOnly s u := by
  unfold SamplesOnly at *
  exact k.trans (by rw [h])

theorem SamplesOnly.setIfcCh (x : Nat) (c : IfcChain) (s : State) : SamplesOnly s (Machine.setIfcCh s x c) := rfl

theorem SamplesOnly.draw (s : State) : SamplesOnly s s.draw.2 := rfl

theorem SamplesOnly.setPlan (i : Nat) (e : PlanEntry) (s : State) : SamplesOnly s (Machine.setPlan s i e) := rfl

theorem SamplesOnly.ite {c : Prop} [Decidable c] (ht : SamplesOnly s t) (hu : SamplesOnly s u) :
    SamplesOnly s (if c then t else u) := by split <;> assumption

/-- A fold of steps that each keep to the samples does. -/
theorem SamplesOnly.foldl {α : Type} {f : State → α → State} (hf : ∀ s a, SamplesOnly s (f s a)) (l : List α) (s : State) :
    SamplesOnly s (l.foldl f s) := by
  induction l generalizing s with
  | nil => exact .refl s
  | cons a l ih => exact (hf s a).trans (ih _)

theorem SamplesOnly.tickKeeps (h : SamplesOnly s t) : TickKeeps s t :=
  .of_regs (congrArg State.regs h :) (congrArg State.tick h :) (congrArg State.pending h :) (congrArg State.tb h :)
    (congrArg (fun u => u.sec.ready) h :)

theorem SamplesOnly.adcTake (x : Nat) (s : State) : SamplesOnly s (Machine.adcTake x s).2 := by
  unfold Machine.adcTake
  split
  · split
    · rfl
    · exact .draw s
  · exact .refl s

theorem SamplesOnly.notchBank (x : Nat) (s : State) (v : Rat × Rat) : SamplesOnly s (Machine.notchBank x s v).2 := by
  unfold Machine.notchBank
  generalize (List.range 8).filter _ = l
  induction l generalizing s v with
  | nil => exact .refl s
  | cons n l ih => exact (SamplesOnly.setIfcCh x _ s).trans (ih _ _)

theorem SamplesOnly.conditioned (x : Nat) (e : AdcWord × Bool) (s : State) : SamplesOnly s (Machine.conditioned x e s).2 := by
  unfold Machine.conditioned
  extract_lets v valid o d1 d2
  split
  · exact ((SamplesOnly.notchBank x s _).trans (.draw _)).trans (.draw _)
  · exact .refl s

theorem SamplesOnly.spectraStep (x : Nat) (a : AdcWord) (w : BitVec 17) (s : State) :
    SamplesOnly s (Machine.spectraStep x a w s) := .setIfcCh _ _ s

theorem SamplesOnly.windowEnds (x : Nat) (s : State) : SamplesOnly s (Machine.windowEnds x s) := .setIfcCh _ _ s

/-- A sample's way after the burst window has seen it. -/
theorem SamplesOnly.pathStep (x : Nat) (s : State) :
    SamplesOnly (windowTick x (Machine.adcTake x s).1.isSome (Machine.adcTake x s).2) (Machine.pathStep x s) := by
  unfold Machine.pathStep
  extract_lets a s₁ c l e s₂ o s₃ c₂ p
  exact (((SamplesOnly.setIfcCh x _ s₁).trans (.conditioned x e s₂)).trans (.setIfcCh x _ s₃)).trans (.spectraStep _ _ _ _)

theorem SamplesOnly.captureTick (i : Nat) (s : State) : SamplesOnly s (Machine.captureTick i s) := by
  unfold Machine.captureTick
  exact .ite (.setPlan _ _ s) (.refl s)

theorem SamplesOnly.capturesTick (s : State) : SamplesOnly s (Machine.capturesTick s) :=
  .foldl (fun s i => .captureTick i s) _ s

theorem TickKeeps.setChain (x : Nat) (c : Chain) (s : State) : TickKeeps s (Machine.setChain s x c) := .of_regs

theorem sideWord_grfChStatus {x : Nat} (h : x < 4) : sideWord (R.GRF_CH_STATUS x) := by
  simp only [sideWord, R.GRF_CH_STATUS, R.DEV_STATUS, R.PWR_BK_SUB]
  omega

theorem TickKeeps.windowTick {x : Nat} (hx : x < 4) (valid : Bool) (s : State) : TickKeeps s (Machine.windowTick x valid s) := by
  unfold Machine.windowTick
  extract_lets c
  split
  · exact .refl s
  · exact .ite (.setChain _ _ s) (.ite ((TickKeeps.setChain _ _ s).trans (.setFld _ _ _ (sideWord_grfChStatus hx))) (.refl s))

theorem TickKeeps.chainTick {x : Nat} (hx : x < 4) (s : State) : TickKeeps s (Machine.chainTick x s) := by
  have hp : TickKeeps s (Machine.pathStep x s) :=
    ((SamplesOnly.adcTake x s).tickKeeps.trans (.windowTick hx _ _)).trans (SamplesOnly.pathStep x s).tickKeeps
  exact (TickKeeps.ite (.refl s) hp).trans (SamplesOnly.windowEnds x _).tickKeeps

theorem TickKeeps.setTrkCh (k : Nat) (c : TrkCh) (s : State) : TickKeeps s (Machine.setTrkCh s k c) := .of_regs

theorem TickKeeps.correlate (k : Nat) (nco : TrkCh) (s : State) : TickKeeps s (Machine.correlate k nco s) := by
  unfold Machine.correlate
  exact .ite (.refl s) (.setTrkCh _ _ s)

theorem TickKeeps.ncoTick (k : Nat) (s : State) : TickKeeps s (Machine.ncoTick k s) := by
  unfold Machine.ncoTick
  extract_lets old c
  split <;> exact .setTrkCh _ _ s

theorem TickKeeps.channelTick (k : Nat) (s : State) : TickKeeps s (Machine.channelTick k s) := by
  unfold Machine.channelTick
  extract_lets c b s₁ nco s₂
  have h₂ : TickKeeps s s₂ := (TickKeeps.ncoTick k s).trans (.correlate k nco s₁)
  refine .ite (.refl s) (.ite (TickKeeps.trans ?_ (.correlate _ _ _)) h₂)
  clear_value b
  cases b with
  | some b => exact h₂.trans (.setTrkCh _ _ s₂)
  | none => exact .ite (h₂.trans (.setTrkCh _ _ s₂)) h₂

theorem TickKeeps.foldl {α : Type} {f : State → α → State} (hf : ∀ s a, TickKeeps s (f s a)) (l : List α) (s : State) :
    TickKeeps s (l.foldl f s) := by
  induction l generalizing s with
  | nil => exact .refl s
  | cons a l ih => exact (hf s a).trans (ih _)

theorem TickKeeps.samplesTick (s : State) : TickKeeps s (Machine.samplesTick s) := by
  unfold Machine.samplesTick
  refine .ite (.refl s) ?_
  have hc := ((TickKeeps.chainTick (x := 0) (by decide) s).trans (.chainTick (x := 1) (by decide) _)).trans
    ((TickKeeps.chainTick (x := 2) (by decide) _).trans (.chainTick (x := 3) (by decide) _))
  exact (hc.trans (.foldl (fun s k => .channelTick k s) _ _)).trans (SamplesOnly.capturesTick _).tickKeeps

/-! The Carousel's intake (R204). -/

theorem TickKeeps.setLink (p : Nat) (l : Link) (s : State) : TickKeeps s (Machine.setLink s p l) := .of_regs

theorem TickKeeps.setCar (c : Carousel) (s : State) : TickKeeps s { s with car := c } := .of_regs

theorem TickKeeps.setJob (k : Nat) (j : Option Job) (s : State) : TickKeeps s (Machine.setJob s k j) := .of_regs

theorem TickKeeps.liveNext (s : State) : TickKeeps s (Machine.liveNext s) := by
  unfold Machine.liveNext
  split
  · exact .ite (.refl s) .of_regs
  · exact .refl s

theorem TickKeeps.jobEnd (k status detail : Nat) (s : State) : TickKeeps s (Machine.jobEnd k status detail s) := by
  unfold Machine.jobEnd
  split
  · exact .refl s
  · refine .ite (.refl s) ?_
    extract_lets s₁ s₂ s₃
    have h₁ : TickKeeps s s₁ := .ite (.flagEvent F.CAR_ERR_FORMAT _ s (by decide)) (.refl s)
    have h₂ : TickKeeps s s₂ := .ite (h₁.trans (.flagEvent F.CAR_ERR_VERSION _ _ (by decide))) h₁
    have h₃ : TickKeeps s s₃ := .ite (h₂.trans (.flagEvent F.CAR_ERR_DEADLINE _ _ (by decide))) h₂
    exact ((h₃.trans (.setCar _ s₃)).trans (.setJob _ _ _)).trans (.liveNext _)

theorem TickKeeps.carDone (s : State) : TickKeeps s (Machine.carDone s) := by
  unfold Machine.carDone
  exact ((TickKeeps.setCar _ s).trans (.setWord R.CAR_DONE_LO _ _ (by decide))).trans (.setWord R.CAR_DONE_HI _ _ (by decide))

theorem TickKeeps.linkSendRel (p kind : Nat) (body : List Byte) (s : State) :
    TickKeeps s (Machine.linkSendRel p kind body s) := by
  unfold Machine.linkSendRel
  refine .ite ?_ (.setLink _ _ s)
  unfold Machine.linkPush frameOut
  exact (TickKeeps.setLink _ _ s).trans (.emit _ _)

theorem TickKeeps.recordSend {src : Nat} (h : 32 ≤ src) (d r : List Byte) (s : State) :
    TickKeeps s (Machine.recordSend src d r s) := by
  unfold Machine.recordSend
  rw [if_neg (Nat.not_lt.2 h)]
  exact ((TickKeeps.linkSendRel _ _ _ s).trans (.setLink _ _ _)).trans (.carDone _)

/-- A descriptor that a link port's frame brought, with its snapshot. -/
theorem TickKeeps.takeDescriptor {src : Nat} (h : 32 ≤ src) (linkOne : Bool) (d b : List Byte) (s : State) :
    TickKeeps s (Machine.takeDescriptor src linkOne d (some b) s) := by
  unfold Machine.takeDescriptor
  refine .ite (.recordSend h _ _ s) ?_
  split
  · exact .refl s
  · extract_lets j c s₁ s₂
    have h₂ : TickKeeps s s₂ := (TickKeeps.setCar _ s).trans (.setJob _ _ _)
    split
    · exact h₂.trans (.jobEnd _ _ _ s₂)
    · exact h₂.trans (.setJob _ _ s₂)

theorem TickKeeps.jobTake (p : Nat) (body : List Byte) (s : State) : TickKeeps s (Machine.jobTake p body s) := by
  unfold Machine.jobTake
  extract_lets d l s₁ k s₂
  have h₂ : TickKeeps s s₂ := (TickKeeps.setLink _ _ s).trans (.takeDescriptor (Nat.le_add_right 32 p) _ _ _ s₁)
  clear_value k
  cases k with
  | none => exact h₂
  | some k =>
    dsimp only
    split
    · exact .ite (h₂.trans (.jobEnd _ _ _ s₂)) h₂
    · exact h₂

theorem TickKeeps.descRead (j : Nat) (s : State) : TickKeeps s (Machine.descRead j s) := .of_regs

theorem TickKeeps.jobsTake (s : State) : TickKeeps s (Machine.jobsTake s) := by
  unfold Machine.jobsTake
  split
  · refine .ite ?_ (.ite (.descRead _ s) (.refl s))
    unfold jobWaitingTake
    split
    · exact .refl s
    · exact .ite ((TickKeeps.setLink _ _ s).trans (.jobTake _ _ _)) (.refl s)
  · exact .refl s

theorem TickKeeps.ttMarkDue (s : State) : TickKeeps s (Machine.ttMarkDue s) := .of_regs

theorem TickKeeps.waitsTick (s : State) : TickKeeps s (Machine.waitsTick s) := .of_regs

end Sys2Proof.Machine
end

section
/-! SUPPORT. The clocks' part of a tick (R30 to R33, R548), and the tick in which nothing else has work to do. -/
namespace Sys2Proof.Machine

variable {s t u : State}

/-! Before the timebase: the tick count, the crystal, the backup counter and TSYN's own count. -/

/-- The state a tick gives the timebase. -/
def tickCounted (s : State) : State :=
  holdTick (if xtalEdge s then bkCycle (xtalTick { s with tick := s.tick + 1 }) else xtalTick { s with tick := s.tick + 1 })

/-- Words of the backup counter (R548). -/
def bkKeys : List Nat := [R.PWR_BK_SUB, R.PWR_BK_SEC_LO, R.PWR_BK_SEC_HI]

theorem WordsOnly.bkCycle (s : State) : WordsOnly bkKeys s (Machine.bkCycle s) := by
  have bk (f : Fld) (hf : f.off ∈ bkKeys) (v : Nat) (s : State) : WordsOnly bkKeys s (s.setFld f v) :=
    (WordsOnly.setFld f v s).mono (by simpa using hf)
  unfold Machine.bkCycle bkSet
  dsimp only
  split
  · exact ((bk F.PWR_BK_SEC_HI_SEC_HI (by decide) _ s).trans (bk F.PWR_BK_SEC_LO_SEC_LO (by decide) _ _)).trans
      (bk F.PWR_BK_SUB_SUB (by decide) _ _)
  · exact bk F.PWR_BK_SUB_SUB (by decide) _ s

/-- A state one tick on, with other words, output, ticks of events, crystal's fraction and TSYN's own count. -/
def State.counted (s : State) (r : Sparse Word) (o : List Output) (e : Sparse Nat) (x : Nat) (h : Nat) : State :=
  { s with regs := r, out := o, evAt := e, tick := s.tick + 1, tb := { s.tb with xtal := x }, ck := { s.ck with holdU := h } }

/-- The clocks' part of a tick: of the register file, only words of the backup counter change. -/
structure Counted (s t : State) : Prop where
  rest : ∃ r o e x h, t = s.counted r o e x h
  words : RegsBut bkKeys s t

theorem Counted.xtalTick (s : State) : Counted s (Machine.xtalTick { s with tick := s.tick + 1 }) := by
  unfold Machine.xtalTick
  split <;> exact ⟨⟨_, _, _, _, _, rfl⟩, fun _ _ => rfl⟩

theorem Counted.wordsOnly (h : Counted s t) (k : WordsOnly bkKeys t u) : Counted s u := by
  obtain ⟨⟨r, o, e, x, c, rfl⟩, hw⟩ := h
  exact ⟨⟨_, _, _, x, c, k.rest⟩, fun j hj => (k.words j hj).trans (hw j hj)⟩

theorem Counted.holdTick (h : Counted s t) : Counted s (Machine.holdTick t) := by
  obtain ⟨⟨r, o, e, x, c, rfl⟩, hw⟩ := h
  unfold Machine.holdTick
  split <;> exact ⟨⟨_, _, _, _, _, rfl⟩, hw⟩

theorem Counted.tickCounted (s : State) : Counted s (Machine.tickCounted s) := by
  unfold Machine.tickCounted
  apply Counted.holdTick
  split
  · exact (Counted.xtalTick s).wordsOnly (.bkCycle _)
  · exact .xtalTick s

/-- While the crystal stands still the backup counter does (R548). -/
theorem word_tickCounted_of_xtalOff (h : s.pwr.xtalOff = true) (k : Nat) : (tickCounted s).word k = s.word k := by
  have he : xtalEdge s = false := by simp [xtalEdge, h]
  have hh (t : State) : (holdTick t).word k = t.word k := by unfold holdTick; split <;> rfl
  rw [tickCounted, he, if_neg Bool.false_ne_true, hh, xtalTick]
  split <;> rfl

/-! The timebase. -/

theorem nowU_setNowU (s : State) (u : Nat) : (s.setNowU u).nowU = u % wrapUnits := by
  rw [wrapUnits, Nat.mul_comm, Nat.mod_mul]
  exact (Nat.add_comm _ _).trans (by rw [Nat.mul_comm]; rfl)

/-- The timebase's part: it moves by TB_RATE on CK_MAIN and stands still in HIBERNATE (R30, R31). -/
theorem nowU_baseTick (edge : Bool) (s : State) :
    (s.pwr.hib = false → s.coarse = false → (baseTick edge s).nowU = (s.nowU + s.tickStep) % wrapUnits) ∧
    (s.pwr.hib = true → (baseTick edge s).nowU = s.nowU) := by
  constructor
  · intro hh hc
    simp [baseTick, hh, hc, nowU_setNowU]
  · intro hh
    simp [baseTick, hh]

/-- Nothing but the timebase's count differs. -/
theorem baseTick_rest (edge : Bool) (s : State) : ∃ b, baseTick edge s = { s with tb := b } := by
  unfold baseTick
  repeat' split
  all_goals exact ⟨_, rfl⟩

/-! A tick in which no release, no re-injection of TSYN, no frame, no chain, no channel and no JOB frame waits. -/

/-- Nothing waits that a tick would act on in registers or memories. -/
structure Quiet (s : State) : Prop where
  ready : s.sec.ready = none
  tsyn : s.ck.tsynAt = none
  follow : s.bit F.TP_FOUT_CFG_FOLLOW = false
  tx : s.bcn.tx = none
  chains : s.chains = []
  trk : s.trk = []
  waiting : ∀ p < 2, (link s p).waiting = []

/-- The register file, the memories and what `Quiet` speaks of stand as they were. -/
structure CoreSame (s t : State) : Prop where
  regs : t.regs = s.regs := by rfl
  mems : MemsSame s t := by exact ⟨rfl, rfl, rfl, rfl⟩
  sec : t.sec = s.sec := by rfl
  tsyn : t.ck.tsynAt = s.ck.tsynAt := by rfl
  bcn : t.bcn = s.bcn := by rfl
  chains : t.chains = s.chains := by rfl
  trk : t.trk = s.trk := by rfl
  links : t.links = s.links := by rfl

theorem CoreSame.refl (s : State) : CoreSame s s := {}

theorem CoreSame.trans (h : CoreSame s t) (k : CoreSame t u) : CoreSame s u := by
  obtain ⟨hm, hr, hh, hf⟩ := h.mems
  obtain ⟨km, kr, kh, kf⟩ := k.mems
  exact ⟨k.regs.trans h.regs, ⟨km.trans hm, kr.trans hr, kh.trans hh, kf.trans hf⟩, k.sec.trans h.sec, k.tsyn.trans h.tsyn,
    k.bcn.trans h.bcn, k.chains.trans h.chains, k.trk.trans h.trk, k.links.trans h.links⟩

theorem Quiet.of_same (h : Quiet s) (k : CoreSame s t) : Quiet t where
  ready := by rw [k.sec, h.ready]
  tsyn := k.tsyn.trans h.tsyn
  follow := by rw [State.bit, State.fld, State.word, k.regs]; exact h.follow
  tx := by rw [k.bcn, h.tx]
  chains := k.chains.trans h.chains
  trk := k.trk.trans h.trk
  waiting := fun p hp => by rw [link, k.links]; exact h.waiting p hp

/-- What happens from one state to the next keeps the core when the first is quiet. -/
def QuietStep (s t : State) : Prop := Quiet s → CoreSame s t

theorem CoreSame.quietStep (h : CoreSame s t) : QuietStep s t := fun _ => h

theorem QuietStep.trans (h : QuietStep s t) (k : QuietStep t u) : QuietStep s u :=
  fun q => (h q).trans (k (q.of_same (h q)))

theorem QuietStep.of_eq (h : Quiet s → t = s) : QuietStep s t := fun q => h q ▸ .refl s

theorem CoreSame.baseTick (edge : Bool) (s : State) : CoreSame s (Machine.baseTick edge s) := by
  obtain ⟨b, h⟩ := baseTick_rest edge s
  rw [h]
  exact {}

theorem CoreSame.setCkSyn {c : ClockSyn} {s : State} (h : c.tsynAt = s.ck.tsynAt) : CoreSame s (Machine.setCkSyn c s) where
  tsyn := h

theorem CoreSame.emit (o : Output) (s : State) : CoreSame s (s.emit o) := {}

/-- Without FOLLOW nothing is limited (R306). -/
theorem foutCheck_of_not_follow (h : s.bit F.TP_FOUT_CFG_FOLLOW = false) : foutCheck s = s := by
  have hw : foutWant s = 0 := by simp [foutWant, h]
  have hc : clampRat 1 0 = 0 := by decide
  simp [foutCheck, hw, hc]

theorem QuietStep.foutTick (s : State) : QuietStep s (Machine.foutTick s) := by
  intro q
  unfold Machine.foutTick
  extract_lets d c f t
  split
  · exact .refl s
  · have hk : CoreSame s (Machine.setCkSyn { s.ck with fout := ⟨d, c, t⟩ } s) := .setCkSyn rfl
    rw [foutCheck_of_not_follow (q.of_same hk).follow]
    exact hk.trans (.emit _ _)

theorem CoreSame.tuneTick (s : State) : CoreSame s (Machine.tuneTick s) := by
  unfold Machine.tuneTick
  split
  · exact .setCkSyn rfl
  · exact .refl s

theorem QuietStep.clockTick (s : State) : QuietStep s (Machine.clockTick s) := by
  unfold Machine.clockTick
  split
  · exact (CoreSame.refl s).quietStep
  · have ht : QuietStep s (tsynTick s) := .of_eq fun q => by rw [tsynTick, q.tsyn]
    exact (ht.trans (.foutTick _)).trans (CoreSame.tuneTick _).quietStep

theorem QuietStep.bcnMid (s : State) : QuietStep s (Machine.bcnMid s) := .of_eq fun q => by rw [Machine.bcnMid, q.tx]

theorem QuietStep.readyTick (s : State) : QuietStep s (Machine.readyTick s) := .of_eq fun q => by rw [Machine.readyTick, q.ready]

theorem SamplesOnly.coreSame (h : SamplesOnly s t) : CoreSame s t := by
  rw [SamplesOnly] at h
  rw [h]
  exact {}

/-- With no chain's state listed none waits for a window's first sample. -/
theorem windowTick_of_no_chains (h : s.chains = []) (x : Nat) (valid : Bool) : windowTick x valid s = s := by
  simp [windowTick, chain, h, Sparse.get]

theorem QuietStep.chainTick (x : Nat) (s : State) : QuietStep s (Machine.chainTick x s) := by
  intro q
  have ha := SamplesOnly.adcTake x s
  have hp := SamplesOnly.pathStep x s
  rw [windowTick_of_no_chains (ha.coreSame.chains.trans q.chains)] at hp
  exact ((SamplesOnly.ite (.refl s) (ha.trans hp)).trans (.windowEnds x _)).coreSame

theorem QuietStep.samplesTick (s : State) : QuietStep s (Machine.samplesTick s) := by
  unfold Machine.samplesTick
  split
  · exact (CoreSame.refl s).quietStep
  · have hc := ((QuietStep.chainTick 0 s).trans (.chainTick 1 _)).trans ((QuietStep.chainTick 2 _).trans (.chainTick 3 _))
    have ht (s : State) : QuietStep s (channelsTick s) := .of_eq fun q => by rw [channelsTick, q.trk]; rfl
    exact (hc.trans (ht _)).trans (SamplesOnly.capturesTick _).coreSame.quietStep

/-- A fold that at each element takes the element or keeps what it has ends with one of them. -/
theorem mem_of_foldl_pick {α : Type} {f : Option α → α → Option α} (hf : ∀ b a, f b a = some a ∨ f b a = b) {l : List α}
    {b : Option α} {j : α} (h : l.foldl f b = some j) : j ∈ l ∨ b = some j := by
  induction l generalizing b with
  | nil => exact .inr h
  | cons a l ih =>
    rcases ih h with hm | hb
    · exact .inl (List.mem_cons_of_mem _ hm)
    · rcases hf b a with e | e <;> rw [e] at hb
      · exact .inl (by simp [Option.some.inj hb])
      · exact .inr hb

/-- The source picked is one of those offered. -/
theorem mem_of_srcPick {l : List Nat} {j : Nat} (h : srcPick l s = some j) : j ∈ l := by
  refine (mem_of_foldl_pick (fun b a => ?_) h).resolve_right (by simp)
  cases b with
  | none => exact .inl rfl
  | some k => cases hb : srcBefore a k s <;> simp [hb]

/-- A port is offered as a source while a JOB frame waits in it. -/
theorem waiting_of_takeSources {j : Nat} (h : j ∈ takeSources s) (hj : 32 ≤ j) : ∃ p < 2, (link s p).waiting ≠ [] := by
  rw [takeSources, List.mem_append] at h
  rcases h with h | h
  · have := List.mem_range.1 (List.mem_filter.1 h).1
    omega
  · obtain ⟨p, hp, he⟩ := List.mem_filterMap.1 h
    refine ⟨p, List.mem_range.1 hp, fun hw => ?_⟩
    simp [hw] at he

theorem QuietStep.jobsTake (s : State) : QuietStep s (Machine.jobsTake s) := by
  intro q
  unfold Machine.jobsTake
  split
  · rename_i j hj
    split
    · rename_i h32
      obtain ⟨p, hp, hw⟩ := waiting_of_takeSources (mem_of_srcPick hj) h32
      exact absurd (q.waiting p hp) hw
    · split
      · exact {}
      · exact .refl s
  · exact .refl s

end Sys2Proof.Machine
end

section
/-! PROOFS. O34: the reset state, and the tick that passes when no command waits (R1, R6, R30 to R33, R45, R517, R531). -/
namespace Sys2Proof.Machine

variable {s : State}

/-- The tick up to the release: the clocks, the timebase, clock synthesis and the beacon. -/
def tickFront (s : State) : State := bcnMid (clockTick (baseTick (xtalEdge s) (tickCounted s)))

/-- The tick after the release: the timetable, the samples, the Carousel's intake and the waiting sequencers. -/
def tickRest (s : State) : State := waitsTick (jobsTake (samplesTick (ttMarkDue s)))

theorem idleTick_eq (s : State) : idleTick s = tickRest (readyTick (tickFront s)) := rfl

theorem step_of_no_command (h : s.pending = []) : step s = .next (idleTick s) := by rw [step, h]

theorem TickKeeps.tickRest (s : State) : TickKeeps s (Machine.tickRest s) :=
  (((TickKeeps.ttMarkDue s).trans (.samplesTick _)).trans (.jobsTake _)).trans (.waitsTick _)

theorem TickKeeps.tickFront (s : State) : TickKeeps (baseTick (xtalEdge s) (tickCounted s)) (Machine.tickFront s) :=
  (TickKeeps.clockTick _).trans (.bcnMid _)

/-- After the timebase has moved, neither it nor the queue changes in the tick. -/
theorem ClockKeeps.idleTick (s : State) : ClockKeeps (baseTick (xtalEdge s) (tickCounted s)) (Machine.idleTick s) :=
  ((TickKeeps.tickFront s).toClockKeeps.trans (.readyTick _)).trans (TickKeeps.tickRest _).toClockKeeps

/-- What the timebase's part reads of the state before it. -/
theorem tickCounted_reads (s : State) :
    (tickCounted s).nowU = s.nowU ∧ (tickCounted s).tickStep = s.tickStep ∧ (tickCounted s).coarse = s.coarse ∧
      (tickCounted s).pwr = s.pwr ∧ (tickCounted s).tick = s.tick + 1 ∧ (tickCounted s).pending = s.pending ∧
      (tickCounted s).sec = s.sec := by
  obtain ⟨⟨r, o, e, x, c, h⟩, hw⟩ := Counted.tickCounted s
  have hs : (tickCounted s).tickStep = s.tickStep := by rw [State.tickStep, State.tickStep, hw _ (by decide)]
  have hc : (tickCounted s).coarse = s.coarse := hw.bit (by decide)
  refine ⟨?_, hs, hc, ?_, ?_, ?_, ?_⟩ <;> rw [h] <;> rfl

theorem idleTick_nowU (s : State) :
    (s.pwr.hib = false → s.coarse = false → (idleTick s).nowU = (s.nowU + s.tickStep) % wrapUnits) ∧
    (s.pwr.hib = true → (idleTick s).nowU = s.nowU) := by
  obtain ⟨hn, hs, hc, hp, -⟩ := tickCounted_reads s
  have hb := nowU_baseTick (xtalEdge s) (tickCounted s)
  have ht : (idleTick s).nowU = (baseTick (xtalEdge s) (tickCounted s)).nowU := by
    rw [State.nowU, State.nowU, (ClockKeeps.idleTick s).tb]
  rwa [← ht, hn, hs, hc, hp] at hb

/-- A tick counts one, and leaves the queue empty that was. -/
theorem idleTick_counts (s : State) : (idleTick s).tick = s.tick + 1 ∧ (idleTick s).pending = s.pending := by
  obtain ⟨-, -, -, -, ht, hq, -⟩ := tickCounted_reads s
  obtain ⟨b, hb⟩ := baseTick_rest (xtalEdge s) (tickCounted s)
  have hk := ClockKeeps.idleTick s
  rw [hb] at hk
  exact ⟨hk.tick.trans ht, hk.pending.trans hq⟩

/-- The backup counter stands still while its crystal does (R548). -/
theorem idleTick_bkSub (h : s.pwr.xtalOff = true) : (idleTick s).word R.PWR_BK_SUB = s.word R.PWR_BK_SUB := by
  obtain ⟨b, hb⟩ := baseTick_rest (xtalEdge s) (tickCounted s)
  have hk := (ClockKeeps.idleTick s).bkSub
  rw [hb] at hk
  exact hk.trans (word_tickCounted_of_xtalOff h _)

/-- A release that was held back ends in the tick (R45). -/
theorem idleTick_release {ms : Nat} (h : s.sec.ready = some ms) :
    (idleTick s).sec.ready = none ∧ (idleTick s).bit F.DEV_STATUS_READY = true ∧ EventUp 26 (idleTick s) := by
  obtain ⟨-, -, -, -, -, -, hsec⟩ := tickCounted_reads s
  obtain ⟨b, hb⟩ := baseTick_rest (xtalEdge s) (tickCounted s)
  have hr : (tickFront s).sec.ready = some ms := by
    rw [(TickKeeps.tickFront s).ready, hb, ← h, ← hsec]
  have hk := TickKeeps.tickRest (released ms (tickFront s))
  obtain ⟨h1, h2, h3⟩ := released_done ms (tickFront s)
  rw [idleTick_eq, readyTick, hr]
  refine ⟨hk.ready.trans h1, ?_, hk.events 26 h3⟩
  rwa [State.bit, State.fld, hk.status]

theorem CoreSame.idleTick (s : State) (q : Quiet (tickCounted s)) : CoreSame (tickCounted s) (Machine.idleTick s) := by
  have hf : QuietStep (tickCounted s) (tickFront s) :=
    ((CoreSame.baseTick _ _).quietStep.trans (.clockTick _)).trans (.bcnMid _)
  have hr (u : State) : QuietStep u (Machine.tickRest u) := by
    have hm : CoreSame u (ttMarkDue u) := {}
    have hw (u : State) : CoreSame u (waitsTick u) := {}
    exact ((hm.quietStep.trans (.samplesTick _)).trans (.jobsTake _)).trans (hw _).quietStep
  exact ((hf.trans (.readyTick _)).trans (hr _)) q

/-- A quiet tick changes no memory and, of the registers, the backup counter's words alone. -/
theorem idleTick_quiet (q : Quiet s) : MemsSame s (idleTick s) ∧ RegsBut bkKeys s (idleTick s) := by
  obtain ⟨⟨r, o, e, x, c, h⟩, hw⟩ := Counted.tickCounted s
  have hm : MemsSame s (tickCounted s) := by rw [h]; exact ⟨rfl, rfl, rfl, rfl⟩
  have hq : Quiet (tickCounted s) := by
    refine ⟨?_, ?_, (hw.bit (by decide)).trans q.follow, ?_, ?_, ?_, ?_⟩ <;> rw [h]
    exacts [q.ready, q.tsyn, q.tx, q.chains, q.trk, q.waiting]
  have hk := CoreSame.idleTick s hq
  obtain ⟨a, b, c', d⟩ := hm
  obtain ⟨a', b', c'', d'⟩ := hk.mems
  refine ⟨⟨a'.trans a, b'.trans b, c''.trans c', d'.trans d⟩, fun k hk' => ?_⟩
  rw [State.word, hk.regs]
  exact hw k hk'

/-- The reset state is in canonical form. -/
theorem canon_reset : Canon State.reset where
  regs := by decide
  mem := Sparse.wf_nil
  ram := Sparse.wf_nil
  hostMem := Sparse.wf_nil
  flash := Sparse.wf_nil

/-- Settles O34: the reset state by evaluation of its five listed words; the tick by what each of its parts leaves as it was. -/
theorem resetAndIdle : Obligations.ResetAndIdle := by
  refine ⟨⟨canon_reset, rfl, by decide, by decide, by decide, by decide, by decide, by decide, rfl, by decide, by decide, by decide,
    by decide, fun _ _ => rfl, fun _ => ⟨rfl, rfl⟩⟩, fun s hs => ?_⟩
  obtain ⟨ht, hq⟩ := idleTick_counts s
  obtain ⟨hrun, hhib⟩ := idleTick_nowU s
  refine ⟨idleTick s, step_of_no_command hs, ht, hq.trans hs, fun h1 h2 h3 h4 h5 h6 h7 h8 => ?_,
    fun _ => idleTick_release, hrun, hhib, idleTick_bkSub⟩
  exact idleTick_quiet ⟨h1, h2, h3, h4, h5, h6, fun p hp => by interval_cases p <;> assumption⟩

end Sys2Proof.Machine
end

section
/-! PROOFS. O33: what a function-level reset makes of a register file that is not in canonical form (R420, R547). -/
namespace Sys2Proof.Machine

variable {s : State}

theorem word_raise {k : Nat} (h : k < 0x1000000) (h0 : k ≠ R.MSIX_PBA 0) (h1 : k ≠ R.MSIX_PBA 1) (n : Nat) (s : State) :
    (raise n s).word k = s.word k := (WordsOnly.raise n s).words k (not_mem_evKeys h h0 h1 n)

/-- A fold of steps that each leave a word leaves it. -/
theorem word_foldl {α : Type} {f : State → α → State} {k : Nat} (hf : ∀ s a, (f s a).word k = s.word k) (l : List α) (s : State) :
    (l.foldl f s).word k = s.word k := by
  induction l generalizing s with
  | nil => rfl
  | cons a l ih => exact (ih _).trans (hf s a)

theorem tbRate_raise (n : Nat) (s : State) : (raise n s).word R.TB_RATE = s.word R.TB_RATE :=
  word_raise (by decide) (by decide) (by decide) n s

theorem tbRate_uartSync (s : State) : (uartSync 1 s).word R.TB_RATE = s.word R.TB_RATE := by
  simp [uartSync, State.setBit, State.word_setFld_ne, R.TB_RATE]

theorem tbRate_uartStart (s : State) : (uartStart 1 s).word R.TB_RATE = s.word R.TB_RATE := by
  have hh : uartHalt 1 s = s := by simp [uartHalt]
  have hd (s : State) : ((1 : Nat) == 0 && s.bit (F.UA_CFG_RS485 0) && !uartLoop 0 s) = false := rfl
  unfold uartStart
  rw [hh]
  dsimp only
  split
  · rw [hd]
    split <;> rfl
  · rfl

theorem tbRate_uartDo (s : State) : (uartDo 1 (uartStart 1) s).word R.TB_RATE = s.word R.TB_RATE := by
  have hs : (uartSync 1 (uartStart 1 s)).word R.TB_RATE = s.word R.TB_RATE := (tbRate_uartSync _).trans (tbRate_uartStart s)
  unfold uartDo
  dsimp only
  split
  · rw [tbRate_raise, hs]
  · exact hs

theorem tbRate_nonceRenew (s : State) : (nonceRenew s).word R.TB_RATE = s.word R.TB_RATE := by
  refine word_foldl (fun s k => State.word_setWord_ne s.draw.2 _ ?_) _ s
  simp only [R.TB_RATE, R.SEC_DBG_NONCE]
  omega

theorem tbRate_flrEvents (s : State) : (flrEvents s).word R.TB_RATE = s.word R.TB_RATE := by
  refine word_foldl (fun s p => ?_) _ s
  split
  · exact State.word_setFld_ne s _ (copyOff_ne (by decide) _ _).symm
  · rfl

theorem tbRate_causeSet (code : Nat) (s : State) : (causeSet code s).word R.TB_RATE = s.word R.TB_RATE := by
  simp [causeSet, State.setMaskBit, State.setBit, State.word_setFld_ne, R.TB_RATE, R.RST_CAUSE]

/-- TB_RATE after a function-level reset is what the reset of class F registers leaves at its key. -/
theorem tbRate_flReset (s : State) :
    (flReset s).word R.TB_RATE = Sparse.get regDflt (flrRegs (flrTimes (flrJobs s)).regs) R.TB_RATE := by
  unfold flReset
  extract_lets copying s₁ arb car s₂ s₃ s₄ s₅ s₆
  have h₃ : s₃.word R.TB_RATE = s₂.word R.TB_RATE := tbRate_uartDo s₂
  have h₄ : s₄.word R.TB_RATE = s₃.word R.TB_RATE := State.word_setFld_ne s₃ _ (by decide)
  have h₅ : s₅.word R.TB_RATE = s₄.word R.TB_RATE :=
    (tbRate_nonceRenew _).trans ((tbRate_causeSet 7 _).trans (tbRate_flrEvents s₄))
  have h₆ : s₆.word R.TB_RATE = s₅.word R.TB_RATE := by
    unfold s₆
    split
    · exact (tbRate_raise 6 _).trans (State.word_setFld_ne s₅ _ (by decide))
    · rfl
  rw [tbRate_raise, h₆, h₅, h₄, h₃]
  rfl

/-- A state whose register file lists TB_RATE twice, first at its reset word: it reads 0, and is not in canonical form. -/
def rateListedTwice : State := { regs := [(R.TB_RATE, 0), (R.TB_RATE, 5)] }

theorem tbRate_rateListedTwice : rateListedTwice.word R.TB_RATE = 0 := by decide

/-- A function-level reset drops the entry that equals the reset word, and the one behind it shows. -/
theorem tbRate_flReset_rateListedTwice : (flReset rateListedTwice).word R.TB_RATE = 5 := by
  rw [tbRate_flReset]
  decide

/-- Refutes O33: it is stated of every state, a register file with two entries at one key included. There a function-level reset does
not keep TB_RATE, though its class S makes it stay (R6, R420): `flrRegs` works on entries, and drops the first one when it equals the
reset word. The witness is outside the canonical form (`Canon`), which the statement does not ask for. -/
theorem not_resets : ¬ Obligations.Resets := by
  intro h
  obtain ⟨-, -, -, -, -, -, -, -, -, -, -, -, hf, -⟩ := h .host 0 0 rateListedTwice
  obtain ⟨t, ht, -, -, -, -, -, -, -, -, -, hrate, -⟩ := hf
  have he : flReset rateListedTwice = t := Host.Outcome.next.inj ht
  rw [← he, tbRate_flReset_rateListedTwice, tbRate_rateListedTwice] at hrate
  exact absurd hrate (by decide)

end Sys2Proof.Machine
end

section
/-! SUPPORT. Readers' copies, the shadows of the latch groups, and reads that the gate lets pass (R34, R35, R424). -/
namespace Sys2Proof.Machine

variable {s : State} {who : Reader}

theorem readerIdx_injective : Function.Injective readerIdx := by
  intro a b h
  cases a with
  | sq m => cases b with
    | sq k => exact congrArg Reader.sq (Fin.ext (by simpa [readerIdx] using h))
    | _ => simp only [readerIdx] at h; omega
  | _ => cases b with
    | sq k => simp only [readerIdx] at h; omega
    | _ => simp [readerIdx] at h ⊢

theorem readerIdx_lt (r : Reader) : readerIdx r < 13 := by
  cases r with
  | sq n => have := n.isLt; simp only [readerIdx]; omega
  | _ => decide

/-- Copies of words of BAR 0 have keys of their own: one for each reader and offset. -/
theorem copyOff_inj {r r' : Reader} {off off' : Nat} (h : copyOff r off = copyOff r' off') (ho : off < 0x1000000)
    (ho' : off' < 0x1000000) : r = r' ∧ off = off' := by
  unfold copyOff at h
  have hi : readerIdx r = readerIdx r' := by omega
  exact ⟨readerIdx_injective hi, by omega⟩

@[simp] theorem capture_setCapture (r : Reader) (lo : Nat) (ws : List Word) (s : State) :
    capture r lo (setCapture r lo ws s) = ws := by simp [capture, setCapture]

/-- Another shadow stands. -/
theorem capture_setCapture_ne {r r' : Reader} {lo lo' : Nat} (ws : List Word) (s : State) (h : (r', lo') ≠ (r, lo))
    (hl : lo < 0x1000000) (hl' : lo' < 0x1000000) : capture r' lo' (setCapture r lo ws s) = capture r' lo' s := by
  refine Sparse.get_put_ne _ _ fun he => h ?_
  obtain ⟨rfl, rfl⟩ := copyOff_inj he hl' hl
  rfl

/-- What `latchGroup` may answer for a word: a group that is not empty, whose lowest word is aligned and which is no byte memory. -/
def GroupSound (off : Nat) (g : Option (Nat × Nat)) : Prop :=
  ∀ lo n, g = some (lo, n) → lo % 4 = 0 ∧ 0 < n ∧ bar0Mem off = false

theorem GroupSound.ite {off : Nat} {c : Prop} [Decidable c] {g g' : Option (Nat × Nat)} (h : c → GroupSound off g)
    (h' : GroupSound off g') : GroupSound off (if c then g else g') := by
  split
  · exact h ‹c›
  · exact h'

theorem GroupSound.none (off : Nat) : GroupSound off none := by simp [GroupSound]

theorem GroupSound.some {off lo n : Nat} (hl : lo % 4 = 0) (hn : 0 < n)
    (hm : off < 0x581000 ∨ (0x582000 ≤ off ∧ off < 0x590000) ∨ 0x590000 + 11 * 0x8000 ≤ off) :
    GroupSound off (some (lo, n)) := by
  rintro _ _ ⟨⟩
  refine ⟨hl, hn, ?_⟩
  simp only [bar0Mem, Bool.or_eq_false_iff, Bool.and_eq_false_iff, decide_eq_false_iff_not]
  omega

theorem groupSound_latchGroup (off : Nat) : GroupSound off (latchGroup off) := by
  unfold latchGroup
  dsimp only
  repeat' refine GroupSound.ite (fun hc => ?_) ?_
  any_goals exact .none off
  all_goals
    try simp only [Bool.and_eq_true, decide_eq_true_eq] at hc
    exact .some (by omega) (by omega) (by omega)

/-- A group's lowest word is aligned, the group is not empty, and its words are not byte memory. -/
theorem latchGroup_spec {off lo n : Nat} (h : latchGroup off = some (lo, n)) :
    lo % 4 = 0 ∧ 0 < n ∧ bar0Mem off = false := groupSound_latchGroup off lo n h

/-- All words of a group as they stand for a reader. -/
def groupWords (r : Reader) (lo n : Nat) (s : State) : List Word :=
  (List.range n).map (fun k => liveWord r (lo + 4 * k) s)

theorem headD_groupWords {n : Nat} (hn : 0 < n) (r : Reader) (lo : Nat) (s : State) :
    (groupWords r lo n s).headD 0 = liveWord r lo s := by
  obtain ⟨m, rfl⟩ := Nat.exists_eq_succ_of_ne_zero hn.ne'
  rw [groupWords, List.range_succ_eq_map]
  rfl

/-- A read of the lowest word captures the group (R35). -/
theorem busRead_lowest {lo n : Nat} (hg : latchGroup lo = some (lo, n)) (ha : bar0Answers who lo s = true)
    (hr : ringOffReg lo s = false) :
    busRead who lo s = (liveWord who lo s, setCapture who lo (groupWords who lo n s) s) := by
  obtain ⟨-, hn, hm⟩ := latchGroup_spec hg
  simp only [busRead, ha, hr, hm, hg, Bool.not_true, Bool.or_false, Bool.false_eq_true, if_false, if_true]
  exact congrArg (·, _) (headD_groupWords hn who lo s)

/-- A read of the highest word gives the captured value and releases the capture (R35). -/
theorem busRead_highest {off lo n : Nat} (hg : latchGroup off = some (lo, n)) (ha : bar0Answers who off s = true)
    (hr : ringOffReg off s = false) (ho : off = lo + 4 * (n - 1)) (hl : off ≠ lo) (hc : capture who lo s ≠ []) :
    busRead who off s = ((capture who lo s).getD (n - 1) 0, setCapture who lo [] s) := by
  obtain ⟨-, -, hm⟩ := latchGroup_spec hg
  have hk : (off - lo) / 4 = n - 1 := by omega
  simp only [busRead, ha, hr, hm, hg, hl, Bool.not_true, Bool.or_false, Bool.false_eq_true, if_false]
  cases hw : capture who lo s with
  | nil => exact absurd hw hc
  | cons w ws => simp only [hk]; rw [if_pos ho]

/-- A read that is not denied delivers what the bus gives. -/
theorem readWord_allowed {off : Nat} (h : protAllows who 0 off false s = true) :
    readWord who off s = { (busRead who off s).2 with busData := (busRead who off s).1 } := by simp [readWord, h]

end Sys2Proof.Machine
end

section
/-! PROOFS. O3: reads of registers, of configuration space and of the device map (R34, R35, R419, R422, R424). -/
namespace Sys2Proof.Machine

variable {s : State} {who : Reader}

/-- A sound request to BAR 0. -/
theorem exec_latchCapture_reg (who : Reader) {off : BitVec 24} (s : State) (h : off.toNat % 4 = 0) :
    exec (.latchCapture who (.reg ⟨off, true⟩)) s = .next (readWord who off.toNat s) := by
  change execLatchCapture who (.reg ⟨off, true⟩) s = _
  simp [execLatchCapture, reqSound, h]

theorem exec_latchCapture_map (who : Reader) (a : BitVec 26) (n : BitVec 2) (s : State) :
    exec (.latchCapture who (.map a n)) s = .next (readMap who a.toNat (n.toNat + 1) s) := rfl

/-- A request for the highest word of a group. -/
theorem exec_latchRelease_highest {off : BitVec 24} {lo n : Nat} (hg : latchGroup off.toNat = some (lo, n))
    (ho : off.toNat = lo + 4 * (n - 1)) : exec (.latchRelease who off) s = .next (readWord who off.toNat s) := by
  change execLatchRelease who off s = _
  simp only [execLatchRelease, hg]
  rw [if_pos ho]

/-- The host's unsound request (R422). -/
theorem latchCapture_unsound {r : RegReq} (h : reqSound r = false) (h1 : s.pwr.hib = false) (h2 : s.pwr.pcieOff = false) :
    ∃ t, exec (.latchCapture .host (.reg r)) s = .next t ∧ t.bit F.HOST_ERR_BAD_ACCESS = true ∧
      RegsBut (R.HOST_ERR :: evKeys 7) s t ∧ MemsSame s t := by
  have hw := WordsOnly.flagEvent F.HOST_ERR_BAD_ACCESS 7 s
  refine ⟨_, ?_, bit_flagEvent_badAccess s, hw.words, hw.memsSame⟩
  change execLatchCapture .host (.reg r) s = _
  simp [execLatchCapture, h, badAccess_host h1 h2]

/-- A read of the device map that the protection unit allows delivers its bytes. -/
theorem latchCapture_map_open {a : BitVec 26} {n : BitVec 2} (h1 : mapAnswers who s = true)
    (h2 : rangeDenied who a.toNat (n.toNat + 1) false s = none) :
    ∃ t, exec (.latchCapture who (.map a n)) s = .next t ∧
      t.busData = BitVec.ofNat 32 (leNat (mapReadBytes who a.toNat (n.toNat + 1) s).1) := by
  refine ⟨_, exec_latchCapture_map who a n s, ?_⟩
  simp [readMap, h1, h2]

/-- A denied one delivers 0 and is recorded (R516). -/
theorem latchCapture_map_denied {a : BitVec 26} {n : BitVec 2} {x : Nat} (h1 : mapAnswers who s = true)
    (h2 : rangeDenied who a.toNat (n.toNat + 1) false s = some x) :
    ∃ t, exec (.latchCapture who (.map a n)) s = .next t ∧ t.busData = 0 ∧ EventUp 124 t ∧ MemsSame s t := by
  have ht : readMap who a.toNat (n.toNat + 1) s = { protRecord who 1 x false s with busData := 0 } := by
    simp [readMap, h1, h2]
  exact ⟨_, (exec_latchCapture_map who a n s).trans (congrArg _ ht), rfl, EventUp.protRecord who 1 x false s,
    (WordsOnly.protRecord who 1 x false s).memsSame⟩

theorem latchCapture_lowest {off : BitVec 24} {lo n : Nat} (hg : latchGroup off.toNat = some (lo, n))
    (ha : bar0Answers who off.toNat s = true) (hp : protAllows who 0 off.toNat false s = true)
    (hr : ringOffReg off.toNat s = false) (ho : off.toNat = lo) :
    ∃ t, exec (.latchCapture who (.reg ⟨off, true⟩)) s = .next t ∧ t.busData = liveWord who lo s ∧
      capture who lo t = (List.range n).map (fun k => liveWord who (lo + 4 * k) s) ∧ t.regs = s.regs ∧ MemsSame s t ∧
      (∀ who' lo', (who', lo') ≠ (who, lo) → lo' < 0x1000000 → capture who' lo' t = capture who' lo' s) := by
  have hlt : lo < 0x1000000 := ho ▸ off.isLt
  have he := exec_latchCapture_reg who s (ho ▸ (latchGroup_spec hg).1)
  rw [readWord_allowed hp] at he
  rw [ho] at hg ha hr he
  rw [busRead_lowest hg ha hr] at he
  exact ⟨_, he, rfl, capture_setCapture who lo _ s, rfl, ⟨rfl, rfl, rfl, rfl⟩,
    fun _ _ hne hl' => capture_setCapture_ne _ s hne hlt hl'⟩

theorem latchRelease_highest {off : BitVec 24} {lo n : Nat} (hg : latchGroup off.toNat = some (lo, n))
    (ha : bar0Answers who off.toNat s = true) (hp : protAllows who 0 off.toNat false s = true)
    (hr : ringOffReg off.toNat s = false) (ho : off.toNat = lo + 4 * (n - 1)) (hl : off.toNat ≠ lo)
    (hc : capture who lo s ≠ []) :
    ∃ t, exec (.latchRelease who off) s = .next t ∧ t.busData = (capture who lo s).getD (n - 1) 0 ∧
      capture who lo t = [] ∧ t.regs = s.regs ∧ MemsSame s t := by
  have he := exec_latchRelease_highest (who := who) (s := s) hg ho
  rw [readWord_allowed hp, busRead_highest hg ha hr ho hl hc] at he
  exact ⟨_, he, rfl, capture_setCapture who lo [] s, rfl, ⟨rfl, rfl, rfl, rfl⟩⟩

/-- Settles O3: each kind of read by its lemma; of a latch group, the lowest word sets the reader's shadow and the highest one
clears it. -/
theorem latchGroupReads : Obligations.LatchGroupReads := by
  refine ⟨fun who r f a n s => ⟨fun h hw h1 h2 => ?_, fun h1 h2 => ?_, latchCapture_map_open, fun _ => latchCapture_map_denied⟩,
    fun who off lo n s hg ha hp hr => ⟨latchCapture_lowest hg ha hp hr, latchRelease_highest hg ha hp hr⟩⟩
  · subst hw
    exact latchCapture_unsound h h1 h2
  · change execLatchCapture who (.cfg f) s = _
    simp [execLatchCapture, h1, h2]

end Sys2Proof.Machine
end

section
/-! SUPPORT. Frames in sequence, and fields of BAR 0 words when an event is raised. -/
namespace Sys2Proof.Machine

variable {s t u : State} {ks ls : List Nat}

theorem RegsBut.trans (h : RegsBut ks s t) (k : RegsBut ks t u) : RegsBut ks s u :=
  fun j hj => (k j hj).trans (h j hj)

theorem RegsBut.mono (h : RegsBut ks s t) (hs : ks ⊆ ls) : RegsBut ls s t := fun j hj => h j fun hk => hj (hs hk)

theorem RegsBut.setFld (f : Fld) (v : Nat) (s : State) : RegsBut [f.off] s (s.setFld f v) := (WordsOnly.setFld f v s).words

theorem MemsSame.trans (h : MemsSame s t) (k : MemsSame t u) : MemsSame s u := by
  obtain ⟨hm, hr, hh, hf⟩ := h
  obtain ⟨km, kr, kh, kf⟩ := k
  exact ⟨km.trans hm, kr.trans hr, kh.trans hh, kf.trans hf⟩

/-- A word of BAR 0 itself that no event changes: neither a reader's copy nor of the Pending Bit Array. -/
abbrev plainKey (k : Nat) : Prop := k < 0x1000000 ∧ k ≠ R.MSIX_PBA 0 ∧ k ≠ R.MSIX_PBA 1

theorem fld_raise {f : Fld} (h : plainKey f.off) (n : Nat) (s : State) : (raise n s).fld f = s.fld f := by
  rw [State.fld, State.fld, word_raise h.1 h.2.1 h.2.2]

theorem bit_raise {f : Fld} (h : plainKey f.off) (n : Nat) (s : State) : (raise n s).bit f = s.bit f := by
  rw [State.bit, State.bit, fld_raise h]

/-- A one-bit field set reads 1. -/
theorem State.bit_setFld_one (s : State) (f : Fld) (hl : f.lo = f.hi) (hh : f.hi < 32) : (s.setFld f 1).bit f = true :=
  State.bit_setBit s f true hl hh

theorem State.bit_setFld_ne (s : State) (f g : Fld) (v : Nat) (hl : f.lo ≤ f.hi) (hh : f.hi < 32)
    (h : g.off ≠ f.off ∨ g.hi < f.lo ∨ f.hi < g.lo) : (s.setFld f v).bit g = s.bit g := by
  rw [State.bit, State.bit, State.fld_setFld_ne s f g v hl hh h]

end Sys2Proof.Machine
end

section
/-! PROOFS. O9: the event inputs (R65 to R67). -/
namespace Sys2Proof.Machine

variable {s : State} {n : Fin 4}

/-! An input's own state. -/

@[simp] theorem evtIn_setEvt (s : State) (n : Nat) (e : EvtIn) : evtIn (setEvt s n e) n = e := by simp [evtIn, setEvt]

theorem RegsBut.setEvt (s : State) (n : Nat) (e : EvtIn) : RegsBut [R.TB_EVT_CTRL n] s (Machine.setEvt s n e) :=
  RegsBut.setFld (F.TB_EVT_CTRL_COUNT n) _ _

theorem memsSame_setEvt (s : State) (n : Nat) (e : EvtIn) : MemsSame s (setEvt s n e) := ⟨rfl, rfl, rfl, rfl⟩

/-- COUNT shows the stamps stored. -/
theorem count_setEvt (s : State) (n : Nat) (e : EvtIn) :
    (setEvt s n e).fld (F.TB_EVT_CTRL_COUNT n) = e.fifo.length % 16 :=
  State.fld_setFld _ _ _ (by simp) (by simp)

@[simp] theorem evtIn_setFld (s : State) (f : Fld) (v k : Nat) : evtIn (s.setFld f v) k = evtIn s k := rfl

theorem WordsOnly.evtIn {t : State} {ks : List Nat} (h : WordsOnly ks s t) (k : Nat) : Machine.evtIn t k = Machine.evtIn s k := by
  have he : t.evt = s.evt := (congrArg State.evt h.rest :)
  rw [Machine.evtIn, Machine.evtIn, he]

theorem evtIn_raise (m k : Nat) (s : State) : evtIn (raise m s) k = evtIn s k :=
  (WordsOnly.raise m s).evtIn k

theorem plainKey_evtCtrl (n : Fin 4) : plainKey (R.TB_EVT_CTRL n) := by
  have := n.isLt
  simp only [plainKey, R.TB_EVT_CTRL, R.MSIX_PBA]
  omega

/-! Edges. -/

/-- An input counts an edge of a direction. -/
abbrev edgeOn (n : Fin 4) (rising : Bool) (s : State) : Bool :=
  (s.fld (F.TB_EVT_CTRL_EDGE n)).testBit (if rising then 0 else 1)

/-- The real instant of an edge, in 2^-44 tick. -/
abbrev edgeAt (sub : BitVec 44) (s : State) : Nat := s.tick * tickUnits + sub.toNat

/-- An edge less than 1.667 us after the last one accepted (R66). -/
abbrev edgeSoon (n : Fin 4) (sub : BitVec 44) (s : State) : Prop :=
  ∃ l, (evtIn s n.val).last = some l ∧ (edgeAt sub s - l) * 10 ^ 11 < 1667 * 120000000 * tickUnits

theorem exec_evtEdge_off {rising : Bool} (sub : BitVec 44) (h : edgeOn n rising s = false) :
    exec (.evtEdge n rising sub) s = .next s := by
  change execEvtEdge n rising sub s = _
  simp [execEvtEdge, h]

theorem exec_evtEdge_soon {rising : Bool} {sub : BitVec 44} (h : edgeOn n rising s = true) (hs : edgeSoon n sub s) :
    exec (.evtEdge n rising sub) s = .next (s.setFld (F.TB_EVT_CTRL_MISSED n) 1) := by
  obtain ⟨l, hl, hlt⟩ := hs
  change execEvtEdge n rising sub s = _
  simp only [execEvtEdge, h, hl, decide_eq_true hlt, Bool.not_true, Bool.false_eq_true, if_false, if_true]

theorem exec_evtEdge_late {rising : Bool} {sub : BitVec 44} (h : edgeOn n rising s = true) (hs : ¬edgeSoon n sub s) :
    exec (.evtEdge n rising sub) s = .next (
      if 8 ≤ (evtIn s n.val).fifo.length then
        raise 24 ((setEvt s n.val { evtIn s n.val with last := some (edgeAt sub s) }).setFld (F.TB_EVT_CTRL_OVERRUN n) 1)
      else raise (12 + n.val) (setEvt s n.val
        { fifo := (evtIn s n.val).fifo ++ [evtStamp rising sub.toNat s], last := some (edgeAt sub s) })) := by
  change execEvtEdge n rising sub s = _
  simp only [execEvtEdge, h, Bool.not_true, Bool.false_eq_true, if_false]
  refine congrArg _ (if_neg ?_)
  split
  · rename_i l hl
    exact fun hd => hs ⟨l, hl, of_decide_eq_true hd⟩
  · exact Bool.false_ne_true

/-- An edge's stamp (R65, R67). -/
theorem evtStamp_spec (rising : Bool) (sub : Nat) (s : State) :
    let st := evtStamp rising sub s
    let now := s.nowU + (if s.coarse then 0 else sub * s.tickStep / tickUnits)
    st.sec = now / secUnits % 2 ^ 48 ∧ st.frac * 2 ^ 16 + st.sub = now % secUnits * 2 ^ 48 / secUnits ∧ st.sub < 2 ^ 16 ∧
      st.rising = rising ∧ st.valid = s.bit F.TB_STATUS_VALID ∧ st.refLost = s.refLost ∧
      st.stepSeq = s.fld F.TB_STATUS_STEP_SEQ % 16 :=
  ⟨rfl, Nat.div_add_mod' _ _, Nat.mod_lt _ (by decide), rfl, rfl, rfl, rfl⟩

theorem evtEdge_stamped {rising : Bool} {sub : BitVec 44} (h : edgeOn n rising s = true) (hs : ¬edgeSoon n sub s)
    (hf : (evtIn s n.val).fifo.length < 8) :
    ∃ t, exec (.evtEdge n rising sub) s = .next t ∧
      evtIn t n.val = ⟨(evtIn s n.val).fifo ++ [evtStamp rising sub.toNat s], some (edgeAt sub s)⟩ ∧
      t.fld (F.TB_EVT_CTRL_COUNT n) = (evtIn s n.val).fifo.length + 1 ∧ EventUp (12 + n.val) t ∧
      RegsBut (R.TB_EVT_CTRL n :: evKeys (12 + n.val)) s t ∧ MemsSame s t := by
  have he := exec_evtEdge_late h hs
  rw [if_neg (by omega)] at he
  have hw := WordsOnly.raise (12 + n.val) (setEvt s n.val
    { fifo := (evtIn s n.val).fifo ++ [evtStamp rising sub.toNat s], last := some (edgeAt sub s) })
  refine ⟨_, he, by rw [evtIn_raise, evtIn_setEvt], ?_, .raise_self _ _,
    ((RegsBut.setEvt s _ _).mono (by simp)).trans (hw.words.mono (List.subset_cons_self _ _)),
    (memsSame_setEvt s _ _).trans hw.memsSame⟩
  rw [fld_raise (plainKey_evtCtrl n), count_setEvt]
  simp only [List.length_append, List.length_singleton]
  omega

theorem evtEdge_full {rising : Bool} {sub : BitVec 44} (h : edgeOn n rising s = true) (hs : ¬edgeSoon n sub s)
    (hf : 8 ≤ (evtIn s n.val).fifo.length) :
    ∃ t, exec (.evtEdge n rising sub) s = .next t ∧ evtIn t n.val = ⟨(evtIn s n.val).fifo, some (edgeAt sub s)⟩ ∧
      t.bit (F.TB_EVT_CTRL_OVERRUN n) = true ∧ EventUp 24 t ∧ RegsBut (R.TB_EVT_CTRL n :: evKeys 24) s t ∧ MemsSame s t := by
  have he := exec_evtEdge_late h hs
  rw [if_pos hf] at he
  generalize hu : setEvt s n.val { evtIn s n.val with last := some (edgeAt sub s) } = u at he
  have hw := WordsOnly.raise 24 (u.setFld (F.TB_EVT_CTRL_OVERRUN n) 1)
  refine ⟨_, he, ?_, ?_, .raise_self _ _, ?_, ?_⟩
  · rw [evtIn_raise, evtIn_setFld, ← hu, evtIn_setEvt]
  · rw [bit_raise (plainKey_evtCtrl n)]
    exact State.bit_setFld_one u _ rfl (by simp)
  · have hr : RegsBut [R.TB_EVT_CTRL n] s (u.setFld (F.TB_EVT_CTRL_OVERRUN n) 1) := by
      rw [← hu]
      exact (RegsBut.setEvt s _ _).trans (RegsBut.setFld (F.TB_EVT_CTRL_OVERRUN n) 1 _)
    exact (hr.mono (by simp)).trans (hw.words.mono (List.subset_cons_self _ _))
  · have hm : MemsSame s u := hu ▸ memsSame_setEvt s _ _
    exact (hm.trans (WordsOnly.setFld _ _ u).memsSame).trans hw.memsSame

theorem evtEdge_soon {rising : Bool} {sub : BitVec 44} (h : edgeOn n rising s = true) (hs : edgeSoon n sub s) :
    ∃ t, exec (.evtEdge n rising sub) s = .next t ∧ t.bit (F.TB_EVT_CTRL_MISSED n) = true ∧ t.evt = s.evt ∧
      RegsBut [R.TB_EVT_CTRL n] s t ∧ MemsSame s t :=
  ⟨_, exec_evtEdge_soon h hs, State.bit_setFld_one s _ rfl (by simp), State.setFld_evt _ _ _,
    RegsBut.setFld (F.TB_EVT_CTRL_MISSED n) 1 s, (WordsOnly.setFld _ _ s).memsSame⟩

/-! POP (R66). -/

/-- The fields of TB_EVT_n_CTRL. -/
def evtCtrlFields : List FieldSpec := [fs 31 31 .wo 0, fs 30 30 .w1c 0, fs 29 29 .w1c 0, fs 11 8 .ro 0, fs 1 0 .rw 0]

theorem regAt_evtCtrl : ∀ n : Fin 4, regAt (R.TB_EVT_CTRL n) = some ⟨R.TB_EVT_CTRL 0, [(0x20, 4)], 0, .d, false, evtCtrlFields⟩ := by
  decide

theorem fieldsApart_evtCtrl : fieldsApart evtCtrlFields := by
  simp [fieldsApart, FieldSpec.apart, evtCtrlFields, fs]

/-- What a write of TB_EVT_n_CTRL leaves, POP aside. -/
theorem plainWrite_evtCtrl (who : Reader) (n : Fin 4) (v : Word) (s : State) :
    let t := plainWrite who (R.TB_EVT_CTRL n) v s
    WordsOnly [R.TB_EVT_CTRL n] s t ∧ t.fld (F.TB_EVT_CTRL_EDGE n) = v.toNat % 4 ∧
      t.bit (F.TB_EVT_CTRL_OVERRUN n) = (s.bit (F.TB_EVT_CTRL_OVERRUN n) && !v.getLsbD 30) ∧
      t.bit (F.TB_EVT_CTRL_MISSED n) = (s.bit (F.TB_EVT_CTRL_MISSED n) && !v.getLsbD 29) := by
  refine ⟨WordsOnly.plainWrite_of_lawful v (regAt_evtCtrl n) rfl (vltChecked_of_no_vlt fun _ _ => rfl), ?_,
    bit_plainWrite_w1c (rst := 0) (l := .any) v (regAt_evtCtrl n) rfl fieldsApart_evtCtrl (by simp [evtCtrlFields, fs]),
    bit_plainWrite_w1c (rst := 0) (l := .any) v (regAt_evtCtrl n) rfl fieldsApart_evtCtrl (by simp [evtCtrlFields, fs])⟩
  refine (fld_plainWrite (f := fs 1 0 .rw 0) v (regAt_evtCtrl n) rfl fieldsApart_evtCtrl (by simp [evtCtrlFields])).trans ?_
  simp [fieldAfter, fs, Legal.ok, bitsOf]

theorem exec_evtPop {who : Reader} (v : Word) (h : Open who (R.TB_EVT_CTRL n) s) :
    exec (.evtPop who n v) s = .next (opEvtCtrlWrite who n.val v s) :=
  congrArg _ (gate_open h.1 h.2)

theorem evtPop_open {who : Reader} (v : Word) (h : Open who (R.TB_EVT_CTRL n) s) :
    ∃ t, exec (.evtPop who n v) s = .next t ∧
      (v.getLsbD 31 = true → evtIn t n.val = ⟨(evtIn s n.val).fifo.drop 1, (evtIn s n.val).last⟩ ∧
        t.fld (F.TB_EVT_CTRL_COUNT n) = ((evtIn s n.val).fifo.length - 1) % 16) ∧
      (v.getLsbD 31 = false → t.evt = s.evt) ∧ t.fld (F.TB_EVT_CTRL_EDGE n) = v.toNat % 4 ∧
      t.bit (F.TB_EVT_CTRL_OVERRUN n) = (s.bit (F.TB_EVT_CTRL_OVERRUN n) && !v.getLsbD 30) ∧
      t.bit (F.TB_EVT_CTRL_MISSED n) = (s.bit (F.TB_EVT_CTRL_MISSED n) && !v.getLsbD 29) ∧
      RegsBut [R.TB_EVT_CTRL n] s t ∧ MemsSame s t := by
  obtain ⟨hw, hedge, hover, hmiss⟩ := plainWrite_evtCtrl who n v s
  have he := exec_evtPop v h
  have hin : evtIn (plainWrite who (R.TB_EVT_CTRL n) v s) n.val = evtIn s n.val := hw.evtIn n.val
  rw [opEvtCtrlWrite] at he
  cases hp : v.getLsbD 31
  · have ht : v.toNat.testBit 31 = false := hp
    rw [ht, if_neg Bool.false_ne_true] at he
    exact ⟨_, he, by simp, fun _ => (congrArg State.evt hw.rest :), hedge, hover, hmiss, hw.words, hw.memsSame⟩
  · have ht : v.toNat.testBit 31 = true := hp
    rw [ht, if_pos rfl, hin] at he
    refine ⟨_, he, fun _ => ⟨evtIn_setEvt _ _ _, ?_⟩, by simp, ?_, ?_, ?_, hw.words.trans (RegsBut.setEvt _ _ _),
      hw.memsSame.trans (memsSame_setEvt _ _ _)⟩
    · rw [count_setEvt, List.length_drop]
    · exact (State.fld_setFld_ne _ _ _ _ (by simp) (by simp) (by simp)).trans hedge
    · exact (State.bit_setFld_ne _ _ _ _ (by simp) (by simp) (by simp)).trans hover
    · exact (State.bit_setFld_ne _ _ _ _ (by simp) (by simp) (by simp)).trans hmiss

/-- Settles O9: an edge is passed over, missed, lost to a full FIFO or stamped; a write of TB_EVT_n_CTRL follows the access codes,
and POP drops the oldest stamp. -/
theorem eventInputs : Obligations.EventInputs := by
  intro n rising sub who v s
  refine ⟨exec_evtEdge_off sub, fun h hs hf => ?_, evtEdge_full, evtEdge_soon, evtPop_open v⟩
  obtain ⟨t, he, hin, hc, hev, hr, hm⟩ := evtEdge_stamped h hs hf
  obtain ⟨h1, h2, h3, h4, h5, h6, h7⟩ := evtStamp_spec rising sub.toNat s
  exact ⟨t, _, he, hin, h1, h2, h3, h4, h5, h6, h7, hc, hev, hr, hm⟩

end Sys2Proof.Machine
end

section
/-! SUPPORT. Entry ports (R61 to R63): the families' control words and windows, and a port's command in progress. -/
namespace Sys2Proof.Machine

variable {s t : State} {p : PortFam} {r who : Reader}

/-- What a family's registers have in common: every reader has its own copy, no field is VLT, and the window lies behind the control
word. -/
structure PortFam.Sound (p : PortFam) : Prop where
  end_le : p.win + 4 * p.words ≤ 0x1000000
  ctrl_lt : p.ctrl < p.win
  cmdHi : p.cmdHi = p.cmdLo + 1
  spec : ∃ fl, (∃ cls, regAt p.ctrl = some ⟨p.ctrl, [], 0, cls, true, fl⟩) ∧ ∀ w v, vltOffends w v fl = false

theorem sound_ttPorts : ttPorts.Sound :=
  ⟨by decide, by decide, rfl, [fs 31 31 .ro 0, fs 23 16 .ro 0, fs 13 12 .wo 0, fs 11 0 .rw 0], ⟨.f, by decide⟩, fun _ _ => rfl⟩

theorem sound_sievePorts : sievePorts.Sound :=
  ⟨by decide, by decide, rfl, [fs 31 31 .ro 0, fs 23 16 .ro 0, fs 13 12 .wo 0, fs 6 0 .rw 0], ⟨.f, by decide⟩, fun _ _ => rfl⟩

theorem sound_skyPorts : skyPorts.Sound :=
  ⟨by decide, by decide, rfl, [fs 31 31 .ro 0, fs 23 16 .ro 0, fs 15 15 .rw 0, fs 13 12 .wo 0, fs 7 0 .rw 0], ⟨.f, by decide⟩,
    fun _ _ => rfl⟩

theorem sound_cycPorts : cycPorts.Sound :=
  ⟨by decide, by decide, rfl, [fs 31 31 .ro 0, fs 23 16 .ro 0, fs 9 8 .wo 0, fs 7 0 .rw 0], ⟨.d, by decide⟩, fun _ _ => rfl⟩

/-- A word of the window is not the control word, for one reader. -/
theorem PortFam.Sound.window_ne (hp : p.Sound) (r : Reader) (k : Nat) : copyOff r (p.win + 4 * k) ≠ copyOff r p.ctrl := by
  have := hp.ctrl_lt
  unfold copyOff
  omega

/-- A write of a family's control word changes the reader's copy alone. -/
theorem PortFam.Sound.plainWrite (hp : p.Sound) (who : Reader) (v : Word) (s : State) :
    WordsOnly [copyOff who p.ctrl] s (Machine.plainWrite who p.ctrl v s) := by
  obtain ⟨fl, ⟨cls, hr⟩, hv⟩ := hp.spec
  simp only [Machine.plainWrite, hr, hv, Bool.and_false, Bool.false_eq_true, if_false, if_true]
  exact .setWord _ _ s

/-- A reader's window as it stands. -/
theorem WordsOnly.portWindow (h : WordsOnly [copyOff r p.ctrl] s t) (hp : p.Sound) :
    Machine.portWindow p r t = Machine.portWindow p r s :=
  List.map_congr_left fun k _ => h.words _ (by simpa using hp.window_ne r k)

theorem WordsOnly.portCmd {ks : List Nat} (h : WordsOnly ks s t) (p : PortFam) (r : Reader) :
    Machine.portCmd p r t = Machine.portCmd p r s := by
  have he : t.ports = s.ports := (congrArg State.ports h.rest :)
  rw [Machine.portCmd, Machine.portCmd, he]

@[simp] theorem portCmd_setPortCmd (p : PortFam) (r : Reader) (c : Option PortCmd) (s : State) :
    portCmd p r (setPortCmd p r c s) = c := by simp [portCmd, setPortCmd]

theorem portCmd_setPortCmd_ne (p : PortFam) {r r' : Reader} (c : Option PortCmd) (s : State) (h : r' ≠ r) :
    portCmd p r' (setPortCmd p r c s) = portCmd p r' s :=
  Sparse.get_put_ne _ _ fun he => h (readerIdx_injective (by omega))

theorem fld_portResult (p : PortFam) (r : Reader) {st : Nat} (h : st < 256) (s : State) :
    (portResult p r st s).fld (Fld.at ⟨p.ctrl, 23, 16⟩ r) = st := by
  rw [portResult, State.fld_setFld _ _ _ (by simp [Fld.at]) (by simp [Fld.at])]
  exact Nat.mod_eq_of_lt h

theorem WordsOnly.portResult (p : PortFam) (r : Reader) (st : Nat) (s : State) :
    WordsOnly [copyOff r p.ctrl] s (Machine.portResult p r st s) := WordsOnly.setFld (Fld.at ⟨p.ctrl, 23, 16⟩ r) st s

/-- The command that a control word gives. -/
theorem cmd_portWord {cmd index : Nat} (hp : p.Sound) (hc : cmd < 4) (hi : index % (2 ^ p.cmdLo * 4) < 2 ^ p.cmdLo)
    (hl : cmd * 2 ^ p.cmdLo + index < 2 ^ 32) : bitsOf (portWord p cmd index).toNat p.cmdHi p.cmdLo = cmd := by
  have hd : index / 2 ^ p.cmdLo % 4 = 0 := by rw [← Nat.mod_mul_right_div_self, Nat.div_eq_of_lt hi]
  have he : p.cmdLo + 1 + 1 - p.cmdLo = 2 := by omega
  rw [portWord, BitVec.toNat_ofNat, Nat.mod_eq_of_lt hl, bitsOf, hp.cmdHi, he, Nat.mul_comm,
    Nat.mul_add_div (Nat.two_pow_pos _), Nat.add_mod]
  change (cmd % 4 + index / 2 ^ p.cmdLo % 4) % 4 = cmd
  omega

end Sys2Proof.Machine
end

section
/-! PROOFS. O7: a command on an entry port (R61 to R63, R188, R201, R265, R361). -/
namespace Sys2Proof.Machine

variable {s : State} {p : PortFam} {who : Reader} {v : Word}

/-- On a free port a command is latched with the window and the tick. -/
theorem opPortCtrl_free (hp : p.Sound) (h : portCmd p who s = none) (hv : bitsOf v.toNat p.cmdHi p.cmdLo ≠ 0) :
    opPortCtrl p who v s =
      setPortCmd p who (some ⟨v.toNat, portWindow p who s, s.tick⟩) (plainWrite who p.ctrl v s) := by
  have hw := hp.plainWrite who v s
  have ht : (plainWrite who p.ctrl v s).tick = s.tick := (congrArg State.tick hw.rest :)
  simp [opPortCtrl, h, hv, ht, hw.portWindow hp]

/-- On a busy port it only gives ST_BUSY. -/
theorem opPortCtrl_busy {d : PortCmd} (h : portCmd p who s = some d) : opPortCtrl p who v s = portResult p who ST.busy s := by
  simp [opPortCtrl, h]

theorem portTaken_of_free (hp : p.Sound) (h : portCmd p who s = none) (hv : bitsOf v.toNat p.cmdHi p.cmdLo ≠ 0) :
    PortTaken p who v s (opPortCtrl p who v s) := by
  have hw := hp.plainWrite who v s
  have ht : (plainWrite who p.ctrl v s).tick = s.tick := (congrArg State.tick hw.rest :)
  rw [opPortCtrl_free hp h hv]
  refine ⟨portCmd_setPortCmd p who _ _, ?_, fun n => ?_, fun r hr => ?_, hw.memsSame⟩
  · simp [portBusy, setPortCmd, portCmd, ht]
  · simp [portBusy, setPortCmd, portCmd, ht]
  · rw [portCmd_setPortCmd_ne p _ _ hr, hw.portCmd]

/-- A command of a family: a write of the family's control word with a CMD. -/
structure PortCommand (who : Reader) (p : PortFam) (c : Instr) (v : Word) : Prop where
  exec : ∀ s, exec c s = .next (gate who p.ctrl true (opPortCtrl p who v) s)
  sound : p.Sound
  cmd : bitsOf v.toNat p.cmdHi p.cmdLo ≠ 0

/-- A control word whose index lies below CMD. -/
theorem PortCommand.of_index {c : Instr} {cmd index : Nat}
    (h : ∀ s, Machine.exec c s = .next (gate who p.ctrl true (opPortCtrl p who (portWord p cmd index)) s)) (hp : p.Sound)
    (hc : 0 < cmd ∧ cmd < 4) (hi : index < 2 ^ p.cmdLo) (hl : p.cmdLo ≤ 12) : PortCommand who p c (portWord p cmd index) := by
  have hpow : 2 ^ p.cmdLo ≤ 2 ^ 12 := Nat.pow_le_pow_right (by decide) hl
  have hmul : cmd * 2 ^ p.cmdLo ≤ 3 * 2 ^ 12 := Nat.mul_le_mul (by omega) hpow
  refine ⟨h, hp, ?_⟩
  rw [cmd_portWord hp hc.2 ((Nat.mod_le _ _).trans_lt hi) (by omega)]
  omega

/-- A read of the sky table names the bank in bit 15 (R265). -/
theorem PortCommand.skyPortRead (who : Reader) (k : Bool) (b : Byte) :
    PortCommand who skyPorts (.skyPortRead who k b) (portWord skyPorts 1 ((if k then 2 ^ 15 else 0) + b.toNat)) := by
  refine ⟨fun _ => rfl, sound_skyPorts, ?_⟩
  have hb := b.isLt
  have hi : (if k then 2 ^ 15 else 0) + b.toNat ≤ 2 ^ 15 + 255 := by
    split <;> omega
  rw [cmd_portWord sound_skyPorts (by decide)]
  · decide
  · simp only [skyPorts]
    split <;> omega
  · simp only [skyPorts]
    omega

/-- The commands of the four families. -/
theorem portCommands (who : Reader) (i : BitVec 12) (j : BitVec 7) (b : Byte) (k : Bool) :
    ∀ x ∈ [(ttPorts, Instr.ttPortRead who i, portWord ttPorts 1 i.toNat), (ttPorts, .ttPortWrite who i, portWord ttPorts 2 i.toNat),
      (ttPorts, .ttPortDisarm who i, portWord ttPorts 3 i.toNat),
      (sievePorts, .sievePortRead who j, portWord sievePorts 1 j.toNat),
      (sievePorts, .sievePortWrite who j, portWord sievePorts 2 j.toNat),
      (sievePorts, .sievePortDisarm who j, portWord sievePorts 3 j.toNat),
      (skyPorts, .skyPortRead who k b, portWord skyPorts 1 ((if k then 2 ^ 15 else 0) + b.toNat)),
      (skyPorts, .skyPortWrite who b, portWord skyPorts 2 b.toNat), (skyPorts, .skyPortClear who b, portWord skyPorts 3 b.toNat),
      (cycPorts, .bcnCycRead who b, portWord cycPorts 1 b.toNat), (cycPorts, .bcnCycWrite who, portWord cycPorts 2 0),
      (cycPorts, .bcnCycInvalidate who b, portWord cycPorts 3 b.toNat)],
    PortCommand who x.1 x.2.1 x.2.2 := by
  have hj : j.toNat < 2 ^ 12 := j.isLt.trans (by decide)
  have hb : b.toNat < 2 ^ 12 := b.isLt.trans (by decide)
  simp only [List.forall_mem_cons, List.not_mem_nil, false_implies, implies_true, and_true]
  exact ⟨.of_index (fun _ => rfl) sound_ttPorts (by decide) i.isLt (by decide),
    .of_index (fun _ => rfl) sound_ttPorts (by decide) i.isLt (by decide),
    .of_index (fun _ => rfl) sound_ttPorts (by decide) i.isLt (by decide),
    .of_index (fun _ => rfl) sound_sievePorts (by decide) hj (by decide),
    .of_index (fun _ => rfl) sound_sievePorts (by decide) hj (by decide),
    .of_index (fun _ => rfl) sound_sievePorts (by decide) hj (by decide),
    .skyPortRead who k b,
    .of_index (fun _ => rfl) sound_skyPorts (by decide) hb (by decide),
    .of_index (fun _ => rfl) sound_skyPorts (by decide) hb (by decide),
    .of_index (fun _ => rfl) sound_cycPorts (by decide) b.isLt (by decide),
    .of_index (fun _ => rfl) sound_cycPorts (by decide) (by decide) (by decide),
    .of_index (fun _ => rfl) sound_cycPorts (by decide) b.isLt (by decide)⟩

/-- Settles O7: each of the twelve commands is a write of its family's control word, which a free port latches and a busy one
answers with ST_BUSY. -/
theorem entryPortsTake : Obligations.EntryPortsTake := by
  intro who i j b k s p c v hm ho
  obtain ⟨he, hp, hv⟩ := portCommands who i j b k (p, c, v) hm
  rw [he, gate_open ho.1 ho.2]
  refine ⟨fun h => ⟨_, rfl, portTaken_of_free hp h hv⟩, fun d hd => ?_⟩
  have hw := WordsOnly.portResult p who ST.busy s
  rw [opPortCtrl_busy hd]
  exact ⟨_, rfl, (hw.portCmd p who).trans hd, fld_portResult p who (by decide) s, hw.words, hw.memsSame⟩

end Sys2Proof.Machine
end

section
/-! SUPPORT. The completion of one port command, and the words of a reader's window (R61 to R63). -/
namespace Sys2Proof.Machine

variable {s t u : State} {p : PortFam} {r : Reader} {c : PortCmd}

/-! A window filled. -/

theorem word_foldl_window (p : PortFam) (r : Reader) (ws : List Word) (k j : Nat) (s : State) :
    ((ws.zipIdx k).foldl (fun s e => s.setWord (copyOff r (p.win + 4 * e.2)) e.1) s).word (copyOff r (p.win + 4 * j)) =
      if k ≤ j ∧ j < k + ws.length then ws.getD (j - k) 0 else s.word (copyOff r (p.win + 4 * j)) := by
  induction ws generalizing k s with
  | nil => simp
  | cons w ws ih =>
    rw [List.zipIdx_cons, List.foldl_cons, ih (k + 1)]
    by_cases hj : j = k
    · subst hj
      simp
    · have hne : copyOff r (p.win + 4 * j) ≠ copyOff r (p.win + 4 * k) := by unfold copyOff; omega
      rw [State.word_setWord_ne _ _ hne]
      by_cases hk : k + 1 ≤ j ∧ j < k + 1 + ws.length
      · have hs : j - k = (j - (k + 1)) + 1 := by omega
        rw [if_pos hk, if_pos (by rw [List.length_cons]; omega), hs, List.getD_cons_succ]
      · rw [if_neg hk, if_neg (by rw [List.length_cons]; omega)]

/-- A word of a window filled. -/
theorem word_setPortWindow (p : PortFam) (r : Reader) {ws : List Word} {j : Nat} (h : j < ws.length) (s : State) :
    (setPortWindow p r ws s).word (copyOff r (p.win + 4 * j)) = ws.getD j 0 := by
  rw [setPortWindow, word_foldl_window, if_pos ⟨Nat.zero_le _, by omega⟩, Nat.sub_zero]

/-- A fold of steps that each change words of the list alone does. -/
theorem WordsOnly.foldl {α : Type} {ks : List Nat} {f : State → α → State} {l : List α}
    (hf : ∀ s, ∀ a ∈ l, WordsOnly ks s (f s a)) (s : State) : WordsOnly ks s (l.foldl f s) := by
  induction l generalizing s with
  | nil => exact .refl ks s
  | cons a l ih => exact (hf s a List.mem_cons_self).trans (ih (fun s b hb => hf s b (List.mem_cons_of_mem _ hb)) _)

theorem WordsOnly.setPortWindow (p : PortFam) (r : Reader) (ws : List Word) (s : State) :
    WordsOnly (ws.zipIdx.map fun e => copyOff r (p.win + 4 * e.2)) s (Machine.setPortWindow p r ws s) :=
  .foldl (fun s e he => (WordsOnly.setWord _ e.1 s).mono
    (List.cons_subset.2 ⟨List.mem_map_of_mem he, List.nil_subset _⟩)) s

theorem WordsOnly.tt {ks : List Nat} (h : WordsOnly ks s t) : t.tt = s.tt := (congrArg State.tt h.rest :)

theorem WordsOnly.sieve {ks : List Nat} (h : WordsOnly ks s t) : t.sieve = s.sieve := (congrArg State.sieve h.rest :)

theorem WordsOnly.sky {ks : List Nat} (h : WordsOnly ks s t) : t.sky = s.sky := (congrArg State.sky h.rest :)

theorem WordsOnly.bcn {ks : List Nat} (h : WordsOnly ks s t) : t.bcn = s.bcn := (congrArg State.bcn h.rest :)

/-! The end of a command. -/

/-- A port's command ends with its RESULT. -/
def portDone (p : PortFam) (r : Reader) (res : Nat) (u : State) : State := setPortCmd p r none (portResult p r res u)

@[simp] theorem tt_setPortCmd (p : PortFam) (r : Reader) (c : Option PortCmd) (s : State) :
    (setPortCmd p r c s).tt = s.tt := rfl

@[simp] theorem sieve_setPortCmd (p : PortFam) (r : Reader) (c : Option PortCmd) (s : State) :
    (setPortCmd p r c s).sieve = s.sieve := rfl

@[simp] theorem sky_setPortCmd (p : PortFam) (r : Reader) (c : Option PortCmd) (s : State) :
    (setPortCmd p r c s).sky = s.sky := rfl

@[simp] theorem bcn_setPortCmd (p : PortFam) (r : Reader) (c : Option PortCmd) (s : State) :
    (setPortCmd p r c s).bcn = s.bcn := rfl

@[simp] theorem tt_portDone (res : Nat) : (portDone p r res u).tt = u.tt := by
  rw [portDone, tt_setPortCmd, (WordsOnly.portResult p r res u).tt]

@[simp] theorem sieve_portDone (res : Nat) : (portDone p r res u).sieve = u.sieve := by
  rw [portDone, sieve_setPortCmd, (WordsOnly.portResult p r res u).sieve]

@[simp] theorem sky_portDone (res : Nat) : (portDone p r res u).sky = u.sky := by
  rw [portDone, sky_setPortCmd, (WordsOnly.portResult p r res u).sky]

@[simp] theorem bcn_portDone (res : Nat) : (portDone p r res u).bcn = u.bcn := by
  rw [portDone, bcn_setPortCmd, (WordsOnly.portResult p r res u).bcn]

theorem word_setPortCmd (p : PortFam) (r : Reader) (c : Option PortCmd) (s : State) (k : Nat) :
    (setPortCmd p r c s).word k = s.word k := rfl

theorem memsSame_setPortCmd (p : PortFam) (r : Reader) (c : Option PortCmd) (s : State) : MemsSame s (setPortCmd p r c s) :=
  ⟨rfl, rfl, rfl, rfl⟩

theorem memsSame_portDone (p : PortFam) (r : Reader) (res : Nat) (u : State) : MemsSame u (portDone p r res u) :=
  (WordsOnly.portResult p r res u).memsSame.trans (memsSame_setPortCmd p r none _)

theorem word_portDone {k : Nat} (h : k ≠ copyOff r p.ctrl) (res : Nat) : (portDone p r res u).word k = u.word k := by
  rw [portDone, word_setPortCmd, (WordsOnly.portResult p r res u).words k (by simpa using h)]

/-- A window filled stands when the command has ended. -/
theorem window_portDone (hp : p.Sound) {ws : List Word} (hw : p.words = ws.length) (res : Nat) :
    ∀ n < p.words, (portDone p r res (setPortWindow p r ws s)).word (copyOff r (p.win + 4 * n)) = ws.getD n 0 :=
  fun n hn => by rw [word_portDone (hp.window_ne r n), word_setPortWindow p r (hw ▸ hn)]

theorem portEnded_portDone {res : Nat} (h : res < 256) : PortEnded p r res (portDone p r res u) := by
  refine ⟨portCmd_setPortCmd p r none _, ?_, ?_⟩
  · rw [portBusy, portDone, portCmd_setPortCmd]
  · rw [portDone, State.fld, word_setPortCmd]
    exact fld_portResult p r h u

/-- The single command that is due completes with its effect. -/
theorem portsComplete_single (h : portsDue p s = [(r, c)]) (f : Reader → PortCmd → State → Nat × State) :
    portsComplete p f s = portDone p r (f r c s).1 (f r c s).2 := by
  simp [portsComplete, h, portDone]

/-- A completion from the effect of its command. -/
theorem portDone_exists {x : Instr} {f : Reader → PortCmd → State → Nat × State} {res : Nat} {post : State → Prop}
    (hx : exec x s = .next (portsComplete p f s)) (hd : portsDue p s = [(r, c)]) (hf : f r c s = (res, u)) (hr : res < 256)
    (hm : MemsSame s u) (hp : post (portDone p r res u)) :
    ∃ t, exec x s = .next t ∧ PortEnded p r res t ∧ MemsSame s t ∧ post t := by
  rw [hx, portsComplete_single hd, hf]
  exact ⟨_, rfl, portEnded_portDone hr, hm.trans (memsSame_portDone p r res u), hp⟩

theorem MemsSame.refl (s : State) : MemsSame s s := ⟨rfl, rfl, rfl, rfl⟩

end Sys2Proof.Machine
end

section
/-! PROOFS. O8: what a port command does when it completes (R49, R61, R63, R189, R201, R262, R265, R361). -/
namespace Sys2Proof.Machine

variable {s t u : State} {r : Reader} {c : PortCmd}

/-! The timetable's ports (R49, R61). -/

@[simp] theorem ttEntry_setTt (s : State) (i : Nat) (e : TtEntry) : ttEntry (setTt s i e) i = e := by simp [ttEntry, setTt]

/-- An entry replaced: the table and TT_STATUS alone. -/
theorem WordsOnly.setTt (s : State) (i : Nat) (e : TtEntry) :
    WordsOnly [R.TT_STATUS] { s with tt := Sparse.put (fun _ => {}) s.tt i e } (Machine.setTt s i e) :=
  WordsOnly.setFld F.TT_STATUS_ARMED_CNT _ _

theorem memsSame_setTt (s : State) (i : Nat) (e : TtEntry) : MemsSame s (setTt s i e) :=
  MemsSame.trans ⟨rfl, rfl, rfl, rfl⟩ (WordsOnly.setTt s i e).memsSame

theorem memsSame_ttDetach (i : Nat) (s : State) : MemsSame s (ttDetach i s) := ⟨rfl, rfl, rfl, rfl⟩

theorem ttPortDo_read (h : bitsOf c.ctrl 13 12 = 1) :
    ttPortDo r c s = (ST.ok, setPortWindow ttPorts r (ttEntry s (c.ctrl % 4096)).words s) := by simp [ttPortDo, h]

theorem ttPortDo_write {e : TtEntry} (h : bitsOf c.ctrl 13 12 = 2) (he : ttEntryOf c.window = some e) :
    ttPortDo r c s =
      (ST.ok, setTt (ttDetach (c.ctrl % 4096) s) (c.ctrl % 4096) { e with changed := some s.tick }) := by
  simp [ttPortDo, h, he]

theorem ttPortDo_refused (h : bitsOf c.ctrl 13 12 = 2) (he : ttEntryOf c.window = none) :
    ttPortDo r c s = (ST.format, s) := by simp [ttPortDo, h, he]

theorem ttPortDo_disarm (h : bitsOf c.ctrl 13 12 = 3) :
    ttPortDo r c s = (ST.ok, setTt s (c.ctrl % 4096)
      { ttEntry s (c.ctrl % 4096) with armed := false, changed := some s.tick }) := by simp [ttPortDo, h]

theorem ttEntry_portDone (p : PortFam) (res i : Nat) : ttEntry (portDone p r res u) i = ttEntry u i := by
  rw [ttEntry, ttEntry, tt_portDone]

/-! The Sieve's ports (R189, R201). -/

theorem sievePortDo_read (h : bitsOf c.ctrl 13 12 = 1) :
    sievePortDo r c s = (ST.ok, setPortWindow sievePorts r (planEntry s (c.ctrl % 128)).words s) := by simp [sievePortDo, h]

theorem sievePortDo_write (h : bitsOf c.ctrl 13 12 = 2) (hi : c.ctrl % 128 < 64) (hq : sieveReqOk (c.window.take 8) s = true) :
    sievePortDo r c s = (ST.ok, sieveStore (c.ctrl % 128) (c.window.take 8) s) := by
  simp [sievePortDo, h, Nat.not_le.2 hi, hq]

theorem sievePortDo_refused (h : bitsOf c.ctrl 13 12 = 2) (hi : c.ctrl % 128 < 64)
    (hq : sieveReqOk (c.window.take 8) s = false) : sievePortDo r c s = (ST.format, s) := by
  simp [sievePortDo, h, Nat.not_le.2 hi, hq]

theorem sievePortDo_disarm (h : bitsOf c.ctrl 13 12 = 3) (ha : (planEntry s (c.ctrl % 128)).armed = true) :
    sievePortDo r c s = (ST.ok, sieveDone (c.ctrl % 128) ST.abort s) := by simp [sievePortDo, h, ha]

@[simp] theorem planEntry_setPlan (s : State) (i : Nat) (e : PlanEntry) : planEntry (setPlan s i e) i = e := by
  simp [planEntry, setPlan]

theorem planEntry_portDone (p : PortFam) (res i : Nat) : planEntry (portDone p r res u) i = planEntry u i := by
  rw [planEntry, planEntry, sieve_portDone]

theorem length_planWords (e : PlanEntry) : e.words.length = 16 := by simp [PlanEntry.words]

/-- Bit 31 of a request's word 0 is ARMED, of the first eight words of a window as of the whole. -/
theorem armed_take (w : List Word) : ({ req := w.take 8 } : PlanEntry).armed = (winWord w 0).testBit 31 := by
  cases w <;> rfl

/-- A request stored: its words, and queued where it is armed (R201). -/
theorem planEntry_sieveStore (i : Nat) (w : List Word) (s : State) :
    (planEntry (sieveStore i w s) i).req = w ∧
      (planEntry (sieveStore i w s) i).state = if ({ req := w } : PlanEntry).armed then 1 else 0 := by
  unfold sieveStore
  dsimp only
  rw [planEntry_setPlan]
  exact ⟨rfl, rfl⟩

theorem WordsOnly.planEntry {ks : List Nat} (h : WordsOnly ks s t) (i : Nat) : Machine.planEntry t i = Machine.planEntry s i := by
  rw [Machine.planEntry, Machine.planEntry, h.sieve]

theorem memsSame_sieveStore (i : Nat) (w : List Word) (s : State) : MemsSame s (sieveStore i w s) := ⟨rfl, rfl, rfl, rfl⟩

/-- An entry that completes is disarmed and DONE (R197). -/
theorem planEntry_sieveDone (i res : Nat) (s : State) :
    (planEntry (sieveDone i res s) i).armed = false ∧ (planEntry (sieveDone i res s) i).state = 6 ∧
      (planEntry (sieveDone i res s) i).result = res := by
  unfold sieveDone
  dsimp only
  rw [(WordsOnly.raise 64 _).planEntry, planEntry_setPlan]
  refine ⟨?_, rfl, rfl⟩
  have hlt : winWord (planEntry s i).req 0 % 2 ^ 31 < 2 ^ 31 := Nat.mod_lt _ (by decide)
  have hw : (BitVec.ofNat 32 (winWord (planEntry s i).req 0 % 2 ^ 31)).toNat.testBit 31 = false := by
    rw [BitVec.toNat_ofNat, Nat.mod_eq_of_lt (hlt.trans (by decide))]
    exact Nat.testBit_lt_two_pow hlt
  simpa [PlanEntry.armed, PlanEntry.flag, winWord] using hw

theorem memsSame_sieveDone (i res : Nat) (s : State) : MemsSame s (sieveDone i res s) :=
  MemsSame.trans ⟨rfl, rfl, rfl, rfl⟩ (WordsOnly.raise 64 (setPlan s i _)).memsSame

/-- The end of a command on a Sieve port leaves EV_064 pending. -/
theorem eventUp_sievePortDone (h : EventUp 64 u) (res : Nat) : EventUp 64 (portDone sievePorts r res u) := by
  have key (x : Reader) : copyOff x (R.EV_PEND (64 / 32)) ≠ copyOff r sievePorts.ctrl := fun he =>
    absurd (copyOff_inj he (by decide) (by decide)).2 (by decide)
  rwa [EventUp, State.maskBit, State.maskBit, word_portDone (key _), word_portDone (key _)]

/-! The sky table's ports (R262, R265). -/

theorem skyPortDo_read (h : bitsOf c.ctrl 13 12 = 1) (hi : c.ctrl % 256 ≤ 220) (hb : c.ctrl.testBit 15 = false) :
    skyPortDo r c s = (ST.ok, setPortWindow skyPorts r (bytesWords 64 (skySlot s (c.ctrl % 256))) s) := by
  simp only [skyPortDo, h, hb, if_neg (Nat.not_lt.2 hi), Bool.false_eq_true, if_false]

theorem skyPortDo_write (h : bitsOf c.ctrl 13 12 = 2) (ho : slotOk (c.ctrl % 256) (wordBytes c.window) = true) :
    skyPortDo r c s = (ST.ok, setPending s (c.ctrl % 256) (slotStored (wordBytes c.window))) := by
  simp [skyPortDo, h, skyWrite, ho]

theorem skyPortDo_refused (h : bitsOf c.ctrl 13 12 = 2) (ho : slotOk (c.ctrl % 256) (wordBytes c.window) = false) :
    skyPortDo r c s = (ST.format, s) := by simp [skyPortDo, h, skyWrite, ho]

theorem skyPortDo_clear (h : bitsOf c.ctrl 13 12 = 3) (hi : c.ctrl % 256 ≤ 220) :
    skyPortDo r c s = (ST.ok, setPending s (c.ctrl % 256) emptySlot) := by simp [skyPortDo, h, Nat.not_lt.2 hi]

theorem skyPortDo_clear_refused (h : bitsOf c.ctrl 13 12 = 3) (hi : 220 < c.ctrl % 256) :
    skyPortDo r c s = (ST.format, s) := by simp [skyPortDo, h, hi]

theorem length_bytesWords (n : Nat) (bs : List Byte) : (bytesWords n bs).length = n := by
  induction n generalizing bs with
  | zero => rfl
  | succ n ih => simp [bytesWords, ih]

theorem skyPending_portDone (p : PortFam) (res i : Nat) : skyPending (portDone p r res u) i = skyPending u i := by
  rw [skyPending, skyPending, sky_portDone]

@[simp] theorem skyPending_setPending (s : State) (i : Nat) (b : List Byte) : skyPending (setPending s i b) i = b := by
  simp [skyPending, setPending]

@[simp] theorem cur_setPending (s : State) (i : Nat) (b : List Byte) : (setPending s i b).sky.cur = s.sky.cur := rfl

theorem memsSame_setPending (s : State) (i : Nat) (b : List Byte) : MemsSame s (setPending s i b) := ⟨rfl, rfl, rfl, rfl⟩

/-! The beacon cycle table's ports (R361). -/

theorem mirrorNote_rest (kind idx : Nat) (s : State) :
    mirrorNote kind idx s = { s with links := (mirrorNote kind idx s).links } := by
  unfold mirrorNote
  generalize mirrorPorts kind s = l
  induction l generalizing s with
  | nil => rfl
  | cons p l ih =>
    rw [List.foldl_cons]
    dsimp only
    split
    · exact ih s
    · exact (ih _).trans rfl

theorem memsSame_setCyc (s : State) (i : Nat) (b : List Byte) : MemsSame s (setCyc s i b) := by
  rw [setCyc, mirrorNote_rest]
  exact ⟨rfl, rfl, rfl, rfl⟩

theorem cycRec_setCyc (s : State) (i : Nat) (b : List Byte) : cycRec (setCyc s i b) i = b := by
  rw [setCyc, mirrorNote_rest]
  simp [cycRec]

theorem cycRec_portDone (p : PortFam) (res i : Nat) : cycRec (portDone p r res u) i = cycRec u i := by
  rw [cycRec, cycRec, bcn_portDone]

theorem cycPortDo_write (h : bitsOf c.ctrl 9 8 = 2) (ho : cycOk (wordBytes c.window) = true) :
    cycPortDo r c s = (ST.ok, setCyc s (leAt (wordBytes c.window) 0 4 % 256) (wordBytes c.window)) := by
  rw [wordBytes, List.flatMap_def] at *
  simp [cycPortDo, h, cycWrite, ho]

theorem cycPortDo_refused (h : bitsOf c.ctrl 9 8 = 2) (ho : cycOk (wordBytes c.window) = false) :
    cycPortDo r c s = (ST.format, s) := by
  rw [wordBytes, List.flatMap_def] at ho
  simp [cycPortDo, h, cycWrite, ho]

theorem cycPortDo_invalidate (h : bitsOf c.ctrl 9 8 = 3) :
    cycPortDo r c s = (ST.ok, setCyc s (c.ctrl % 256) (putAt (cycRec s (c.ctrl % 256)) 8 [0])) := by
  simp [cycPortDo, h, cycInvalidate]

/-- Settles O8: each completion is the effect of its command, by the equation of the family's `…PortDo`, and the end of the command
on its port. -/
theorem entryPortsComplete : Obligations.EntryPortsComplete := by
  intro r c s
  refine ⟨fun hd => ⟨fun h => ?_, fun e h he => ?_, fun h he => ?_, fun h => ?_⟩,
    fun hd => ⟨fun h => ?_, fun h hi hq => ?_, fun h hi hq => ?_, fun h ha => ?_⟩,
    fun hd => ⟨fun h hi hb => ?_, fun h ho => ?_, fun h ho => ?_, fun h hi => ?_, fun h hi => ?_⟩,
    fun hd => ⟨fun h ho => ?_, fun h ho => ?_, fun h => ?_⟩⟩
  · have hw := WordsOnly.setPortWindow ttPorts r (ttEntry s (c.ctrl % 4096)).words s
    refine portDone_exists rfl hd (ttPortDo_read h) (by decide) hw.memsSame ⟨window_portDone sound_ttPorts rfl _, ?_⟩
    rw [tt_portDone, hw.tt]
  · refine portDone_exists rfl hd (ttPortDo_write h he) (by decide)
      ((memsSame_ttDetach _ s).trans (memsSame_setTt _ _ _)) ?_
    rw [ttEntry_portDone, ttEntry_setTt]
  · exact portDone_exists rfl hd (ttPortDo_refused h he) (by decide) (.refl s) (tt_portDone _)
  · refine portDone_exists rfl hd (ttPortDo_disarm h) (by decide) (memsSame_setTt _ _ _) ?_
    rw [ttEntry_portDone, ttEntry_setTt]
  · have hw := WordsOnly.setPortWindow sievePorts r (planEntry s (c.ctrl % 128)).words s
    refine portDone_exists rfl hd (sievePortDo_read h) (by decide) hw.memsSame
      ⟨window_portDone sound_sievePorts (length_planWords _).symm _, ?_⟩
    rw [sieve_portDone, hw.sieve]
  · refine portDone_exists rfl hd (sievePortDo_write h hi hq) (by decide) (memsSame_sieveStore _ _ s) ?_
    rw [planEntry_portDone, ← armed_take]
    exact planEntry_sieveStore _ _ s
  · exact portDone_exists rfl hd (sievePortDo_refused h hi hq) (by decide) (.refl s) (sieve_portDone _)
  · refine portDone_exists rfl hd (sievePortDo_disarm h ha) (by decide) (memsSame_sieveDone _ _ s) ?_
    obtain ⟨h1, h2, h3⟩ := planEntry_sieveDone (c.ctrl % 128) ST.abort s
    rw [planEntry_portDone]
    exact ⟨h1, h2, h3, eventUp_sievePortDone (.raise_self 64 _) _⟩
  · have hw := WordsOnly.setPortWindow skyPorts r (bytesWords 64 (skySlot s (c.ctrl % 256))) s
    refine portDone_exists rfl hd (skyPortDo_read h hi hb) (by decide) hw.memsSame
      ⟨window_portDone sound_skyPorts (length_bytesWords 64 _).symm _, ?_⟩
    rw [sky_portDone, hw.sky]
  · refine portDone_exists rfl hd (skyPortDo_write h ho) (by decide) (memsSame_setPending s _ _) ?_
    rw [skyPending_portDone, sky_portDone]
    exact ⟨skyPending_setPending s _ _, cur_setPending s _ _⟩
  · exact portDone_exists rfl hd (skyPortDo_refused h ho) (by decide) (.refl s) (sky_portDone _)
  · refine portDone_exists rfl hd (skyPortDo_clear h hi) (by decide) (memsSame_setPending s _ _) ?_
    rw [skyPending_portDone, sky_portDone]
    exact ⟨skyPending_setPending s _ _, cur_setPending s _ _⟩
  · exact portDone_exists rfl hd (skyPortDo_clear_refused h hi) (by decide) (.refl s) (sky_portDone _)
  · refine portDone_exists rfl hd (cycPortDo_write h ho) (by decide) (memsSame_setCyc s _ _) ?_
    rw [cycRec_portDone, cycRec_setCyc]
  · exact portDone_exists rfl hd (cycPortDo_refused h ho) (by decide) (.refl s) (bcn_portDone _)
  · refine portDone_exists rfl hd (cycPortDo_invalidate h) (by decide) (memsSame_setCyc s _ _) ?_
    rw [cycRec_portDone, cycRec_setCyc]

end Sys2Proof.Machine
end

section
/-! SUPPORT. A frame by fields: fields of BAR 0 words, the memories, the timebase and the model's clock stand as they were, and the
events that were pending are. -/
namespace Sys2Proof.Machine

variable {K : List Fld} {s t u : State} {ks : List Nat}

/-- What is said of a state is also true after an operation: the fields of the list, the memories, the clock, pending events. -/
structure Keeps (K : List Fld) (s t : State) : Prop where
  flds : ∀ f ∈ K, t.fld f = s.fld f
  events : ∀ n, EventUp n s → EventUp n t
  mems : MemsSame s t
  tick : t.tick = s.tick
  tb : t.tb = s.tb

/-- All bits of a word. -/
abbrev wholeWord (k : Nat) : Fld := ⟨k, 31, 0⟩

/-- A write of the field `f` leaves the fields of the list. -/
abbrev Fld.spares (f : Fld) (K : List Fld) : Prop :=
  f.lo ≤ f.hi ∧ f.hi < 32 ∧ f.off < 0x1000000 ∧ ∀ g ∈ K, g.off ≠ f.off ∨ g.hi < f.lo ∨ f.hi < g.lo

/-- No event changes a word of the list's fields. -/
abbrev plainFlds (K : List Fld) : Prop := ∀ f ∈ K, plainKey f.off

theorem Keeps.refl (K : List Fld) (s : State) : Keeps K s s := ⟨fun _ _ => rfl, fun _ h => h, .refl s, rfl, rfl⟩

theorem Keeps.trans (h : Keeps K s t) (k : Keeps K t u) : Keeps K s u :=
  ⟨fun f hf => (k.flds f hf).trans (h.flds f hf), fun n hn => k.events n (h.events n hn), h.mems.trans k.mems,
    k.tick.trans h.tick, k.tb.trans h.tb⟩

theorem Keeps.ite {c : Prop} [Decidable c] (ht : Keeps K s t) (hu : Keeps K s u) : Keeps K s (if c then t else u) := by
  split <;> assumption

/-- A fold of steps that each keep the list does. -/
theorem Keeps.foldl {α : Type} {f : State → α → State} {l : List α} (hf : ∀ s, ∀ a ∈ l, Keeps K s (f s a)) (s : State) :
    Keeps K s (l.foldl f s) := by
  induction l generalizing s with
  | nil => exact .refl K s
  | cons a l ih => exact (hf s a List.mem_cons_self).trans (ih (fun s b hb => hf s b (List.mem_cons_of_mem _ hb)) _)

theorem Keeps.word (h : Keeps K s t) {k : Nat} (hk : wholeWord k ∈ K) : t.word k = s.word k := by
  have hf := h.flds _ hk
  simp only [State.fld, bitsOf, Nat.pow_zero, Nat.div_one] at hf
  apply BitVec.eq_of_toNat_eq
  rwa [Nat.mod_eq_of_lt (t.word k).isLt, Nat.mod_eq_of_lt (s.word k).isLt] at hf

theorem EventUp.of_regs (h : t.regs = s.regs) {n : Nat} (he : EventUp n s) : EventUp n t := by
  unfold EventUp State.maskBit State.word at *
  rwa [h]

/-- What leaves the register file, the memories and the clock alone. -/
theorem Keeps.of_regs (h : t.regs = s.regs := by rfl) (h1 : t.mem = s.mem := by rfl) (h2 : t.ram = s.ram := by rfl)
    (h3 : t.hostMem = s.hostMem := by rfl) (h4 : t.flash = s.flash := by rfl) (h5 : t.tick = s.tick := by rfl)
    (h6 : t.tb = s.tb := by rfl) : Keeps K s t :=
  ⟨fun f _ => by rw [State.fld, State.word, h]; rfl, fun _ hn => hn.of_regs h, ⟨h1, h2, h3, h4⟩, h5, h6⟩

/-- What changes other words of BAR 0 alone. -/
theorem WordsOnly.keeps (h : WordsOnly ks s t) (hf : ∀ f ∈ K, t.fld f = s.fld f) (hk : ∀ k ∈ ks, k < 0x1000000) : Keeps K s t :=
  ⟨hf, fun _ hn => hn.of_words h.words hk, h.memsSame, (congrArg State.tick h.rest :), (congrArg State.tb h.rest :)⟩

theorem Keeps.setFld (f : Fld) (v : Nat) (s : State) (h : f.spares K) : Keeps K s (s.setFld f v) := by
  obtain ⟨hl, hh, ho, hg⟩ := h
  exact (WordsOnly.setFld f v s).keeps (fun g hm => State.fld_setFld_ne s f g v hl hh (hg g hm)) (by simpa using ho)

theorem Keeps.setBit (f : Fld) (b : Bool) (s : State) (h : f.spares K) : Keeps K s (s.setBit f b) := .setFld f _ s h

theorem Keeps.setWord (off : Nat) (w : Word) (s : State) (h : off < 0x1000000 ∧ ∀ g ∈ K, g.off ≠ off) :
    Keeps K s (s.setWord off w) :=
  (WordsOnly.setWord off w s).keeps (fun g hm => by rw [State.fld, State.word_setWord_ne s w (h.2 g hm), State.fld])
    (by simpa using h.1)

theorem Keeps.raise (hK : plainFlds K) (n : Nat) (s : State) : Keeps K s (Machine.raise n s) := by
  have hw := WordsOnly.raise n s
  exact ⟨fun f hf => fld_raise (hK f hf) n s, fun _ hn => hn.raise n, hw.memsSame, (congrArg State.tick hw.rest :),
    (congrArg State.tb hw.rest :)⟩

theorem Keeps.flagEvent (hK : plainFlds K) (f : Fld) (n : Nat) (s : State) (h : f.spares K) :
    Keeps K s (Machine.flagEvent f n s) := by
  unfold Machine.flagEvent
  exact .ite (.refl K s) ((Keeps.setFld f 1 s h).trans (.raise hK n _))

theorem Keeps.emit (o : Output) (s : State) : Keeps K s (s.emit o) := .of_regs

end Sys2Proof.Machine
end

section
/-! SUPPORT. What a step of the timebase leaves of TB_STATUS and the leap registers (R40, R44, R59, R163, R303, R526, R585). -/
namespace Sys2Proof.Machine

variable {s t : State}

/-- The words of the timebase that a step's statements speak of. -/
def stepFlds : List Fld := [wholeWord R.TB_STATUS, wholeWord R.TB_LEAP, wholeWord R.TB_LEAP_AT]

/-- What the parts of a step that only follow the timebase's move keep. -/
abbrev StepKeeps (s t : State) : Prop := Keeps stepFlds s t

theorem plainFlds_stepFlds : plainFlds stepFlds := by decide

/-! Pulse edges (R291, R292, R585). -/

theorem spares_suppCnt {n : Nat} (h : n < 2) : (F.TP_STAT_SUPP_CNT n).spares stepFlds := by interval_cases n <;> decide

theorem spares_pulses {n : Nat} (h : n < 2) : (F.TP_STAT_PULSES n).spares stepFlds := by interval_cases n <;> decide

theorem Keeps.setTp (n : Nat) (p : PulseOut) (s : State) : StepKeeps s (Machine.setTp s n p) := .of_regs

theorem Keeps.tpSuppress {n : Nat} (h : n < 2) (s : State) : StepKeeps s (Machine.tpSuppress n s) :=
  ((Keeps.setFld _ _ s (spares_suppCnt h)).trans (.setFld F.TP_STATUS_SUPPRESSED 1 _ (by decide))).trans
    (.raise plainFlds_stepFlds 90 _)

theorem Keeps.edgeLeaves {n : Nat} (h : n < 2) (e : Edge) (s : State) : StepKeeps s (Machine.edgeLeaves n e s) := by
  unfold Machine.edgeLeaves
  extract_lets p s₁ w m a near s₂ g q s₃ s₄
  have h₁ : StepKeeps s s₁ := .setTp _ _ s
  have h₂ : StepKeeps s s₂ := .ite (h₁.trans (.tpSuppress h s₁)) h₁
  have h₄ : StepKeeps s s₄ := (h₁.trans (.setTp _ _ s₁)).trans (.setFld _ _ s₃ (spares_pulses h))
  have hc : StepKeeps s (Machine.raise 93 (s₂.setFld F.TP_STATUS_CFG_ERR 1)) :=
    (h₂.trans (.setFld F.TP_STATUS_CFG_ERR 1 s₂ (by decide))).trans (.raise plainFlds_stepFlds 93 _)
  exact .ite h₁ (.ite (.ite hc h₂) (.ite (h₄.trans (.emit _ s₄)) h₄))

theorem Keeps.edgesDue (a : Nat) (s : State) : StepKeeps s (Machine.edgesDue a s) :=
  .foldl (fun _ n hn => .foldl (fun s e _ => .edgeLeaves (by simp at hn; omega) e s) _) s

theorem Keeps.edgesPassed (a b : Nat) (s : State) : StepKeeps s (Machine.edgesPassed a b s) := by
  refine .foldl (fun _ n hn => .foldl (fun s e _ => ?_) _) s
  have h₁ : StepKeeps s _ := .setTp n { tpOut s n with armed := (tpOut s n).armed.erase e } s
  exact .ite h₁ (h₁.trans (.tpSuppress (by simp at hn; omega) _))

/-! The discipline, TSYN's count, the rings and the timetable. -/

theorem Keeps.ofsSync (s : State) : StepKeeps s (Machine.ofsSync s) := by
  unfold Machine.ofsSync
  extract_lets d s₁
  have h₁ : StepKeeps s s₁ := .of_regs
  exact (h₁.trans (.setWord R.TP_OFFSET_LO _ s₁ (by decide))).trans (.setWord R.TP_OFFSET_HI _ _ (by decide))

theorem Keeps.discStep (amount : Int) (s : State) : StepKeeps s (Machine.discStep amount s) := by
  unfold Machine.discStep
  extract_lets d ours s₁
  have h₁ : StepKeeps s s₁ := .of_regs
  exact (Keeps.ite (h₁.trans (.setFld F.TP_STATUS_STEP_PENDING 0 s₁ (by decide))) h₁).trans (.ofsSync _)

theorem Keeps.holdShift (amount : Int) (s : State) : StepKeeps s (Machine.holdShift amount s) := by
  unfold Machine.holdShift
  exact .ite .of_regs (.refl _ s)

theorem Keeps.ringsStepped (a b : Nat) (s : State) : StepKeeps s (Machine.ringsStepped a b s) :=
  .foldl (fun _ _ _ => .of_regs) s

theorem Keeps.ttStepped (forward : Bool) (s : State) : StepKeeps s (Machine.ttStepped forward s) := .of_regs

/-! Keys and the debug session. -/

theorem Keeps.setBcn (b : Beacon) (s : State) : StepKeeps s { s with bcn := b } := .of_regs

theorem Keeps.keyCheck (s : State) : StepKeeps s (Machine.keyCheck false s) := by
  unfold Machine.keyCheck
  extract_lets i s₁ above
  have h₁ : StepKeeps s s₁ := by
    refine .foldl (fun s k _ => ?_) s
    split
    · exact .ite (.setBcn _ s) (.refl _ s)
    · exact .refl _ s
  exact .ite (.refl _ s) (.ite (.ite h₁ ((h₁.trans (.setBcn _ s₁)).trans (.raise plainFlds_stepFlds 111 _)))
    (.ite (h₁.trans (.setBcn _ s₁)) h₁))

theorem Keeps.dbgEnd (s : State) : StepKeeps s (Machine.dbgEnd s) := by
  unfold Machine.dbgEnd
  split
  · exact .refl _ s
  · have h₁ : StepKeeps s { s with dbg := none } := .of_regs
    exact ((((((h₁.trans (.setFld F.SEC_DBG_STAT_LEVEL 0 _ (by decide))).trans
      (.setFld F.SEC_DBG_STAT_SESSION 0 _ (by decide))).trans (.setFld F.SEC_DBG_CTRL_HOLD_AWAKE 0 _ (by decide))).trans
      (.setFld F.SEC_DBG_STAT_HOLD 0 _ (by decide))).trans (.setWord R.SEC_DBG_EXP_LO 0 _ (by decide))).trans
      (.setWord R.SEC_DBG_EXP_HI 0 _ (by decide))).trans (.raise plainFlds_stepFlds 127 _)

theorem Keeps.sessionCheck (s : State) : StepKeeps s (Machine.sessionCheck s) := by
  unfold Machine.sessionCheck
  split
  · exact .ite (.dbgEnd s) (.refl _ s)
  · exact .refl _ s

end Sys2Proof.Machine
end

section
/-! PROOFS. O4: the leap count takes effect (R43, R44). -/
namespace Sys2Proof.Machine

variable {s t : State}

/-- Whether NEXT is effective is read off the leap registers and the second. -/
theorem leapDue_congr (h1 : t.word R.TB_LEAP = s.word R.TB_LEAP) (h2 : t.word R.TB_LEAP_AT = s.word R.TB_LEAP_AT)
    (h3 : t.tb.sec = s.tb.sec) : leapDue t = leapDue s := by
  have hc : t.fld F.TB_LEAP_CUR = s.fld F.TB_LEAP_CUR := by rw [State.fld, State.fld, h1]
  have hn : t.fld F.TB_LEAP_NEXT = s.fld F.TB_LEAP_NEXT := by rw [State.fld, State.fld, h1]
  have ha : t.fld F.TB_LEAP_AT_AT_SEC = s.fld F.TB_LEAP_AT_AT_SEC := by rw [State.fld, State.fld, h2]
  have harm : leapArmed t = leapArmed s := by simp only [leapArmed, hc, hn]
  have hat : leapAt t = leapAt s := by simp only [leapAt, State.widen, ha, h3]
  rw [leapDue, leapDue, harm]
  cases leapArmed s with
  | none => rfl
  | some ins => exact decide_eq_decide.2 (by rw [leapInstant, leapInstant, hat, h3])

/-- The end of the second that a leap inserts, kept when the leap is taken (R43). -/
def leapEndTaken (s : State) : Option Nat := if leapArmed s == some true then some (leapAt s) else none

/-- The leap taken, before the mirrors follow: NEXT in CUR, and EV_009. -/
def leapTaken (s : State) : State :=
  raise 9 ({ s with tb := { s.tb with leapEnd := leapEndTaken s } }.setFld F.TB_LEAP_CUR (s.fld F.TB_LEAP_NEXT))

theorem leapTake_of_due (h : leapDue s = true) : leapTake s = mirrorNote 4 0 (leapTaken s) := by
  simp only [leapTake, h, if_true]
  rfl

theorem leapTake_of_not_due (h : leapDue s = false) : leapTake s = s := by simp [leapTake, h]

theorem WordsOnly.leapTaken (s : State) :
    WordsOnly (R.TB_LEAP :: evKeys 9) { s with tb := { s.tb with leapEnd := leapEndTaken s } } (Machine.leapTaken s) :=
  ((WordsOnly.setFld F.TB_LEAP_CUR _ _).mono (by simp)).trans ((WordsOnly.raise 9 _).mono (List.subset_cons_self _ _))

theorem fld_leapTaken (s : State) : (leapTaken s).fld F.TB_LEAP_CUR = s.fld F.TB_LEAP_NEXT ∧
    (leapTaken s).fld F.TB_LEAP_NEXT = s.fld F.TB_LEAP_NEXT := by
  have hlt : s.fld F.TB_LEAP_NEXT < 256 := bitsOf_lt _ _ _
  rw [leapTaken, fld_raise (by decide), fld_raise (by decide), State.fld_setFld _ _ _ (by decide) (by decide),
    State.fld_setFld_ne _ _ _ _ (by decide) (by decide) (by decide)]
  exact ⟨Nat.mod_eq_of_lt hlt, rfl⟩

theorem Keeps.setLinks {K : List Fld} (l : Sparse Link) (s : State) : Keeps K s { s with links := l } := .of_regs

/-- The mirrors that wait on the links are no words, memories or clocks. -/
theorem Keeps.mirrorNote {K : List Fld} (kind idx : Nat) (s : State) : Keeps K s (Machine.mirrorNote kind idx s) := by
  rw [mirrorNote_rest]
  exact .setLinks _ s

theorem word_mirrorNote (kind idx k : Nat) (s : State) : (mirrorNote kind idx s).word k = s.word k := by
  rw [mirrorNote_rest]
  rfl

/-- A leap that is due is taken (R44). -/
theorem leapTake_due (h : leapDue s = true) :
    (leapTake s).fld F.TB_LEAP_CUR = s.fld F.TB_LEAP_NEXT ∧ EventUp 9 (leapTake s) ∧
      (leapTake s).fld F.TB_LEAP_NEXT = s.fld F.TB_LEAP_NEXT ∧ RegsBut (R.TB_LEAP :: evKeys 9) s (leapTake s) ∧
      MemsSame s (leapTake s) ∧ (leapTake s).nowU = s.nowU ∧ (leapTake s).tick = s.tick := by
  have hw := WordsOnly.leapTaken s
  have hk : Keeps [F.TB_LEAP_CUR, F.TB_LEAP_NEXT] (leapTaken s) (mirrorNote 4 0 (leapTaken s)) := .mirrorNote 4 0 _
  obtain ⟨hc, hn⟩ := fld_leapTaken s
  have htb : (leapTaken s).tb = { s.tb with leapEnd := leapEndTaken s } := (congrArg State.tb hw.rest :)
  rw [leapTake_of_due h]
  refine ⟨(hk.flds _ (by simp)).trans hc, hk.events 9 (.raise_self 9 _), (hk.flds _ (by simp)).trans hn,
    fun k hm => (word_mirrorNote 4 0 k _).trans (hw.words k hm), MemsSame.trans hw.memsSame hk.mems, ?_,
    hk.tick.trans (congrArg State.tick hw.rest :)⟩
  rw [State.nowU, hk.tb, htb]
  rfl

theorem nowU_of_tb (h1 : t.tb.sec = s.tb.sec) (h2 : t.tb.phase = s.tb.phase) : t.nowU = s.nowU := by
  rw [State.nowU, State.nowU, h1, h2]

/-- The timebase stands, the end of an inserted second aside, TB_STATUS too, and events stay pending. -/
theorem leapTake_keeps (s : State) : (leapTake s).nowU = s.nowU ∧ (leapTake s).tb.step = s.tb.step ∧
    (leapTake s).word R.TB_STATUS = s.word R.TB_STATUS ∧ ∀ n, EventUp n s → EventUp n (leapTake s) := by
  cases h : leapDue s
  · rw [leapTake_of_not_due h]
    exact ⟨rfl, rfl, rfl, fun _ hn => hn⟩
  · obtain ⟨-, -, -, hr, -, hu, -⟩ := leapTake_due h
    have hw := WordsOnly.leapTaken s
    have hk : Keeps [] (leapTaken s) (mirrorNote 4 0 (leapTaken s)) := .mirrorNote 4 0 _
    refine ⟨hu, ?_, hr _ (by decide), fun n hn => ?_⟩
    · rw [leapTake_of_due h, hk.tb]
      exact (congrArg (fun u => u.tb.step) hw.rest :)
    · rw [leapTake_of_due h]
      refine hk.events n (EventUp.raise ?_ 9)
      have hn' : EventUp n { s with tb := { s.tb with leapEnd := leapEndTaken s } } := hn
      exact hn'.of_words (WordsOnly.setFld F.TB_LEAP_CUR _ _).words (by decide)

/-! A step up to the leap (R38, R40). -/

/-- The timebase after a step, in units. -/
abbrev steppedTo (amount : Int) (s : State) : Nat := (((s.nowU : Int) + amount) % (wrapUnits : Int)).toNat

/-- The timebase moved, with what is measured against it. -/
def stepMoved (amount : Int) (s : State) : State :=
  holdShift amount (discStep amount ((edgesDue (edgeNow s) s).setNowU (steppedTo amount s)))

/-- What follows the status of a step, up to the leap: EV_008, the edges passed over, the rings and the timetable. -/
def stepNoted (amount : Int) (s u : State) : State :=
  ttStepped (decide (0 < amount)) (ringsStepped s.nowU (steppedTo amount s)
    (edgesPassed (edgeNow s) ((edgeNow s : Int) + amount).toNat (raise 8 u)))

theorem stepBy_eq (amount : Int) (source : Nat) (s : State) :
    stepBy amount source s =
      sessionCheck (keyCheck false (leapTake (stepNoted amount s (stepStatus source (stepMoved amount s))))) := rfl

/-- The words stand, and the timebase has moved. -/
theorem stepMoved_spec (amount : Int) (s : State) :
    (stepMoved amount s).tb = (s.setNowU (steppedTo amount s)).tb ∧
      (stepMoved amount s).word R.TB_STATUS = s.word R.TB_STATUS ∧ (stepMoved amount s).word R.TB_LEAP = s.word R.TB_LEAP ∧
      (stepMoved amount s).word R.TB_LEAP_AT = s.word R.TB_LEAP_AT := by
  have hd := Keeps.edgesDue (edgeNow s) s
  have hm : StepKeeps ((edgesDue (edgeNow s) s).setNowU (steppedTo amount s)) (stepMoved amount s) :=
    (Keeps.discStep amount _).trans (.holdShift amount _)
  have hw {k : Nat} (hk : wholeWord k ∈ stepFlds) : (stepMoved amount s).word k = s.word k := (hm.word hk).trans (hd.word hk)
  refine ⟨?_, hw (by decide), hw (by decide), hw (by decide)⟩
  rw [hm.tb, State.setNowU, State.setNowU, hd.tb]

theorem Keeps.stepNoted (amount : Int) (s u : State) : StepKeeps u (Machine.stepNoted amount s u) :=
  (((Keeps.raise plainFlds_stepFlds 8 u).trans (.edgesPassed _ _ _)).trans (.ringsStepped _ _ _)).trans (.ttStepped _ _)

theorem eventUp_stepNoted (amount : Int) (s u : State) : EventUp 8 (stepNoted amount s u) :=
  (((Keeps.edgesPassed _ _ _).trans (.ringsStepped _ _ _)).trans (.ttStepped _ _)).events 8 (.raise_self 8 u)

/-- STEP_SEQ, SOURCE and VALID are in TB_STATUS (R40). -/
theorem WordsOnly.stepStatus (source : Nat) (s : State) : WordsOnly [R.TB_STATUS] s (Machine.stepStatus source s) := by
  have hq := WordsOnly.setFld F.TB_STATUS_STEP_SEQ (s.fld F.TB_STATUS_STEP_SEQ + 1) s
  unfold Machine.stepStatus
  dsimp only
  split
  · exact hq
  · exact (hq.trans (WordsOnly.setFld F.TB_STATUS_SOURCE source _)).trans (WordsOnly.setFld F.TB_STATUS_VALID 1 _)

/-- The state of a step before its leap: the timebase has moved, the leap registers stand. -/
def stepBeforeLeap (amount : Int) (source : Nat) (s : State) : State :=
  stepNoted amount s (stepStatus source (stepMoved amount s))

theorem stepBeforeLeap_spec (amount : Int) (source : Nat) (s : State) :
    let t := stepBeforeLeap amount source s
    t.tb = (s.setNowU (steppedTo amount s)).tb ∧ t.word R.TB_LEAP = s.word R.TB_LEAP ∧
      t.word R.TB_LEAP_AT = s.word R.TB_LEAP_AT ∧
      t.word R.TB_STATUS = (stepStatus source (stepMoved amount s)).word R.TB_STATUS ∧ EventUp 8 t := by
  obtain ⟨htb, -, hl, ha⟩ := stepMoved_spec amount s
  have hs := WordsOnly.stepStatus source (stepMoved amount s)
  have hn := Keeps.stepNoted amount s (stepStatus source (stepMoved amount s))
  have hstb : (stepStatus source (stepMoved amount s)).tb = (stepMoved amount s).tb := (congrArg State.tb hs.rest :)
  exact ⟨(hn.tb.trans hstb).trans htb, ((hn.word (by decide)).trans (hs.words _ (by decide))).trans hl,
    ((hn.word (by decide)).trans (hs.words _ (by decide))).trans ha, hn.word (by decide), eventUp_stepNoted _ _ _⟩

/-- What follows the leap keeps what a step's statements speak of. -/
theorem stepBy_keeps (amount : Int) (source : Nat) (s : State) :
    StepKeeps (leapTake (stepBeforeLeap amount source s)) (stepBy amount source s) := by
  rw [stepBy_eq]
  exact (Keeps.keyCheck _).trans (.sessionCheck _)

/-- An armed step that is due is applied. -/
theorem exec_stepApply_due {st : ArmedStep} (h : s.tb.step = some st) (hd : stepDue st s = true) :
    exec .stepApply s = .next (stepBy st.amount st.source (setArmed none s)) := by
  change execStepApply s = _
  simp only [execStepApply, h, hd, if_true]

theorem word_setArmed {k : Nat} (h : k ≠ R.TB_STATUS) (st : Option ArmedStep) (s : State) :
    (setArmed st s).word k = s.word k :=
  State.word_setFld_ne (f := F.TB_STATUS_STEP_ARMED) { s with tb := { s.tb with step := st } } _ h

theorem tb_setArmed (st : Option ArmedStep) (s : State) : (setArmed st s).tb = { s.tb with step := st } :=
  State.setBit_tb { s with tb := { s.tb with step := st } } _ _

theorem nowU_setArmed (st : Option ArmedStep) (s : State) : (setArmed st s).nowU = s.nowU := by
  rw [State.nowU, tb_setArmed, State.nowU]

theorem sec_setNowU (u : Nat) (s t : State) : (s.setNowU u).tb.sec = (t.setNowU u).tb.sec := rfl

/-- A step over the leap instant takes the leap (R44). -/
theorem stepApply_leap {st : ArmedStep} (h : s.tb.step = some st) (hd : stepDue st s = true)
    (hl : leapDue (s.setNowU (steppedTo st.amount s)) = true) :
    ∃ t, exec .stepApply s = .next t ∧ t.fld F.TB_LEAP_CUR = s.fld F.TB_LEAP_NEXT ∧ EventUp 9 t := by
  obtain ⟨htb, hw, ha, -, -⟩ := stepBeforeLeap_spec st.amount st.source (setArmed none s)
  have hk := stepBy_keeps st.amount st.source (setArmed none s)
  rw [word_setArmed (by decide)] at hw ha
  have hdue : leapDue (stepBeforeLeap st.amount st.source (setArmed none s)) = true := by
    rw [← hl]
    refine leapDue_congr hw ha ?_
    rw [htb, steppedTo, nowU_setArmed]
    exact sec_setNowU _ _ s
  obtain ⟨hc, he, -⟩ := leapTake_due hdue
  refine ⟨_, exec_stepApply_due h hd, ?_, hk.events 9 he⟩
  have hcur : (stepBy st.amount st.source (setArmed none s)).fld F.TB_LEAP_CUR =
      (leapTake (stepBeforeLeap st.amount st.source (setArmed none s))).fld F.TB_LEAP_CUR := by
    rw [State.fld, State.fld, hk.word (by decide)]
  rw [hcur, hc, State.fld, State.fld, hw]

/-- Settles O4: by counting, what `leapTake` does; by a step, that the step reaches it with the timebase moved and the leap registers
as they were. -/
theorem leapTakesEffect : Obligations.LeapTakesEffect := by
  refine fun s => ⟨fun h => ⟨_, rfl, leapTake_due h⟩, fun h => ?_, fun st h hd hl => stepApply_leap h hd hl⟩
  change execLeapEffective s = _
  rw [execLeapEffective, leapTake_of_not_due h]

end Sys2Proof.Machine
end

section
/-! PROOFS. O5: steps armed, cancelled and applied, and the backup counter realigned (R38 to R41, R45). -/
namespace Sys2Proof.Machine

variable {s t u : State} {who : Reader} {v : Word}

theorem fld_congr {f : Fld} (h : t.word f.off = s.word f.off) : t.fld f = s.fld f := by rw [State.fld, State.fld, h]

theorem bit_congr {f : Fld} (h : t.word f.off = s.word f.off) : t.bit f = s.bit f := by rw [State.bit, State.bit, fld_congr h]

theorem fld_wholeWord (s : State) (k : Nat) : s.fld (wholeWord k) = (s.word k).toNat := by
  simp only [State.fld, bitsOf, Nat.pow_zero, Nat.div_one]
  exact Nat.mod_eq_of_lt (s.word k).isLt

/-! Arming and cancelling (R38, R39). -/

/-- The fields of TB_STEP_CMD. -/
def stepCmdFields : List FieldSpec := [fs 31 16 .rw 0, fs 15 12 .rw 0, fs 2 2 .wo 0, fs 1 1 .wo 0, fs 0 0 .wo 0]

theorem regAt_stepCmd : regAt R.TB_STEP_CMD = some ⟨R.TB_STEP_CMD, [], 0, .f, false, stepCmdFields⟩ := by decide

theorem fieldsApart_stepCmd : fieldsApart stepCmdFields := by
  simp [fieldsApart, FieldSpec.apart, stepCmdFields, fs]

/-- The amount that a command word and the operand registers give (R38). -/
abbrev operandAmount (v : Word) (s : State) : Int :=
  toSigned 48 (v.toNat / 65536 * 2 ^ 32 + (s.word R.TB_STEP_SEC).toNat) * secUnits +
    ((s.word R.TB_STEP_FRAC).toNat * fracUnits : Nat)

/-- The command word taken, and what stood armed or announced replaced. -/
def stepLatched (arm : Bool) (who : Reader) (v : Word) (s : State) : State :=
  stepReplaced arm (plainWrite who R.TB_STEP_CMD v s)

theorem WordsOnly.plainWrite_stepCmd (who : Reader) (v : Word) (s : State) :
    WordsOnly [R.TB_STEP_CMD] s (plainWrite who R.TB_STEP_CMD v s) :=
  .plainWrite_of_lawful v regAt_stepCmd rfl (vltChecked_of_no_vlt fun _ _ => rfl)

theorem fld_plainWrite_stepCmd (who : Reader) (v : Word) (s : State) :
    (plainWrite who R.TB_STEP_CMD v s).fld F.TB_STEP_CMD_STEP_SEC_HI = v.toNat / 65536 ∧
      (plainWrite who R.TB_STEP_CMD v s).fld F.TB_STEP_CMD_SOURCE = bitsOf v.toNat 15 12 := by
  have hv := v.isLt
  have hhi : bitsOf v.toNat 31 16 = v.toNat / 65536 := by simp only [bitsOf]; omega
  have hf {f : FieldSpec} (hm : f ∈ stepCmdFields) := fld_plainWrite (r := who) (s := s) v regAt_stepCmd rfl fieldsApart_stepCmd hm
  have h1 := hf (f := fs 31 16 .rw 0) (by simp [stepCmdFields])
  have h2 := hf (f := fs 15 12 .rw 0) (by simp [stepCmdFields])
  simp only [fieldAfter, fs, Legal.ok, if_true, hhi] at h1 h2
  exact ⟨h1, h2⟩

/-- The amount is read off the operand registers. -/
theorem stepAmount_eq (s : State) : stepAmount s =
    toSigned 48 (s.fld F.TB_STEP_CMD_STEP_SEC_HI * 2 ^ 32 + (s.word R.TB_STEP_SEC).toNat) * secUnits +
      ((s.word R.TB_STEP_FRAC).toNat * fracUnits : Nat) := by
  have h1 : s.fld F.TB_STEP_SEC_SEC_LO = (s.word R.TB_STEP_SEC).toNat := fld_wholeWord s _
  have h2 : s.fld F.TB_STEP_FRAC_FRAC = (s.word R.TB_STEP_FRAC).toNat := fld_wholeWord s _
  rw [stepAmount, h1, h2]
  exact congrArg _ (Nat.cast_mul _ _).symm

/-- Beside the discipline's record, a step replaced changes TP_STATUS alone (R299). -/
theorem stepReplaced_spec (arm : Bool) (s : State) :
    let t := stepReplaced arm s
    RegsBut [R.TP_STATUS] s t ∧ MemsSame s t ∧ t.tb = s.tb ∧ t.tick = s.tick := by
  unfold stepReplaced
  dsimp only
  split
  · have hw := WordsOnly.setFld F.TP_STATUS_STEP_PENDING 0
      { s with disc := { s.disc with pend := if arm then none else s.disc.pend, armed := false } }
    exact ⟨hw.words, hw.memsSame, (congrArg State.tb hw.rest :), (congrArg State.tick hw.rest :)⟩
  · exact ⟨fun _ _ => rfl, .refl s, rfl, rfl⟩

theorem stepLatched_spec (arm : Bool) (who : Reader) (v : Word) (s : State) :
    let u := stepLatched arm who v s
    RegsBut [R.TB_STEP_CMD, R.TP_STATUS] s u ∧ MemsSame s u ∧ u.tb = s.tb ∧ u.tick = s.tick ∧
      u.fld F.TB_STEP_CMD_SOURCE = bitsOf v.toNat 15 12 ∧ stepAmount u = operandAmount v s := by
  have hw := WordsOnly.plainWrite_stepCmd who v s
  obtain ⟨hr, hm, htb, htick⟩ := stepReplaced_spec arm (plainWrite who R.TB_STEP_CMD v s)
  have hregs : RegsBut [R.TB_STEP_CMD, R.TP_STATUS] s (stepLatched arm who v s) :=
    (hw.words.mono (by simp)).trans (hr.mono (by simp))
  obtain ⟨hhi, hsrc⟩ := fld_plainWrite_stepCmd who v s
  have hf {f : Fld} (h : f.off ∉ [R.TP_STATUS]) : (stepLatched arm who v s).fld f = (plainWrite who R.TB_STEP_CMD v s).fld f :=
    hr.fld h
  refine ⟨hregs, hw.memsSame.trans hm, htb.trans (congrArg State.tb hw.rest :), htick.trans (congrArg State.tick hw.rest :),
    (hf (by decide)).trans hsrc, ?_⟩
  rw [stepAmount_eq, hf (by decide), hhi, hregs _ (by decide), hregs _ (by decide)]

/-- A step armed, or none: the timebase stands and STEP_ARMED shows it. -/
def StepArmed (s t : State) (st : Option ArmedStep) : Prop :=
  t.tb.step = st ∧ t.bit F.TB_STATUS_STEP_ARMED = st.isSome ∧ t.nowU = s.nowU ∧ MemsSame s t ∧
    RegsBut [R.TB_STEP_CMD, R.TB_STATUS, R.TP_STATUS] s t

theorem WordsOnly.setArmed (st : Option ArmedStep) (s : State) :
    WordsOnly [R.TB_STATUS] { s with tb := { s.tb with step := st } } (Machine.setArmed st s) :=
  WordsOnly.setFld F.TB_STATUS_STEP_ARMED _ _

theorem bit_setArmed (st : Option ArmedStep) (s : State) : (setArmed st s).bit F.TB_STATUS_STEP_ARMED = st.isSome :=
  State.bit_setBit _ F.TB_STATUS_STEP_ARMED _ rfl (by decide)

theorem stepArmed_setArmed (arm : Bool) (who : Reader) (v : Word) (s : State) (st : Option ArmedStep) :
    StepArmed s (setArmed st (stepLatched arm who v s)) st := by
  obtain ⟨hr, hm, htb, -, -, -⟩ := stepLatched_spec arm who v s
  have hw := WordsOnly.setArmed st (stepLatched arm who v s)
  refine ⟨by rw [tb_setArmed], bit_setArmed _ _, ?_, hm.trans hw.memsSame,
    (hr.mono (by simp)).trans (RegsBut.mono hw.words (by simp))⟩
  rw [nowU_setArmed, State.nowU, htb, State.nowU]

theorem nextSecond_stepLatched (arm : Bool) (who : Reader) (v : Word) (s : State) :
    nextSecond (stepLatched arm who v s) = (s.nowU + (if s.coarse then 0 else s.tickStep)) / secUnits + 1 := by
  obtain ⟨hr, -, htb, -, -, -⟩ := stepLatched_spec arm who v s
  have hc : (stepLatched arm who v s).coarse = s.coarse := hr.bit (by decide)
  rw [nextSecond, State.nowU, htb, hc, State.tickStep, hr _ (by decide)]
  rfl

/-- STEP_ARMED is one bit of TB_STATUS: the others stand. -/
theorem fld_setArmed_ne {f : Fld} (hf : f.hi < 16 ∨ 16 < f.lo) (st : Option ArmedStep) (s : State) :
    (setArmed st s).fld f = s.fld f :=
  State.fld_setFld_ne { s with tb := { s.tb with step := st } } F.TB_STATUS_STEP_ARMED f _ (by decide) (by decide) (.inr hf)

/-- A command that is taken: one command bit, and no reserved SOURCE in an arm. -/
theorem opStepCmd_taken (hm : mayWriteTime who s = true) (hc : v.toNat % 8 = 1 ∨ v.toNat % 8 = 2 ∨ v.toNat % 8 = 4)
    (hs : v.toNat % 8 ≠ 4 → bitsOf v.toNat 15 12 ≤ 5) :
    opStepCmd who v s =
      let u := stepLatched (v.toNat % 8 != 4) who v s
      if v.toNat % 8 = 4 then setArmed none u
      else if v.toNat % 8 = 2 then setArmed (some ⟨stepAmount u, u.fld F.TB_STEP_CMD_SOURCE, none, u.tick⟩) u
      else setArmed (some ⟨stepAmount u, u.fld F.TB_STEP_CMD_SOURCE, some (nextSecond u), u.tick⟩) u := by
  have h0 : ¬ v.toNat % 8 = 0 := by omega
  have h1 : ¬ (v.toNat % 8 ≠ 1 ∧ v.toNat % 8 ≠ 2 ∧ v.toNat % 8 ≠ 4) := by omega
  have h2 : ¬ (v.toNat % 8 ≠ 4 ∧ 5 < bitsOf v.toNat 15 12) := fun h => absurd (hs h.1) (Nat.not_le.2 h.2)
  simp only [opStepCmd, hm, Bool.not_true, Bool.false_eq_true, if_false, if_neg h0, if_neg h1, if_neg h2]
  -- The write comes first in the model and `stepLatched` holds it; SOURCE is read between the two.
  obtain ⟨-, hw⟩ := fld_plainWrite_stepCmd who v s
  obtain ⟨-, -, -, -, hsrc, -⟩ := stepLatched_spec (v.toNat % 8 != 4) who v s
  rw [hw, ← hsrc]
  rfl

theorem opStepCmd_ignored (h : v.toNat % 8 = 3 ∨ v.toNat % 8 = 5 ∨ v.toNat % 8 = 6 ∨ v.toNat % 8 = 7 ∨
    (v.toNat % 8 = 1 ∧ 5 < bitsOf v.toNat 15 12)) : opStepCmd who v s = s := by
  unfold opStepCmd
  dsimp only
  split
  · rfl
  · rw [if_neg (by omega)]
    split
    · rfl
    · rw [if_pos (by omega)]

theorem opStepCmd_barred (h : mayWriteTime who s = false) : opStepCmd who v s = s := by simp [opStepCmd, h]

theorem exec_armSecond (h : Open who R.TB_STEP_CMD s) : exec (.armSecond who v) s = .next (opStepCmd who v s) :=
  congrArg _ (gate_open h.1 h.2)

theorem exec_armNow (h : Open who R.TB_STEP_CMD s) : exec (.armNow who v) s = .next (opStepCmd who v s) :=
  congrArg _ (gate_open h.1 h.2)

theorem exec_stepCancel (h : Open who R.TB_STEP_CMD s) : exec (.stepCancel who v) s = .next (opStepCmd who v s) :=
  congrArg _ (gate_open h.1 h.2)

theorem armSecond_taken (ho : Open who R.TB_STEP_CMD s) (hm : mayWriteTime who s = true) (hc : v.toNat % 8 = 1)
    (hs : bitsOf v.toNat 15 12 ≤ 5) :
    ∃ t, exec (.armSecond who v) s = .next t ∧ StepArmed s t (some ⟨operandAmount v s, bitsOf v.toNat 15 12,
      some ((s.nowU + (if s.coarse then 0 else s.tickStep)) / secUnits + 1), s.tick⟩) := by
  obtain ⟨-, -, -, htick, hsrc, ham⟩ := stepLatched_spec (v.toNat % 8 != 4) who v s
  have he := opStepCmd_taken hm (.inl hc) fun _ => hs
  rw [if_neg (by omega), if_neg (by omega), ham, hsrc, htick, nextSecond_stepLatched] at he
  exact ⟨_, (exec_armSecond ho).trans (congrArg _ he), stepArmed_setArmed _ who v s _⟩

theorem armNow_taken (ho : Open who R.TB_STEP_CMD s) (hm : mayWriteTime who s = true) (hc : v.toNat % 8 = 2)
    (hs : bitsOf v.toNat 15 12 ≤ 5) :
    ∃ t, exec (.armNow who v) s = .next t ∧
      StepArmed s t (some ⟨operandAmount v s, bitsOf v.toNat 15 12, none, s.tick⟩) := by
  obtain ⟨-, -, -, htick, hsrc, ham⟩ := stepLatched_spec (v.toNat % 8 != 4) who v s
  have he := opStepCmd_taken hm (.inr (.inl hc)) fun _ => hs
  rw [if_neg (by omega), if_pos hc, ham, hsrc, htick] at he
  exact ⟨_, (exec_armNow ho).trans (congrArg _ he), stepArmed_setArmed _ who v s _⟩

theorem stepCancel_taken (ho : Open who R.TB_STEP_CMD s) (hm : mayWriteTime who s = true) (hc : v.toNat % 8 = 4) :
    ∃ t, exec (.stepCancel who v) s = .next t ∧ StepArmed s t none := by
  have he := opStepCmd_taken hm (.inr (.inr hc)) fun h => absurd hc h
  rw [if_pos hc] at he
  exact ⟨_, (exec_stepCancel ho).trans (congrArg _ he), stepArmed_setArmed _ who v s _⟩

/-! An armed step applied (R40). -/

/-- What STEP_SEQ, SOURCE and VALID become. -/
theorem stepStatus_spec {source : Nat} (hs : source ≤ 5) (s : State) :
    let t := stepStatus source s
    t.fld F.TB_STATUS_STEP_SEQ = (s.fld F.TB_STATUS_STEP_SEQ + 1) % 256 ∧
      t.bit F.TB_STATUS_STEP_ARMED = s.bit F.TB_STATUS_STEP_ARMED ∧
      t.fld F.TB_STATUS_SOURCE = (if source = 0 then s.fld F.TB_STATUS_SOURCE else source) ∧
      t.bit F.TB_STATUS_VALID = (s.bit F.TB_STATUS_VALID || source != 0) := by
  unfold stepStatus
  by_cases h0 : source = 0
  · simp [h0, State.bit, State.fld_setFld, State.fld_setFld_ne]
  · simp [h0, State.bit, State.fld_setFld, State.fld_setFld_ne]
    omega

theorem nowU_stepBy (amount : Int) (source : Nat) (s : State) :
    ((stepBy amount source s).nowU : Int) = ((s.nowU : Int) + amount) % (wrapUnits : Int) := by
  have hk := stepBy_keeps amount source s
  obtain ⟨htb, -⟩ := stepBeforeLeap_spec amount source s
  have hpos : (0 : Int) < (wrapUnits : Int) := by decide
  have hto : ((steppedTo amount s : Nat) : Int) = ((s.nowU : Int) + amount) % (wrapUnits : Int) :=
    Int.toNat_of_nonneg (Int.emod_nonneg _ hpos.ne')
  have hlt : steppedTo amount s < wrapUnits := by
    have := Int.emod_lt_of_pos ((s.nowU : Int) + amount) hpos
    omega
  have hu : (stepBy amount source s).nowU = steppedTo amount s := by
    calc (stepBy amount source s).nowU
        = (leapTake (stepBeforeLeap amount source s)).nowU := by rw [State.nowU, State.nowU, hk.tb]
      _ = (stepBeforeLeap amount source s).nowU := (leapTake_keeps _).1
      _ = (s.setNowU (steppedTo amount s)).nowU := by rw [State.nowU, State.nowU, htb]
      _ = steppedTo amount s := by rw [nowU_setNowU, Nat.mod_eq_of_lt hlt]
  rw [hu, hto]

/-- TB_STATUS after a step is what `stepStatus` makes of it; EV_008 is pending, and no step is armed that was not. -/
theorem stepBy_status (amount : Int) (source : Nat) (s : State) :
    (stepBy amount source s).word R.TB_STATUS = (stepStatus source (stepMoved amount s)).word R.TB_STATUS ∧
      EventUp 8 (stepBy amount source s) ∧ (stepBy amount source s).tb.step = s.tb.step := by
  have hk := stepBy_keeps amount source s
  obtain ⟨htb, -, -, hst, hev⟩ := stepBeforeLeap_spec amount source s
  obtain ⟨-, hstep, hword, hevents⟩ := leapTake_keeps (stepBeforeLeap amount source s)
  refine ⟨((hk.word (by decide)).trans hword).trans hst, hk.events 8 (hevents 8 hev), ?_⟩
  rw [hk.tb, hstep, htb]
  rfl

theorem stepApply_due {st : ArmedStep} (h : s.tb.step = some st) (hd : stepDue st s = true) (hs : st.source ≤ 5) :
    ∃ t, exec .stepApply s = .next t ∧ (t.nowU : Int) = ((s.nowU : Int) + st.amount) % (wrapUnits : Int) ∧
      t.fld F.TB_STATUS_STEP_SEQ = (s.fld F.TB_STATUS_STEP_SEQ + 1) % 256 ∧ EventUp 8 t ∧ t.tb.step = none ∧
      t.bit F.TB_STATUS_STEP_ARMED = false ∧
      t.fld F.TB_STATUS_SOURCE = (if st.source = 0 then s.fld F.TB_STATUS_SOURCE else st.source) ∧
      t.bit F.TB_STATUS_VALID = (s.bit F.TB_STATUS_VALID || st.source != 0) := by
  obtain ⟨hword, hev, hstep⟩ := stepBy_status st.amount st.source (setArmed none s)
  obtain ⟨-, hmoved, -, -⟩ := stepMoved_spec st.amount (setArmed none s)
  obtain ⟨hseq, harm, hsrc, hval⟩ := stepStatus_spec hs (stepMoved st.amount (setArmed none s))
  -- TB_STATUS's other fields are not STEP_ARMED, which the arming cleared.
  have hf {f : Fld} (ho : f.off = R.TB_STATUS) (ha : f.hi < 16 ∨ 16 < f.lo) :
      (stepMoved st.amount (setArmed none s)).fld f = s.fld f :=
    (fld_congr (by rw [ho, hmoved])).trans (fld_setArmed_ne ha none s)
  have hb {f : Fld} (ho : f.off = R.TB_STATUS) (ha : f.hi < 16 ∨ 16 < f.lo) :
      (stepMoved st.amount (setArmed none s)).bit f = s.bit f := by rw [State.bit, State.bit, hf ho ha]
  refine ⟨_, exec_stepApply_due h hd, ?_, ?_, hev, ?_, ?_, ?_, ?_⟩
  · rw [nowU_stepBy, nowU_setArmed]
  · rw [fld_congr hword, hseq, hf rfl (by decide)]
  · rw [hstep, tb_setArmed]
  · rw [bit_congr hword, harm, bit_congr hmoved, bit_setArmed]
    rfl
  · rw [fld_congr hword, hsrc, hf rfl (by decide)]
  · rw [bit_congr hword, hval, hb rfl (by decide)]

theorem stepApply_not_due (h : ∀ st, s.tb.step = some st → stepDue st s = false) : exec .stepApply s = .next s := by
  change execStepApply s = _
  cases hs : s.tb.step with
  | none => simp only [execStepApply, hs]
  | some st => simp only [execStepApply, hs, h st hs, Bool.false_eq_true, if_false]

/-! The backup counter (R45, R548). -/

/-- The counter's words and its VALID. -/
def bkRealigned (s : State) : State := (bkSet s.tb.sec 0 s).setFld F.PWR_BK_SUB_VALID 1

theorem WordsOnly.bkRealigned (s : State) : WordsOnly bkKeys s (Machine.bkRealigned s) := by
  have bk (f : Fld) (hf : f.off ∈ bkKeys) (v : Nat) (s : State) : WordsOnly bkKeys s (s.setFld f v) :=
    (WordsOnly.setFld f v s).mono (by simpa using hf)
  exact (((bk F.PWR_BK_SEC_HI_SEC_HI (by decide) _ s).trans (bk F.PWR_BK_SEC_LO_SEC_LO (by decide) _ _)).trans
    (bk F.PWR_BK_SUB_SUB (by decide) _ _)).trans (bk F.PWR_BK_SUB_VALID (by decide) _ _)

theorem bkRealigned_spec (h : s.tb.sec < 2 ^ 48) :
    bkSec (bkRealigned s) = s.tb.sec ∧ (bkRealigned s).fld F.PWR_BK_SUB_SUB = 0 ∧
      (bkRealigned s).bit F.PWR_BK_SUB_VALID = true := by
  have hlo : ((bkRealigned s).word R.PWR_BK_SEC_LO).toNat = s.tb.sec % 2 ^ 32 := by
    rw [← fld_wholeWord]
    simp [bkRealigned, bkSet, State.fld_setFld, State.fld_setFld_ne]
  have hhi : (bkRealigned s).fld F.PWR_BK_SEC_HI_SEC_HI = s.tb.sec / 2 ^ 32 % 2 ^ 16 := by
    simp [bkRealigned, bkSet, State.fld_setFld, State.fld_setFld_ne]
  refine ⟨?_, ?_, State.bit_setFld_one _ F.PWR_BK_SUB_VALID rfl (by decide)⟩
  · rw [bkSec, hlo, hhi]
    omega
  · simp [bkRealigned, bkSet, State.fld_setFld, State.fld_setFld_ne]

theorem exec_backupRealign (h1 : wholeSecond s = true) (h2 : s.bit F.TB_STATUS_VALID = true)
    (h3 : s.fld F.TB_STATUS_SOURCE ≠ 1) : exec .backupRealign s = .next (bkRealigned s) := by
  change execBackupRealign s = _
  simp [execBackupRealign, h1, h2, h3, bkRealigned]

/-- Settles O5: a command on TB_STEP_CMD by its bits, a step applied by what `stepBy` leaves of TB_STATUS and the timebase, and the
backup counter by its four fields. -/
theorem timebaseSteps : Obligations.TimebaseSteps := by
  intro who v s
  refine ⟨fun ho hm => ⟨armSecond_taken ho hm, armNow_taken ho hm, stepCancel_taken ho hm, fun h => ?_⟩, fun ho hm => ?_,
    fun st h hd hs _ _ => stepApply_due h hd hs, stepApply_not_due, fun hsec h1 h2 h3 => ?_, fun h => ?_⟩
  · rw [exec_armSecond ho, opStepCmd_ignored h]
  · rw [exec_armNow ho, opStepCmd_barred hm]
  · obtain ⟨hs, hsub, hv⟩ := bkRealigned_spec hsec
    have hw := WordsOnly.bkRealigned s
    exact ⟨_, exec_backupRealign h1 h2 h3, hs, hsub, hv, hw.words, hw.memsSame⟩
  · change execBackupRealign s = _
    simp [execBackupRealign, h]

end Sys2Proof.Machine
end

section
/-! SUPPORT. A frame for what the timetable's actions do: beside the fields of a list, the table stands, and the start queue takes
requests with certain tags only. -/
namespace Sys2Proof.Machine

variable {T U : List (Option Nat)} {K L : List Fld} {s t u : State} {ks : List Nat}

theorem Keeps.mono (h : Keeps K s t) (hl : L ⊆ K) : Keeps L s t :=
  ⟨fun f hf => h.flds f (hl hf), h.events, h.mems, h.tick, h.tb⟩

/-- A frame by fields that keeps the timetable; requests for a domain's start that are new have a tag of the list. -/
structure Acts (T : List (Option Nat)) (K : List Fld) (s t : State) : Prop extends Keeps K s t where
  tt : t.tt = s.tt
  asked : ∀ r ∈ t.budget.queue, r ∈ s.budget.queue ∨ r.tt ∈ T

theorem Acts.refl (T : List (Option Nat)) (K : List Fld) (s : State) : Acts T K s s := ⟨.refl K s, rfl, fun _ h => .inl h⟩

theorem Acts.trans (h : Acts T K s t) (k : Acts T K t u) : Acts T K s u :=
  ⟨h.toKeeps.trans k.toKeeps, k.tt.trans h.tt, fun r hr => (k.asked r hr).elim (h.asked r) .inr⟩

theorem Acts.ite {c : Prop} [Decidable c] (ht : Acts T K s t) (hu : Acts T K s u) : Acts T K s (if c then t else u) := by
  split <;> assumption

theorem Acts.mono (h : Acts T K s t) (hl : L ⊆ K) : Acts T L s t := ⟨h.toKeeps.mono hl, h.tt, h.asked⟩

theorem Acts.foldl {α : Type} {f : State → α → State} {l : List α} (hf : ∀ s, ∀ a ∈ l, Acts T K s (f s a)) (s : State) :
    Acts T K s (l.foldl f s) := by
  induction l generalizing s with
  | nil => exact .refl T K s
  | cons a l ih => exact (hf s a List.mem_cons_self).trans (ih (fun s b hb => hf s b (List.mem_cons_of_mem _ hb)) _)

/-- What leaves the start queue and the table alone. -/
theorem Keeps.acts (h : Keeps K s t) (htt : t.tt = s.tt := by rfl) (hb : t.budget = s.budget := by rfl) : Acts T K s t :=
  ⟨h, htt, fun _ hr => .inl (hb ▸ hr)⟩

theorem WordsOnly.budget (h : WordsOnly ks s t) : t.budget = s.budget := (congrArg State.budget h.rest :)

theorem Acts.setFld (f : Fld) (v : Nat) (s : State) (h : f.spares K) : Acts T K s (s.setFld f v) :=
  (Keeps.setFld f v s h).acts (WordsOnly.setFld f v s).tt (WordsOnly.setFld f v s).budget

theorem Acts.setBit (f : Fld) (b : Bool) (s : State) (h : f.spares K) : Acts T K s (s.setBit f b) := .setFld f _ s h

theorem Acts.raise (hK : plainFlds K) (n : Nat) (s : State) : Acts T K s (Machine.raise n s) :=
  (Keeps.raise hK n s).acts (WordsOnly.raise n s).tt (WordsOnly.raise n s).budget

theorem Acts.flagEvent (hK : plainFlds K) (f : Fld) (n : Nat) (s : State) (h : f.spares K) :
    Acts T K s (Machine.flagEvent f n s) :=
  (Keeps.flagEvent hK f n s h).acts (WordsOnly.flagEvent f n s).tt (WordsOnly.flagEvent f n s).budget

/-- No start is asked for a tag that is not in the list. -/
theorem Acts.not_asked (h : Acts T K s t) {i : Nat} (hi : some i ∉ T)
    (hq : s.budget.queue.any (fun r => r.tt == some i) = false) : t.budget.queue.any (fun r => r.tt == some i) = false := by
  simp only [List.any_eq_false, beq_iff_eq] at hq ⊢
  intro r hr he
  exact (h.asked r hr).elim (fun hs => hq r hs he) (fun ht => hi (he ▸ ht))

end Sys2Proof.Machine
end

section
/-! SUPPORT. What an operation on one radio chain keeps: the chain's window and target, and the other chains' words (R75 to R93). -/
namespace Sys2Proof.Machine

variable {T : List (Option Nat)} {s t u : State} {x p n : Nat} {tt : Option Nat}

/-- A chain's STATUS and CTRL, and the burst sequence's control word. -/
def ownFlds (x : Nat) : List Fld := [wholeWord (R.GRF_CH_STATUS x), wholeWord (R.GRF_CH_CTRL x), wholeWord R.GRF_BURST_CTRL]

/-- The words of the other chains. -/
def othersFlds (x : Nat) : List Fld := ((List.range 4).filter (· != x)).flatMap ownFlds

/-- What the motions of a chain leave of its own words too. -/
def chainFlds (x : Nat) : List Fld := F.GRF_CH_STATUS_IN_WINDOW x :: F.GRF_CH_CTRL_TARGET x :: othersFlds x

/-- The fields that the motions of a chain write. -/
def chainWrites (x : Nat) : List Fld :=
  [F.GRF_CH_STATUS_STATE x, F.GRF_CH_STATUS_LOCKED x, F.GRF_CH_STATUS_BUSY x, F.GRF_CH_STATUS_PROFILE_ACT x,
    F.GRF_CH_ANT_STAT_STATE x, F.GRF_CAL_STATUS_ACTIVE, F.GRF_CAL_STATUS_PEND_MASK, F.GRF_CAL_STATUS_LAST_RESULT,
    F.IFC_CH_AGC_STAT_GAIN x, F.PWR_START_DEFER_DEFER, F.PWR_START_DEFER_QUEUED]

theorem ownFlds_subset {y : Nat} (hy : y < 4) (h : y ≠ x) : ownFlds y ⊆ othersFlds x := fun _ hf =>
  List.mem_flatMap.2 ⟨y, by simp [hy, h], hf⟩

theorem othersFlds_subset : othersFlds x ⊆ chainFlds x := fun _ hf => List.mem_cons_of_mem _ (List.mem_cons_of_mem _ hf)

section
variable (hx : x < 4)
include hx

theorem plainFlds_chainFlds : plainFlds (chainFlds x) := by interval_cases x <;> decide

theorem spares_chainFlds {f : Fld} (hf : f ∈ chainWrites x) : f.spares (chainFlds x) := by
  revert f
  interval_cases x <;> decide

theorem spares_calPend (hp : p < 4) : (F.GRF_CH_PROF_CAL_CAL_PEND x p).spares (chainFlds x) := by
  interval_cases x <;> interval_cases p <;> decide

theorem spares_pgain (hp : p < 4) : (pgainFld x p).spares (chainFlds x) := by
  interval_cases x <;> interval_cases p <;> decide

theorem spares_notch (hn : n < 8) : (F.IFC_CH_NOTCH_CTRL_ACTIVE x n).spares (chainFlds x) := by
  interval_cases x <;> interval_cases n <;> decide

/-- A write of one of the motions' own fields. -/
theorem Acts.chainFld {f : Fld} (hf : f ∈ chainWrites x) (v : Nat) (s : State) : Acts T (chainFlds x) s (s.setFld f v) :=
  .setFld f v s (spares_chainFlds hx hf)

omit hx in
theorem Acts.setChain (c : Chain) (s : State) : Acts T (chainFlds x) s (Machine.setChain s x c) := (Keeps.of_regs : Keeps _ _ _).acts

theorem Acts.setAntState (st : Nat) (s : State) : Acts T (chainFlds x) s (Machine.setAntState x st s) :=
  .ite (.refl _ _ s) ((Acts.chainFld hx (by simp [chainWrites]) st s).trans (.raise (plainFlds_chainFlds hx) _ _))

theorem Acts.biasUpdate (s : State) : Acts T (chainFlds x) s (Machine.biasUpdate x s) := by
  unfold Machine.biasUpdate
  extract_lets st c s₁
  have h₁ : Acts T (chainFlds x) s s₁ := .setChain _ s
  exact .ite (.ite (.refl _ _ s) (.setChain _ s)) (.ite h₁ (h₁.trans (.setAntState hx 0 s₁)))

theorem Acts.setChainState (st : Nat) (s : State) : Acts T (chainFlds x) s (Machine.setChainState x st s) :=
  (Acts.chainFld hx (by simp [chainWrites]) st s).trans (.biasUpdate hx _)

theorem Acts.syncCal (s : State) : Acts T (chainFlds x) s (Machine.syncCal s) :=
  (Acts.chainFld hx (by simp [chainWrites]) _ s).trans (.chainFld hx (by simp [chainWrites]) _ _)

theorem Acts.calStart (p : Nat) (k : CalKind) (s : State) : Acts T (chainFlds x) s (Machine.calStart x p k s) :=
  (((Acts.setChain _ s).trans (.chainFld hx (by simp [chainWrites]) 0 _)).trans (.setChainState hx 4 _)).trans (.syncCal hx _)

theorem Acts.beginStep (st : ChainStep) (s : State) : Acts T (chainFlds x) s (Machine.beginStep x st s) :=
  (Acts.setChain _ s).trans (.chainFld hx (by simp [chainWrites]) 1 _)

theorem Acts.notchFree (hn : n < 8) (s : State) : Acts T (chainFlds x) s (Machine.notchFree x n s) := by
  have h₁ (c : IfcChain) : Acts T (chainFlds x) s (setIfcCh s x c) := (Keeps.of_regs : Keeps _ _ _).acts
  exact (h₁ _).trans (.setFld _ 0 _ (spares_notch hx hn))

omit hx in
theorem Acts.eachNotch {f : Nat → State → State} {m : Nat} (hf : ∀ n < m, ∀ s, Acts T (chainFlds x) s (f n s)) (s : State) :
    Acts T (chainFlds x) s (Machine.eachNotch f m s) := by
  induction m with
  | zero => exact .refl _ _ s
  | succ m ih => exact (ih fun n hn => hf n (by omega)).trans (hf m (by omega) _)

theorem Acts.notchProfile (p : Nat) (s : State) : Acts T (chainFlds x) s (Machine.notchProfile x p s) := by
  refine .eachNotch (fun n hn s => ?_) s
  split
  · exact .ite (.notchFree hx hn s) (.refl _ _ s)
  · exact .setBit _ _ s (spares_notch hx hn)
  · exact .refl _ _ s

theorem Acts.ifcProfile (p : Nat) (s : State) : Acts T (chainFlds x) s (Machine.ifcProfile x p s) := by
  have hold : s.fld (F.GRF_CH_STATUS_PROFILE_ACT x) < 4 := bitsOf_lt _ _ _
  unfold Machine.ifcProfile
  extract_lets old s₁ s₂
  have h₁ : Acts T (chainFlds x) s s₁ := .setFld _ _ s (spares_pgain hx hold)
  have h₂ : Acts T (chainFlds x) s s₂ := h₁.trans (.chainFld hx (by simp [chainWrites]) _ s₁)
  exact .ite (.refl _ _ s) ((h₂.trans (.chainFld hx (by simp [chainWrites]) p s₂)).trans (.notchProfile hx p _))

theorem Acts.beginLock (s : State) : Acts T (chainFlds x) s (Machine.beginLock x s) := by
  unfold Machine.beginLock
  extract_lets p s₁
  have h₁ : Acts T (chainFlds x) s s₁ := (Acts.ifcProfile hx p s).trans (.beginStep hx .lock _)
  exact .ite h₁ (h₁.trans (.calStart hx p _ s₁))

theorem Acts.beginHop (p : Nat) (s : State) : Acts T (chainFlds x) s (Machine.beginHop x p s) := by
  unfold Machine.beginHop
  extract_lets s₁
  have h₁ : Acts T (chainFlds x) s s₁ :=
    ((Acts.beginStep hx (.hop p) s).trans (.chainFld hx (by simp [chainWrites]) 0 _)).trans (.setChainState hx 5 _)
  exact .ite h₁ (h₁.trans (.calStart hx p _ s₁))

/-- QUEUED follows a change of the queue. -/
theorem Acts.syncQueued {b : Budget} (hb : ∀ r ∈ b.queue, r ∈ s.budget.queue ∨ r.tt ∈ T) :
    Acts T (chainFlds x) s (Machine.syncQueued { s with budget := b }) := by
  have h₁ : Acts T (chainFlds x) s { s with budget := b } := ⟨.of_regs, rfl, hb⟩
  exact h₁.trans (.chainFld hx (by simp [chainWrites]) _ _)

theorem Acts.withdrawStart (d : Nat) (s : State) : Acts T (chainFlds x) s (Machine.withdrawStart d s) :=
  .syncQueued hx fun _ hr => .inl (List.mem_of_mem_filter hr)

theorem Acts.requestStart (h : tt ∈ T) (d : Nat) (s : State) : Acts T (chainFlds x) s (Machine.requestStart d tt s) := by
  unfold Machine.requestStart
  extract_lets waits _ s₁
  have h₁ : Acts T (chainFlds x) s s₁ := by
    refine .syncQueued hx fun r hr => ?_
    simp only [List.mem_append, List.mem_singleton] at hr
    exact hr.imp id (by rintro rfl; exact h)
  exact .ite (.refl _ _ s) (.ite
    (h₁.trans (.flagEvent (plainFlds_chainFlds hx) _ 28 s₁ (spares_chainFlds hx (by simp [chainWrites])))) h₁)

/-- A chain's next step asks for a start out of OFF only. -/
theorem Acts.chainAdvance (h : chainState x s = 0 → tt ∈ T) : Acts T (chainFlds x) s (Machine.chainAdvance x tt s) := by
  unfold Machine.chainAdvance
  extract_lets c t st s₁
  have h₁ : Acts T (chainFlds x) s s₁ := .ite (.refl _ _ s) (.ifcProfile hx _ s)
  have rest (u : State) : Acts T (chainFlds x) u (u.setFld (F.GRF_CH_STATUS_BUSY x) 0) := .chainFld hx (by simp [chainWrites]) 0 u
  split
  · exact .refl _ _ s
  refine h₁.trans ?_
  split
  · next h0 =>
      exact .ite ((Acts.withdrawStart hx x s₁).trans (rest _))
        ((Acts.requestStart hx (h h0) x s₁).trans (.chainFld hx (by simp [chainWrites]) 1 _))
  · exact .ite (.ite (.beginStep hx _ s₁) (.ite (.beginStep hx _ s₁) (rest s₁)))
      (.ite (.ite (.beginLock hx s₁) (.ite (.beginStep hx _ s₁) (rest s₁)))
        (.ite ((Acts.chainFld hx (by simp [chainWrites]) 0 s₁).trans (.beginStep hx _ _))
          (.ite (.beginHop hx _ s₁) (rest s₁))))

theorem Acts.calAbandon (s : State) : Acts T (chainFlds x) s (Machine.calAbandon x s) := by
  unfold Machine.calAbandon
  split
  · exact .refl _ _ s
  · exact (((Acts.setChain _ s).trans (.chainFld hx (by simp [chainWrites]) _ _)).trans (.setChainState hx _ _)).trans
      (.syncCal hx _)

theorem Acts.chainRetarget (h : tt ∈ T) (s : State) : Acts T (chainFlds x) s (Machine.chainRetarget x tt s) :=
  (Acts.ite (.calAbandon hx s) (.refl _ _ s)).trans (.chainAdvance hx fun _ => h)

theorem Acts.autoCal (s : State) : Acts T (chainFlds x) s (Machine.autoCal x s) := by
  refine .ite (.trans (.foldl (fun s k _ => ?_) s) (.syncCal hx _)) (.refl _ _ s)
  exact .ite (.setFld _ 1 s (spares_calPend hx (bitsOf_lt _ _ _))) (.refl _ _ s)

theorem Acts.calRequestOne (hp : p < 4) (s : State) : Acts T (chainFlds x) s (Machine.calRequestOne x p s) :=
  .ite (((Acts.setChain _ s).trans (.chainFld hx (by simp [chainWrites]) 1 _)).trans (.calStart hx p _ _))
    ((Acts.setFld _ 1 s (spares_calPend hx hp)).trans (.syncCal hx _))

end

end Sys2Proof.Machine
end

section
/-! SUPPORT. The two ends of a dispatch: the entry taken for its occurrence, and the occurrence fired or dropped (R50 to R57). -/
namespace Sys2Proof.Machine

variable {T : List (Option Nat)} {K : List Fld} {s t u : State} {i act : Nat} {f : Nat → State → State}

/-- The entry at the occurrence dispatched. -/
abbrev ttNow (i : Nat) (s : State) : TtEntry := (ttEntry s i).latest s

/-- The entry while its occurrence's action is done. -/
def ttHeld (i : Nat) (s : State) : TtEntry := { ttNow i s with waiting := some ⟨(ttNow i s).late s, s.tick⟩ }

/-- The arbitration's state when the entry's class has been served (R54). -/
def ttServed (i : Nat) (s : State) : TtArb :=
  let a := ttArbNow s
  let c := (ttNow i s).cls
  let fin := ttFinish a c s
  let b := { a with fired := a.fired + 1 }
  if ttWeight c s = 0 then b
  else { b with vnow := fin, vfin := Sparse.put (fun _ => 0) b.vfin c fin,
                vstart := Sparse.put (fun _ => none) b.vstart c (some fin) }

/-- The state in which the action is done. -/
def ttTaken (i : Nat) (s : State) : State := setTt { s with arb := ttServed i s } i (ttHeld i s)

/-- The state when the action is done and the occurrence has fired. -/
def ttAfter (i : Nat) (s u : State) : State := ttFired i (ttHeld i s) ((ttNow i s).late s) false u

/-- A dispatch of what is due does the action and settles the occurrence. -/
theorem ttDispatch_of_due (h : TtDue i act s) (f : Nat → State → State) :
    ttDispatch i act f s = ttSettle i (f (ttNow i s).param (ttTaken i s)) := by
  obtain ⟨ha, hp, hl, -⟩ := h
  have hc : ¬ ((ttEntry s i).action ≠ act ∨ ttPick s ≠ some i) := by simp [ha, hp]
  simp only [ttDispatch, if_neg hc, hl, Bool.false_eq_true, if_false]
  rfl

theorem ttDispatch_of_late (ha : (ttEntry s i).action = act) (hp : ttPick s = some i)
    (hl : (ttNow i s).tooLate ((ttNow i s).late s) s = true) (f : Nat → State → State) :
    ttDispatch i act f s = ttDrop i (ttNow i s) ((ttNow i s).late s) { s with arb := ttArbNow s } := by
  have hc : ¬ ((ttEntry s i).action ≠ act ∨ ttPick s ≠ some i) := by simp [ha, hp]
  simp only [ttDispatch, if_neg hc, hl, if_true]

theorem ttDispatch_of_not_next (h : ttPick s ≠ some i) (act : Nat) (f : Nat → State → State) : ttDispatch i act f s = s := by
  simp only [ttDispatch, if_pos (Or.inr h)]

theorem WordsOnly.ttTaken (i : Nat) (s : State) : WordsOnly [R.TT_STATUS]
    { s with arb := ttServed i s, tt := Sparse.put (fun _ => {}) s.tt i (ttHeld i s) } (Machine.ttTaken i s) :=
  .setTt { s with arb := ttServed i s } i _

/-- The entry after an occurrence that fired. -/
def TtEntry.firedAfter (e : TtEntry) (late : Nat) (deferred : Bool) : TtEntry :=
  { e.after with lateTicks := satNat 0xFFFF late, fired := true, deferred := deferred, waiting := none }

theorem ttFired_eq (i : Nat) (e : TtEntry) (late : Nat) (deferred : Bool) (s : State) :
    ttFired i e late deferred s =
      let s₁ := setTt s i (e.firedAfter late deferred)
      if 120 ≤ late then raise 10 (s₁.setFld F.TT_STATUS_LATE 1) else s₁ := rfl

theorem WordsOnly.ttFired (i : Nat) (e : TtEntry) (late : Nat) (deferred : Bool) (s : State) :
    WordsOnly (R.TT_STATUS :: evKeys 10)
      { s with tt := Sparse.put (fun _ => {}) s.tt i (e.firedAfter late deferred) }
      (Machine.ttFired i e late deferred s) := by
  have h₁ := (WordsOnly.setTt s i (e.firedAfter late deferred)).mono (ls := R.TT_STATUS :: evKeys 10) (by simp)
  rw [ttFired_eq]
  extract_lets s₁
  split
  · exact h₁.trans (((WordsOnly.setFld F.TT_STATUS_LATE 1 s₁).mono (by simp)).trans
      ((WordsOnly.raise 10 _).mono (List.subset_cons_self _ _)))
  · exact h₁

/-- The words that neither end of a dispatch changes. -/
abbrev ttSpared (K : List Fld) : Prop := ∀ f ∈ K, plainKey f.off ∧ f.off ≠ R.TT_STATUS

/-- The words of the radio chapters. -/
theorem spared_of_radio {k : Nat} (h : 0x20000 ≤ k) (h' : k < 0x60000) : plainKey k ∧ k ≠ R.TT_STATUS := by
  simp only [plainKey, R.MSIX_PBA, R.TT_STATUS]
  omega

theorem Keeps.setTt (hK : ttSpared K) (i : Nat) (e : TtEntry) (s : State) : Keeps K s (Machine.setTt s i e) := by
  have h₁ : Keeps K s { s with tt := Sparse.put (fun _ => {}) s.tt i e } := .of_regs
  have hw := WordsOnly.setTt s i e
  exact h₁.trans (hw.keeps (fun f hf => hw.words.fld (by simpa using (hK f hf).2)) (by decide))

theorem Keeps.ttTaken (hK : ttSpared K) (i : Nat) (s : State) : Keeps K s (Machine.ttTaken i s) := by
  have h₁ : Keeps K s { s with arb := ttServed i s } := .of_regs
  exact h₁.trans (.setTt hK i _ _)

/-- A write of TT_STATUS keeps what a dispatch's ends keep. -/
theorem Keeps.setTtStatus (hK : ttSpared K) {f : Fld} (hf : f.off = R.TT_STATUS) (v : Nat) (s : State) :
    Keeps K s (s.setFld f v) := by
  have hw := WordsOnly.setFld f v s
  refine hw.keeps (fun g hg => hw.words.fld ?_) (by rw [hf]; decide)
  simpa [hf] using (hK g hg).2

theorem Keeps.ttAfter (hK : ttSpared K) (i : Nat) (s u : State) : Keeps K u (Machine.ttAfter i s u) := by
  rw [Machine.ttAfter, ttFired_eq]
  extract_lets s₁
  have h₁ : Keeps K u s₁ := .setTt hK i _ u
  exact .ite ((h₁.trans (.setTtStatus hK rfl 1 s₁)).trans (.raise (fun f hf => (hK f hf).1) 10 _)) h₁

theorem satNat_eq_min (n v : Nat) : satNat n v = min n v := by
  unfold satNat
  split <;> omega

theorem ttEntry_ttFired (i : Nat) (e : TtEntry) (late : Nat) (deferred : Bool) (s : State) :
    ttEntry (ttFired i e late deferred s) i = e.firedAfter late deferred := by
  rw [ttEntry, (WordsOnly.ttFired i e late deferred s).tt]
  exact Sparse.get_put_self _ _ _

theorem TtEntry.after_spec (e : TtEntry) : e.after.dropped = e.dropped ∧ e.after.skip = e.skip ∧
    if e.period = 0 then e.after.armed = false ∧ e.after.due = e.due
    else e.after.armed = e.armed ∧ e.after.due = (e.due + e.period) % 2 ^ 80 := by
  unfold TtEntry.after
  by_cases h : e.period = 0
  · simp [h]
  · simp [h]

/-- The entry's log and its next due time. -/
theorem ttFired_ttAfter (i : Nat) (s u : State) : TtFired i s (ttAfter i s u) := by
  obtain ⟨hd, hs, ha⟩ := (ttHeld i s).after_spec
  rw [TtFired, ttAfter, ttEntry_ttFired]
  exact ⟨rfl, hd, rfl, rfl, satNat_eq_min _ _, hs.trans (satNat_eq_min _ _), ha⟩

theorem ttEntry_of_taken (h : u.tt = (ttTaken i s).tt) : ttEntry u i = ttHeld i s := by
  rw [ttEntry, h]
  exact ttEntry_setTt _ i _

/-- With no start awaited the occurrence fires in the tick of its dispatch. -/
theorem ttSettle_ready (ht : u.tt = (ttTaken i s).tt) (hk : u.tick = s.tick)
    (hq : u.budget.queue.any (fun r => r.tt == some i) = false) : ttSettle i u = ttAfter i s u := by
  simp only [ttSettle, ttEntry_of_taken ht, ttHeld, hq, Bool.false_eq_true, if_false, hk, Nat.sub_self, Nat.add_zero,
    Nat.lt_irrefl, decide_false]
  rfl

/-- An occurrence that waits has done its action and stands in its entry. -/
theorem ttSettle_waiting (ht : u.tt = (ttTaken i s).tt) (hq : u.budget.queue.any (fun r => r.tt == some i) = true) :
    ttSettle i u = u := by
  simp only [ttSettle, ttEntry_of_taken ht, ttHeld, hq, if_true]

theorem ttTaken_tick (i : Nat) (s : State) : (ttTaken i s).tick = s.tick := (congrArg State.tick (WordsOnly.ttTaken i s).rest :)

theorem ttTaken_budget (i : Nat) (s : State) : (ttTaken i s).budget = s.budget := (WordsOnly.ttTaken i s).budget

theorem no_start_ttTaken (h : TtDue i act s) : (ttTaken i s).budget.queue.any (fun r => r.tt == some i) = false := by
  obtain ⟨-, -, -, hq⟩ := h
  rwa [ttTaken_budget]

/-- An action that asks for no start of its own fires the entry. -/
theorem ttDispatch_acts (h : TtDue i act s) (hT : some i ∉ T)
    (ha : Acts T K (ttTaken i s) (f (ttNow i s).param (ttTaken i s))) :
    ttDispatch i act f s = ttAfter i s (f (ttNow i s).param (ttTaken i s)) := by
  rw [ttDispatch_of_due h]
  exact ttSettle_ready ha.tt (ha.tick.trans (ttTaken_tick i s)) (ha.not_asked hT (no_start_ttTaken h))

/-- What an action keeps, the whole dispatch does. -/
theorem Acts.dispatched (hK : ttSpared K) (ha : Acts T K (ttTaken i s) u) : Keeps K s (ttAfter i s u) :=
  ((Keeps.ttTaken hK i s).trans ha.toKeeps).trans (.ttAfter hK i s u)

theorem ttSpared_nil : ttSpared [] := fun _ h => absurd h List.not_mem_nil

end Sys2Proof.Machine
end

section
/-! PROOFS. O6, burst windows: BURST_OPEN and BURST_CLOSE chain by chain (R51, R88 to R91). -/
namespace Sys2Proof.Machine

variable {T : List (Option Nat)} {s t u : State} {i x mask : Nat} {tt : Option Nat} {f : Nat → State → State} {l : List Nat}

theorem ttSpared_ownFlds (hx : x < 4) : ttSpared (ownFlds x) := by
  intro g hg
  simp only [ownFlds, List.mem_cons, List.not_mem_nil, or_false] at hg
  obtain rfl | rfl | rfl := hg
  · exact spared_of_radio (by simp only [R.GRF_CH_STATUS]; omega) (by simp only [R.GRF_CH_STATUS]; omega)
  · exact spared_of_radio (by simp only [R.GRF_CH_CTRL]; omega) (by simp only [R.GRF_CH_CTRL]; omega)
  · decide

theorem Keeps.own (h : Keeps (ownFlds x) s t) : t.word (R.GRF_CH_STATUS x) = s.word (R.GRF_CH_STATUS x) ∧
    t.word (R.GRF_CH_CTRL x) = s.word (R.GRF_CH_CTRL x) ∧ t.word R.GRF_BURST_CTRL = s.word R.GRF_BURST_CTRL :=
  ⟨h.word (by simp [ownFlds]), h.word (by simp [ownFlds]), h.word (by simp [ownFlds])⟩

/-- Chains treated one after another: each is met with its own words as they were, and what is done to it stays; the others keep
theirs. -/
theorem Acts.foldl_chains (hn : l.Nodup) (hl : ∀ x ∈ l, x < 4)
    (hf : ∀ x ∈ l, ∀ u, Keeps (ownFlds x) s u → Acts T (othersFlds x) u (f x u)) :
    Acts T [] s (l.foldl (fun s x => f x s) s) ∧
      (∀ y < 4, y ∉ l → Keeps (ownFlds y) s (l.foldl (fun s x => f x s) s)) ∧
      ∀ x ∈ l, ∃ u, Keeps (ownFlds x) s u ∧ Keeps (ownFlds x) (f x u) (l.foldl (fun s x => f x s) s) := by
  induction l generalizing s with
  | nil => exact ⟨.refl _ _ s, fun _ _ _ => .refl _ s, by simp⟩
  | cons a l ih =>
    obtain ⟨ha, hn⟩ := List.nodup_cons.1 hn
    have h₁ := hf a List.mem_cons_self s (.refl _ s)
    have other {y : Nat} (hy : y < 4) (hne : y ≠ a) : Keeps (ownFlds y) s (f a s) := h₁.toKeeps.mono (ownFlds_subset hy hne)
    have hl4 (x : Nat) (hx : x ∈ l) : x < 4 := hl x (List.mem_cons_of_mem _ hx)
    have hne (x : Nat) (hx : x ∈ l) : x ≠ a := fun h => ha (h ▸ hx)
    obtain ⟨hacts, hout, hin⟩ := ih (s := f a s) hn hl4 fun x hx u hu =>
      hf x (List.mem_cons_of_mem _ hx) u ((other (hl4 x hx) (hne x hx)).trans hu)
    refine ⟨(h₁.mono (by simp)).trans hacts, fun y hy hyl => ?_, fun x hx => ?_⟩
    · obtain ⟨hya, hyl⟩ := not_or.1 (List.mem_cons.not.1 hyl)
      exact (other hy hya).trans (hout y hy hyl)
    · obtain rfl | hx := List.mem_cons.1 hx
      · exact ⟨s, .refl _ s, hout x (hl x List.mem_cons_self) ha⟩
      · obtain ⟨u, hu, ht⟩ := hin x hx
        exact ⟨u, (other (hl4 x hx) (hne x hx)).trans hu, ht⟩

/-! BURST_OPEN (R88 to R90). -/

/-- A chain's window is open: it is in the window with TARGET RECEIVE. -/
abbrev WindowOpen (x : Nat) (t : State) : Prop := t.bit (F.GRF_CH_STATUS_IN_WINDOW x) = true ∧ t.fld (F.GRF_CH_CTRL_TARGET x) = 3

/-- A chain with its window open, before it moves. -/
def windowOpened (x : Nat) (s : State) : State :=
  let first := if s.fld F.GRF_BURST_CTRL_HOP_CHAIN = x then segFrom 0 s else none
  let c := { chain s x with
    seq := first.isSome, seg := first.getD 0, segProf := s.fld (F.GRF_BURST_SEG_PROFILE (first.getD 0)), openAt := some s.tick }
  ((setChain s x c).setFld (F.GRF_CH_STATUS_IN_WINDOW x) 1).setFld (F.GRF_CH_CTRL_TARGET x) 3

theorem spares_others {g : Fld} (hx : x < 4) (hg : g ∈ [F.GRF_CH_STATUS_IN_WINDOW x, F.GRF_CH_CTRL_TARGET x]) :
    g.spares (othersFlds x) := by
  revert g
  interval_cases x <;> decide

theorem Acts.windowOpened (hx : x < 4) (s : State) : Acts T (othersFlds x) s (Machine.windowOpened x s) :=
  (((Acts.setChain _ s).mono othersFlds_subset).trans (.setFld _ 1 _ (spares_others hx (by simp)))).trans
    (.setFld _ 3 _ (spares_others hx (by simp)))

theorem windowOpen_windowOpened (x : Nat) (s : State) : WindowOpen x (windowOpened x s) := by
  unfold windowOpened
  constructor
  · rw [State.bit_setFld_ne _ _ _ _ (by simp) (by simp) (by simp)]
    exact State.bit_setFld_one _ _ rfl (by simp)
  · simp [State.fld_setFld]

theorem chainState_windowOpened (x : Nat) (s : State) : chainState x (windowOpened x s) = chainState x s := by
  unfold windowOpened chainState
  rw [State.fld_setFld_ne _ _ _ _ (by simp) (by simp) (by simp),
    State.fld_setFld_ne _ _ _ _ (by simp) (by simp) (by simp)]
  rfl

theorem burstOpenOne_eq (x : Nat) (tt : Option Nat) (s : State) :
    burstOpenOne x tt s = chainAdvance x tt (windowOpened x s) := by
  change chainRetarget x tt (windowOpened x s) = _
  rw [chainRetarget, if_neg (by rw [(windowOpen_windowOpened x s).2]; decide)]

theorem WindowOpen.chainFlds (h : WindowOpen x s) (hk : Keeps (chainFlds x) s t) : WindowOpen x t := by
  refine ⟨?_, (hk.flds _ (by simp [Machine.chainFlds])).trans h.2⟩
  rw [State.bit, hk.flds _ (by simp [Machine.chainFlds]), ← State.bit]
  exact h.1

theorem WindowOpen.own (h : WindowOpen x s) (hk : Keeps (ownFlds x) s t) : WindowOpen x t := by
  obtain ⟨hs, hc, -⟩ := hk.own
  exact ⟨(bit_congr hs).trans h.1, (fld_congr hc).trans h.2⟩

theorem burstOpenOne_spec (hx : x < 4) (h : chainState x s = 0 → tt ∈ T) :
    Acts T (othersFlds x) s (burstOpenOne x tt s) ∧ WindowOpen x (burstOpenOne x tt s) := by
  rw [burstOpenOne_eq]
  have ha : Acts T (chainFlds x) (windowOpened x s) (chainAdvance x tt (windowOpened x s)) :=
    .chainAdvance hx fun h0 => h (chainState_windowOpened x s ▸ h0)
  exact ⟨(Acts.windowOpened hx s).trans (ha.mono othersFlds_subset), (windowOpen_windowOpened x s).chainFlds ha.toKeeps⟩

/-- Whether a BURST_OPEN opens a chain's window (R90). -/
abbrev opens (mask : Nat) (s : State) (x : Nat) : Bool :=
  mask.testBit x && (pstate s != 2 || s.fld F.GRF_BURST_CTRL_HOP_CHAIN == x)

theorem mem_burstChains : x ∈ burstChains mask s ↔ x < 4 ∧ opens mask s x = true := by
  rw [burstChains, List.mem_filter, List.mem_range]

theorem burstOpenAll_spec (h : ∀ x < 4, opens mask s x = true → chainState x s = 0 → tt ∈ T) :
    let t := burstOpenAll mask tt s
    Acts T [] s t ∧ (∀ x < 4, opens mask s x = true → WindowOpen x t) ∧
      ∀ x < 4, opens mask s x = false → Keeps (ownFlds x) s t := by
  have one {x : Nat} (hx : x ∈ burstChains mask s) {u : State} (hu : Keeps (ownFlds x) s u) :
      Acts T (othersFlds x) u (burstOpenOne x tt u) ∧ WindowOpen x (burstOpenOne x tt u) := by
    obtain ⟨hx4, ho⟩ := mem_burstChains.1 hx
    exact burstOpenOne_spec hx4 fun h0 => h x hx4 ho (by rw [← h0]; exact (fld_congr hu.own.1).symm)
  obtain ⟨ha, hout, hin⟩ := Acts.foldl_chains (f := fun x => burstOpenOne x tt) (List.nodup_range.filter _)
    (fun x hx => (mem_burstChains.1 hx).1) fun x hx u hu => (one hx hu).1
  refine ⟨ha, fun x hx ho => ?_, fun x hx ho => hout x hx fun hm => ?_⟩
  · have hm := mem_burstChains.2 ⟨hx, ho⟩
    obtain ⟨u, hu, ht⟩ := hin x hm
    exact (one hm hu).2.own ht
  · simp [(mem_burstChains.1 hm).2] at ho

/-! BURST_CLOSE (R88, R91). -/

/-- A window that closes, before the chain moves on: IN_WINDOW, and TARGET from GAP_STATE. -/
def windowClosed (x : Nat) (s : State) : State :=
  let u := s.setFld (F.GRF_CH_STATUS_IN_WINDOW x) 0
  u.setFld (F.GRF_CH_CTRL_TARGET x) (u.fld F.GRF_BURST_CTRL_GAP_STATE)

/-- What a close of a window makes of a sequence, with a hop in progress abandoned (R91, R93). -/
def sequenceEnded (x : Nat) (s : State) : State :=
  let c := chain s x
  match c.step with
  | .hop _ =>
    if c.cal.isSome && decide (s.fld (F.GRF_CH_CTRL_TARGET x) < 2) then setChain s x { c with seq := false }
    else syncCal (setChainState x 3 (setChain s x { c with step := .none, cal := none, cold := false, seq := false }))
  | _ => setChain s x { c with seq := false }

theorem burstCloseOne_eq (h : s.bit (F.GRF_CH_STATUS_IN_WINDOW x) = true) :
    burstCloseOne x s =
      let u := sequenceEnded x (windowClosed x (autoCal x s))
      chainRetarget x none (if (chain u x).step == .none && (chain u x).cal.isNone
        then ifcProfile x (u.fld (F.GRF_CH_CTRL_PROFILE x)) u else u) := by
  rw [burstCloseOne, if_pos h]
  rfl

theorem burstCloseOne_outside (h : s.bit (F.GRF_CH_STATUS_IN_WINDOW x) = false) : burstCloseOne x s = s := by
  simp [burstCloseOne, h]

theorem Acts.sequenceEnded (hx : x < 4) (s : State) : Acts T (chainFlds x) s (Machine.sequenceEnded x s) := by
  unfold Machine.sequenceEnded
  extract_lets c
  split
  · exact .ite (.setChain _ s) (((Acts.setChain _ s).trans (.setChainState hx 3 _)).trans (.syncCal hx _))
  · exact .setChain _ s

theorem Acts.windowClosed (hx : x < 4) (s : State) : Acts T (othersFlds x) s (Machine.windowClosed x s) :=
  (Acts.setFld _ 0 s (spares_others hx (by simp))).trans (.setFld _ _ _ (spares_others hx (by simp)))

theorem windowClosed_spec (x : Nat) (s : State) : (windowClosed x s).bit (F.GRF_CH_STATUS_IN_WINDOW x) = false ∧
    (windowClosed x s).fld (F.GRF_CH_CTRL_TARGET x) = (s.setFld (F.GRF_CH_STATUS_IN_WINDOW x) 0).fld F.GRF_BURST_CTRL_GAP_STATE := by
  unfold windowClosed
  constructor
  · rw [State.bit_setFld_ne _ _ _ _ (by simp) (by simp) (by simp), State.bit, State.fld_setFld _ _ _ (by simp) (by simp)]
    rfl
  · rw [State.fld_setFld _ _ _ (by simp) (by simp)]
    exact Nat.mod_eq_of_lt (bitsOf_lt _ _ _)

/-- A chain's window is closed, with its TARGET from GAP_STATE as it stands in `s`. -/
abbrev WindowShut (x : Nat) (s t : State) : Prop := t.bit (F.GRF_CH_STATUS_IN_WINDOW x) = false ∧
  t.fld (F.GRF_CH_CTRL_TARGET x) = s.fld F.GRF_BURST_CTRL_GAP_STATE

theorem burstCloseOne_spec (hx : x < 4) (h : s.bit (F.GRF_CH_STATUS_IN_WINDOW x) = true) :
    Acts [none] (othersFlds x) s (burstCloseOne x s) ∧ WindowShut x s (burstCloseOne x s) := by
  rw [burstCloseOne_eq h]
  extract_lets u
  have h₁ : Acts [none] (chainFlds x) s (autoCal x s) := .autoCal hx s
  have h₂ : Acts [none] (othersFlds x) (autoCal x s) (windowClosed x (autoCal x s)) := .windowClosed hx _
  have h₃ : Acts [none] (chainFlds x) (windowClosed x (autoCal x s)) u := .sequenceEnded hx _
  have h₄ : Acts [none] (chainFlds x) (windowClosed x (autoCal x s)) (chainRetarget x none
      (if (chain u x).step == .none && (chain u x).cal.isNone then ifcProfile x (u.fld (F.GRF_CH_CTRL_PROFILE x)) u else u)) :=
    (h₃.trans (.ite (.ifcProfile hx _ u) (.refl _ _ u))).trans (.chainRetarget hx (List.mem_singleton.2 rfl) _)
  obtain ⟨hw, ht⟩ := windowClosed_spec x (autoCal x s)
  -- GAP_STATE stands in a word that the burst keeps, up to the write of TARGET.
  have hg : Acts [none] (othersFlds x) s ((autoCal x s).setFld (F.GRF_CH_STATUS_IN_WINDOW x) 0) :=
    (h₁.mono othersFlds_subset).trans (.setFld _ 0 _ (spares_others hx (by simp)))
  have hgap : wholeWord R.GRF_BURST_CTRL ∈ othersFlds x := by interval_cases x <;> decide
  refine ⟨((h₁.mono othersFlds_subset).trans h₂).trans (h₄.mono othersFlds_subset), ?_, ?_⟩
  · rw [State.bit, h₄.flds _ (by simp [chainFlds]), ← State.bit, hw]
  · rw [h₄.flds _ (by simp [chainFlds]), ht, fld_congr (hg.word hgap)]

theorem Acts.burstCloseOne (hx : x < 4) (s : State) : Acts [none] (othersFlds x) s (Machine.burstCloseOne x s) := by
  cases h : s.bit (F.GRF_CH_STATUS_IN_WINDOW x)
  · rw [burstCloseOne_outside h]
    exact .refl _ _ s
  · exact (burstCloseOne_spec hx h).1

theorem burstCloseAll_spec (mask : Nat) (s : State) :
    Acts [none] [] s (burstCloseAll mask s) ∧
      ∀ x < 4, mask.testBit x = true → s.bit (F.GRF_CH_STATUS_IN_WINDOW x) = true → WindowShut x s (burstCloseAll mask s) := by
  have mem {x : Nat} : x ∈ (List.range 4).filter (fun x => mask.testBit x) ↔ x < 4 ∧ mask.testBit x = true := by simp
  obtain ⟨ha, -, hin⟩ := Acts.foldl_chains (s := s) (f := burstCloseOne) (List.nodup_range.filter _)
    (fun x hx => (mem.1 hx).1) fun x hx u _ => .burstCloseOne (mem.1 hx).1 u
  refine ⟨ha, fun x hx hm hw => ?_⟩
  obtain ⟨u, hu, ht⟩ := hin x (mem.2 ⟨hx, hm⟩)
  obtain ⟨hs, -, hb⟩ := hu.own
  obtain ⟨hs', hc', -⟩ := ht.own
  obtain ⟨-, hshut, htgt⟩ := burstCloseOne_spec hx ((bit_congr hs).trans hw)
  exact ⟨(bit_congr hs').trans hshut, ((fld_congr hc').trans htgt).trans (fld_congr hb)⟩

end Sys2Proof.Machine
end

section
/-! PROOFS. O6: the timetable's actions (R48 to R59). -/
namespace Sys2Proof.Machine

variable {T : List (Option Nat)} {K : List Fld} {s t u : State} {i : BitVec 12} {f : Nat → State → State}

/-! What a dispatch leaves beside the words and the table. -/

theorem ttTaken_beside (i : Nat) (s : State) : (ttTaken i s).chains = s.chains ∧ (ttTaken i s).bcn = s.bcn ∧
    (ttTaken i s).tp = s.tp ∧ (ttTaken i s).seqs = s.seqs := by
  have h := (WordsOnly.ttTaken i s).rest
  exact ⟨(congrArg State.chains h :), (congrArg State.bcn h :), (congrArg State.tp h :), (congrArg State.seqs h :)⟩

theorem ttAfter_beside (i : Nat) (s u : State) : (ttAfter i s u).chains = u.chains ∧ (ttAfter i s u).bcn = u.bcn ∧
    (ttAfter i s u).tp = u.tp ∧ (ttAfter i s u).seqs = u.seqs := by
  have h := (WordsOnly.ttFired i (ttHeld i s) ((ttNow i s).late s) false u).rest
  exact ⟨(congrArg State.chains h :), (congrArg State.bcn h :), (congrArg State.tp h :), (congrArg State.seqs h :)⟩

theorem Keeps.bit (h : Keeps K s t) {f : Fld} (hf : f ∈ K) : t.bit f = s.bit f := by rw [State.bit, State.bit, h.flds f hf]

theorem plainFlds_nil : plainFlds [] := fun _ h => absurd h List.not_mem_nil

theorem ttSpared_singleton {g : Fld} (hg : plainKey g.off ∧ g.off ≠ R.TT_STATUS) : ttSpared [g] := fun _ h =>
  List.mem_singleton.1 h ▸ hg

/-- Fields that no end of a dispatch writes. -/
theorem fld_ttTaken {g : Fld} (hg : plainKey g.off ∧ g.off ≠ R.TT_STATUS) (i : Nat) (s : State) :
    (ttTaken i s).fld g = s.fld g := (Keeps.ttTaken (ttSpared_singleton hg) i s).flds g (by simp)

theorem fld_ttAfter {g : Fld} (hg : plainKey g.off ∧ g.off ≠ R.TT_STATUS) (i : Nat) (s u : State) :
    (ttAfter i s u).fld g = u.fld g := (Keeps.ttAfter (ttSpared_singleton hg) i s u).flds g (by simp)

theorem bit_ttTaken {g : Fld} (hg : plainKey g.off ∧ g.off ≠ R.TT_STATUS) (i : Nat) (s : State) :
    (ttTaken i s).bit g = s.bit g := by rw [State.bit, State.bit, fld_ttTaken hg]

theorem bit_ttAfter {g : Fld} (hg : plainKey g.off ∧ g.off ≠ R.TT_STATUS) (i : Nat) (s u : State) :
    (ttAfter i s u).bit g = u.bit g := by rw [State.bit, State.bit, fld_ttAfter hg]

theorem EventUp.ttAfter {n : Nat} (h : EventUp n u) (i : Nat) (s : State) : EventUp n (Machine.ttAfter i s u) :=
  (Keeps.ttAfter ttSpared_nil i s u).events n h

theorem Acts.memsSame_dispatched {i : Nat} (ha : Acts T [] (ttTaken i s) u) : MemsSame s (ttAfter i s u) :=
  (ha.dispatched ttSpared_nil).mems

/-- A command that dispatches what is due, with an action that asks for no start of its own. -/
theorem exec_fires {c : Instr} {i act : Nat} (he : exec c s = .next (ttDispatch i act f s)) (h : TtDue i act s) (hT : some i ∉ T)
    (ha : Acts T K (ttTaken i s) (f (ttNow i s).param (ttTaken i s))) :
    exec c s = .next (ttAfter i s (f (ttNow i s).param (ttTaken i s))) :=
  he.trans (congrArg _ (ttDispatch_acts h hT ha))

/-! NONE, RAISE_EVENT and a drop. -/

theorem exec_ttNone (i : BitVec 12) (s : State) : exec (.ttNone i) s = .next (ttDispatch i.toNat 0 (fun _ s => s) s) := rfl

theorem exec_raiseEvent (i : BitVec 12) (s : State) :
    exec (.raiseEvent i) s = .next (ttDispatch i.toNat 1 (fun p s => raise (16 + p % 8) s) s) := rfl

theorem ttNone_due (h : TtDue i.toNat 0 s) : ∃ t, exec (.ttNone i) s = .next t ∧ TtFired i.toNat s t ∧ MemsSame s t ∧
    t.chains = s.chains ∧ t.bcn = s.bcn := by
  have ha : Acts [] [] (ttTaken i.toNat s) (ttTaken i.toNat s) := .refl _ _ _
  obtain ⟨hc, hb, -⟩ := ttTaken_beside i.toNat s
  obtain ⟨hc', hb', -⟩ := ttAfter_beside i.toNat s (ttTaken i.toNat s)
  exact ⟨_, exec_fires (exec_ttNone i s) h (by simp) ha, ttFired_ttAfter _ _ _, ha.memsSame_dispatched,
    hc'.trans hc, hb'.trans hb⟩

theorem raiseEvent_due (h : TtDue i.toNat 1 s) : ∃ t, exec (.raiseEvent i) s = .next t ∧ TtFired i.toNat s t ∧
    EventUp (16 + (ttNow i.toNat s).param % 8) t ∧ MemsSame s t := by
  have ha : Acts [] [] (ttTaken i.toNat s) (raise (16 + (ttNow i.toNat s).param % 8) (ttTaken i.toNat s)) :=
    .raise plainFlds_nil _ _
  exact ⟨_, exec_fires (exec_raiseEvent i s) h (by simp) ha, ttFired_ttAfter _ _ _,
    (EventUp.raise_self _ _).ttAfter _ _, ha.memsSame_dispatched⟩

/-- The entry after a drop. -/
def TtEntry.droppedAfter (e : TtEntry) (late : Nat) : TtEntry :=
  { e.after with lateTicks := satNat 0xFFFF late, dropped := true, waiting := none }

theorem ttDrop_eq (i : Nat) (e : TtEntry) (late : Nat) (s : State) :
    ttDrop i e late s = raise 11 ((setTt s i (e.droppedAfter late)).setFld F.TT_STATUS_DROP 1) := rfl

theorem ttDrop_spec (i : Nat) (e : TtEntry) (late : Nat) (s : State) :
    let t := ttDrop i e late s
    (ttEntry t i).dropped = true ∧ (ttEntry t i).lateTicks = min 0xFFFF late ∧ EventUp 11 t ∧ t.bit F.TT_STATUS_DROP = true ∧
      MemsSame s t := by
  have hw : WordsOnly (R.TT_STATUS :: evKeys 11) (setTt s i (e.droppedAfter late)) (ttDrop i e late s) := by
    rw [ttDrop_eq]
    exact ((WordsOnly.setFld F.TT_STATUS_DROP 1 _).mono (by simp)).trans
      ((WordsOnly.raise 11 _).mono (List.subset_cons_self _ _))
  have he : ttEntry (ttDrop i e late s) i = e.droppedAfter late := by
    rw [ttEntry, hw.tt]
    exact ttEntry_setTt s i _
  dsimp only
  refine ⟨by rw [he]; rfl, by rw [he]; exact satNat_eq_min _ _, ?_, ?_, (memsSame_setTt s i _).trans hw.memsSame⟩
  · rw [ttDrop_eq]
    exact .raise_self 11 _
  · rw [ttDrop_eq, bit_raise (by decide)]
    exact State.bit_setFld_one _ _ rfl (by decide)

theorem ttNone_late (ha : (ttEntry s i.toNat).action = 0) (hp : ttPick s = some i.toNat)
    (hl : (ttNow i.toNat s).tooLate ((ttNow i.toNat s).late s) s = true) :
    ∃ t, exec (.ttNone i) s = .next t ∧ (ttEntry t i.toNat).dropped = true ∧
      (ttEntry t i.toNat).lateTicks = min 0xFFFF ((ttNow i.toNat s).late s) ∧ EventUp 11 t ∧ t.bit F.TT_STATUS_DROP = true ∧
      MemsSame s t :=
  ⟨_, (exec_ttNone i s).trans (congrArg _ (ttDispatch_of_late ha hp hl _)), ttDrop_spec _ _ _ { s with arb := ttArbNow s }⟩

theorem exec_not_next (h : ttPick s ≠ some i.toNat) : exec (.ttNone i) s = .next s ∧ exec (.raiseEvent i) s = .next s :=
  ⟨(exec_ttNone i s).trans (congrArg _ (ttDispatch_of_not_next h 0 _)),
    (exec_raiseEvent i s).trans (congrArg _ (ttDispatch_of_not_next h 1 _))⟩

/-! BURST_OPEN and BURST_CLOSE. -/

theorem exec_burstOpen (i : BitVec 12) (s : State) :
    exec (.burstOpen i) s = .next (ttDispatch i.toNat 2 (fun p s => burstOpenAll p (some i.toNat) s) s) := rfl

theorem exec_burstClose (i : BitVec 12) (s : State) :
    exec (.burstClose i) s = .next (ttDispatch i.toNat 3 (fun p s => burstCloseAll p s) s) := rfl

/-- Settled, the entry is not dropped, and a chain's words stand. -/
theorem ttSettle_waits {i : Nat} (ha : Acts T [] (ttTaken i s) u) :
    (ttEntry (ttSettle i u) i).dropped = false ∧ ∀ x < 4, Keeps (ownFlds x) u (ttSettle i u) := by
  cases hq : u.budget.queue.any (fun r => r.tt == some i)
  · rw [ttSettle_ready ha.tt (ha.tick.trans (ttTaken_tick i s)) hq]
    exact ⟨(ttFired_ttAfter i s u).2.1, fun x hx => .ttAfter (ttSpared_ownFlds hx) i s u⟩
  · rw [ttSettle_waiting ha.tt hq, ttEntry_of_taken ha.tt]
    exact ⟨rfl, fun x _ => .refl _ u⟩

theorem opens_ttTaken (i mask : Nat) (s : State) (x : Nat) : opens mask (ttTaken i s) x = opens mask s x := by
  simp only [opens, pstate, fld_ttTaken (g := F.PWR_STAT_STATE) (by decide),
    fld_ttTaken (g := F.GRF_BURST_CTRL_HOP_CHAIN) (by decide)]

theorem chainState_ttTaken {x : Nat} (hx : x < 4) (i : Nat) (s : State) : chainState x (ttTaken i s) = chainState x s :=
  fld_ttTaken (spared_of_radio (by simp; omega) (by simp; omega)) i s

theorem burstOpen_due (h : TtDue i.toNat 2 s) :
    let p := (ttNow i.toNat s).param
    ∃ t, exec (.burstOpen i) s = .next t ∧ (ttEntry t i.toNat).dropped = false ∧
      ((∀ x < 4, opens p s x = true → chainState x s ≠ 0) → TtFired i.toNat s t) ∧
      (∀ x < 4, opens p s x = true → WindowOpen x t) ∧
      (∀ x < 4, opens p s x = false → t.word (R.GRF_CH_STATUS x) = s.word (R.GRF_CH_STATUS x)) := by
  intro p
  have hall {T : List (Option Nat)} := burstOpenAll_spec (T := T) (mask := p) (tt := some i.toNat) (s := ttTaken i.toNat s)
  simp only [opens_ttTaken] at hall
  obtain ⟨ha, hopen, hshut⟩ := hall (T := [some i.toNat]) fun _ _ _ _ => List.mem_singleton.2 rfl
  obtain ⟨hd, hk⟩ := ttSettle_waits ha
  refine ⟨_, (exec_burstOpen i s).trans (congrArg _ (ttDispatch_of_due h _)), hd, fun hon => ?_, fun x hx ho => ?_,
    fun x hx ho => ?_⟩
  · obtain ⟨ha', -⟩ := hall (T := []) fun x hx ho h0 => absurd ((chainState_ttTaken hx _ s).symm.trans h0) (hon x hx ho)
    rw [← ttDispatch_of_due h fun p s => burstOpenAll p (some i.toNat) s,
      ttDispatch_acts (f := fun p s => burstOpenAll p (some i.toNat) s) h (by simp) ha']
    exact ttFired_ttAfter _ _ _
  · exact (hopen x hx ho).own (hk x hx)
  · exact ((Keeps.ttTaken (ttSpared_ownFlds hx) _ s).trans ((hshut x hx ho).trans (hk x hx))).own.1

theorem burstClose_due (h : TtDue i.toNat 3 s) : ∃ t, exec (.burstClose i) s = .next t ∧ TtFired i.toNat s t ∧
    ∀ x < 4, (ttNow i.toNat s).param.testBit x = true → s.bit (F.GRF_CH_STATUS_IN_WINDOW x) = true → WindowShut x s t := by
  obtain ⟨ha, hshut⟩ := burstCloseAll_spec (ttNow i.toNat s).param (ttTaken i.toNat s)
  refine ⟨_, exec_fires (exec_burstClose i s) h (by simp) ha, ttFired_ttAfter _ _ _,
    fun x hx hp hw => ?_⟩
  have hk := Keeps.ttTaken (ttSpared_ownFlds hx) i.toNat s
  obtain ⟨hs, -, hb⟩ := hk.own
  have hk' := Keeps.ttAfter (ttSpared_ownFlds hx) i.toNat s (burstCloseAll (ttNow i.toNat s).param (ttTaken i.toNat s))
  obtain ⟨hs', hc', -⟩ := hk'.own
  obtain ⟨hin, ht⟩ := hshut x hx hp ((bit_congr hs).trans hw)
  exact ⟨(bit_congr hs').trans hin, ((fld_congr hc').trans ht).trans (fld_congr hb)⟩

/-! BEACON_FRAME (R352). -/

theorem exec_beaconFrame (i : BitVec 12) (s : State) :
    exec (.beaconFrame i) s = .next (ttDispatch i.toNat 4 (fun p s => frameDispatch i.toNat p (ttEntry s i.toNat).due s) s) := rfl

theorem Acts.frameDispatch_beyond {tt p due : Nat} (h : 256 ≤ p) (s : State) :
    Acts T [] s (frameDispatch tt p due s) ∧ EventUp 105 (frameDispatch tt p due s) ∧ (frameDispatch tt p due s).bcn = s.bcn := by
  rw [frameDispatch, if_pos h]
  exact ⟨.raise plainFlds_nil 105 s, .raise_self 105 s, (WordsOnly.raise 105 s).bcn⟩

theorem beaconFrame_beyond (h : TtDue i.toNat 4 s) (hp : 256 ≤ (ttNow i.toNat s).param) :
    ∃ t, exec (.beaconFrame i) s = .next t ∧ TtFired i.toNat s t ∧ EventUp 105 t ∧ t.bcn = s.bcn ∧ MemsSame s t := by
  obtain ⟨ha, he, hb⟩ := Acts.frameDispatch_beyond (T := []) (tt := i.toNat) (due := (ttEntry (ttTaken i.toNat s) i.toNat).due) hp
    (ttTaken i.toNat s)
  exact ⟨_, exec_fires (exec_beaconFrame i s) h (by simp) ha,
    ttFired_ttAfter _ _ _, he.ttAfter _ _, ((ttAfter_beside _ _ _).2.1.trans hb).trans (ttTaken_beside _ s).2.1,
    ha.memsSame_dispatched⟩

theorem frameDispatch_disabled {tt p due : Nat} (hp : p < 256) (he : s.bit F.BCN_CFG_EN = false)
    (hd : descOk (s.memBytes (descAddr p) 256) = true) : frameDispatch tt p due s = frameRefuse p ST.abort s := by
  have hf : frameFault (s.memBytes (descAddr p) 256) due s = some ST.abort := by simp [frameFault, hd, he]
  rw [frameDispatch, if_neg (by omega)]
  simp only [hf]
  rfl

/-- A refused frame: its RESULT byte and EV_105 alone. -/
theorem frameRefuse_spec (p st : Nat) (s : State) :
    let t := frameRefuse p st s
    t.tt = s.tt ∧ t.tick = s.tick ∧ t.budget = s.budget ∧ t.bcn = s.bcn ∧ EventUp 105 t ∧
      ∀ a, t.memByte a = if a = descAddr p + 16 then BitVec.ofNat 8 st else s.memByte a := by
  have hw := WordsOnly.raise 105 (s.setMemByte (descAddr p + 16) (BitVec.ofNat 8 st))
  refine ⟨hw.tt, (congrArg State.tick hw.rest :), hw.budget, hw.bcn, .raise_self 105 _, fun a => ?_⟩
  rw [State.memByte, frameRefuse, hw.memsSame.1, ← State.memByte, State.memByte_setMemByte]

theorem memByte_congr (h : t.mem = s.mem) (a : Nat) : t.memByte a = s.memByte a := by rw [State.memByte, h, State.memByte]

theorem beaconFrame_disabled (h : TtDue i.toNat 4 s) (hp : (ttNow i.toNat s).param < 256) (he : s.bit F.BCN_CFG_EN = false)
    (hd : descOk (s.memBytes (descAddr (ttNow i.toNat s).param) 256) = true) :
    ∃ t, exec (.beaconFrame i) s = .next t ∧ TtFired i.toNat s t ∧
      t.memByte (descAddr (ttNow i.toNat s).param + 16) = BitVec.ofNat 8 ST.abort ∧ EventUp 105 t ∧ t.bcn = s.bcn ∧
      ∀ a, a ≠ descAddr (ttNow i.toNat s).param + 16 → t.memByte a = s.memByte a := by
  have hmem : (ttTaken i.toNat s).mem = s.mem := (Keeps.ttTaken ttSpared_nil i.toNat s).mems.1
  have hu := frameDispatch_disabled (tt := i.toNat) (due := (ttEntry (ttTaken i.toNat s) i.toNat).due) hp
    ((bit_ttTaken (by decide) _ s).trans he) (by rwa [State.memBytes, hmem])
  obtain ⟨htt, htick, hbud, hbcn, hev, hbyte⟩ := frameRefuse_spec (ttNow i.toNat s).param ST.abort (ttTaken i.toNat s)
  rw [← hu] at htt htick hbud hbcn hev hbyte
  generalize hv : frameDispatch i.toNat (ttNow i.toNat s).param (ttEntry (ttTaken i.toNat s) i.toNat).due (ttTaken i.toNat s) = v
    at htt htick hbud hbcn hev hbyte
  have hq : v.budget.queue.any (fun r => r.tt == some i.toNat) = false := hbud ▸ no_start_ttTaken h
  have hfire : ttDispatch i.toNat 4 (fun p s => frameDispatch i.toNat p (ttEntry s i.toNat).due s) s = ttAfter i.toNat s v := by
    rw [ttDispatch_of_due h, hv]
    exact ttSettle_ready htt (htick.trans (ttTaken_tick _ s)) hq
  obtain ⟨-, hb, -⟩ := ttTaken_beside i.toNat s
  obtain ⟨-, hb', -⟩ := ttAfter_beside i.toNat s v
  have hbyte' (a : Nat) := (memByte_congr (Keeps.ttAfter ttSpared_nil i.toNat s v).mems.1 a).trans (hbyte a)
  exact ⟨_, (exec_beaconFrame i s).trans (congrArg _ hfire), ttFired_ttAfter _ _ _, (hbyte' _).trans (if_pos rfl),
    hev.ttAfter _ _, (hb'.trans hbcn).trans hb, fun a ha => ((hbyte' a).trans (if_neg ha)).trans (memByte_congr hmem a)⟩

/-! ARM_PULSE and WAKE_SEQ (R290, R383). -/

theorem exec_armPulse (i : BitVec 12) (s : State) :
    exec (.armPulse i) s = .next (ttDispatch i.toNat 5 (fun p s => armPulse i.toNat (p % 2) s) s) := rfl

theorem exec_wakeSeq (i : BitVec 12) (s : State) :
    exec (.wakeSeq i) s = .next (ttDispatch i.toNat 6 (fun p s => wakeInput (p % 16) (p / 16 % 16) s) s) := rfl

theorem Acts.armPulse (i n : Nat) (s : State) : Acts T [] s (Machine.armPulse i n s) := (Keeps.of_regs : Keeps _ _ _).acts

theorem armed_armPulse (i n : Nat) (s : State) : (tpOut (armPulse i n s) n).armed = (tpOut s n).armed ++
    [⟨(((ttEntry s i).due * fracUnits : Nat) : Int) + psUnits (toSigned 32 (s.word (R.TP_DELAY n)).toNat),
      if (ttEntry s i).period = 0 then none else some ((ttEntry s i).period * fracUnits / 2)⟩] := by
  simp [armPulse, setTp, tpOut]

theorem armPulse_due (h : TtDue i.toNat 5 s) :
    let e := ttNow i.toNat s
    let n := e.param % 2
    ∃ t, exec (.armPulse i) s = .next t ∧ TtFired i.toNat s t ∧ MemsSame s t ∧ (tpOut t n).armed = (tpOut s n).armed ++
      [⟨((e.due * fracUnits : Nat) : Int) + psUnits (toSigned 32 (s.word (R.TP_DELAY n)).toNat),
        if e.period = 0 then none else some (e.period * fracUnits / 2)⟩] := by
  intro e n
  have ha : Acts [] [] (ttTaken i.toNat s) (armPulse i.toNat n (ttTaken i.toNat s)) := .armPulse _ _ _
  refine ⟨_, exec_fires (exec_armPulse i s) h (by simp) ha, ttFired_ttAfter _ _ _,
    ha.memsSame_dispatched, ?_⟩
  obtain ⟨-, -, htp, -⟩ := ttTaken_beside i.toNat s
  obtain ⟨-, -, htp', -⟩ := ttAfter_beside i.toNat s (armPulse i.toNat n (ttTaken i.toNat s))
  have hdelay : (ttTaken i.toNat s).word (R.TP_DELAY n) = s.word (R.TP_DELAY n) := by
    have hn : n < 2 := Nat.mod_lt _ (by decide)
    refine (Keeps.ttTaken (K := [wholeWord (R.TP_DELAY n)]) ?_ i.toNat s).word (by simp)
    interval_cases n <;> decide
  rw [tpOut, htp', ← tpOut, armed_armPulse, tpOut, htp, ← tpOut, hdelay, ttEntry_of_taken rfl]
  rfl

theorem Acts.wakeInput (n k : Nat) (s : State) : Acts T [] s (Machine.wakeInput n k s) :=
  .ite (Keeps.of_regs : Keeps _ _ _).acts (.refl _ _ s)

theorem ipend_wakeInput (n k q : Nat) (s : State) : ((wakeInput n k s).seq q).ipend =
    if q = n ∧ 4 ≤ k ∧ k ≤ 11 then (s.seq q).ipend ||| (1#16 <<< k) else (s.seq q).ipend := by
  unfold wakeInput setInput
  by_cases hk : 4 ≤ k ∧ k ≤ 11
  · by_cases hq : q = n
    · subst hq
      simp [hk]
    · simp [hk, hq, State.seq_setSeq_ne]
  · simp [hk]

theorem wakeSeq_due (h : TtDue i.toNat 6 s) :
    let p := (ttNow i.toNat s).param
    ∃ t, exec (.wakeSeq i) s = .next t ∧ TtFired i.toNat s t ∧ MemsSame s t ∧
      ∀ q, (t.seq q).ipend =
        if q = p % 16 ∧ 4 ≤ p / 16 % 16 ∧ p / 16 % 16 ≤ 11 then (s.seq q).ipend ||| (1#16 <<< (p / 16 % 16)) else (s.seq q).ipend := by
  intro p
  have ha : Acts [] [] (ttTaken i.toNat s) (wakeInput (p % 16) (p / 16 % 16) (ttTaken i.toNat s)) := .wakeInput _ _ _
  refine ⟨_, exec_fires (exec_wakeSeq i s) h (by simp) ha, ttFired_ttAfter _ _ _,
    ha.memsSame_dispatched, fun q => ?_⟩
  obtain ⟨-, -, -, hs⟩ := ttTaken_beside i.toNat s
  obtain ⟨-, -, -, hs'⟩ := ttAfter_beside i.toNat s (wakeInput (p % 16) (p / 16 % 16) (ttTaken i.toNat s))
  have hseq : (ttTaken i.toNat s).seq q = s.seq q := by rw [State.seq, hs, State.seq]
  rw [State.seq, hs', ← State.seq, ipend_wakeInput, hseq]

/-! START_CAL (R83, R84, R344). -/

theorem exec_startCal (i : BitVec 12) (s : State) :
    exec (.startCal i) s = .next (ttDispatch i.toNat 7 (fun p s => calRequestAny (p % 256) s) s) := rfl

theorem spares_nil {g : Fld} (hl : g.lo ≤ g.hi) (hh : g.hi < 32) (ho : g.off < 0x1000000) : g.spares [] := ⟨hl, hh, ho, by simp⟩

theorem Acts.chainCalRequest (code : Nat) (s : State) : Acts T [] s (Machine.chainCalRequest code s) := by
  have one {x p : Nat} (hx : x < 4) (hp : p < 4) (s : State) : Acts T [] s (Machine.calRequestOne x p s) :=
    (Acts.calRequestOne hx hp s).mono (by simp)
  unfold Machine.chainCalRequest
  split
  · exact one (by omega) (by omega) s
  · split
    · exact .foldl (fun s p hp => one (by omega) (List.mem_range.1 hp) s) s
    · refine .ite (.foldl (fun s k hk => one ?_ (by omega) s) s)
        ((Acts.setFld _ _ s (by decide)).trans (.raise plainFlds_nil 39 _))
      have := List.mem_range.1 hk
      omega

theorem Acts.bcnCalRequest (code : Nat) (s : State) : Acts T [] s (Machine.bcnCalRequest code s) := by
  have hn : code % 64 < 64 := Nat.mod_lt _ (by decide)
  have cal {n : Nat} (hn : n < 64) (s : State) : Acts T [] s (s.setFld (F.BCN_CH_CAL_CAL_PEND n) 1) :=
    .setFld _ 1 s (spares_nil (by simp) (by simp) (by simp; omega))
  have tune : Acts T [] s (s.setFld (F.BCN_CH_TUNE_TUNE_PEND (code % 64)) 1) :=
    .setFld _ 1 s (spares_nil (by simp) (by simp) (by simp; omega))
  have refused : Acts T [] s (bcnCalResult ST.format s) := .setFld _ _ s (by decide)
  exact .ite (.ite (cal hn s) refused)
    (.ite (.foldl (fun s n hn => .ite (cal (List.mem_range.1 hn) s) (.refl _ _ s)) s) (.ite (.ite tune refused) refused))

theorem Acts.calRequestAny (code : Nat) (s : State) : Acts T [] s (Machine.calRequestAny code s) :=
  .ite (.chainCalRequest code s) (.bcnCalRequest code s)

theorem calRequestAny_pended {code : Nat} (hc : code < 16) (h : chainState (code / 4) s ≠ 3) :
    (calRequestAny code s).bit (F.GRF_CH_PROF_CAL_CAL_PEND (code / 4) (code % 4)) = true := by
  have hcal (u : State) : WordsOnly [R.GRF_CAL_STATUS] u (syncCal u) :=
    (WordsOnly.setFld F.GRF_CAL_STATUS_ACTIVE _ u).trans (.setFld F.GRF_CAL_STATUS_PEND_MASK _ _)
  rw [calRequestAny, if_pos (by omega), chainCalRequest, if_pos hc, calRequestOne]
  simp only [h, decide_false, Bool.false_and, Bool.false_eq_true, if_false]
  have hne : R.GRF_CH_PROF_CAL (code / 4) (code % 4) ≠ R.GRF_CAL_STATUS := by
    simp only [R.GRF_CH_PROF_CAL, R.GRF_CAL_STATUS]
    omega
  rw [(hcal _).words.bit (by simpa using hne)]
  exact State.bit_setFld_one _ _ rfl (by simp)

theorem calRequestAny_reserved {code : Nat} (h1 : 0x15 ≤ code) (h2 : code < 0x40) :
    (calRequestAny code s).fld F.GRF_CAL_STATUS_LAST_RESULT = ST.format ∧ EventUp 39 (calRequestAny code s) := by
  rw [calRequestAny, if_pos h2, chainCalRequest, if_neg (by omega), if_neg (by omega), if_neg (by omega)]
  refine ⟨?_, .raise_self 39 _⟩
  rw [fld_raise (by decide), State.fld_setFld _ _ _ (by decide) (by decide)]
  rfl

theorem calRequestAny_beacon {code : Nat} (h1 : 0x40 ≤ code) (h2 : code < 0x80) :
    calRequestAny code s =
      if chtEnabled (code % 64) s then s.setFld (F.BCN_CH_CAL_CAL_PEND (code % 64)) 1 else bcnCalResult ST.format s := by
  rw [calRequestAny, if_neg (by omega), bcnCalRequest, if_pos ⟨h1, h2⟩]

/-- Whether a channel is enabled is read off the charter and its state. -/
theorem chtEnabled_congr (h1 : t.fld F.BCN_STATUS_CHT_STATE = s.fld F.BCN_STATUS_CHT_STATE) (h2 : t.bcn = s.bcn) (n : Nat) :
    chtEnabled n t = chtEnabled n s := by
  have hr : chtRec t = chtRec s := funext fun k => by rw [chtRec, h2, chtRec]
  have hrecs : chtRecs n t = chtRecs n s := by rw [chtRecs, hr, chtRecs]
  have hfreq : chtFreq n t = chtFreq n s := by rw [chtFreq, chtValid, h1, chtAt, h2, chtFreq, chtValid, chtAt]
  rw [chtEnabled, hfreq, hrecs, chtEnabled]

theorem startCal_due (h : TtDue i.toNat 7 s) :
    let p := (ttNow i.toNat s).param
    ∃ t, exec (.startCal i) s = .next t ∧ TtFired i.toNat s t ∧ MemsSame s t ∧
      (p % 256 < 16 → chainState (p % 256 / 4) s ≠ 3 →
        t.bit (F.GRF_CH_PROF_CAL_CAL_PEND (p % 256 / 4) (p % 256 % 4)) = true) ∧
      (0x15 ≤ p % 256 → p % 256 < 0x40 → t.fld F.GRF_CAL_STATUS_LAST_RESULT = ST.format ∧ EventUp 39 t) ∧
      (0x40 ≤ p % 256 → p % 256 < 0x80 → chtEnabled (p % 64) s = true → t.bit (F.BCN_CH_CAL_CAL_PEND (p % 64)) = true) ∧
      (0x40 ≤ p % 256 → p % 256 < 0x80 → chtEnabled (p % 64) s = false → t.fld F.BCN_STATUS_CAL_RESULT = ST.format) := by
  intro p
  have ha : Acts [] [] (ttTaken i.toNat s) (calRequestAny (p % 256) (ttTaken i.toNat s)) := .calRequestAny _ _
  have hch : p % 256 % 64 = p % 64 := by omega
  have hen : chtEnabled (p % 64) (ttTaken i.toNat s) = chtEnabled (p % 64) s :=
    chtEnabled_congr (fld_ttTaken (by decide) _ s) (ttTaken_beside _ s).2.1 _
  refine ⟨_, exec_fires (exec_startCal i s) h (by simp) ha, ttFired_ttAfter _ _ _,
    ha.memsSame_dispatched, fun hc hs => ?_, fun h1 h2 => ?_, fun h1 h2 he => ?_, fun h1 h2 he => ?_⟩
  · have hx : p % 256 / 4 < 4 := by omega
    rw [bit_ttAfter (spared_of_radio (by simp; omega) (by simp; omega))]
    exact calRequestAny_pended hc (chainState_ttTaken hx i.toNat s ▸ hs)
  · obtain ⟨hf, he⟩ := calRequestAny_reserved (s := ttTaken i.toNat s) h1 h2
    exact ⟨(fld_ttAfter (by decide) _ s _).trans hf, he.ttAfter _ _⟩
  · rw [bit_ttAfter (spared_of_radio (by simp; omega) (by simp; omega)), calRequestAny_beacon h1 h2, hch, hen, if_pos he]
    exact State.bit_setFld_one _ _ rfl (by simp)
  · rw [fld_ttAfter (by decide), calRequestAny_beacon h1 h2, hch, hen, he, if_neg (by decide)]
    exact State.fld_setFld _ _ _ (by decide) (by decide)

/-- Settles O6, action by action: the dispatch takes the entry, does its action, and settles it. -/
theorem timetableActions : Obligations.TimetableActions := fun _ _ =>
  ⟨ttNone_due, raiseEvent_due, burstOpen_due, burstClose_due, beaconFrame_disabled, beaconFrame_beyond, armPulse_due, wakeSeq_due,
    startCal_due, fun _ ha hp hl htl => hl ▸ ttNone_late ha hp (hl ▸ htl), exec_not_next⟩

end Sys2Proof.Machine
end

section
/-! SUPPORT. A radio chain's state outside its registers, and frames for the operations that its motions are made of (R75 to R96). -/
namespace Sys2Proof.Machine

variable {K : List Fld} {s t u : State} {x y p n : Nat} {tt : Option Nat} {ks : List Nat}

theorem State.bit_setFld_zero (s : State) (f : Fld) (hl : f.lo = f.hi) (hh : f.hi < 32) : (s.setFld f 0).bit f = false :=
  State.bit_setBit s f false hl hh

/-- A writable field takes a value that its table does not refuse. -/
theorem fld_plainWrite_rw {r : Reader} {off hi lo rst : Nat} {spec : RegSpec} {l : Legal} (v : Word) (h : regAt off = some spec)
    (hp : spec.perReader = false) (ha : fieldsApart spec.fields) (hf : (⟨hi, lo, .rw, rst, l⟩ : FieldSpec) ∈ spec.fields)
    (hok : l.ok (hi + 1 - lo) (bitsOf v.toNat hi lo) = true) : (plainWrite r off v s).fld ⟨off, hi, lo⟩ = bitsOf v.toNat hi lo := by
  rw [fld_plainWrite v h hp ha hf]
  simp only [fieldAfter, hok, if_true]

/-! The chains' words are BAR 0 words that no event changes. -/

theorem plainKey_chStatus (x : Fin 4) : plainKey (R.GRF_CH_STATUS x) :=
  (spared_of_radio (by simp only [R.GRF_CH_STATUS]; omega) (by simp only [R.GRF_CH_STATUS]; omega)).1

theorem plainKey_antStat (x : Fin 4) : plainKey (R.GRF_CH_ANT_STAT x) :=
  (spared_of_radio (by simp only [R.GRF_CH_ANT_STAT]; omega) (by simp only [R.GRF_CH_ANT_STAT]; omega)).1

theorem plainKey_profCal (x : Fin 4) (hn : n < 4) : plainKey (R.GRF_CH_PROF_CAL x n) :=
  (spared_of_radio (by simp only [R.GRF_CH_PROF_CAL]; omega) (by simp only [R.GRF_CH_PROF_CAL]; omega)).1

/-! What each operation makes of the chains. -/

@[simp] theorem chain_setChain (s : State) (x y : Nat) (c : Chain) :
    chain (setChain s x c) y = if y = x then c else chain s y := by
  simp [chain, setChain, Sparse.get_put]

@[simp] theorem fld_setChain (s : State) (x : Nat) (c : Chain) (f : Fld) : (setChain s x c).fld f = s.fld f := rfl

@[simp] theorem bit_setChain (s : State) (x : Nat) (c : Chain) (f : Fld) : (setChain s x c).bit f = s.bit f := rfl

theorem WordsOnly.chains (h : WordsOnly ks s t) : t.chains = s.chains := (congrArg State.chains h.rest :)

theorem chain_congr (h : t.chains = s.chains) (y : Nat) : chain t y = chain s y := by rw [chain, h, chain]

@[simp] theorem chain_setFld (s : State) (f : Fld) (v y : Nat) : chain (s.setFld f v) y = chain s y :=
  chain_congr (s.setFld_chains f v) y

@[simp] theorem chain_setMaskBit (s : State) (k i : Nat) (b : Bool) (y : Nat) : chain (s.setMaskBit k i b) y = chain s y :=
  chain_congr (s.setMaskBit_chains k i b) y

@[simp] theorem chain_raise (n y : Nat) (s : State) : chain (raise n s) y = chain s y := chain_congr (WordsOnly.raise n s).chains y

theorem WordsOnly.syncCal (s : State) : WordsOnly [R.GRF_CAL_STATUS] s (Machine.syncCal s) :=
  (WordsOnly.setFld F.GRF_CAL_STATUS_ACTIVE _ s).trans (.setFld F.GRF_CAL_STATUS_PEND_MASK _ _)

@[simp] theorem chain_syncCal (y : Nat) (s : State) : chain (syncCal s) y = chain s y := chain_congr (WordsOnly.syncCal s).chains y

theorem WordsOnly.setAntState (x st : Nat) (s : State) :
    WordsOnly (R.GRF_CH_ANT_STAT x :: evKeys (32 + x)) s (Machine.setAntState x st s) := by
  unfold Machine.setAntState
  split
  · exact .refl _ s
  · exact ((WordsOnly.setFld (F.GRF_CH_ANT_STAT_STATE x) st s).mono (by simp)).trans
      ((WordsOnly.raise _ _).mono (List.subset_cons_self _ _))

@[simp] theorem chain_setAntState (x st y : Nat) (s : State) : chain (setAntState x st s) y = chain s y :=
  chain_congr (WordsOnly.setAntState x st s).chains y

/-- Where the bias switch stands once it has followed BIAS_MODE and the chain's state (R94, R95): a short leaves it as it was. -/
def biasSwitch (x : Nat) (s : State) : Bool :=
  let st := s.fld (F.GRF_CH_ANT_STAT_STATE x)
  biasWanted x s && ((chain s x).biasOn || !decide (st = 3 ∨ st = 4))

@[simp] theorem chain_biasUpdate (x y : Nat) (s : State) :
    chain (biasUpdate x s) y = if y = x then { chain s x with biasOn := biasSwitch x s } else chain s y := by
  unfold biasUpdate biasSwitch
  by_cases hw : biasWanted x s = true
  · by_cases hs : s.fld (F.GRF_CH_ANT_STAT_STATE x) = 3 ∨ s.fld (F.GRF_CH_ANT_STAT_STATE x) = 4
    · by_cases hy : y = x <;> simp [hw, hs, hy]
    · simp [hw, hs]
  · by_cases hs : s.fld (F.GRF_CH_ANT_STAT_STATE x) = 4 <;> simp [hw, hs]

@[simp] theorem chain_setChainState (x st y : Nat) (s : State) : chain (setChainState x st s) y =
    if y = x then { chain s x with biasOn := biasSwitch x (s.setFld (F.GRF_CH_STATUS_STATE x) st) } else chain s y := by
  simp [setChainState]

@[simp] theorem chain_beginStep (x y : Nat) (k : ChainStep) (s : State) :
    chain (beginStep x k s) y = if y = x then { chain s x with step := k, cold := false } else chain s y := by
  simp [beginStep]

/-- The chain itself is in calibration, the bias switch aside. -/
theorem chain_calStart_self (x p : Nat) (k : CalKind) (s : State) :
    ∃ b, chain (calStart x p k s) x = { chain s x with cal := some (p, k), cold := k == .inStep, biasOn := b } := by
  simp [calStart]

@[simp] theorem chain_calStart_ne (h : y ≠ x) (p : Nat) (k : CalKind) (s : State) : chain (calStart x p k s) y = chain s y := by
  simp [calStart, h]

/-- Nothing but registers and the conditioning paths differs. -/
def PathsOnly (s t : State) : Prop := t = { s with regs := t.regs, ifc := t.ifc }

theorem PathsOnly.refl (s : State) : PathsOnly s s := rfl

theorem PathsOnly.trans (h : PathsOnly s t) (k : PathsOnly t u) : PathsOnly s u :=
  Eq.trans k (by rw [show t = _ from h])

theorem PathsOnly.ite {c : Prop} [Decidable c] (ht : PathsOnly s t) (hu : PathsOnly s u) : PathsOnly s (if c then t else u) := by
  split <;> assumption

theorem PathsOnly.setFld (f : Fld) (v : Nat) (s : State) : PathsOnly s (s.setFld f v) := rfl

theorem PathsOnly.notchFree (x n : Nat) (s : State) : PathsOnly s (Machine.notchFree x n s) :=
  PathsOnly.trans (t := setIfcCh s x _) rfl (.setFld _ 0 _)

theorem PathsOnly.notchProfile (x p : Nat) (s : State) : PathsOnly s (Machine.notchProfile x p s) := by
  unfold Machine.notchProfile
  induction 8 with
  | zero => exact .refl s
  | succ n ih =>
    rw [eachNotch]
    refine ih.trans ?_
    split
    · exact .ite (.notchFree x n _) (.refl _)
    · exact .setFld _ _ _
    · exact .refl _

theorem PathsOnly.ifcProfile (x p : Nat) (s : State) : PathsOnly s (Machine.ifcProfile x p s) :=
  .ite (.refl s) ((((PathsOnly.setFld _ _ s).trans (.setFld _ _ _)).trans (.setFld _ p _)).trans (.notchProfile x p _))

theorem PathsOnly.chain (h : PathsOnly s t) (y : Nat) : Machine.chain t y = Machine.chain s y :=
  chain_congr (congrArg State.chains h :) y

theorem PathsOnly.budget (h : PathsOnly s t) : t.budget = s.budget := (congrArg State.budget h :)

@[simp] theorem chain_ifcProfile (x p y : Nat) (s : State) : chain (ifcProfile x p s) y = chain s y :=
  (PathsOnly.ifcProfile x p s).chain y

@[simp] theorem chain_withdrawStart (d y : Nat) (s : State) : chain (withdrawStart d s) y = chain s y :=
  (chain_setFld _ _ _ y).trans (chain_congr rfl y)

@[simp] theorem chain_domainStop (d y : Nat) (s : State) : chain (domainStop d s) y = chain s y :=
  (chain_setMaskBit _ _ _ _ y).trans (chain_withdrawStart d y s)

@[simp] theorem chain_flagEvent (f : Fld) (n y : Nat) (s : State) : chain (flagEvent f n s) y = chain s y :=
  chain_congr (WordsOnly.flagEvent f n s).chains y

@[simp] theorem chain_requestStart (d : Nat) (tt : Option Nat) (y : Nat) (s : State) :
    chain (requestStart d tt s) y = chain s y := by
  unfold requestStart
  extract_lets waits _ s₁
  have h₁ : chain s₁ y = chain s y := (chain_setFld _ _ _ y).trans (chain_congr rfl y)
  split
  · rfl
  · split
    · exact (chain_flagEvent _ _ _ _).trans h₁
    · exact h₁

theorem chain_beginLock_ne (h : y ≠ x) (s : State) : chain (beginLock x s) y = chain s y := by
  unfold beginLock
  extract_lets p s₁
  have h₁ : chain s₁ y = chain s y := by simp [s₁, h]
  split
  · exact h₁
  · rw [chain_calStart_ne h, h₁]

theorem chain_beginHop_ne (h : y ≠ x) (p : Nat) (s : State) : chain (beginHop x p s) y = chain s y := by
  unfold beginHop
  extract_lets s₁
  have h₁ : chain s₁ y = chain s y := by simp [s₁, h]
  split
  · exact h₁
  · rw [chain_calStart_ne h, h₁]

theorem chain_chainAdvance_ne (h : y ≠ x) (tt : Option Nat) (s : State) : chain (chainAdvance x tt s) y = chain s y := by
  unfold chainAdvance
  extract_lets c t st s₁
  have h₁ : chain s₁ y = chain s y := by
    unfold s₁
    split
    · rfl
    · exact chain_ifcProfile _ _ _ _
  rw [← h₁]
  split_ifs <;> simp [h, h₁, chain_beginLock_ne, chain_beginHop_ne]

theorem chain_calAbandon_ne (h : y ≠ x) (s : State) : chain (calAbandon x s) y = chain s y := by
  unfold calAbandon
  split
  · rfl
  · simp [h]

theorem chain_chainRetarget_ne (h : y ≠ x) (tt : Option Nat) (s : State) : chain (chainRetarget x tt s) y = chain s y := by
  rw [chainRetarget, chain_chainAdvance_ne h]
  split
  · exact chain_calAbandon_ne h s
  · rfl

/-! Frames by fields. -/

theorem Keeps.setChain (x : Nat) (c : Chain) (s : State) : Keeps K s (Machine.setChain s x c) := .of_regs

theorem Keeps.setAntState (hK : plainFlds K) (h : (F.GRF_CH_ANT_STAT_STATE x).spares K) (st : Nat) (s : State) :
    Keeps K s (Machine.setAntState x st s) :=
  .ite (.refl K s) ((Keeps.setFld _ st s h).trans (.raise hK _ _))

theorem Keeps.biasUpdate (hK : plainFlds K) (h : (F.GRF_CH_ANT_STAT_STATE x).spares K) (s : State) :
    Keeps K s (Machine.biasUpdate x s) := by
  unfold Machine.biasUpdate
  extract_lets st c s₁
  have h₁ : Keeps K s s₁ := .setChain x _ s
  exact .ite (.ite (.refl K s) (.setChain x _ s)) (.ite h₁ (h₁.trans (.setAntState hK h 0 s₁)))

theorem Keeps.setChainState (hK : plainFlds K) (ha : (F.GRF_CH_ANT_STAT_STATE x).spares K)
    (hs : (F.GRF_CH_STATUS_STATE x).spares K) (st : Nat) (s : State) : Keeps K s (Machine.setChainState x st s) :=
  (Keeps.setFld _ st s hs).trans (.biasUpdate hK ha _)

theorem Keeps.syncCal (ha : F.GRF_CAL_STATUS_ACTIVE.spares K) (hp : F.GRF_CAL_STATUS_PEND_MASK.spares K) (s : State) :
    Keeps K s (Machine.syncCal s) :=
  (Keeps.setBit _ _ s ha).trans (.setFld _ _ _ hp)

/-- The fields that a change of a chain's active profile writes (R103, R108, R109). -/
def profileWrites (x : Nat) : List Fld :=
  F.GRF_CH_STATUS_PROFILE_ACT x :: F.IFC_CH_AGC_STAT_GAIN x ::
    ((List.range 4).map (pgainFld x) ++ (List.range 8).map (F.IFC_CH_NOTCH_CTRL_ACTIVE x))

theorem Keeps.notchProfile (h : ∀ n < 8, (F.IFC_CH_NOTCH_CTRL_ACTIVE x n).spares K) (p : Nat) (s : State) :
    Keeps K s (Machine.notchProfile x p s) := by
  have free (c : IfcChain) (n : Nat) (hn : n < 8) (s : State) :
      Keeps K s ((setIfcCh s x c).setFld (F.IFC_CH_NOTCH_CTRL_ACTIVE x n) 0) :=
    Keeps.trans .of_regs (.setFld _ 0 _ (h n hn))
  have each (m : Nat) (hm : m ≤ 8) (f : Nat → State → State) (hf : ∀ n < 8, ∀ s, Keeps K s (f n s)) :
      Keeps K s (eachNotch f m s) := by
    induction m with
    | zero => exact .refl K s
    | succ m ih => exact (ih (by omega)).trans (hf m (by omega) _)
  refine each 8 le_rfl _ fun n hn s => ?_
  split
  · exact .ite (free _ n hn s) (.refl K s)
  · exact .setBit _ _ s (h n hn)
  · exact .refl K s

theorem Keeps.ifcProfile (h : ∀ f ∈ profileWrites x, f.spares K) (p : Nat) (s : State) :
    Keeps K s (Machine.ifcProfile x p s) := by
  have hgain : pgainFld x (s.fld (F.GRF_CH_STATUS_PROFILE_ACT x)) ∈ (List.range 4).map (pgainFld x) :=
    List.mem_map_of_mem (List.mem_range.2 (bitsOf_lt _ _ _))
  have hn (n : Nat) (hn : n < 8) : (F.IFC_CH_NOTCH_CTRL_ACTIVE x n).spares K := h _ (by simp [profileWrites, hn])
  unfold Machine.ifcProfile
  extract_lets old s₁ s₂
  have h₁ : Keeps K s s₁ := .setFld _ _ s (h _ (by simp only [profileWrites, List.mem_cons, List.mem_append]; tauto))
  have h₂ : Keeps K s s₂ := h₁.trans (.setFld _ _ s₁ (h _ (by simp [profileWrites])))
  exact .ite (.refl K s) ((h₂.trans (.setFld _ p s₂ (h _ (by simp [profileWrites])))).trans (.notchProfile hn p _))

end Sys2Proof.Machine
end

section
/-! PROOFS. O12: antenna supervision (R94 to R96). -/
namespace Sys2Proof.Machine

variable {s t u : State} {st a b : Nat} {on on' : Bool} {x : Fin 4}

/-- The fields of the antenna's words beside STATE. -/
def antFlds (x : Nat) : List Fld :=
  [F.GRF_CH_ANT_STAT_CURRENT x, F.GRF_CH_ANT_STAT_RETRIES x, wholeWord (R.GRF_CH_ANT_CFG x)]

theorem Keeps.antFlds_setAntState (x : Fin 4) (st : Nat) (s : State) : Keeps (antFlds x) s (Machine.setAntState x st s) :=
  .setAntState (by revert x; decide) (by revert x; decide) st s

theorem setAntState_spec (x : Fin 4) (hst : st < 8) (s : State) : (setAntState x st s).fld (F.GRF_CH_ANT_STAT_STATE x) = st ∧
    (s.fld (F.GRF_CH_ANT_STAT_STATE x) ≠ st → EventUp (32 + x.val) (setAntState x st s)) := by
  unfold setAntState
  split
  · next h => exact ⟨h, fun hn => absurd h hn⟩
  · refine ⟨?_, fun _ => .raise_self _ _⟩
    rw [fld_raise (plainKey_antStat x), State.fld_setFld _ _ _ (by simp) (by simp)]
    exact Nat.mod_eq_of_lt hst

/-- The supervisor has come to a state with its switch on or off; a change of STATE has raised its event (R95). -/
structure AntAt (x : Fin 4) (st : Nat) (on : Bool) (s t : State) : Prop where
  keeps : Keeps [] s t
  state : t.fld (F.GRF_CH_ANT_STAT_STATE x) = st
  switch : (chain t x).biasOn = on
  event : s.fld (F.GRF_CH_ANT_STAT_STATE x) ≠ st → EventUp (32 + x.val) t

theorem AntAt.of_keeps (h : Keeps [F.GRF_CH_ANT_STAT_STATE x] s t) :
    AntAt x (s.fld (F.GRF_CH_ANT_STAT_STATE x)) (chain t x).biasOn s t :=
  ⟨h.mono (by simp), h.flds _ (by simp), rfl, fun hn => absurd rfl hn⟩

theorem AntAt.trans (h : AntAt x a on s u) (k : AntAt x b on' u t) : AntAt x b on' s t := by
  refine ⟨h.keeps.trans k.keeps, k.state, k.switch, fun hn => ?_⟩
  by_cases hs : s.fld (F.GRF_CH_ANT_STAT_STATE x) = a
  · exact k.event (by rw [h.state, ← hs]; exact hn)
  · exact k.keeps.events _ (h.event hs)

theorem AntAt.setAntState (x : Fin 4) (hst : st < 8) (s : State) :
    AntAt x st (chain s x).biasOn s (Machine.setAntState x st s) :=
  ⟨(Keeps.antFlds_setAntState x st s).mono (by simp), (setAntState_spec x hst s).1, by rw [chain_setAntState],
    (setAntState_spec x hst s).2⟩

/-! Samples that decide (R95). -/

/-- The last sample is shown in CURRENT. -/
def antSampled (x : Nat) (b : BitVec 10) (s : State) : State := s.setFld (F.GRF_CH_ANT_STAT_CURRENT x) b.toNat

theorem antSampled_spec (x : Fin 4) (b : BitVec 10) (s : State) :
    (antSampled x b s).fld (F.GRF_CH_ANT_STAT_CURRENT x) = b.toNat ∧
      Keeps [F.GRF_CH_ANT_STAT_STATE x, F.GRF_CH_ANT_STAT_RETRIES x, wholeWord (R.GRF_CH_ANT_CFG x)] s (antSampled x b s) ∧
      chain (antSampled x b s) x = chain s x := by
  refine ⟨?_, .setFld _ _ s (by revert x; decide), chain_setFld _ _ _ _⟩
  rw [antSampled, State.fld_setFld _ _ _ (by simp) (by simp)]
  exact Nat.mod_eq_of_lt b.isLt

/-- A deciding sample brings the supervisor to a state. -/
theorem antSampled_setAntState (x : Fin 4) (b : BitVec 10) (hst : st < 8) (hk : Keeps
      [F.GRF_CH_ANT_STAT_STATE x, F.GRF_CH_ANT_STAT_CURRENT x] (antSampled x b s) u) :
    AntAt x st (chain u x).biasOn s (setAntState x st u) ∧
      (setAntState x st u).fld (F.GRF_CH_ANT_STAT_CURRENT x) = b.toNat := by
  obtain ⟨hc, hs, -⟩ := antSampled_spec x b s
  refine ⟨(AntAt.of_keeps ((hs.mono (by simp)).trans (hk.mono (by simp)))).trans (.setAntState x hst u), ?_⟩
  rw [(Keeps.antFlds_setAntState x st u).flds _ (by simp [antFlds]), hk.flds _ (by simp), hc]

/-- A short is not retried (R96). -/
abbrev antLatches (x : Fin 4) (s : State) : Prop :=
  s.fld (F.GRF_CH_ANT_CFG_RETRY_MAX x) = 0 ∨ s.fld (F.GRF_CH_ANT_CFG_RETRY_INT x) = 0 ∨
    s.fld (F.GRF_CH_ANT_STAT_RETRIES x) = s.fld (F.GRF_CH_ANT_CFG_RETRY_MAX x)

theorem exec_antShort (x : Fin 4) (a b : BitVec 10) (s : State) : exec (.antShort x a b) s = .next (
    if (chain s x).biasOn = true ∧ 5 * s.fld (F.GRF_CH_ANT_CFG_SHORT_TH x) ≤ a.toNat ∧
        5 * s.fld (F.GRF_CH_ANT_CFG_SHORT_TH x) ≤ b.toNat then
      setAntState x (if antLatches x s then 4 else 3) (setChain (antSampled x b s) x { chain s x with biasOn := false })
    else antSampled x b s) := by
  obtain ⟨-, hk, -⟩ := antSampled_spec x b s
  have hcfg := hk.word (k := R.GRF_CH_ANT_CFG x) (by simp)
  have hmax : (antSampled x b s).fld (F.GRF_CH_ANT_CFG_RETRY_MAX x) = _ := fld_congr hcfg
  have hint : (antSampled x b s).fld (F.GRF_CH_ANT_CFG_RETRY_INT x) = _ := fld_congr hcfg
  have hret := hk.flds (F.GRF_CH_ANT_STAT_RETRIES x) (by simp)
  change execAntShort x a b s = _
  unfold execAntShort
  rw [← antSampled.eq_def]
  simp only [hmax, hint, hret, Bool.and_eq_true, Bool.or_eq_true, decide_eq_true_eq, beq_iff_eq, and_assoc, or_assoc]

theorem antShort_opens {a b : BitVec 10} (hon : (chain s x).biasOn = true) (ha : 5 * s.fld (F.GRF_CH_ANT_CFG_SHORT_TH x) ≤ a.toNat)
    (hb : 5 * s.fld (F.GRF_CH_ANT_CFG_SHORT_TH x) ≤ b.toNat) :
    ∃ t, exec (.antShort x a b) s = .next t ∧ AntAt x (if antLatches x s then 4 else 3) false s t ∧
      t.fld (F.GRF_CH_ANT_STAT_CURRENT x) = b.toNat := by
  refine ⟨_, (exec_antShort x a b s).trans (congrArg _ (if_pos ⟨hon, ha, hb⟩)), ?_⟩
  have h := antSampled_setAntState (st := if antLatches x s then 4 else 3) x b (by split <;> decide)
    (Keeps.setChain x { chain s x with biasOn := false } (antSampled x b s))
  rwa [chain_setChain, if_pos rfl] at h

theorem antShort_off (a b : BitVec 10) (hoff : (chain s x).biasOn = false) :
    ∃ t, exec (.antShort x a b) s = .next t ∧ AntAt x (s.fld (F.GRF_CH_ANT_STAT_STATE x)) false s t ∧
      t.fld (F.GRF_CH_ANT_STAT_CURRENT x) = b.toNat ∧ RegsBut [R.GRF_CH_ANT_STAT x] s t := by
  obtain ⟨hc, hk, hch⟩ := antSampled_spec x b s
  refine ⟨_, (exec_antShort x a b s).trans (congrArg _ (if_neg (by simp [hoff]))), ?_, hc,
    RegsBut.setFld (F.GRF_CH_ANT_STAT_CURRENT x) _ s⟩
  have h := AntAt.of_keeps (x := x) (hk.mono (by simp))
  rwa [hch, hoff] at h

theorem exec_antOpen (x : Fin 4) (b : BitVec 10) (s : State) : exec (.antOpen x b) s = .next (
    if (chain s x).biasOn = true ∧ 2 * b.toNat < 5 * s.fld (F.GRF_CH_ANT_CFG_OPEN_TH x) then setAntState x 2 (antSampled x b s)
    else antSampled x b s) := by
  obtain ⟨-, hk, hch⟩ := antSampled_spec x b s
  have hlo : (antSampled x b s).fld (F.GRF_CH_ANT_CFG_OPEN_TH x) = _ := fld_congr (hk.word (k := R.GRF_CH_ANT_CFG x) (by simp))
  change execAntOpen x b s = _
  unfold execAntOpen
  rw [← antSampled.eq_def]
  simp only [hlo, hch, Bool.and_eq_true, decide_eq_true_eq]

theorem exec_antOk (x : Fin 4) (b : BitVec 10) (s : State) : exec (.antOk x b) s = .next (
    if (chain s x).biasOn = true ∧ 5 * s.fld (F.GRF_CH_ANT_CFG_OPEN_TH x) ≤ 2 * b.toNat ∧
        b.toNat < 5 * s.fld (F.GRF_CH_ANT_CFG_SHORT_TH x) then setAntState x 1 (antSampled x b s)
    else antSampled x b s) := by
  obtain ⟨-, hk, hch⟩ := antSampled_spec x b s
  have hcfg := hk.word (k := R.GRF_CH_ANT_CFG x) (by simp)
  have hlo : (antSampled x b s).fld (F.GRF_CH_ANT_CFG_OPEN_TH x) = _ := fld_congr hcfg
  have hth : (antSampled x b s).fld (F.GRF_CH_ANT_CFG_SHORT_TH x) = _ := fld_congr hcfg
  change execAntOk x b s = _
  unfold execAntOk
  rw [← antSampled.eq_def]
  simp only [hlo, hth, hch, Bool.and_eq_true, decide_eq_true_eq, and_assoc]

/-- A deciding sample with the switch closed leaves it closed. -/
theorem antSampled_decides {b : BitVec 10} (hst : st < 8) (hon : (chain s x).biasOn = true) :
    AntAt x st true s (setAntState x st (antSampled x b s)) ∧
      (setAntState x st (antSampled x b s)).fld (F.GRF_CH_ANT_STAT_CURRENT x) = b.toNat := by
  have h := antSampled_setAntState x b hst (Keeps.refl _ (antSampled x b s))
  rwa [(antSampled_spec x b s).2.2, hon] at h

/-! Retry and configuration (R94, R96). -/

theorem exec_antRetry (x : Fin 4) (s : State) : exec (.antRetry x) s = .next (
    if s.fld (F.GRF_CH_ANT_STAT_STATE x) = 3 ∧ biasWanted x s = true then
      (setChain s x { chain s x with biasOn := true }).setFld (F.GRF_CH_ANT_STAT_RETRIES x)
        (s.fld (F.GRF_CH_ANT_STAT_RETRIES x) + 1)
    else s) := by
  change execAntRetry x s = _
  simp only [execAntRetry, Bool.and_eq_true, decide_eq_true_eq]

theorem antRetry_closes (h : s.fld (F.GRF_CH_ANT_STAT_STATE x) = 3) (hw : biasWanted x s = true) :
    ∃ t, exec (.antRetry x) s = .next t ∧ AntAt x 3 true s t ∧
      t.fld (F.GRF_CH_ANT_STAT_RETRIES x) = (s.fld (F.GRF_CH_ANT_STAT_RETRIES x) + 1) % 256 := by
  refine ⟨_, (exec_antRetry x s).trans (congrArg _ (if_pos ⟨h, hw⟩)), ?_, State.fld_setFld _ _ _ (by simp) (by simp)⟩
  have hk : Keeps [F.GRF_CH_ANT_STAT_STATE x] s (((setChain s x { chain s x with biasOn := true }).setFld
      (F.GRF_CH_ANT_STAT_RETRIES x) (s.fld (F.GRF_CH_ANT_STAT_RETRIES x) + 1))) :=
    (Keeps.setChain x _ s).trans (.setFld _ _ _ (by clear h hw; revert x; decide))
  have h₁ := AntAt.of_keeps hk
  rwa [h, chain_setFld, chain_setChain, if_pos rfl] at h₁

theorem antRetry_ignored (h : s.fld (F.GRF_CH_ANT_STAT_STATE x) ≠ 3) : exec (.antRetry x) s = .next s :=
  (exec_antRetry x s).trans (congrArg _ (if_neg fun hn => h hn.1))

/-- The fields of GRF_CH_x_ANT_CFG. -/
def antCfgFields : List FieldSpec := [fs 31 24 .rw 0x3, fs 23 16 .rw 0x64, fs 15 8 .rw 0x78, fs 7 2 .rw 0x8, fs 1 0 .rw 0x0 (.ne 3)]

theorem regAt_antCfg : ∀ x : Fin 4,
    regAt (R.GRF_CH_ANT_CFG x) = some ⟨R.GRF_CH_ANT_CFG 0, [(0x100, 4)], 0, .d, false, antCfgFields⟩ := by
  decide

theorem fieldsApart_antCfg : fieldsApart antCfgFields := by
  simp [fieldsApart, FieldSpec.apart, antCfgFields, fs]

/-- ANT_CFG written and the retries cleared, before the switch follows. -/
def antCfgWritten (who : Reader) (x : Nat) (v : Word) (s : State) : State :=
  (plainWrite who (R.GRF_CH_ANT_CFG x) v s).setFld (F.GRF_CH_ANT_STAT_RETRIES x) 0

theorem antCfgWritten_spec (who : Reader) (x : Fin 4) {v : Word} (hv : v.toNat % 4 ≠ 3) (s : State) :
    let t := antCfgWritten who x v s
    Keeps [F.GRF_CH_ANT_STAT_STATE x] s t ∧ t.fld (F.GRF_CH_ANT_STAT_RETRIES x) = 0 ∧
      t.fld (F.GRF_CH_ANT_CFG_BIAS_MODE x) = v.toNat % 4 ∧ t.fld (F.GRF_CH_ANT_CFG_SHORT_TH x) = bitsOf v.toNat 15 8 := by
  have hbits : bitsOf v.toNat 1 0 = v.toNat % 4 := by simp [bitsOf]
  have hw : WordsOnly [R.GRF_CH_ANT_CFG x] s (plainWrite who (R.GRF_CH_ANT_CFG x) v s) :=
    .plainWrite_of_lawful v (regAt_antCfg x) rfl (vltChecked_of_no_vlt fun _ _ => rfl)
  refine ⟨(hw.keeps (fun f hf => ?_) (by simp only [List.mem_singleton, forall_eq, R.GRF_CH_ANT_CFG]; omega)).trans
      (.setFld _ 0 _ (by clear hv hbits hw; revert x; decide)),
    State.fld_setFld _ _ _ (by simp) (by simp), ?_, ?_⟩
  · exact hw.words.fld (by simp_all)
  · refine (State.fld_setFld_ne _ _ _ _ (by simp) (by simp) (by simp)).trans ?_
    exact (fld_plainWrite_rw (rst := 0) (l := .ne 3) v (regAt_antCfg x) rfl fieldsApart_antCfg (by simp [antCfgFields, fs])
      (by simpa [Legal.ok, hbits] using hv)).trans hbits
  · refine (State.fld_setFld_ne _ _ _ _ (by simp) (by simp) (by simp)).trans ?_
    exact fld_plainWrite_rw (rst := 0x78) (l := .any) v (regAt_antCfg x) rfl fieldsApart_antCfg (by simp [antCfgFields, fs]) rfl

/-- A short ended in OFF. -/
def antShortEnded (x : Nat) (s : State) : State :=
  if s.fld (F.GRF_CH_ANT_STAT_STATE x) = 3 ∨ s.fld (F.GRF_CH_ANT_STAT_STATE x) = 4 then setAntState x 0 s else s

theorem exec_antCfgWrite {who : Reader} (v : Word) (h : Open who (R.GRF_CH_ANT_CFG x) s) :
    exec (.antCfgWrite who x v) s = .next (biasUpdate x (antShortEnded x (antCfgWritten who x v s))) :=
  congrArg _ (gate_open h.1 h.2)

theorem antShortEnded_spec (x : Fin 4) (s : State) : Keeps (antFlds x) s (antShortEnded x s) ∧
    AntAt x (if s.fld (F.GRF_CH_ANT_STAT_STATE x) = 3 ∨ s.fld (F.GRF_CH_ANT_STAT_STATE x) = 4 then 0
      else s.fld (F.GRF_CH_ANT_STAT_STATE x)) (chain s x).biasOn s (antShortEnded x s) := by
  unfold antShortEnded
  split
  · exact ⟨.antFlds_setAntState x 0 s, .setAntState x (by decide) s⟩
  · exact ⟨.refl _ s, .of_keeps (.refl _ s)⟩

theorem biasUpdate_on (h : biasWanted x s = true)
    (hs : ¬(s.fld (F.GRF_CH_ANT_STAT_STATE x) = 3 ∨ s.fld (F.GRF_CH_ANT_STAT_STATE x) = 4)) :
    biasUpdate x s = setChain s x { chain s x with biasOn := true } := by
  simp only [biasUpdate, h, hs, if_true, if_false]

theorem biasUpdate_off (h : biasWanted x s = false) (hs : s.fld (F.GRF_CH_ANT_STAT_STATE x) ≠ 4) :
    biasUpdate x s = setAntState x 0 (setChain s x { chain s x with biasOn := false }) := by
  simp only [biasUpdate, h, hs, if_false, Bool.false_eq_true]

/-- What a write of ANT_CFG with a mode of 0 or 1 leaves before the switch follows. -/
theorem antCfgWrite_prepared (who : Reader) (x : Fin 4) {v : Word} (hv : v.toNat % 4 ≠ 3) (s : State) :
    let t := antShortEnded x (antCfgWritten who x v s)
    AntAt x (if s.fld (F.GRF_CH_ANT_STAT_STATE x) = 3 ∨ s.fld (F.GRF_CH_ANT_STAT_STATE x) = 4 then 0
      else s.fld (F.GRF_CH_ANT_STAT_STATE x)) (chain t x).biasOn s t ∧ t.fld (F.GRF_CH_ANT_STAT_RETRIES x) = 0 ∧
      t.fld (F.GRF_CH_ANT_CFG_BIAS_MODE x) = v.toNat % 4 ∧ t.fld (F.GRF_CH_ANT_CFG_SHORT_TH x) = bitsOf v.toNat 15 8 := by
  intro t
  obtain ⟨hk, hret, hmode, hth⟩ := antCfgWritten_spec who x hv s
  obtain ⟨hf, ha⟩ := antShortEnded_spec x (antCfgWritten who x v s)
  have hcfg : t.word (R.GRF_CH_ANT_CFG x) = _ := hf.word (by simp [antFlds])
  rw [hk.flds _ (by simp)] at ha
  have h := (AntAt.of_keeps hk).trans ha
  exact ⟨⟨h.keeps, h.state, rfl, h.event⟩, (hf.flds _ (by simp [antFlds])).trans hret, (fld_congr hcfg).trans hmode,
    (fld_congr hcfg).trans hth⟩

theorem antCfgWrite_on {who : Reader} {v : Word} (h : Open who (R.GRF_CH_ANT_CFG x) s) (hv : v.toNat % 4 = 1) :
    ∃ t, exec (.antCfgWrite who x v) s = .next t ∧ AntAt x (if s.fld (F.GRF_CH_ANT_STAT_STATE x) = 3 ∨
        s.fld (F.GRF_CH_ANT_STAT_STATE x) = 4 then 0 else s.fld (F.GRF_CH_ANT_STAT_STATE x)) true s t ∧
      t.fld (F.GRF_CH_ANT_STAT_RETRIES x) = 0 ∧ t.fld (F.GRF_CH_ANT_CFG_SHORT_TH x) = bitsOf v.toNat 15 8 := by
  obtain ⟨ha, hret, hmode, hth⟩ := antCfgWrite_prepared who x (v := v) (by omega) s
  refine ⟨_, exec_antCfgWrite v h, ?_⟩
  generalize antShortEnded x (antCfgWritten who x v s) = u at ha hret hmode hth
  rw [biasUpdate_on (by simp only [biasWanted, hmode, hv]) (by rw [ha.state]; split <;> omega)]
  exact ⟨⟨ha.keeps.trans (.setChain x _ u), ha.state, by rw [chain_setChain, if_pos rfl],
    fun hn => (Keeps.setChain (K := []) x _ u).events _ (ha.event hn)⟩, hret, hth⟩

theorem antCfgWrite_off {who : Reader} {v : Word} (h : Open who (R.GRF_CH_ANT_CFG x) s) (hv : v.toNat % 4 = 0) :
    ∃ t, exec (.antCfgWrite who x v) s = .next t ∧ AntAt x 0 false s t ∧ t.fld (F.GRF_CH_ANT_STAT_RETRIES x) = 0 := by
  obtain ⟨ha, hret, hmode, -⟩ := antCfgWrite_prepared who x (v := v) (by omega) s
  refine ⟨_, exec_antCfgWrite v h, ?_⟩
  generalize antShortEnded x (antCfgWritten who x v s) = u at ha hret hmode
  rw [biasUpdate_off (by simp only [biasWanted, hmode, hv]) (by rw [ha.state]; split <;> omega)]
  have h₁ : AntAt x _ false u (setChain u x { chain u x with biasOn := false }) :=
    ⟨.setChain x _ u, rfl, by rw [chain_setChain, if_pos rfl], fun hn => absurd rfl hn⟩
  have h₂ := AntAt.setAntState x (st := 0) (by decide) (setChain u x { chain u x with biasOn := false })
  rw [h₁.switch] at h₂
  exact ⟨(ha.trans h₁).trans h₂, ((Keeps.antFlds_setAntState x 0 _).flds _ (by simp [antFlds])).trans hret⟩

/-- Settles O12: each decision shows its sample and brings the supervisor to a state; the switch follows a write of ANT_CFG. -/
theorem antennaSupervision : Obligations.AntennaSupervision := by
  intro who x a b v s th lo was latch goes
  -- What the lemmas say of a command, in the statement's own terms.
  have goes_of {i : Instr} {st : Nat} {on : Bool} {post : State → Prop}
      (h : ∃ t, exec i s = .next t ∧ AntAt x st on s t ∧ post t) : goes i st on post := by
    obtain ⟨t, he, ha, hp⟩ := h
    exact ⟨t, he, ha.keeps.mems, ha.state, ha.switch, ha.event, hp⟩
  refine ⟨fun hon => ⟨fun ha hb => ⟨fun hl => goes_of ?_, fun hl => goes_of ?_⟩, fun hb => goes_of ?_, fun hl hb => goes_of ?_⟩,
    fun hoff => goes_of (antShort_off a b hoff), fun h hw => goes_of (antRetry_closes h hw), antRetry_ignored,
    fun h => ⟨fun hv => goes_of (antCfgWrite_on h hv), fun hv => goes_of (antCfgWrite_off h hv)⟩⟩
  · have h := antShort_opens hon ha hb
    rwa [if_pos hl] at h
  · have h := antShort_opens hon ha hb
    rwa [if_neg hl] at h
  · exact ⟨_, (exec_antOpen x b s).trans (congrArg _ (if_pos ⟨hon, hb⟩)), antSampled_decides (by decide) hon⟩
  · exact ⟨_, (exec_antOk x b s).trans (congrArg _ (if_pos ⟨hon, hl, hb⟩)), antSampled_decides (by decide) hon⟩

end Sys2Proof.Machine
end

section
/-! SUPPORT. A radio chain at rest and its next move, the end of a step, and the start of a calibration (R77, R81, R84, R91). -/
namespace Sys2Proof.Machine

variable {s t u : State} {x : Fin 4} {p st : Nat} {tt : Option Nat}

/-- Fields that a chain's moves leave until a step or a calibration of it says otherwise: its lock and fault, CTRL and the
calibrations' results, and the domains. -/
def standingFlds (x : Nat) : List Fld :=
  [F.GRF_CH_STATUS_LOCKED x, F.GRF_CH_STATUS_FAULT x, wholeWord (R.GRF_CH_CTRL x), F.GRF_CAL_STATUS_LAST_RESULT,
    wholeWord R.PWR_DOMAIN] ++ (List.range 4).map fun n => wholeWord (R.GRF_CH_PROF_CAL x n)

theorem Keeps.tail {f : Fld} {K : List Fld} (h : Keeps (f :: K) s t) : Keeps K s t := h.mono (List.subset_cons_self _ _)

theorem Keeps.ctrl (h : Keeps (standingFlds x) s t) : t.word (R.GRF_CH_CTRL x) = s.word (R.GRF_CH_CTRL x) :=
  h.word (by simp [standingFlds])

theorem Keeps.profCal (h : Keeps (standingFlds x) s t) (hp : p < 4) :
    t.word (R.GRF_CH_PROF_CAL x p) = s.word (R.GRF_CH_PROF_CAL x p) := h.word (by simp [standingFlds, hp])

theorem Keeps.domain (h : Keeps (standingFlds x) s t) : t.word R.PWR_DOMAIN = s.word R.PWR_DOMAIN :=
  h.word (by simp [standingFlds])

theorem Keeps.standing_setChainState (x : Fin 4) (st : Nat) (s : State) :
    Keeps (F.GRF_CH_STATUS_PROFILE_ACT x :: F.GRF_CH_STATUS_BUSY x :: standingFlds x) s (Machine.setChainState x st s) :=
  .setChainState (by revert x; decide) (by revert x; decide) (by revert x; decide) st s

theorem Keeps.standing_syncCal (x : Fin 4) (s : State) :
    Keeps (F.GRF_CH_STATUS_STATE x :: F.GRF_CH_STATUS_PROFILE_ACT x :: F.GRF_CH_STATUS_BUSY x :: standingFlds x) s
      (Machine.syncCal s) :=
  .syncCal (by revert x; decide) (by revert x; decide) s

theorem Keeps.standing_ifcProfile (x : Fin 4) (p : Nat) (s : State) :
    Keeps (F.GRF_CH_STATUS_STATE x :: F.GRF_CH_STATUS_BUSY x :: standingFlds x) s (Machine.ifcProfile x p s) :=
  .ifcProfile (by revert x; decide) p s

theorem Keeps.standing_withdrawStart (x : Fin 4) (s : State) :
    Keeps (F.GRF_CH_STATUS_STATE x :: standingFlds x) s (Machine.withdrawStart x s) :=
  Keeps.trans .of_regs (.setFld _ _ _ (by revert x; decide))

theorem Keeps.standing_busy (x : Fin 4) (v : Nat) (s : State) :
    Keeps (F.GRF_CH_STATUS_STATE x :: F.GRF_CH_STATUS_PROFILE_ACT x :: standingFlds x) s
      (s.setFld (F.GRF_CH_STATUS_BUSY x) v) :=
  .setFld _ v s (by revert x; decide)

theorem chainState_setChainState (x : Fin 4) (hst : st < 8) (s : State) : chainState x (setChainState x st s) = st := by
  have h : Keeps [F.GRF_CH_STATUS_STATE x] (s.setFld (F.GRF_CH_STATUS_STATE x) st) (setChainState x st s) :=
    .biasUpdate (by revert x; decide) (by revert x; decide) _
  rw [chainState, h.flds _ (by simp), State.fld_setFld _ _ _ (by simp) (by simp)]
  exact Nat.mod_eq_of_lt hst

/-! A calibration under way (R81). -/

theorem bit_active_syncCal (s : State) :
    (syncCal s).bit F.GRF_CAL_STATUS_ACTIVE = (List.range 4).any fun x => (chain s x).cal.isSome :=
  (State.bit_setFld_ne _ _ _ _ (by simp) (by simp) (by simp)).trans (State.bit_setBit _ _ _ rfl (by simp))

theorem calStart_spec (x : Fin 4) (p : Nat) (k : CalKind) (s : State) :
    let t := calStart x p k s
    (chain t x).cal = some (p, k) ∧ (chain t x).step = (chain s x).step ∧ (chain t x).seg = (chain s x).seg ∧
      chainState x t = 4 ∧ t.bit F.GRF_CAL_STATUS_ACTIVE = true := by
  have hc : chain (calStart x p k s) x = _ := chain_syncCal x _
  rw [chain_setChainState, if_pos rfl] at hc
  refine ⟨by simp [hc], by simp [hc], by simp [hc], ?_, ?_⟩
  · exact ((Keeps.standing_syncCal x _).flds _ (by simp)).trans (chainState_setChainState x (by decide) _)
  · refine (bit_active_syncCal _).trans (List.any_eq_true.2 ⟨x, List.mem_range.2 x.isLt, ?_⟩)
    simp

/-! A chain at rest (R77). -/

/-- No step and no calibration of a chain is under way. -/
abbrev AtRest (x : Nat) (s : State) : Prop := (chain s x).step = .none ∧ (chain s x).cal = none

/-- A chain below RECEIVE and outside a sequenced window takes the profile of CTRL before it moves (R91). -/
def profileFollowed (x : Nat) (s : State) : State :=
  if (chain s x).seq || decide (3 ≤ chainState x s) then s else ifcProfile x (s.fld (F.GRF_CH_CTRL_PROFILE x)) s

/-- The next move of a chain in a state toward a target (R77). -/
def chainNext (x : Nat) (tt : Option Nat) (t st : Nat) (s : State) : State :=
  if st = 0 then
    if t = 0 then (withdrawStart x s).setFld (F.GRF_CH_STATUS_BUSY x) 0
    else (requestStart x tt s).setFld (F.GRF_CH_STATUS_BUSY x) 1
  else if st = 1 then
    if 2 ≤ t then beginStep x .standby s else if t = 0 then beginStep x .off s else s.setFld (F.GRF_CH_STATUS_BUSY x) 0
  else if st = 2 then
    if t = 3 then beginLock x s else if t < 2 then beginStep x .sleep s else s.setFld (F.GRF_CH_STATUS_BUSY x) 0
  else if t < 3 then beginStep x .down (s.setFld (F.GRF_CH_STATUS_LOCKED x) 0)
  else if wantProfile x s ≠ s.fld (F.GRF_CH_STATUS_PROFILE_ACT x) then beginHop x (wantProfile x s) s
  else s.setFld (F.GRF_CH_STATUS_BUSY x) 0

theorem chainAdvance_of_rest (h : AtRest x s) (tt : Option Nat) :
    chainAdvance x tt s = chainNext x tt (s.fld (F.GRF_CH_CTRL_TARGET x)) (chainState x s) (profileFollowed x s) := by
  obtain ⟨hs, hc⟩ := h
  rw [chainAdvance, if_neg (by simp [hs, hc])]
  rfl

theorem chainRetarget_of_rest (h : AtRest x s) (tt : Option Nat) :
    chainRetarget x tt s = chainNext x tt (s.fld (F.GRF_CH_CTRL_TARGET x)) (chainState x s) (profileFollowed x s) := by
  rw [chainRetarget, calAbandon, h.2, ite_self, chainAdvance_of_rest h]

theorem profileFollowed_spec (x : Fin 4) (s : State) :
    Keeps (F.GRF_CH_STATUS_STATE x :: F.GRF_CH_STATUS_BUSY x :: standingFlds x) s (profileFollowed x s) ∧
      PathsOnly s (profileFollowed x s) ∧ (3 ≤ chainState x s → profileFollowed x s = s) :=
  ⟨.ite (.refl _ s) (.standing_ifcProfile x _ s), .ite (.refl s) (.ifcProfile x _ s), fun h => if_pos (by simp [h])⟩

theorem wantProfile_congr (hc : (chain t x).seq = (chain s x).seq) (hp : (chain t x).segProf = (chain s x).segProf)
    (hw : t.word (R.GRF_CH_CTRL x) = s.word (R.GRF_CH_CTRL x)) : wantProfile x t = wantProfile x s := by
  have hf : t.fld (F.GRF_CH_CTRL_PROFILE x) = _ := fld_congr hw
  rw [wantProfile, wantProfile, hc, hp, hf]

/-- A chain at rest in the state of its target, on the profile it should be on, stays there and is not BUSY. -/
theorem chainRetarget_rests (h : AtRest x s) (ht : s.fld (F.GRF_CH_CTRL_TARGET x) = chainState x s)
    (hp : chainState x s = 3 → wantProfile x s = s.fld (F.GRF_CH_STATUS_PROFILE_ACT x)) :
    let t := chainRetarget x none s
    chain t x = chain s x ∧ t.bit (F.GRF_CH_STATUS_BUSY x) = false ∧
      Keeps (F.GRF_CH_STATUS_STATE x :: standingFlds x) s t ∧
      (chainState x s = 3 → t.fld (F.GRF_CH_STATUS_PROFILE_ACT x) = s.fld (F.GRF_CH_STATUS_PROFILE_ACT x)) := by
  intro t
  obtain ⟨hk, hpath, hu⟩ := profileFollowed_spec x s
  have hc := hpath.chain x
  have hst : chainState x s < 4 := ht ▸ bitsOf_lt _ _ _
  have idle (u : State) : (u.setFld (F.GRF_CH_STATUS_BUSY x) 0).bit (F.GRF_CH_STATUS_BUSY x) = false :=
    State.bit_setFld_zero u _ rfl (by simp)
  have hbusy (u : State) : Keeps (F.GRF_CH_STATUS_STATE x :: standingFlds x) u (u.setFld (F.GRF_CH_STATUS_BUSY x) 0) :=
    (Keeps.standing_busy x 0 u).mono (by simp)
  have hk' : Keeps (F.GRF_CH_STATUS_STATE x :: standingFlds x) s (profileFollowed x s) := hk.mono (by simp)
  have e : t = chainNext x none (chainState x s) (chainState x s) (profileFollowed x s) := by
    rw [← ht]
    exact (chainRetarget_of_rest h none).trans (by rw [ht])
  generalize chainState x s = st at *
  interval_cases st
  · rw [e, chainNext, if_pos rfl, if_pos rfl]
    exact ⟨by rw [chain_setFld, chain_withdrawStart, hc], idle _, (hk'.trans (.standing_withdrawStart x _)).trans (hbusy _), by simp⟩
  · exact e ▸ ⟨by rw [← hc]; rfl, idle _, hk'.trans (hbusy _), by simp⟩
  · exact e ▸ ⟨by rw [← hc]; rfl, idle _, hk'.trans (hbusy _), by simp⟩
  · rw [hu le_rfl] at e
    have e' : t = s.setFld (F.GRF_CH_STATUS_BUSY x) 0 := by rw [e]; simp [chainNext, hp rfl]
    rw [e']
    exact ⟨chain_setFld _ _ _ _, idle s, hbusy s, fun _ => (Keeps.standing_busy x 0 s).flds _ (by simp)⟩

end Sys2Proof.Machine
end

section
/-! PROOFS. O11: synthesiser calibrations (R81 to R86). -/
namespace Sys2Proof.Machine

variable {s t u : State} {x n : Fin 4} {q p code : Nat} {k : CalKind} {who : Reader} {v : Word}

/-! Requests (R83, R84). -/

/-- The fields of GRF_CAL_CTRL. -/
def calCtrlFields : List FieldSpec := [fs 31 31 .wo 0x0, fs 7 0 .rw 0x0]

theorem regAt_calCtrl : regAt R.GRF_CAL_CTRL = some ⟨R.GRF_CAL_CTRL, [], 0, .f, false, calCtrlFields⟩ := by decide

/-- GRF_CAL_CTRL written, before the request is judged. -/
abbrev calCtrlWritten (who : Reader) (v : Word) (s : State) : State := plainWrite who R.GRF_CAL_CTRL v s

theorem WordsOnly.calCtrlWritten (who : Reader) (v : Word) (s : State) :
    WordsOnly [R.GRF_CAL_CTRL] s (Machine.calCtrlWritten who v s) :=
  .plainWrite_of_lawful v regAt_calCtrl rfl (vltChecked_of_no_vlt fun _ _ => rfl)

theorem exec_calRequest (h : Open who R.GRF_CAL_CTRL s) (hv : v.toNat.testBit 31 = true) :
    exec (.calRequest who v) s = .next (calRequestAny (v.toNat % 256) (calCtrlWritten who v s)) := by
  change execCalRequest who v s = _
  rw [execCalRequest, gate_open h.1 h.2, opCalCtrl, if_pos hv]

/-- Fields of other words read as before the write of GRF_CAL_CTRL. -/
theorem fld_calCtrlWritten {f : Fld} (hf : f.off ≠ R.GRF_CAL_CTRL) (who : Reader) (v : Word) (s : State) :
    (calCtrlWritten who v s).fld f = s.fld f := (WordsOnly.calCtrlWritten who v s).words.fld (by simpa using hf)

theorem chain_calCtrlWritten (who : Reader) (v : Word) (s : State) (y : Nat) : chain (calCtrlWritten who v s) y = chain s y :=
  chain_congr (WordsOnly.calCtrlWritten who v s).chains y

/-- A request leaves the memories. -/
theorem memsSame_calRequest (who : Reader) (v : Word) (code : Nat) (s : State) :
    MemsSame s (calRequestAny code (calCtrlWritten who v s)) :=
  (WordsOnly.calCtrlWritten who v s).memsSame.trans (Acts.calRequestAny (T := []) code _).mems

theorem calRequestAny_one (hc : code < 16) (s : State) : calRequestAny code s = calRequestOne (code / 4) (code % 4) s := by
  rw [calRequestAny, if_pos (by omega), chainCalRequest, if_pos hc]

theorem calRequestOne_pends {x : Nat} (h : chainState x s ≠ 3) (p : Nat) :
    calRequestOne x p s = syncCal (s.setFld (F.GRF_CH_PROF_CAL_CAL_PEND x p) 1) := by
  simp [calRequestOne, h]

/-- A request for the active profile of a chain at rest in RECEIVE outside a window starts its calibration at once. -/
theorem calRequestOne_starts {x : Nat} (h : AtRest x s) (hs : chainState x s = 3)
    (hw : s.bit (F.GRF_CH_STATUS_IN_WINDOW x) = false) (hp : s.fld (F.GRF_CH_STATUS_PROFILE_ACT x) = p) :
    calRequestOne x p s = calStart x p .requested
      ((setChain s x { chain s x with step := .relock }).setFld (F.GRF_CH_STATUS_BUSY x) 1) := by
  simp [calRequestOne, calAtOnce, h.1, h.2, hs, hw, hp]

theorem calRequest_pends (ho : Open who R.GRF_CAL_CTRL s) (hv : v.toNat.testBit 31 = true) (hc : v.toNat % 256 < 16)
    (hs : chainState (v.toNat % 256 / 4) s ≠ 3) :
    ∃ t, exec (.calRequest who v) s = .next t ∧ MemsSame s t ∧
      t.bit (F.GRF_CH_PROF_CAL_CAL_PEND (v.toNat % 256 / 4) (v.toNat % 256 % 4)) = true ∧ t.chains = s.chains := by
  have hs' : chainState (v.toNat % 256 / 4) (calCtrlWritten who v s) ≠ 3 := by
    rwa [chainState, fld_calCtrlWritten (by simp only [R.GRF_CAL_CTRL]; omega)]
  refine ⟨_, exec_calRequest ho hv, memsSame_calRequest .., calRequestAny_pended hc hs', ?_⟩
  rw [calRequestAny_one hc, calRequestOne_pends hs', (WordsOnly.syncCal _).chains, State.setFld_chains,
    (WordsOnly.calCtrlWritten who v s).chains]

theorem calRequest_starts (ho : Open who R.GRF_CAL_CTRL s) (hv : v.toNat.testBit 31 = true) {y : Fin 4}
    (hy : v.toNat % 256 / 4 = y) (hr : AtRest y s) (hs : chainState y s = 3)
    (hw : s.bit (F.GRF_CH_STATUS_IN_WINDOW y) = false) (hp : s.fld (F.GRF_CH_STATUS_PROFILE_ACT y) = v.toNat % 256 % 4) :
    ∃ t, exec (.calRequest who v) s = .next t ∧ MemsSame s t ∧ (chain t y).cal = some (v.toNat % 256 % 4, .requested) ∧
      (chain t y).step = .relock ∧ chainState y t = 4 ∧ t.bit F.GRF_CAL_STATUS_ACTIVE = true := by
  have hne : R.GRF_CH_STATUS y ≠ R.GRF_CAL_CTRL := by simp only [R.GRF_CH_STATUS, R.GRF_CAL_CTRL]; omega
  have hch := chain_calCtrlWritten who v s y
  have e := calRequestOne_starts (s := calCtrlWritten who v s) (x := y) (p := v.toNat % 256 % 4) (by rwa [AtRest, hch])
    ((fld_calCtrlWritten hne who v s).trans hs) (by rwa [State.bit, fld_calCtrlWritten hne, ← State.bit])
    ((fld_calCtrlWritten hne who v s).trans hp)
  refine ⟨_, exec_calRequest ho hv, memsSame_calRequest .., ?_⟩
  rw [calRequestAny_one (by omega), hy, e]
  obtain ⟨hcal, hstep, -, hst, hact⟩ := calStart_spec y (v.toNat % 256 % 4) .requested ((setChain (calCtrlWritten who v s) y
    { chain (calCtrlWritten who v s) y with step := .relock }).setFld (F.GRF_CH_STATUS_BUSY y) 1)
  exact ⟨hcal, hstep.trans (by simp), hst, hact⟩

theorem calRequest_refused (ho : Open who R.GRF_CAL_CTRL s) (hv : v.toNat.testBit 31 = true) (h1 : 0x15 ≤ v.toNat % 256)
    (h2 : v.toNat % 256 < 0x40) : ∃ t, exec (.calRequest who v) s = .next t ∧ MemsSame s t ∧
      t.fld F.GRF_CAL_STATUS_LAST_RESULT = ST.format ∧ EventUp 39 t ∧ t.chains = s.chains := by
  obtain ⟨hf, he⟩ := calRequestAny_reserved (s := calCtrlWritten who v s) h1 h2
  refine ⟨_, exec_calRequest ho hv, memsSame_calRequest .., hf, he, ?_⟩
  rw [calRequestAny, if_pos h2, chainCalRequest, if_neg (by omega), if_neg (by omega), if_neg (by omega),
    (WordsOnly.raise 39 _).chains, State.setFld_chains, (WordsOnly.calCtrlWritten who v s).chains]

theorem calRequest_beacon (ho : Open who R.GRF_CAL_CTRL s) (hv : v.toNat.testBit 31 = true) (h1 : 0x40 ≤ v.toNat % 256)
    (h2 : v.toNat % 256 < 0x80) (hen : chtEnabled (v.toNat % 256 % 64) s = true) :
    ∃ t, exec (.calRequest who v) s = .next t ∧ MemsSame s t ∧
      t.bit (F.BCN_CH_CAL_CAL_PEND (v.toNat % 256 % 64)) = true ∧ t.chains = s.chains := by
  have hw := WordsOnly.calCtrlWritten who v s
  have hen' : chtEnabled (v.toNat % 256 % 64) (calCtrlWritten who v s) = true :=
    (chtEnabled_congr (fld_calCtrlWritten (by decide) who v s) (congrArg State.bcn hw.rest :) _).trans hen
  refine ⟨_, exec_calRequest ho hv, memsSame_calRequest .., ?_⟩
  rw [calRequestAny_beacon h1 h2, hen', if_pos rfl]
  exact ⟨State.bit_setFld_one _ _ rfl (by simp), (State.setFld_chains _ _ _).trans hw.chains⟩

/-! A pending calibration starts (R84). -/

theorem pendingCalStart_lowest (hs : chainState x s = 2) (hr : AtRest x s) (hw : s.bit (F.GRF_CH_STATUS_IN_WINDOW x) = false)
    (hn : s.bit (F.GRF_CH_PROF_CAL_CAL_PEND x n) = true)
    (hlow : ∀ m < n.val, s.bit (F.GRF_CH_PROF_CAL_CAL_PEND x m) = false) :
    ∃ t, exec (.pendingCalStart x) s = .next t ∧ MemsSame s t ∧ (chain t x).cal = some (n.val, .requested) ∧
      chainState x t = 4 := by
  have hf : (List.range 4).find? (fun p => s.bit (F.GRF_CH_PROF_CAL_CAL_PEND x p)) = some n.val :=
    List.find?_range_eq_some.2 ⟨hn, List.mem_range.2 n.isLt, fun m hm => by simp [hlow m hm]⟩
  have he : exec (.pendingCalStart x) s = .next (calStart x n .requested s) := by
    change execPendingCalStart x s = _
    simp [execPendingCalStart, hs, hr.1, hr.2, hw, hf]
  obtain ⟨hcal, -, -, hst, -⟩ := calStart_spec x n .requested s
  exact ⟨_, he, (Acts.calStart (T := []) x.isLt _ _ s).mems, hcal, hst⟩

theorem pendingCalStart_elsewhere (h : chainState x s ≠ 2) : exec (.pendingCalStart x) s = .next s := by
  change execPendingCalStart x s = _
  simp [execPendingCalStart, h]

/-! The end of a calibration (R81, R86). -/

theorem WordsOnly.calStore (x p : Nat) (r : Option CalResult) (s : State) :
    WordsOnly (R.GRF_CH_PROF_CAL x p :: R.GRF_CAL_STATUS :: evKeys 38) s (Machine.calStore x p r s) := by
  have cal (f : Fld) (hf : f.off = R.GRF_CH_PROF_CAL x p ∨ f.off = R.GRF_CAL_STATUS) (v : Nat) (s : State) :
      WordsOnly (R.GRF_CH_PROF_CAL x p :: R.GRF_CAL_STATUS :: evKeys 38) s (s.setFld f v) :=
    (WordsOnly.setFld f v s).mono (by rcases hf with h | h <;> simp [h])
  unfold Machine.calStore
  extract_lets s₁
  have h₁ := cal (F.GRF_CH_PROF_CAL_CAL_PEND x p) (.inl rfl) 0 s
  refine h₁.trans ?_
  cases r with
  | some r =>
    exact ((((((cal _ (.inl rfl) _ _).trans (cal _ (.inl rfl) _ _)).trans (cal _ (.inl rfl) _ _)).trans
      (cal _ (.inl rfl) _ _)).trans (cal _ (.inl rfl) _ _)).trans (cal _ (.inl rfl) _ _)).trans (cal _ (.inr rfl) _ _)
  | none =>
    exact (((cal _ (.inl rfl) _ _).trans (cal _ (.inl rfl) _ _)).trans (cal _ (.inr rfl) _ _)).trans
      ((WordsOnly.raise 38 _).mono (by simp))

theorem calStore_some_spec (x : Fin 4) (q : Nat) (r : CalResult) (s : State) :
    let t := calStore x q (some r) s
    t.fld (F.GRF_CH_PROF_CAL_CAL_TEMP x q) = r.temp.toNat ∧ t.fld (F.GRF_CH_PROF_CAL_VCO_BAND x q) = r.band.toNat ∧
      t.fld (F.GRF_CH_PROF_CAL_KVCO_TRIM x q) = r.trim.toNat ∧ t.bit (F.GRF_CH_PROF_CAL_CAL_VALID x q) = true ∧
      t.bit (F.GRF_CH_PROF_CAL_STALE x q) = false ∧ t.bit (F.GRF_CH_PROF_CAL_CAL_FAILED x q) = false ∧
      t.bit (F.GRF_CH_PROF_CAL_CAL_PEND x q) = false ∧ t.fld F.GRF_CAL_STATUS_LAST_RESULT = ST.ok := by
  have hne : 196648 + 256 * x.val + 16 * q ≠ 198692 := by omega
  simp [calStore, State.bit, State.fld_setFld, State.fld_setFld_ne, hne, r.temp.isLt, r.band.isLt, r.trim.isLt]

theorem calStore_none_spec (x : Fin 4) {q : Nat} (hq : q < 4) (s : State) :
    let t := calStore x q none s
    t.bit (F.GRF_CH_PROF_CAL_CAL_FAILED x q) = true ∧ t.bit (F.GRF_CH_PROF_CAL_CAL_VALID x q) = false ∧
      t.fld F.GRF_CAL_STATUS_LAST_RESULT = 0x10 ∧ EventUp 38 t := by
  have hne : 196648 + 256 * x.val + 16 * q ≠ 198692 := by omega
  have hkey := plainKey_profCal x hq
  refine ⟨(bit_raise hkey 38 _).trans ?_, (bit_raise hkey 38 _).trans ?_, (fld_raise (by decide) 38 _).trans ?_, .raise_self 38 _⟩
  all_goals simp [State.bit, State.fld_setFld, State.fld_setFld_ne, hne]

/-- A calibration of a chain in STANDBY has ended, before the chain moves on. -/
def calEnded (x q : Nat) (r : Option CalResult) (s : State) : State :=
  let u := syncCal (calStore x q r s)
  syncCal (setChainState x 2 (setChain u x { chain u x with cal := none, cold := false }))

theorem chain_calStore (x q : Nat) (r : Option CalResult) (s : State) (y : Nat) : chain (calStore x q r s) y = chain s y :=
  chain_congr (WordsOnly.calStore x q r s).chains y

theorem exec_calDone_atRest (hc : (chain s x).cal = some (q, k)) (hs : (chain s x).step = .none) (r : Option CalResult) :
    exec (.calDone x r) s = .next (chainRetarget x none (calEnded x q r s)) := by
  have hch : chain (syncCal (calStore x q r s)) x = chain s x := by rw [chain_syncCal, chain_calStore]
  change execCalDone x r s = _
  simp only [execCalDone, hc, calEnded, hch, hs]

theorem calEnded_spec (x : Fin 4) (q : Nat) (r : Option CalResult) (s : State) (hs : (chain s x).step = .none) :
    let u := calEnded x q r s
    AtRest x u ∧ chainState x u = 2 ∧ Keeps (standingFlds x) (calStore x q r s) u := by
  have h₁ : Keeps (standingFlds x) (calStore x q r s) (syncCal (calStore x q r s)) := (Keeps.standing_syncCal x _).tail.tail.tail
  have h₂ (c : Chain) (u : State) : Keeps (standingFlds x) u (setChainState x 2 (setChain u x c)) :=
    (Keeps.setChain x c u).trans (Keeps.standing_setChainState x 2 _).tail.tail
  refine ⟨⟨?_, ?_⟩, ?_, (h₁.trans (h₂ _ _)).trans (Keeps.standing_syncCal x _).tail.tail.tail⟩
  · simp [calEnded, chain_calStore, hs]
  · simp [calEnded]
  · exact ((Keeps.standing_syncCal x _).flds _ (by simp)).trans (chainState_setChainState x (by decide) _)

/-- The chain rests in STANDBY, its target; the result stands as it was stored. -/
theorem calDone_rests (hc : (chain s x).cal = some (q, k)) (hs : (chain s x).step = .none)
    (ht : s.fld (F.GRF_CH_CTRL_TARGET x) = 2) (r : Option CalResult) :
    ∃ t, exec (.calDone x r) s = .next t ∧ MemsSame s t ∧ (chain t x).cal = none ∧ chainState x t = 2 ∧
      Keeps (standingFlds x) (calStore x q r s) t := by
  obtain ⟨hr, hst, hk⟩ := calEnded_spec x q r s hs
  have hw := WordsOnly.calStore x q r s
  have htgt : (calEnded x q r s).fld (F.GRF_CH_CTRL_TARGET x) = 2 := by
    rw [fld_congr hk.ctrl, hw.words.fld ?_, ht]
    simp only [List.mem_cons, not_or, R.GRF_CH_PROF_CAL, R.GRF_CAL_STATUS]
    exact ⟨by omega, by omega, not_mem_evKeys (by omega) (by simp only [R.MSIX_PBA]; omega) (by simp only [R.MSIX_PBA]; omega) _⟩
  obtain ⟨hch, -, hkt, -⟩ := chainRetarget_rests hr (htgt.trans hst.symm) (by simp [hst])
  exact ⟨_, exec_calDone_atRest hc hs r, hw.memsSame.trans (hk.trans (hkt.tail)).mems, by rw [hch, hr.2],
    (hkt.flds _ (by simp)).trans hst, hk.trans (hkt.tail)⟩

theorem calDone_idle (h : (chain s x).cal = none) (r : Option CalResult) : exec (.calDone x r) s = .next s := by
  change execCalDone x r s = _
  simp only [execCalDone, h]

/-! Staleness (R81, R82). -/

theorem exec_calStale_temperature (x n : Fin 4) (temp : BitVec 8) (s : State) : exec (.calStale x n (.temperature temp)) s = .next (
    if s.bit (F.GRF_CH_PROF_CAL_CAL_VALID x n) = true ∧
      15 < (temp.toInt - toSigned 8 (s.fld (F.GRF_CH_PROF_CAL_CAL_TEMP x n))).natAbs then setStale x n s else s) := by
  change execCalStale x n (.temperature temp) s = _
  simp only [execCalStale, Bool.and_eq_true, decide_eq_true_eq]

theorem setStale_spec (x n : Fin 4) (h : s.bit (F.GRF_CH_PROF_CAL_STALE x n) = false) :
    let t := setStale x n s
    MemsSame s t ∧ t.bit (F.GRF_CH_PROF_CAL_STALE x n) = true ∧ EventUp 37 t ∧
      RegsBut (R.GRF_CH_PROF_CAL x n :: evKeys 37) s t := by
  intro t
  have hw : WordsOnly (R.GRF_CH_PROF_CAL x n :: evKeys 37) s t := WordsOnly.flagEvent (F.GRF_CH_PROF_CAL_STALE x n) 37 s
  have e : t = raise 37 (s.setFld (F.GRF_CH_PROF_CAL_STALE x n) 1) := by simp only [t, setStale, flagEvent, h]; rfl
  refine ⟨hw.memsSame, ?_, e ▸ .raise_self 37 _, hw.words⟩
  rw [e, bit_raise (plainKey_profCal x n.isLt)]
  exact State.bit_setFld_one _ _ rfl (by simp)

/-- Settles O11: a request is pended, started or refused; the end of a calibration stores its result or its failure. -/
theorem synthesiserCalibrations : Obligations.SynthesiserCalibrations := by
  intro who v x n r temp s code y p c goes
  refine ⟨fun ho hv => ⟨calRequest_pends ho hv, fun hc hs h1 h2 hw hp => ?_, calRequest_refused ho hv, calRequest_beacon ho hv⟩,
    fun hs h1 h2 hw hn hlow => pendingCalStart_lowest hs ⟨h1, h2⟩ hw hn hlow, pendingCalStart_elsewhere,
    fun q k hc hq hs ht => ⟨?_, ?_⟩, fun h => calDone_idle h none, fun hval hst => ⟨fun h => ?_, fun h => ?_⟩⟩
  · exact calRequest_starts ho hv (y := ⟨y, by omega⟩) rfl ⟨h1, h2⟩ hs hw hp
  · obtain ⟨t, he, hm, hcal, h2, hk⟩ := calDone_rests hc hs ht (some r)
    obtain ⟨f1, f2, f3, f4, f5, f6, f7, f8⟩ := calStore_some_spec x q r s
    have hword : t.word (R.GRF_CH_PROF_CAL x q) = _ := hk.profCal hq
    exact ⟨t, he, hm, hcal, h2, (fld_congr hword).trans f1, (fld_congr hword).trans f2, (fld_congr hword).trans f3,
      (bit_congr hword).trans f4, (bit_congr hword).trans f5, (bit_congr hword).trans f6, (bit_congr hword).trans f7,
      (hk.flds _ (by simp [standingFlds])).trans f8⟩
  · obtain ⟨t, he, hm, hcal, -, hk⟩ := calDone_rests hc hs ht none
    obtain ⟨f1, f2, f3, f4⟩ := calStore_none_spec x hq s
    have hword : t.word (R.GRF_CH_PROF_CAL x q) = _ := hk.profCal hq
    exact ⟨t, he, hm, hcal, (bit_congr hword).trans f1, (bit_congr hword).trans f2,
      (hk.flds _ (by simp [standingFlds])).trans f3, hk.events _ f4⟩
  · exact ⟨_, (exec_calStale_temperature x n temp s).trans (congrArg _ (if_pos ⟨hval, h⟩)), setStale_spec x n hst⟩
  · exact (exec_calStale_temperature x n temp s).trans (congrArg _ (if_neg fun hn => absurd hn.2 (by omega)))

end Sys2Proof.Machine
end

section
/-! PROOFS. O10: the motions of a radio chain (R75 to R79, R87, R91, R92). -/
namespace Sys2Proof.Machine

variable {s t u : State} {x : Fin 4} {p st tgt : Nat} {k : ChainStep} {who : Reader} {v : Word} {T : List (Option Nat)}

/-- The memories and the other chains stand as they were. -/
def OthersStand (x : Fin 4) (s t : State) : Prop :=
  MemsSame s t ∧ ∀ y : Fin 4, y ≠ x → chain t y = chain s y ∧
    t.word (R.GRF_CH_STATUS y) = s.word (R.GRF_CH_STATUS y) ∧ t.word (R.GRF_CH_CTRL y) = s.word (R.GRF_CH_CTRL y)

/-- A frame for motions of one chain: beside the memories, the others' words and state. -/
theorem OthersStand.of_keeps (h : Keeps (othersFlds x) s t) (hc : ∀ y, y ≠ x.val → chain t y = chain s y) : OthersStand x s t := by
  refine ⟨h.mems, fun y hy => ?_⟩
  have hy' : y.val ≠ x.val := fun e => hy (Fin.ext e)
  obtain ⟨hs, hctl, -⟩ := (h.mono (ownFlds_subset y.isLt hy')).own
  exact ⟨hc y hy', hs, hctl⟩

theorem OthersStand.trans (h : OthersStand x s t) (k : OthersStand x t u) : OthersStand x s u :=
  ⟨h.1.trans k.1, fun y hy => by
    obtain ⟨hc, hs, hctl⟩ := h.2 y hy
    obtain ⟨kc, ks, kctl⟩ := k.2 y hy
    exact ⟨kc.trans hc, ks.trans hs, kctl.trans hctl⟩⟩

theorem OthersStand.of_acts (h : Acts T (chainFlds x) s t) (hc : ∀ y, y ≠ x.val → chain t y = chain s y) : OthersStand x s t :=
  .of_keeps (h.toKeeps.mono othersFlds_subset) hc

/-- A write of a field of the chain's own STATUS or CTRL. -/
theorem OthersStand.setFld {f : Fld} (hf : f.spares (othersFlds x)) (n : Nat) (s : State) : OthersStand x s (s.setFld f n) :=
  .of_keeps (.setFld f n s hf) fun y _ => chain_setFld _ _ _ y

theorem OthersStand.setChain (x : Fin 4) (c : Chain) (s : State) : OthersStand x s (Machine.setChain s x c) :=
  .of_keeps (.setChain x c s) fun y hy => by rw [chain_setChain, if_neg hy]

theorem OthersStand.setChainState (x : Fin 4) (st : Nat) (s : State) : OthersStand x s (Machine.setChainState x st s) :=
  .of_acts (Acts.setChainState (T := []) x.isLt st s) fun y hy => by rw [chain_setChainState, if_neg hy]

theorem OthersStand.syncCal (x : Fin 4) (s : State) : OthersStand x s (Machine.syncCal s) :=
  .of_acts (Acts.syncCal (T := []) x.isLt s) fun y _ => chain_syncCal y s

theorem OthersStand.calStart (x : Fin 4) (p : Nat) (k : CalKind) (s : State) : OthersStand x s (Machine.calStart x p k s) :=
  .of_acts (Acts.calStart (T := []) x.isLt p k s) fun _ hy => chain_calStart_ne hy p k s

theorem OthersStand.beginStep (x : Fin 4) (k : ChainStep) (s : State) : OthersStand x s (Machine.beginStep x k s) :=
  .of_acts (Acts.beginStep (T := []) x.isLt k s) fun y hy => by rw [chain_beginStep, if_neg hy]

theorem OthersStand.ifcProfile (x : Fin 4) (p : Nat) (s : State) : OthersStand x s (Machine.ifcProfile x p s) :=
  .of_acts (Acts.ifcProfile (T := []) x.isLt p s) fun y _ => chain_ifcProfile x p y s

theorem OthersStand.chainAdvance (x : Fin 4) (s : State) : OthersStand x s (Machine.chainAdvance x none s) :=
  .of_acts (Acts.chainAdvance (T := [none]) x.isLt fun _ => by simp) fun _ hy => chain_chainAdvance_ne hy none s

theorem OthersStand.chainRetarget (x : Fin 4) (s : State) : OthersStand x s (Machine.chainRetarget x none s) :=
  .of_acts (Acts.chainRetarget (T := [none]) x.isLt (by simp) s) fun _ hy => chain_chainRetarget_ne hy none s

/-! A write of CTRL (R77, R92). -/

/-- The fields of GRF_CH_x_CTRL. -/
def chCtrlFields : List FieldSpec := [fs 9 8 .rw 0x0, fs 1 0 .rw 0x0]

theorem regAt_chCtrl : ∀ x : Fin 4, regAt (R.GRF_CH_CTRL x) = some ⟨R.GRF_CH_CTRL 0, [(0x100, 4)], 256, .d, false, chCtrlFields⟩ := by
  decide

theorem fieldsApart_chCtrl : fieldsApart chCtrlFields := by
  simp [fieldsApart, FieldSpec.apart, chCtrlFields, fs]

/-- CTRL written, before the chain moves. -/
abbrev ctrlWritten (who : Reader) (x : Nat) (v : Word) (s : State) : State := plainWrite who (R.GRF_CH_CTRL x) v s

theorem ctrlWritten_spec (who : Reader) (x : Fin 4) (v : Word) (s : State) :
    let t := ctrlWritten who x v s
    WordsOnly [R.GRF_CH_CTRL x] s t ∧ t.fld (F.GRF_CH_CTRL_TARGET x) = v.toNat % 4 ∧
      t.fld (F.GRF_CH_CTRL_PROFILE x) = bitsOf v.toNat 9 8 :=
  ⟨.plainWrite_of_lawful v (regAt_chCtrl x) rfl (vltChecked_of_no_vlt fun _ _ => rfl),
    (fld_plainWrite_rw (rst := 0) (l := .any) v (regAt_chCtrl x) rfl fieldsApart_chCtrl (by simp [chCtrlFields, fs]) rfl).trans
      (by simp [bitsOf]),
    fld_plainWrite_rw (rst := 0) (l := .any) v (regAt_chCtrl x) rfl fieldsApart_chCtrl (by simp [chCtrlFields, fs]) rfl⟩

theorem OthersStand.ctrlWritten (who : Reader) (x : Fin 4) (v : Word) (s : State) :
    OthersStand x s (Machine.ctrlWritten who x v s) := by
  obtain ⟨hw, -⟩ := ctrlWritten_spec who x v s
  have hx := x.isLt
  refine .of_keeps (hw.keeps (fun f hf => hw.words.fld ?_) ?_) fun y _ => chain_congr hw.chains y
  · have : ∀ f ∈ othersFlds x, f.off ≠ R.GRF_CH_CTRL x := by clear hw hf hx; revert x; decide
    simpa using this f hf
  · simp only [List.mem_singleton, forall_eq, R.GRF_CH_CTRL]
    omega

/-- Words other than the chain's CTRL read as before the write. -/
theorem fld_ctrlWritten {f : Fld} (hf : f.off ≠ R.GRF_CH_CTRL x) (who : Reader) (v : Word) (s : State) :
    (ctrlWritten who x v s).fld f = s.fld f := (ctrlWritten_spec who x v s).1.words.fld (by simpa using hf)

theorem chain_ctrlWritten (who : Reader) (v : Word) (s : State) (y : Nat) : chain (ctrlWritten who x v s) y = chain s y :=
  chain_congr (ctrlWritten_spec who x v s).1.chains y

/-- The state in which a chain at rest moves after a write of CTRL: CTRL written, the profile followed. -/
abbrev ctrlFollowed (who : Reader) (x : Nat) (v : Word) (s : State) : State := profileFollowed x (ctrlWritten who x v s)

/-- A write of CTRL while the chain is at rest: it moves toward the TARGET written. -/
theorem opChainCtrlWrite_of_rest (h : AtRest x s) (hst : chainState x s = st) (ht : v.toNat % 4 = tgt) :
    opChainCtrlWrite who x v s = chainNext x none tgt st (ctrlFollowed who x v s) := by
  obtain ⟨-, htgt, -⟩ := ctrlWritten_spec who x v s
  have hst' : chainState x (ctrlWritten who x v s) = st := (fld_ctrlWritten (by simp) who v s).trans hst
  have hr : AtRest x (ctrlWritten who x v s) := by rwa [AtRest, chain_ctrlWritten]
  rw [opChainCtrlWrite, chainRetarget_of_rest hr, htgt, hst', ht]

theorem OthersStand.opChainCtrlWrite (who : Reader) (x : Fin 4) (v : Word) (s : State) :
    OthersStand x s (Machine.opChainCtrlWrite who x v s) :=
  (OthersStand.ctrlWritten who x v s).trans (.chainRetarget x _)

theorem exec_chainTargetWrite (h : Open who (R.GRF_CH_CTRL x) s) :
    exec (.chainTargetWrite who x v) s = .next (opChainCtrlWrite who x v s) := congrArg _ (gate_open h.1 h.2)

theorem exec_profileWrite (h : Open who (R.GRF_CH_CTRL x) s) :
    exec (.profileWrite who x v) s = .next (opChainCtrlWrite who x v s) := congrArg _ (gate_open h.1 h.2)

/-- What the write leaves of the chain before it moves. -/
theorem ctrlFollowed_spec (who : Reader) (x : Fin 4) (v : Word) (s : State) :
    let u := ctrlFollowed who x v s
    PathsOnly (ctrlWritten who x v s) u ∧ (∀ y, chain u y = chain s y) ∧
      u.fld (F.GRF_CH_CTRL_PROFILE x) = bitsOf v.toNat 9 8 ∧
      (∀ p < 4, u.word (R.GRF_CH_PROF_CAL x p) = s.word (R.GRF_CH_PROF_CAL x p)) ∧ domainOn x u = domainOn x s := by
  obtain ⟨hw, -, hprof⟩ := ctrlWritten_spec who x v s
  obtain ⟨hk, hpath, -⟩ := profileFollowed_spec x (ctrlWritten who x v s)
  have hk := hk.tail.tail
  have word {a : Nat} (ha : a ≠ R.GRF_CH_CTRL x) : (ctrlWritten who x v s).word a = s.word a := hw.words a (by simpa using ha)
  refine ⟨hpath, fun y => (hpath.chain y).trans (chain_ctrlWritten who v s y), (fld_congr hk.ctrl).trans hprof,
    fun p hp => (hk.profCal hp).trans (word (by simp only [R.GRF_CH_PROF_CAL, R.GRF_CH_CTRL]; omega)), ?_⟩
  have hdom : (ctrlFollowed who x v s).word R.PWR_DOMAIN = s.word R.PWR_DOMAIN :=
    hk.domain.trans (word (by simp only [R.PWR_DOMAIN, R.GRF_CH_CTRL]; omega))
  rw [domainOn, State.maskBit, hdom, domainOn, State.maskBit]

/-- A domain that is off and not queued asks once (R533). -/
theorem queue_requestStart {d : Nat} (tt : Option Nat) (h1 : domainOn d s = false) (h2 : startQueued d s = false) :
    (requestStart d tt s).budget.queue = s.budget.queue ++ [⟨d, s.tick, tt⟩] := by
  unfold requestStart
  rw [if_neg (by simp [h1, h2])]
  extract_lets waits _ s₁
  have h₁ : s₁.budget.queue = s.budget.queue ++ [⟨d, s.tick, tt⟩] := by
    rw [show s₁.budget = _ from State.setFld_budget _ _ _]
  split
  · rw [(WordsOnly.flagEvent _ 28 s₁).budget, h₁]
  · exact h₁

/-- Leaving OFF is asked of the start budget (R79). -/
theorem ctrlWrite_asksStart (hr : AtRest x s) (hst : chainState x s = 0) (ht : v.toNat % 4 ≠ 0) (hd : domainOn x s = false)
    (hq : startQueued x s = false) : let t := opChainCtrlWrite who x v s
    t.budget.queue = s.budget.queue ++ [⟨x.val, s.tick, none⟩] ∧ t.bit (F.GRF_CH_STATUS_BUSY x) = true := by
  obtain ⟨hpath, -, -, -, hdom⟩ := ctrlFollowed_spec who x v s
  obtain ⟨hw, -⟩ := ctrlWritten_spec who x v s
  have hb : (ctrlFollowed who x v s).budget = s.budget := hpath.budget.trans hw.budget
  have htick : (ctrlFollowed who x v s).tick = s.tick := (congrArg State.tick hpath :).trans (congrArg State.tick hw.rest :)
  have hq' : startQueued x (ctrlFollowed who x v s) = false := by rwa [startQueued, hb]
  rw [opChainCtrlWrite_of_rest hr hst rfl, chainNext, if_pos rfl, if_neg ht]
  refine ⟨?_, State.bit_setFld_one _ _ rfl (by simp)⟩
  rw [State.setFld_budget, queue_requestStart none (hdom.trans hd) hq', hb, htick]

/-! The steps without a lock (R76, R77). -/

theorem chainNext_wakes (h : 2 ≤ tgt) (s : State) : chainNext x none tgt 1 s = beginStep x .standby s := by simp [chainNext, h]

theorem chainNext_sleeps (h : tgt < 2) (s : State) : chainNext x none tgt 2 s = beginStep x .sleep s := by
  simp [chainNext, h, show tgt ≠ 3 by omega]

theorem chainNext_leavesReceive (h : tgt < 3) (s : State) :
    chainNext x none tgt 3 s = beginStep x .down (s.setFld (F.GRF_CH_STATUS_LOCKED x) 0) := by simp [chainNext, h]

theorem ctrlWrite_toStandby (hr : AtRest x s) (hst : chainState x s = 1) (ht : 2 ≤ v.toNat % 4) :
    (chain (opChainCtrlWrite who x v s) x).step = .standby := by
  rw [opChainCtrlWrite_of_rest hr hst rfl, chainNext_wakes ht, chain_beginStep, if_pos rfl]

theorem ctrlWrite_toOff (hr : AtRest x s) (hst : chainState x s = 1) (ht : v.toNat % 4 = 0) :
    (chain (opChainCtrlWrite who x v s) x).step = .off := by
  rw [opChainCtrlWrite_of_rest hr hst ht, show chainNext x none 0 1 _ = beginStep x .off _ from rfl, chain_beginStep, if_pos rfl]

theorem ctrlWrite_toSleep (hr : AtRest x s) (hst : chainState x s = 2) (ht : v.toNat % 4 < 2) :
    (chain (opChainCtrlWrite who x v s) x).step = .sleep := by
  rw [opChainCtrlWrite_of_rest hr hst rfl, chainNext_sleeps ht, chain_beginStep, if_pos rfl]

theorem ctrlWrite_leavesReceive (hr : AtRest x s) (hst : chainState x s = 3) (ht : v.toNat % 4 < 3) :
    let t := opChainCtrlWrite who x v s
    (chain t x).step = .down ∧ t.bit (F.GRF_CH_STATUS_LOCKED x) = false := by
  rw [opChainCtrlWrite_of_rest hr hst rfl, chainNext_leavesReceive ht]
  refine ⟨by simp, ?_⟩
  rw [beginStep, State.bit_setFld_ne _ _ _ _ (by simp) (by simp) (by simp), bit_setChain]
  exact State.bit_setFld_zero _ _ rfl (by simp)

/-! Lock and hop (R76, R92). -/

theorem beginLock_valid (h : s.bit (F.GRF_CH_PROF_CAL_CAL_VALID x (wantProfile x s)) = true) (hp : wantProfile x s < 4) :
    beginLock x s = beginStep x .lock (ifcProfile x (wantProfile x s) s) := by
  have hk := ((Keeps.standing_ifcProfile x (wantProfile x s) s).tail.tail).profCal hp
  have hb : (beginStep x .lock (ifcProfile x (wantProfile x s) s)).bit (F.GRF_CH_PROF_CAL_CAL_VALID x (wantProfile x s)) = true := by
    refine (bit_congr ?_).trans h
    exact ((Keeps.setChain x _ _).trans (Keeps.standing_busy x 1 _).tail.tail).profCal hp |>.trans hk
  rw [beginLock, if_pos hb]

/-- The profile that the conditioning path follows is the active one. -/
theorem profileAct_ifcProfile (x : Fin 4) (hp : p < 4) (s : State) :
    (ifcProfile x p s).fld (F.GRF_CH_STATUS_PROFILE_ACT x) = p := by
  have hn : ∀ n < 8, (F.IFC_CH_NOTCH_CTRL_ACTIVE x n).spares [F.GRF_CH_STATUS_PROFILE_ACT x] := by revert x; decide
  unfold ifcProfile
  extract_lets old s₁ s₂
  split
  · assumption
  · have h : Keeps [F.GRF_CH_STATUS_PROFILE_ACT x] (s₂.setFld (F.GRF_CH_STATUS_PROFILE_ACT x) p) (notchProfile x p _) :=
      .notchProfile hn p _
    rw [h.flds _ (by simp), State.fld_setFld _ _ _ (by simp) (by simp)]
    exact Nat.mod_eq_of_lt hp

theorem ctrlWrite_locks (hr : AtRest x s) (hseq : (chain s x).seq = false) (hst : chainState x s = 2) (ht : v.toNat % 4 = 3)
    (hv : s.bit (F.GRF_CH_PROF_CAL_CAL_VALID x (bitsOf v.toNat 9 8)) = true) : let t := opChainCtrlWrite who x v s
    (chain t x).step = .lock ∧ (chain t x).cal = none ∧ t.fld (F.GRF_CH_STATUS_PROFILE_ACT x) = bitsOf v.toNat 9 8 := by
  obtain ⟨-, hch, hprof, hcal, -⟩ := ctrlFollowed_spec who x v s
  have hp : bitsOf v.toNat 9 8 < 4 := bitsOf_lt _ _ _
  have hwant : wantProfile x (ctrlFollowed who x v s) = bitsOf v.toNat 9 8 := by
    rw [wantProfile, hch, hseq, if_neg (by simp), hprof]
  have e := beginLock_valid (s := ctrlFollowed who x v s) (x := x) (by rw [hwant]; exact (bit_congr (hcal _ hp)).trans hv) (hwant ▸ hp)
  rw [hwant] at e
  rw [opChainCtrlWrite_of_rest hr hst ht, show chainNext x none 3 2 _ = beginLock x _ from rfl, e]
  refine ⟨by simp, by simp [hch, hr.2], ?_⟩
  exact ((Keeps.standing_busy x 1 _).flds _ (by simp)).trans (profileAct_ifcProfile x hp _)

/-- A hop on a stored result begins (R76, R92): STATE HOP, the samples invalid. -/
theorem chainNext_hops (hne : wantProfile x s ≠ s.fld (F.GRF_CH_STATUS_PROFILE_ACT x)) (hp : wantProfile x s < 4)
    (hv : s.bit (F.GRF_CH_PROF_CAL_CAL_VALID x (wantProfile x s)) = true) : let t := chainNext x none 3 3 s
    (chain t x).step = .hop (wantProfile x s) ∧ (chain t x).seg = (chain s x).seg ∧ chainState x t = 5 ∧
      t.bit (F.GRF_CH_STATUS_LOCKED x) = false ∧ t.bit (F.GRF_CH_STATUS_BUSY x) = true := by
  intro t
  have hd : t = beginHop x (wantProfile x s) s := by simp [t, chainNext, hne]
  generalize wantProfile x s = p at *
  -- The chain with its step begun, before STATE shows it.
  obtain ⟨w, hw⟩ : ∃ w, w = (beginStep x (.hop p) s).setFld (F.GRF_CH_STATUS_LOCKED x) 0 := ⟨_, rfl⟩
  have hk := Keeps.standing_setChainState x 5 w
  have hlock : w.word (R.GRF_CH_PROF_CAL x p) = s.word (R.GRF_CH_PROF_CAL x p) := by
    rw [hw, State.word_setFld_ne _ _ (by simp only [R.GRF_CH_PROF_CAL]; omega)]
    exact ((Keeps.setChain x _ s).trans (Keeps.standing_busy x 1 _).tail.tail).profCal hp
  have e : t = setChainState x 5 w := by
    rw [hd, beginHop, ← hw, if_pos ((bit_congr ((hk.tail.tail.profCal hp).trans hlock)).trans hv)]
  rw [e]
  refine ⟨by simp [hw], by simp [hw], chainState_setChainState x (by decide) w, ?_, ?_⟩
  · rw [State.bit, hk.flds _ (by simp [standingFlds]), ← State.bit, hw]
    exact State.bit_setFld_zero _ _ rfl (by simp)
  · rw [State.bit, hk.flds _ (by simp), ← State.bit, hw, State.bit_setFld_ne _ _ _ _ (by simp) (by simp) (by simp)]
    exact State.bit_setFld_one _ _ rfl (by simp)

theorem ctrlWrite_hops (hr : AtRest x s) (hseq : (chain s x).seq = false) (hst : chainState x s = 3) (ht : v.toNat % 4 = 3)
    (hne : bitsOf v.toNat 9 8 ≠ s.fld (F.GRF_CH_STATUS_PROFILE_ACT x))
    (hv : s.bit (F.GRF_CH_PROF_CAL_CAL_VALID x (bitsOf v.toNat 9 8)) = true) : let t := opChainCtrlWrite who x v s
    (chain t x).step = .hop (bitsOf v.toNat 9 8) ∧ chainState x t = 5 ∧ t.bit (F.GRF_CH_STATUS_LOCKED x) = false ∧
      t.bit (F.GRF_CH_STATUS_BUSY x) = true := by
  obtain ⟨-, hch, hprof, hcal, -⟩ := ctrlFollowed_spec who x v s
  have hp : bitsOf v.toNat 9 8 < 4 := bitsOf_lt _ _ _
  have hwant : wantProfile x (ctrlFollowed who x v s) = bitsOf v.toNat 9 8 := by
    rw [wantProfile, hch, hseq, if_neg (by simp), hprof]
  have hact : (ctrlFollowed who x v s).fld (F.GRF_CH_STATUS_PROFILE_ACT x) = s.fld (F.GRF_CH_STATUS_PROFILE_ACT x) := by
    have hst' : chainState x (ctrlWritten who x v s) = 3 := (fld_ctrlWritten (by simp) who v s).trans hst
    rw [ctrlFollowed, (profileFollowed_spec x _).2.2 hst'.ge, fld_ctrlWritten (by simp)]
  obtain ⟨h1, -, h2⟩ := chainNext_hops (s := ctrlFollowed who x v s) (x := x) (by rwa [hwant, hact]) (hwant ▸ hp)
    (by rw [hwant]; exact (bit_congr (hcal _ hp)).trans hv)
  rw [opChainCtrlWrite_of_rest hr hst ht]
  exact ⟨h1.trans (congrArg _ hwant), h2⟩

/-! The end of a step (R76, R77). -/

/-- A step has ended in a state, before the chain moves on. -/
def stepEnded (x st : Nat) (s : State) : State := setChainState x st (setChain s x { chain s x with step := .none, cold := false })

theorem stepEnded_spec (x : Fin 4) (hst : st < 8) (hc : (chain s x).cal = none) : let t := stepEnded x st s
    AtRest x t ∧ chainState x t = st ∧ Keeps (F.GRF_CH_STATUS_PROFILE_ACT x :: F.GRF_CH_STATUS_BUSY x :: standingFlds x) s t ∧
      wantProfile x t = wantProfile x s := by
  have hk : Keeps (F.GRF_CH_STATUS_PROFILE_ACT x :: F.GRF_CH_STATUS_BUSY x :: standingFlds x) s (stepEnded x st s) :=
    (Keeps.setChain x _ s).trans (.standing_setChainState x st _)
  exact ⟨⟨by simp [stepEnded], by simp [stepEnded, hc]⟩, chainState_setChainState x hst _, hk,
    wantProfile_congr (by simp [stepEnded]) (by simp [stepEnded]) hk.tail.tail.ctrl⟩

/-- A step that ends at TARGET, on the profile the chain should be on, leaves it at rest there. -/
theorem endStep_rests (hc : (chain s x).cal = none) (ht : s.fld (F.GRF_CH_CTRL_TARGET x) = st)
    (hp : st = 3 → wantProfile x s = s.fld (F.GRF_CH_STATUS_PROFILE_ACT x)) : let t := endStep x st s
    chainState x t = st ∧ (chain t x).step = .none ∧ t.bit (F.GRF_CH_STATUS_BUSY x) = false ∧ Keeps (standingFlds x) s t ∧
      (st = 3 → t.fld (F.GRF_CH_STATUS_PROFILE_ACT x) = s.fld (F.GRF_CH_STATUS_PROFILE_ACT x)) := by
  have hlt : st < 4 := ht ▸ bitsOf_lt _ _ _
  obtain ⟨hr, hst, hk, hw⟩ := stepEnded_spec (st := st) x (by omega) hc
  have hact := hk.flds (F.GRF_CH_STATUS_PROFILE_ACT x) (by simp)
  obtain ⟨hch, hbusy, hkt, hp'⟩ := chainRetarget_rests hr ((fld_congr hk.tail.tail.ctrl).trans (ht.trans hst.symm))
    fun h => by rw [hw, hact, hp (hst ▸ h)]
  exact ⟨(hkt.flds _ (by simp)).trans hst, by rw [endStep, ← stepEnded, hch, hr.1], hbusy, hk.tail.tail.trans hkt.tail,
    fun h => (hp' (hst.trans h)).trans hact⟩

theorem OthersStand.endStep (x : Fin 4) (st : Nat) (s : State) : OthersStand x s (Machine.endStep x st s) :=
  ((OthersStand.setChain x _ s).trans (.setChainState x st _)).trans (.chainRetarget x _)

theorem OthersStand.domainStop (x : Fin 4) (s : State) : OthersStand x s (Machine.domainStop x s) := by
  have h : OthersStand x s (Machine.withdrawStart x s) :=
    .of_acts (Acts.withdrawStart (T := []) x.isLt x s) fun y _ => chain_withdrawStart x y s
  exact h.trans (.of_keeps (.setBit _ _ _ (by clear h; revert x; decide)) fun y _ => chain_setMaskBit _ _ _ _ y)

/-- TARGET and the calibration of a chain whose domain stops stand; the domain is off (R534). -/
theorem domainStop_spec (x : Fin 4) (s : State) :
    (domainStop x s).fld (F.GRF_CH_CTRL_TARGET x) = s.fld (F.GRF_CH_CTRL_TARGET x) ∧ domainOn x (domainStop x s) = false := by
  refine ⟨?_, ?_⟩
  · refine (fld_congr (State.word_setFld_ne _ _ ?_)).trans (fld_congr (Keeps.standing_withdrawStart x s).tail.ctrl)
    simp only [R.PWR_DOMAIN]
    omega
  · rw [domainOn, domainStop, State.maskBit_setMaskBit _ _ _ _ _ _ (by omega), if_pos ⟨rfl, rfl⟩]

/-- LOCKED set by a step that ends with lock. -/
abbrev lockedSet (x : Nat) (s : State) : State := s.setFld (F.GRF_CH_STATUS_LOCKED x) 1

theorem lockedSet_spec (x : Fin 4) (s : State) : let t := lockedSet x s
    t.bit (F.GRF_CH_STATUS_LOCKED x) = true ∧ t.word (R.GRF_CH_CTRL x) = s.word (R.GRF_CH_CTRL x) ∧
      t.fld (F.GRF_CH_STATUS_PROFILE_ACT x) = s.fld (F.GRF_CH_STATUS_PROFILE_ACT x) :=
  ⟨State.bit_setFld_one _ _ rfl (by simp), State.word_setFld_ne _ _ (by simp),
    State.fld_setFld_ne _ _ _ _ (by simp) (by simp) (by simp)⟩

theorem OthersStand.lockedSet (x : Fin 4) (s : State) : OthersStand x s (Machine.lockedSet x s) :=
  .setFld (by revert x; decide) 1 s

/-- A step without a synthesiser ends below RECEIVE. -/
theorem exec_transitionDone_plain {b : Bool} (hc : (chain s x).cal = none)
    (hk : ((chain s x).step, st) ∈ [(ChainStep.wake, 1), (.standby, 2), (.down, 2), (.sleep, 1)]) :
    exec (.chainTransitionDone x b) s = .next (endStep x st s) := by
  change execChainTransitionDone x b s = _
  simp only [List.mem_cons, List.not_mem_nil, or_false, Prod.mk.injEq] at hk
  obtain ⟨h, rfl⟩ | ⟨h, rfl⟩ | ⟨h, rfl⟩ | ⟨h, rfl⟩ := hk <;> simp [execChainTransitionDone, hc, h]

theorem exec_transitionDone_off {b : Bool} (hc : (chain s x).cal = none) (h : (chain s x).step = .off) :
    exec (.chainTransitionDone x b) s = .next (endStep x 0 (domainStop x s)) := by
  change execChainTransitionDone x b s = _
  simp [execChainTransitionDone, hc, h]

theorem exec_transitionDone_lock {b : Bool} (hc : (chain s x).cal = none) (h : (chain s x).step = .lock) :
    exec (.chainTransitionDone x b) s = .next (
      if b then endStep x 3 (lockedSet x s) else lockFails x (s.fld (F.GRF_CH_STATUS_PROFILE_ACT x)) s) := by
  change execChainTransitionDone x b s = _
  simp [execChainTransitionDone, hc, h]

theorem exec_transitionDone_hop {b : Bool} (hc : (chain s x).cal = none) (h : (chain s x).step = .hop p) :
    exec (.chainTransitionDone x b) s = .next (
      if b then endStep x 3 (lockedSet x (ifcProfile x p s)) else lockFails x p s) := by
  change execChainTransitionDone x b s = _
  simp [execChainTransitionDone, hc, h]

/-- What a chain that has come to its target shows. -/
def Arrived (x : Fin 4) (st : Nat) (t : State) : Prop :=
  chainState x t = st ∧ (chain t x).step = .none ∧ t.bit (F.GRF_CH_STATUS_BUSY x) = false ∧
    (st = 3 → t.bit (F.GRF_CH_STATUS_LOCKED x) = true) ∧ (st = 0 → domainOn x t = false)

theorem transitionDone_plain (hc : (chain s x).cal = none)
    (hk : ((chain s x).step, st) ∈ [(ChainStep.wake, 1), (.standby, 2), (.down, 2), (.sleep, 1)])
    (ht : s.fld (F.GRF_CH_CTRL_TARGET x) = st) :
    ∃ t, exec (.chainTransitionDone x true) s = .next t ∧ OthersStand x s t ∧ Arrived x st t := by
  have hst : st ≠ 0 ∧ st ≠ 3 := by
    simp only [List.mem_cons, List.not_mem_nil, or_false, Prod.mk.injEq] at hk
    omega
  obtain ⟨h1, h2, h3, -⟩ := endStep_rests hc ht fun h => absurd h hst.2
  exact ⟨_, exec_transitionDone_plain hc hk, .endStep x st s, h1, h2, h3, fun h => absurd h hst.2, fun h => absurd h hst.1⟩

theorem transitionDone_off (hc : (chain s x).cal = none) (h : (chain s x).step = .off) (ht : s.fld (F.GRF_CH_CTRL_TARGET x) = 0) :
    ∃ t, exec (.chainTransitionDone x true) s = .next t ∧ OthersStand x s t ∧ Arrived x 0 t := by
  obtain ⟨htgt, hdom⟩ := domainStop_spec x s
  obtain ⟨h1, h2, h3, hk, -⟩ := endStep_rests (s := domainStop x s) (x := x) (st := 0) (by rwa [chain_domainStop])
    (htgt.trans ht) (by simp)
  refine ⟨_, exec_transitionDone_off hc h, (OthersStand.domainStop x s).trans (.endStep x 0 _), h1, h2, h3, by simp, fun _ => ?_⟩
  rwa [domainOn, State.maskBit, hk.domain, ← State.maskBit, ← domainOn]

/-- Lock, on the profile the chain should be on, brings it to RECEIVE. -/
theorem endStep_locked (hc : (chain s x).cal = none) (ht : s.fld (F.GRF_CH_CTRL_TARGET x) = 3)
    (hp : wantProfile x s = s.fld (F.GRF_CH_STATUS_PROFILE_ACT x)) : let t := endStep x 3 (lockedSet x s)
    OthersStand x s t ∧ Arrived x 3 t ∧ t.fld (F.GRF_CH_STATUS_PROFILE_ACT x) = s.fld (F.GRF_CH_STATUS_PROFILE_ACT x) := by
  obtain ⟨hl, hctl, hact⟩ := lockedSet_spec x s
  have hw : wantProfile x (lockedSet x s) = wantProfile x s :=
    wantProfile_congr (by rw [chain_setFld]) (by rw [chain_setFld]) hctl
  obtain ⟨h1, h2, h3, hk, h4⟩ := endStep_rests (s := lockedSet x s) (x := x) (st := 3) (by rwa [chain_setFld])
    ((fld_congr hctl).trans ht) fun _ => by rw [hw, hact, hp]
  refine ⟨(OthersStand.lockedSet x s).trans (.endStep x 3 _), ⟨h1, h2, h3, fun _ => ?_, by simp⟩, (h4 rfl).trans hact⟩
  rwa [State.bit, hk.flds _ (by simp [standingFlds]), ← State.bit]

/-- Where a step ends that ends at TARGET. -/
theorem transitionDone_arrives {r : Nat} (hc : (chain s x).cal = none) {k : Nat}
    (hk : (k, (chain s x).step, r) ∈ [(1, ChainStep.wake, 1), (2, .standby, 2), (2, .down, 2), (1, .sleep, 1),
      (0, .off, 0), (3, .lock, 3)])
    (ht : s.fld (F.GRF_CH_CTRL_TARGET x) = k) (hp : k = 3 → wantProfile x s = s.fld (F.GRF_CH_STATUS_PROFILE_ACT x)) :
    r = k ∧ ∃ t, exec (.chainTransitionDone x true) s = .next t ∧ OthersStand x s t ∧ Arrived x k t := by
  simp only [List.mem_cons, List.not_mem_nil, or_false, Prod.mk.injEq] at hk
  obtain ⟨rfl, h, rfl⟩ | ⟨rfl, h, rfl⟩ | ⟨rfl, h, rfl⟩ | ⟨rfl, h, rfl⟩ | ⟨rfl, h, rfl⟩ | ⟨rfl, h, rfl⟩ := hk
  case inr.inr.inr.inr.inl => exact ⟨rfl, transitionDone_off hc h ht⟩
  case inr.inr.inr.inr.inr =>
    obtain ⟨ho, ha, -⟩ := endStep_locked hc ht (hp rfl)
    exact ⟨rfl, _, (exec_transitionDone_lock hc h).trans (congrArg _ (if_pos rfl)), ho, ha⟩
  all_goals exact ⟨rfl, transitionDone_plain hc (by simp [h]) ht⟩

theorem transitionDone_hop (hc : (chain s x).cal = none) (h : (chain s x).step = .hop p) (hp : p < 4) (hw : wantProfile x s = p)
    (ht : s.fld (F.GRF_CH_CTRL_TARGET x) = 3) :
    ∃ t, exec (.chainTransitionDone x true) s = .next t ∧ OthersStand x s t ∧ Arrived x 3 t ∧
      t.fld (F.GRF_CH_STATUS_PROFILE_ACT x) = p := by
  have hk := (Keeps.standing_ifcProfile x p s).tail.tail
  have hact := profileAct_ifcProfile x hp s
  have hw' : wantProfile x (ifcProfile x p s) = wantProfile x s :=
    wantProfile_congr (by rw [chain_ifcProfile]) (by rw [chain_ifcProfile]) hk.ctrl
  obtain ⟨ho, ha, hact'⟩ := endStep_locked (s := ifcProfile x p s) (x := x) (by rwa [chain_ifcProfile])
    ((fld_congr hk.ctrl).trans ht) (by rw [hw', hw, hact])
  exact ⟨_, (exec_transitionDone_hop hc h).trans (congrArg _ (if_pos rfl)), (OthersStand.ifcProfile x p s).trans ho, ha,
    hact'.trans hact⟩

/-! Lock that fails or is lost (R78, R86, R87). -/

/-- A lock that fails the first time calibrates the profile within the step (R78). -/
theorem lockFails_first (p : Nat) (h : (chain s x).cold = false) : let t := lockFails x p s
    OthersStand x s t ∧ (chain t x).cal = some (p, .inStep) ∧ chainState x t = 4 ∧ (chain t x).step = (chain s x).step := by
  intro t
  have e : t = calStart x p .inStep s := by simp [t, lockFails, h]
  obtain ⟨hcal, hstep, -, hst, -⟩ := calStart_spec x p .inStep s
  rw [e]
  exact ⟨.calStart x p _ s, hcal, hst, hstep⟩

/-- FAULT set with TARGET 2 and no lock, before STATE shows STANDBY. -/
def faultNoted (x : Nat) (s : State) : State :=
  (((setChain s x { chain s x with step := .none, cal := none, cold := false }).setFld (F.GRF_CH_STATUS_FAULT x) 1).setFld
    (F.GRF_CH_CTRL_TARGET x) 2).setFld (F.GRF_CH_STATUS_LOCKED x) 0

theorem chainFault_eq (x : Nat) (s : State) :
    chainFault x s = syncCal ((setChainState x 2 (faultNoted x s)).setFld (F.GRF_CH_STATUS_BUSY x) 0) := rfl

theorem OthersStand.faultNoted (x : Fin 4) (s : State) : OthersStand x s (Machine.faultNoted x s) :=
  (((OthersStand.setChain x _ s).trans (.setFld (by revert x; decide) 1 _)).trans (.setFld (by revert x; decide) 2 _)).trans
    (.setFld (by revert x; decide) 0 _)

/-- RECEIVE cannot be reached (R86). -/
theorem chainFault_spec (x : Fin 4) (s : State) : let t := chainFault x s
    OthersStand x s t ∧ t.bit (F.GRF_CH_STATUS_FAULT x) = true ∧ chainState x t = 2 ∧ (chain t x).step = .none := by
  rw [chainFault_eq]
  refine ⟨(((OthersStand.faultNoted x s).trans (.setChainState x 2 _)).trans (.setFld (by revert x; decide) 0 _)).trans
    (.syncCal x _), ?_, ?_, by simp [faultNoted]⟩
  · have hk := ((Keeps.standing_setChainState x 2 (faultNoted x s)).tail.tail.trans (Keeps.standing_busy x 0 _).tail.tail).trans
      (Keeps.standing_syncCal x _).tail.tail.tail
    rw [State.bit, hk.flds _ (by simp [standingFlds]), ← State.bit, faultNoted,
      State.bit_setFld_ne _ _ _ _ (by simp) (by simp) (by simp), State.bit_setFld_ne _ _ _ _ (by simp) (by simp) (by simp)]
    exact State.bit_setFld_one _ _ rfl (by simp)
  · exact (((Keeps.standing_busy x 0 _).mono (by simp)).trans ((Keeps.standing_syncCal x _).mono (by simp))).flds
      (K := [F.GRF_CH_STATUS_STATE x]) _ (by simp) |>.trans (chainState_setChainState x (by decide) _)

theorem exec_staleLockTimeout_lock (hc : (chain s x).cal = none) (h : (chain s x).step = .lock)
    (hs : s.bit (F.GRF_CH_PROF_CAL_STALE x (s.fld (F.GRF_CH_STATUS_PROFILE_ACT x))) = true) :
    exec (.staleLockTimeout x) s = .next (lockFails x (s.fld (F.GRF_CH_STATUS_PROFILE_ACT x)) s) := by
  change execStaleLockTimeout x s = _
  simp [execStaleLockTimeout, hc, h, hs]

theorem staleLockTimeout_idle (h : (chain s x).step = .none) : exec (.staleLockTimeout x) s = .next s := by
  change execStaleLockTimeout x s = _
  simp [execStaleLockTimeout, h]

/-- Lock lost, before its event: the chain relocks, LOCKED is clear and LOCK_LOST set. -/
def lockLostNoted (x : Nat) (s : State) : State :=
  ((beginStep x .relock s).setFld (F.GRF_CH_STATUS_LOCKED x) 0).setFld (F.GRF_CH_STATUS_LOCK_LOST x) 1

theorem OthersStand.lockLostNoted (x : Fin 4) (s : State) : OthersStand x s (Machine.lockLostNoted x s) :=
  ((OthersStand.beginStep x .relock s).trans (.setFld (by revert x; decide) 0 _)).trans (.setFld (by revert x; decide) 1 _)

theorem exec_lockLost (x : Fin 4) (s : State) : exec (.lockLost x) s = .next (
    if chainState x s = 3 ∧ (chain s x).step = .none ∧ s.bit (F.GRF_CH_STATUS_LOCKED x) = true then raise 36 (lockLostNoted x s)
    else s) := by
  change execLockLost x s = _
  simp only [execLockLost, lockLostNoted, Bool.and_eq_true, decide_eq_true_eq, beq_iff_eq, and_assoc]

theorem lockLost_relocks (hs : chainState x s = 3) (h : (chain s x).step = .none) (hl : s.bit (F.GRF_CH_STATUS_LOCKED x) = true) :
    ∃ t, exec (.lockLost x) s = .next t ∧ OthersStand x s t ∧ (chain t x).step = .relock ∧
      t.bit (F.GRF_CH_STATUS_LOCKED x) = false ∧ t.bit (F.GRF_CH_STATUS_LOCK_LOST x) = true ∧ sampleValid x t = false ∧
      EventUp 36 t := by
  have hkey := plainKey_chStatus x
  have hstep : (chain (raise 36 (lockLostNoted x s)) x).step = .relock := by simp [lockLostNoted]
  refine ⟨_, (exec_lockLost x s).trans (congrArg _ (if_pos ⟨hs, h, hl⟩)), ?_, hstep, ?_, ?_, by simp only [sampleValid, hstep]; simp,
    .raise_self 36 _⟩
  · have hr (u : State) : OthersStand x u (raise 36 u) :=
      .of_keeps (.raise (fun f hf => plainFlds_chainFlds x.isLt f (othersFlds_subset hf)) 36 u) fun y _ => chain_raise 36 y u
    exact (OthersStand.lockLostNoted x s).trans (hr _)
  · rw [bit_raise hkey, lockLostNoted, State.bit_setFld_ne _ _ _ _ (by simp) (by simp) (by simp)]
    exact State.bit_setFld_zero _ _ rfl (by simp)
  · rw [bit_raise hkey]
    exact State.bit_setFld_one _ _ rfl (by simp)

/-! The segments of a burst (R91). -/

/-- The sequence of a chain stands at a segment. -/
def segmentTaken (x k : Nat) (s : State) : State :=
  setChain s x { chain s x with seg := k, segProf := s.fld (F.GRF_BURST_SEG_PROFILE k) }

theorem exec_segmentStart {k : Nat} (hw : s.bit (F.GRF_CH_STATUS_IN_WINDOW x) = true) (hq : (chain s x).seq = true)
    (hk : segFrom ((chain s x).seg + 1) s = some k) :
    exec (.segmentStart x) s = .next (chainAdvance x none (segmentTaken x k s)) := by
  change execSegmentStart x s = _
  simp [execSegmentStart, hw, hq, hk, segmentTaken]

theorem segmentStart_hops {k : Nat} (hw : s.bit (F.GRF_CH_STATUS_IN_WINDOW x) = true) (hq : (chain s x).seq = true)
    (hk : segFrom ((chain s x).seg + 1) s = some k) (hs : chainState x s = 3) (hr : AtRest x s)
    (ht : s.fld (F.GRF_CH_CTRL_TARGET x) = 3)
    (hne : s.fld (F.GRF_BURST_SEG_PROFILE k) ≠ s.fld (F.GRF_CH_STATUS_PROFILE_ACT x))
    (hv : s.bit (F.GRF_CH_PROF_CAL_CAL_VALID x (s.fld (F.GRF_BURST_SEG_PROFILE k))) = true) :
    ∃ t, exec (.segmentStart x) s = .next t ∧ OthersStand x s t ∧
      (chain t x).step = .hop (s.fld (F.GRF_BURST_SEG_PROFILE k)) ∧ (chain t x).seg = k := by
  have hwant : wantProfile x (segmentTaken x k s) = s.fld (F.GRF_BURST_SEG_PROFILE k) := by simp [wantProfile, segmentTaken, hq]
  have e : chainAdvance x none (segmentTaken x k s) = chainNext x none 3 3 (segmentTaken x k s) := by
    have hs' : chainState x (segmentTaken x k s) = 3 := hs
    have ht' : (segmentTaken x k s).fld (F.GRF_CH_CTRL_TARGET x) = 3 := ht
    rw [chainAdvance_of_rest (by simpa [AtRest, segmentTaken] using hr), hs', ht', (profileFollowed_spec x _).2.2 hs'.ge]
  obtain ⟨h1, h2, -⟩ := chainNext_hops (s := segmentTaken x k s) (x := x) (by rw [hwant]; exact hne)
    (by rw [hwant]; exact bitsOf_lt _ _ _) (by rw [hwant]; exact hv)
  refine ⟨_, exec_segmentStart hw hq hk, (OthersStand.setChain x _ s).trans (.chainAdvance x _), ?_, ?_⟩
  · rw [e, h1, hwant]
  · rw [e, h2, segmentTaken, chain_setChain, if_pos rfl]

/-- Settles O10: a write of CTRL moves the chain one step, the end of a step lets it rest at TARGET, a lock that fails is calibrated
and then a fault, and a segment hops. -/
theorem chainTransitions : Obligations.ChainTransitions := by
  intro who x v s c st act tgt rest goes
  -- A write of CTRL leaves the others; what it makes of the chain is its case's.
  have write {post : State → Prop} (ho : Open who (R.GRF_CH_CTRL x) s) (hp : post (opChainCtrlWrite who x v s)) :
      goes (.chainTargetWrite who x v) post :=
    ⟨_, exec_chainTargetWrite ho, OthersStand.opChainCtrlWrite who x v s, hp⟩
  refine ⟨fun ho hs hc hseq => ?_, fun hc k r hk ht hp => ?_, fun p hc h hp hw ht => ?_, fun hc h hcold => ?_, fun hc h hcold => ?_,
    fun hc h hcold hs => ?_, staleLockTimeout_idle, lockLost_relocks, fun h => ?_, fun k hw hq hk hs h hc ht hne hv => ?_⟩
  · have hr : AtRest x s := ⟨hs, hc⟩
    exact ⟨fun h ht hd hq => write ho (ctrlWrite_asksStart hr h ht hd hq), fun h ht => write ho (ctrlWrite_toStandby hr h ht),
      fun h ht => write ho (ctrlWrite_toOff hr h ht), fun h ht => write ho (ctrlWrite_toSleep hr h ht),
      fun h ht hv => write ho (ctrlWrite_locks hr hseq h ht hv), fun h ht => write ho (ctrlWrite_leavesReceive hr h ht),
      fun h ht hne hv => ⟨_, exec_profileWrite ho, OthersStand.opChainCtrlWrite who x v s, ctrlWrite_hops hr hseq h ht hne hv⟩⟩
  · obtain ⟨rfl, t, he, ho, h1, h2, h3, h4, h5⟩ := transitionDone_arrives hc hk ht hp
    exact ⟨t, he, ho, h1, h2, h3, h4, h5⟩
  · obtain ⟨t, he, ho, ⟨h1, h2, -, h4, -⟩, hact⟩ := transitionDone_hop hc h hp hw ht
    exact ⟨t, he, ho, h1, hact, h4 rfl, h2⟩
  · obtain ⟨ho, h1, h2, h3⟩ := lockFails_first act hcold
    exact ⟨_, exec_transitionDone_lock hc h, ho, h1, h2, h3.trans h⟩
  · have e : lockFails x act s = chainFault x s := if_pos hcold
    exact ⟨_, (exec_transitionDone_lock hc h).trans (congrArg _ e), chainFault_spec x s⟩
  · obtain ⟨ho, h1, h2, -⟩ := lockFails_first act hcold
    exact ⟨_, exec_staleLockTimeout_lock hc h hs, ho, h1, h2⟩
  · exact (exec_lockLost x s).trans (congrArg _ (if_neg fun hn => h hn.1))
  · exact segmentStart_hops hw hq hk hs ⟨h, hc⟩ ht hne hv

end Sys2Proof.Machine
end

section
/-! SUPPORT. A chain's conditioning path beside its registers, and what the operations of gain control and the notches leave as it was
(R99 to R114). -/
namespace Sys2Proof.Machine

variable {K : List Fld} {s t : State}

@[simp] theorem ifcCh_setIfcCh (s : State) (x y : Nat) (c : IfcChain) :
    ifcCh (setIfcCh s x c) y = if y = x then c else ifcCh s y := by
  simp [ifcCh, setIfcCh, Sparse.get_put]

@[simp] theorem word_setIfcCh (s : State) (x : Nat) (c : IfcChain) (k : Nat) : (setIfcCh s x c).word k = s.word k := rfl

@[simp] theorem fld_setIfcCh (s : State) (x : Nat) (c : IfcChain) (f : Fld) : (setIfcCh s x c).fld f = s.fld f := rfl

@[simp] theorem bit_setIfcCh (s : State) (x : Nat) (c : IfcChain) (f : Fld) : (setIfcCh s x c).bit f = s.bit f := rfl

theorem Keeps.setIfcCh (x : Nat) (c : IfcChain) (s : State) : Keeps K s (Machine.setIfcCh s x c) := .of_regs

theorem ifcCh_congr (h : t.ifc = s.ifc) (y : Nat) : ifcCh t y = ifcCh s y := by rw [ifcCh, h, ifcCh]

@[simp] theorem ifcCh_setFld (s : State) (f : Fld) (v y : Nat) : ifcCh (s.setFld f v) y = ifcCh s y :=
  ifcCh_congr (s.setFld_ifc f v) y

@[simp] theorem ifcCh_setBit (s : State) (f : Fld) (b : Bool) (y : Nat) : ifcCh (s.setBit f b) y = ifcCh s y :=
  ifcCh_congr (s.setBit_ifc f b) y

@[simp] theorem ifcCh_raise (n y : Nat) (s : State) : ifcCh (raise n s) y = ifcCh s y :=
  ifcCh_congr (congrArg State.ifc (WordsOnly.raise n s).rest :) y

/-- A field written once the path has taken note leaves the other words. -/
theorem RegsBut.setIfcCh_setFld (x : Nat) (c : IfcChain) (f : Fld) (v : Nat) (s : State) :
    RegsBut [f.off] s ((Machine.setIfcCh s x c).setFld f v) := RegsBut.setFld f v (Machine.setIfcCh s x c)

theorem MemsSame.setFld (f : Fld) (v : Nat) (s : State) : MemsSame s (s.setFld f v) := (WordsOnly.setFld f v s).memsSame

theorem MemsSame.setIfcCh (x : Nat) (c : IfcChain) (s : State) : MemsSame s (Machine.setIfcCh s x c) := ⟨rfl, rfl, rfl, rfl⟩

theorem MemsSame.setIfcCh_setFld (x : Nat) (c : IfcChain) (f : Fld) (v : Nat) (s : State) :
    MemsSame s ((Machine.setIfcCh s x c).setFld f v) := (MemsSame.setIfcCh x c s).trans (.setFld f v _)

/-- The words of a chain's conditioning path are BAR 0 words that no event changes. -/
theorem plainKey_ifc {k : Nat} (h : 0x40000 ≤ k) (h' : k < 0x41000) : plainKey k := (spared_of_radio (by omega) (by omega)).1

end Sys2Proof.Machine
end

section
/-! PROOFS. O13, gain control and the blanker: a window or an interval acts once, by what the sample path gathered (R101, R102, R105). -/
namespace Sys2Proof.Machine

variable {K : List Fld} {s t : State} {x : Fin 4} {u mag clip count : Nat}

/-! Gain control (R101 to R103). -/

theorem exec_agcWindowEnd_some (h : (ifcCh s x).agcEnd = some (u, mag, clip)) (a b c : Formed) :
    exec (.agcWindowEnd x a b c) s = .next (agcWindow x u mag clip (setIfcCh s x { ifcCh s x with agcEnd := none })) := by
  change execAgcWindowEnd x a b c s = _
  simp only [execAgcWindowEnd, h]

theorem exec_agcWindowEnd_none (h : (ifcCh s x).agcEnd = none) (a b c : Formed) : exec (.agcWindowEnd x a b c) s = .next s := by
  change execAgcWindowEnd x a b c s = _
  simp only [execAgcWindowEnd, h]

/-- A window with too few usable samples says so and changes nothing else (R101). -/
theorem agcWindowEnd_short (h : (ifcCh s x).agcEnd = some (u, mag, clip)) (hu : u < 1024) (a b c : Formed) :
    ∃ t, exec (.agcWindowEnd x a b c) s = .next t ∧ MemsSame s t ∧ t.bit (F.IFC_CH_AGC_STAT_NO_DATA x) = true ∧
      t.fld (F.IFC_CH_AGC_STAT_GAIN x) = s.fld (F.IFC_CH_AGC_STAT_GAIN x) ∧ (ifcCh t x).agcEnd = none ∧
      RegsBut [R.IFC_CH_AGC_STAT x] s t := by
  refine ⟨_, exec_agcWindowEnd_some h a b c, ?_⟩
  rw [agcWindow, if_pos hu]
  exact ⟨MemsSame.setIfcCh_setFld .., State.bit_setFld_one _ _ rfl (by simp),
    State.fld_setFld_ne _ _ _ _ (by simp) (by simp) (by simp), by simp, .setIfcCh_setFld x _ (F.IFC_CH_AGC_STAT_NO_DATA x) 1 s⟩

theorem Keeps.learnGather (x : Nat) (s : State) : Keeps K s (Machine.learnGather x s) := .ite (.setIfcCh x _ s) (.refl K s)

theorem ifcCh_ite {p : Prop} [Decidable p] {q : IfcChain → Prop} {x : Nat} (hs : q (ifcCh s x)) (ht : q (ifcCh t x)) :
    q (ifcCh (if p then s else t) x) := by
  split <;> assumption

theorem agcEnd_learnGather (x : Nat) (s : State) : (ifcCh (learnGather x s) x).agcEnd = (ifcCh s x).agcEnd :=
  ifcCh_ite (q := fun c => c.agcEnd = _) (by simp) rfl

/-- The jamming indicator shows JN and STATE and counts its runs (R112, R113). -/
theorem jamUpdate_spec {x : Nat} (hK : plainFlds K) (hj : (F.IFC_CH_JAM_STAT_JN x).spares K)
    (hs : (F.IFC_CH_JAM_STAT_STATE x).spares K) (num den : Nat) (s : State) :
    Keeps K s (jamUpdate x num den s) ∧ (ifcCh (jamUpdate x num den s) x).agcEnd = (ifcCh s x).agcEnd := by
  unfold jamUpdate
  extract_lets t d jn warn alarm hyst c₀ c₁ old up stay new c₂ s₁
  have hc : c₂ = c₁ ∨ c₂ = { c₁ with learnBad := true } := ite_eq_or_eq _ _ _
  clear_value c₂
  have hc' : c₂.agcEnd = (ifcCh s x).agcEnd := by rcases hc with rfl | rfl <;> rfl
  have he : (ifcCh s₁ x).agcEnd = (ifcCh s x).agcEnd := by rw [ifcCh_setFld, ifcCh_setIfcCh, if_pos rfl, hc']
  have h₁ : Keeps K s s₁ := (Keeps.setIfcCh x c₂ s).trans (.setFld _ _ _ hj)
  exact ⟨.ite h₁ ((h₁.trans (.setFld _ _ _ hs)).trans (.raise hK _ _)),
    ifcCh_ite (q := fun c => c.agcEnd = (ifcCh s x).agcEnd) he (by rw [ifcCh_raise, ifcCh_setFld, he])⟩

/-- The fields that GAIN follows from. -/
def agcFlds (x : Nat) : List Fld := [F.IFC_CH_AGC_STAT_GAIN x, wholeWord (R.IFC_CH_AGC_CFG x)]

/-- The fields that a window shows beside GAIN. -/
def agcShownFlds (x : Nat) : List Fld := [F.IFC_CH_AGC_STAT_NO_DATA x, F.IFC_CH_AGC_STAT_CLIP x, F.IFC_CH_AGC_STAT_MEAN x]

theorem spares_agcFlds : ∀ (x : Fin 4), ∀ f ∈ agcShownFlds x, f.spares (agcFlds x) := by decide

theorem spares_agcShownFlds : ∀ (x : Fin 4), (F.IFC_CH_AGC_STAT_GAIN x).spares (agcShownFlds x) := by decide

theorem jamUpdate_agc (x : Fin 4) (num den : Nat) (s : State) :
    Keeps (agcShownFlds x ++ agcFlds x) s (jamUpdate x num den s) ∧
      (ifcCh (jamUpdate x num den s) x).agcEnd = (ifcCh s x).agcEnd :=
  jamUpdate_spec (by revert x; decide) (by revert x; decide) (by revert x; decide) num den s

/-- A window's figures shown in AGC_STAT and gathered for LEARN. -/
def agcMeasured (x u mag clip : Nat) (s : State) : State :=
  ((learnGather x (s.setFld (F.IFC_CH_AGC_STAT_NO_DATA x) 0)).setBit (F.IFC_CH_AGC_STAT_CLIP x) (decide (u < 16 * clip))).setFld
    (F.IFC_CH_AGC_STAT_MEAN x) (8 * mag / (2 * u))

/-- The jamming indicator updated too, before GAIN follows. -/
def agcShown (x u mag clip : Nat) (s : State) : State :=
  if u < 16 * clip then agcMeasured x u mag clip s else jamUpdate x mag (2 * u) (agcMeasured x u mag clip s)

theorem agcWindow_of_samples {x : Nat} (hu : 1024 ≤ u) (s : State) : agcWindow x u mag clip s =
    (agcShown x u mag clip s).setFld (F.IFC_CH_AGC_STAT_GAIN x)
      (agcGain x mag (2 * u) (decide (u < 16 * clip)) (agcShown x u mag clip s)) := by
  simp only [agcWindow, agcShown, agcMeasured, if_neg (Nat.not_lt.2 hu), decide_eq_true_eq]

/-- AGC_STAT shows a window's figures (R101). -/
def AgcShows (x u mag clip : Nat) (t : State) : Prop :=
  t.bit (F.IFC_CH_AGC_STAT_NO_DATA x) = false ∧ t.bit (F.IFC_CH_AGC_STAT_CLIP x) = decide (u < 16 * clip) ∧
    t.fld (F.IFC_CH_AGC_STAT_MEAN x) = 8 * mag / (2 * u) % 256

theorem AgcShows.keeps {x : Nat} (h : AgcShows x u mag clip s) (hk : Keeps (agcShownFlds x) s t) : AgcShows x u mag clip t := by
  obtain ⟨hn, hc, hm⟩ := h
  exact ⟨(hk.bit (by simp [agcShownFlds])).trans hn, (hk.bit (by simp [agcShownFlds])).trans hc,
    (hk.flds _ (by simp [agcShownFlds])).trans hm⟩

theorem agcMeasured_spec (x : Fin 4) (u mag clip : Nat) (s : State) : let t := agcMeasured x u mag clip s
    Keeps (agcFlds x) s t ∧ AgcShows x u mag clip t ∧ (ifcCh t x).agcEnd = (ifcCh s x).agcEnd := by
  have hs := spares_agcFlds x
  refine ⟨(((Keeps.setFld _ _ s (hs _ (by simp [agcShownFlds]))).trans (.learnGather x _)).trans
      (.setBit _ _ _ (hs _ (by simp [agcShownFlds])))).trans (.setFld _ _ _ (hs _ (by simp [agcShownFlds]))),
    ⟨?_, ?_, State.fld_setFld _ _ _ (by simp) (by simp)⟩,
    by rw [agcMeasured, ifcCh_setFld, ifcCh_setBit, agcEnd_learnGather, ifcCh_setFld]⟩
  · rw [agcMeasured, State.bit_setFld_ne _ _ _ _ (by simp) (by simp) (by simp), State.setBit,
      State.bit_setFld_ne _ _ _ _ (by simp) (by simp) (by simp),
      (Keeps.learnGather (K := [F.IFC_CH_AGC_STAT_NO_DATA x]) x _).bit (by simp)]
    exact State.bit_setFld_zero s _ rfl (by simp)
  · rw [agcMeasured, State.bit_setFld_ne _ _ _ _ (by simp) (by simp) (by simp)]
    exact State.bit_setBit _ _ _ rfl (by simp)

theorem agcShown_spec (x : Fin 4) (u mag clip : Nat) (s : State) : let t := agcShown x u mag clip s
    Keeps (agcFlds x) s t ∧ AgcShows x u mag clip t ∧ (ifcCh t x).agcEnd = (ifcCh s x).agcEnd := by
  obtain ⟨hk, ha, he⟩ := agcMeasured_spec x u mag clip s
  unfold agcShown
  split
  · exact ⟨hk, ha, he⟩
  · obtain ⟨hj, hje⟩ := jamUpdate_agc x mag (2 * u) (agcMeasured x u mag clip s)
    exact ⟨hk.trans (hj.mono (by simp)), ha.keeps (hj.mono (by simp)), hje.trans he⟩

/-- The gain after a window, by MODE: held, given, or lowered by a window that clips (R102, R103). -/
theorem agcGain_cases (x num den : Nat) (s : State) :
    (∀ cl, s.fld (F.IFC_CH_AGC_CFG_MODE x) = 1 → agcGain x num den cl s = s.fld (F.IFC_CH_AGC_STAT_GAIN x)) ∧
    (∀ cl, s.fld (F.IFC_CH_AGC_CFG_MODE x) = 2 → agcGain x num den cl s = s.fld (F.IFC_CH_AGC_CFG_MAN_GAIN x)) ∧
    (s.fld (F.IFC_CH_AGC_CFG_MODE x) = 0 →
      agcGain x num den true s = s.fld (F.IFC_CH_AGC_STAT_GAIN x) - s.fld (F.IFC_CH_AGC_CFG_MAX_STEP x)) :=
  ⟨fun _ h => by simp only [agcGain, h], fun _ h => by simp only [agcGain, h], fun h => by simp only [agcGain, h, if_true]⟩

/-- A window with samples shows its figures, and GAIN follows by MODE. -/
theorem agcWindowEnd_samples (h : (ifcCh s x).agcEnd = some (u, mag, clip)) (hu : 1024 ≤ u) (a b c : Formed) :
    ∃ t, exec (.agcWindowEnd x a b c) s = .next t ∧ MemsSame s t ∧ AgcShows x u mag clip t ∧ (ifcCh t x).agcEnd = none ∧
      (s.fld (F.IFC_CH_AGC_CFG_MODE x) = 1 → t.fld (F.IFC_CH_AGC_STAT_GAIN x) = s.fld (F.IFC_CH_AGC_STAT_GAIN x)) ∧
      (s.fld (F.IFC_CH_AGC_CFG_MODE x) = 2 → t.fld (F.IFC_CH_AGC_STAT_GAIN x) = s.fld (F.IFC_CH_AGC_CFG_MAN_GAIN x)) ∧
      (s.fld (F.IFC_CH_AGC_CFG_MODE x) = 0 → u < 16 * clip → t.fld (F.IFC_CH_AGC_STAT_GAIN x) =
        s.fld (F.IFC_CH_AGC_STAT_GAIN x) - s.fld (F.IFC_CH_AGC_CFG_MAX_STEP x)) := by
  have hs₀ : Keeps (agcFlds x) s (setIfcCh s x { ifcCh s x with agcEnd := none }) := .setIfcCh x _ s
  obtain ⟨hk, ha, he⟩ := agcShown_spec x u mag clip (setIfcCh s x { ifcCh s x with agcEnd := none })
  refine ⟨_, (exec_agcWindowEnd_some h a b c).trans (congrArg _ (agcWindow_of_samples hu _)), ?_⟩
  generalize agcShown x u mag clip _ = r at hk ha he
  replace hk := hs₀.trans hk
  have hg := hk.flds (F.IFC_CH_AGC_STAT_GAIN x) (by simp [agcFlds])
  have hcfg {hi lo : Nat} : r.fld ⟨R.IFC_CH_AGC_CFG x, hi, lo⟩ = s.fld ⟨R.IFC_CH_AGC_CFG x, hi, lo⟩ :=
    fld_congr (hk.word (by simp [agcFlds]))
  have hset (v : Nat) (hv : v < 64) : (r.setFld (F.IFC_CH_AGC_STAT_GAIN x) v).fld (F.IFC_CH_AGC_STAT_GAIN x) = v :=
    (State.fld_setFld _ _ _ (by simp) (by simp)).trans (Nat.mod_eq_of_lt hv)
  have hlt : s.fld (F.IFC_CH_AGC_STAT_GAIN x) < 64 := bitsOf_lt _ _ _
  obtain ⟨hold, manual, clipped⟩ := agcGain_cases x mag (2 * u) r
  rw [hcfg, hg] at hold
  rw [hcfg, hcfg] at manual
  rw [hcfg, hg, hcfg] at clipped
  refine ⟨hk.mems, ha.keeps (.setFld _ _ r (spares_agcShownFlds x)), ?_, fun hm => ?_, fun hm => ?_, fun hm hc => ?_⟩
  · rw [ifcCh_setFld, he, ifcCh_setIfcCh, if_pos rfl]
  · rw [hold _ hm, hset _ hlt]
  · rw [manual _ hm, hset _ (bitsOf_lt _ _ _)]
  · rw [decide_eq_true hc, clipped hm, hset _ (by omega)]

/-! The pulse blanker (R105). -/

theorem exec_blankIntervalEnd_some (h : (ifcCh s x).blankEnd = some count) (a : Formed) :
    exec (.blankIntervalEnd x a) s = .next (blankInterval x count (setIfcCh s x { ifcCh s x with blankEnd := none })) := by
  change execBlankIntervalEnd x a s = _
  simp only [execBlankIntervalEnd, h]

theorem exec_blankIntervalEnd_none (h : (ifcCh s x).blankEnd = none) (a : Formed) : exec (.blankIntervalEnd x a) s = .next s := by
  change execBlankIntervalEnd x a s = _
  simp only [execBlankIntervalEnd, h]

theorem blankInterval_above {x : Nat} (h0 : s.fld (F.IFC_CH_BLANK_CFG_SAT_RATIO x) ≠ 0)
    (h : s.fld (F.IFC_CH_BLANK_CFG_SAT_RATIO x) * 120000 < count * 256)
    (hs : s.bit (F.IFC_CH_BLANK_STAT_SUSPENDED x) = false) :
    blankInterval x count s = raise 45 (((s.setFld (F.IFC_CH_BLANK_STAT_COUNT x) count).setFld (F.IFC_CH_BLANK_STAT_SUSPENDED x) 1).setFld
      (F.IFC_CH_BLANK_STAT_SATURATED x) 1) := by
  have hs' : (s.setFld (F.IFC_CH_BLANK_STAT_COUNT x) count).bit (F.IFC_CH_BLANK_STAT_SUSPENDED x) = false := by
    rw [State.bit_setFld_ne _ _ _ _ (by simp) (by simp) (by simp), hs]
  simp [blankInterval, h, h0, hs']

theorem blankInterval_below {x : Nat} (h : count * 256 < s.fld (F.IFC_CH_BLANK_CFG_SAT_RATIO x) * 120000) :
    blankInterval x count s =
    (s.setFld (F.IFC_CH_BLANK_STAT_COUNT x) count).setFld (F.IFC_CH_BLANK_STAT_SUSPENDED x) 0 := by
  simp [blankInterval, h, Nat.lt_asymm h]

/-- An interval above the ratio suspends blanking (R105). -/
theorem blankIntervalEnd_above (h : (ifcCh s x).blankEnd = some count) (h0 : s.fld (F.IFC_CH_BLANK_CFG_SAT_RATIO x) ≠ 0)
    (ha : s.fld (F.IFC_CH_BLANK_CFG_SAT_RATIO x) * 120000 < count * 256)
    (hs : s.bit (F.IFC_CH_BLANK_STAT_SUSPENDED x) = false) (a : Formed) :
    ∃ t, exec (.blankIntervalEnd x a) s = .next t ∧ MemsSame s t ∧ t.bit (F.IFC_CH_BLANK_STAT_SUSPENDED x) = true ∧
      (ifcCh t x).blankEnd = none ∧ t.bit (F.IFC_CH_BLANK_STAT_SATURATED x) = true ∧ EventUp 45 t ∧
      t.fld (F.IFC_CH_BLANK_STAT_COUNT x) = count % 2 ^ 17 := by
  have hkey : plainKey (R.IFC_CH_BLANK_STAT x) :=
    plainKey_ifc (by simp only [R.IFC_CH_BLANK_STAT]; omega) (by simp only [R.IFC_CH_BLANK_STAT]; omega)
  refine ⟨_, (exec_blankIntervalEnd_some h a).trans (congrArg _ (blankInterval_above (by rwa [fld_setIfcCh])
    (by rwa [fld_setIfcCh]) (by rwa [bit_setIfcCh]))),
    (((MemsSame.setIfcCh_setFld ..).trans (.setFld ..)).trans (.setFld ..)).trans (WordsOnly.raise 45 _).memsSame,
    ?_, ?_, ?_, .raise_self 45 _, ?_⟩
  · rw [bit_raise hkey, State.bit_setFld_ne _ _ _ _ (by simp) (by simp) (by simp)]
    exact State.bit_setFld_one _ _ rfl (by simp)
  · rw [ifcCh_raise, ifcCh_setFld, ifcCh_setFld, ifcCh_setFld, ifcCh_setIfcCh, if_pos rfl]
  · rw [bit_raise hkey]
    exact State.bit_setFld_one _ _ rfl (by simp)
  · rw [fld_raise hkey, State.fld_setFld_ne _ _ _ _ (by simp) (by simp) (by simp),
      State.fld_setFld_ne _ _ _ _ (by simp) (by simp) (by simp)]
    exact State.fld_setFld _ _ _ (by simp) (by simp)

/-- An interval below the ratio ends the suspension. -/
theorem blankIntervalEnd_below (h : (ifcCh s x).blankEnd = some count)
    (hb : count * 256 < s.fld (F.IFC_CH_BLANK_CFG_SAT_RATIO x) * 120000) (a : Formed) :
    ∃ t, exec (.blankIntervalEnd x a) s = .next t ∧ MemsSame s t ∧ t.bit (F.IFC_CH_BLANK_STAT_SUSPENDED x) = false ∧
      t.fld (F.IFC_CH_BLANK_STAT_COUNT x) = count % 2 ^ 17 ∧ (ifcCh t x).blankEnd = none ∧
      RegsBut [R.IFC_CH_BLANK_STAT x] s t := by
  refine ⟨_, (exec_blankIntervalEnd_some h a).trans (congrArg _ (blankInterval_below (by rwa [fld_setIfcCh]))),
    (MemsSame.setIfcCh_setFld ..).trans (.setFld ..), State.bit_setFld_zero _ _ rfl (by simp), ?_, ?_,
    (RegsBut.setIfcCh_setFld x _ (F.IFC_CH_BLANK_STAT_COUNT x) count s).trans (.setFld (F.IFC_CH_BLANK_STAT_SUSPENDED x) 0 _)⟩
  · rw [State.fld_setFld_ne _ _ _ _ (by simp) (by simp) (by simp)]
    exact State.fld_setFld _ _ _ (by simp) (by simp)
  · rw [ifcCh_setFld, ifcCh_setFld, ifcCh_setIfcCh, if_pos rfl]

end Sys2Proof.Machine
end

section
/-! PROOFS. O13, the notches, the spectral monitor and the learning of the quiet-sky gain (R107 to R111, R114). -/
namespace Sys2Proof.Machine

variable {s : State} {x : Fin 4} {n : Fin 8} {bins : List (BitVec 16)} {f : BitVec 32} {carriers : List (Fin 8 × BitVec 32)}

/-! A notch allotted (R107). -/

theorem exec_notchAllocate_valid (h : (ifcCh s x).detEnd = some bins) (hv : (ifcCh s x).valid = true) (a : Formed) :
    exec (.notchAllocate x a carriers) s =
      .next (notchDetect x (bins.map (·.toNat)) carriers (setIfcCh s x { ifcCh s x with detEnd := none })) := by
  change execNotchAllocate x a carriers s = _
  simp only [execNotchAllocate, h, hv, if_true]

/-- A detector average that is not there, or that waits for valid samples, allots nothing (R100). -/
theorem exec_notchAllocate_waits (h : (ifcCh s x).detEnd = none ∨ (ifcCh s x).valid = false) (a : Formed) :
    exec (.notchAllocate x a carriers) s = .next s := by
  change execNotchAllocate x a carriers s = _
  unfold execNotchAllocate
  rcases h with h | h <;> simp only [h]
  split <;> rfl

theorem eachNotch_eq_self {g : Nat → State → State} {m : Nat} (h : ∀ k < m, g k s = s) : eachNotch g m s = s := by
  induction m with
  | zero => rfl
  | succ m ih => rw [eachNotch, ih fun k hk => h k (Nat.lt_succ_of_lt hk), h m (Nat.lt_succ_self m)]

theorem notchTrack_of_inactive {x k : Nat} (h : s.bit (F.IFC_CH_NOTCH_CTRL_ACTIVE x k) = false) (bins : List Nat) :
    notchTrack x bins carriers k s = s := by
  simp only [notchTrack, h, Bool.and_false, Bool.false_eq_true, if_false]

theorem binServed_of_inactive {x : Nat} (h : ∀ m < 8, s.bit (F.IFC_CH_NOTCH_CTRL_ACTIVE x m) = false) (k : Nat) :
    binServed x s k = false := by
  simp only [binServed, List.any_eq_false, List.mem_range]
  intro m hm
  simp [h m hm]

/-- The lowest of the free adaptive notches. -/
theorem find_freeNotch {x : Nat} (h : ∀ m < 8, s.bit (F.IFC_CH_NOTCH_CTRL_ACTIVE x m) = false)
    (hn : s.fld (F.IFC_CH_NOTCH_CTRL_MODE x n) = 1) (hl : ∀ m < n.val, s.fld (F.IFC_CH_NOTCH_CTRL_MODE x m) ≠ 1) :
    (List.range 8).find? (fun m => s.fld (F.IFC_CH_NOTCH_CTRL_MODE x m) == 1 && !s.bit (F.IFC_CH_NOTCH_CTRL_ACTIVE x m)) =
      some n.val := by
  rw [List.find?_range_eq_some]
  refine ⟨by simp [hn, h n n.isLt], List.mem_range.2 n.isLt, fun m hm => ?_⟩
  simp [hl m hm]

/-- A notch allotted to a bin and its power. -/
def notchAllotted (x n k level : Nat) (s : State) : State :=
  (((setIfcCh s x { ifcCh s x with
      alloc := Sparse.put (fun _ => 0) (ifcCh s x).alloc n (freqOfBin k)
      weakSince := Sparse.put (fun _ => none) (ifcCh s x).weakSince n none }).setWord (R.IFC_CH_NOTCH_FREQ x n) (freqOfBin k)).setFld
    (F.IFC_CH_NOTCH_CTRL_LEVEL x n) (satNat 255 level)).setFld (F.IFC_CH_NOTCH_CTRL_ACTIVE x n) 1

/-- With no notch ACTIVE, the strongest candidate gets the lowest adaptive notch (R107). -/
theorem notchDetect_allots {x k p : Nat} {b : List Nat} (ha : s.bit (F.IFC_CH_NOTCH_CFG_AUTO x) = true)
    (h : ∀ m < 8, s.bit (F.IFC_CH_NOTCH_CTRL_ACTIVE x m) = false)
    (hs : strongest (notchCandidates b (s.fld (F.IFC_CH_NOTCH_CFG_DETECT_TH x))) = some (k, p))
    (hn : s.fld (F.IFC_CH_NOTCH_CTRL_MODE x n) = 1) (hl : ∀ m < n.val, s.fld (F.IFC_CH_NOTCH_CTRL_MODE x m) ≠ 1) :
    notchDetect x b carriers s = notchAllotted x n k ((2 * p - median2 b) / 100) s := by
  have hall (l : List (Nat × Nat)) : l.filter (fun c => !binServed x s c.1) = l :=
    List.filter_eq_self.2 fun c _ => by rw [binServed_of_inactive h]; rfl
  unfold notchDetect
  rw [eachNotch_eq_self fun m hm => notchTrack_of_inactive (h m hm) b]
  simp only [ha, hall, hs, find_freeNotch h hn hl, Bool.not_true, Bool.false_eq_true, if_false, notchAllotted]

theorem notchAllotted_spec (x : Fin 4) (n : Fin 8) (k level : Nat) (s : State) : let t := notchAllotted x n k level s
    MemsSame s t ∧ t.bit (F.IFC_CH_NOTCH_CTRL_ACTIVE x n) = true ∧ t.word (R.IFC_CH_NOTCH_FREQ x n) = freqOfBin k ∧
      t.fld (F.IFC_CH_NOTCH_CTRL_LEVEL x n) = min 255 level ∧
      RegsBut [R.IFC_CH_NOTCH_CTRL x n, R.IFC_CH_NOTCH_FREQ x n] s t := by
  have hfreq : R.IFC_CH_NOTCH_FREQ x n ≠ R.IFC_CH_NOTCH_CTRL x n := by simp only [R.IFC_CH_NOTCH_FREQ, R.IFC_CH_NOTCH_CTRL]; omega
  unfold notchAllotted
  generalize hr : setIfcCh s x _ = r
  have hreg : RegsBut [] s r := fun _ _ => by rw [← hr, word_setIfcCh]
  have hmem : MemsSame s r := hr ▸ .setIfcCh ..
  refine ⟨((hmem.trans (WordsOnly.setWord ..).memsSame).trans (.setFld ..)).trans (.setFld ..),
    State.bit_setFld_one _ _ rfl (by simp), ?_, ?_, ?_⟩
  · rw [State.word_setFld_ne _ _ hfreq, State.word_setFld_ne _ _ hfreq, State.word_setWord]
  · rw [State.fld_setFld_ne _ _ _ _ (by simp) (by simp) (by simp), State.fld_setFld _ _ _ (by simp) (by simp), satNat_eq_min]
    exact Nat.mod_eq_of_lt ((min_le_left ..).trans_lt (by simp))
  · exact (((hreg.mono (by simp)).trans ((WordsOnly.setWord (R.IFC_CH_NOTCH_FREQ x n) _ r).words.mono (by simp))).trans
      ((RegsBut.setFld (F.IFC_CH_NOTCH_CTRL_LEVEL x n) _ _).mono (by simp))).trans
      ((RegsBut.setFld (F.IFC_CH_NOTCH_CTRL_ACTIVE x n) _ _).mono (by simp))

theorem notchAllocate_allots {k p : Nat} (h : (ifcCh s x).detEnd = some bins) (hv : (ifcCh s x).valid = true)
    (ha : s.bit (F.IFC_CH_NOTCH_CFG_AUTO x) = true) (hi : ∀ m < 8, s.bit (F.IFC_CH_NOTCH_CTRL_ACTIVE x m) = false)
    (hs : strongest (notchCandidates (bins.map (·.toNat)) (s.fld (F.IFC_CH_NOTCH_CFG_DETECT_TH x))) = some (k, p))
    (hn : s.fld (F.IFC_CH_NOTCH_CTRL_MODE x n) = 1) (hl : ∀ m < n.val, s.fld (F.IFC_CH_NOTCH_CTRL_MODE x m) ≠ 1) (a : Formed) :
    ∃ t, exec (.notchAllocate x a carriers) s = .next t ∧ MemsSame s t ∧ t.bit (F.IFC_CH_NOTCH_CTRL_ACTIVE x n) = true ∧
      t.word (R.IFC_CH_NOTCH_FREQ x n) = freqOfBin k ∧
      t.fld (F.IFC_CH_NOTCH_CTRL_LEVEL x n) = min 255 ((2 * p - median2 (bins.map (·.toNat))) / 100) ∧
      RegsBut [R.IFC_CH_NOTCH_CTRL x n, R.IFC_CH_NOTCH_FREQ x n] s t := by
  obtain ⟨hm, h₁, h₂, h₃, hr⟩ := notchAllotted_spec x n k ((2 * p - median2 (bins.map (·.toNat))) / 100)
    (setIfcCh s x { ifcCh s x with detEnd := none })
  refine ⟨_, (exec_notchAllocate_valid h hv a).trans (congrArg _ (notchDetect_allots (n := n) (k := k) (p := p) ?_ ?_ ?_ ?_ ?_)),
    (MemsSame.setIfcCh ..).trans hm, h₁, h₂, h₃, fun j hj => (hr j hj).trans (word_setIfcCh ..)⟩
  · rwa [bit_setIfcCh]
  · simpa only [bit_setIfcCh] using hi
  · rwa [fld_setIfcCh]
  · rwa [fld_setIfcCh]
  · simpa only [fld_setIfcCh] using hl

/-! A notch released (R108). -/

theorem exec_notchRelease_left (hv : (ifcCh s x).valid = true) (hm : s.fld (F.IFC_CH_NOTCH_CTRL_MODE x n) = 1)
    (ha : s.bit (F.IFC_CH_NOTCH_CTRL_ACTIVE x n) = true)
    (hf : within4Bins f (Sparse.get (fun _ => 0) (ifcCh s x).alloc n) = false) :
    exec (.notchRelease x n (some f)) s = .next (notchFree x n s) := by
  change execNotchRelease x n (some f) s = _
  simp only [execNotchRelease, hv, hm, ha, hf, decide_true, Bool.not_false, Bool.true_or, Bool.and_true, if_true]

/-- A fixed notch never releases (R109), and no notch while its samples are not valid (R100). -/
theorem exec_notchRelease_stays (h : s.fld (F.IFC_CH_NOTCH_CTRL_MODE x n) = 2 ∨ (ifcCh s x).valid = false)
    (c : Option (BitVec 32)) : exec (.notchRelease x n c) s = .next s := by
  change execNotchRelease x n c s = _
  rcases h with h | h <;> simp [execNotchRelease, h]

theorem notchRelease_left (hv : (ifcCh s x).valid = true) (hm : s.fld (F.IFC_CH_NOTCH_CTRL_MODE x n) = 1)
    (ha : s.bit (F.IFC_CH_NOTCH_CTRL_ACTIVE x n) = true)
    (hf : within4Bins f (Sparse.get (fun _ => 0) (ifcCh s x).alloc n) = false) :
    ∃ t, exec (.notchRelease x n (some f)) s = .next t ∧ MemsSame s t ∧ t.bit (F.IFC_CH_NOTCH_CTRL_ACTIVE x n) = false ∧
      RegsBut [R.IFC_CH_NOTCH_CTRL x n] s t :=
  ⟨_, exec_notchRelease_left hv hm ha hf, .setIfcCh_setFld .., State.bit_setFld_zero _ _ rfl (by simp),
    .setIfcCh_setFld x _ (F.IFC_CH_NOTCH_CTRL_ACTIVE x n) 0 s⟩

/-! The spectral monitor (R110, R111). -/

theorem exec_spectrumComplete_some (h : (ifcCh s x).specEnd = some bins) (a : Formed) :
    exec (.spectrumComplete x a) s = .next (spectrumTaken x bins (setIfcCh s x { ifcCh s x with specEnd := none })) := by
  change execSpectrumComplete x a s = _
  simp only [execSpectrumComplete, h]

theorem exec_spectrumComplete_none (h : (ifcCh s x).specEnd = none) (a : Formed) : exec (.spectrumComplete x a) s = .next s := by
  change execSpectrumComplete x a s = _
  simp only [execSpectrumComplete, h]

/-- Bins change words alone. -/
theorem putBins_rest (x j : Nat) (l : List (BitVec 16)) (s : State) :
    putBins x j l s = { s with regs := (putBins x j l s).regs } := by
  induction l using List.twoStepInduction generalizing j s with
  | nil => rfl
  | singleton a => rfl
  | cons_cons a b l ih _ => exact ih (j + 1) (s.setWord _ _)

theorem ifcCh_putBins (x j : Nat) (l : List (BitVec 16)) (s : State) (y : Nat) : ifcCh (putBins x j l s) y = ifcCh s y :=
  ifcCh_congr (congrArg State.ifc (putBins_rest x j l s) :) y

theorem MemsSame.putBins (x j : Nat) (l : List (BitVec 16)) (s : State) : MemsSame s (Machine.putBins x j l s) := by
  rw [putBins_rest]
  exact ⟨rfl, rfl, rfl, rfl⟩

theorem word_putBins_ne {k : Nat} (x j : Nat) (l : List (BitVec 16)) (s : State) (h : ∀ i, j ≤ i → k ≠ R.IFC_CH_SPEC_BIN x i) :
    (putBins x j l s).word k = s.word k := by
  induction l using List.twoStepInduction generalizing j s with
  | nil => rfl
  | singleton a => rfl
  | cons_cons a b l ih _ =>
    rw [putBins, ih (j + 1) _ fun i hi => h i (by omega), State.word_setWord_ne _ _ (h j le_rfl)]

/-- A pair of bins reads as one word of the bank. -/
theorem word_putBins {i : Nat} (x j : Nat) (l : List (BitVec 16)) (s : State) (h : 2 * i + 1 < l.length) :
    (putBins x j l s).word (R.IFC_CH_SPEC_BIN x (j + i)) = l.getD (2 * i + 1) 0 ++ l.getD (2 * i) 0 := by
  induction l using List.twoStepInduction generalizing i j s with
  | nil => simp at h
  | singleton a => simp at h
  | cons_cons a b l ih _ =>
    cases i with
    | zero =>
      rw [Nat.add_zero, putBins, word_putBins_ne _ _ _ _ fun i hi => by simp only [R.IFC_CH_SPEC_BIN]; omega, State.word_setWord]
      rfl
    | succ i =>
      have hi : 2 * i + 1 < l.length := by simp only [List.length_cons] at h; omega
      have := ih (j + 1) (s.setWord (R.IFC_CH_SPEC_BIN x j) (b ++ a)) hi
      rw [putBins, show j + (i + 1) = j + 1 + i by omega, this, show 2 * (i + 1) = 2 * i + 2 by omega]
      rfl

theorem spectrumTaken_published {x : Nat} (he : s.bit (F.IFC_CH_SPEC_CTRL_EN x) = true)
    (hf : s.bit (F.IFC_CH_SPEC_CTRL_FREEZE x) = false) (hb : bins.length = 2048) : spectrumTaken x bins s =
    (putBins x 0 bins s).setFld (F.IFC_CH_SPEC_CTRL_SEQ x) (s.fld (F.IFC_CH_SPEC_CTRL_SEQ x) + 1) := by
  rw [spectrumTaken, he, hf, List.take_of_length_le hb.le]
  rfl

theorem spectrumTaken_frozen {x : Nat} (hf : s.bit (F.IFC_CH_SPEC_CTRL_FREEZE x) = true) (bins : List (BitVec 16)) :
    spectrumTaken x bins s = s := by
  simp [spectrumTaken, hf]

/-- A spectrum complete becomes the readable bank (R111). -/
theorem spectrumComplete_publishes (h : (ifcCh s x).specEnd = some bins) (he : s.bit (F.IFC_CH_SPEC_CTRL_EN x) = true)
    (hf : s.bit (F.IFC_CH_SPEC_CTRL_FREEZE x) = false) (hb : bins.length = 2048) (a : Formed) :
    ∃ t, exec (.spectrumComplete x a) s = .next t ∧ MemsSame s t ∧ (ifcCh t x).specEnd = none ∧
      t.fld (F.IFC_CH_SPEC_CTRL_SEQ x) = (s.fld (F.IFC_CH_SPEC_CTRL_SEQ x) + 1) % 65536 ∧
      ∀ j < 1024, t.word (R.IFC_CH_SPEC_BIN x j) = bins.getD (2 * j + 1) 0 ++ bins.getD (2 * j) 0 := by
  have hctrl (j : Nat) : R.IFC_CH_SPEC_BIN x j ≠ R.IFC_CH_SPEC_CTRL x := by
    simp only [R.IFC_CH_SPEC_BIN, R.IFC_CH_SPEC_CTRL]; omega
  refine ⟨_, (exec_spectrumComplete_some h a).trans (congrArg _ (spectrumTaken_published (by rwa [bit_setIfcCh])
    (by rwa [bit_setIfcCh]) hb)), ?_⟩
  generalize hr : setIfcCh s x _ = r
  have hm : MemsSame s r := hr ▸ .setIfcCh ..
  refine ⟨(hm.trans (.putBins x 0 bins r)).trans (.setFld ..), ?_, ?_, fun j hj => ?_⟩
  · rw [ifcCh_setFld, ifcCh_putBins, ← hr, ifcCh_setIfcCh, if_pos rfl]
  · rw [← fld_setIfcCh s, hr]
    exact State.fld_setFld _ _ _ (by simp) (by simp)
  · rw [State.word_setFld_ne (f := F.IFC_CH_SPEC_CTRL_SEQ x) _ _ (hctrl j)]
    have := word_putBins x 0 bins r (i := j) (by omega)
    rwa [Nat.zero_add] at this

/-- A spectrum that completes while FREEZE is 1 is discarded (R111). -/
theorem spectrumComplete_frozen (hf : s.bit (F.IFC_CH_SPEC_CTRL_FREEZE x) = true) (a : Formed) :
    ∃ t, exec (.spectrumComplete x a) s = .next t ∧ MemsSame s t ∧ t.regs = s.regs := by
  cases h : (ifcCh s x).specEnd with
  | none => exact ⟨s, exec_spectrumComplete_none h a, .refl s, rfl⟩
  | some bins =>
    exact ⟨_, (exec_spectrumComplete_some h a).trans (congrArg _ (spectrumTaken_frozen (by rwa [bit_setIfcCh]) bins)),
      .setIfcCh .., rfl⟩

/-! Learning the quiet-sky gain (R114). -/

theorem exec_ifcLearn {who : Reader} (h : Open who (R.IFC_CH_JAM_STAT x) s) : exec (.ifcLearn who x) s = .next
    ((setIfcCh s x { ifcCh s x with
      learnSum := 0, learnCount := 0, learnBad := s.fld (F.IFC_CH_JAM_STAT_STATE x) != 0 }).setFld
      (F.IFC_CH_JAM_STAT_LEARN_BUSY x) 1) :=
  congrArg _ (gate_open h.1 h.2)

theorem ifcLearn_starts {who : Reader} (h : Open who (R.IFC_CH_JAM_STAT x) s) :
    ∃ t, exec (.ifcLearn who x) s = .next t ∧ MemsSame s t ∧ t.bit (F.IFC_CH_JAM_STAT_LEARN_BUSY x) = true ∧
      (ifcCh t x).learnSum = 0 ∧ (ifcCh t x).learnCount = 0 ∧ RegsBut [R.IFC_CH_JAM_STAT x] s t :=
  ⟨_, exec_ifcLearn h, .setIfcCh_setFld .., State.bit_setFld_one _ _ rfl (by simp), by simp, by simp,
    .setIfcCh_setFld x _ (F.IFC_CH_JAM_STAT_LEARN_BUSY x) 1 s⟩

/-- The mean of the gains gathered becomes GAIN_REF. -/
theorem exec_learnDone_good (h : s.bit (F.IFC_CH_JAM_STAT_LEARN_BUSY x) = true) (hb : (ifcCh s x).learnBad = false)
    (hc : (ifcCh s x).learnCount ≠ 0) : exec (.learnDone x) s = .next ((s.setFld (F.IFC_CH_JAM_STAT_LEARN_BUSY x) 0).setFld
      (F.IFC_CH_JAM_CFG_GAIN_REF x)
      ((2 * (ifcCh s x).learnSum + (ifcCh s x).learnCount) / (2 * (ifcCh s x).learnCount))) := by
  change execLearnDone x s = _
  simp [execLearnDone, h, hb, hc]

theorem exec_learnDone_bad (h : s.bit (F.IFC_CH_JAM_STAT_LEARN_BUSY x) = true) (hb : (ifcCh s x).learnBad = true) :
    exec (.learnDone x) s = .next (s.setFld (F.IFC_CH_JAM_STAT_LEARN_BUSY x) 0) := by
  change execLearnDone x s = _
  simp [execLearnDone, h, hb]

theorem learnDone_good (h : s.bit (F.IFC_CH_JAM_STAT_LEARN_BUSY x) = true) (hb : (ifcCh s x).learnBad = false)
    (hc : (ifcCh s x).learnCount ≠ 0) : ∃ t, exec (.learnDone x) s = .next t ∧ MemsSame s t ∧
      t.bit (F.IFC_CH_JAM_STAT_LEARN_BUSY x) = false ∧ t.fld (F.IFC_CH_JAM_CFG_GAIN_REF x) =
        (2 * (ifcCh s x).learnSum + (ifcCh s x).learnCount) / (2 * (ifcCh s x).learnCount) % 64 := by
  refine ⟨_, exec_learnDone_good h hb hc, (MemsSame.setFld ..).trans (.setFld ..), ?_, State.fld_setFld _ _ _ (by simp) (by simp)⟩
  rw [State.bit_setFld_ne _ _ _ _ (by simp) (by simp) (by simp)]
  exact State.bit_setFld_zero _ _ rfl (by simp)

/-- Settles O13: a window, an interval, a notch and a spectrum each by its lemma, once from what the sample path gathered; LEARN by
what it starts and how it ends. -/
theorem interferenceConditioning : Obligations.InterferenceConditioning := by
  intro who x u mag clip count bins n carriers f s c g ratio goes
  refine ⟨fun h hu => agcWindowEnd_short h hu .., fun h hu => ?_, fun h => exec_agcWindowEnd_none h .., fun h h0 ha hs => ?_,
    fun h hb => blankIntervalEnd_below h hb _, fun h => exec_blankIntervalEnd_none h _, fun k p h hv ha hi hs hn hl => ?_,
    fun hv hm ha hf => notchRelease_left hv hm ha hf, fun h => exec_notchRelease_stays (.inl h) _,
    fun h => exec_notchAllocate_waits h _, fun h => exec_notchRelease_stays (.inr h) _, fun h he hf hb => ?_,
    fun hf => spectrumComplete_frozen hf _, fun h => exec_spectrumComplete_none h _, fun h => ifcLearn_starts h,
    fun h hb hc => learnDone_good h hb hc, fun h hb => ?_⟩
  · obtain ⟨t, he, hm, ⟨hn, hc, hmean⟩, hend, hhold, hman, hclip⟩ := agcWindowEnd_samples h hu .byDevice .byDevice .byDevice
    exact ⟨t, he, hm, hn, hc, hend, hmean, hhold, hman, hclip⟩
  · exact blankIntervalEnd_above h h0 ha hs _
  · exact notchAllocate_allots h hv ha hi hs hn hl _
  · exact spectrumComplete_publishes h he hf hb _
  · exact ⟨_, exec_learnDone_bad h hb, .setFld .., State.bit_setFld_zero _ _ rfl (by simp),
      .setFld (F.IFC_CH_JAM_STAT_LEARN_BUSY x) 0 s⟩

end Sys2Proof.Machine
end

section
/-! SUPPORT. The false-signal monitor of one satellite: what its operations on the other satellites, the counts and the alert leave as it
was (R115 to R120). -/
namespace Sys2Proof.Machine

variable {s t u : State} {n m : Nat} {ks : List Nat}

/-- What the monitor knows of a satellite, its configuration and the memories stand as they were. -/
structure SatSame (n : Nat) (s t : State) : Prop where
  sat : t.word (R.IFC_FSM_SAT n) = s.word (R.IFC_FSM_SAT n)
  cfg : t.word R.IFC_FSM_CFG = s.word R.IFC_FSM_CFG
  fail : t.fsm.fail n = s.fsm.fail n
  ok : t.fsm.ok n = s.fsm.ok n
  dopOver : t.fsm.dopOver = s.fsm.dopOver
  drift : t.fsm.drift = s.fsm.drift
  tick : t.tick = s.tick
  mems : MemsSame s t

theorem SatSame.refl (n : Nat) (s : State) : SatSame n s s := ⟨rfl, rfl, rfl, rfl, rfl, rfl, rfl, .refl s⟩

theorem SatSame.trans (h : SatSame n s t) (k : SatSame n t u) : SatSame n s u :=
  ⟨k.sat.trans h.sat, k.cfg.trans h.cfg, k.fail.trans h.fail, k.ok.trans h.ok, k.dopOver.trans h.dopOver, k.drift.trans h.drift,
    k.tick.trans h.tick, h.mems.trans k.mems⟩

theorem SatSame.ite {c : Prop} [Decidable c] (ht : SatSame n s t) (hu : SatSame n s u) : SatSame n s (if c then t else u) := by
  split <;> assumption

theorem WordsOnly.fsm (h : WordsOnly ks s t) : t.fsm = s.fsm := (congrArg State.fsm h.rest :)

/-- What changes other words alone. -/
theorem WordsOnly.satSame (h : WordsOnly ks s t) (hs : R.IFC_FSM_SAT n ∉ ks) (hc : R.IFC_FSM_CFG ∉ ks) : SatSame n s t :=
  ⟨h.words _ hs, h.words _ hc, by rw [h.fsm], by rw [h.fsm], by rw [h.fsm], by rw [h.fsm], (congrArg State.tick h.rest :),
    h.memsSame⟩

/-- What changes other parts of the monitor's own state alone. -/
theorem SatSame.setFsm (k : Fsm) (h1 : k.fail n = s.fsm.fail n := by rfl) (h2 : k.ok n = s.fsm.ok n := by rfl)
    (h3 : k.dopOver = s.fsm.dopOver := by rfl) (h4 : k.drift = s.fsm.drift := by rfl) : SatSame n s { s with fsm := k } :=
  ⟨rfl, rfl, h1, h2, h3, h4, rfl, ⟨rfl, rfl, rfl, rfl⟩⟩

theorem SatSame.setFld {f : Fld} (hs : R.IFC_FSM_SAT n ≠ f.off) (hc : R.IFC_FSM_CFG ≠ f.off) (v : Nat) (s : State) :
    SatSame n s (s.setFld f v) :=
  (WordsOnly.setFld f v s).satSame (by simpa using hs) (by simpa using hc)

/-- A field of the monitor's status. -/
theorem SatSame.setStat {f : Fld} (h : f.off = R.IFC_FSM_STAT) (v : Nat) (s : State) : SatSame n s (s.setFld f v) := by
  refine .setFld ?_ ?_ v s <;> rw [h] <;> simp only [R.IFC_FSM_SAT, R.IFC_FSM_STAT, R.IFC_FSM_CFG] <;> omega

/-- A field of another satellite. -/
theorem SatSame.setOther {f : Fld} (hm : m ≠ n) (h : f.off = R.IFC_FSM_SAT m) (v : Nat) (s : State) :
    SatSame n s (s.setFld f v) := by
  refine .setFld ?_ ?_ v s <;> rw [h] <;> simp only [R.IFC_FSM_SAT, R.IFC_FSM_CFG] <;> omega

theorem plainKey_sat (hn : n < 221) : plainKey (R.IFC_FSM_SAT n) :=
  (spared_of_radio (by simp only [R.IFC_FSM_SAT]; omega) (by simp only [R.IFC_FSM_SAT]; omega)).1

theorem SatSame.raise (hn : n < 221) (k : Nat) (s : State) : SatSame n s (Machine.raise k s) := by
  obtain ⟨h, h0, h1⟩ := plainKey_sat hn
  exact (WordsOnly.raise k s).satSame (not_mem_evKeys h h0 h1 k) (not_mem_evKeys (by decide) (by decide) (by decide) k)

theorem SatSame.fldSat (h : SatSame n s t) {f : Fld} (hf : f.off = R.IFC_FSM_SAT n) : t.fld f = s.fld f :=
  fld_congr (by rw [hf, h.sat])

theorem SatSame.fldCfg (h : SatSame n s t) {f : Fld} (hf : f.off = R.IFC_FSM_CFG) : t.fld f = s.fld f :=
  fld_congr (by rw [hf, h.cfg])

theorem SatSame.bitCfg (h : SatSame n s t) {f : Fld} (hf : f.off = R.IFC_FSM_CFG) : t.bit f = s.bit f := by
  rw [State.bit, State.bit, h.fldCfg hf]

theorem SatSame.verdict (h : SatSame n s t) : Machine.verdict n t = Machine.verdict n s := h.fldSat rfl

/-! The counts, EV_046 and the alert (R118). -/

theorem WordsOnly.syncVerdicts (s : State) : WordsOnly [R.IFC_FSM_STAT] s (Machine.syncVerdicts s) :=
  (WordsOnly.setFld F.IFC_FSM_STAT_SUSPECT_CNT _ s).trans (.setFld F.IFC_FSM_STAT_TRUSTED_CNT _ _)

theorem SatSame.syncVerdicts (s : State) : SatSame n s (Machine.syncVerdicts s) :=
  (SatSame.setStat (f := F.IFC_FSM_STAT_SUSPECT_CNT) rfl _ s).trans (.setStat (f := F.IFC_FSM_STAT_TRUSTED_CNT) rfl _ _)

/-- EV_046 is noted as raised in this epoch. -/
def satEventNoted (s : State) : State := { s with fsm := { s.fsm with satEvent := true } }

theorem verdictsChanged_eq (s : State) : verdictsChanged s =
    if (syncVerdicts s).fsm.satEvent then syncVerdicts s else raise 46 (satEventNoted (syncVerdicts s)) := rfl

theorem SatSame.satEventNoted (s : State) : SatSame n s (Machine.satEventNoted s) := .setFsm _

theorem SatSame.verdictsChanged (hn : n < 221) (s : State) : SatSame n s (Machine.verdictsChanged s) := by
  rw [verdictsChanged_eq]
  exact .ite (.syncVerdicts s) (((SatSame.syncVerdicts s).trans (.satEventNoted _)).trans (.raise hn 46 _))

/-- A change of verdicts raises EV_046 where none was raised in its epoch. -/
theorem eventUp_verdictsChanged (h : s.fsm.satEvent = false) : EventUp 46 (verdictsChanged s) := by
  rw [verdictsChanged_eq, (WordsOnly.syncVerdicts s).fsm, h, if_neg Bool.false_ne_true]
  exact .raise_self 46 _

theorem SatSame.fsmAlert (hn : n < 221) (clk : Bool) (s : State) : SatSame n s (Machine.fsmAlert clk s) := by
  unfold Machine.fsmAlert
  extract_lets k holds a old m s₁
  have h₁ : SatSame n s s₁ :=
    ((SatSame.setFsm { s.fsm with alertAt := a }).trans (.setStat (f := F.IFC_FSM_STAT_CLOCK) rfl _ _)).trans
      (.setStat (f := F.IFC_FSM_STAT_ALERT) rfl _ _)
  exact .ite h₁ (h₁.trans (.raise hn 47 _))

/-! One satellite among all. -/

/-- Of operations satellite by satellite, only its own changes what is known of one. -/
theorem eachSat_at {f : Nat → State → State} {N : Nat} (hf : ∀ k, k ≠ n → ∀ s, SatSame n s (f k s)) (hn : n < N) (s : State) :
    ∃ u, SatSame n s u ∧ SatSame n (f n u) (eachSat f N s) := by
  have before : ∀ N ≤ n, SatSame n s (eachSat f N s) := by
    intro N hN
    induction N with
    | zero => exact .refl n s
    | succ N ih => exact (ih (by omega)).trans (hf N (by omega) _)
  induction N with
  | zero => omega
  | succ N ih =>
    by_cases h : n = N
    · exact ⟨eachSat f N s, before N h.ge, by rw [eachSat, h]; exact .refl N _⟩
    · obtain ⟨u, h₁, h₂⟩ := ih (by omega)
      exact ⟨u, h₁, h₂.trans (hf N (Ne.symm h) _)⟩

theorem verdict_of_count {v N : Nat} (h : verdictCount v s N = 0) (hn : n < N) : verdict n s ≠ v := by
  induction N with
  | zero => omega
  | succ N ih =>
    obtain ⟨h₁, h₂⟩ := Nat.add_eq_zero_iff.1 h
    by_cases hN : n = N
    · intro hv
      rw [← hN, if_pos hv] at h₂
      exact Nat.one_ne_zero h₂
    · exact ih h₁ (by omega)

end Sys2Proof.Machine
end

section
/-! PROOFS. O14, an epoch: the checks of one satellite and its verdict (R115 to R117). -/
namespace Sys2Proof.Machine

variable {s t u : State} {n m : Nat} {obs : FsmObs} {mask : Nat} {excess : List (Nat × Nat)}

/-! One satellite's checks. -/

/-- PWR fails on a chain that tracks the satellite. -/
def satPwrFails (obs : FsmObs) (mask n : Nat) (s : State) : Bool :=
  s.bit F.IFC_FSM_CFG_EN_PWR && (obs.sats.filter (fun o => o.sat == n)).any (fun o => o.chains &&& mask != 0)

/-- A signal of the satellite is off in Doppler at two epochs running. -/
def satDopFails (excess : List (Nat × Nat)) (n : Nat) (s : State) : Bool :=
  s.bit F.IFC_FSM_CFG_EN_DOP && excess.any (fun e => e.1 == n && s.fsm.dopOver.contains e)

/-- The code ranges of the satellite's two bands differ too much. -/
def satXbFails (obs : FsmObs) (n : Nat) (s : State) : Bool :=
  s.bit F.IFC_FSM_CFG_EN_XB && (obs.sats.filter (fun o => o.sat == n)).any (fun o =>
    match o.xb with | some d => decide (2000 * s.fld F.IFC_FSM_TH_XB_TH < d.natAbs) | none => false)

/-- The satellite's recorded OSNMA verdict is FAIL. -/
def satOsnmaFails (n : Nat) (s : State) : Bool :=
  s.bit F.IFC_FSM_CFG_EN_OSNMA && s.bit F.IFC_FSM_CFG_ROOT_OK && s.fld (F.IFC_FSM_SAT_OSNMA n) == 2

def satFails (obs : FsmObs) (mask : Nat) (excess : List (Nat × Nat)) (n : Nat) (s : State) : Bool :=
  satPwrFails obs mask n s || satDopFails excess n s || satXbFails obs n s || satOsnmaFails n s

/-- The failure remembered of the satellite after its checks (R117). -/
def satFailAt (failed : Bool) (n : Nat) (s : State) : Option Nat :=
  if failed then some s.tick else
    match s.fsm.fail n with
    | some t => if s.tick < t + s.fld F.IFC_FSM_CFG_CLEAR_T * secTicks then some t else none
    | none => none

/-- The satellite's last OSNMA OK is young enough, and the root key is verified (R116, R117). -/
def satTrusted (n : Nat) (s : State) : Bool :=
  s.bit F.IFC_FSM_CFG_ROOT_OK &&
    (match s.fsm.ok n with
     | some t => decide (s.tick < t + s.fld F.IFC_FSM_CFG_OSNMA_AGE * secTicks)
     | none => false)

/-- The results of a satellite's checks, kept and shown. -/
def satJudged (n : Nat) (pwr dop xb trusted : Bool) (failAt : Option Nat) (s : State) : State :=
  (((({ s with fsm := { s.fsm with failAt := Sparse.put (fun _ => none) s.fsm.failAt n failAt } }.setBit
    (F.IFC_FSM_SAT_PWR n) pwr).setBit (F.IFC_FSM_SAT_DOP n) dop).setBit (F.IFC_FSM_SAT_XB n) xb).setFld
    (F.IFC_FSM_SAT_VERDICT n) (if failAt.isSome then 2 else if trusted then 1 else 0))

theorem fsmSat_eq (obs : FsmObs) (mask : Nat) (excess : List (Nat × Nat)) (n : Nat) (s : State) :
    fsmSat obs mask excess n s = satJudged n (satPwrFails obs mask n s) (satDopFails excess n s) (satXbFails obs n s)
      (satTrusted n s) (satFailAt (satFails obs mask excess n s) n s) s := rfl

theorem SatSame.satJudged (h : m ≠ n) (pwr dop xb trusted : Bool) (a : Option Nat) (s : State) :
    SatSame n s (Machine.satJudged m pwr dop xb trusted a s) := by
  have h₀ : SatSame n s { s with fsm := { s.fsm with failAt := Sparse.put (fun _ => none) s.fsm.failAt m a } } :=
    .setFsm _ (Sparse.get_put_ne _ _ h.symm)
  exact (((h₀.trans (.setOther (f := F.IFC_FSM_SAT_PWR m) h rfl _ _)).trans
    (.setOther (f := F.IFC_FSM_SAT_DOP m) h rfl _ _)).trans (.setOther (f := F.IFC_FSM_SAT_XB m) h rfl _ _)).trans
    (.setOther (f := F.IFC_FSM_SAT_VERDICT m) h rfl _ _)

theorem SatSame.fsmSat (h : m ≠ n) (s : State) : SatSame n s (Machine.fsmSat obs mask excess m s) := by
  rw [fsmSat_eq]
  exact .satJudged h ..

theorem fail_setFail (v : Option Nat) (k : Fsm) :
    ({ k with failAt := Sparse.put (fun _ => none) k.failAt n v } : Fsm).fail n = v := Sparse.get_put_self _ n v

theorem satJudged_spec (n : Nat) (pwr dop xb trusted : Bool) (failAt : Option Nat) (s : State) :
    let t := satJudged n pwr dop xb trusted failAt s
    MemsSame s t ∧ verdict n t = (if failAt.isSome then 2 else if trusted then 1 else 0) ∧
      t.bit (F.IFC_FSM_SAT_DOP n) = dop ∧ t.fsm.fail n = failAt := by
  unfold satJudged
  generalize hr : ({ s with fsm := { s.fsm with failAt := Sparse.put (fun _ => none) s.fsm.failAt n failAt } } : State) = r
  have hm : MemsSame s r := by rw [← hr]; exact ⟨rfl, rfl, rfl, rfl⟩
  have hf : r.fsm.fail n = failAt := by rw [← hr]; exact fail_setFail failAt s.fsm
  intro t
  have hw : WordsOnly [R.IFC_FSM_SAT n] r t :=
    (((WordsOnly.setFld (F.IFC_FSM_SAT_PWR n) _ r).trans (.setFld (F.IFC_FSM_SAT_DOP n) _ _)).trans
      (.setFld (F.IFC_FSM_SAT_XB n) _ _)).trans (.setFld (F.IFC_FSM_SAT_VERDICT n) _ _)
  refine ⟨hm.trans hw.memsSame, ?_, ?_, by rw [hw.fsm, hf]⟩
  · rw [verdict, State.fld_setFld _ _ _ (by simp) (by simp)]
    exact Nat.mod_eq_of_lt (by split_ifs <;> simp)
  · rw [State.bit_setFld_ne _ _ _ _ (by simp) (by simp) (by simp)]
    refine (State.bit_setFld_ne _ _ _ _ (by simp) (by simp) (by simp)).trans ?_
    exact State.bit_setBit _ _ _ rfl (by simp)

/-- A satellite that fails a check is SUSPECT, and the failure is remembered (R117). -/
theorem fsmSat_fails (h : satFails obs mask excess n s = true) : let t := fsmSat obs mask excess n s
    verdict n t = 2 ∧ t.fsm.fail n = some s.tick ∧ t.bit (F.IFC_FSM_SAT_DOP n) = satDopFails excess n s := by
  have ha : satFailAt (satFails obs mask excess n s) n s = some s.tick := if_pos h
  obtain ⟨-, hv, hd, hf⟩ := satJudged_spec n (satPwrFails obs mask n s) (satDopFails excess n s) (satXbFails obs n s)
    (satTrusted n s) (satFailAt (satFails obs mask excess n s) n s) s
  rw [← fsmSat_eq] at hv hd hf
  rw [ha] at hv hf
  exact ⟨hv, hf, hd⟩

/-- With no check enabled and no failure remembered, the OSNMA OK decides (R116, R117). -/
theorem fsmSat_unchecked (ho : s.bit F.IFC_FSM_CFG_EN_OSNMA = false) (hp : s.bit F.IFC_FSM_CFG_EN_PWR = false)
    (hd : s.bit F.IFC_FSM_CFG_EN_DOP = false) (hx : s.bit F.IFC_FSM_CFG_EN_XB = false) (hf : s.fsm.fail n = none) :
    verdict n (fsmSat obs mask excess n s) = if satTrusted n s then 1 else 0 := by
  have hs : satFails obs mask excess n s = false := by
    simp [satFails, satPwrFails, satDopFails, satXbFails, satOsnmaFails, ho, hp, hd, hx]
  have ha : satFailAt (satFails obs mask excess n s) n s = none := by simp [satFailAt, hs, hf]
  obtain ⟨-, hv, -, -⟩ := satJudged_spec n (satPwrFails obs mask n s) (satDopFails excess n s) (satXbFails obs n s)
    (satTrusted n s) (satFailAt (satFails obs mask excess n s) n s) s
  rw [← fsmSat_eq, ha] at hv
  exact hv

/-! OSNMA verdicts taken at the start of an epoch (R414). -/

/-- An epoch begins: EV_046 may be raised again, and OSNMA's verdicts are taken. -/
def fsmPolled (s : State) : State := takeOsnma { s with fsm := { s.fsm with satEvent := false } }

/-- What the verdicts taken leave: the monitor's configuration and thresholds, its own state beside the last OK, the memories. -/
structure PolledSame (s t : State) : Prop where
  words : ∀ k < R.IFC_FSM_SAT 0, t.word k = s.word k
  failAt : t.fsm.failAt = s.fsm.failAt
  dopOver : t.fsm.dopOver = s.fsm.dopOver
  tick : t.tick = s.tick
  mems : MemsSame s t

theorem PolledSame.trans (h : PolledSame s t) (k : PolledSame t u) : PolledSame s u :=
  ⟨fun j hj => (k.words j hj).trans (h.words j hj), k.failAt.trans h.failAt, k.dopOver.trans h.dopOver, k.tick.trans h.tick,
    h.mems.trans k.mems⟩

theorem PolledSame.setFsm (k : Fsm) (h1 : k.failAt = s.fsm.failAt := by rfl) (h2 : k.dopOver = s.fsm.dopOver := by rfl) :
    PolledSame s { s with fsm := k } :=
  ⟨fun _ _ => rfl, h1, h2, rfl, ⟨rfl, rfl, rfl, rfl⟩⟩

theorem PolledSame.setOsnma (n v : Nat) (s : State) : PolledSame s (s.setFld (F.IFC_FSM_SAT_OSNMA n) v) := by
  have hw := WordsOnly.setFld (F.IFC_FSM_SAT_OSNMA n) v s
  refine ⟨fun k hk => hw.words k ?_, by rw [hw.fsm], by rw [hw.fsm], s.setFld_tick _ _, hw.memsSame⟩
  simp only [List.mem_singleton]
  simp only [R.IFC_FSM_SAT] at hk
  omega

/-- One OSNMA verdict recorded, and an OK stamped. -/
def osnmaRecorded (s : State) (e : Nat × Bool) : State :=
  let s := s.setFld (F.IFC_FSM_SAT_OSNMA e.1) (if e.2 then 1 else 2)
  if e.2 then { s with fsm := { s.fsm with okAt := Sparse.put (fun _ => none) s.fsm.okAt e.1 (some s.tick) } } else s

/-- The queue of OSNMA verdicts emptied. -/
def osnmaEmptied (s : State) : State := { s with fsm := { s.fsm with osnma := [] } }

theorem takeOsnma_eq (s : State) : takeOsnma s = osnmaEmptied (s.fsm.osnma.foldl osnmaRecorded s) := rfl

theorem PolledSame.osnmaRecorded (s : State) (e : Nat × Bool) : PolledSame s (Machine.osnmaRecorded s e) := by
  unfold Machine.osnmaRecorded
  dsimp only
  split
  · exact (PolledSame.setOsnma e.1 _ s).trans (.setFsm _)
  · exact .setOsnma e.1 _ s

theorem PolledSame.foldl_osnmaRecorded (l : List (Nat × Bool)) (s : State) : PolledSame s (l.foldl Machine.osnmaRecorded s) := by
  induction l generalizing s with
  | nil => exact .setFsm s.fsm
  | cons e l ih => exact (PolledSame.osnmaRecorded s e).trans (ih _)

theorem PolledSame.fsmPolled (s : State) : PolledSame s (Machine.fsmPolled s) := by
  rw [Machine.fsmPolled, takeOsnma_eq]
  exact ((PolledSame.setFsm { s.fsm with satEvent := false }).trans (.foldl_osnmaRecorded _ _)).trans (.setFsm _)

/-- With no OSNMA verdict to take, nothing is known of a satellite that was not. -/
theorem SatSame.fsmPolled (h : s.fsm.osnma = []) : SatSame n s (Machine.fsmPolled s) := by
  have e : Machine.fsmPolled s = { s with fsm := { s.fsm with satEvent := false, osnma := [] } } := by
    simp only [Machine.fsmPolled, takeOsnma, h, List.foldl_nil]
  rw [e]
  exact .setFsm _

/-! An epoch. -/

/-- All satellites judged (R115 to R117). -/
def fsmJudged (obs : FsmObs) (mask : Nat) (excess : List (Nat × Nat)) (s : State) : State :=
  eachSat (fsmSat obs mask excess) 221 (s.setFld F.IFC_FSM_STAT_PWR_CHAINS mask)

/-- The epoch's Dopplers and drift kept for the next one. -/
def fsmKept (excess : List (Nat × Nat)) (drift : Option Int) (s : State) : State :=
  { s with fsm := { s.fsm with dopOver := excess, drift := drift } }

/-- The counts after an epoch, and EV_046 where a verdict is another than before it (R118). -/
def fsmCounted (old : List Nat) (s : State) : State :=
  if (List.range 221).map (fun n => verdict n s) = old then syncVerdicts s else verdictsChanged s

theorem exec_fsmEpoch (o : Formed) (s : State) : ∃ mask old clk, exec (.fsmEpoch o) s =
    .next (fsmAlert clk (fsmCounted old (fsmKept (dopOver (fsmObs s) (fsmPolled s)) (fsmObs s).drift
      (fsmJudged (fsmObs s) mask (dopOver (fsmObs s) (fsmPolled s)) (fsmPolled s))))) := by
  change ∃ mask old clk, execFsmEpoch o s = _
  unfold execFsmEpoch
  extract_lets obs src s₁ mask excess clk old s₂ src' s₃ s₄
  have h₁ : s₁ = fsmPolled s := rfl
  have h₂ : s₂ = fsmJudged obs mask excess s₁ := rfl
  have h₃ : s₃ = fsmKept excess obs.drift s₂ := rfl
  have h₄ : s₄ = fsmCounted old s₃ := rfl
  exact ⟨mask, old, clk, by rw [h₄, h₃, h₂, ← h₁]⟩

theorem SatSame.fsmCounted (hn : n < 221) (old : List Nat) (s : State) : SatSame n s (Machine.fsmCounted old s) :=
  .ite (.syncVerdicts s) (.verdictsChanged hn s)

theorem dopOver_congr (obs : FsmObs) (h : t.word R.IFC_FSM_TH = s.word R.IFC_FSM_TH) : dopOver obs t = dopOver obs s := by
  have hth : t.fld F.IFC_FSM_TH_DOP_TH = s.fld F.IFC_FSM_TH_DOP_TH := fld_congr h
  rw [dopOver, hth, dopOver]

theorem fsmKept_spec (excess : List (Nat × Nat)) (drift : Option Int) (s : State) : let t := fsmKept excess drift s
    MemsSame s t ∧ t.word (R.IFC_FSM_SAT n) = s.word (R.IFC_FSM_SAT n) ∧ t.fsm.fail n = s.fsm.fail n ∧ t.fsm.drift = drift :=
  ⟨⟨rfl, rfl, rfl, rfl⟩, rfl, rfl, rfl⟩

theorem MemsSame.fsmSat (obs : FsmObs) (mask : Nat) (excess : List (Nat × Nat)) (n : Nat) (s : State) :
    MemsSame s (Machine.fsmSat obs mask excess n s) := by
  rw [fsmSat_eq]
  exact (satJudged_spec n _ _ _ _ _ s).1

/-- Of all satellites judged, one is left as its own checks make it. -/
theorem fsmJudged_at (hn : n < 221) (obs : FsmObs) (mask : Nat) (excess : List (Nat × Nat)) (s : State) :
    ∃ u, SatSame n s u ∧ SatSame n (fsmSat obs mask excess n u) (fsmJudged obs mask excess s) := by
  obtain ⟨u, hu, hr⟩ := eachSat_at (f := fsmSat obs mask excess) (fun _ hk => SatSame.fsmSat hk) hn
    (s.setFld F.IFC_FSM_STAT_PWR_CHAINS mask)
  exact ⟨u, (SatSame.setStat (f := F.IFC_FSM_STAT_PWR_CHAINS) rfl _ _).trans hu, hr⟩

/-- A satellite's word and last failure stand, and the epoch's drift is kept. -/
structure EpochLeaves (n : Nat) (drift : Option Int) (r t : State) : Prop where
  sat : t.word (R.IFC_FSM_SAT n) = r.word (R.IFC_FSM_SAT n)
  fail : t.fsm.fail n = r.fsm.fail n
  drift : t.fsm.drift = drift

/-- Of a satellite, an epoch leaves what its own checks make of it. -/
theorem fsmEpoch_judges (hn : n < 221) (o : Formed) (s : State) : ∃ t u mask, exec (.fsmEpoch o) s = .next t ∧ MemsSame s t ∧
    SatSame n (fsmPolled s) u ∧
    EpochLeaves n (fsmObs s).drift (fsmSat (fsmObs s) mask (dopOver (fsmObs s) s) n u) t := by
  obtain ⟨mask, old, clk, he⟩ := exec_fsmEpoch o s
  have hp := PolledSame.fsmPolled s
  rw [dopOver_congr _ (hp.words R.IFC_FSM_TH (by decide))] at he
  obtain ⟨u, hu, hr⟩ := fsmJudged_at hn (fsmObs s) mask (dopOver (fsmObs s) s) (fsmPolled s)
  generalize fsmJudged _ _ _ (fsmPolled s) = j at he hr
  obtain ⟨hkm, hks, hkf, hkd⟩ := fsmKept_spec (n := n) (dopOver (fsmObs s) s) (fsmObs s).drift j
  have hend := (SatSame.fsmCounted hn old (fsmKept (dopOver (fsmObs s) s) (fsmObs s).drift j)).trans (.fsmAlert hn clk _)
  exact ⟨_, u, mask, he, ((((hp.mems.trans hu.mems).trans (.fsmSat ..)).trans hr.mems).trans hkm).trans hend.mems, hu,
    (hend.sat.trans hks).trans hr.sat, (hend.fail.trans hkf).trans hr.fail, hend.drift.trans hkd⟩

theorem EpochLeaves.verdict {d : Option Int} (h : EpochLeaves n d s t) : Machine.verdict n t = Machine.verdict n s := fld_congr h.sat

/-- A recorded FAIL acts at every epoch while the root key is verified (R115, R116). -/
theorem fsmEpoch_osnmaFail (hn : n < 221) (hq : s.fsm.osnma = []) (he : s.bit F.IFC_FSM_CFG_EN_OSNMA = true)
    (hr : s.bit F.IFC_FSM_CFG_ROOT_OK = true) (hf : s.fld (F.IFC_FSM_SAT_OSNMA n) = 2) (o : Formed) :
    ∃ t, exec (.fsmEpoch o) s = .next t ∧ MemsSame s t ∧ verdict n t = 2 ∧ t.fsm.fail n = some s.tick := by
  obtain ⟨t, u, mask, hx, hm, hu, hl⟩ := fsmEpoch_judges hn o s
  replace hu := (SatSame.fsmPolled hq).trans hu
  have ho : satOsnmaFails n u = true := by
    rw [satOsnmaFails, hu.bitCfg rfl, hu.bitCfg rfl, hu.fldSat rfl, he, hr, hf]
    rfl
  have hfail : satFails (fsmObs s) mask (dopOver (fsmObs s) s) n u = true := by rw [satFails, ho, Bool.or_true]
  obtain ⟨hv, ha, -⟩ := fsmSat_fails hfail
  exact ⟨t, hx, hm, hl.verdict.trans hv, (hl.fail.trans ha).trans (congrArg some hu.tick)⟩

/-- A signal off in Doppler at two epochs running makes its satellite SUSPECT (R115). -/
theorem fsmEpoch_dopplerFail {sig : Nat} (hn : n < 221) (he : s.bit F.IFC_FSM_CFG_EN_DOP = true)
    (h₁ : (n, sig) ∈ dopOver (fsmObs s) s) (h₂ : (n, sig) ∈ s.fsm.dopOver) (o : Formed) :
    ∃ t, exec (.fsmEpoch o) s = .next t ∧ MemsSame s t ∧ verdict n t = 2 ∧ t.bit (F.IFC_FSM_SAT_DOP n) = true ∧
      t.fsm.fail n = some s.tick := by
  obtain ⟨t, u, mask, hx, hm, hu, hl⟩ := fsmEpoch_judges hn o s
  have hp := PolledSame.fsmPolled s
  have hen : u.bit F.IFC_FSM_CFG_EN_DOP = true :=
    (hu.bitCfg rfl).trans ((bit_congr (hp.words R.IFC_FSM_CFG (by decide))).trans he)
  have hd : satDopFails (dopOver (fsmObs s) s) n u = true := by
    rw [satDopFails, hen, hu.dopOver, hp.dopOver, Bool.true_and, List.any_eq_true]
    exact ⟨(n, sig), h₁, by simpa using h₂⟩
  have hfail : satFails (fsmObs s) mask (dopOver (fsmObs s) s) n u = true := by simp only [satFails, hd, Bool.or_true, Bool.true_or]
  obtain ⟨hv, ha, hb⟩ := fsmSat_fails hfail
  exact ⟨t, hx, hm, hl.verdict.trans hv, (bit_congr hl.sat).trans (hb.trans hd),
    (hl.fail.trans ha).trans (congrArg some (hu.tick.trans hp.tick))⟩

theorem any_eq_match (o : Option Nat) (p : Nat → Bool) : (match o with | some t => p t | none => false) = o.any p := by
  cases o <;> rfl

theorem satTrusted_iff (n : Nat) (s : State) : satTrusted n s = true ↔ s.bit F.IFC_FSM_CFG_ROOT_OK = true ∧
    (s.fsm.ok n).any (fun k => decide (s.tick < k + s.fld F.IFC_FSM_CFG_OSNMA_AGE * secTicks)) = true := by
  rw [← any_eq_match, satTrusted, Bool.and_eq_true]

theorem SatSame.trusted (h : SatSame n s t) : satTrusted n t = satTrusted n s := by
  rw [satTrusted, satTrusted, h.ok, h.tick, h.bitCfg rfl, h.fldCfg (f := F.IFC_FSM_CFG_OSNMA_AGE) rfl]

/-- With no check enabled and no failure remembered, OSNMA's last OK and the root key decide (R116, R117). -/
theorem fsmEpoch_unchecked (hn : n < 221) (hq : s.fsm.osnma = []) (ho : s.bit F.IFC_FSM_CFG_EN_OSNMA = false)
    (hp : s.bit F.IFC_FSM_CFG_EN_PWR = false) (hd : s.bit F.IFC_FSM_CFG_EN_DOP = false) (hx : s.bit F.IFC_FSM_CFG_EN_XB = false)
    (hf : s.fsm.fail n = none) (o : Formed) :
    ∃ t, exec (.fsmEpoch o) s = .next t ∧ MemsSame s t ∧ t.fsm.drift = (fsmObs s).drift ∧
      verdict n t = if satTrusted n s then 1 else 0 := by
  obtain ⟨t, u, mask, he, hm, hu, hl⟩ := fsmEpoch_judges hn o s
  replace hu := (SatSame.fsmPolled hq).trans hu
  refine ⟨t, he, hm, hl.drift, ?_⟩
  rw [hl.verdict, fsmSat_unchecked ((hu.bitCfg rfl).trans ho) ((hu.bitCfg rfl).trans hp) ((hu.bitCfg rfl).trans hd)
    ((hu.bitCfg rfl).trans hx) (hu.fail.trans hf), hu.trusted]

end Sys2Proof.Machine
end

section
/-! PROOFS. O14, CLEAR of a satellite and a write of ROOT_OK (R116, R119, R120). -/
namespace Sys2Proof.Machine

variable {s : State} {n m : Nat} {b : BitVec 8} {who : Reader} {v : Word}

/-! CLEAR (R120). -/

/-- A satellite's last failure forgotten. -/
def failForgotten (n : Nat) (s : State) : State :=
  { s with fsm := { s.fsm with failAt := Sparse.put (fun _ => none) s.fsm.failAt n none } }

/-- Its OSNMA FAIL forgotten too. -/
def osnmaForgotten (n : Nat) (s : State) : State :=
  if (failForgotten n s).fld (F.IFC_FSM_SAT_OSNMA n) = 2 then (failForgotten n s).setFld (F.IFC_FSM_SAT_OSNMA n) 0
  else failForgotten n s

/-- All that is forgotten of a satellite, before the counts follow. -/
def satCleared (n : Nat) (s : State) : State :=
  ((((osnmaForgotten n s).setFld (F.IFC_FSM_SAT_VERDICT n) 0).setFld (F.IFC_FSM_SAT_PWR n) 0).setFld
    (F.IFC_FSM_SAT_XB n) 0).setFld (F.IFC_FSM_SAT_DOP n) 0

theorem opFsmClear_eq (hn : n < 221) (s : State) :
    opFsmClear n s = if verdict n s = 0 then satCleared n s else verdictsChanged (satCleared n s) := if_neg (Nat.not_le.2 hn)

theorem exec_fsmClear (h : Open who (R.IFC_FSM_SAT b.toNat) s) : exec (.fsmClear who b) s = .next (opFsmClear b.toNat s) :=
  congrArg _ (gate_open h.1 h.2)

theorem fsmClear_reserved (h : Open who (R.IFC_FSM_SAT b.toNat) s) (hb : 221 ≤ b.toNat) : exec (.fsmClear who b) s = .next s :=
  (exec_fsmClear h).trans (congrArg _ (if_pos hb))

theorem WordsOnly.satCleared (n : Nat) (s : State) : WordsOnly [R.IFC_FSM_SAT n] (failForgotten n s) (Machine.satCleared n s) := by
  have ho : WordsOnly [R.IFC_FSM_SAT n] (failForgotten n s) (osnmaForgotten n s) := by
    unfold osnmaForgotten
    split
    · exact .setFld (F.IFC_FSM_SAT_OSNMA n) 0 _
    · exact .refl _ _
  exact (((ho.trans (.setFld (F.IFC_FSM_SAT_VERDICT n) 0 _)).trans (.setFld (F.IFC_FSM_SAT_PWR n) 0 _)).trans
    (.setFld (F.IFC_FSM_SAT_XB n) 0 _)).trans (.setFld (F.IFC_FSM_SAT_DOP n) 0 _)

theorem failForgotten_spec (n : Nat) (s : State) : let t := failForgotten n s
    MemsSame s t ∧ (∀ k, t.word k = s.word k) ∧ t.fsm.fail n = none ∧ t.fsm.satEvent = s.fsm.satEvent :=
  ⟨⟨rfl, rfl, rfl, rfl⟩, fun _ => rfl, fail_setFail none s.fsm, rfl⟩

theorem satCleared_spec (n : Nat) (s : State) : let t := satCleared n s
    MemsSame s t ∧ verdict n t = 0 ∧ t.fsm.fail n = none ∧ t.fsm.satEvent = s.fsm.satEvent ∧
      t.fld (F.IFC_FSM_SAT_OSNMA n) = (if s.fld (F.IFC_FSM_SAT_OSNMA n) = 2 then 0 else s.fld (F.IFC_FSM_SAT_OSNMA n)) ∧
      RegsBut [R.IFC_FSM_SAT n] s t := by
  intro t
  obtain ⟨hm, hr, hf, hs⟩ := failForgotten_spec n s
  have hw := WordsOnly.satCleared n s
  have hosn : (failForgotten n s).fld (F.IFC_FSM_SAT_OSNMA n) = s.fld (F.IFC_FSM_SAT_OSNMA n) := fld_congr (hr _)
  -- The flags of the checks are cleared beside the other fields.
  have hflags (g : Fld) (hg : g.hi < 9 ∨ 11 < g.lo) : t.fld g = ((osnmaForgotten n s).setFld (F.IFC_FSM_SAT_VERDICT n) 0).fld g :=
    ((State.fld_setFld_ne _ _ _ _ (by simp) (by simp) (.inr (by simp; omega))).trans
      (State.fld_setFld_ne _ _ _ _ (by simp) (by simp) (.inr (by simp; omega)))).trans
      (State.fld_setFld_ne _ _ _ _ (by simp) (by simp) (.inr (by simp; omega)))
  refine ⟨hm.trans hw.memsSame, ?_, by rw [hw.fsm, hf], by rw [hw.fsm, hs], ?_, fun k hk => (hw.words k hk).trans (hr k)⟩
  · refine (hflags (F.IFC_FSM_SAT_VERDICT n) (by simp)).trans ?_
    exact (State.fld_setFld _ _ _ (by simp) (by simp)).trans (Nat.zero_mod _)
  · rw [hflags (F.IFC_FSM_SAT_OSNMA n) (by simp), State.fld_setFld_ne _ _ _ _ (by simp) (by simp) (by simp), osnmaForgotten, hosn]
    split
    · exact (State.fld_setFld _ _ _ (by simp) (by simp)).trans (Nat.zero_mod _)
    · exact hosn

/-- CLEAR forgets a satellite, and the others stand (R120). -/
theorem fsmClear_forgets (hn : b.toNat < 221) (h : Open who (R.IFC_FSM_SAT b.toNat) s) :
    ∃ t, exec (.fsmClear who b) s = .next t ∧ MemsSame s t ∧ verdict b.toNat t = 0 ∧ t.fsm.fail b.toNat = none ∧
      t.fld (F.IFC_FSM_SAT_OSNMA b.toNat) =
        (if s.fld (F.IFC_FSM_SAT_OSNMA b.toNat) = 2 then 0 else s.fld (F.IFC_FSM_SAT_OSNMA b.toNat)) ∧
      (verdict b.toNat s ≠ 0 → s.fsm.satEvent = false → EventUp 46 t) ∧
      ∀ m < 221, m ≠ b.toNat → t.word (R.IFC_FSM_SAT m) = s.word (R.IFC_FSM_SAT m) := by
  obtain ⟨hm, hv, hf, hs, ho, hr⟩ := satCleared_spec b.toNat s
  have hother (m : Nat) (hm : m ≠ b.toNat) : (satCleared b.toNat s).word (R.IFC_FSM_SAT m) = s.word (R.IFC_FSM_SAT m) :=
    hr _ (by simp only [List.mem_singleton, R.IFC_FSM_SAT]; omega)
  refine ⟨_, (exec_fsmClear h).trans (congrArg _ (opFsmClear_eq hn s)), ?_⟩
  generalize satCleared b.toNat s = c at hm hv hf hs ho hother
  split
  case isTrue h0 => exact ⟨hm, hv, hf, ho, fun hne => absurd h0 hne, fun m _ => hother m⟩
  case isFalse =>
    have hc {m : Nat} (hm : m < 221) := SatSame.verdictsChanged hm c
    exact ⟨hm.trans (hc hn).mems, (hc hn).verdict.trans hv, (hc hn).fail.trans hf, ((hc hn).fldSat rfl).trans ho,
      fun _ he => eventUp_verdictsChanged (hs.trans he), fun m hm hne => (hc hm).sat.trans (hother m hne)⟩

/-! ROOT_OK (R116, R119). -/

/-- The fields of IFC_FSM_CFG. -/
def fsmCfgFields : List FieldSpec := [fs 31 30 .rw 0x1, fs 29 29 .rw 0x0, fs 28 28 .rw 0x1, fs 27 27 .rw 0x1, fs 26 26 .rw 0x1,
  fs 25 25 .rw 0x1, fs 24 24 .rw 0x1, fs 23 16 .rw 0x3c, fs 15 8 .rw 0x1e, fs 7 0 .rw 0x4]

theorem regAt_fsmCfg : regAt R.IFC_FSM_CFG = some ⟨R.IFC_FSM_CFG, [], 0, .d, false, fsmCfgFields⟩ := by decide

theorem fieldsApart_fsmCfg : fieldsApart fsmCfgFields := by
  simp [fieldsApart, FieldSpec.apart, fsmCfgFields, fs]

/-- The configuration written, a GATE_MODE of 3 ignored (R119). -/
def fsmCfgWritten (who : Reader) (v : Word) (s : State) : State :=
  if (plainWrite who R.IFC_FSM_CFG v s).fld F.IFC_FSM_CFG_GATE_MODE = 3 then
    (plainWrite who R.IFC_FSM_CFG v s).setFld F.IFC_FSM_CFG_GATE_MODE (s.fld F.IFC_FSM_CFG_GATE_MODE)
  else plainWrite who R.IFC_FSM_CFG v s

theorem fsmCfgWritten_spec (who : Reader) (v : Word) (s : State) : let t := fsmCfgWritten who v s
    WordsOnly [R.IFC_FSM_CFG] s t ∧ t.bit F.IFC_FSM_CFG_ROOT_OK = v.getLsbD 29 := by
  have hw : WordsOnly [R.IFC_FSM_CFG] s (plainWrite who R.IFC_FSM_CFG v s) :=
    .plainWrite_of_lawful v regAt_fsmCfg rfl (vltChecked_of_no_vlt fun _ _ => rfl)
  have hb : (plainWrite who R.IFC_FSM_CFG v s).bit F.IFC_FSM_CFG_ROOT_OK = v.getLsbD 29 := by
    rw [State.bit, fld_plainWrite_rw (rst := 0x0) (l := .any) v regAt_fsmCfg rfl fieldsApart_fsmCfg (by simp [fsmCfgFields, fs]) rfl]
    exact bitsOf_bit _ _
  unfold fsmCfgWritten
  split
  · exact ⟨hw.trans (.setFld F.IFC_FSM_CFG_GATE_MODE _ _),
      (State.bit_setFld_ne _ _ _ _ (by decide) (by decide) (by decide)).trans hb⟩
  · exact ⟨hw, hb⟩

theorem exec_rootOkWrite (h : Open who R.IFC_FSM_CFG s) : exec (.rootOkWrite who v) s = .next (
    if ((fsmCfgWritten who v s).bit F.IFC_FSM_CFG_ROOT_OK || verdictCount 1 (fsmCfgWritten who v s) 221 == 0) = true then
      fsmCfgWritten who v s
    else verdictsChanged (eachSat untrust 221 (fsmCfgWritten who v s))) :=
  congrArg _ (gate_open h.1 h.2)

theorem SatSame.untrust (h : m ≠ n) (s : State) : SatSame n s (Machine.untrust m s) :=
  .ite (.setOther h rfl _ _) (.refl n s)

theorem verdict_untrust (n : Nat) (s : State) : MemsSame s (untrust n s) ∧
    (untrust n s).word R.IFC_FSM_CFG = s.word R.IFC_FSM_CFG ∧
    verdict n (untrust n s) = if verdict n s = 1 then 0 else verdict n s := by
  unfold untrust
  split
  · refine ⟨.setFld .., State.word_setFld_ne _ _ (by simp only [R.IFC_FSM_CFG]; omega), ?_⟩
    exact (State.fld_setFld _ _ _ (by simp) (by simp)).trans (Nat.zero_mod _)
  · exact ⟨.refl s, rfl, rfl⟩

/-- Every TRUSTED becomes UNVERIFIED, and the counts follow. -/
theorem verdict_untrusted (hn : n < 221) (s : State) : let t := verdictsChanged (eachSat untrust 221 s)
    MemsSame s t ∧ t.word R.IFC_FSM_CFG = s.word R.IFC_FSM_CFG ∧ verdict n t = if verdict n s = 1 then 0 else verdict n s := by
  obtain ⟨u, hu, hr⟩ := eachSat_at (f := untrust) (fun _ hk => SatSame.untrust hk) hn s
  obtain ⟨hm, hc, hv⟩ := verdict_untrust n u
  have ht := hr.trans (.verdictsChanged hn _)
  exact ⟨(hu.mems.trans hm).trans ht.mems, ht.cfg.trans (hc.trans hu.cfg), by rw [ht.verdict, hv, hu.verdict]⟩

/-- A write of the configuration sets ROOT_OK, and a ROOT_OK of 0 ends every TRUSTED (R116). -/
theorem rootOkWrite_untrusts (hn : n < 221) (h : Open who R.IFC_FSM_CFG s) :
    ∃ t, exec (.rootOkWrite who v) s = .next t ∧ MemsSame s t ∧ t.bit F.IFC_FSM_CFG_ROOT_OK = v.getLsbD 29 ∧
      verdict n t = if v.getLsbD 29 = false ∧ verdict n s = 1 then 0 else verdict n s := by
  obtain ⟨hw, hb⟩ := fsmCfgWritten_spec who v s
  refine ⟨_, exec_rootOkWrite h, ?_⟩
  generalize fsmCfgWritten who v s = c at hw hb
  have hv : verdict n c = verdict n s :=
    fld_congr (hw.words _ (by simp only [List.mem_singleton, R.IFC_FSM_CFG]; omega))
  rw [hb]
  split
  case isTrue hk =>
    refine ⟨hw.memsSame, hb, hv.trans (if_neg fun ⟨h0, h1⟩ => ?_).symm⟩
    rw [h0, Bool.false_or, beq_iff_eq] at hk
    exact verdict_of_count hk hn (hv.trans h1)
  case isFalse hk =>
    obtain ⟨hm, hc, ht⟩ := verdict_untrusted hn c
    have h0 : v.getLsbD 29 = false := by
      rw [Bool.or_eq_true, not_or, Bool.not_eq_true] at hk
      exact hk.1
    exact ⟨hw.memsSame.trans hm, (bit_congr hc).trans hb, by simp only [ht, hv, h0, true_and]⟩

/-- Settles O14: an epoch by what it leaves of one satellite, CLEAR by what is forgotten, and a write of ROOT_OK by the verdicts it
ends. -/
theorem falseSignalMonitor : Obligations.FalseSignalMonitor := by
  intro who n v b s hn obs goes
  refine ⟨fun hq he hr hf => fsmEpoch_osnmaFail hn hq he hr hf _, fun sig he h₁ h₂ => fsmEpoch_dopplerFail hn he h₁ h₂ _,
    fun hq ho hp hd hx hf => ?_, fun hb h => ?_, fun hb h => fsmClear_reserved h hb, fun h => rootOkWrite_untrusts hn h⟩
  · obtain ⟨t, he, hm, hdrift, hv⟩ := fsmEpoch_unchecked hn hq ho hp hd hx hf .byDevice
    exact ⟨t, he, hm, hdrift, hv.trans (if_congr (satTrusted_iff n s) rfl rfl)⟩
  · subst hb
    exact fsmClear_forgets hn h

end Sys2Proof.Machine
end

section
/-! SUPPORT. A tracking channel's state beside its registers, and what an operation on one channel leaves of the others (R122 to R149). -/
namespace Sys2Proof.Machine

variable {s t u : State} {j k : Nat} {ks : List Nat} {f : Fld}

/-! A channel beside its registers. -/

@[simp] theorem trkCh_setTrkCh (s : State) (k j : Nat) (c : TrkCh) :
    trkCh (setTrkCh s k c) j = if j = k then c else trkCh s j := by
  simp [trkCh, setTrkCh, Sparse.get_put]

@[simp] theorem word_setTrkCh (s : State) (k : Nat) (c : TrkCh) (a : Nat) : (setTrkCh s k c).word a = s.word a := rfl

@[simp] theorem fld_setTrkCh (s : State) (k : Nat) (c : TrkCh) (f : Fld) : (setTrkCh s k c).fld f = s.fld f := rfl

@[simp] theorem bit_setTrkCh (s : State) (k : Nat) (c : TrkCh) (f : Fld) : (setTrkCh s k c).bit f = s.bit f := rfl

theorem trkCh_congr (h : t.trk = s.trk) (j : Nat) : trkCh t j = trkCh s j := by rw [trkCh, h, trkCh]

@[simp] theorem trkCh_setWord (s : State) (a : Nat) (w : Word) (j : Nat) : trkCh (s.setWord a w) j = trkCh s j :=
  trkCh_congr (s.setWord_trk a w) j

@[simp] theorem trkCh_setFld (s : State) (f : Fld) (v j : Nat) : trkCh (s.setFld f v) j = trkCh s j :=
  trkCh_congr (s.setFld_trk f v) j

@[simp] theorem trkCh_setMaskBit (s : State) (a i : Nat) (b : Bool) (j : Nat) : trkCh (s.setMaskBit a i b) j = trkCh s j :=
  trkCh_congr (s.setMaskBit_trk a i b) j

theorem WordsOnly.trkCh (h : WordsOnly ks s t) (j : Nat) : Machine.trkCh t j = Machine.trkCh s j :=
  trkCh_congr (congrArg State.trk h.rest :) j

theorem WordsOnly.tick (h : WordsOnly ks s t) : t.tick = s.tick := (congrArg State.tick h.rest :)

theorem maskBit_congr {a : Nat} (h : t.word a = s.word a) (i : Nat) : t.maskBit a i = s.maskBit a i := by
  rw [State.maskBit, h, State.maskBit]

/-! What an operation on one channel changes. -/

/-- Where a channel's registers begin in BAR 0; they take 0x80 bytes (R122). -/
abbrev chanPage (k : Nat) : Nat := 0x100000 + 0x10000 * (k / 32) + 0x80 * (k % 32)

/-- A word of the channel's own registers, or outside the rings' pages. -/
abbrev chanKey (k a : Nat) : Prop := (chanPage k ≤ a ∧ a < chanPage k + 0x80) ∨ a < 0x100000 ∨ 0x200000 ≤ a

theorem chanKey_reg {b : Nat} (h : 0x100000 ≤ b) (h' : b < 0x100080) (k : Nat) :
    chanKey k (b + 0x10000 * (k / 32) + 0x80 * (k % 32)) := by
  simp only [chanKey, chanPage]
  omega

/-- A field of the rings' pages that is not the channel's: not of its registers, nor its bit of RUN and ERR_PEND. -/
abbrev Fld.foreign (f : Fld) (k : Nat) : Prop :=
  0x100000 ≤ f.off ∧ f.off < 0x200000 ∧ (f.off < chanPage k ∨ chanPage k + 0x80 ≤ f.off) ∧
    (f.off = R.TRK_RING_RUN (k / 32) ∨ f.off = R.TRK_RING_ERR_PEND (k / 32) → f.hi < k % 32 ∨ k % 32 < f.lo)

/-- In the rings nothing but the channel's own state, registers and mask bits differs, and the memories stand. -/
structure ChanOnly (k : Nat) (s t : State) : Prop where
  flds : ∀ f : Fld, f.foreign k → t.fld f = s.fld f
  chans : ∀ j, j ≠ k → trkCh t j = trkCh s j
  mems : MemsSame s t

theorem ChanOnly.refl (k : Nat) (s : State) : ChanOnly k s s := ⟨fun _ _ => rfl, fun _ _ => rfl, .refl s⟩

theorem ChanOnly.trans (h : ChanOnly k s t) (g : ChanOnly k t u) : ChanOnly k s u :=
  ⟨fun f hf => (g.flds f hf).trans (h.flds f hf), fun j hj => (g.chans j hj).trans (h.chans j hj), h.mems.trans g.mems⟩

theorem ChanOnly.ite {c : Prop} [Decidable c] (ht : ChanOnly k s t) (hu : ChanOnly k s u) : ChanOnly k s (if c then t else u) := by
  split <;> assumption

theorem WordsOnly.chanOnly (h : WordsOnly ks s t) (hk : ∀ a ∈ ks, chanKey k a) : ChanOnly k s t :=
  ⟨fun f hf => h.words.fld fun hm => by have := hk _ hm; omega, fun j _ => h.trkCh j, h.memsSame⟩

theorem ChanOnly.setTrkCh (k : Nat) (c : TrkCh) (s : State) : ChanOnly k s (Machine.setTrkCh s k c) :=
  ⟨fun _ _ => rfl, fun j hj => by rw [trkCh_setTrkCh, if_neg hj], ⟨rfl, rfl, rfl, rfl⟩⟩

theorem ChanOnly.setWord {a : Nat} (h : chanKey k a) (w : Word) (s : State) : ChanOnly k s (s.setWord a w) :=
  (WordsOnly.setWord a w s).chanOnly (by simpa using h)

theorem ChanOnly.setFld (h : chanKey k f.off) (v : Nat) (s : State) : ChanOnly k s (s.setFld f v) := .setWord h _ s

/-- The channel's bit of its ring's RUN or ERR_PEND. -/
theorem ChanOnly.setMask {m : Nat} (hm : m = R.TRK_RING_RUN (k / 32) ∨ m = R.TRK_RING_ERR_PEND (k / 32)) (v : Nat) (s : State) :
    ChanOnly k s (s.setFld ⟨m, k % 32, k % 32⟩ v) := by
  refine ⟨fun f hf => State.fld_setFld_ne _ _ _ _ (Nat.le_refl _) (Nat.mod_lt _ (by decide)) ?_,
    fun j _ => trkCh_setFld s _ v j, (WordsOnly.setFld _ v s).memsSame⟩
  obtain ⟨-, -, -, h⟩ := hf
  by_cases ho : f.off = m
  · exact .inr (h (hm.imp ho.trans ho.trans))
  · exact .inl ho

theorem ChanOnly.raise (k n : Nat) (s : State) : ChanOnly k s (Machine.raise n s) :=
  (WordsOnly.raise n s).chanOnly fun a ha => by
    simp only [evKeys, List.mem_cons, List.not_mem_nil, or_false, copyOff, R.EV_PEND, R.MSIX_PBA] at ha
    omega

/-! A channel's STATE, and refusals. -/

theorem WordsOnly.setChState (k st : Nat) (s : State) :
    WordsOnly [R.TRK_CH_STATUS k, R.TRK_RING_RUN (k / 32)] s (Machine.setChState k st s) :=
  ((WordsOnly.setFld _ st s).mono (by simp)).trans ((WordsOnly.setMaskBit _ _ _ _).mono (by simp))

@[simp] theorem trkCh_setChState (k st j : Nat) (s : State) : trkCh (setChState k st s) j = trkCh s j :=
  (WordsOnly.setChState k st s).trkCh j

theorem ChanOnly.setChState (k st : Nat) (s : State) : ChanOnly k s (Machine.setChState k st s) :=
  (ChanOnly.setFld (chanKey_reg (by decide) (by decide) k) st s).trans (.setMask (.inl rfl) _ _)

theorem word_setRun (k : Nat) (b : Bool) (s : State) : (s.setMaskBit (R.TRK_RING_RUN (k / 32)) (k % 32) b).word (R.TRK_CH_STATUS k) =
    s.word (R.TRK_CH_STATUS k) := State.word_setFld_ne _ _ (by simp only [R.TRK_CH_STATUS, R.TRK_RING_RUN]; omega)

theorem chState_setChState {st : Nat} (h : st < 4) (k : Nat) (s : State) : chState k (setChState k st s) = st := by
  refine (fld_congr (word_setRun k _ _)).trans ((State.fld_setFld _ _ _ (by simp) (by simp)).trans (Nat.mod_eq_of_lt h))

/-- The fields of STATUS beside STATE. -/
theorem fld_status_setChState (hf : f.off = R.TRK_CH_STATUS k) (hl : 2 ≤ f.lo) (st : Nat) (s : State) :
    (setChState k st s).fld f = s.fld f := by
  refine (fld_congr (hf ▸ word_setRun k _ _)).trans (State.fld_setFld_ne _ _ _ _ (by simp) (by simp) ?_)
  exact .inr (.inr hl)

theorem run_setChState (k st : Nat) (s : State) :
    (setChState k st s).maskBit (R.TRK_RING_RUN (k / 32)) (k % 32) = (st != 0) := by
  rw [setChState, State.maskBit_setMaskBit _ _ _ _ _ _ (Nat.mod_lt _ (by decide)), if_pos ⟨rfl, rfl⟩]

/-- REASON and RESULT of a refusal, before ERR_PEND. -/
abbrev refusalNoted (k reason result : Nat) (s : State) : State :=
  (s.setFld (F.TRK_CH_STATUS_REASON k) reason).setFld (F.TRK_CH_STATUS_RESULT k) result

theorem WordsOnly.refusalNoted (k reason result : Nat) (s : State) :
    WordsOnly [R.TRK_CH_STATUS k] s (Machine.refusalNoted k reason result s) :=
  (WordsOnly.setFld (F.TRK_CH_STATUS_REASON k) _ s).trans (.setFld (F.TRK_CH_STATUS_RESULT k) _ _)

theorem WordsOnly.chanErr (k reason result : Nat) (s : State) :
    WordsOnly (R.TRK_CH_STATUS k :: R.TRK_RING_ERR_PEND (k / 32) :: evKeys (48 + k / 32)) s (Machine.chanErr k reason result s) :=
  ((WordsOnly.refusalNoted k reason result s).mono (by simp)).trans ((WordsOnly.flagEvent _ _ _).mono (List.subset_cons_self _ _))

@[simp] theorem trkCh_chanErr (k reason result j : Nat) (s : State) : trkCh (chanErr k reason result s) j = trkCh s j :=
  (WordsOnly.chanErr k reason result s).trkCh j

theorem ChanOnly.chanErr (k reason result : Nat) (s : State) : ChanOnly k s (Machine.chanErr k reason result s) := by
  have h₁ : ChanOnly k s (Machine.refusalNoted k reason result s) :=
    (WordsOnly.refusalNoted k reason result s).chanOnly fun a ha => List.mem_singleton.1 ha ▸ chanKey_reg (by decide) (by decide) k
  exact h₁.trans (.ite (.refl k _) ((ChanOnly.setMask (.inr rfl) 1 _).trans (.raise k _ _)))

theorem plainKey_ring {a : Nat} (h : 0x100000 ≤ a) (h' : a < 0x200000) : plainKey a := by
  simp only [plainKey, R.MSIX_PBA]
  omega

end Sys2Proof.Machine
end

section
/-! SUPPORT. Refusals, and a channel that stops, starts or takes its follower along (R137 to R140, R149). -/
namespace Sys2Proof.Machine

variable {s t u : State} {j k : Nat} {f : Fld}

/-! Refusals (R149). -/

theorem fld_chanErr (hf : plainKey f.off) (h1 : f.off ≠ R.TRK_CH_STATUS k) (h2 : f.off ≠ R.TRK_RING_ERR_PEND (k / 32))
    (reason result : Nat) (s : State) : (chanErr k reason result s).fld f = s.fld f := by
  obtain ⟨hl, h0, h1'⟩ := hf
  refine (WordsOnly.chanErr k reason result s).words.fld fun hm => ?_
  rcases List.mem_cons.1 hm with h | hm
  · exact h1 h
  rcases List.mem_cons.1 hm with h | hm
  · exact h2 h
  · exact not_mem_evKeys hl h0 h1' _ hm

theorem plainKey_status (hk : k < 320) : plainKey (R.TRK_CH_STATUS k) :=
  plainKey_ring (by simp only [R.TRK_CH_STATUS]; omega) (by simp only [R.TRK_CH_STATUS]; omega)

theorem plainKey_errPend (hk : k < 320) : plainKey (R.TRK_RING_ERR_PEND (k / 32)) :=
  plainKey_ring (by simp only [R.TRK_RING_ERR_PEND]; omega) (by simp only [R.TRK_RING_ERR_PEND]; omega)

/-- A refusal's event leaves STATUS. -/
theorem status_chanErr (hk : k < 320) (reason result : Nat) (s : State) :
    (chanErr k reason result s).word (R.TRK_CH_STATUS k) = (refusalNoted k reason result s).word (R.TRK_CH_STATUS k) := by
  obtain ⟨hl, h0, h1⟩ := plainKey_status hk
  refine (WordsOnly.flagEvent _ (48 + k / 32) _).words _ fun hm => ?_
  rcases List.mem_cons.1 hm with h | hm
  · simp only [R.TRK_CH_STATUS, R.TRK_RING_ERR_PEND] at h
    omega
  · exact not_mem_evKeys hl h0 h1 _ hm

theorem chState_chanErr (hk : k < 320) (reason result : Nat) (s : State) : chState k (chanErr k reason result s) = chState k s := by
  refine (fld_congr (status_chanErr hk reason result s)).trans ?_
  exact (State.fld_setFld_ne _ _ _ _ (by simp) (by simp) (by simp)).trans
    (State.fld_setFld_ne _ _ _ _ (by simp) (by simp) (by simp))

theorem fld_refusalNoted {reason result : Nat} (hr : reason < 16) (hs : result < 256) (k : Nat) (s : State) :
    (refusalNoted k reason result s).fld (F.TRK_CH_STATUS_REASON k) = reason ∧
      (refusalNoted k reason result s).fld (F.TRK_CH_STATUS_RESULT k) = result := by
  refine ⟨(State.fld_setFld_ne _ _ _ _ (by simp) (by simp) (by simp)).trans ?_, ?_⟩
  · exact (State.fld_setFld _ _ _ (by simp) (by simp)).trans (Nat.mod_eq_of_lt hr)
  · exact (State.fld_setFld _ _ _ (by simp) (by simp)).trans (Nat.mod_eq_of_lt hs)

/-- What a refusal shows. -/
theorem chanErr_shows {reason result : Nat} (hr : reason < 16) (hs : result < 256) (hk : k < 320) (s : State) :
    let t := chanErr k reason result s
    t.fld (F.TRK_CH_STATUS_REASON k) = reason ∧ t.fld (F.TRK_CH_STATUS_RESULT k) = result := by
  obtain ⟨h1, h2⟩ := fld_refusalNoted hr hs k s
  exact ⟨(fld_congr (status_chanErr hk reason result s)).trans h1, (fld_congr (status_chanErr hk reason result s)).trans h2⟩

/-- A flag is set, and its event is pending where the flag was not. -/
theorem flagEvent_shows {m i : Nat} (hm : plainKey m) (hi : i < 32) (n : Nat) (s : State) :
    let t := flagEvent ⟨m, i, i⟩ n s
    t.maskBit m i = true ∧ (s.maskBit m i = false → EventUp n t) := by
  have hb : s.bit ⟨m, i, i⟩ = s.maskBit m i := (s.bit_eq_testBit m i).trans rfl
  obtain ⟨hl, h0, h1⟩ := hm
  simp only [flagEvent, hb]
  split
  case isTrue h => exact ⟨h, fun hn => by simp [h] at hn⟩
  case isFalse h =>
    refine ⟨?_, fun _ => .raise_self n _⟩
    rw [maskBit_congr ((WordsOnly.raise n _).words m (not_mem_evKeys hl h0 h1 n))]
    exact (State.maskBit_setMaskBit s m i m i true hi).trans (if_pos ⟨rfl, rfl⟩)

/-- The ring's error bit of a refused channel (R148). -/
theorem chanErr_pends (hk : k < 320) (reason result : Nat) (s : State) : let t := chanErr k reason result s
    t.maskBit (R.TRK_RING_ERR_PEND (k / 32)) (k % 32) = true ∧
      (s.maskBit (R.TRK_RING_ERR_PEND (k / 32)) (k % 32) = false → EventUp (48 + k / 32) t) := by
  obtain ⟨h1, h2⟩ := flagEvent_shows (m := R.TRK_RING_ERR_PEND (k / 32)) (i := k % 32) (n := 48 + k / 32)
    (plainKey_errPend hk) (Nat.mod_lt _ (by decide)) (refusalNoted k reason result s)
  refine ⟨h1, fun h => h2 ((maskBit_congr ?_ _).trans h)⟩
  refine (WordsOnly.refusalNoted k reason result s).words _ fun hm => ?_
  simp only [List.mem_singleton, R.TRK_RING_ERR_PEND, R.TRK_CH_STATUS] at hm
  omega

/-! The NCO now (R132 to R137). -/

/-- What an NCO's run and the rates it takes leave of a channel: its pending words, its integration's plan and place, and its dumps. -/
structure RunSame (c d : TrkCh) : Prop where
  codeLo : d.codeLo = c.codeLo
  carrLo : d.carrLo = c.carrLo
  n0 : d.n0 = c.n0
  first : d.first = c.first
  dumps : d.dumps = c.dumps

theorem RunSame.refl (c : TrkCh) : RunSame c c := ⟨rfl, rfl, rfl, rfl, rfl⟩

theorem RunSame.trans {c d e : TrkCh} (h : RunSame c d) (g : RunSame d e) : RunSame c e :=
  ⟨g.codeLo.trans h.codeLo, g.carrLo.trans h.carrLo, g.n0.trans h.n0, g.first.trans h.first, g.dumps.trans h.dumps⟩

theorem RunSame.run (c : TrkCh) (n : Nat) : RunSame c (c.run n) := ⟨rfl, rfl, rfl, rfl, rfl⟩

theorem RunSame.takeRates (c : TrkCh) (n : Nat) : RunSame c (c.takeRates n) := by
  unfold TrkCh.takeRates
  extract_lets d
  have hd : RunSame c d := by
    simp only [d]
    split
    · split
      · exact ⟨rfl, rfl, rfl, rfl, rfl⟩
      · exact .refl c
    · exact .refl c
  split
  · split
    · exact hd.trans ⟨rfl, rfl, rfl, rfl, rfl⟩
    · exact hd
  · exact hd

theorem RunSame.ncoNow (k : Nat) (s : State) : RunSame (trkCh s k) (Machine.ncoNow k s) := by
  unfold Machine.ncoNow
  extract_lets c n m d
  split
  · exact .refl c
  · split
    · exact ((RunSame.run c m).trans (.takeRates d _)).trans (.run _ _)
    · exact .run c n

theorem unitPhase_congr (h : t.word (R.TRK_CH_CTRL k) = s.word (R.TRK_CH_CTRL k)) : unitPhase k t = unitPhase k s := by
  unfold unitPhase chSig
  rw [fld_congr (f := F.TRK_CH_CTRL_SIG k) h]

/-- What the NCO of a channel depends on. -/
theorem ncoNow_congr (hc : trkCh t k = trkCh s k) (ht : t.tick = s.tick) (hs : t.word (R.TRK_CH_STATUS k) = s.word (R.TRK_CH_STATUS k))
    (hw : t.word (R.TRK_CH_CTRL k) = s.word (R.TRK_CH_CTRL k)) : ncoNow k t = ncoNow k s := by
  have hs : chState k t = chState k s := fld_congr hs
  unfold ncoNow
  rw [hc, ht, hs, unitPhase_congr hw]

/-! A channel stops (R140). -/

theorem ChanOnly.storeNco (k : Nat) (c : TrkCh) (s : State) : ChanOnly k s (Machine.storeNco k c s) := by
  have set {b : Nat} (h : 0x100000 ≤ b) (h' : b < 0x100080) (w : Word) (s : State) :
      ChanOnly k s (s.setWord (b + 0x10000 * (k / 32) + 0x80 * (k % 32)) w) := .setWord (chanKey_reg h h' k) w s
  unfold Machine.storeNco
  extract_lets m s₁
  have h₁ : ChanOnly k s s₁ := (set (by decide) (by decide) _ s).trans (set (by decide) (by decide) _ _)
  split
  · refine h₁.trans ?_
    exact (((((set (by decide) (by decide) _ _).trans (set (by decide) (by decide) _ _)).trans
      (set (by decide) (by decide) _ _)).trans (set (by decide) (by decide) _ _)).trans
      (set (by decide) (by decide) _ _)).trans (set (by decide) (by decide) _ _)
  · exact h₁

/-- The state of a channel that halts, its NCO words stored. -/
theorem haltChannel_eq (k : Nat) (s : State) : ∃ u c, ChanOnly k s u ∧ c.dumps = (trkCh s k).dumps ∧
    haltChannel k s = setChState k 0 ((setTrkCh u k c).setFld (F.TRK_CH_CTRL_EN k) 0) := by
  unfold haltChannel
  extract_lets st next own last s' c
  refine ⟨s', c, .ite (.storeNco k last s) (.refl k s), ?_, rfl⟩
  simp only [c, last]
  split
  · exact (RunSame.ncoNow k next).dumps
  · rfl

theorem ChanOnly.haltChannel (k : Nat) (s : State) : ChanOnly k s (Machine.haltChannel k s) := by
  obtain ⟨u, c, hu, -, h⟩ := haltChannel_eq k s
  rw [h]
  exact ((hu.trans (.setTrkCh k c u)).trans (.setFld (chanKey_reg (by decide) (by decide) k) 0 _)).trans (.setChState k 0 _)

theorem chState_haltChannel (k : Nat) (s : State) : chState k (haltChannel k s) = 0 := by
  obtain ⟨u, c, -, -, h⟩ := haltChannel_eq k s
  rw [h, chState_setChState (by decide)]

theorem haltChannel_stops (k : Nat) (s : State) : let t := haltChannel k s
    t.bit (F.TRK_CH_CTRL_EN k) = false ∧ t.maskBit (R.TRK_RING_RUN (k / 32)) (k % 32) = false ∧
      (trkCh t k).dumps = (trkCh s k).dumps := by
  obtain ⟨u, c, -, hc, h⟩ := haltChannel_eq k s
  simp only [h]
  refine ⟨?_, run_setChState k 0 _, ?_⟩
  · refine ((WordsOnly.setChState k 0 _).words.bit ?_).trans (State.bit_setFld_zero _ _ (by simp) (by simp))
    simp only [List.mem_cons, List.not_mem_nil, or_false, R.TRK_CH_STATUS, R.TRK_RING_RUN]
    omega
  · rw [trkCh_setChState, trkCh_setFld, trkCh_setTrkCh, if_pos rfl, hc]

end Sys2Proof.Machine
end

section
/-! SUPPORT. A channel that enters RUN, its follower, and the pair's two channels against all others (R137 to R140, R172). -/
namespace Sys2Proof.Machine

variable {s t u : State} {j k : Nat} {f : Fld}

/-! Entering RUN (R138, R139). -/

/-- The channel's state on entering RUN, its integration begun. -/
theorem enterRun_eq (k n m : Nat) (s : State) : ∃ c, enterRun k n m s = setChState k 2 (setTrkCh s k c) ∧ c.at_ = n ∧
    c.phase = (loadNco k s (trkCh s k)).phase + (trkCh s k).codeRate * m := ⟨_, rfl, rfl, rfl⟩

theorem ChanOnly.enterRun (k n m : Nat) (s : State) : ChanOnly k s (Machine.enterRun k n m s) := by
  obtain ⟨c, h, -⟩ := enterRun_eq k n m s
  exact h ▸ (ChanOnly.setTrkCh k c s).trans (.setChState k 2 _)

theorem enterRun_runs (k n m : Nat) (s : State) : let t := enterRun k n m s
    chState k t = 2 ∧ t.maskBit (R.TRK_RING_RUN (k / 32)) (k % 32) = true ∧ (trkCh t k).at_ = n ∧
      (trkCh t k).phase = (loadNco k s (trkCh s k)).phase + (trkCh s k).codeRate * m ∧
      ∀ f : Fld, f.off = R.TRK_CH_STATUS k → 2 ≤ f.lo → t.fld f = s.fld f := by
  obtain ⟨c, h, ha, hp⟩ := enterRun_eq k n m s
  simp only [h, trkCh_setChState, trkCh_setTrkCh, if_true]
  exact ⟨chState_setChState (by decide) k _, run_setChState k 2 _, ha, hp,
    fun f hf hl => (fld_status_setChState hf hl 2 _).trans (fld_setTrkCh s k c f)⟩

theorem ChanOnly.enterFollow (k : Nat) (s : State) : ChanOnly k s (Machine.enterFollow k s) :=
  (ChanOnly.setTrkCh k _ s).trans (.setChState k 2 _)

/-- A start takes over the decoder: its words alone change, and its state (R172). -/
theorem navRestart_eq (k : Nat) (s : State) : ∃ c, WordsOnly [R.NAV_CH_STAT k, R.NAV_CH_SYMIDX k] (setNavCh s k c) (navRestart k s) := by
  refine ⟨{ tag := (navCh s k).tag + 1, sig := s.fld (F.TRK_CH_CTRL_SIG k), sat := s.fld (F.TRK_CH_CTRL_SAT k) }, ?_⟩
  have stat (f : Fld) (h : f.off = R.NAV_CH_STAT k ∨ f.off = R.NAV_CH_SYMIDX k) (v : Nat) (u : State) :
      WordsOnly [R.NAV_CH_STAT k, R.NAV_CH_SYMIDX k] u (u.setFld f v) :=
    (WordsOnly.setFld f v u).mono (by rcases h with h | h <;> simp [h])
  exact (((((stat (F.NAV_CH_STAT_SYNC k) (.inl rfl) _ _).trans (stat (F.NAV_CH_STAT_POL_VALID k) (.inl rfl) _ _)).trans
    (stat (F.NAV_CH_STAT_TIME k) (.inl rfl) _ _)).trans (stat (F.NAV_CH_STAT_UNITS k) (.inl rfl) _ _)).trans
    (stat (F.NAV_CH_STAT_FMT k) (.inl rfl) _ _)).trans (stat (F.NAV_CH_SYMIDX_SYMIDX k) (.inr rfl) _ _)

/-- What a restart of the decoder leaves of the rings. -/
theorem navRestart_spec (k : Nat) (s : State) : let t := navRestart k s
    ChanOnly k s t ∧ t.tick = s.tick ∧ ∀ f : Fld, f.off < 0x200000 → t.fld f = s.fld f := by
  obtain ⟨c, h⟩ := navRestart_eq k s
  have h₁ : ChanOnly k s (setNavCh s k c) := ⟨fun _ _ => rfl, fun _ _ => rfl, ⟨rfl, rfl, rfl, rfl⟩⟩
  refine ⟨h₁.trans (h.chanOnly fun a ha => ?_), h.tick, fun f hf => h.words.fld fun hm => ?_⟩
  · simp only [List.mem_cons, List.not_mem_nil, or_false, R.NAV_CH_STAT, R.NAV_CH_SYMIDX] at ha
    exact .inr (.inr (by omega))
  · simp only [List.mem_cons, List.not_mem_nil, or_false, R.NAV_CH_STAT, R.NAV_CH_SYMIDX] at hm
    omega

/-- Correlation adds to the sums of one channel. -/
theorem correlate_cases (k : Nat) (nco : TrkCh) (s : State) : correlate k nco s = s ∨
    ∃ n acc, correlate k nco s = setTrkCh s k { trkCh s k with nvalid := n, acc := acc } := by
  unfold correlate
  extract_lets w c idx
  split
  · exact .inl rfl
  · exact .inr ⟨_, _, rfl⟩

theorem ChanOnly.correlate (k : Nat) (nco : TrkCh) (s : State) : ChanOnly k s (Machine.correlate k nco s) := by
  rcases correlate_cases k nco s with h | ⟨n, acc, h⟩ <;> rw [h]
  · exact .refl k s
  · exact .setTrkCh k _ s

@[simp] theorem word_correlate (k : Nat) (nco : TrkCh) (s : State) (a : Nat) : (correlate k nco s).word a = s.word a := by
  rcases correlate_cases k nco s with h | ⟨n, acc, h⟩ <;> rw [h]
  rfl

/-! The other channel of a pair. -/

/-- The registers and the bit of RUN by which a channel shows what it is doing. -/
abbrev shownFlds (k : Nat) : List Fld :=
  [wholeWord (R.TRK_CH_STATUS k), wholeWord (R.TRK_CH_CTRL k), ⟨R.TRK_RING_RUN (k / 32), k % 32, k % 32⟩]

/-- The memories, and every channel but a pair's two, stand. -/
structure PairOnly (k : Nat) (s t : State) : Prop where
  mems : MemsSame s t
  others : ∀ j < 320, j / 2 ≠ k / 2 → trkCh t j = trkCh s j ∧ t.word (R.TRK_CH_STATUS j) = s.word (R.TRK_CH_STATUS j)

/-- Beside the pair's other channel nothing differs. -/
structure MateOnly (k : Nat) (s t : State) : Prop extends PairOnly k s t where
  chan : trkCh t k = trkCh s k
  flds : ∀ f ∈ shownFlds k, t.fld f = s.fld f

theorem PairOnly.trans (h : PairOnly k s t) (g : PairOnly k t u) : PairOnly k s u :=
  ⟨h.mems.trans g.mems, fun j hj hn =>
    ⟨(g.others j hj hn).1.trans (h.others j hj hn).1, (g.others j hj hn).2.trans (h.others j hj hn).2⟩⟩

theorem word_of_fld {a : Nat} (h : t.fld (wholeWord a) = s.fld (wholeWord a)) : t.word a = s.word a := by
  rw [fld_wholeWord, fld_wholeWord] at h
  exact BitVec.eq_of_toNat_eq h

theorem ChanOnly.pairOnly {i : Nat} (h : ChanOnly i s t) (hi : i / 2 = k / 2) : PairOnly k s t := by
  refine ⟨h.mems, fun j hj hn => ⟨h.chans j (by omega), word_of_fld (h.flds _ ?_)⟩⟩
  simp only [Fld.foreign, chanPage, R.TRK_CH_STATUS, R.TRK_RING_RUN, R.TRK_RING_ERR_PEND]
  omega

theorem ChanOnly.mateOnly (h : ChanOnly (k + 1) s t) (hk : k < 320) (he : k % 2 = 0) : MateOnly k s t where
  toPairOnly := h.pairOnly (by omega)
  chan := h.chans k (by omega)
  flds f hf := by
    simp only [List.mem_cons, List.not_mem_nil, or_false] at hf
    refine h.flds f ?_
    rcases hf with rfl | rfl | rfl <;>
      · simp only [Fld.foreign, chanPage, R.TRK_CH_STATUS, R.TRK_CH_CTRL, R.TRK_RING_RUN, R.TRK_RING_ERR_PEND]
        omega

theorem MateOnly.refl (k : Nat) (s : State) : MateOnly k s s := ⟨⟨.refl s, fun _ _ _ => ⟨rfl, rfl⟩⟩, rfl, fun _ _ => rfl⟩

theorem MateOnly.status (h : MateOnly k s t) : t.word (R.TRK_CH_STATUS k) = s.word (R.TRK_CH_STATUS k) :=
  word_of_fld (h.flds _ (by simp))

theorem MateOnly.ctrl (h : MateOnly k s t) : t.word (R.TRK_CH_CTRL k) = s.word (R.TRK_CH_CTRL k) :=
  word_of_fld (h.flds _ (by simp))

theorem MateOnly.runBit (h : MateOnly k s t) :
    t.maskBit (R.TRK_RING_RUN (k / 32)) (k % 32) = s.maskBit (R.TRK_RING_RUN (k / 32)) (k % 32) := by
  have hf := h.flds ⟨R.TRK_RING_RUN (k / 32), k % 32, k % 32⟩ (by simp)
  have hb : t.bit ⟨R.TRK_RING_RUN (k / 32), k % 32, k % 32⟩ = s.bit ⟨R.TRK_RING_RUN (k / 32), k % 32, k % 32⟩ := by
    rw [State.bit, hf, State.bit]
  rwa [State.bit_eq_testBit, State.bit_eq_testBit] at hb

/-- A leader that starts changes its follower alone (R139). -/
theorem MateOnly.followLeader (hk : k < 320) (s : State) : MateOnly k s (Machine.followLeader k s) := by
  unfold Machine.followLeader
  split
  · next h =>
      simp only [Bool.and_eq_true, decide_eq_true_eq] at h
      exact (ChanOnly.ite (.enterFollow (k + 1) s) ((ChanOnly.haltChannel (k + 1) s).trans (.chanErr (k + 1) 4 ST.format _))).mateOnly
        hk h.1.1
  · exact .refl k s

/-- A leader that stops stops its follower (R139). -/
theorem MateOnly.stopChannel (hk : k < 320) (s : State) : MateOnly k (Machine.haltChannel k s) (Machine.stopChannel k s) := by
  unfold Machine.stopChannel
  extract_lets u
  split
  · next h =>
      simp only [Bool.and_eq_true, decide_eq_true_eq] at h
      exact ((ChanOnly.haltChannel (k + 1) u).trans (.chanErr (k + 1) 9 ST.abort _)).mateOnly hk h.1.1
  · exact .refl k u

end Sys2Proof.Machine
end

section
/-! PROOFS. O15, a channel's starts and stops (R138 to R140, R149). -/
namespace Sys2Proof.Machine

variable {s t u : State} {who : Reader} {k : Fin 320} {v : Word}

/-! Writes of the rings' registers under the access codes. -/

/-- No register of the rings has copies or fields that a write without Vault rights could offend. -/
theorem regPage10_lawful : ∀ r ∈ regPage10, r.perReader = false ∧ ∀ f ∈ r.fields, f.acc ≠ .vlt ∧ f.acc ≠ .vltWo := by
  decide

theorem vltOffends_of_lawful {fl : List FieldSpec} (h : ∀ f ∈ fl, f.acc ≠ .vlt ∧ f.acc ≠ .vltWo) (w v : Nat) :
    vltOffends w v fl = false := by
  rw [vltOffends, List.any_eq_false]
  intro f hf
  obtain ⟨h1, h2⟩ := h f hf
  split <;> simp_all

theorem regPage_rings {off : Nat} (h : 0x100000 ≤ off) (h' : off < 0x1A0000) : regPage off = regPage10 := by
  unfold regPage
  exact if_pos (by omega)

/-- A write of a ring's register under the access codes changes its word alone. -/
theorem WordsOnly.plainWrite_ring {off : Nat} (h : 0x100000 ≤ off) (h' : off < 0x1A0000) (who : Reader) (v : Word) (s : State) :
    WordsOnly [off] s (plainWrite who off v s) := by
  cases hr : regAt off with
  | none =>
    rw [plainWrite, hr]
    exact .refl _ s
  | some spec =>
    obtain ⟨hp, hf⟩ := regPage10_lawful spec (regPage_rings h h' ▸ List.mem_of_find?_eq_some hr)
    exact .plainWrite_of_lawful v hr hp (vltChecked_of_no_vlt (vltOffends_of_lawful hf))

theorem WordsOnly.plainWrite_chan {b : Nat} (h : 0x100000 ≤ b) (h' : b < 0x100080) (who : Reader) (k : Fin 320) (v : Word)
    (s : State) : WordsOnly [b + 0x10000 * (k.val / 32) + 0x80 * (k.val % 32)] s
      (plainWrite who (b + 0x10000 * (k.val / 32) + 0x80 * (k.val % 32)) v s) :=
  .plainWrite_ring (by omega) (by omega) who v s

/-- An access to a channel of a ring that is on has its effect. -/
theorem chGate_open {off : Nat} {g : State → State} (h : Open who off s) (hd : domainOn (5 + k.val / 32) s = true) :
    chGate who k off g s = g s := by
  rw [chGate, gate_open h.1 h.2, if_pos hd]

/-! A write of CTRL (R138, R149). -/

/-- The fields of TRK_CH_k_CTRL. -/
def trkCtrlFields : List FieldSpec := [fs 31 31 .rw 0x0, fs 30 30 .rw 0x0, fs 29 29 .rw 0x0, fs 28 28 .rw 0x1, fs 27 26 .rw 0x0,
  fs 25 24 .rw 0x0, fs 21 20 .rw 0x0, fs 15 8 .rw 0x0, fs 5 0 .rw 0x0]

theorem fieldsApart_trkCtrl : fieldsApart trkCtrlFields := by
  simp [fieldsApart, FieldSpec.apart, trkCtrlFields, fs]

theorem regAt_trkCtrl (k : Fin 320) :
    regAt (R.TRK_CH_CTRL k) = some ⟨0x100000, [(0x10000, 10), (0x80, 32)], 0, .d, false, trkCtrlFields⟩ := by
  rw [regAt, regPage_rings (by simp only [R.TRK_CH_CTRL]; omega) (by simp only [R.TRK_CH_CTRL]; omega), regPage10, regPage10_0,
    List.find?_cons_of_pos]
  · rfl
  · simp only [RegSpec.covers, coversDims, R.TRK_CH_CTRL, Bool.and_eq_true, decide_eq_true_eq, beq_iff_eq]
    omega

/-- CTRL written, before EN acts. -/
abbrev chCtrlWritten (who : Reader) (k : Nat) (v : Word) (s : State) : State := plainWrite who (R.TRK_CH_CTRL k) v s

theorem WordsOnly.chCtrlWritten (who : Reader) (k : Fin 320) (v : Word) (s : State) :
    WordsOnly [R.TRK_CH_CTRL k] s (Machine.chCtrlWritten who k v s) := .plainWrite_chan (by decide) (by decide) who k v s

theorem bit_chCtrlWritten {i rst : Nat} (hf : (fs i i .rw rst) ∈ trkCtrlFields) (who : Reader) (k : Fin 320) (v : Word) (s : State) :
    (chCtrlWritten who k v s).bit ⟨R.TRK_CH_CTRL k, i, i⟩ = v.getLsbD i := by
  rw [State.bit, fld_plainWrite_rw v (regAt_trkCtrl k) rfl fieldsApart_trkCtrl hf rfl, bitsOf_bit]
  rfl

theorem chState_chCtrlWritten (who : Reader) (k : Fin 320) (v : Word) (s : State) :
    chState k (chCtrlWritten who k v s) = chState k s :=
  (WordsOnly.chCtrlWritten who k v s).words.fld (by simp)

/-- PAIR is reserved on even channels: a word without it is written as it is. -/
theorem pairCleared_eq {k : Nat} (hv : k % 2 = 0 → v.getLsbD 29 = false) : (if k % 2 = 0 then v &&& 0xDFFFFFFF else v) = v := by
  split
  · next he =>
    rw [show (0xDFFFFFFF : Word) = ~~~BitVec.twoPow 32 29 by decide]
    refine BitVec.eq_of_getLsbD_eq fun i hi => ?_
    rw [BitVec.getLsbD_and, BitVec.getLsbD_not, BitVec.getLsbD_twoPow]
    by_cases h : i = 29
    · subst h
      rw [hv he, Bool.false_and]
    · simp [hi, Ne.symm h]
  · rfl

/-- The word of a start: EN over what is written. -/
abbrev startWord (v : Word) : Word := v ||| 0x80000000

theorem startWord_bit {i : Nat} (hi : i < 31) (v : Word) : (startWord v).getLsbD i = v.getLsbD i := by
  rw [startWord, show (0x80000000 : Word) = BitVec.twoPow 32 31 by decide, BitVec.getLsbD_or, BitVec.getLsbD_twoPow,
    decide_eq_false (by omega : ¬31 = i), Bool.and_false, Bool.or_false]

theorem startWord_en (v : Word) : (startWord v).getLsbD 31 = true := by
  simp [startWord]

theorem exec_channelStart (h : Open who (R.TRK_CH_CTRL k) s) (hd : domainOn (5 + k.val / 32) s = true) (hi : chState k s = 0)
    (hp : v.getLsbD 29 = false) :
    exec (.channelStart who k v) s = .next (tryStart k (chCtrlWritten who k (startWord v) s)) := by
  have he : exec (.channelStart who k v) s = .next (opChCtrlWrite who k (startWord v) s) := congrArg _ (chGate_open h hd)
  rw [he, opChCtrlWrite, pairCleared_eq fun _ => (startWord_bit (by decide) v).trans hp, if_pos hi, if_pos (startWord_en v)]

/-! Starts (R138, R149). -/

theorem startRefusal_codes {k reason result : Nat} (h : startRefusal k s = some (reason, result)) : reason < 16 ∧ result < 256 := by
  unfold startRefusal at h
  repeat' split at h
  all_goals cases h
  all_goals decide

/-- A channel that starts, REASON and RESULT cleared and its decoder taken over, before it enters RUN. -/
abbrev startReady (k : Nat) (u : State) : State := navRestart k (refusalNoted k 0 ST.ok u)

theorem startReady_spec (k : Fin 320) (u : State) : let t := startReady k u
    ChanOnly k u t ∧ t.tick = u.tick ∧ (∀ i, t.bit ⟨R.TRK_CH_CTRL k, i, i⟩ = u.bit ⟨R.TRK_CH_CTRL k, i, i⟩) ∧
      t.fld (F.TRK_CH_STATUS_REASON k) = 0 ∧ t.fld (F.TRK_CH_STATUS_RESULT k) = ST.ok := by
  have hn := WordsOnly.refusalNoted k 0 ST.ok u
  obtain ⟨hc, ht, hf⟩ := navRestart_spec k (refusalNoted k 0 ST.ok u)
  obtain ⟨h1, h2⟩ := fld_refusalNoted (reason := 0) (result := ST.ok) (by decide) (by decide) k u
  have low (c : Nat) (hc : c < 0x80) : 0x100000 + c + 0x10000 * (k.val / 32) + 0x80 * (k.val % 32) < 0x200000 := by omega
  refine ⟨(hn.chanOnly fun a ha => List.mem_singleton.1 ha ▸ chanKey_reg (by decide) (by decide) k).trans hc, ht.trans hn.tick,
    fun i => ?_, (hf _ (low 4 (by decide))).trans h1, (hf _ (low 4 (by decide))).trans h2⟩
  rw [State.bit, hf _ (low 0 (by decide)), ← State.bit]
  exact hn.words.bit (by simp)

theorem tryStart_refused {k reason result : Nat} (h : startRefusal k u = some (reason, result)) :
    tryStart k u = chanErr k reason result (u.setFld (F.TRK_CH_CTRL_EN k) 0) := by
  rw [tryStart, h]

theorem tryStart_atOnce {k : Nat} (h : startRefusal k u = none) (hp : (startReady k u).bit (F.TRK_CH_CTRL_PAIR k) = false)
    (hm : (startReady k u).bit (F.TRK_CH_CTRL_START_MODE k) = false) :
    tryStart k u = followLeader k (enterRun k ((startReady k u).tick + 1) 0 (startReady k u)) := by
  rw [tryStart, h]
  change startChannel k (startReady k u) = _
  rw [startChannel, isFollower, hp, Bool.and_false, if_neg Bool.false_ne_true, hm, Bool.not_false, if_pos rfl]

/-- A start at once lets the channel run from the next tick (R138). -/
theorem tryStart_runs (h : startRefusal k u = none) (hp : u.bit (F.TRK_CH_CTRL_PAIR k) = false)
    (hm : u.bit (F.TRK_CH_CTRL_START_MODE k) = false) : let t := tryStart k u
    PairOnly k u t ∧ chState k t = 2 ∧ t.fld (F.TRK_CH_STATUS_REASON k) = 0 ∧ t.fld (F.TRK_CH_STATUS_RESULT k) = ST.ok ∧
      (trkCh t k).at_ = u.tick + 1 ∧ t.maskBit (R.TRK_RING_RUN (k.val / 32)) (k.val % 32) = true := by
  obtain ⟨hc, ht, hb, hreason, hresult⟩ := startReady_spec k u
  rw [tryStart_atOnce h ((hb 29).trans hp) ((hb 30).trans hm)]
  generalize startReady k u = r at hc ht hreason hresult
  obtain ⟨hst, hrun, hat, -, hf⟩ := enterRun_runs k (r.tick + 1) 0 r
  have hmate := MateOnly.followLeader k.isLt (enterRun k (r.tick + 1) 0 r)
  refine ⟨((hc.trans (.enterRun k (r.tick + 1) 0 r)).pairOnly rfl).trans hmate.toPairOnly, (fld_congr hmate.status).trans hst,
    (fld_congr hmate.status).trans ((hf _ rfl (by simp)).trans hreason),
    (fld_congr hmate.status).trans ((hf _ rfl (by simp)).trans hresult), ?_, hmate.runBit.trans hrun⟩
  rw [hmate.chan, hat, ht]

theorem ChanOnly.chCtrlWritten (who : Reader) (k : Fin 320) (v : Word) (s : State) :
    ChanOnly k s (Machine.chCtrlWritten who k v s) :=
  (WordsOnly.chCtrlWritten who k v s).chanOnly fun a ha => List.mem_singleton.1 ha ▸ chanKey_reg (by decide) (by decide) k

theorem channelStart_runs (h : Open who (R.TRK_CH_CTRL k) s) (hd : domainOn (5 + k.val / 32) s = true) (hi : chState k s = 0)
    (hp : v.getLsbD 29 = false) (hm : v.getLsbD 30 = false) (hr : startRefusal k (chCtrlWritten who k (startWord v) s) = none) :
    ∃ t, exec (.channelStart who k v) s = .next t ∧ PairOnly k s t ∧ chState k t = 2 ∧ t.fld (F.TRK_CH_STATUS_REASON k) = 0 ∧
      t.fld (F.TRK_CH_STATUS_RESULT k) = ST.ok ∧ (trkCh t k).at_ = s.tick + 1 ∧
      t.maskBit (R.TRK_RING_RUN (k.val / 32)) (k.val % 32) = true := by
  have bit {i rst : Nat} (hf : (fs i i .rw rst) ∈ trkCtrlFields) (hi : i < 31) :=
    (bit_chCtrlWritten hf who k (startWord v) s).trans (startWord_bit hi v)
  obtain ⟨hpair, hst, hreason, hresult, hat, hrun⟩ := tryStart_runs hr ((bit (rst := 0) (by decide) (by decide)).trans hp)
    ((bit (rst := 0) (by decide) (by decide)).trans hm)
  exact ⟨_, exec_channelStart h hd hi hp, ((ChanOnly.chCtrlWritten who k (startWord v) s).pairOnly rfl).trans hpair, hst, hreason,
    hresult, hat.trans (by rw [(WordsOnly.chCtrlWritten who k (startWord v) s).tick]), hrun⟩

/-- A refused start leaves the channel IDLE with its reason (R149). -/
theorem channelStart_refused {reason result : Nat} (h : Open who (R.TRK_CH_CTRL k) s) (hd : domainOn (5 + k.val / 32) s = true)
    (hi : chState k s = 0) (hp : v.getLsbD 29 = false)
    (hr : startRefusal k (chCtrlWritten who k (startWord v) s) = some (reason, result)) :
    ∃ t, exec (.channelStart who k v) s = .next t ∧ PairOnly k s t ∧ chState k t = 0 ∧ t.bit (F.TRK_CH_CTRL_EN k) = false ∧
      t.fld (F.TRK_CH_STATUS_REASON k) = reason ∧ t.fld (F.TRK_CH_STATUS_RESULT k) = result ∧
      t.maskBit (R.TRK_RING_ERR_PEND (k.val / 32)) (k.val % 32) = true ∧
      (s.maskBit (R.TRK_RING_ERR_PEND (k.val / 32)) (k.val % 32) = false → EventUp (48 + k.val / 32) t) := by
  refine ⟨_, exec_channelStart h hd hi hp, ?_⟩
  rw [tryStart_refused hr]
  have hw : WordsOnly [R.TRK_CH_CTRL k] s ((chCtrlWritten who k (startWord v) s).setFld (F.TRK_CH_CTRL_EN k) 0) :=
    (WordsOnly.chCtrlWritten who k (startWord v) s).trans (.setFld (F.TRK_CH_CTRL_EN k) 0 _)
  have hen : ((chCtrlWritten who k (startWord v) s).setFld (F.TRK_CH_CTRL_EN k) 0).bit (F.TRK_CH_CTRL_EN k) = false :=
    State.bit_setFld_zero _ _ (by simp) (by simp)
  generalize (chCtrlWritten who k (startWord v) s).setFld (F.TRK_CH_CTRL_EN k) 0 = u at hw hen
  obtain ⟨hreason, hresult⟩ := startRefusal_codes hr
  obtain ⟨h1, h2⟩ := chanErr_shows hreason hresult k.isLt u
  obtain ⟨h3, h4⟩ := chanErr_pends k.isLt reason result u
  have herr : R.TRK_RING_ERR_PEND (k.val / 32) ∉ [R.TRK_CH_CTRL k.val] := by
    simp only [List.mem_singleton, R.TRK_RING_ERR_PEND, R.TRK_CH_CTRL]
    omega
  refine ⟨((hw.chanOnly fun a ha => List.mem_singleton.1 ha ▸ chanKey_reg (by decide) (by decide) k).trans
    (.chanErr k reason result u)).pairOnly rfl, ?_, ?_, h1, h2, h3, fun hn => h4 ((maskBit_congr (hw.words _ herr) _).trans hn)⟩
  · rw [chState_chanErr k.isLt]
    exact (hw.words.fld (by simp)).trans hi
  · rw [State.bit, fld_chanErr, ← State.bit, hen]
    · exact plainKey_ring (by simp only; omega) (by simp only; omega)
    · simp
    · simp only [R.TRK_RING_ERR_PEND]
      omega

/-! Stops (R140). -/

/-- A write that clears EN alone changes none of the locked bits (R149). -/
theorem stopWord_unlocked (w : Word) : ((w &&& 0x7FFFFFFF) ^^^ w) &&& lockedBits = 0 := by
  have h : (w &&& 0x7FFFFFFF) ^^^ w = w &&& ~~~0x7FFFFFFF := by
    refine BitVec.eq_of_getLsbD_eq fun i hi => ?_
    simp only [BitVec.getLsbD_xor, BitVec.getLsbD_and, BitVec.getLsbD_not, hi, decide_true, Bool.true_and]
    cases w.getLsbD i <;> simp
  rw [h, BitVec.and_assoc, show (~~~0x7FFFFFFF : Word) &&& lockedBits = 0 by decide]
  exact BitVec.and_zero

theorem exec_channelStop (h : Open who (R.TRK_CH_CTRL k) s) (hd : domainOn (5 + k.val / 32) s = true) (hc : chState k s ≠ 0)
    (hp : k.val % 2 = 1 ∨ s.bit (F.TRK_CH_CTRL_PAIR k) = false) : exec (.channelStop who k) s = .next (stopChannel k s) := by
  have he : exec (.channelStop who k) s = .next (opChCtrlWrite who k (s.word (R.TRK_CH_CTRL k) &&& 0x7FFFFFFF) s) :=
    congrArg _ (chGate_open h hd)
  have h29 (hev : k.val % 2 = 0) : (s.word (R.TRK_CH_CTRL k) &&& 0x7FFFFFFF).getLsbD 29 = false := by
    have hb := hp.resolve_left (by omega)
    rw [State.bit_eq_testBit] at hb
    rw [BitVec.getLsbD_and, BitVec.getLsbD, hb, Bool.false_and]
  have h31 : (s.word (R.TRK_CH_CTRL k) &&& 0x7FFFFFFF).getLsbD 31 = false := by
    rw [BitVec.getLsbD_and, show (0x7FFFFFFF : Word).getLsbD 31 = false by decide, Bool.and_false]
  rw [he, opChCtrlWrite, pairCleared_eq h29, if_neg hc, stopWord_unlocked, if_neg (not_not.2 rfl), h31, if_neg Bool.false_ne_true]

theorem channelStop_stops (h : Open who (R.TRK_CH_CTRL k) s) (hd : domainOn (5 + k.val / 32) s = true) (hc : chState k s ≠ 0)
    (hp : k.val % 2 = 1 ∨ s.bit (F.TRK_CH_CTRL_PAIR k) = false) :
    ∃ t, exec (.channelStop who k) s = .next t ∧ PairOnly k s t ∧ chState k t = 0 ∧ t.bit (F.TRK_CH_CTRL_EN k) = false ∧
      t.maskBit (R.TRK_RING_RUN (k.val / 32)) (k.val % 32) = false ∧ (trkCh t k).dumps = (trkCh s k).dumps := by
  have hm := MateOnly.stopChannel k.isLt s
  obtain ⟨hen, hrun, hdumps⟩ := haltChannel_stops k s
  exact ⟨_, exec_channelStop h hd hc hp, ((ChanOnly.haltChannel k s).pairOnly rfl).trans hm.toPairOnly,
    (fld_congr hm.status).trans (chState_haltChannel k s), (bit_congr hm.ctrl).trans hen, hm.runBit.trans hrun, hm.chan ▸ hdumps⟩

/-! A start at its time (R138). -/

theorem timedStart_waits (hs : chState k s = 1) (hf : isFollower k s = false) (hn : startPassed k s = none) :
    exec (.timedStart k) s = .next s := by
  change execTimedStart k s = _
  simp only [execTimedStart, hs, hf, hn, Bool.not_false, Bool.and_true, decide_true, if_true]

theorem exec_timedStart {m : Nat} (hs : chState k s = 1) (hf : isFollower k s = false) (hm : startPassed k s = some m) :
    exec (.timedStart k) s =
      .next (followLeader k (correlate k (trkCh (enterRun k s.tick m s) k) (enterRun k s.tick m s))) := by
  change execTimedStart k s = _
  simp only [execTimedStart, hs, hf, hm, Bool.not_false, Bool.and_true, decide_true, if_true]

theorem timedStart_runs {m : Nat} (hs : chState k s = 1) (hf : isFollower k s = false) (hm : startPassed k s = some m) :
    ∃ t, exec (.timedStart k) s = .next t ∧ PairOnly k s t ∧ chState k t = 2 ∧ (trkCh t k).at_ = s.tick ∧
      (trkCh t k).phase = (loadNco k s (trkCh s k)).phase + (trkCh s k).codeRate * m := by
  obtain ⟨hst, -, hat, hph, -⟩ := enterRun_runs k s.tick m s
  have hown := ChanOnly.enterRun k s.tick m s
  have he := exec_timedStart hs hf hm
  generalize enterRun k s.tick m s = r at hst hat hph hown he
  obtain ⟨hcor, hsums⟩ : (correlate k (trkCh r k) r).word (R.TRK_CH_STATUS k) = r.word (R.TRK_CH_STATUS k) ∧
      (trkCh (correlate k (trkCh r k) r) k).at_ = (trkCh r k).at_ ∧
      (trkCh (correlate k (trkCh r k) r) k).phase = (trkCh r k).phase := by
    rcases correlate_cases k (trkCh r k) r with h | ⟨n, acc, h⟩ <;> simp [h]
  have hmate := MateOnly.followLeader k.isLt (correlate k (trkCh r k) r)
  refine ⟨_, he, ((hown.trans (.correlate k (trkCh r k) r)).pairOnly rfl).trans hmate.toPairOnly,
    (fld_congr (hmate.status.trans hcor)).trans hst, ?_⟩
  rw [hmate.chan, hsums.1, hsums.2]
  exact ⟨hat, hph⟩

end Sys2Proof.Machine
end

section
/-! PROOFS. O15, writes to a channel: rates, adjustments, the secondary index and alignment (R131, R134 to R136, R143, R144). -/
namespace Sys2Proof.Machine

variable {s t : State} {who : Reader} {k : Fin 320} {v : Word}

theorem PairOnly.setTrkCh (k : Nat) (c : TrkCh) (s : State) : PairOnly k s (Machine.setTrkCh s k c) :=
  (ChanOnly.setTrkCh k c s).pairOnly rfl

theorem PairOnly.chanErr (k reason result : Nat) (s : State) : PairOnly k s (Machine.chanErr k reason result s) :=
  (ChanOnly.chanErr k reason result s).pairOnly rfl

/-! Rates and adjustments (R134 to R136). -/

theorem exec_rateWrite {carrier : Bool} (h : Open who (rateHiOff k carrier) s) (hd : domainOn (5 + k.val / 32) s = true) :
    exec (.rateWrite who k carrier v) s = .next (opRateHi k carrier v s) := congrArg _ (chGate_open h hd)

theorem rateWrite_code (h : Open who (rateHiOff k false) s) (hd : domainOn (5 + k.val / 32) s = true)
    (hf : isFollower k s = false) (hr : v.toNat % 2 ^ 16 * 2 ^ 32 + (trkCh s k).codeLo ≤ 2 ^ 45) :
    ∃ t, exec (.rateWrite who k false v) s = .next t ∧ PairOnly k s t ∧
      if chState k s = 0 then (trkCh t k).codeRate = v.toNat % 2 ^ 16 * 2 ^ 32 + (trkCh s k).codeLo ∧ (trkCh t k).codeNew = none
      else (trkCh t k).codeNew = some (v.toNat % 2 ^ 16 * 2 ^ 32 + (trkCh s k).codeLo, s.tick) := by
  have he := exec_rateWrite (v := v) h hd
  rw [opRateHi, hf, if_neg Bool.false_ne_true, if_neg Bool.false_ne_true, (RunSame.ncoNow k s).codeLo, if_pos hr] at he
  refine ⟨_, he, .setTrkCh k _ s, ?_⟩
  rw [trkCh_setTrkCh, if_pos rfl]
  split
  · exact ⟨rfl, rfl⟩
  · rfl

theorem rateWrite_carrier (h : Open who (rateHiOff k true) s) (hd : domainOn (5 + k.val / 32) s = true)
    (hf : isFollower k s = false) (hr : (toSigned 48 (v.toNat % 2 ^ 16 * 2 ^ 32 + (trkCh s k).carrLo)).natAbs ≤ 2 ^ 46) :
    ∃ t, exec (.rateWrite who k true v) s = .next t ∧ PairOnly k s t ∧
      if chState k s = 0 then (trkCh t k).carrRate = toSigned 48 (v.toNat % 2 ^ 16 * 2 ^ 32 + (trkCh s k).carrLo) ∧
        (trkCh t k).carrNew = none
      else (trkCh t k).carrNew = some (toSigned 48 (v.toNat % 2 ^ 16 * 2 ^ 32 + (trkCh s k).carrLo), s.tick) := by
  have he := exec_rateWrite (v := v) h hd
  rw [opRateHi, hf, if_neg Bool.false_ne_true, if_pos rfl, (RunSame.ncoNow k s).carrLo, if_pos hr] at he
  refine ⟨_, he, .setTrkCh k _ s, ?_⟩
  rw [trkCh_setTrkCh, if_pos rfl]
  split
  · exact ⟨rfl, rfl⟩
  · rfl

theorem rateWrite_refused (h : Open who (rateHiOff k false) s) (hd : domainOn (5 + k.val / 32) s = true)
    (hf : isFollower k s = false) (hr : 2 ^ 45 < v.toNat % 2 ^ 16 * 2 ^ 32 + (trkCh s k).codeLo) :
    ∃ t, exec (.rateWrite who k false v) s = .next t ∧ PairOnly k s t ∧ t.fld (F.TRK_CH_STATUS_REASON k) = 7 ∧
      t.fld (F.TRK_CH_STATUS_RESULT k) = ST.format ∧ trkCh t k = trkCh s k := by
  have he := exec_rateWrite (v := v) h hd
  rw [opRateHi, hf, if_neg Bool.false_ne_true, if_neg Bool.false_ne_true, (RunSame.ncoNow k s).codeLo,
    if_neg (Nat.not_le.2 hr)] at he
  obtain ⟨h1, h2⟩ := chanErr_shows (reason := 7) (result := ST.format) (by decide) (by decide) k.isLt s
  exact ⟨_, he, .chanErr k 7 ST.format s, h1, h2, trkCh_chanErr _ _ _ _ _⟩

theorem codeAdj_pends (h : Open who (R.TRK_CH_CODE_ADJ k) s) (hd : domainOn (5 + k.val / 32) s = true)
    (hf : isFollower k s = false) : ∃ t, exec (.codeAdj who k v) s = .next t ∧ PairOnly k s t ∧
      trkCh t k = { trkCh s k with adj := some (v.toInt, s.tick) } := by
  have he : exec (.codeAdj who k v) s = .next (opCodeAdj k v s) := congrArg _ (chGate_open h hd)
  rw [opCodeAdj, hf, if_neg Bool.false_ne_true] at he
  exact ⟨_, he, .setTrkCh k _ s, by rw [trkCh_setTrkCh, if_pos rfl]⟩

/-! The secondary index (R131). -/

theorem isFollower_congr {k : Nat} (h : t.word (R.TRK_CH_CTRL k) = s.word (R.TRK_CH_CTRL k)) : isFollower k t = isFollower k s := by
  rw [isFollower, bit_congr (f := F.TRK_CH_CTRL_PAIR k) h, isFollower]

theorem chLen_congr {k : Nat} (h : t.word (R.TRK_CH_CTRL k) = s.word (R.TRK_CH_CTRL k)) : chLen k t = chLen k s := by
  rw [chLen, chSig, fld_congr (f := F.TRK_CH_CTRL_SIG k) h]
  rfl

/-- A write of a register of a channel but CTRL and STATUS leaves what the NCOs depend on. -/
theorem ncoRegs_plainWrite {b : Nat} (h : 0x100008 ≤ b) (h' : b < 0x100080) (who : Reader) (k : Fin 320) (v : Word) (s : State)
    (l : Nat) :
    let t := plainWrite who (b + 0x10000 * (k.val / 32) + 0x80 * (k.val % 32)) v s
    trkCh t l = trkCh s l ∧ t.tick = s.tick ∧ t.word (R.TRK_CH_STATUS l) = s.word (R.TRK_CH_STATUS l) ∧
      t.word (R.TRK_CH_CTRL l) = s.word (R.TRK_CH_CTRL l) := by
  have hw := WordsOnly.plainWrite_chan (by omega) h' who k v s
  refine ⟨hw.trkCh l, hw.tick, hw.words _ ?_, hw.words _ ?_⟩ <;>
    · simp only [List.mem_singleton, R.TRK_CH_STATUS, R.TRK_CH_CTRL]
      omega

theorem PairOnly.plainWrite_chan {b : Nat} (h : 0x100000 ≤ b) (h' : b < 0x100080) (who : Reader) (k : Fin 320) (v : Word) (s : State) :
    PairOnly k s (plainWrite who (b + 0x10000 * (k.val / 32) + 0x80 * (k.val % 32)) v s) :=
  ((WordsOnly.plainWrite_chan h h' who k v s).chanOnly fun _ ha => List.mem_singleton.1 ha ▸ chanKey_reg h h' k).pairOnly rfl

/-- SEC written, before SET acts. -/
abbrev secWritten (who : Reader) (k : Nat) (v : Word) (s : State) : State := plainWrite who (R.TRK_CH_SEC k) v s

theorem exec_secSet (h : Open who (R.TRK_CH_SEC k) s) (hd : domainOn (5 + k.val / 32) s = true) :
    exec (.secSet who k v) s = .next (opSecWrite who k v s) := congrArg _ (chGate_open h hd)

theorem secSet_atOnce (h : Open who (R.TRK_CH_SEC k) s) (hd : domainOn (5 + k.val / 32) s = true) (hv : v.getLsbD 30 = true)
    (hs : chState k s ≠ 2) : ∃ t, exec (.secSet who k v) s = .next t ∧ PairOnly k s t ∧
      (trkCh t k).idx = v.toNat % 2 ^ 11 ∧ (trkCh t k).secSet = none := by
  obtain ⟨-, -, hst, -⟩ := ncoRegs_plainWrite (b := 0x100014) (by decide) (by decide) who k v s k
  have hs' : chState k (secWritten who k v s) ≠ 2 := (fld_congr hst).trans_ne hs
  have he := exec_secSet (v := v) h hd
  rw [opSecWrite, if_pos hv, if_neg hs'] at he
  refine ⟨_, he, (PairOnly.plainWrite_chan (by decide) (by decide) who k v s).trans (.setTrkCh k _ _), ?_⟩
  rw [trkCh_setTrkCh, if_pos rfl]
  exact ⟨rfl, rfl⟩

theorem secSet_pends (h : Open who (R.TRK_CH_SEC k) s) (hd : domainOn (5 + k.val / 32) s = true) (hv : v.getLsbD 30 = true)
    (hs : chState k s = 2) : ∃ t, exec (.secSet who k v) s = .next t ∧ PairOnly k s t ∧
      (trkCh t k).secSet = some (v.toNat % 2 ^ 11, (ncoNow (ncoOf k s) s).epochs (chLen (ncoOf k s) s) + 1) := by
  have regs := ncoRegs_plainWrite (b := 0x100014) (by decide) (by decide) who k v s
  have hs' : chState k (secWritten who k v s) = 2 := (fld_congr (regs k).2.2.1).trans hs
  have hl : ncoOf k (secWritten who k v s) = ncoOf k s := by
    rw [ncoOf, isFollower_congr (regs k).2.2.2, ncoOf]
  obtain ⟨hc, ht, hst, hctrl⟩ := regs (ncoOf k s)
  have he := exec_secSet (v := v) h hd
  rw [opSecWrite, if_pos hv, if_pos hs', hl, ncoNow_congr hc ht hst hctrl, chLen_congr hctrl] at he
  refine ⟨_, he, (PairOnly.plainWrite_chan (by decide) (by decide) who k v s).trans (.setTrkCh k _ _), ?_⟩
  rw [trkCh_setTrkCh, if_pos rfl]

/-! ALIGN_GO (R143, R144). -/

theorem bitsOf_startWord {hi lo : Nat} (h : hi < 31) (v : Word) : bitsOf (startWord v).toNat hi lo = bitsOf v.toNat hi lo := by
  refine Nat.eq_of_testBit_eq fun i => ?_
  rw [testBit_bitsOf, testBit_bitsOf]
  by_cases hi' : i < hi + 1 - lo
  · rw [show (startWord v).toNat.testBit (lo + i) = v.toNat.testBit (lo + i) from startWord_bit (by omega) v]
  · simp [hi']

theorem startWord_low (v : Word) : (startWord v).toNat % 256 = v.toNat % 256 := by
  simpa [bitsOf] using bitsOf_startWord (hi := 7) (lo := 0) (by decide) v

theorem exec_alignGo (h : Open who (R.TRK_CH_INT k) s) (hd : domainOn (5 + k.val / 32) s = true) :
    exec (.alignGo who k v) s = .next (opIntWrite who k (startWord v) s) := congrArg _ (chGate_open h hd)

theorem alignGo_refused (h : Open who (R.TRK_CH_INT k) s) (hd : domainOn (5 + k.val / 32) s = true) (hf : isFollower k s = false)
    (hs : chState k s = 2) (hn : intOk k (v.toNat % 256) s = false) : ∃ t, exec (.alignGo who k v) s = .next t ∧ PairOnly k s t ∧
      t.fld (F.TRK_CH_STATUS_REASON k) = 6 ∧ t.word (R.TRK_CH_INT k) = s.word (R.TRK_CH_INT k) ∧ trkCh t k = trkCh s k := by
  have he := exec_alignGo (v := v) h hd
  rw [opIntWrite, startWord_low, hs, hf, hn, if_pos (by decide)] at he
  obtain ⟨h1, -⟩ := chanErr_shows (reason := 6) (result := ST.format) (by decide) (by decide) k.isLt s
  refine ⟨_, he, .chanErr k 6 ST.format s, h1, word_of_fld (fld_chanErr ?_ ?_ ?_ _ _ s), trkCh_chanErr _ _ _ _ _⟩
  · exact plainKey_ring (by simp only [R.TRK_CH_INT]; omega) (by simp only [R.TRK_CH_INT]; omega)
  · simp
  · simp only [R.TRK_CH_INT, R.TRK_RING_ERR_PEND]
    omega

theorem alignGo_ends (h : Open who (R.TRK_CH_INT k) s) (hd : domainOn (5 + k.val / 32) s = true) (hf : isFollower k s = false)
    (hs : chState k s = 2) (hn : intOk k (v.toNat % 256) s = true) (ha : bitsOf v.toNat 23 16 ≠ 0) (hc : (trkCh s k).n0 ≠ 0) :
    ∃ t, exec (.alignGo who k v) s = .next t ∧ PairOnly k s t ∧
      (trkCh t k).uEnd = (ncoNow k s).phase / unitPhase k s + bitsOf v.toNat 23 16 := by
  have hpair := PairOnly.plainWrite_chan (b := 0x100008) (by decide) (by decide) who k (startWord v) s
  obtain ⟨hch, ht, hst, hctrl⟩ := ncoRegs_plainWrite (b := 0x100008) (by decide) (by decide) who k (startWord v) s k
  have he := exec_alignGo (v := v) h hd
  rw [opIntWrite, startWord_low, hs, hf, hn, if_neg (by decide)] at he
  simp only [Bool.false_eq_true, if_false] at he
  generalize plainWrite who _ (startWord v) s = u at hpair hch ht hst hctrl he
  rw [show chState k u = 2 from (fld_congr hst).trans hs, if_pos (by decide), ncoNow_congr hch ht hst hctrl, unitPhase_congr hctrl,
    bitsOf_startWord (by decide), startWord_en, if_pos (by simp [ha, (RunSame.ncoNow k s).n0, hc])] at he
  refine ⟨_, he, hpair.trans (.setTrkCh k _ u), ?_⟩
  rw [trkCh_setTrkCh, if_pos rfl]

end Sys2Proof.Machine
end

section
/-! PROOFS. O15, a ring's power (R125, R533, R534). -/
namespace Sys2Proof.Machine

variable {s t u : State} {who : Reader} {v : Word} {j k : Nat}

/-! A write of a ring's CTRL. -/

/-- The fields of TRK_RING_n_CTRL. -/
def ringCtrlFields : List FieldSpec := [fs 1 1 .ro 0x0, fs 0 0 .rw 0x0]

theorem fieldsApart_ringCtrl : fieldsApart ringCtrlFields := by
  simp [fieldsApart, FieldSpec.apart, ringCtrlFields, fs]

theorem regAt_ringCtrl : ∀ n : Fin 10,
    regAt (R.TRK_RING_CTRL n) = some ⟨R.TRK_RING_CTRL 0, [(0x10000, 10)], 0, .d, false, ringCtrlFields⟩ := by
  decide

/-- CTRL written, before PWR acts. -/
abbrev ringCtrlWritten (who : Reader) (n : Nat) (v : Word) (s : State) : State := plainWrite who (R.TRK_RING_CTRL n) v s

theorem WordsOnly.ringCtrlWritten (who : Reader) (n : Fin 10) (v : Word) (s : State) :
    WordsOnly [R.TRK_RING_CTRL n] s (Machine.ringCtrlWritten who n v s) :=
  .plainWrite_ring (by simp only [R.TRK_RING_CTRL]; omega) (by simp only [R.TRK_RING_CTRL]; omega) who v s

theorem pwr_ringCtrlWritten (who : Reader) (n : Fin 10) (v : Word) (s : State) :
    (ringCtrlWritten who n v s).bit (F.TRK_RING_CTRL_PWR n) = decide (v.toNat % 2 = 1) := by
  rw [State.bit, fld_plainWrite_rw (rst := 0) (l := .any) v (regAt_ringCtrl n) rfl fieldsApart_ringCtrl (by decide) rfl,
    bitsOf_bit, Nat.testBit_zero]

theorem exec_ringPower {n : Fin 10} (h : Open who (R.TRK_RING_CTRL n) s) :
    exec (.ringPower who n v) s = .next (ringPwr n (ringCtrlWritten who n v s)) := congrArg _ (gate_open h.1 h.2)

theorem domainOn_congr (h : t.word R.PWR_DOMAIN = s.word R.PWR_DOMAIN) (d : Nat) : domainOn d t = domainOn d s := maskBit_congr h d

theorem WordsOnly.canGrant {ks : List Nat} (h : WordsOnly ks s t) (hk : R.CK_STATUS ∉ ks) (d : Nat) :
    Machine.canGrant d t = Machine.canGrant d s := by
  simp only [Machine.canGrant, State.coarse, h.budget, h.tick, h.words.bit (f := F.CK_STATUS_CORE_HOLD) hk]

/-- PWR asks for the domain's start; BUSY shows whether it waits (R125, R533). -/
theorem ringPower_asks {n : Fin 10} (h : Open who (R.TRK_RING_CTRL n) s) (hv : v.toNat % 2 = 1)
    (hd : domainOn (5 + n.val) s = false) (hq : startQueued (5 + n.val) s = false) :
    ∃ t, exec (.ringPower who n v) s = .next t ∧ MemsSame s t ∧ t.budget.queue = s.budget.queue ++ [⟨5 + n.val, s.tick, none⟩] ∧
      t.bit (F.TRK_RING_CTRL_BUSY n) = (!s.budget.queue.isEmpty || !canGrant (5 + n.val) s) := by
  have hw := WordsOnly.ringCtrlWritten who n v s
  have hd' : domainOn (5 + n.val) (ringCtrlWritten who n v s) = false :=
    (domainOn_congr (hw.words _ (by simp only [List.mem_singleton, R.PWR_DOMAIN, R.TRK_RING_CTRL]; omega)) _).trans hd
  have hq' : startQueued (5 + n.val) (ringCtrlWritten who n v s) = false := by rwa [startQueued, hw.budget]
  have hg := hw.canGrant (by simp only [List.mem_singleton, R.CK_STATUS, R.TRK_RING_CTRL]; omega) (5 + n.val)
  have hb := pwr_ringCtrlWritten who n v s
  rw [decide_eq_true hv] at hb
  have he := exec_ringPower (v := v) h
  rw [ringPwr, if_pos hb, hd', hq', if_neg (by decide)] at he
  have hm : MemsSame (ringCtrlWritten who n v s) (requestStart (5 + n.val) none (ringCtrlWritten who n v s)) :=
    (Acts.requestStart (T := [none]) (x := 0) (by decide) (by simp) _ _).mems
  refine ⟨_, he, (hw.memsSame.trans hm).trans (.setFld _ _ _), ?_, ?_⟩
  · exact (queue_requestStart none hd' hq').trans (by rw [hw.budget, hw.tick])
  · rw [State.bit_setBit _ _ _ (by simp) (by simp), hg, hw.budget]

/-! A ring that goes off (R125, R396, R534). -/

/-- A channel of a ring that goes off. -/
def chanAborted (k : Nat) (s : State) : State :=
  let s := setTrkCh s k { trkCh s k with dumps := [] }
  if chState k s = 0 then s else chanErr k 10 ST.abort (haltChannel k s)

theorem abortRing_eq (n : Nat) (s : State) : abortRing n s = (List.range 32).foldl (fun s c => chanAborted (32 * n + c) s) s := rfl

theorem ChanOnly.chanAborted (k : Nat) (s : State) : ChanOnly k s (Machine.chanAborted k s) := by
  unfold Machine.chanAborted
  extract_lets c u
  have hu : ChanOnly k s u := .setTrkCh k _ s
  exact .ite hu ((hu.trans (.haltChannel k u)).trans (.chanErr k 10 ST.abort _))

theorem chState_chanAborted (hk : k < 320) (s : State) : chState k (chanAborted k s) = 0 := by
  unfold chanAborted
  extract_lets c u
  split
  · assumption
  · rw [chState_chanErr hk, chState_haltChannel]

theorem ChanOnly.chState (h : ChanOnly k s t) (hj : j < 320) (hne : j ≠ k) : Machine.chState j t = Machine.chState j s := by
  refine h.flds _ ?_
  simp only [Fld.foreign, chanPage, R.TRK_RING_RUN, R.TRK_RING_ERR_PEND]
  omega

/-- The first channels of a ring aborted: they are IDLE, and the channels of other rings stand. -/
theorem abort_upTo {n m : Nat} (hn : n < 10) (hm : m ≤ 32) (s : State) :
    let t := (List.range m).foldl (fun s c => chanAborted (32 * n + c) s) s
    MemsSame s t ∧ (∀ j < m, chState (32 * n + j) t = 0) ∧
      ∀ j < 320, j / 32 ≠ n → chState j t = chState j s ∧ trkCh t j = trkCh s j := by
  induction m with
  | zero => exact ⟨.refl s, fun _ h => absurd h (Nat.not_lt_zero _), fun _ _ _ => ⟨rfl, rfl⟩⟩
  | succ m ih =>
    obtain ⟨hmem, hidle, hrest⟩ := ih (by omega)
    simp only [List.range_succ, List.foldl_append, List.foldl_cons, List.foldl_nil]
    generalize (List.range m).foldl (fun s c => chanAborted (32 * n + c) s) s = u at hmem hidle hrest
    have h := ChanOnly.chanAborted (32 * n + m) u
    refine ⟨hmem.trans h.mems, fun j hj => ?_, fun j hj hr => ?_⟩
    · rcases Nat.lt_succ_iff_lt_or_eq.1 hj with hj | rfl
      · exact (h.chState (by omega) (by omega)).trans (hidle j hj)
      · exact chState_chanAborted (by omega) u
    · obtain ⟨h1, h2⟩ := hrest j hj hr
      exact ⟨(h.chState hj (by omega)).trans h1, (h.chans j (by omega)).trans h2⟩

theorem domainStop_eq (d : Nat) (u : State) :
    ∃ b, WordsOnly [R.PWR_START_DEFER, R.PWR_DOMAIN] { u with budget := b } (domainStop d u) :=
  ⟨_, ((WordsOnly.setFld F.PWR_START_DEFER_QUEUED _ _).mono (by simp)).trans
    ((WordsOnly.setMaskBit R.PWR_DOMAIN d false _).mono (by simp))⟩

theorem seqHalt_eq (n : Nat) (u : State) : ∃ q : Seq, q.run = .halted ∧ WordsOnly [R.SQ_CTRL n] (u.setSeq n q) (seqHalt n u) :=
  ⟨{ u.seq n with run := .halted, dbgHalt := false, rep := none }, rfl, .setFld (F.SQ_CTRL_RUN n) 0 _⟩

theorem WordsOnly.seq {ks : List Nat} (h : WordsOnly ks s t) (n : Nat) : t.seq n = s.seq n := by
  have hq : t.seqs = s.seqs := (congrArg State.seqs h.rest :)
  rw [State.seq, hq, State.seq]

/-- The domain's stop and its sequencer's halt leave the rings' registers. -/
theorem ringStopped_spec {n : Nat} (hn : n < 10) (u : State) : let t := seqHalt n (domainStop (5 + n) u)
    MemsSame u t ∧ (∀ j, trkCh t j = trkCh u j) ∧ (∀ f : Fld, f.off < 0x200000 → t.fld f = u.fld f) ∧
      domainOn (5 + n) t = false ∧ (t.seq n).run = .halted := by
  obtain ⟨b, hd⟩ := domainStop_eq (5 + n) u
  have hoff : domainOn (5 + n) (domainStop (5 + n) u) = false :=
    (State.maskBit_setMaskBit _ _ _ _ _ _ (by omega)).trans (if_pos ⟨rfl, rfl⟩)
  obtain ⟨q, hq, hs⟩ := seqHalt_eq n (domainStop (5 + n) u)
  have hb : MemsSame u { u with budget := b } := ⟨rfl, rfl, rfl, rfl⟩
  have hm (u : State) : MemsSame u (u.setSeq n q) := ⟨rfl, rfl, rfl, rfl⟩
  refine ⟨((hb.trans hd.memsSame).trans (hm _)).trans hs.memsSame, fun j => ?_, fun f hf => ?_, ?_, ?_⟩
  · exact (hs.trkCh j).trans ((trkCh_congr (State.setSeq_trk _ n q) j).trans ((hd.trkCh j).trans (trkCh_congr rfl j)))
  · refine (hs.words.fld ?_).trans ((State.fld_setSeq _ n q f).trans ((hd.words.fld ?_).trans rfl)) <;>
      · simp only [List.mem_cons, List.not_mem_nil, or_false, R.SQ_CTRL, R.PWR_START_DEFER, R.PWR_DOMAIN]
        omega
  · refine (domainOn_congr ((hs.words _ ?_).trans (State.word_setSeq _ n _ q)) _).trans hoff
    simp only [List.mem_singleton, R.SQ_CTRL, R.PWR_DOMAIN]
    omega
  · rw [hs.seq, State.seq_setSeq, hq]

theorem ringPower_stops {n : Fin 10} (h : Open who (R.TRK_RING_CTRL n) s) (hv : v.toNat % 2 = 0)
    (hd : domainOn (5 + n.val) s = true) :
    ∃ t, exec (.ringPower who n v) s = .next t ∧ MemsSame s t ∧ domainOn (5 + n.val) t = false ∧
      (∀ j < 32, chState (32 * n + j) t = 0) ∧ (t.seq n).run = .halted ∧
      ∀ j < 320, j / 32 ≠ n.val → chState j t = chState j s ∧ trkCh t j = trkCh s j := by
  have hw : WordsOnly [R.TRK_RING_CTRL n] s ((ringCtrlWritten who n v s).setFld (F.TRK_RING_CTRL_BUSY n) 0) :=
    (WordsOnly.ringCtrlWritten who n v s).trans (.setFld (F.TRK_RING_CTRL_BUSY n) 0 _)
  have hb := pwr_ringCtrlWritten who n v s
  rw [decide_eq_false (by omega)] at hb
  have he := exec_ringPower (v := v) h
  rw [ringPwr, hb, if_neg Bool.false_ne_true] at he
  dsimp only at he
  generalize (ringCtrlWritten who n v s).setFld (F.TRK_RING_CTRL_BUSY n) 0 = u at hw he
  have hd' : domainOn (5 + n.val) u = true :=
    (domainOn_congr (hw.words _ (by simp only [List.mem_singleton, R.PWR_DOMAIN, R.TRK_RING_CTRL]; omega)) _).trans hd
  rw [if_pos hd'] at he
  obtain ⟨hmem, hidle, hrest⟩ := abort_upTo n.isLt (Nat.le_refl 32) u
  rw [← abortRing_eq] at hmem hidle hrest
  obtain ⟨hm, htrk, hf, hoff, hhalt⟩ := ringStopped_spec n.isLt (abortRing n u)
  have hst (j : Nat) (hj : j < 320) := hf (F.TRK_CH_STATUS_STATE j) (by simp only; omega)
  refine ⟨_, he, (hw.memsSame.trans hmem).trans hm, hoff, fun j hj => (hst _ (by omega)).trans (hidle j hj), hhalt, fun j hj hr => ?_⟩
  obtain ⟨h1, h2⟩ := hrest j hj hr
  have hs : chState j u = chState j s := hw.words.fld (by simp only [List.mem_singleton, R.TRK_RING_CTRL]; omega)
  exact ⟨((hst j hj).trans h1).trans hs, ((htrk j).trans h2).trans (hw.trkCh j)⟩

end Sys2Proof.Machine
end

section
/-! PROOFS. O15, the starts that the budget grants (R56, R533). -/
namespace Sys2Proof.Machine

variable {s t u : State}

/-! Deferred occurrences (R56). -/

/-- What holds of a table's values and of the default holds of what a read gives. -/
theorem Sparse.get_of_forall {α : Type} {d : Nat → α} {P : α → Prop} {m : Sparse α} {k : Nat}
    (h : ∀ p ∈ m, P p.2) (hd : P (d k)) :
    P (Sparse.get d m k) := by
  induction m with
  | nil => exact hd
  | cons p m ih =>
    unfold Sparse.get
    split
    · exact h p List.mem_cons_self
    · exact ih fun q hq => h q (List.mem_cons_of_mem _ hq)

theorem ttExpireAll_of_none (h : ∀ p ∈ s.tt, p.2.waiting = none) : ttExpireAll s = s := by
  have one (i : Nat) : ttExpire i s = s := by
    have hw : (ttEntry s i).waiting = none := Sparse.get_of_forall (P := fun e : TtEntry => e.waiting = none) h rfl
    simp only [ttExpire, hw]
  unfold ttExpireAll
  generalize s.tt = l
  induction l with
  | nil => rfl
  | cons p l ih => rw [List.foldl_cons, one, ih]

/-! The grant (R533, R535). -/

/-- The oldest request off the queue, and its domain on. -/
def headStarted (r : StartReq) (rest : List StartReq) (s : State) : State :=
  let old := s.budget.grants.filter (fun g => decide (s.tick < g.1 + 1200))
  (syncQueued { s with budget := { queue := rest, grants := (s.tick, inrush r.domain) :: old } }).setMaskBit R.PWR_DOMAIN r.domain true

/-- Beyond that a grant shows the deferral alone (R535). -/
theorem WordsOnly.grantHead {r : StartReq} {rest : List StartReq} (hq : s.budget.queue = r :: rest) :
    WordsOnly (R.PWR_START_DEFER :: evKeys 28) (headStarted r rest s) (Machine.grantHead s) := by
  unfold Machine.grantHead
  split
  · next h => simp [hq] at h
  · next h =>
    obtain ⟨rfl, rfl⟩ := List.cons.inj (hq.symm.trans h)
    extract_lets old s₁ us s₂
    have h₂ : WordsOnly (R.PWR_START_DEFER :: evKeys 28) (headStarted r rest s) s₂ := by
      simp only [s₂]
      split
      · exact (WordsOnly.setFld F.PWR_START_DEFER_MAX_US us s₁).mono (by simp)
      · exact .refl _ s₁
    split
    · exact h₂.trans (.flagEvent F.PWR_START_DEFER_DEFER 28 s₂)
    · exact h₂

theorem grantHead_spec {r : StartReq} {rest : List StartReq} (hq : s.budget.queue = r :: rest) (hr : r.domain < 23) :
    let t := grantHead s
    MemsSame s t ∧ t.budget.queue = rest ∧ domainOn r.domain t = true := by
  have hw := WordsOnly.grantHead hq
  have hset (b : Budget) : MemsSame s { s with budget := b } := ⟨rfl, rfl, rfl, rfl⟩
  have hm : MemsSame s (headStarted r rest s) :=
    ((hset _).trans (.setFld F.PWR_START_DEFER_QUEUED _ _)).trans (.setFld ⟨R.PWR_DOMAIN, r.domain, r.domain⟩ 1 _)
  have hb : (headStarted r rest s).budget.queue = rest := by
    rw [headStarted, State.setMaskBit_budget, syncQueued, State.setFld_budget]
  have hdom : domainOn r.domain (headStarted r rest s) = true :=
    (State.maskBit_setMaskBit _ _ _ _ _ _ (by omega)).trans (if_pos ⟨rfl, rfl⟩)
  exact ⟨hm.trans hw.memsSame, hw.budget ▸ hb, (domainOn_congr (hw.words _ (by decide)) _).trans hdom⟩

/-- What a domain that begins its start leaves: the memories, the budget and the domains that are on. -/
structure GrantKeeps (s t : State) : Prop where
  mems : MemsSame s t
  budget : t.budget = s.budget
  domains : t.word R.PWR_DOMAIN = s.word R.PWR_DOMAIN

theorem GrantKeeps.refl (s : State) : GrantKeeps s s := ⟨.refl s, rfl, rfl⟩

theorem GrantKeeps.trans (h : GrantKeeps s t) (k : GrantKeeps t u) : GrantKeeps s u :=
  ⟨h.mems.trans k.mems, k.budget.trans h.budget, k.domains.trans h.domains⟩

theorem GrantKeeps.ite {c : Prop} [Decidable c] (ht : GrantKeeps s t) (hu : GrantKeeps s u) : GrantKeeps s (if c then t else u) := by
  split <;> assumption

theorem GrantKeeps.foldl {α : Type} {f : State → α → State} (hf : ∀ s a, GrantKeeps s (f s a)) (l : List α) (s : State) :
    GrantKeeps s (l.foldl f s) := by
  induction l generalizing s with
  | nil => exact .refl s
  | cons a l ih => exact (hf s a).trans (ih _)

theorem GrantKeeps.setFld {f : Fld} (h : f.off ≠ R.PWR_DOMAIN) (v : Nat) (s : State) : GrantKeeps s (s.setFld f v) :=
  ⟨.setFld f v s, State.setFld_budget s f v, State.word_setFld_ne s v (Ne.symm h)⟩

theorem GrantKeeps.chainGranted {x : Nat} (hx : x < 4) (s : State) : GrantKeeps s (Machine.chainGranted x s) := by
  have hset : GrantKeeps s (setChain s x { chain s x with step := .wake, cold := false }) := ⟨⟨rfl, rfl, rfl, rfl⟩, rfl, rfl⟩
  exact .ite (hset.trans (.setFld (by simp only [R.PWR_DOMAIN]; omega) 1 _)) (.refl s)

theorem GrantKeeps.bcnGranted (s : State) : GrantKeeps s (Machine.bcnGranted s) :=
  .ite ⟨⟨rfl, rfl, rfl, rfl⟩, rfl, rfl⟩ (.refl s)

theorem GrantKeeps.groupGranted (g : Nat) (s : State) : GrantKeeps s (Machine.groupGranted g s) := by
  have hset (s : State) (l : Nat) (x : Lane) : GrantKeeps s (setLane s l x) := ⟨⟨rfl, rfl, rfl, rfl⟩, rfl, rfl⟩
  unfold Machine.groupGranted
  exact .foldl (fun s i => hset s _ _) _ s

theorem Sparse.get_keep {α : Type} {d : Nat → α} (p : Nat → Bool) (m : Sparse α) {k : Nat} (h : p k = true) :
    Sparse.get d (Sparse.keep p m) k = Sparse.get d m k := by
  induction m with
  | nil => rfl
  | cons e m ih =>
    obtain ⟨a, v⟩ := e
    rw [Sparse.keep] at ih ⊢
    by_cases hk : k = a
    · subst hk
      simp [h, Sparse.get]
    · cases ha : p a <;> simp [ha, Sparse.get, hk, ih]

theorem GrantKeeps.resetRingChannels {n : Nat} (hn : n < 10) (s : State) : GrantKeeps s (Machine.resetRingChannels n s) := by
  refine ⟨⟨rfl, rfl, rfl, rfl⟩, rfl, ?_⟩
  have hr : (Machine.resetRingChannels n s).regs = Sparse.keep (fun a => !(decide (0x100000 + 0x10000 * n ≤ a) &&
    decide (a < 0x100000 + 0x10000 * n + 0x1000))) s.regs := rfl
  rw [State.word, hr, State.word]
  refine Sparse.get_keep _ s.regs ?_
  simp only [R.PWR_DOMAIN, Bool.not_eq_true', Bool.and_eq_false_iff, decide_eq_false_iff_not]
  omega

theorem GrantKeeps.ringGranted {n : Nat} (hn : n < 10) (s : State) : GrantKeeps s (Machine.ringGranted n s) := by
  have hseq (q : Seq) (u : State) : GrantKeeps u (u.setSeq n q) := ⟨⟨rfl, rfl, rfl, rfl⟩, rfl, rfl⟩
  exact ((GrantKeeps.resetRingChannels hn s).trans (.setFld (by simp only [R.PWR_DOMAIN]; omega) 0 _)).trans (hseq _ _)

theorem GrantKeeps.domainGranted {d : Nat} (hd : d < 23) (s : State) : GrantKeeps s (Machine.domainGranted d s) := by
  unfold Machine.domainGranted
  split
  · exact .chainGranted (by assumption) s
  · split
    · exact .bcnGranted s
    · split
      · exact .ringGranted (by omega) s
      · exact .groupGranted _ s

variable {r : StartReq} {rest : List StartReq}

theorem exec_domainStartGrant (hh : s.pwr.hib = false) (hw : ∀ p ∈ s.tt, p.2.waiting = none) (hq : s.budget.queue = r :: rest)
    (ht : r.tt = none) : exec .domainStartGrant s =
      .next (if !canGrant r.domain s then s else domainGranted r.domain (grantHead s)) := by
  change execDomainStartGrant s = _
  simp only [execDomainStartGrant, hh, ttExpireAll_of_none hw, hq, ht, Bool.false_eq_true, if_false]

/-- The oldest request is granted as soon as the budget allows (R533). -/
theorem domainStartGrant_grants (hh : s.pwr.hib = false) (hw : ∀ p ∈ s.tt, p.2.waiting = none) (hq : s.budget.queue = r :: rest)
    (hr : r.domain < 23) (ht : r.tt = none) (hg : canGrant r.domain s = true) :
    ∃ t, exec .domainStartGrant s = .next t ∧ MemsSame s t ∧ domainOn r.domain t = true ∧ t.budget.queue = rest := by
  obtain ⟨hm, hrest, hon⟩ := grantHead_spec hq hr
  obtain ⟨hm', hb, hd⟩ := GrantKeeps.domainGranted hr (grantHead s)
  refine ⟨_, (exec_domainStartGrant hh hw hq ht).trans (by rw [hg]; rfl), hm.trans hm', (domainOn_congr hd _).trans hon, ?_⟩
  rw [hb, hrest]

theorem domainStartGrant_waits (hh : s.pwr.hib = false) (hw : ∀ p ∈ s.tt, p.2.waiting = none) (hq : s.budget.queue = r :: rest)
    (ht : r.tt = none) (hg : canGrant r.domain s = false) : exec .domainStartGrant s = .next s := by
  rw [exec_domainStartGrant hh hw hq ht, hg]
  rfl

end Sys2Proof.Machine
end

section
/-! PROOFS. O15: tracking rings and channels (R125, R131, R134 to R140, R143, R144, R149, R533, R534). -/
namespace Sys2Proof.Machine

variable {s : State} {i : Instr} {k : Nat} {post : State → Prop}

/-- An answer that leaves the other pairs, in the words of the statement. -/
theorem PairOnly.answered (h : ∃ t, exec i s = .next t ∧ PairOnly k s t ∧ post t) :
    ∃ t, exec i s = .next t ∧ MemsSame s t ∧ post t ∧ ∀ j < 320, j / 2 ≠ k / 2 →
      trkCh t j = trkCh s j ∧ t.word (R.TRK_CH_STATUS j) = s.word (R.TRK_CH_STATUS j) := by
  obtain ⟨t, he, hp, hpost⟩ := h
  exact ⟨t, he, hp.mems, hpost, hp.others⟩

/-- Settles O15: a ring's power and the grants by what they leave of the domains, a channel's commands each by its lemma, and the
other pairs' channels by the frame of one channel's operations. -/
theorem ringsAndChannels : Obligations.RingsAndChannels := by
  intro who n k v carrier s c d w goes chan
  refine ⟨fun h => ⟨fun hv hd hq => ringPower_asks h hv hd hq, fun hv hd => ringPower_stops h hv hd⟩,
    fun r rest hh hw hq hr ht => ⟨fun hg => domainStartGrant_grants hh hw hq hr ht hg, fun hg => domainStartGrant_waits hh hw hq ht hg⟩,
    fun h hd => ⟨fun hi hp hm hr => PairOnly.answered (channelStart_runs h hd hi hp hm hr),
      fun _ _ hi hp hr => PairOnly.answered (channelStart_refused h hd hi hp hr),
      fun hc hp => PairOnly.answered (channelStop_stops h hd hc hp)⟩,
    fun hs hf => ⟨fun m hm => PairOnly.answered (timedStart_runs hs hf hm), fun hn => timedStart_waits hs hf hn⟩,
    fun h hd hf => ⟨?_, ?_, ?_⟩,
    fun h hd hf => PairOnly.answered (codeAdj_pends h hd hf),
    fun h hd hv => ⟨fun hs => PairOnly.answered (secSet_atOnce h hd hv hs), fun hs => PairOnly.answered (secSet_pends h hd hv hs)⟩,
    fun h hd hf hs => ⟨fun hn ha hc => PairOnly.answered (alignGo_ends h hd hf hs hn ha hc),
      fun hn => PairOnly.answered (alignGo_refused h hd hf hs hn)⟩⟩
  · rintro rfl hr
    exact PairOnly.answered (rateWrite_code h hd hf hr)
  · rintro rfl hr
    exact PairOnly.answered (rateWrite_carrier h hd hf hr)
  · rintro rfl hr
    exact PairOnly.answered (rateWrite_refused h hd hf hr)

end Sys2Proof.Machine
end

section
/-! SUPPORT. Blocks of bytes of the device memory map, and the lengths of the tracking records (R146, R162). -/
namespace Sys2Proof.Machine

variable {s t : State}

/-- A block reads the same of two memories that agree on it. -/
theorem Sparse.bytes_congr {d : Nat → Byte} {m m' : Sparse Byte} {a n : Nat}
    (h : ∀ x, a ≤ x → x < a + n → Sparse.get d m x = Sparse.get d m' x) : Sparse.bytes d m a n = Sparse.bytes d m' a n := by
  induction n generalizing a with
  | zero => rfl
  | succ n ih => rw [Sparse.bytes, Sparse.bytes, h a (by omega) (by omega), ih fun x h1 h2 => h x (by omega) (by omega)]

/-- A block written reads back. -/
theorem Sparse.bytes_putBytes {d : Nat → Byte} (m : Sparse Byte) (a : Nat) (bs : List Byte) :
    Sparse.bytes d (Sparse.putBytes d m a bs) a bs.length = bs := by
  induction bs generalizing m a with
  | nil => rfl
  | cons b bs ih =>
    rw [Sparse.putBytes, List.length_cons, Sparse.bytes, ih, Sparse.get_putBytes_of_not_mem _ _ _ (.inl (Nat.lt_succ_self a)),
      Sparse.get_put_self]

theorem State.memBytes_setMemBytes (s : State) (a : Nat) {bs : List Byte} {n : Nat} (h : bs.length = n) :
    (s.setMemBytes a bs).memBytes a n = bs := h ▸ Sparse.bytes_putBytes s.mem a bs

theorem State.memBytes_congr {a n : Nat} (h : ∀ x, a ≤ x → x < a + n → t.memByte x = s.memByte x) :
    t.memBytes a n = s.memBytes a n := Sparse.bytes_congr h

theorem memBytes_of_mem (h : t.mem = s.mem) (a n : Nat) : t.memBytes a n = s.memBytes a n := by rw [State.memBytes, h, State.memBytes]

@[simp] theorem length_leBytes (n v : Nat) : (leBytes n v).length = n := by
  induction n generalizing v with
  | zero => rfl
  | succ n ih => rw [leBytes, List.length_cons, ih]

theorem length_dumpRecord (seq : Nat) (d : TrkDump) : (dumpRecord seq d).1.length = 64 := by
  simp [dumpRecord, List.range_succ]

theorem length_captureRecord (k e : Nat) (stepped : Bool) (cseq : Nat) (s : State) :
    (captureRecord k e stepped cseq s).length = 32 := by
  unfold captureRecord
  split <;> simp

/-- A capture record is made of the channel's state and registers, not of the memory it goes to. -/
theorem captureRecord_of_mem (k e : Nat) (stepped : Bool) (cseq : Nat) (s : State) (m : Sparse Byte) :
    captureRecord k e stepped cseq { s with mem := m } = captureRecord k e stepped cseq s := rfl

end Sys2Proof.Machine
end

section
/-! SUPPORT. A channel's NCO at the end of an integration (R143 to R146). -/
namespace Sys2Proof.Machine

variable {s t : State} {k : Nat}

theorem boundaryOf_ahead {c : TrkCh} (h : c.phase < c.uEnd * unitPhase k s) : boundaryOf k c s = none := by
  rw [boundaryOf, decide_eq_false (Int.not_le.2 h), Bool.and_false, if_neg Bool.false_ne_true]

theorem boundaryOf_reached {c : TrkCh} (h0 : c.n0 ≠ 0) (h : c.uEnd * unitPhase k s ≤ c.phase) : boundaryOf k c s =
    some ⟨c.uEnd - c.u0 != c.n0, c.rateFlag, c.adjFlag, (c.epochs (chLen k s) % 256).toNat⟩ := by
  rw [boundaryOf, decide_eq_true h, decide_eq_true h0, Bool.and_true, if_pos rfl]

/-- At a boundary the next integration begins, of the length that INT.N gives, and what has ended stays to be dumped (R144). -/
theorem boundaryNco_begins (k : Nat) (s : State) (c : TrkCh) : let d := boundaryNco k s c
    d.dumps = c.dumps ∧ d.n0 = planUnits k s ∧ d.first = false := by
  unfold boundaryNco
  extract_lets begun rated adjusted tapped next
  have hr : RunSame begun rated := .takeRates begun s.tick
  have ha : adjusted.dumps = rated.dumps ∧ adjusted.first = rated.first := by
    simp only [adjusted]
    split
    · split <;> exact ⟨rfl, rfl⟩
    · exact ⟨rfl, rfl⟩
  exact ⟨ha.1.trans hr.dumps, rfl, ha.2.trans hr.first⟩

/-- An integration that ends is kept to be dumped (R144). -/
theorem trkCh_ncoTick_of_some {b : Boundary} (h : boundaryOf k ((trkCh s k).run (s.tick - (trkCh s k).at_)) s = some b) :
    (trkCh (ncoTick k s) k).dumps = (trkCh s k).dumps ++ [dumpAt k b s] ∧ (trkCh (ncoTick k s) k).n0 = planUnits k s ∧
      (trkCh (ncoTick k s) k).first = false := by
  unfold ncoTick
  extract_lets old c
  split
  case h_1 e he =>
    cases he.symm.trans h
    rw [trkCh_setTrkCh, if_pos rfl]
    exact boundaryNco_begins k s _
  case h_2 hn => cases hn.symm.trans h

theorem dumps_ncoTick_of_none (h0 : (trkCh s k).n0 ≠ 0) (h : boundaryOf k ((trkCh s k).run (s.tick - (trkCh s k).at_)) s = none) :
    (trkCh (ncoTick k s) k).dumps = (trkCh s k).dumps := by
  unfold ncoTick
  extract_lets old c
  split
  case h_1 he => cases he.symm.trans h
  case h_2 => rw [trkCh_setTrkCh, if_pos rfl, if_neg fun hc => h0 hc.1]; rfl

/-- Correlation adds to a channel's sums and their count alone (R145). -/
theorem trkCh_correlate (k : Nat) (nco : TrkCh) (s : State) :
    ∃ n acc, trkCh (correlate k nco s) k = { trkCh s k with nvalid := n, acc := acc } := by
  obtain h | ⟨n, acc, h⟩ := correlate_cases k nco s
  · exact ⟨_, _, congrArg (trkCh · k) h⟩
  · exact ⟨n, acc, by rw [h, trkCh_setTrkCh, if_pos rfl]⟩

/-- What becomes of a running channel in a tick: its NCO's step and its correlation; its follower is another channel (R123, R139). -/
theorem trkCh_channelTick (hr : chState k s = 2) (hf : isFollower k s = false) (ht : (trkCh s k).at_ ≤ s.tick) :
    ∃ n acc, trkCh (channelTick k s) k = { trkCh (ncoTick k s) k with nvalid := n, acc := acc } := by
  unfold channelTick
  extract_lets c b s₁ nco s₂
  rw [if_neg (by simp [hr, hf, ht, c])]
  obtain ⟨n, acc, h⟩ := trkCh_correlate k nco s₁
  refine ⟨n, acc, Eq.trans ?_ h⟩
  suffices ho : ChanOnly (k + 1) s₂ _ from ho.chans k (by omega)
  refine .ite (ChanOnly.trans ?_ (.correlate _ _ _)) (.refl _ s₂)
  clear_value b
  cases b with
  | some b => exact .setTrkCh _ _ s₂
  | none => exact .ite (.setTrkCh _ _ s₂) (.refl _ s₂)

end Sys2Proof.Machine
end

section
/-! PROOFS. The first part of O16: integrations end and begin (R143 to R146). -/
namespace Sys2Proof.Machine

variable {s : State} {k : Nat}

theorem integration_ends (hr : chState k s = 2) (hf : isFollower k s = false) (ht : (trkCh s k).at_ ≤ s.tick) (h0 : (trkCh s k).n0 ≠ 0)
    (hb : (trkCh s k).uEnd * unitPhase k s ≤ ((trkCh s k).run (s.tick - (trkCh s k).at_)).phase) :
    let c := trkCh s k
    let now := c.run (s.tick - c.at_)
    let t := channelTick k s
    ∃ e, (trkCh t k).dumps = c.dumps ++ [e] ∧ e.nvalid = c.nvalid ∧ e.acc = c.acc ∧ e.shift = s.fld (F.TRK_CH_INT_SHIFT k) ∧
      e.epoch = (now.epochs (chLen k s) % 256).toNat ∧ e.flags = (if c.first ∨ c.uEnd - c.u0 ≠ c.n0 then 2 else 0) +
        (if c.rateFlag then 4 else 0) + (if c.adjFlag then 8 else 0) + (if strips k s then 16 else 0) ∧
      (trkCh t k).n0 = planUnits k s ∧ (trkCh t k).first = false := by
  intro c now t
  obtain ⟨n, acc, h⟩ := trkCh_channelTick hr hf ht
  obtain ⟨hd, hn, hF⟩ := trkCh_ncoTick_of_some (boundaryOf_reached (k := k) (s := s) (c := now) h0 hb)
  refine ⟨_, (congrArg TrkCh.dumps h).trans hd, rfl, rfl, rfl, rfl, ?_, (congrArg TrkCh.n0 h).trans hn,
    (congrArg TrkCh.first h).trans hF⟩
  simp only [dumpAt, Bool.or_eq_true, bne_iff_ne, or_comm, c, now, TrkCh.run]

theorem integration_goes_on (hr : chState k s = 2) (hf : isFollower k s = false) (ht : (trkCh s k).at_ ≤ s.tick)
    (h0 : (trkCh s k).n0 ≠ 0)
    (hb : ((trkCh s k).run (s.tick - (trkCh s k).at_)).phase < (trkCh s k).uEnd * unitPhase k s) :
    (trkCh (channelTick k s) k).dumps = (trkCh s k).dumps := by
  obtain ⟨n, acc, h⟩ := trkCh_channelTick hr hf ht
  exact (congrArg TrkCh.dumps h).trans (dumps_ncoTick_of_none h0 (boundaryOf_ahead hb))

end Sys2Proof.Machine
end

section
/-! SUPPORT. A dump's record is written (R144 to R147). -/
namespace Sys2Proof.Machine

variable {s : State}

/-- The place of a channel's next dump record in ring memory (R146). -/
def dumpPlace (k : Nat) (s : State) : Nat := ringMem (k / 32) + 0x80 * (k % 32) + 0x40 * ((trkCh s k).seq % 2)

/-- STATUS shows a dump's sequence number, and a saturated value (R145, R146). -/
def dumpShown (k seq : Nat) (sat : Bool) (s : State) : State :=
  if sat then (s.setFld (F.TRK_CH_STATUS_DUMP_SEQ k) seq).setFld (F.TRK_CH_STATUS_SAT_SEEN k) 1
  else s.setFld (F.TRK_CH_STATUS_DUMP_SEQ k) seq

/-- A channel's bit of DUMP_PEND is set, or that of DUMP_LOST (R147). -/
def dumpFlagged (k : Nat) (s : State) : State :=
  if s.maskBit (R.TRK_RING_DUMP_PEND (k / 32)) (k % 32)
  then flagEvent ⟨R.TRK_RING_DUMP_LOST (k / 32), k % 32, k % 32⟩ (48 + k / 32) s
  else s.setMaskBit (R.TRK_RING_DUMP_PEND (k / 32)) (k % 32) true

theorem dumpWrite_eq (k : Nat) (d : TrkDump) (s : State) : dumpWrite k d s =
    setTrkCh (dumpFlagged k (dumpShown k (trkCh s k).seq (dumpRecord (trkCh s k).seq d).2
      (s.setMemBytes (dumpPlace k s) (dumpRecord (trkCh s k).seq d).1))) k
      { trkCh s k with seq := ((trkCh s k).seq + 1) % 2 ^ 16, dumps := (trkCh s k).dumps.drop 1 } := rfl

theorem WordsOnly.dumpShown (k seq : Nat) (sat : Bool) (s : State) : WordsOnly [R.TRK_CH_STATUS k] s (Machine.dumpShown k seq sat s) := by
  unfold Machine.dumpShown
  split
  · exact (WordsOnly.setFld (F.TRK_CH_STATUS_DUMP_SEQ k) _ s).trans (.setFld (F.TRK_CH_STATUS_SAT_SEEN k) _ _)
  · exact .setFld (F.TRK_CH_STATUS_DUMP_SEQ k) _ s

theorem seq_dumpShown (k seq : Nat) (sat : Bool) (s : State) : (dumpShown k seq sat s).fld (F.TRK_CH_STATUS_DUMP_SEQ k) = seq % 256 := by
  have h : (s.setFld (F.TRK_CH_STATUS_DUMP_SEQ k) seq).fld (F.TRK_CH_STATUS_DUMP_SEQ k) = seq % 256 :=
    State.fld_setFld _ _ _ (by simp) (by simp)
  unfold dumpShown
  split
  · exact (State.fld_setFld_ne _ _ _ _ (by simp) (by simp) (by simp)).trans h
  · exact h

theorem WordsOnly.dumpFlagged (k : Nat) (s : State) :
    WordsOnly (R.TRK_RING_DUMP_PEND (k / 32) :: R.TRK_RING_DUMP_LOST (k / 32) :: evKeys (48 + k / 32)) s (Machine.dumpFlagged k s) := by
  unfold Machine.dumpFlagged
  split
  · exact (WordsOnly.flagEvent _ _ s).mono fun a h => List.mem_cons_of_mem _ h
  · exact (WordsOnly.setMaskBit _ _ _ s).mono (by simp)

/-- The channel's bit of DUMP_PEND is set, and its bit of DUMP_LOST where a record stood (R147). -/
theorem dumpFlagged_shows {k : Nat} (hk : k < 320) (s : State) :
    (dumpFlagged k s).maskBit (R.TRK_RING_DUMP_PEND (k / 32)) (k % 32) = true ∧
      (s.maskBit (R.TRK_RING_DUMP_PEND (k / 32)) (k % 32) = true →
        (dumpFlagged k s).maskBit (R.TRK_RING_DUMP_LOST (k / 32)) (k % 32) = true) := by
  have hi : k % 32 < 32 := Nat.mod_lt _ (by decide)
  have plain {b : Nat} (h : 0x100000 ≤ b) (h' : b < 0x102000) : plainKey (b + 0x10000 * (k / 32)) := plainKey_ring (by omega) (by omega)
  unfold dumpFlagged
  split
  case isTrue hp =>
    refine ⟨?_, fun _ => (flagEvent_shows (plain (by decide) (by decide)) hi _ s).1⟩
    rw [maskBit_congr ((WordsOnly.flagEvent _ _ s).words _ fun hm => ?_), hp]
    obtain ⟨hl, h0, h1⟩ := plain (b := 0x101004) (by decide) (by decide)
    rcases List.mem_cons.1 hm with h | hm
    · simp only [R.TRK_RING_DUMP_PEND, R.TRK_RING_DUMP_LOST] at h
      omega
    · exact not_mem_evKeys hl h0 h1 _ hm
  case isFalse hp => exact ⟨(State.maskBit_setMaskBit s _ _ _ _ true hi).trans (if_pos ⟨rfl, rfl⟩), fun h => absurd h hp⟩

theorem status_dumpFlagged {k : Nat} (hk : k < 320) (s : State) :
    (dumpFlagged k s).word (R.TRK_CH_STATUS k) = s.word (R.TRK_CH_STATUS k) := by
  obtain ⟨hl, h0, h1⟩ := plainKey_status hk
  refine (WordsOnly.dumpFlagged k s).words _ fun hm => ?_
  rcases List.mem_cons.1 hm with h | hm
  · simp only [R.TRK_CH_STATUS, R.TRK_RING_DUMP_PEND] at h
    omega
  rcases List.mem_cons.1 hm with h | hm
  · simp only [R.TRK_CH_STATUS, R.TRK_RING_DUMP_LOST] at h
    omega
  · exact not_mem_evKeys hl h0 h1 _ hm

/-- Writing a dump changes the device memory by its record alone. -/
theorem mem_dumpWrite (k : Nat) (d : TrkDump) (s : State) :
    (dumpWrite k d s).mem = (s.setMemBytes (dumpPlace k s) (dumpRecord (trkCh s k).seq d).1).mem := by
  rw [dumpWrite_eq]
  obtain ⟨hf, -⟩ := (WordsOnly.dumpFlagged k _).memsSame
  obtain ⟨hs, -⟩ := (WordsOnly.dumpShown k _ _ _).memsSame
  exact hf.trans hs

theorem seq_dumpWrite {k : Nat} (hk : k < 320) (d : TrkDump) (s : State) :
    (dumpWrite k d s).fld (F.TRK_CH_STATUS_DUMP_SEQ k) = (trkCh s k).seq % 256 := by
  rw [dumpWrite_eq, fld_setTrkCh, fld_congr (status_dumpFlagged hk _), seq_dumpShown]

theorem dumpWrite_flags {k : Nat} (hk : k < 320) (d : TrkDump) (s : State) : let t := dumpWrite k d s
    t.maskBit (R.TRK_RING_DUMP_PEND (k / 32)) (k % 32) = true ∧
      (s.maskBit (R.TRK_RING_DUMP_PEND (k / 32)) (k % 32) = true → t.maskBit (R.TRK_RING_DUMP_LOST (k / 32)) (k % 32) = true) := by
  have hp (u : State) (seq : Nat) (sat : Bool) : (dumpShown k seq sat u).word (R.TRK_RING_DUMP_PEND (k / 32)) =
      u.word (R.TRK_RING_DUMP_PEND (k / 32)) := by
    refine (WordsOnly.dumpShown k seq sat u).words _ fun hm => ?_
    simp only [List.mem_singleton, R.TRK_RING_DUMP_PEND, R.TRK_CH_STATUS] at hm
    omega
  simp only [dumpWrite_eq, maskBit_congr (word_setTrkCh _ _ _ _)]
  obtain ⟨h1, h2⟩ := dumpFlagged_shows hk (dumpShown k (trkCh s k).seq (dumpRecord (trkCh s k).seq d).2
      (s.setMemBytes (dumpPlace k s) (dumpRecord (trkCh s k).seq d).1))
  exact ⟨h1, fun h => h2 ((maskBit_congr (hp _ _ _) _).trans h)⟩

/-- The channels after a dump: its own has the record behind it. -/
theorem trkCh_dumpWrite (k j : Nat) (d : TrkDump) (s : State) : trkCh (dumpWrite k d s) j =
    if j = k then { trkCh s k with seq := ((trkCh s k).seq + 1) % 2 ^ 16, dumps := (trkCh s k).dumps.drop 1 } else trkCh s j := by
  rw [dumpWrite_eq, trkCh_setTrkCh, (WordsOnly.dumpFlagged k _).trkCh, (WordsOnly.dumpShown k _ _ _).trkCh]
  rfl

theorem exec_trkDump {k : Fin 320} {d : TrkDump} {rest : List TrkDump} (h : (trkCh s k).dumps = d :: rest)
    (hd : domainOn (5 + k.val / 32) s = true) (w : Formed) : exec (.trkDump k w) s = .next (dumpWrite k d s) := by
  change execTrkDump k w s = _
  unfold execTrkDump
  split
  case h_1 e _ he => rw [(List.cons.inj (he.symm.trans h)).1, if_pos hd]
  case h_2 hn => cases hn.symm.trans h

theorem exec_trkDump_idle {k : Fin 320} (h : (trkCh s k).dumps = [] ∨ domainOn (5 + k.val / 32) s = false) (w : Formed) :
    exec (.trkDump k w) s = .next s := by
  change execTrkDump k w s = _
  unfold execTrkDump
  split
  case h_1 he =>
    obtain h | h := h
    · cases h.symm.trans he
    · rw [if_neg (by rw [h]; exact Bool.false_ne_true)]
  case h_2 => rfl

end Sys2Proof.Machine
end

section
/-! PROOFS. The second part of O16: a dump writes its record (R144 to R147). -/
namespace Sys2Proof.Machine

variable {s : State} {k : Fin 320}

theorem dump_writes {d : TrkDump} {rest : List TrkDump} (h : (trkCh s k).dumps = d :: rest) (hd : domainOn (5 + k.val / 32) s = true) :
    let c := trkCh s k
    let at_ := ringMem (k.val / 32) + 0x80 * (k.val % 32) + 0x40 * (c.seq % 2)
    let pend := s.maskBit (R.TRK_RING_DUMP_PEND (k.val / 32)) (k.val % 32)
    ∃ t, exec (.trkDump k .byDevice) s = .next t ∧
      t.memBytes at_ 64 = (dumpRecord c.seq d).1 ∧
      (∀ x, x < at_ ∨ at_ + 64 ≤ x → t.memByte x = s.memByte x) ∧
      t.maskBit (R.TRK_RING_DUMP_PEND (k.val / 32)) (k.val % 32) = true ∧
      (pend = true → t.maskBit (R.TRK_RING_DUMP_LOST (k.val / 32)) (k.val % 32) = true) ∧
      t.fld (F.TRK_CH_STATUS_DUMP_SEQ k) = c.seq % 256 ∧ trkCh t k = { c with seq := (c.seq + 1) % 2 ^ 16, dumps := rest } ∧
      ∀ j, j ≠ k.val → trkCh t j = trkCh s j := by
  obtain ⟨hp, hl⟩ := dumpWrite_flags k.isLt d s
  have hn : (dumpRecord (trkCh s k).seq d).1.length = 64 := length_dumpRecord _ d
  refine ⟨_, exec_trkDump h hd _, ?_, fun x hx => ?_, hp, hl, seq_dumpWrite k.isLt d s, ?_, fun j hj => ?_⟩
  · exact (memBytes_of_mem (mem_dumpWrite k d s) _ _).trans (State.memBytes_setMemBytes s _ hn)
  · exact (memByte_congr (mem_dumpWrite k d s) x).trans (State.memByte_setMemBytes_ne _ _ _ _ (by rw [hn]; exact hx))
  · rw [trkCh_dumpWrite, if_pos rfl, h, List.drop_one, List.tail_cons]
  · rw [trkCh_dumpWrite, if_neg hj]

end Sys2Proof.Machine
end

section
/-! SUPPORT. The capture of an epoch by a ring (R161 to R163). -/
namespace Sys2Proof.Machine

variable {s t : State}

/-! The capture records. -/

/-- A channel of the ring in WAIT or RUN has its capture record written (R162). -/
def slotWritten (n e : Nat) (st : Bool) (q : Nat) (s : State) (c : Nat) : State :=
  if chState (32 * n + c) s = 0 then s
  else s.setMemBytes (ringMem n + 0x1000 + 0x20 * c) (captureRecord (32 * n + c) e st q s)

/-- The capture records of the ring's first `m` channels are written. -/
def slotsWritten (n e : Nat) (st : Bool) (q m : Nat) (s : State) : State := (List.range m).foldl (slotWritten n e st q) s

theorem slotsWritten_succ (n e : Nat) (st : Bool) (q m : Nat) (s : State) :
    slotsWritten n e st q (m + 1) s = slotWritten n e st q (slotsWritten n e st q m s) m := by
  rw [slotsWritten, List.range_succ, List.foldl_append]
  rfl

theorem slotWritten_mem (n e : Nat) (st : Bool) (q c : Nat) (s : State) : ∃ m, slotWritten n e st q s c = { s with mem := m } := by
  unfold slotWritten
  split
  · exact ⟨s.mem, rfl⟩
  · exact ⟨_, rfl⟩

/-- Nothing but the device memory differs. -/
theorem slotsWritten_mem (n e : Nat) (st : Bool) (q m : Nat) (s : State) : ∃ x, slotsWritten n e st q m s = { s with mem := x } := by
  induction m with
  | zero => exact ⟨s.mem, rfl⟩
  | succ m ih =>
    obtain ⟨x, h⟩ := ih
    obtain ⟨y, g⟩ := slotWritten_mem n e st q m (slotsWritten n e st q m s)
    exact ⟨y, by rw [slotsWritten_succ, g, h]⟩

theorem memByte_slotWritten (n e : Nat) (st : Bool) (q c : Nat) (s : State) {x : Nat}
    (hx : x < ringMem n + 0x1000 + 0x20 * c ∨ ringMem n + 0x1000 + 0x20 * c + 32 ≤ x) :
    (slotWritten n e st q s c).memByte x = s.memByte x := by
  unfold slotWritten
  split
  · rfl
  · exact State.memByte_setMemBytes_ne _ _ _ _ (by rw [length_captureRecord]; exact hx)

theorem memBytes_slotWritten (n e : Nat) (st : Bool) (q c : Nat) (s : State) :
    (slotWritten n e st q s c).memBytes (ringMem n + 0x1000 + 0x20 * c) 32 = if chState (32 * n + c) s = 0
      then s.memBytes (ringMem n + 0x1000 + 0x20 * c) 32 else captureRecord (32 * n + c) e st q s := by
  unfold slotWritten
  split
  · rfl
  · exact State.memBytes_setMemBytes _ _ (length_captureRecord _ _ _ _ _)

theorem memByte_slotsWritten (n e : Nat) (st : Bool) (q m : Nat) (s : State) {x : Nat}
    (hx : x < ringMem n + 0x1000 ∨ ringMem n + 0x1000 + 0x20 * m ≤ x) : (slotsWritten n e st q m s).memByte x = s.memByte x := by
  induction m with
  | zero => rfl
  | succ m ih => rw [slotsWritten_succ, memByte_slotWritten _ _ _ _ _ _ (by omega), ih (by omega)]

/-- Each of the channels has its record, or its bytes as they were if it is IDLE. -/
theorem memBytes_slotsWritten (n e : Nat) (st : Bool) (q : Nat) {j m : Nat} (hj : j < m) (s : State) :
    (slotsWritten n e st q m s).memBytes (ringMem n + 0x1000 + 0x20 * j) 32 = if chState (32 * n + j) s = 0
      then s.memBytes (ringMem n + 0x1000 + 0x20 * j) 32 else captureRecord (32 * n + j) e st q s := by
  induction m with
  | zero => omega
  | succ m ih =>
    rw [slotsWritten_succ]
    obtain rfl | hjm : j = m ∨ j < m := by omega
    · obtain ⟨x, h⟩ := slotsWritten_mem n e st q j s
      have hm : (slotsWritten n e st q j s).memBytes (ringMem n + 0x1000 + 0x20 * j) 32 = s.memBytes (ringMem n + 0x1000 + 0x20 * j) 32 :=
        State.memBytes_congr fun x _ _ => memByte_slotsWritten n e st q j s (by omega)
      rw [memBytes_slotWritten, hm, h, captureRecord_of_mem]
      rfl
    · rw [State.memBytes_congr fun x _ _ => memByte_slotWritten n e st q m _ (by omega), ih hjm]

/-! The capture's registers. -/

/-- The epoch's time is shown (R163). -/
def epochTimed (n e : Nat) (s : State) : State :=
  (s.setWord (R.TRK_RING_EPOCH_FRAC n) (BitVec.ofNat 32 (e / fracUnits))).setWord (R.TRK_RING_EPOCH_SEC n)
    (BitVec.ofNat 32 (e / fracUnits / 2 ^ 32))

/-- MISSED and STEPPED of EPOCH_STAT (R163). -/
def epochMarked (n : Nat) (st : Bool) (s : State) : State :=
  let s := if s.bit (F.TRK_RING_EPOCH_STAT_PEND n) then s.setFld (F.TRK_RING_EPOCH_STAT_MISSED n) 1 else s
  if st then s.setFld (F.TRK_RING_EPOCH_STAT_STEPPED n) 1 else s

/-- EPOCH_STAT after a capture (R163). -/
def epochShown (n : Nat) (st : Bool) (q : Nat) (s : State) : State :=
  ((epochMarked n st s).setFld (F.TRK_RING_EPOCH_STAT_CSEQ n) q).setFld (F.TRK_RING_EPOCH_STAT_PEND n) 1

theorem WordsOnly.epochTimed (n e : Nat) (s : State) :
    WordsOnly [R.TRK_RING_EPOCH_FRAC n, R.TRK_RING_EPOCH_SEC n] s (Machine.epochTimed n e s) :=
  ((WordsOnly.setWord _ _ s).mono (by simp)).trans ((WordsOnly.setWord _ _ _).mono (by simp))

theorem WordsOnly.epochMarked (n : Nat) (st : Bool) (s : State) : WordsOnly [R.TRK_RING_EPOCH_STAT n] s (Machine.epochMarked n st s) := by
  unfold Machine.epochMarked
  extract_lets u
  have hu : WordsOnly [R.TRK_RING_EPOCH_STAT n] s u := by
    simp only [u]
    split
    · exact .setFld (F.TRK_RING_EPOCH_STAT_MISSED n) _ s
    · exact .refl _ s
  split
  · exact hu.trans (.setFld (F.TRK_RING_EPOCH_STAT_STEPPED n) _ u)
  · exact hu

theorem WordsOnly.epochShown (n : Nat) (st : Bool) (q : Nat) (s : State) :
    WordsOnly [R.TRK_RING_EPOCH_STAT n] s (Machine.epochShown n st q s) :=
  ((WordsOnly.epochMarked n st s).trans (.setFld (F.TRK_RING_EPOCH_STAT_CSEQ n) _ _)).trans (.setFld (F.TRK_RING_EPOCH_STAT_PEND n) _ _)

/-- A capture that finds PEND set marks one missed (R163). -/
theorem missed_epochMarked (n : Nat) (st : Bool) (h : s.bit (F.TRK_RING_EPOCH_STAT_PEND n) = true) :
    (epochMarked n st s).bit (F.TRK_RING_EPOCH_STAT_MISSED n) = true := by
  have hm := State.bit_setFld_one s (F.TRK_RING_EPOCH_STAT_MISSED n) rfl (by simp)
  simp only [epochMarked, if_pos h]
  split
  · exact (State.bit_setFld_ne _ _ _ _ (by simp) (by simp) (by simp)).trans hm
  · exact hm

theorem epochShown_shows (n : Nat) (st : Bool) (q : Nat) (s : State) : let t := epochShown n st q s
    t.fld (F.TRK_RING_EPOCH_STAT_CSEQ n) = q % 2 ^ 16 ∧ t.bit (F.TRK_RING_EPOCH_STAT_PEND n) = true ∧
      (s.bit (F.TRK_RING_EPOCH_STAT_PEND n) = true → t.bit (F.TRK_RING_EPOCH_STAT_MISSED n) = true) := by
  refine ⟨?_, State.bit_setFld_one _ (F.TRK_RING_EPOCH_STAT_PEND n) rfl (by simp), fun h => ?_⟩
  · exact (State.fld_setFld_ne _ _ _ _ (by simp) (by simp) (by simp)).trans
      (State.fld_setFld (s := _) (F.TRK_RING_EPOCH_STAT_CSEQ n) q (by simp) (by simp))
  · exact (State.bit_setFld_ne _ _ _ _ (by simp) (by simp) (by simp)).trans
      ((State.bit_setFld_ne _ _ _ _ (by simp) (by simp) (by simp)).trans (missed_epochMarked n st h))

/-- A capture is noted for the fix solver alone. -/
theorem epochNoted_sky (n e : Nat) (s : State) : ∃ x, epochNoted n e s = { s with sky := x } := ⟨_, rfl⟩

/-! The capture. -/

@[simp] theorem fld_setTrkRing (s : State) (n : Nat) (r : TrkRing) (f : Fld) : (setTrkRing s n r).fld f = s.fld f := rfl

@[simp] theorem bit_setTrkRing (s : State) (n : Nat) (r : TrkRing) (f : Fld) : (setTrkRing s n r).bit f = s.bit f := rfl

@[simp] theorem word_setTrkRing (s : State) (n : Nat) (r : TrkRing) (a : Nat) : (setTrkRing s n r).word a = s.word a := rfl

@[simp] theorem mem_setTrkRing (s : State) (n : Nat) (r : TrkRing) : (setTrkRing s n r).mem = s.mem := rfl

@[simp] theorem trk_setTrkRing (s : State) (n : Nat) (r : TrkRing) : (setTrkRing s n r).trk = s.trk := rfl

@[simp] theorem trkRing_setTrkRing (s : State) (n : Nat) (r : TrkRing) : trkRing (setTrkRing s n r) n = r := by
  rw [trkRing, setTrkRing, Sparse.get_put_self]

/-- CSEQ of a ring's next capture (R163). -/
def nextCseq (n : Nat) (s : State) : Nat := (s.fld (F.TRK_RING_EPOCH_STAT_CSEQ n) + 1) % 2 ^ 16

/-- A ring's registers and memory after a capture. -/
def ringShown (n e : Nat) (s : State) : State :=
  epochShown n (trkRing s n).stepped (nextCseq n s) (epochNoted n (e / fracUnits % 2 ^ 64)
    (epochTimed n e (slotsWritten n e (trkRing s n).stepped (nextCseq n s) 32 s)))

theorem captureRing_eq (n e : Nat) (s : State) : captureRing n e s = setTrkRing (ringShown n e s) n
    ⟨some e, (trkRing (ringShown n e s) n).passed.filter (fun p => decide (e < p.2)), false,
      (List.range 32).filter (fun c => chState (32 * n + c) (ringShown n e s) == 2)⟩ := rfl

/-- What a capture leaves of the state before it. -/
structure CaptureKeeps (n : Nat) (s t : State) : Prop where
  words : RegsBut [R.TRK_RING_EPOCH_STAT n, R.TRK_RING_EPOCH_FRAC n, R.TRK_RING_EPOCH_SEC n] s t
  trk : t.trk = s.trk
  rings : t.rings = s.rings

theorem CaptureKeeps.trans {u : State} {n : Nat} (h : CaptureKeeps n s t) (g : CaptureKeeps n t u) : CaptureKeeps n s u :=
  ⟨h.words.trans g.words, g.trk.trans h.trk, g.rings.trans h.rings⟩

theorem WordsOnly.captureKeeps {ks : List Nat} {n : Nat} (h : WordsOnly ks s t)
    (hk : ks ⊆ [R.TRK_RING_EPOCH_STAT n, R.TRK_RING_EPOCH_FRAC n, R.TRK_RING_EPOCH_SEC n]) : CaptureKeeps n s t :=
  ⟨h.words.mono hk, (congrArg State.trk h.rest :), (congrArg State.rings h.rest :)⟩

theorem CaptureKeeps.slotsWritten (n e : Nat) (st : Bool) (q m : Nat) (s : State) :
    CaptureKeeps n s (Machine.slotsWritten n e st q m s) := by
  obtain ⟨x, h⟩ := slotsWritten_mem n e st q m s
  rw [h]
  exact ⟨fun _ _ => rfl, rfl, rfl⟩

theorem CaptureKeeps.epochNoted (n e : Nat) (s : State) : CaptureKeeps n s (Machine.epochNoted n e s) := by
  obtain ⟨x, h⟩ := epochNoted_sky n e s
  rw [h]
  exact ⟨fun _ _ => rfl, rfl, rfl⟩

theorem CaptureKeeps.ringShown (n e : Nat) (s : State) : CaptureKeeps n s (Machine.ringShown n e s) :=
  (((CaptureKeeps.slotsWritten n e _ _ 32 s).trans ((WordsOnly.epochTimed n e _).captureKeeps (by simp))).trans (.epochNoted n _ _)).trans
    ((WordsOnly.epochShown n _ _ _).captureKeeps (by simp))

theorem mem_ringShown (n e : Nat) (s : State) :
    (ringShown n e s).mem = (slotsWritten n e (trkRing s n).stepped (nextCseq n s) 32 s).mem := by
  obtain ⟨h, -⟩ := (WordsOnly.epochShown n (trkRing s n).stepped (nextCseq n s) (epochNoted n (e / fracUnits % 2 ^ 64)
    (epochTimed n e (slotsWritten n e (trkRing s n).stepped (nextCseq n s) 32 s)))).memsSame
  obtain ⟨g, -⟩ := (WordsOnly.epochTimed n e (slotsWritten n e (trkRing s n).stepped (nextCseq n s) 32 s)).memsSame
  exact h.trans g

/-- No channel's STATUS is a register of the capture. -/
theorem chState_ringShown (n e : Nat) {c : Nat} (hc : c < 32) (s : State) :
    chState (32 * n + c) (ringShown n e s) = chState (32 * n + c) s := by
  refine fld_congr ((CaptureKeeps.ringShown n e s).words _ fun hm => ?_)
  simp only [List.mem_cons, List.not_mem_nil, or_false, R.TRK_RING_EPOCH_STAT, R.TRK_RING_EPOCH_FRAC, R.TRK_RING_EPOCH_SEC,
    show (32 * n + c) / 32 = n by omega, show (32 * n + c) % 32 = c by omega] at hm
  omega

theorem ringShown_shows (n e : Nat) (s : State) : let t := ringShown n e s
    t.fld (F.TRK_RING_EPOCH_STAT_CSEQ n) = nextCseq n s ∧ t.bit (F.TRK_RING_EPOCH_STAT_PEND n) = true ∧
      (s.bit (F.TRK_RING_EPOCH_STAT_PEND n) = true → t.bit (F.TRK_RING_EPOCH_STAT_MISSED n) = true) := by
  obtain ⟨hq, hp, hm⟩ := epochShown_shows n (trkRing s n).stepped (nextCseq n s) (epochNoted n (e / fracUnits % 2 ^ 64)
    (epochTimed n e (slotsWritten n e (trkRing s n).stepped (nextCseq n s) 32 s)))
  refine ⟨hq.trans (Nat.mod_mod _ _), hp, fun h => hm (Eq.trans ?_ h)⟩
  obtain ⟨x, hx⟩ := slotsWritten_mem n e (trkRing s n).stepped (nextCseq n s) 32 s
  rw [hx]
  refine (WordsOnly.epochTimed n e { s with mem := x }).words.bit fun h => ?_
  simp only [List.mem_cons, List.not_mem_nil, or_false, R.TRK_RING_EPOCH_FRAC, R.TRK_RING_EPOCH_SEC] at h
  omega

/-- EPOCH_FRAC and EPOCH_SEC after a capture (R163). -/
theorem ringShown_times (n e : Nat) (s : State) : let t := ringShown n e s
    t.word (R.TRK_RING_EPOCH_FRAC n) = BitVec.ofNat 32 (e / fracUnits) ∧
      t.word (R.TRK_RING_EPOCH_SEC n) = BitVec.ofNat 32 (e / fracUnits / 2 ^ 32) := by
  have hs {a : Nat} (ha : a ≠ R.TRK_RING_EPOCH_STAT n) : (ringShown n e s).word a =
      (epochTimed n e (slotsWritten n e (trkRing s n).stepped (nextCseq n s) 32 s)).word a :=
    (WordsOnly.epochShown n _ _ _).words a (by simpa using ha)
  refine ⟨(hs (by simp)).trans ?_, (hs (by simp)).trans ?_⟩
  · exact (State.word_setWord_ne _ _ (by simp [R.TRK_RING_EPOCH_FRAC, R.TRK_RING_EPOCH_SEC])).trans (State.word_setWord _ _ _)
  · exact State.word_setWord _ _ _

/-- A capture's registers and memory, and the ring's capture state (R163): the channels in RUN are those captured. -/
theorem captureRing_spec (n e : Nat) (s : State) : captureRing n e s = setTrkRing (ringShown n e s) n ⟨some e,
    (trkRing s n).passed.filter (fun p => decide (e < p.2)), false, (List.range 32).filter (fun c => chState (32 * n + c) s == 2)⟩ := by
  have hc : (List.range 32).filter (fun c => chState (32 * n + c) (ringShown n e s) == 2) =
      (List.range 32).filter (fun c => chState (32 * n + c) s == 2) :=
    List.filter_congr fun c hc => by rw [chState_ringShown n e (List.mem_range.1 hc)]
  have hr : trkRing (ringShown n e s) n = trkRing s n := by rw [trkRing, (CaptureKeeps.ringShown n e s).rings, trkRing]
  rw [captureRing_eq, hc, hr]

/-! Which epoch is captured (R163). -/

theorem ringReached_iff (n e : Nat) (s : State) : ringReached n e s = true ↔
    ∀ j < 32, chState (32 * n + j) s = 0 ∨ captureReached (32 * n + j) e s = true := by
  simp [ringReached]

/-- Without a forward step since the last capture, only the latest epoch of the present timebase may be captured. -/
theorem epochNext_of_latest {n e : Nat} (hp : (trkRing s n).passed = []) (he : epochBy n s.nowU s = some e) :
    epochNext n s = if (epochDue n e s && ringReached n e s) = true then some e else none := by
  have hl : [s.nowU].filterMap (fun u => epochBy n u s) = [e] := List.filterMap_cons_some he
  rw [epochNext, hp, List.map_nil, List.nil_append, hl, List.find?_cons, List.find?_nil]
  cases epochDue n e s && ringReached n e s <;> rfl

theorem exec_epochCapture {n : Fin 10} {e : Nat} (he : epochNext n s = some e) (hd : domainOn (5 + n.val) s = true) :
    exec (.epochCapture n) s = .next (captureRing n e s) := by
  change execEpochCapture n s = _
  rw [execEpochCapture, he]
  exact congrArg Host.Outcome.next (if_pos hd)

theorem exec_epochCapture_none {n : Fin 10} (he : epochNext n s = none) : exec (.epochCapture n) s = .next s := by
  change execEpochCapture n s = _
  rw [execEpochCapture, he]

end Sys2Proof.Machine
end

section
/-! PROOFS. The third part of O16: an epoch's capture (R161 to R163). -/
namespace Sys2Proof.Machine

variable {s : State} {n : Fin 10} {e : Nat}

theorem epoch_captured (hd : domainOn (5 + n.val) s = true) (he : epochNext n s = some e) :
    let cseq := s.fld (F.TRK_RING_EPOCH_STAT_CSEQ n)
    ∃ t, exec (.epochCapture n) s = .next t ∧
      (∀ j < 32, t.memBytes (ringMem n + 0x1000 + 0x20 * j) 32 = if chState (32 * n + j) s = 0
        then s.memBytes (ringMem n + 0x1000 + 0x20 * j) 32
        else captureRecord (32 * n + j) e (trkRing s n).stepped ((cseq + 1) % 2 ^ 16) s) ∧
      (∀ x, x < ringMem n + 0x1000 ∨ ringMem n + 0x1400 ≤ x → t.memByte x = s.memByte x) ∧
      t.fld (F.TRK_RING_EPOCH_STAT_CSEQ n) = (cseq + 1) % 2 ^ 16 ∧ t.bit (F.TRK_RING_EPOCH_STAT_PEND n) = true ∧
      (s.bit (F.TRK_RING_EPOCH_STAT_PEND n) = true → t.bit (F.TRK_RING_EPOCH_STAT_MISSED n) = true) ∧
      t.word (R.TRK_RING_EPOCH_FRAC n) = BitVec.ofNat 32 (e / fracUnits) ∧
      t.word (R.TRK_RING_EPOCH_SEC n) = BitVec.ofNat 32 (e / fracUnits / 2 ^ 32) ∧
      trkRing t n = ⟨some e, (trkRing s n).passed.filter (fun p => decide (e < p.2)), false,
        (List.range 32).filter (fun j => chState (32 * n + j) s == 2)⟩ ∧ t.trk = s.trk := by
  intro cseq
  have hM : (captureRing n e s).mem = (slotsWritten n e (trkRing s n).stepped (nextCseq n s) 32 s).mem := by
    rw [captureRing_eq, mem_setTrkRing, mem_ringShown]
  refine ⟨_, exec_epochCapture he hd, fun j hj => ?_, fun x hx => ?_, ?_⟩
  · exact (memBytes_of_mem hM _ _).trans (memBytes_slotsWritten n e _ _ hj s)
  · exact (memByte_congr hM x).trans (memByte_slotsWritten n e _ _ 32 s (by omega))
  · obtain ⟨hq, hp, hm⟩ := ringShown_shows n e s
    obtain ⟨hf, hs⟩ := ringShown_times n e s
    rw [captureRing_spec, fld_setTrkRing, bit_setTrkRing, bit_setTrkRing, word_setTrkRing, word_setTrkRing, trkRing_setTrkRing,
      trk_setTrkRing]
    exact ⟨hq, hp, hm, hf, hs, rfl, (CaptureKeeps.ringShown n e s).trk⟩

theorem epochNext_of_reached (hp : (trkRing s n).passed = []) (hb : epochBy n s.nowU s = some e) (hd : epochDue n e s = true)
    (hr : ∀ j < 32, chState (32 * n + j) s = 0 ∨ captureReached (32 * n + j) e s = true) : epochNext n s = some e := by
  rw [epochNext_of_latest hp hb, hd, (ringReached_iff n e s).2 hr]
  rfl

theorem epoch_waits (hp : (trkRing s n).passed = []) (hb : epochBy n s.nowU s = some e)
    (hr : epochDue n e s = false ∨ ¬∀ j < 32, chState (32 * n + j) s = 0 ∨ captureReached (32 * n + j) e s = true) :
    exec (.epochCapture n) s = .next s := by
  refine exec_epochCapture_none ((epochNext_of_latest hp hb).trans (if_neg fun h => ?_))
  obtain ⟨hd, hR⟩ := (Bool.and_eq_true _ _).mp h
  obtain hd' | hn := hr
  · exact Bool.false_ne_true (hd'.symm.trans hd)
  · exact hn ((ringReached_iff n e s).1 hR)

end Sys2Proof.Machine
end

section
/-! SUPPORT. What a record stream leaves of the tracking rings (R433 to R436), and the publication of measurements (R165). -/
namespace Sys2Proof.Machine

variable {s t u : State}

/-! A stream's records. -/

/-- The tracking rings' registers, channels and published records, and the device memory, as they were. -/
structure StreamKeeps (s t : State) : Prop where
  words : ∀ a, 0x100000 ≤ a → a < 0x200000 → t.word a = s.word a
  mem : t.mem = s.mem
  trk : t.trk = s.trk
  published : t.published = s.published

theorem StreamKeeps.refl (s : State) : StreamKeeps s s := ⟨fun _ _ _ => rfl, rfl, rfl, rfl⟩

theorem StreamKeeps.trans (h : StreamKeeps s t) (g : StreamKeeps t u) : StreamKeeps s u :=
  ⟨fun a h1 h2 => (g.words a h1 h2).trans (h.words a h1 h2), g.mem.trans h.mem, g.trk.trans h.trk, g.published.trans h.published⟩

theorem StreamKeeps.ite {c : Prop} [Decidable c] (ht : StreamKeeps s t) (hu : StreamKeeps s u) : StreamKeeps s (if c then t else u) := by
  split <;> assumption

theorem WordsOnly.mem {ks : List Nat} (h : WordsOnly ks s t) : t.mem = s.mem := (congrArg State.mem h.rest :)

theorem WordsOnly.trk {ks : List Nat} (h : WordsOnly ks s t) : t.trk = s.trk := (congrArg State.trk h.rest :)

theorem WordsOnly.published {ks : List Nat} (h : WordsOnly ks s t) : t.published = s.published := (congrArg State.published h.rest :)

theorem WordsOnly.streamKeeps {ks : List Nat} (h : WordsOnly ks s t) (hk : ∀ a, 0x100000 ≤ a → a < 0x200000 → a ∉ ks) :
    StreamKeeps s t where
  words a h1 h2 := h.words a (hk a h1 h2)
  mem := h.mem
  trk := h.trk
  published := h.published

theorem StreamKeeps.setWord {a : Nat} (ha : 0x200000 ≤ a) (w : Word) (s : State) : StreamKeeps s (s.setWord a w) :=
  (WordsOnly.setWord a w s).streamKeeps fun b _ hb hm => by
    rw [List.mem_singleton] at hm
    omega

theorem StreamKeeps.setFld {f : Fld} (hf : 0x200000 ≤ f.off) (v : Nat) (s : State) : StreamKeeps s (s.setFld f v) := .setWord hf _ s

theorem StreamKeeps.flagEvent {f : Fld} (hf : 0x200000 ≤ f.off) (n : Nat) (s : State) : StreamKeeps s (Machine.flagEvent f n s) :=
  (WordsOnly.flagEvent f n s).streamKeeps fun a h1 h2 hm => by
    obtain ⟨hl, hb0, hb1⟩ := plainKey_ring h1 h2
    rcases List.mem_cons.1 hm with h | hm
    · omega
    · exact not_mem_evKeys hl hb0 hb1 n hm

theorem StreamKeeps.setNotifier (n : Nat) (x : Notifier) (s : State) : StreamKeeps s (Machine.setNotifier s n x) :=
  ⟨fun _ _ _ => rfl, rfl, rfl, rfl⟩

theorem StreamKeeps.setCounts (n : Nat) (head tail : Word) (s : State) : StreamKeeps s (Machine.setCounts n head tail s) :=
  ((StreamKeeps.setWord (Nat.le_add_right_of_le (by decide)) _ s).trans (.setWord (Nat.le_add_right_of_le (by decide)) _ _)).trans
    (.setFld (Nat.le_add_right_of_le (by decide)) _ _)

theorem StreamKeeps.setHostBytes (a : Nat) (bs : List Byte) (s : State) : StreamKeeps s (s.setHostBytes a bs) :=
  ⟨fun _ _ _ => rfl, rfl, rfl, rfl⟩

theorem StreamKeeps.putUnits (n : Nat) (us : List (List Byte)) (c : Word) (s : State) : StreamKeeps s (Machine.putUnits n us c s) := by
  induction us generalizing c s with
  | nil => exact .refl s
  | cons b us ih => exact (StreamKeeps.setHostBytes _ b s).trans (ih (c + 1) _)

theorem pendFld_host (n : Nat) : 0x200000 ≤ (pendFld n).off := by
  have hr : 0x200000 ≤ R.HOST_RES_PEND := by decide
  have hs : 0x200000 ≤ R.HOST_STREAM_PEND := by decide
  unfold pendFld
  split <;> assumption

theorem StreamKeeps.notifyUnits (n units : Nat) (s : State) : StreamKeeps s (Machine.notifyUnits n units s) := by
  unfold Machine.notifyUnits
  extract_lets x s₁ c
  have h₁ : StreamKeeps s s₁ := .setNotifier n _ s
  exact .ite (.refl s) (.ite (h₁.trans ((StreamKeeps.setNotifier n {} s₁).trans (.flagEvent (pendFld_host n) _ _))) h₁)

theorem StreamKeeps.ringWrite (n : Nat) (bs : List Byte) (s : State) : StreamKeeps s (Machine.ringWrite n bs s) :=
  ((StreamKeeps.putUnits n _ _ s).trans (.setCounts n _ _ _)).trans (.notifyUnits n _ _)

theorem StreamKeeps.ringWrites (n : Nat) (batch : List (List Byte)) (s : State) :
    StreamKeeps s (batch.foldl (fun s b => Machine.ringWrite n b s) s) := by
  induction batch generalizing s with
  | nil => exact .refl s
  | cons b bs ih => exact (StreamKeeps.ringWrite n b s).trans (ih _)

theorem StreamKeeps.streamPut (q : Nat) (batch : List (List Byte)) (s : State) : StreamKeeps s (Machine.streamPut q batch s) := by
  unfold Machine.streamPut
  exact .ite (.refl s) (.ite (.ringWrites _ batch s)
    ((StreamKeeps.setFld (Nat.le_add_right_of_le (by decide)) _ s).trans (.flagEvent (by decide) 7 _)))

/-! Publication (R165). -/

variable {n : Nat}

theorem publishLate_of_records (h : measOf n (s.fld (F.TRK_RING_EPOCH_STAT_CSEQ n)) s ≠ []) : publishLate n s = false := by
  have he : (measOf n (s.fld (F.TRK_RING_EPOCH_STAT_CSEQ n)) s).isEmpty = false := List.isEmpty_eq_false_iff.2 h
  simp [publishLate, he]

theorem publishLate_of_next (h : s.fld (F.TRK_RING_EPOCH_STAT_CSEQ n) = s.fld (F.TRK_RING_MEAS_CTRL_LAST_CSEQ n) ∨
    s.fld (F.TRK_RING_EPOCH_STAT_CSEQ n) = (s.fld (F.TRK_RING_MEAS_CTRL_LAST_CSEQ n) + 1) % 2 ^ 16) : publishLate n s = false := by
  obtain h | h := h <;> simp [publishLate, h]

theorem publishLate_of_pending (hr : measOf n (s.fld (F.TRK_RING_EPOCH_STAT_CSEQ n)) s = [])
    (h1 : s.fld (F.TRK_RING_EPOCH_STAT_CSEQ n) ≠ s.fld (F.TRK_RING_MEAS_CTRL_LAST_CSEQ n))
    (h2 : s.fld (F.TRK_RING_EPOCH_STAT_CSEQ n) ≠ (s.fld (F.TRK_RING_MEAS_CTRL_LAST_CSEQ n) + 1) % 2 ^ 16)
    (hp : s.bit (F.TRK_RING_EPOCH_STAT_PEND n) = true) : publishLate n s = true := by
  rw [publishLate, hr, hp, bne_iff_ne.2 h1, bne_iff_ne.2 h2]
  rfl

/-- The current capture's records handed over to the fix solver (R165). -/
def measHanded (n : Nat) (s : State) : State :=
  let rs := measOf n (s.fld (F.TRK_RING_EPOCH_STAT_CSEQ n)) s
  { s with
    published := Sparse.put (fun _ => (2 ^ 64, [])) s.published n
      (s.fld (F.TRK_RING_EPOCH_SEC_SEC_LO n) * 2 ^ 32 + s.fld (F.TRK_RING_EPOCH_FRAC_FRAC n), rs)
    sky := { s.sky with obs := s.sky.obs ++ rs } }

/-- LAST_CSEQ shows that the current capture is published, and its records are handed over (R165). -/
def measShown (n : Nat) (s : State) : State :=
  (measHanded n s).setFld (F.TRK_RING_MEAS_CTRL_LAST_CSEQ n) (s.fld (F.TRK_RING_EPOCH_STAT_CSEQ n))

theorem mem_measHanded (n : Nat) (s : State) : (measHanded n s).mem = s.mem := by rw [measHanded]

theorem trk_measHanded (n : Nat) (s : State) : (measHanded n s).trk = s.trk := by rw [measHanded]

theorem mem_measShown (n : Nat) (s : State) : (measShown n s).mem = s.mem := by
  rw [measShown, (WordsOnly.setFld _ _ _).mem, mem_measHanded]

theorem trk_measShown (n : Nat) (s : State) : (measShown n s).trk = s.trk := by
  rw [measShown, (WordsOnly.setFld _ _ _).trk, trk_measHanded]

theorem publishedOf_measShown (n : Nat) (s : State) : publishedOf n (measShown n s) =
    (s.fld (F.TRK_RING_EPOCH_SEC_SEC_LO n) * 2 ^ 32 + s.fld (F.TRK_RING_EPOCH_FRAC_FRAC n),
      measOf n (s.fld (F.TRK_RING_EPOCH_STAT_CSEQ n)) s) := by
  rw [publishedOf, measShown, (WordsOnly.setFld _ _ _).published, measHanded, Sparse.get_put_self]

theorem lastCseq_measShown (n : Nat) (s : State) :
    (measShown n s).fld (F.TRK_RING_MEAS_CTRL_LAST_CSEQ n) = s.fld (F.TRK_RING_EPOCH_STAT_CSEQ n) :=
  (State.fld_setFld _ _ _ (by simp) (by simp)).trans (Nat.mod_eq_of_lt (Nat.mod_lt _ (by simp)))

theorem opPublish_of_current (h : publishLate n s = false) :
    opPublish n s = streamPut 0 (measOf n (s.fld (F.TRK_RING_EPOCH_STAT_CSEQ n)) s) (measShown n s) := by
  unfold opPublish
  rw [if_neg (by rw [h]; exact Bool.false_ne_true)]
  rfl

theorem opPublish_of_late (h : publishLate n s = true) :
    opPublish n s = raise (48 + n) (s.setFld (F.TRK_RING_EPOCH_STAT_MEAS_LATE n) 1) := by
  unfold opPublish
  rw [if_pos h]

theorem exec_measPublish {who : Reader} {n : Fin 10} (ho : Open who (R.TRK_RING_MEAS_CTRL n) s) :
    exec (.measPublish who n) s = .next (opPublish n s) := congrArg _ (gate_open ho.1 ho.2)

end Sys2Proof.Machine
end

section
/-! PROOFS. The last part of O16: PUBLISH (R165). -/
namespace Sys2Proof.Machine

variable {s : State} {who : Reader} {n : Fin 10}

theorem publish_hands_over (ho : Open who (R.TRK_RING_MEAS_CTRL n) s) (hl : publishLate n s = false) :
    let cseq := s.fld (F.TRK_RING_EPOCH_STAT_CSEQ n)
    ∃ t, exec (.measPublish who n) s = .next t ∧ t.mem = s.mem ∧ t.trk = s.trk ∧
      t.fld (F.TRK_RING_MEAS_CTRL_LAST_CSEQ n) = cseq ∧ publishedOf n t =
        (s.fld (F.TRK_RING_EPOCH_SEC_SEC_LO n) * 2 ^ 32 + s.fld (F.TRK_RING_EPOCH_FRAC_FRAC n), measOf n cseq s) := by
  intro cseq
  have hk := StreamKeeps.streamPut 0 (measOf n cseq s) (measShown n s)
  refine ⟨_, (exec_measPublish ho).trans (congrArg _ (opPublish_of_current hl)), hk.mem.trans (mem_measShown n s),
    hk.trk.trans (trk_measShown n s), ?_, ?_⟩
  · exact (fld_congr (hk.words _ (by simp only; omega) (by simp only; omega))).trans (lastCseq_measShown n s)
  · rw [publishedOf, hk.published]
    exact publishedOf_measShown n s

theorem publish_late (ho : Open who (R.TRK_RING_MEAS_CTRL n) s) (hl : publishLate n s = true) :
    ∃ t, exec (.measPublish who n) s = .next t ∧ MemsSame s t ∧ t.bit (F.TRK_RING_EPOCH_STAT_MEAS_LATE n) = true ∧
      EventUp (48 + n.val) t ∧ t.published = s.published := by
  have hr := WordsOnly.raise (48 + n.val) (s.setFld (F.TRK_RING_EPOCH_STAT_MEAS_LATE n) 1)
  have hp : plainKey (F.TRK_RING_EPOCH_STAT_MEAS_LATE n).off :=
    plainKey_ring (by simp only; omega) (by simp only; omega)
  refine ⟨_, (exec_measPublish ho).trans (congrArg _ (opPublish_of_late hl)), (MemsSame.setFld _ _ s).trans hr.memsSame, ?_,
    .raise_self _ _, (congrArg State.published hr.rest :)⟩
  rw [State.bit, fld_raise hp, ← State.bit]
  exact State.bit_setFld_one _ _ rfl (by simp)

end Sys2Proof.Machine
end

section
/-! PROOFS. O16: integrations end and are dumped, epochs are captured, measurements are published (R144 to R148, R161 to R165). -/
namespace Sys2Proof.Machine

/-- Settles O16: each part follows from the equation of its operation, and from what each of its writes leaves unchanged. -/
theorem dumpsAndEpochs : Obligations.DumpsAndEpochs := by
  unfold Obligations.DumpsAndEpochs
  intro who n k d rest s c now at_ pend cseq last rs
  refine ⟨fun hr hf ht h0 => ⟨integration_ends hr hf ht h0, integration_goes_on hr hf ht h0⟩, dump_writes,
    fun h => exec_trkDump_idle h _, fun e hd => ⟨fun he => ?_, epoch_waits⟩, fun ho => ⟨fun h => ?_, fun hn h1 h2 hp => ?_⟩⟩
  · obtain he | ⟨hp, hb, hdue, hr⟩ := he
    · exact epoch_captured hd he
    · exact epoch_captured hd (epochNext_of_reached hp hb hdue hr)
  · obtain h | h := h
    · exact publish_hands_over ho (publishLate_of_records h)
    · exact publish_hands_over ho (publishLate_of_next h)
  · exact publish_late ho (publishLate_of_pending hn h1 h2 hp)

end Sys2Proof.Machine
end

section
/-! SUPPORT. Operand blocks of a coprocessor in the sequencer's own RAM: the checks pass, reads give the bytes, writes
change nothing else, and neither costs a cycle more (R367, R376, R399, R400). -/
namespace Sys2Proof.Machine

variable {q : SeqId} {a : BitVec 16} {n al : Nat}

/-- Below the vector table an address is a plain byte of the sequencer's own RAM. -/
theorem dxPlace_priv (h : a.toNat < 0x7FE0) (sq : Seq) : dxPlace q sq a = .ram (privRam q a.toNat) false := by
  unfold dxPlace
  rw [if_pos (by omega), decide_eq_false (by omega)]

theorem toNat_add_ofNat {i : Nat} (h : a.toNat + i < 2 ^ 16) : (a + BitVec.ofNat 16 i).toNat = a.toNat + i := by
  rw [BitVec.toNat_add, BitVec.toNat_ofNat, Nat.add_mod_mod, Nat.mod_eq_of_lt h]

theorem dxCheck_priv (h : a.toNat < 0x7FE0) (write : Bool) (s : State) :
    dxCheck q a write s = .ok (.ram (privRam q a.toNat) false) := by
  simp only [dxCheck, dxPlace_priv h, DxPlace.checked]

theorem copDenied_priv (h : a.toNat + n ≤ 0x7FE0) (write : Bool) (s : State) : copDenied q write s a n = none := by
  induction n generalizing a with
  | zero => rfl
  | succ n ih =>
    have ha : (a + 1).toNat = a.toNat + 1 := toNat_add_ofNat (i := 1) (by omega)
    rw [copDenied, dxCheck_priv (by omega)]
    exact ih (by omega)

theorem copFits_priv {k : Nat} (h : k + n ≤ 0x7FE0) (hn : 0 < n) : copFits k n = true := by
  unfold copFits copRegion
  rw [if_pos (by omega), if_pos (by omega)]
  rfl

theorem copBlock_priv (h : a.toNat + n ≤ 0x7FE0) (hn : 0 < n) (hal : a.toNat % al = 0) (cp : Nat) (write : Bool) (s : State) :
    copBlock q cp a n al write s = .ok 0 := by
  simp [copBlock, copFits_priv h hn, hal, copDenied_priv h, dxPlace_priv (show a.toNat < 0x7FE0 by omega), DxPlace.cost]

theorem copBlock_misaligned (hal : a.toNat % al ≠ 0) (cp : Nat) (write : Bool) (s : State) :
    copBlock q cp a n al write s = .error (copErr cp 3) := by
  simp [copBlock, hal]

theorem Sparse.bytes_eq_map (d : Nat → Byte) (m : Sparse Byte) (k n : Nat) :
    Sparse.bytes d m k n = (List.range n).map (fun i => Sparse.get d m (k + i)) := by
  induction n generalizing k with
  | zero => rfl
  | succ n ih =>
    simp only [Sparse.bytes, ih, List.range_succ_eq_map, List.map_cons, List.map_map, Function.comp_def, Nat.succ_eq_add_one,
      Nat.add_zero, Nat.add_assoc, Nat.add_comm 1]

theorem copBytes_priv (h : a.toNat + n ≤ 0x7FE0) (s : State) :
    copBytes q a s n = Sparse.bytes byteDflt s.ram (privRam q a.toNat) n := by
  rw [copBytes, Sparse.bytes_eq_map]
  refine List.map_congr_left fun i hi => ?_
  have hi := List.mem_range.1 hi
  have ha : (a + BitVec.ofNat 16 i).toNat = a.toNat + i := toNat_add_ofNat (by omega)
  rw [dxPlace_priv (by omega), ha, privRam, ← Nat.add_assoc]
  rfl

theorem copRead_priv (h : a.toNat + n ≤ 0x7FE0) (hn : 0 < n) (hal : a.toNat % al = 0) (cp : Nat) (s : State) :
    copRead q cp a n al s = .ok (Sparse.bytes byteDflt s.ram (privRam q a.toNat) n, addCycles q 0 s) := by
  rw [copRead, copBlock_priv h hn hal, copBytes_priv h]

theorem copRead_misaligned (hal : a.toNat % al ≠ 0) (cp : Nat) (s : State) :
    copRead q cp a n al s = .error (copErr cp 3) := by
  rw [copRead, copBlock_misaligned hal]

/-- A block written from its `k`-th byte on. -/
theorem placeWrites_priv (bs : List Byte) (k : Nat) (s : State) (h : a.toNat + k + bs.length ≤ 0x7FE0) :
    (bs.zipIdx k).foldl (fun s (p : Byte × Nat) => placeWrite q (dxPlace q (s.seq q.val) (a + BitVec.ofNat 16 p.2)) p.1 s) s =
      { s with ram := Sparse.putBytes byteDflt s.ram (privRam q (a.toNat + k)) bs } := by
  induction bs generalizing k s with
  | nil => rfl
  | cons b bs ih =>
    rw [List.length_cons] at h
    have ha : (a + BitVec.ofNat 16 k).toNat = a.toNat + k := toNat_add_ofNat (by omega)
    rw [List.zipIdx_cons, List.foldl_cons, ih (k + 1) _ (by omega)]
    dsimp only
    rw [dxPlace_priv (by omega), ha]
    rfl

theorem copPut_priv (bs : List Byte) (h : a.toNat + bs.length ≤ 0x7FE0) (s : State) :
    copPut q a bs s = { s with ram := Sparse.putBytes byteDflt s.ram (privRam q a.toNat) bs } :=
  placeWrites_priv bs 0 s h

end Sys2Proof.Machine
end

section
/-! SUPPORT. A sequencer in the midst of an instruction: only its cycle count, its timer and PC have moved (R389, R394, R399). -/
namespace Sys2Proof.Machine

variable {s t u : State} {q : SeqId}

theorem Seq.advance_frame (sq : Seq) (n : Nat) : sq.advance n =
    { sq with cyc := (sq.advance n).cyc, presc := (sq.advance n).presc, timer := (sq.advance n).timer } := by
  unfold Seq.advance
  dsimp only
  split <;> rfl

/-- From one state to another a sequencer has only spent cycles and moved its PC, as far as its coprocessor can tell. -/
structure Paced (q : SeqId) (s t : State) : Prop where
  ram : t.ram = s.ram
  regs : t.regs = s.regs
  x : (t.seq q.val).x = (s.seq q.val).x
  y : (t.seq q.val).y = (s.seq q.val).y
  wide : (t.seq q.val).wide = (s.seq q.val).wide
  rep : (t.seq q.val).rep = (s.seq q.val).rep

theorem Paced.trans (h : Paced q s t) (k : Paced q t u) : Paced q s u :=
  ⟨k.ram.trans h.ram, k.regs.trans h.regs, k.x.trans h.x, k.y.trans h.y, k.wide.trans h.wide, k.rep.trans h.rep⟩

theorem Paced.addCycles (n : Nat) (s : State) : Paced q s (Machine.addCycles q n s) := by
  constructor
  · rfl
  · rfl
  all_goals
    rw [show (Machine.addCycles q n s).seq q.val = (s.seq q.val).advance n from onSeq_seq (fun r => r.advance n), Seq.advance_frame]

theorem Paced.dxFetched (len cyc : Nat) (s : State) : Paced q s (Machine.dxFetched q len cyc s) := by
  constructor
  · rfl
  · rfl
  all_goals rw [Machine.dxFetched, onSeq_seq, Seq.advance_frame]

theorem Paced.w (h : Paced q s t) (i : Nat) : (t.seq q.val).w i = (s.seq q.val).w i := by rw [Seq.w, h.wide, Seq.w]

/-- A block of the sequencer's own RAM is read as it was when the instruction began. -/
theorem Paced.copRead (hp : Paced q s t) {a : BitVec 16} {n al : Nat} (h : a.toNat + n ≤ 0x7FE0) (hn : 0 < n)
    (hal : a.toNat % al = 0) (cp : Nat) : ∃ u, Paced q s u ∧
      Machine.copRead q cp a n al t = .ok (Sparse.bytes byteDflt s.ram (privRam q a.toNat) n, u) :=
  ⟨_, hp.trans (.addCycles 0 t), by rw [copRead_priv h hn hal, hp.ram]⟩

end Sys2Proof.Machine
end

section
/-! SUPPORT. The frame of the discriminators of CP0: their checks, the record at X, and the result in Wd (R154, R409). -/
namespace Sys2Proof.Machine

variable {s s1 t : State} {q : SeqId} {r : Byte} {k cyc : Nat} {src ok : Bool} {o : Option Int}

@[simp] theorem Seq.w_setW (sq : Seq) (i : Nat) (v : BitVec 48) : (sq.setW i v).w i = v := Sparse.get_put_self _ _ _

/-- A 48-bit word is its signed value. -/
theorem ofInt_wideVal48 (v : BitVec 48) : BitVec.ofInt 48 (wideVal 48 true v) = v := by
  have hv : wideVal 48 true v = v.toInt := by
    rw [BitVec.toInt_eq_msb_cond, BitVec.msb_eq_decide, wideVal, Nat.mod_eq_of_lt v.isLt, Bool.true_and]
    rfl
  rw [hv, BitVec.ofInt_toInt]

theorem wideOf_signed48 (i : Int) : wideOf 48 true i = BitVec.ofInt 48 i := by
  rw [wideOf, ofInt_wideVal48]
  refine BitVec.eq_of_toInt_eq ?_
  rw [BitVec.toInt_ofInt, BitVec.toInt_ofInt]
  exact Int.emod_bmod i (2 ^ 48)

/-- A discriminator has ended (R154): Wd holds its result, or 0 where it is invalid, B says which, no register changed, and
an invalid result leaves the memories of the sequencers as it was. -/
structure DiscEnds (q : SeqId) (d : Nat) (s : State) (o : Option Int) (t : State) : Prop where
  w : (t.seq q.val).w d = BitVec.ofInt 48 (o.getD 0)
  b : (t.seq q.val).b = if o.isNone then 1 else 0
  regs : t.regs = s.regs
  ram : o = none → t.ram = s.ram
  rep : (t.seq q.val).rep = none

theorem DiscEnds.discPut (hregs : t.regs = s.regs) (hram : o = none → t.ram = s.ram) (hrep : (t.seq q.val).rep = none) :
    DiscEnds q (rDst r) s o (Machine.discPut q r o t) where
  w := by rw [Machine.discPut, onSeq_seq, ← wideOf_signed48]; exact Seq.w_setW _ _ _
  b := by rw [Machine.discPut, onSeq_seq]; rfl
  regs := hregs
  ram := hram
  rep := by rw [Machine.discPut, onSeq_seq]; exact hrep

theorem DiscEnds.discPut_of_paced (hp : Paced q s t) (hrep : (s.seq q.val).rep = none) :
    DiscEnds q (rDst r) s o (Machine.discPut q r o t) :=
  .discPut hp.regs (fun _ => hp.ram) (hp.rep.trans hrep)

theorem DiscEnds.addCycles (h : DiscEnds q k s o t) (n : Nat) : DiscEnds q k s o (Machine.addCycles q n t) := by
  have hs : (Machine.addCycles q n t).seq q.val = (t.seq q.val).advance n := onSeq_seq (fun r => r.advance n)
  have hp : Paced q t (Machine.addCycles q n t) := .addCycles n t
  exact ⟨(hp.w k).trans h.w, by rw [hs, Seq.advance_frame]; exact h.b, hp.regs.trans h.regs,
    fun ho => hp.ram.trans (h.ram ho), hp.rep.trans h.rep⟩

/-- Outside a REP nothing follows an instruction's effect. -/
theorem DiscEnds.retired (h : DiscEnds q k s o t) (pc : BitVec 16) : DiscEnds q k s o (onSeq q (dxRetire pc) t) := by
  have hs : (onSeq q (dxRetire pc) t).seq q.val = t.seq q.val := by rw [onSeq_seq, dxRetire, h.rep]
  exact ⟨hs ▸ h.w, hs ▸ h.b, h.regs, h.ram, hs ▸ h.rep⟩

/-- The dump record at an address of the sequencer's own RAM (R146). -/
abbrev dumpRec (q : SeqId) (s : State) (x : Nat) : List Byte := Sparse.bytes byteDflt s.ram (privRam q x) 64

/-- The sixteen bytes of CN0_MB's and PLI's state at Y (R409). -/
abbrev avgState (q : SeqId) (s : State) : List Byte := Sparse.bytes byteDflt s.ram (privRam q (s.seq q.val).y.toNat) 16

/-- A sequencer with a CP0 executes an instruction outside a REP. -/
structure Cp0Ready (q : SeqId) (s : State) : Prop where
  ready : DxReady q s
  ring : q.val < 10
  rep : (s.seq q.val).rep = none

/-- The records lie at X, aligned, and the state at Y, in the sequencer's own RAM. -/
structure DiscInput (q : SeqId) (s : State) : Prop where
  aligned : (s.seq q.val).x.toNat % 64 = 0
  recs : (s.seq q.val).x.toNat + 128 ≤ 0x7FE0
  state : (s.seq q.val).y.toNat + 16 ≤ 0x7FE0

theorem copInstr_ends (hc : Cp0Ready q s) {body : State → Except DxErr State} {d : Nat}
    (hb : ∀ s1, Paced q s s1 → ∃ t, body s1 = .ok t ∧ DiscEnds q d s o t) : DiscEnds q d s o (copInstr q 0 k cyc body s) := by
  obtain ⟨t, ht, hd⟩ := hb _ (.dxFetched (2 + k) (2 + cyc) s)
  rw [copInstr, dxInstr_ok hc.ready (t := t) (by simp [copPresent, hc.ring, ht])]
  exact hd.retired _

theorem copInstr_fault (hc : Cp0Ready q s) {body : State → Except DxErr State} {e : DxErr}
    (hb : ∀ s1, Paced q s s1 → body s1 = .error e) : copInstr q 0 k cyc body s = dxFault q e s := by
  rw [copInstr, dxInstr_fault hc.ready (e := e) (by simp [copPresent, hc.ring, hb _ (.dxFetched (2 + k) (2 + cyc) s)])]

theorem discFn_ends (hc : Cp0Ready q s) (hi : DiscInput q s) (hr : src = true ∨ rSrc r = 0) (hok : ok = true)
    {f : List Byte → State → Except DxErr State}
    (hf : ∀ s1, Paced q s s1 → ∃ t, f (dumpRec q s (s.seq q.val).x.toNat) s1 = .ok t ∧ DiscEnds q (rDst r) s o t) :
    DiscEnds q (rDst r) s o (discFn q .u32 k cyc r src ok f s) := by
  have hx := hi.recs
  refine copInstr_ends hc fun s1 hp => ?_
  obtain ⟨s2, hp2, hread⟩ := hp.copRead (a := (s.seq q.val).x) (n := 64) (al := 64) (by omega) (by omega) hi.aligned 0
  have hops : ((!src && rSrc r != 0) || !ok) = false := by obtain h | h := hr <;> simp [h, hok]
  simp only [ne_eq, not_true_eq_false, if_false, hops, Bool.false_eq_true, hp.x, hread]
  exact hf s2 hp2

theorem discFn_misaligned (hc : Cp0Ready q s) (hx : (s.seq q.val).x.toNat % 64 ≠ 0) (hr : src = true ∨ rSrc r = 0)
    (hok : ok = true) (f : List Byte → State → Except DxErr State) :
    discFn q .u32 k cyc r src ok f s = dxFault q (copErr 0 3) s := by
  refine copInstr_fault hc fun s1 hp => ?_
  have hops : ((!src && rSrc r != 0) || !ok) = false := by obtain h | h := hr <;> simp [h, hok]
  simp only [ne_eq, not_true_eq_false, if_false, hops, Bool.false_eq_true, hp.x, copRead_misaligned hx]

theorem discFn_outOfRange (hc : Cp0Ready q s) (hok : ok = false) (f : List Byte → State → Except DxErr State) :
    discFn q .u32 k cyc r src ok f s = dxFault q (copErr 0 2) s :=
  copInstr_fault hc fun s1 _ => by simp [hok]

/-- A second record, one access more, and the result (R409). -/
theorem fllFn_ends (hc : Cp0Ready q s) (hi : DiscInput q s) (full : Bool) (rec : List Byte) (hp : Paced q s s1) :
    ∃ t, fllFn q full r rec s1 = .ok t ∧ DiscEnds q (rDst r) s
      (fll full rec (dumpRec q s ((s.seq q.val).x.toNat + 64)) (((s.seq q.val).w (rSrc r)).toNat % 2 ^ 32)).result t := by
  have hx := hi.recs
  have hx64 : ((s.seq q.val).x + 64).toNat = (s.seq q.val).x.toNat + 64 := toNat_add_ofNat (i := 64) (by omega)
  have hal : ((s.seq q.val).x + 64).toNat % 64 = 0 := by rw [hx64, Nat.add_mod_right, hi.aligned]
  obtain ⟨s2, hp2, hread⟩ := hp.copRead (a := (s.seq q.val).x + 64) (n := 64) (al := 64) (by omega) (by omega) hal 0
  refine ⟨_, by rw [fllFn, hp.x, hread], ?_⟩
  rw [hx64, hp2.w]
  exact (DiscEnds.discPut_of_paced hp2 hc.rep).addCycles _

/-- The state at Y is read, and written back where the result is valid (R409). -/
theorem avgFn_ends (hc : Cp0Ready q s) (hi : DiscInput q s) {f : List Byte → Seq → DiscOut} {o : DiscOut}
    (hf : ∀ u, Paced q s u → f (avgState q s) (u.seq q.val) = o) (hlen : o.state.length ≤ 16) (hp : Paced q s s1) :
    ∃ t, avgFn q r f s1 = .ok t ∧ DiscEnds q (rDst r) s o.result t := by
  have hy := hi.state
  obtain ⟨s2, hp2, hread⟩ := hp.copRead (a := (s.seq q.val).y) (n := 16) (al := 1) (by omega) (by omega) (Nat.mod_one _) 0
  refine ⟨_, by rw [avgFn, hp.y, hread]; dsimp only; rw [copBlock_priv hy (by omega) (Nat.mod_one _)], ?_⟩
  rw [hf s2 hp2, copPut_priv _ (by omega)]
  by_cases ho : o.result = none
  · rw [ho]
    exact .discPut_of_paced hp2 hc.rep
  · rw [if_neg (by simpa using ho)]
    exact .discPut hp2.regs (fun h => absurd h ho) (hp2.rep.trans hc.rep)

end Sys2Proof.Machine
end

section
/-! SUPPORT. The corner cases of the discriminators' formulas: where they are invalid, and where they are 0 or half a cycle
(R154, assumptions 127 and 128). -/
namespace Sys2Proof.Machine

@[simp] theorem roundAway_zero (den : Nat) : roundAway 0 den = 0 := by
  have h : den / (2 * den) = 0 := by
    rw [Nat.mul_comm, ← Nat.div_div_eq_div_mul]
    obtain rfl | h := den.eq_zero_or_pos
    · rfl
    · rw [Nat.div_self h]
  simp [roundAway, h]

/-! Angles on the positive real axis. -/

/-- Scaling keeps a positive real number positive and real: at most the digits below its leading one are lost. -/
theorem angScale_pos_real {re : Int} (h : 0 < re) : ∃ x, 0 < x ∧ angScale re 0 = (x, 0) := by
  unfold angScale
  dsimp only
  split
  · exact ⟨re * 2 ^ (angWork - _), Int.mul_pos h (Int.pow_pos zero_lt_two), by rw [Int.zero_mul]⟩
  · refine ⟨_, ?_, by rw [Int.zero_tdiv]⟩
    have hlog : 2 ^ Nat.log2 re.natAbs ≤ re.natAbs := Nat.log2_self_le (Int.natAbs_ne_zero.2 (ne_of_gt h))
    have hle : 2 ^ (Nat.log2 re.natAbs - angWork) ≤ re.natAbs := (Nat.pow_le_pow_right (by decide) (Nat.sub_le _ _)).trans hlog
    rw [Int.natAbs_zero, Nat.max_zero, Int.tdiv_eq_ediv_of_nonneg (le_of_lt h)]
    refine Int.lt_of_add_one_le (Int.le_ediv_of_mul_le (Int.pow_pos zero_lt_two) ?_)
    have hc : ((2 ^ (Nat.log2 re.natAbs - angWork) : Nat) : Int) ≤ re.natAbs := Int.ofNat_le.2 hle
    rwa [Int.natAbs_of_nonneg (le_of_lt h), Nat.cast_pow, ← Int.one_mul (_ ^ _)] at hc

theorem angBits_pos_real (n : Nat) {re : Int} (h : 0 < re) (acc : Nat) : angBits n re 0 acc = acc * 2 ^ n := by
  induction n generalizing re acc with
  | zero => rw [angBits, pow_zero, Nat.mul_one]
  | succ n ih =>
    obtain ⟨x, hx, hs⟩ := angScale_pos_real (Int.mul_pos h h)
    have hb : ¬ ((0 : Int) < 0 ∨ (0 : Int) = 0 ∧ re < 0) := by omega
    rw [angBits, if_neg hb, Int.mul_zero, Int.mul_zero, Int.sub_zero, hs, ih hx]
    ring

theorem angTurns_pos_real {re : Int} (h : 0 < re) : angTurns re 0 = 0 := by
  obtain ⟨x, hx, hs⟩ := angScale_pos_real h
  simp only [angTurns, Int.natAbs_zero, Int.natCast_zero, hs, angBits_pos_real 97 hx, Nat.zero_mul, neg_zero, ite_self]

theorem atanTurns_pos_real {re : Int} (h : 0 < re) : atanTurns re 0 = 0 := by
  rw [atanTurns, if_neg (by omega), angTurns_pos_real h]

/-! DLL_EL. -/

theorem dllEl_invalid {e l k he : Nat} (h : k = 0 ∨ 256 ≤ k * he ∨ e + l = 0) : dllEl e l k he = none := by
  rw [dllEl, if_pos (by omega)]

theorem dllEl_balanced {e l k he : Nat} (hk : k ≠ 0) (hh : k * he < 256) (hel : e = l) (he0 : 0 < e) :
    dllEl e l k he = some 0 := by
  rw [dllEl, if_neg (by omega), if_pos hel]

/-! PLL_C and PLL_A. -/

theorem pllC_no_prompt {rec : List Byte} (h : tapOf rec 2 = (0, 0)) : (pllC rec).result = none := by simp [pllC, h]

theorem pllA_no_prompt {rec : List Byte} (h : tapOf rec 2 = (0, 0)) : (pllA rec).result = none := by simp [pllA, h]

theorem pllA_negative_real {rec : List Byte} (h1 : (tapOf rec 2).1 < 0) (h2 : (tapOf rec 2).2 = 0) :
    (pllA rec).result = some (-2147483648) := by
  simp [pllA, h1, h2, ne_of_lt h1]

theorem pllC_positive_real {rec : List Byte} (h1 : 0 < (tapOf rec 2).1) (h2 : (tapOf rec 2).2 = 0) :
    (pllC rec).result = some 0 := by
  simp [pllC, h2, ne_of_gt h1, atanTurns_pos_real h1]

theorem pllA_positive_real {rec : List Byte} (h1 : 0 < (tapOf rec 2).1) (h2 : (tapOf rec 2).2 = 0) :
    (pllA rec).result = some 0 := by
  simp [pllA, h2, ne_of_gt h1, not_lt_of_gt h1, angTurns_pos_real h1]

/-! FLL_C and FLL_A. -/

theorem fll_invalid {r0 r1 : List Byte} {t : Nat} (full : Bool)
    (h : t = 0 ∨ (leAt r1 4 2 ≠ (leAt r0 4 2 + 1) % 65536 ∧ leAt r0 4 2 ≠ (leAt r1 4 2 + 1) % 65536)) :
    (fll full r0 r1 t).result = none := by
  obtain h | ⟨h1, h2⟩ := h
  · unfold fll
    split
    · rfl
    · rw [if_pos (.inr h)]
  · rw [fll, fllOrder, if_neg h1, if_neg h2]

/-- Equal prompts have no cross product and a positive dot product. -/
theorem fll_equal_prompts {r0 r1 : List Byte} {t : Nat} (full : Bool) (ht : t ≠ 0) (hs : leAt r1 4 2 = (leAt r0 4 2 + 1) % 65536)
    (hp : tapOf r1 2 = tapOf r0 2) (h0 : tapOf r0 2 ≠ (0, 0)) : (fll full r0 r1 t).result = some 0 := by
  have hd : 0 < (tapOf r0 2).1 * (tapOf r0 2).1 + (tapOf r0 2).2 * (tapOf r0 2).2 := by
    by_contra hn
    exact h0 (Prod.ext_iff.2 (mul_self_add_mul_self_eq_zero.1 (le_antisymm (not_lt.1 hn)
      (add_nonneg (mul_self_nonneg _) (mul_self_nonneg _)))))
  rw [fll, fllOrder, if_pos hs]
  dsimp only
  rw [hp, sub_self, if_neg (by omega), angTurns_pos_real hd, atanTurns_pos_real hd, ite_self, Int.zero_mul, roundAway_zero]

/-! CN0_MB and PLI. -/

theorem cn0Mb_invalid (rec st : List Byte) (a : Nat) : (cn0Mb rec st 0 a).result = none := by simp [cn0Mb]

theorem leNat_zeros {bs : List Byte} (h : ∀ b ∈ bs, b = 0) : leNat bs = 0 := by
  induction bs with
  | nil => rfl
  | cons b bs ih => rw [leNat, h b List.mem_cons_self, ih fun c hc => h c (List.mem_cons_of_mem _ hc)]; rfl

theorem leAt_zeros {bs : List Byte} (h : ∀ b ∈ bs, b = 0) (off n : Nat) : leAt bs off n = 0 :=
  leNat_zeros fun b hb => h b (List.mem_of_mem_drop (List.mem_of_mem_take hb))

theorem pliOf_invalid {rec st : List Byte} (hp : tapOf rec 2 = (0, 0)) (hs : ∀ b ∈ st, b = 0) (a : Nat) :
    (pliOf rec st a).result = none := by
  simp [pliOf, hp, leAt_zeros hs, avgStep]

theorem length_cn0Mb_state (rec st : List Byte) (t a : Nat) : (cn0Mb rec st t a).state.length ≤ 16 := by
  unfold cn0Mb
  dsimp only
  split <;> simp

theorem length_pliOf_state (rec st : List Byte) (a : Nat) : (pliOf rec st a).state.length ≤ 16 := by
  unfold pliOf
  dsimp only
  split <;> simp

end Sys2Proof.Machine
end

section
/-! PROOFS. O58: each discriminator's instruction completes with what its formula finds (R154, R409). -/
namespace Sys2Proof.Machine

variable {s : State} {q : SeqId} {r k he a : Byte} {o : Option Int} {i : Instr} {d u : Nat}

/-- A discriminator's instruction completes with a result, none where it is invalid. -/
def DiscFinds (i : Instr) (q : SeqId) (d : Nat) (s : State) (o : Option Int) : Prop := ∃ t, exec i s = .next t ∧ DiscEnds q d s o t

theorem DiscFinds.does (h : DiscFinds i q d s o) : ∃ t, exec i s = .next t ∧ (t.seq q.val).w d = BitVec.ofInt 48 (o.getD 0) ∧
    (t.seq q.val).b = (if o.isNone then 1 else 0) ∧ t.regs = s.regs :=
  let ⟨t, ht, hd⟩ := h
  ⟨t, ht, hd.w, hd.b, hd.regs⟩

theorem DiscFinds.gives {v : Int} (h : DiscFinds i q d s o) (ho : o = some v) : ∃ t, exec i s = .next t ∧
    (t.seq q.val).w d = BitVec.ofInt 48 v ∧ (t.seq q.val).b = 0 ∧ t.regs = s.regs := by
  subst ho
  exact h.does

theorem DiscFinds.invalid (h : DiscFinds i q d s o) (ho : o = none) : ∃ t, exec i s = .next t ∧
    (t.seq q.val).w d = 0 ∧ (t.seq q.val).b = 1 ∧ t.ram = s.ram ∧ t.regs = s.regs := by
  subst ho
  obtain ⟨t, ht, hd⟩ := h
  exact ⟨t, ht, hd.w, hd.b, hd.ram rfl, hd.regs⟩

section
variable (hc : Cp0Ready q s) (hi : DiscInput q s) (hd : rDst r = d)
include hc hi hd

theorem dllEl_finds (hr : rSrc r = 0) (hk : k.toNat ≤ 15) (hh : he.toNat ≤ 127) : DiscFinds (.cp0DllEl q .u32 r k he) q d s
    (dllEl (tapPower (tapOf (dumpRec q s (s.seq q.val).x.toNat) 1)) (tapPower (tapOf (dumpRec q s (s.seq q.val).x.toNat) 3))
      k.toNat he.toNat) :=
  hd ▸ ⟨_, rfl, discFn_ends hc hi (.inr hr) (by simp [hk, hh]) fun _ hp => ⟨_, rfl, .discPut_of_paced hp hc.rep⟩⟩

theorem pllC_finds (hr : rSrc r = 0) : DiscFinds (.cp0PllC q .u32 r) q d s (pllC (dumpRec q s (s.seq q.val).x.toNat)).result :=
  hd ▸ ⟨_, rfl, discFn_ends hc hi (.inr hr) rfl fun _ hp => ⟨_, rfl, .discPut_of_paced hp hc.rep⟩⟩

theorem pllA_finds (hr : rSrc r = 0) (hn : (pllA (dumpRec q s (s.seq q.val).x.toNat)).result ≠ some 2147483648) :
    DiscFinds (.cp0PllA q .u32 r) q d s (pllA (dumpRec q s (s.seq q.val).x.toNat)).result :=
  hd ▸ ⟨_, rfl, discFn_ends hc hi (.inr hr) rfl fun _ hp => ⟨_, if_neg hn, .discPut_of_paced hp hc.rep⟩⟩

theorem fllC_finds (hu : rSrc r = u) : DiscFinds (.cp0FllC q .u32 r) q d s
    (fll false (dumpRec q s (s.seq q.val).x.toNat) (dumpRec q s ((s.seq q.val).x.toNat + 64))
      (((s.seq q.val).w u).toNat % 2 ^ 32)).result :=
  hd ▸ hu ▸ ⟨_, rfl, discFn_ends hc hi (.inl rfl) rfl fun _ hp => fllFn_ends hc hi false _ hp⟩

theorem fllA_finds (hu : rSrc r = u) : DiscFinds (.cp0FllA q .u32 r) q d s
    (fll true (dumpRec q s (s.seq q.val).x.toNat) (dumpRec q s ((s.seq q.val).x.toNat + 64))
      (((s.seq q.val).w u).toNat % 2 ^ 32)).result :=
  hd ▸ hu ▸ ⟨_, rfl, discFn_ends hc hi (.inl rfl) rfl fun _ hp => fllFn_ends hc hi true _ hp⟩

theorem cn0Mb_finds (hu : rSrc r = u) (ha : a.toNat ≤ 15) : DiscFinds (.cp0Cn0Mb q .u32 r a) q d s
    (cn0Mb (dumpRec q s (s.seq q.val).x.toNat) (avgState q s) (((s.seq q.val).w u).toNat % 2 ^ 32) a.toNat).result :=
  hd ▸ hu ▸ ⟨_, rfl, discFn_ends hc hi (.inl rfl) (by simp [ha]) fun _ hp =>
    avgFn_ends hc hi (fun _ hu => by rw [hu.w]) (length_cn0Mb_state _ _ _ _) hp⟩

theorem pli_finds (hr : rSrc r = 0) (ha : a.toNat ≤ 15) : DiscFinds (.cp0Pli q .u32 r a) q d s
    (pliOf (dumpRec q s (s.seq q.val).x.toNat) (avgState q s) a.toNat).result :=
  hd ▸ ⟨_, rfl, discFn_ends hc hi (.inr hr) (by simp [ha]) fun _ hp =>
    avgFn_ends hc hi (fun _ _ => rfl) (length_pliOf_state _ _ _) hp⟩

end

/-! The operand byte r. -/

theorem rDst_ofNat (d u : Fin 16) : rDst (BitVec.ofNat 8 (16 * d.val + u.val)) = d.val := by
  rw [rDst, BitVec.toNat_ofNat]; omega

theorem rSrc_ofNat (d u : Fin 16) : rSrc (BitVec.ofNat 8 (16 * d.val + u.val)) = u.val := by
  rw [rSrc, BitVec.toNat_ofNat]; omega

end Sys2Proof.Machine
end

section
/-! PROOFS. O58: the discriminators of CP0 and their corner cases (R154, R409). -/
namespace Sys2Proof.Machine

/-- Settles O58: each discriminator completes with what its formula finds, and each corner case is one of its formula's. -/
theorem copDiscriminators : Obligations.CopDiscriminators := by
  unfold Obligations.CopDiscriminators
  intro q d u k he a s hready hring hrep r rd ru x rec0 rec1 st t32 e l p invalid gives does
  have hc : Cp0Ready q s := ⟨hready, hring, hrep⟩
  have hrdD : rDst rd = d.val := rDst_ofNat d 0
  have hrdS : rSrc rd = 0 := rSrc_ofNat d 0
  have hruD : rDst ru = d.val := rDst_ofNat d u
  have hruS : rSrc ru = u.val := rSrc_ofNat d u
  refine ⟨fun hx hrec hy => ?_, fun hx => ⟨?_, ?_⟩, fun h => ?_⟩
  · have hi : DiscInput q s := ⟨hx, hrec, hy⟩
    have dll (hk : k.toNat ≤ 15) (hh : he.toNat ≤ 127) : DiscFinds (.cp0DllEl q .u32 rd k he) q d.val s
        (dllEl e l k.toNat he.toNat) :=
      dllEl_finds hc hi hrdD hrdS hk hh
    have plC : DiscFinds (.cp0PllC q .u32 rd) q d.val s (pllC rec0).result := pllC_finds hc hi hrdD hrdS
    have plA (hn) : DiscFinds (.cp0PllA q .u32 rd) q d.val s (pllA rec0).result := pllA_finds hc hi hrdD hrdS hn
    have flC : DiscFinds (.cp0FllC q .u32 ru) q d.val s (fll false rec0 rec1 t32).result := fllC_finds hc hi hruD hruS
    have flA : DiscFinds (.cp0FllA q .u32 ru) q d.val s (fll true rec0 rec1 t32).result := fllA_finds hc hi hruD hruS
    have cn0 (ha : a.toNat ≤ 15) : DiscFinds (.cp0Cn0Mb q .u32 ru a) q d.val s (cn0Mb rec0 st t32 a.toNat).result :=
      cn0Mb_finds hc hi hruD hruS ha
    have pli (ha : a.toNat ≤ 15) : DiscFinds (.cp0Pli q .u32 rd a) q d.val s (pliOf rec0 st a.toNat).result :=
      pli_finds hc hi hrdD hrdS ha
    refine ⟨fun hk hh h => (dll hk hh).invalid (dllEl_invalid ?_), fun hk hh h0 hlt hel he0 => (dll hk hh).gives ?_,
      fun hp => ⟨plC.invalid (pllC_no_prompt hp), (plA ?_).invalid (pllA_no_prompt hp)⟩,
      fun h1 h2 => (plA ?_).gives (pllA_negative_real h1 h2),
      fun h1 h2 => ⟨plC.gives (pllC_positive_real h1 h2), (plA ?_).gives (pllA_positive_real h1 h2)⟩,
      fun h => ⟨flC.invalid (fll_invalid false h), flA.invalid (fll_invalid true h)⟩,
      fun ht hs hp h0 => ⟨flC.gives (fll_equal_prompts false ht hs hp h0), flA.gives (fll_equal_prompts true ht hs hp h0)⟩,
      fun hk hh => (dll hk hh).does, plC.does, fun hn => (plA hn).does, flC.does, flA.does,
      fun ha => ⟨(cn0 ha).does, (pli ha).does⟩, fun ha ht => (cn0 ha).invalid ?_,
      fun ha hp hs => (pli ha).invalid (pliOf_invalid hp hs _)⟩
    · exact h.imp_left fun hk0 => by rw [hk0]; rfl
    · exact dllEl_balanced (fun hk0 => h0 (BitVec.eq_of_toNat_eq hk0)) hlt hel he0
    · rw [pllA_no_prompt hp]; decide
    · rw [pllA_negative_real h1 h2]; decide
    · rw [pllA_positive_real h1 h2]; decide
    · rw [ht]; exact cn0Mb_invalid _ _ _
  · exact congrArg Host.Outcome.next (discFn_misaligned hc hx (.inr hrdS) rfl _)
  · exact congrArg Host.Outcome.next (discFn_misaligned hc hx (.inr hrdS) rfl _)
  · exact congrArg Host.Outcome.next (discFn_outOfRange hc (by simp; omega) _)

end Sys2Proof.Machine
end

section
/-! SUPPORT. The navigation data path beside its registers: a channel's decoder, the symbol FIFOs, and what the decoder's
operations leave as it was (R169 to R181). -/
namespace Sys2Proof.Machine

variable {K L : List Fld} {k : Nat} {s t u : State}

/-! Decoders and FIFOs. -/

@[simp] theorem navCh_setNavCh (s : State) (k j : Nat) (c : NavCh) :
    navCh (setNavCh s k c) j = if j = k then c else navCh s j := by
  simp [navCh, setNavCh, Sparse.get_put]

@[simp] theorem fld_setNavCh (s : State) (k : Nat) (c : NavCh) (f : Fld) : (setNavCh s k c).fld f = s.fld f := rfl

@[simp] theorem regs_setNavCh (s : State) (k : Nat) (c : NavCh) : (setNavCh s k c).regs = s.regs := rfl

@[simp] theorem bit_setNavCh (s : State) (k : Nat) (c : NavCh) (f : Fld) : (setNavCh s k c).bit f = s.bit f := rfl

@[simp] theorem navUnits_setNavCh (s : State) (k : Nat) (c : NavCh) : (setNavCh s k c).navUnits = s.navUnits := rfl

@[simp] theorem navFifo_setNavCh (s : State) (k : Nat) (c : NavCh) : (setNavCh s k c).navFifo = s.navFifo := rfl

theorem MemsSame.setNavCh (s : State) (k : Nat) (c : NavCh) : MemsSame s (Machine.setNavCh s k c) := ⟨rfl, rfl, rfl, rfl⟩

@[simp] theorem navCh_setFld (s : State) (f : Fld) (v k : Nat) : navCh (s.setFld f v) k = navCh s k := rfl

theorem WordsOnly.navCh {ks : List Nat} (h : WordsOnly ks s t) (k : Nat) : Machine.navCh t k = Machine.navCh s k := by
  rw [Machine.navCh, (congrArg State.nav h.rest :), Machine.navCh]

theorem WordsOnly.navFifo {ks : List Nat} (h : WordsOnly ks s t) : t.navFifo = s.navFifo := (congrArg State.navFifo h.rest :)

theorem WordsOnly.navUnits {ks : List Nat} (h : WordsOnly ks s t) : t.navUnits = s.navUnits := (congrArg State.navUnits h.rest :)

theorem navQueue_congr (h : t.navFifo = s.navFifo) (n : Nat) : navQueue t n = navQueue s n := by rw [navQueue, h, navQueue]

@[simp] theorem navQueue_setNavQueue (s : State) (n : Nat) (q : List (Word × Nat × Nat)) : navQueue (setNavQueue s n q) n = q :=
  Sparse.get_put_self s.navFifo n q

@[simp] theorem navCh_setNavQueue (s : State) (n : Nat) (q : List (Word × Nat × Nat)) (k : Nat) :
    navCh (setNavQueue s n q) k = navCh s k := rfl

theorem RegsBut.setNavQueue (s : State) (n : Nat) (q : List (Word × Nat × Nat)) :
    RegsBut [R.NAV_RING_STAT n] s (Machine.setNavQueue s n q) :=
  (WordsOnly.setFld (F.NAV_RING_STAT_LEVEL n) q.length _).words

theorem MemsSame.setNavQueue (s : State) (n : Nat) (q : List (Word × Nat × Nat)) : MemsSame s (Machine.setNavQueue s n q) :=
  ⟨rfl, rfl, rfl, rfl⟩

/-- LEVEL shows the words of a FIFO, 64 at most (R171). -/
theorem level_setNavQueue (s : State) (n : Nat) {q : List (Word × Nat × Nat)} (hq : q.length ≤ 64) :
    (setNavQueue s n q).fld (F.NAV_RING_STAT_LEVEL n) = q.length :=
  (State.fld_setFld _ _ _ (by simp) (by simp)).trans (Nat.mod_eq_of_lt (by simp only; omega))

theorem plainKey_nav {a : Nat} (h : 0x200000 ≤ a) (h' : a < 0x400000) : plainKey a := by
  simp only [plainKey, R.MSIX_PBA]
  omega

/-! Frames of the decoder of channel `k`. -/

/-- Fields of a list, the memories, pending events, the FIFOs and SYNC_LOST once set stand, and no unit that waits is lost. -/
structure NavKeeps (k : Nat) (K : List Fld) (s t : State) : Prop extends Keeps K s t where
  fifo : t.navFifo = s.navFifo
  units : s.navUnits.length ≤ t.navUnits.length
  lost : s.bit (F.NAV_CH_STAT_SYNC_LOST k) = true → t.bit (F.NAV_CH_STAT_SYNC_LOST k) = true

theorem NavKeeps.refl (k : Nat) (K : List Fld) (s : State) : NavKeeps k K s s := ⟨.refl K s, rfl, Nat.le_refl _, id⟩

theorem NavKeeps.trans (h : NavKeeps k K s t) (g : NavKeeps k K t u) : NavKeeps k K s u :=
  ⟨h.toKeeps.trans g.toKeeps, g.fifo.trans h.fifo, h.units.trans g.units, g.lost ∘ h.lost⟩

theorem NavKeeps.mono (h : NavKeeps k K s t) (hl : L ⊆ K) : NavKeeps k L s t :=
  ⟨h.toKeeps.mono hl, h.fifo, h.units, h.lost⟩

theorem NavKeeps.ite {c : Prop} [Decidable c] (ht : NavKeeps k K s t) (hu : NavKeeps k K s u) :
    NavKeeps k K s (if c then t else u) := by
  split <;> assumption

theorem NavKeeps.foldl {α : Type} {f : State → α → State} (hf : ∀ s a, NavKeeps k K s (f s a)) (l : List α) (s : State) :
    NavKeeps k K s (l.foldl f s) := by
  induction l generalizing s with
  | nil => exact .refl k K s
  | cons a l ih => exact (hf s a).trans (ih _)

/-- What leaves SYNC_LOST itself as it was. -/
theorem NavKeeps.of_keeps (h : Keeps (F.NAV_CH_STAT_SYNC_LOST k :: K) s t) (hq : t.navFifo = s.navFifo := by rfl)
    (hu : s.navUnits.length ≤ t.navUnits.length := by exact Nat.le_refl _) : NavKeeps k K s t where
  toKeeps := h.mono (List.subset_cons_self _ _)
  fifo := hq
  units := hu
  lost hl := by rwa [State.bit, h.flds _ List.mem_cons_self]

theorem NavKeeps.setNavCh (k : Nat) (K : List Fld) (c : NavCh) (s : State) : NavKeeps k K s (Machine.setNavCh s k c) :=
  .of_keeps .of_regs

theorem NavKeeps.setFld {f : Fld} (h : f.spares (F.NAV_CH_STAT_SYNC_LOST k :: K)) (v : Nat) (s : State) :
    NavKeeps k K s (s.setFld f v) := .of_keeps (.setFld f v s h)

/-- The fields of a channel's decoder that show more than its units: synchronisation, its loss, and the count of symbols. -/
def navShown (k : Nat) : List Fld :=
  [F.NAV_CH_STAT_SYNC k, F.NAV_CH_STAT_POL_VALID k, F.NAV_CH_STAT_SYNC_LOST k, F.NAV_CH_SYMIDX_SYMIDX k, F.NAV_CFG_LOSS_N]

/-- The count of a channel's symbols. -/
def navCount (k : Nat) : List Fld := [F.NAV_CH_SYMIDX_SYMIDX k]

theorem navCount_subset (k : Nat) : navCount k ⊆ navShown k := by simp [navCount, navShown]

/-- A field of STAT below SYNC and above SYNC_LOST, but POL_VALID, is none of those that show more than units. -/
theorem spares_navShown (hk : k < 320) {i : Nat} (hi : 18 ≤ i) (hi' : i < 21) :
    (⟨R.NAV_CH_STAT k, i, i⟩ : Fld).spares (F.NAV_CH_STAT_SYNC_LOST k :: navShown k) := by
  simp only [Fld.spares, navShown, List.forall_mem_cons, R.NAV_CH_STAT, List.not_mem_nil, false_imp_iff, implies_true, and_true]
  omega

/-- A field of STAT above SYNC_LOST is not the count. -/
theorem spares_navCount (hk : k < 320) {hi lo : Nat} (h : 18 ≤ lo) (h' : lo ≤ hi) (h'' : hi < 32) :
    (⟨R.NAV_CH_STAT k, hi, lo⟩ : Fld).spares (F.NAV_CH_STAT_SYNC_LOST k :: navCount k) := by
  simp only [Fld.spares, navCount, List.forall_mem_cons, R.NAV_CH_STAT, List.not_mem_nil, false_imp_iff, implies_true, and_true]
  omega

end Sys2Proof.Machine
end

section
/-! SUPPORT. What a unit that is queued for staging leaves of its channel's decoder (R179 to R185). -/
namespace Sys2Proof.Machine

variable {k : Nat} {s t u : State}

/-- Beside the frame, the buffer, how far synchronisation has come in it, where the unit begins, and the count of FAIL units. -/
structure NavHolds (k : Nat) (s t : State) : Prop extends NavKeeps k (navShown k) s t where
  buf : (navCh t k).buf = (navCh s k).buf
  seen : (navCh t k).seen = (navCh s k).seen
  start : (navCh t k).start = (navCh s k).start
  fails : (navCh t k).fails = (navCh s k).fails

theorem NavHolds.refl (k : Nat) (s : State) : NavHolds k s s := ⟨.refl k _ s, rfl, rfl, rfl, rfl⟩

theorem NavHolds.trans (h : NavHolds k s t) (g : NavHolds k t u) : NavHolds k s u :=
  ⟨h.toNavKeeps.trans g.toNavKeeps, g.buf.trans h.buf, g.seen.trans h.seen, g.start.trans h.start, g.fails.trans h.fails⟩

theorem NavHolds.ite {c : Prop} [Decidable c] (ht : NavHolds k s t) (hu : NavHolds k s u) : NavHolds k s (if c then t else u) := by
  split <;> assumption

/-- Other parts of the channel's decoder. -/
theorem NavHolds.setNavCh (c : NavCh) (s : State) (h1 : c.buf = (navCh s k).buf := by rfl) (h2 : c.seen = (navCh s k).seen := by rfl)
    (h3 : c.start = (navCh s k).start := by rfl) (h4 : c.fails = (navCh s k).fails := by rfl) :
    NavHolds k s (Machine.setNavCh s k c) := by
  refine ⟨.setNavCh k _ c s, ?_, ?_, ?_, ?_⟩ <;> rw [navCh_setNavCh, if_pos rfl] <;> assumption

theorem NavHolds.setStat (hk : k < 320) {i : Nat} (hi : 18 ≤ i) (hi' : i < 21) (v : Nat) (s : State) :
    NavHolds k s (s.setFld ⟨R.NAV_CH_STAT k, i, i⟩ v) := ⟨.setFld (spares_navShown hk hi hi') v s, rfl, rfl, rfl, rfl⟩

theorem NavHolds.queue (r : NavRec) (s : State) : NavHolds k s { s with navUnits := s.navUnits ++ [r] } :=
  ⟨.of_keeps .of_regs rfl (List.length_append ▸ Nat.le_add_right _ _), rfl, rfl, rfl, rfl⟩

theorem NavHolds.draw (s : State) : NavHolds k s s.draw.2 := ⟨.of_keeps .of_regs, rfl, rfl, rfl, rfl⟩

theorem NavHolds.unitTime (hk : k < 320) (f : NavFmt) (o : NavOut) (idx : Nat) (s : State) :
    NavHolds k s (Machine.unitTime k f o idx s).2 := by
  unfold Machine.unitTime
  split
  · exact (NavHolds.setNavCh _ s).trans (.setStat hk (by decide) (by decide) 1 _)
  · exact .refl k s

theorem NavHolds.symDseqAt (p : Nat) (s : State) : NavHolds k s (Machine.symDseqAt k p s).2 := by
  unfold Machine.symDseqAt
  split
  · exact .refl k s
  · exact .draw s

theorem NavHolds.osnmaFlush (s : State) : NavHolds k s (Machine.osnmaFlush k s) := by
  unfold Machine.osnmaFlush
  extract_lets c m u flags
  have hu : NavHolds k s u := .setNavCh _ s
  exact .ite hu (hu.trans (.queue _ u))

theorem NavHolds.osnmaCollect (o : NavOut) (tot : Option Nat) (idx : Nat) (dseq : Byte) (s : State) :
    NavHolds k s (Machine.osnmaCollect k o tot idx dseq s) := by
  unfold Machine.osnmaCollect
  split
  · next sec i _ =>
    extract_lets e u _ _ c w
    have hu : NavHolds k s u := .ite (.refl k s) (.osnmaFlush s)
    have hw : NavHolds k u w := by
      refine .setNavCh c u ?_ ?_ ?_ ?_ <;> (unfold c; split <;> rfl)
    exact .ite (.refl k s) (.ite (hu.trans (hw.trans (.osnmaFlush w))) (hu.trans hw))
  · exact .refl k s

/-- The count of consecutive FAIL units after one more (R178, R179). -/
def failsAfter (f : NavFmt) (o : NavOut) (c : NavCh) : Nat := if o.verdict f = 1 ∨ c.miss then c.fails + 1 else 0

/-- The channel's decoder with a unit counted. -/
def unitCounted (k : Nat) (f : NavFmt) (o : NavOut) (s : State) : State :=
  setNavCh s k { navCh s k with fails := failsAfter f o (navCh s k) }

/-- A unit is counted and queued with its transmit time and the dump that ends it, and the field it carries is collected. -/
theorem navQueueUnit_eq (k : Nat) (f : NavFmt) (s : State) (o : NavOut) : ∃ tot idx p dseq r,
    let u := (symDseqAt k p (unitTime k f o idx (unitCounted k f o s)).2).2
    navQueueUnit k f s o = osnmaCollect k o tot idx dseq { u with navUnits := u.navUnits ++ [r] } := ⟨_, _, _, _, _, rfl⟩

/-- Beside the count, queueing a unit lets the decoder stand, and one more unit waits. -/
theorem navQueueUnit_holds (hk : k < 320) (f : NavFmt) (s : State) (o : NavOut) : let t := navQueueUnit k f s o
    NavHolds k (unitCounted k f o s) t ∧ s.navUnits.length < t.navUnits.length := by
  obtain ⟨tot, idx, p, dseq, r, h⟩ := navQueueUnit_eq k f s o
  extract_lets u at h
  have hu : NavHolds k (unitCounted k f o s) u := (NavHolds.unitTime hk f o idx _).trans (.symDseqAt p _)
  have hq : NavHolds k u { u with navUnits := u.navUnits ++ [r] } := .queue r u
  have hc := NavHolds.osnmaCollect (k := k) o tot idx dseq { u with navUnits := u.navUnits ++ [r] }
  have hl : s.navUnits.length < (u.navUnits ++ [r]).length := by
    rw [List.length_append]
    exact Nat.lt_succ_of_le hu.units
  rw [h]
  exact ⟨hu.trans (hq.trans hc), Nat.lt_of_lt_of_le hl hc.units⟩

/-- What queueing a unit keeps: all but the count of FAIL units and what waits. -/
theorem navQueueUnit_keeps (hk : k < 320) (f : NavFmt) (s : State) (o : NavOut) :
    NavKeeps k (navShown k) s (navQueueUnit k f s o) :=
  (NavKeeps.setNavCh k _ _ s).trans (navQueueUnit_holds hk f s o).1.toNavKeeps

/-- Queueing a unit leaves the buffer and the places in it. -/
theorem navQueueUnit_place (hk : k < 320) (f : NavFmt) (s : State) (o : NavOut) : let t := navQueueUnit k f s o
    (navCh t k).buf = (navCh s k).buf ∧ (navCh t k).seen = (navCh s k).seen ∧ (navCh t k).fails = failsAfter f o (navCh s k) := by
  have h := (navQueueUnit_holds hk f s o).1
  have hc : navCh (unitCounted k f o s) k = { navCh s k with fails := failsAfter f o (navCh s k) } := by
    rw [unitCounted, navCh_setNavCh, if_pos rfl]
  exact ⟨h.buf.trans (by rw [hc]), h.seen.trans (by rw [hc]), h.fails.trans (by rw [hc])⟩

end Sys2Proof.Machine
end

section
/-! SUPPORT. What synchronisation leaves as it was, whatever it does with the symbols it takes (R178, R179). -/
namespace Sys2Proof.Machine

variable {k : Nat} {s t u : State}

/-- What all of synchronisation keeps: the frame with the count of symbols alone. -/
abbrev SyncKeeps (k : Nat) (s t : State) : Prop := NavKeeps k (navCount k) s t

theorem NavKeeps.sync (h : NavKeeps k (navShown k) s t) : SyncKeeps k s t := h.mono (navCount_subset k)

/-- A field of STAT above SYNC_LOST. -/
theorem NavKeeps.setStat (hk : k < 320) {hi lo : Nat} (h : 18 ≤ lo) (h' : lo ≤ hi) (h'' : hi < 32) (v : Nat) (s : State) :
    SyncKeeps k s (s.setFld ⟨R.NAV_CH_STAT k, hi, lo⟩ v) := .setFld (spares_navCount hk h h' h'') v s

theorem NavKeeps.setPol (hk : k < 320) (pol : Bool) (s : State) : SyncKeeps k s (Machine.setPol k pol s) :=
  .setStat hk (by decide) (by decide) (by decide) _ s

theorem plainKey_stat (hk : k < 320) : plainKey (R.NAV_CH_STAT k) :=
  plainKey_nav (by simp only [R.NAV_CH_STAT]; omega) (by simp only [R.NAV_CH_STAT]; omega)

/-! Leaving SYNC. -/

/-- SYNC_LOST and its event (R178). -/
def syncLost (k : Nat) (s : State) : State := raise 61 (s.setFld (F.NAV_CH_STAT_SYNC_LOST k) 1)

theorem bit_syncLost (hk : k < 320) (s : State) : (syncLost k s).bit (F.NAV_CH_STAT_SYNC_LOST k) = true :=
  (bit_raise (plainKey_stat hk) 61 _).trans (State.bit_setFld_one _ _ rfl (by simp))

theorem WordsOnly.syncLost (k : Nat) (s : State) : WordsOnly (R.NAV_CH_STAT k :: evKeys 61) s (Machine.syncLost k s) :=
  ((WordsOnly.setFld (F.NAV_CH_STAT_SYNC_LOST k) 1 s).mono (by simp)).trans
    ((WordsOnly.raise 61 _).mono (List.subset_cons_self _ _))

theorem NavKeeps.syncLost (hk : k < 320) (s : State) : SyncKeeps k s (Machine.syncLost k s) := by
  have hp : plainFlds (navCount k) := by
    simp only [plainFlds, navCount, List.forall_mem_singleton]
    exact plainKey_nav (by omega) (by omega)
  have hf : (F.NAV_CH_STAT_SYNC_LOST k).spares (navCount k) := by
    simp only [Fld.spares, navCount, List.forall_mem_singleton]
    omega
  have hw := WordsOnly.syncLost k s
  exact ⟨(Keeps.setFld _ 1 s hf).trans (.raise hp 61 _), hw.navFifo, (congrArg List.length hw.navUnits).ge,
    fun _ => bit_syncLost hk s⟩

/-- SEARCH, without count and anchor, without TIME (R178). -/
def syncEnded (k : Nat) (s : State) : State :=
  ((setNavCh s k { navCh s k with fails := 0, anchor := none }).setFld (F.NAV_CH_STAT_SYNC k) 0).setFld (F.NAV_CH_STAT_TIME k) 0

theorem navLeaveSync_eq (k : Nat) (s : State) : navLeaveSync k s =
    if s.fld (F.NAV_CH_STAT_SYNC k) = 2 then syncLost k ((syncEnded k s).setFld (F.NAV_CH_STAT_POL_VALID k) 0)
    else syncEnded k s := rfl

theorem NavKeeps.navLeaveSync (hk : k < 320) (s : State) : SyncKeeps k s (Machine.navLeaveSync k s) := by
  have he : SyncKeeps k s (syncEnded k s) :=
    (NavKeeps.setNavCh k _ _ s).trans ((NavKeeps.setStat hk (by decide) (by decide) (by decide) 0 _).trans
      (NavKeeps.setStat hk (by decide) (by decide) (by decide) 0 _))
  rw [navLeaveSync_eq]
  exact .ite (he.trans ((NavKeeps.setStat hk (by decide) (by decide) (by decide) 0 _).trans (.syncLost hk _))) he

/-! The states of synchronisation. -/

theorem NavKeeps.navMatched (hk : k < 320) (start turn : Nat) (s : State) : SyncKeeps k s (Machine.navMatched k start turn s) :=
  (NavKeeps.setStat hk (by decide) (by decide) (by decide) 1 s).trans (.setNavCh k _ _ _)

theorem NavKeeps.navUnconfirmed (hk : k < 320) (s : State) : SyncKeeps k s (Machine.navUnconfirmed k s) :=
  (NavKeeps.setStat hk (by decide) (by decide) (by decide) 0 s).trans (.setNavCh k _ _ _)

theorem NavKeeps.navSync (hk : k < 320) (s : State) : SyncKeeps k s (Machine.navSync k s) :=
  (NavKeeps.setStat hk (by decide) (by decide) (by decide) 2 s).trans (.setStat hk (by decide) (by decide) (by decide) 1 _)

theorem NavKeeps.navFlip (hk : k < 320) (s : State) : SyncKeeps k s (Machine.navFlip k s) :=
  (NavKeeps.setPol hk _ s).trans ((NavKeeps.setStat hk (by decide) (by decide) (by decide) 1 _).trans (.setNavCh k _ _ _))

theorem NavKeeps.navExpect (hk : k < 320) (f : NavFmt) (s : State) (place : Nat) :
    SyncKeeps k s (Machine.navExpect k f s place) :=
  .ite (.refl k _ s) (.ite (.refl k _ s) (.ite (.navFlip hk s) (.setNavCh k _ _ s)))

theorem NavKeeps.navSyncUnit (hk : k < 320) (f : NavFmt) (s : State) (o : NavOut) : SyncKeeps k s (Machine.navSyncUnit k f s o) := by
  have hq := (navQueueUnit_keeps hk f s o).sync
  exact .ite (.refl k _ s) (.ite (hq.trans (.navLeaveSync hk _)) hq)

theorem NavKeeps.navSearch (hk : k < 320) (f : NavFmt) (s : State) : SyncKeeps k s (Machine.navSearch k f s) := by
  unfold Machine.navSearch
  extract_lets c i xs all start
  refine .ite (.ite (.navMatched hk _ _ s) (.refl k _ s)) (.ite (.refl k _ s) ?_)
  split
  · exact (NavKeeps.setPol hk false s).trans (.navMatched hk _ _ _)
  · exact (NavKeeps.setPol hk true s).trans (.navMatched hk _ _ _)
  · exact .setNavCh k _ _ s

theorem NavKeeps.navConfirm (hk : k < 320) (f : NavFmt) (s : State) : SyncKeeps k s (Machine.navConfirm k f s) := by
  have hs (pol : Bool) (us : List NavOut) :
      SyncKeeps k s (navConsume k f (us.foldl (navQueueUnit k f) (Machine.navSync k (Machine.setPol k pol s)))) :=
    (NavKeeps.setPol hk pol s).trans ((NavKeeps.navSync hk _).trans
      ((NavKeeps.foldl (navQueueUnit_keeps hk f) us _).sync.trans (.setNavCh k _ _ _)))
  exact .ite (.ite (.ite (.navSync hk s) (.navUnconfirmed hk s)) (.refl k _ s))
    (.ite (.ite (hs _ _) (.navUnconfirmed hk s)) (.refl k _ s))

theorem NavKeeps.navTrack (hk : k < 320) (f : NavFmt) (s : State) : SyncKeeps k s (Machine.navTrack k f s) := by
  unfold Machine.navTrack
  extract_lets u c w us
  have hu : SyncKeeps k s u := .foldl (NavKeeps.navExpect hk f) f.places s
  have hw : SyncKeeps k u w := .ite (.navFlip hk u) (.refl k _ u)
  exact .ite hu (hu.trans (hw.trans ((NavKeeps.foldl (NavKeeps.navSyncUnit hk f) us w).trans (.setNavCh k _ _ _))))

/-- The channel's decoder with one more symbol of its buffer taken. -/
def navTook (k : Nat) (s : State) : State := setNavCh s k { navCh s k with seen := (navCh s k).seen + 1 }

theorem NavKeeps.navAdvance (hk : k < 320) (f : NavFmt) (s : State) : SyncKeeps k s (Machine.navAdvance k f s) := by
  have ht : SyncKeeps k s (navTook k s) := .setNavCh k _ _ s
  unfold Machine.navAdvance
  extract_lets _ u
  split
  · exact ht.trans (.navSearch hk f u)
  · exact ht.trans (.navConfirm hk f u)
  · exact ht.trans (.navTrack hk f u)

theorem NavKeeps.navRun (hk : k < 320) (n : Nat) (f : NavFmt) (s : State) : SyncKeeps k s (Machine.navRun n k f s) := by
  induction n generalizing s with
  | zero => exact .refl k _ s
  | succ n ih => exact .ite ((NavKeeps.navAdvance hk f s).trans (ih _)) (.refl k _ s)

end Sys2Proof.Machine
end

section
/-! SUPPORT. Synchronisation, symbol by symbol: a match, a confirmation, and the unit that ends SYNC (R178, R179). -/
namespace Sys2Proof.Machine

variable {k : Nat} {f : NavFmt} {s t u : State} {o : NavOut} {os : List NavOut}

/-! How far synchronisation runs. -/

/-- Synchronisation has taken all of the channel's buffer. -/
def NavSettled (k : Nat) (s : State) : Prop := (navCh s k).buf.length ≤ (navCh s k).seen

theorem NavSettled.of_same (h : NavSettled k s) (hb : (navCh t k).buf = (navCh s k).buf) (hs : (navCh t k).seen = (navCh s k).seen) :
    NavSettled k t := by rwa [NavSettled, hb, hs]

theorem navRun_of_settled (h : NavSettled k s) (n : Nat) (f : NavFmt) : navRun n k f s = s := by
  cases n with
  | zero => rfl
  | succ n => exact if_neg (Nat.not_lt.2 h)

/-- Where one symbol is left, synchronisation runs one step, if that goes back to no symbol before it. -/
theorem navRun_last (h : (navCh s k).seen < (navCh s k).buf.length) (ht : NavSettled k (navAdvance k f s)) :
    navRun (navFuel k s) k f s = navAdvance k f s := by
  obtain ⟨n, hn⟩ := Nat.exists_eq_succ_of_ne_zero (pow_ne_zero 2 (Nat.succ_ne_zero (navCh s k).buf.length))
  rw [navFuel, hn]
  exact (if_pos h).trans (navRun_of_settled ht n f)

theorem navCh_navTook (k : Nat) (s : State) : navCh (navTook k s) k = { navCh s k with seen := (navCh s k).seen + 1 } := by
  rw [navTook, navCh_setNavCh, if_pos rfl]

theorem fld_navTook (k : Nat) (s : State) (f : Fld) : (navTook k s).fld f = s.fld f := by rw [navTook, fld_setNavCh]

theorem navAdvance_search (h : s.fld (F.NAV_CH_STAT_SYNC k) = 0) (f : NavFmt) :
    navAdvance k f s = navSearch k f (navTook k s) := by
  simp only [navAdvance, fld_setNavCh, h, navTook]

theorem navAdvance_confirm (h : s.fld (F.NAV_CH_STAT_SYNC k) = 1) (f : NavFmt) :
    navAdvance k f s = navConfirm k f (navTook k s) := by
  simp only [navAdvance, fld_setNavCh, h, navTook]

theorem navAdvance_track (h : s.fld (F.NAV_CH_STAT_SYNC k) = 2) (f : NavFmt) :
    navAdvance k f s = navTrack k f (navTook k s) := by
  simp only [navAdvance, fld_setNavCh, h, navTook]

/-- What the unit in progress decodes to is told by LDPC_ITER, its start and the buffer. -/
theorem navUnits_congr (hl : t.fld F.NAV_CFG_LDPC_ITER = s.fld F.NAV_CFG_LDPC_ITER) (hb : (navCh t k).buf = (navCh s k).buf)
    (hs : (navCh t k).start = (navCh s k).start) (f : NavFmt) (n : Nat) (pol : Bool) : navUnits k f n pol t = navUnits k f n pol s := by
  simp only [navUnits, navSofts, hl, hb, hs]

theorem navUnits_navTook (k : Nat) (f : NavFmt) (n : Nat) (pol : Bool) (s : State) :
    navUnits k f n pol (navTook k s) = navUnits k f n pol s := by
  have h := navCh_navTook k s
  exact navUnits_congr (fld_navTook k s _) (by rw [h]) (by rw [h]) f n pol

/-- Where a format has a pattern, the check does not choose the polarity (R177). -/
theorem navFlips_of_pattern (h : f.sync ≠ .mark) (k : Nat) (s : State) : navFlips k f s = false := by
  simp [navFlips, h]

/-! SEARCH. -/

theorem navSearch_mark (hm : f.sync = .mark) (hb : ((navCh s k).buf[(navCh s k).seen - 1]?).map (·.mark) = some true) :
    navSearch k f s = navMatched k ((navCh s k).seen - 1) 0 s := by
  simp only [navSearch, hm, hb, if_true, Option.getD_some]

theorem sync_navMatched (k start turn : Nat) (s : State) : (navMatched k start turn s).fld (F.NAV_CH_STAT_SYNC k) = 1 := by
  rw [navMatched, fld_setNavCh]
  exact State.fld_setFld _ _ _ (by simp) (by simp)

theorem navCh_navMatched (k start turn : Nat) (s : State) : navCh (navMatched k start turn s) k =
    { navCh s k with start := start, matchAt := (navCh s k).seen, turn := turn, chg := false, miss := false } := by
  rw [navMatched, navCh_setNavCh, if_pos rfl]

/-! CONFIRM. -/

theorem navConfirm_words (hw : f.words = true) (hs : (navCh s k).seen = (navCh s k).start + 60)
    (hu : (navUnits k f 60 (s.bit (F.NAV_CH_STAT_POL k)) s).all (fun o => (o.checks.take 2).all id) = true) :
    navConfirm k f s = navSync k s := by
  unfold navConfirm
  rw [if_pos hw, if_pos hs, if_pos hu]

@[simp] theorem navUnits_navSync (k : Nat) (s : State) : (navSync k s).navUnits = s.navUnits := by
  rw [navSync, State.setFld_navUnits, State.setFld_navUnits]

@[simp] theorem navCh_navSync (k j : Nat) (s : State) : navCh (navSync k s) j = navCh s j := by
  rw [navSync, navCh_setFld, navCh_setFld]

@[simp] theorem navUnits_setPol (k : Nat) (pol : Bool) (s : State) : (setPol k pol s).navUnits = s.navUnits := by
  rw [setPol, State.setBit_navUnits]

@[simp] theorem navCh_setPol (k : Nat) (pol : Bool) (j : Nat) (s : State) : navCh (setPol k pol s) j = navCh s j := by
  rw [setPol, State.setBit, navCh_setFld]

theorem navSync_shows (k : Nat) (s : State) :
    (navSync k s).fld (F.NAV_CH_STAT_SYNC k) = 2 ∧ (navSync k s).bit (F.NAV_CH_STAT_POL_VALID k) = true := by
  refine ⟨(State.fld_setFld_ne _ _ _ _ (by simp) (by simp) (by simp)).trans ?_, State.bit_setFld_one _ _ rfl (by simp)⟩
  exact State.fld_setFld _ _ _ (by simp) (by simp)

/-- The units of a confirmation are queued, and the next one begins. -/
theorem navConfirm_unit (hw : f.words = false) (hm : f.sync ≠ .mark) (hs : (navCh s k).seen = (navCh s k).start + f.unit + f.tail)
    (hu : navUnits k f (f.unit + f.tail) (s.bit (F.NAV_CH_STAT_POL k)) s = o :: os) (ho : o.pass = true) :
    navConfirm k f s =
      navConsume k f ((o :: os).foldl (navQueueUnit k f) (navSync k (setPol k (s.bit (F.NAV_CH_STAT_POL k)) s))) := by
  unfold navConfirm
  rw [if_neg (hw ▸ Bool.false_ne_true), if_pos hs]
  simp only [navFlips_of_pattern hm, Bool.bne_false, hu, List.head?_cons, Option.map_some, Option.getD_some, ho, if_true]

/-- What queueing some units keeps, and how many of them wait then. -/
theorem queueUnits_spec (hk : k < 320) (f : NavFmt) (us : List NavOut) (s : State) : let t := us.foldl (navQueueUnit k f) s
    NavKeeps k (navShown k) s t ∧ (navCh t k).buf = (navCh s k).buf ∧ (navCh t k).seen = (navCh s k).seen ∧
      s.navUnits.length + us.length ≤ t.navUnits.length := by
  induction us generalizing s with
  | nil => exact ⟨.refl k _ s, rfl, rfl, Nat.le_refl _⟩
  | cons o us ih =>
    obtain ⟨hq, hb, hs, hl⟩ := ih (navQueueUnit k f s o)
    obtain ⟨hb', hs', -⟩ := navQueueUnit_place hk f s o
    obtain ⟨-, hl'⟩ := navQueueUnit_holds hk f s o
    refine ⟨(navQueueUnit_keeps hk f s o).trans hq, hb.trans hb', hs.trans hs', ?_⟩
    rw [List.length_cons]
    exact Nat.le_trans (by omega) hl

theorem NavSettled.navConsume (h : NavSettled k s) (f : NavFmt) : NavSettled k (Machine.navConsume k f s) := by
  rw [NavSettled, Machine.navConsume, navCh_setNavCh, if_pos rfl, List.length_drop]
  exact Nat.sub_le_sub_right h _

/-- The confirming unit is queued in SYNC with its polarity resolved, and synchronisation goes back to no symbol (R178). -/
theorem confirmed_shows (hk : k < 320) (f : NavFmt) (pol : Bool) (us : List NavOut) (s : State) :
    let t := navConsume k f (us.foldl (navQueueUnit k f) (navSync k (setPol k pol s)))
    t.fld (F.NAV_CH_STAT_SYNC k) = 2 ∧ t.bit (F.NAV_CH_STAT_POL_VALID k) = true ∧
      s.navUnits.length + us.length ≤ t.navUnits.length ∧ (NavSettled k s → NavSettled k t) := by
  obtain ⟨hq, hb, hs, hl⟩ := queueUnits_spec hk f us (navSync k (setPol k pol s))
  obtain ⟨h2, hp⟩ := navSync_shows k (setPol k pol s)
  rw [navCh_navSync, navCh_setPol] at hb hs
  rw [navUnits_navSync, navUnits_setPol] at hl
  refine ⟨?_, ?_, ?_, fun h => (h.of_same hb hs).navConsume f⟩
  · rw [navConsume, fld_setNavCh, hq.flds _ (by simp [navShown]), h2]
  · rw [navConsume, bit_setNavCh, State.bit, hq.flds _ (by simp [navShown])]
    exact hp
  · rwa [navConsume, navUnits_setNavCh]

/-! SYNC. -/

theorem expect_none_due {ps : List Nat} (h : ∀ p ∈ ps, (navCh s k).seen ≠ (navCh s k).start + p + f.patLen) :
    ps.foldl (navExpect k f) s = s := by
  induction ps with
  | nil => rfl
  | cons p ps ih =>
    have hp : navExpect k f s p = s := if_pos (h p List.mem_cons_self)
    rw [List.foldl_cons, hp]
    exact ih fun q hq => h q (List.mem_cons_of_mem _ hq)

/-- A unit completes where no pattern is due. -/
theorem navTrack_unit (hm : f.sync ≠ .mark) (hs : (navCh s k).seen = (navCh s k).start + f.unit + f.tail)
    (hp : ∀ p ∈ f.places, (navCh s k).seen ≠ (navCh s k).start + p + f.patLen) : navTrack k f s =
      navConsume k f ((navUnits k f (f.unit + f.tail) (s.bit (F.NAV_CH_STAT_POL k)) s).foldl (navSyncUnit k f) s) := by
  simp only [navTrack, expect_none_due hp, navFlips_of_pattern hm, hs, ne_eq, not_true_eq_false, Bool.false_eq_true, if_false]

/-- Outside SYNC no unit is staged. -/
theorem syncUnits_of_left (h : s.fld (F.NAV_CH_STAT_SYNC k) ≠ 2) (os : List NavOut) : os.foldl (navSyncUnit k f) s = s := by
  induction os with
  | nil => rfl
  | cons o os ih =>
    have ho : navSyncUnit k f s o = s := if_pos h
    rw [List.foldl_cons, ho, ih]

/-- The FAIL unit that is the last LOSS_N allows. -/
theorem navSyncUnit_last (hk : k < 320) (h : s.fld (F.NAV_CH_STAT_SYNC k) = 2) (hv : o.verdict f = 1)
    (h0 : s.fld F.NAV_CFG_LOSS_N ≠ 0) (hl : s.fld F.NAV_CFG_LOSS_N ≤ (navCh s k).fails + 1) :
    navSyncUnit k f s o = navLeaveSync k (navQueueUnit k f s o) := by
  obtain ⟨-, -, hf⟩ := navQueueUnit_place hk f s o
  have hn : (navQueueUnit k f s o).fld F.NAV_CFG_LOSS_N = s.fld F.NAV_CFG_LOSS_N :=
    (navQueueUnit_keeps hk f s o).flds _ (by simp [navShown])
  rw [failsAfter, if_pos (.inl hv)] at hf
  exact (if_neg (not_not_intro h)).trans (if_pos ⟨hn ▸ h0, by rw [hn, hf]; exact hl⟩)

theorem navCh_navLeaveSync (k : Nat) (s : State) :
    navCh (navLeaveSync k s) k = { navCh s k with fails := 0, anchor := none } := by
  have he : navCh (syncEnded k s) k = { navCh s k with fails := 0, anchor := none } := by
    rw [syncEnded, navCh_setFld, navCh_setFld, navCh_setNavCh, if_pos rfl]
  rw [navLeaveSync_eq]
  split
  · rw [(WordsOnly.syncLost k _).navCh, navCh_setFld, he]
  · exact he

/-- SYNC ends with SYNC_LOST and EV_061 (R178). -/
theorem navLeaveSync_shows (hk : k < 320) (h : s.fld (F.NAV_CH_STAT_SYNC k) = 2) : let t := navLeaveSync k s
    t.fld (F.NAV_CH_STAT_SYNC k) = 0 ∧ t.bit (F.NAV_CH_STAT_SYNC_LOST k) = true ∧ EventUp 61 t := by
  rw [navLeaveSync_eq, if_pos h]
  refine ⟨?_, bit_syncLost hk _, .raise_self 61 _⟩
  have he (v : Nat) (s : State) : (s.setFld (F.NAV_CH_STAT_SYNC k) v).fld (F.NAV_CH_STAT_SYNC k) = v % 4 :=
    State.fld_setFld _ _ _ (by simp) (by simp)
  rw [syncLost, fld_raise (plainKey_stat hk), State.fld_setFld_ne _ _ _ _ (by simp) (by simp) (by simp),
    State.fld_setFld_ne _ _ _ _ (by simp) (by simp) (by simp), syncEnded,
    State.fld_setFld_ne _ _ _ _ (by simp) (by simp) (by simp), he]

/-- That unit is queued still, SYNC ends, and no unit after it is queued (R178). -/
theorem syncUnits_last (hk : k < 320) (h : s.fld (F.NAV_CH_STAT_SYNC k) = 2) (hv : o.verdict f = 1)
    (h0 : s.fld F.NAV_CFG_LOSS_N ≠ 0) (hl : s.fld F.NAV_CFG_LOSS_N ≤ (navCh s k).fails + 1) (os : List NavOut) :
    (o :: os).foldl (navSyncUnit k f) s = navLeaveSync k (navQueueUnit k f s o) := by
  have h2 : (navQueueUnit k f s o).fld (F.NAV_CH_STAT_SYNC k) = 2 := ((navQueueUnit_keeps hk f s o).flds _ (by simp [navShown])).trans h
  obtain ⟨h3, -⟩ := navLeaveSync_shows hk h2
  rw [List.foldl_cons, navSyncUnit_last hk h hv h0 hl]
  exact syncUnits_of_left (by rw [h3]; decide) os

/-- That unit is queued, SYNC is lost, and synchronisation goes back to no symbol. -/
theorem lost_shows (hk : k < 320) (h : s.fld (F.NAV_CH_STAT_SYNC k) = 2) (f : NavFmt) (o : NavOut) :
    let t := navConsume k f (navLeaveSync k (navQueueUnit k f s o))
    t.fld (F.NAV_CH_STAT_SYNC k) = 0 ∧ t.bit (F.NAV_CH_STAT_SYNC_LOST k) = true ∧ EventUp 61 t ∧
      s.navUnits.length < t.navUnits.length ∧ (NavSettled k s → NavSettled k t) := by
  obtain ⟨-, hlen⟩ := navQueueUnit_holds hk f s o
  obtain ⟨hb, hs, -⟩ := navQueueUnit_place hk f s o
  obtain ⟨h1, h2, h3⟩ := navLeaveSync_shows hk (((navQueueUnit_keeps hk f s o).flds _ (by simp [navShown])).trans h)
  have hd := navCh_navLeaveSync k (navQueueUnit k f s o)
  refine ⟨?_, ?_, h3.of_regs (by rw [navConsume, regs_setNavCh]), ?_, fun hS => ?_⟩
  · rw [navConsume, fld_setNavCh, h1]
  · rw [navConsume, bit_setNavCh, h2]
  · rw [navConsume, navUnits_setNavCh]
    exact Nat.lt_of_lt_of_le hlen (NavKeeps.navLeaveSync hk _).units
  · exact (hS.of_same (by rw [hd]; exact hb) (by rw [hd]; exact hs)).navConsume f

end Sys2Proof.Machine
end

section
/-! PROOFS. O17, the symbol ports: a word is queued, dropped or refused (R169 to R171). -/
namespace Sys2Proof.Machine

variable {s : State} {who : Reader} {n : Fin 10} {v : Word}

/-- The channel that a symbol word names (R169). -/
abbrev wordCh (n : Fin 10) (v : Word) : Nat := 32 * n.val + bitsOf v.toNat 31 27

theorem wordCh_lt (n : Fin 10) (v : Word) : wordCh n v < 320 := by
  have hn := n.isLt
  have hv : bitsOf v.toNat 31 27 < 32 := bitsOf_lt v.toNat 31 27
  unfold wordCh
  omega

theorem exec_symbolWrite (ho : Open who (R.NAV_RING_SYM n) s) : exec (.symbolWrite who n v) s = .next (opSymbolWrite n v s) :=
  congrArg Host.Outcome.next (gate_open ho.1 ho.2)

theorem symbol_queued (ho : Open who (R.NAV_RING_SYM n) s) (hr : symbolRefused (wordCh n v) v s = false)
    (hq : (navQueue s n).length < 64) : ∃ t, exec (.symbolWrite who n v) s = .next t ∧ MemsSame s t ∧
      navQueue t n = navQueue s n ++ [(v, (navCh s (wordCh n v)).tag, (navCh s (wordCh n v)).owed)] ∧
      t.fld (F.NAV_RING_STAT_LEVEL n) = (navQueue s n).length + 1 ∧
      navCh t (wordCh n v) = { navCh s (wordCh n v) with owed := 0 } ∧
      (∀ j, j ≠ wordCh n v → navCh t j = navCh s j) ∧ RegsBut [R.NAV_RING_STAT n] s t := by
  have hop : opSymbolWrite n v s = setNavQueue (setNavCh s (wordCh n v) { navCh s (wordCh n v) with owed := 0 }) n
      (navQueue s n ++ [(v, (navCh s (wordCh n v)).tag, (navCh s (wordCh n v)).owed)]) := by
    unfold opSymbolWrite
    rw [if_neg (hr ▸ Bool.false_ne_true), if_neg (Nat.not_le.2 hq)]
  refine ⟨_, (exec_symbolWrite ho).trans (congrArg _ hop), .setNavQueue (setNavCh s _ _) _ _, navQueue_setNavQueue _ _ _, ?_, ?_,
    fun j hj => ?_, RegsBut.setNavQueue (setNavCh s _ _) _ _⟩
  · rw [level_setNavQueue _ _ (by rw [List.length_append]; exact hq), List.length_append]
    rfl
  · rw [navCh_setNavQueue, navCh_setNavCh, if_pos rfl]
  · rw [navCh_setNavQueue, navCh_setNavCh, if_neg hj]

/-- A word on a full FIFO is dropped, and an erasure is owed for it (R171). -/
theorem symbol_dropped (ho : Open who (R.NAV_RING_SYM n) s) (hr : symbolRefused (wordCh n v) v s = false)
    (hq : 64 ≤ (navQueue s n).length) : ∃ t, exec (.symbolWrite who n v) s = .next t ∧ MemsSame s t ∧ t.navFifo = s.navFifo ∧
      t.bit (F.NAV_RING_STAT_OVF n) = true ∧ (navCh t (wordCh n v)).owed = (navCh s (wordCh n v)).owed + 1 := by
  have hop : opSymbolWrite n v s = setNavCh (s.setFld (F.NAV_RING_STAT_OVF n) 1) (wordCh n v)
      { navCh s (wordCh n v) with owed := (navCh s (wordCh n v)).owed + 1 } := by
    unfold opSymbolWrite
    rw [if_neg (hr ▸ Bool.false_ne_true), if_pos hq]
  have hw := WordsOnly.setFld (F.NAV_RING_STAT_OVF n) 1 s
  refine ⟨_, (exec_symbolWrite ho).trans (congrArg _ hop), hw.memsSame.trans (.setNavCh _ _ _),
    (navFifo_setNavCh _ _ _).trans hw.navFifo, ?_, ?_⟩
  · rw [bit_setNavCh]
    exact State.bit_setFld_one _ _ rfl (by simp)
  · rw [navCh_setNavCh, if_pos rfl]

theorem symbol_refused (ho : Open who (R.NAV_RING_SYM n) s) (hr : symbolRefused (wordCh n v) v s = true) :
    ∃ t, exec (.symbolWrite who n v) s = .next t ∧ MemsSame s t ∧ t.navFifo = s.navFifo ∧
      t.bit (F.NAV_CH_STAT_REJ (wordCh n v)) = true ∧ t.nav = s.nav ∧ RegsBut [R.NAV_CH_STAT (wordCh n v)] s t := by
  have hop : opSymbolWrite n v s = s.setFld (F.NAV_CH_STAT_REJ (wordCh n v)) 1 := if_pos hr
  have hw := WordsOnly.setFld (F.NAV_CH_STAT_REJ (wordCh n v)) 1 s
  exact ⟨_, (exec_symbolWrite ho).trans (congrArg _ hop), hw.memsSame, hw.navFifo, State.bit_setFld_one _ _ rfl (by simp),
    s.setFld_nav _ 1, hw.words⟩

end Sys2Proof.Machine
end

section
/-! SUPPORT. A symbol word leaves its FIFO: what the channel's buffer takes, and what stands (R170 to R172, R178). -/
namespace Sys2Proof.Machine

variable {k : Nat} {s : State} {n : Fin 10} {v : Word} {tag owed : Nat} {rest : List (Word × Nat × Nat)} {f : NavFmt}

/-- The symbol of a word itself (R169, R170). -/
def wordSym (v : Word) : NavSym := ⟨softOf v, v.getLsbD 11, some (BitVec.ofNat 8 (bitsOf v.toNat 23 16))⟩

/-- What a word appends: erasures for words dropped and for GAP, then its own symbol (R170, R171). -/
def wordSyms (v : Word) (owed : Nat) : List NavSym :=
  List.replicate (bitsOf v.toNat 14 12 + owed) ⟨0, false, none⟩ ++ [wordSym v]

/-- RESYNC abandons synchronisation and the symbols buffered (R170). -/
def resynced (k : Nat) (v : Word) (s : State) : State :=
  if v.getLsbD 10 then navLeaveSync k (setNavCh s k { navCh s k with buf := [], seen := 0 }) else s

/-- The channel before synchronisation goes on, with all that a word brings. -/
def wordAppended (k : Nat) (v : Word) (owed : Nat) (s : State) : State := navAppend k (wordSyms v owed) (resynced k v s)

theorem fld_setNavQueue {g : Fld} (h : g.off < 0x200140 ∨ 0x201000 ≤ g.off) (q : List (Word × Nat × Nat)) :
    (setNavQueue s n q).fld g = s.fld g := by
  refine (RegsBut.setNavQueue s n q).fld ?_
  simp only [List.mem_singleton, R.NAV_RING_STAT]
  omega

theorem wordSyms_one (hg : bitsOf v.toNat 14 12 = 0) (ho : owed = 0) : wordSyms v owed = [wordSym v] := by
  rw [wordSyms, hg, ho]
  rfl

theorem resynced_of_no_resync (h : v.getLsbD 10 = false) (k : Nat) (s : State) : resynced k v s = s := if_neg (h ▸ Bool.false_ne_true)

theorem NavKeeps.resynced (hk : k < 320) (v : Word) (s : State) : SyncKeeps k s (Machine.resynced k v s) :=
  .ite ((NavKeeps.setNavCh k _ _ s).trans (.navLeaveSync hk _)) (.refl k _ s)

/-- The fields of a list but the count of symbols stand when symbols are appended. -/
theorem NavKeeps.navAppend (hk : k < 320) (xs : List NavSym) (s : State) : NavKeeps k [] s (Machine.navAppend k xs s) := by
  have hf : (F.NAV_CH_SYMIDX_SYMIDX k).spares [F.NAV_CH_STAT_SYNC_LOST k] := by
    simp only [Fld.spares, List.forall_mem_singleton]
    omega
  exact (NavKeeps.setNavCh k _ _ s).trans (.setFld hf _ _)

theorem navCh_navAppend (k : Nat) (xs : List NavSym) (s : State) :
    navCh (navAppend k xs s) k = { navCh s k with buf := (navCh s k).buf ++ xs } := by
  rw [navAppend, navCh_setFld, navCh_setNavCh, if_pos rfl]

theorem RegsBut.navAppend (k : Nat) (xs : List NavSym) (s : State) : RegsBut [R.NAV_CH_SYMIDX k] s (Machine.navAppend k xs s) :=
  (WordsOnly.setFld (F.NAV_CH_SYMIDX_SYMIDX k) _ _).words

/-- SYMIDX counts the symbols appended (R181). -/
theorem symidx_navAppend (k : Nat) (xs : List NavSym) (s : State) : (navAppend k xs s).fld (F.NAV_CH_SYMIDX_SYMIDX k) =
    (s.fld (F.NAV_CH_SYMIDX_SYMIDX k) + xs.length) % 2 ^ 32 := State.fld_setFld _ _ _ (by simp) (by simp)

/-- An entry of an earlier start leaves the FIFO without effect (R172). -/
theorem exec_symbolDequeue_stale (hq : navQueue s n = (v, tag, owed) :: rest) (hf : chFmt (wordCh n v) s = some f)
    (ht : (navCh s (wordCh n v)).tag ≠ tag) (w : Formed) : exec (.symbolDequeue n w) s = .next (setNavQueue s n rest) := by
  have hf' : chFmt (wordCh n v) (setNavQueue s n rest) = some f := hf
  change execSymbolDequeue n w s = _
  simp only [execSymbolDequeue, hq, hf']
  exact congrArg Host.Outcome.next (if_pos ht)

/-- An entry of the present start is appended, and synchronisation goes on (R170, R178). -/
theorem exec_symbolDequeue (hq : navQueue s n = (v, tag, owed) :: rest) (hf : chFmt (wordCh n v) s = some f)
    (ht : (navCh s (wordCh n v)).tag = tag) (w : Formed) : exec (.symbolDequeue n w) s = .next (
      let a := wordAppended (wordCh n v) v owed (setNavQueue s n rest)
      navRun (navFuel (wordCh n v) a) (wordCh n v) f a) := by
  have hf' : chFmt (wordCh n v) (setNavQueue s n rest) = some f := hf
  change execSymbolDequeue n w s = _
  simp only [execSymbolDequeue, hq, hf']
  exact congrArg Host.Outcome.next (if_neg (not_not_intro ht))

/-- What stands whatever the decoder does with a word. -/
theorem NavKeeps.wordRun (hk : k < 320) (m : Nat) (f : NavFmt) (v : Word) (owed : Nat) (s : State) :
    NavKeeps k [] s (Machine.navRun m k f (wordAppended k v owed s)) :=
  ((NavKeeps.resynced hk v s).mono (List.nil_subset _)).trans
    ((NavKeeps.navAppend hk _ _).trans ((NavKeeps.navRun hk m f _).mono (List.nil_subset _)))

/-- The FIFO without the word, and the memories, after whatever the decoder does. -/
theorem NavKeeps.dequeued {K : List Fld} {t : State} (h : NavKeeps k K (setNavQueue s n rest) t) :
    navQueue t n = rest ∧ MemsSame s t :=
  ⟨(navQueue_congr h.fifo n).trans (navQueue_setNavQueue s n rest), (MemsSame.setNavQueue s n rest).trans h.mems⟩

end Sys2Proof.Machine
end

section
/-! PROOFS. O17, a symbol word leaves its FIFO: its symbol is appended and moves the channel's synchronisation (R170 to R172, R178). -/
namespace Sys2Proof.Machine

variable {s : State} {n : Fin 10} {v : Word} {tag owed : Nat} {rest : List (Word × Nat × Nat)} {f : NavFmt}
  {o : NavOut} {os : List NavOut} {w : Formed}

/-- The oldest word leaves the FIFO with an effect, and the memories stand. -/
abbrev Dequeues (n : Fin 10) (w : Formed) (rest : List (Word × Nat × Nat)) (s : State) (post : State → Prop) : Prop :=
  ∃ t, exec (.symbolDequeue n w) s = .next t ∧ navQueue t n = rest ∧ MemsSame s t ∧ post t

theorem word_of_earlier_start (hq : navQueue s n = (v, tag, owed) :: rest) (hf : chFmt (wordCh n v) s = some f)
    (ht : (navCh s (wordCh n v)).tag ≠ tag) : Dequeues n w rest s fun t => t.nav = s.nav :=
  ⟨_, exec_symbolDequeue_stale hq hf ht w, navQueue_setNavQueue s n rest, .setNavQueue s n rest, State.setFld_nav _ _ _⟩

theorem word_counted (hq : navQueue s n = (v, tag, owed) :: rest) (hf : chFmt (wordCh n v) s = some f)
    (ht : (navCh s (wordCh n v)).tag = tag) (hr : v.getLsbD 10 = false) :
    Dequeues n w rest s fun t =>
      t.fld (F.NAV_CH_SYMIDX_SYMIDX (wordCh n v)) =
        (s.fld (F.NAV_CH_SYMIDX_SYMIDX (wordCh n v)) + bitsOf v.toNat 14 12 + owed + 1) % 2 ^ 32 := by
  have hk := wordCh_lt n v
  obtain ⟨hrest, hm⟩ := (NavKeeps.wordRun hk _ f v owed (setNavQueue s n rest)).dequeued
  have hs : (setNavQueue s n rest).fld (F.NAV_CH_SYMIDX_SYMIDX (wordCh n v)) = s.fld (F.NAV_CH_SYMIDX_SYMIDX (wordCh n v)) :=
    fld_setNavQueue (.inr (by simp only; omega)) rest
  have hl : (wordSyms v owed).length = bitsOf v.toNat 14 12 + owed + 1 := by
    rw [wordSyms, List.length_append, List.length_replicate]
    rfl
  refine ⟨_, exec_symbolDequeue hq hf ht w, hrest, hm, ((NavKeeps.navRun hk _ f _).flds _ List.mem_cons_self).trans ?_⟩
  rw [wordAppended, resynced_of_no_resync hr, symidx_navAppend, hs, hl, ← Nat.add_assoc, ← Nat.add_assoc]

/-- RESYNC in SYNC loses it (R178). -/
theorem word_resyncs (hq : navQueue s n = (v, tag, owed) :: rest) (hf : chFmt (wordCh n v) s = some f)
    (ht : (navCh s (wordCh n v)).tag = tag) (hr : v.getLsbD 10 = true) (hy : s.fld (F.NAV_CH_STAT_SYNC (wordCh n v)) = 2) :
    Dequeues n w rest s fun t =>
      t.bit (F.NAV_CH_STAT_SYNC_LOST (wordCh n v)) = true ∧ EventUp 61 t := by
  have hk := wordCh_lt n v
  obtain ⟨hrest, hm⟩ := (NavKeeps.wordRun hk _ f v owed (setNavQueue s n rest)).dequeued
  have hs : (setNavQueue s n rest).fld (F.NAV_CH_STAT_SYNC (wordCh n v)) = 2 :=
    (fld_setNavQueue (.inr (by simp only; omega)) rest).trans hy
  have hu : resynced (wordCh n v) v (setNavQueue s n rest) = navLeaveSync (wordCh n v) (setNavCh (setNavQueue s n rest) (wordCh n v)
      { navCh (setNavQueue s n rest) (wordCh n v) with buf := [], seen := 0 }) := if_pos hr
  obtain ⟨-, hlost, hev⟩ := navLeaveSync_shows hk ((fld_setNavCh _ _ _ _).trans hs)
  have ha := (NavKeeps.navAppend hk (wordSyms v owed) (resynced (wordCh n v) v (setNavQueue s n rest))).trans
    ((NavKeeps.navRun hk (navFuel (wordCh n v) (wordAppended (wordCh n v) v owed (setNavQueue s n rest))) f _).mono (List.nil_subset _))
  exact ⟨_, exec_symbolDequeue hq hf ht w, hrest, hm, ha.lost (by rw [hu]; exact hlost), ha.events 61 (by rw [hu]; exact hev)⟩

/-! A word of one symbol, for a decoder that waits for it. -/

/-- The oldest word of the FIFO is of the channel's present start and brings its own symbol alone; the decoder has taken all before. -/
structure OneSymbol (n : Fin 10) (v : Word) (rest : List (Word × Nat × Nat)) (f : NavFmt) (s : State) : Prop where
  queue : navQueue s n = (v, (navCh s (wordCh n v)).tag, 0) :: rest
  fmt : chFmt (wordCh n v) s = some f
  plain : v.getLsbD 10 = false
  noGap : bitsOf v.toNat 14 12 = 0
  taken : (navCh s (wordCh n v)).seen = (navCh s (wordCh n v)).buf.length

/-- The channel with the word's symbol appended. -/
def symbolAdded (n : Fin 10) (v : Word) (rest : List (Word × Nat × Nat)) (s : State) : State :=
  navAppend (wordCh n v) [wordSym v] (setNavQueue s n rest)

/-- And with that symbol taken by synchronisation. -/
def symbolTook (n : Fin 10) (v : Word) (rest : List (Word × Nat × Nat)) (s : State) : State :=
  navTook (wordCh n v) (symbolAdded n v rest s)

theorem navCh_symbolTook (n : Fin 10) (v : Word) (rest : List (Word × Nat × Nat)) (s : State) :
    navCh (symbolTook n v rest s) (wordCh n v) =
      { navCh s (wordCh n v) with buf := (navCh s (wordCh n v)).buf ++ [wordSym v], seen := (navCh s (wordCh n v)).seen + 1 } := by
  rw [symbolTook, navCh_navTook, symbolAdded, navCh_navAppend, navCh_setNavQueue]

theorem fld_symbolAdded {g : Fld} (h : g.off = R.NAV_CH_STAT (wordCh n v) ∨ g.off = R.NAV_CFG) :
    (symbolAdded n v rest s).fld g = s.fld g := by
  simp only [R.NAV_CH_STAT, R.NAV_CFG] at h
  refine ((RegsBut.navAppend _ _ _).fld ?_).trans (fld_setNavQueue (by omega) rest)
  simp only [List.mem_singleton, R.NAV_CH_SYMIDX]
  omega

theorem fld_symbolTook {g : Fld} (h : g.off = R.NAV_CH_STAT (wordCh n v) ∨ g.off = R.NAV_CFG) :
    (symbolTook n v rest s).fld g = s.fld g := (fld_navTook _ _ g).trans (fld_symbolAdded h)

theorem pol_symbolTook : (symbolTook n v rest s).bit (F.NAV_CH_STAT_POL (wordCh n v)) = s.bit (F.NAV_CH_STAT_POL (wordCh n v)) := by
  rw [State.bit, fld_symbolTook (.inl rfl), State.bit]

theorem navUnits_symbolTook : (symbolTook n v rest s).navUnits = s.navUnits := by
  rw [symbolTook, navTook, navUnits_setNavCh, symbolAdded, navAppend, State.setFld_navUnits, navUnits_setNavCh, setNavQueue,
    State.setFld_navUnits]

theorem navUnits_symbolAdded (m : Nat) : navUnits (wordCh n v) f m (s.bit (F.NAV_CH_STAT_POL (wordCh n v))) (symbolAdded n v rest s) =
    navUnits (wordCh n v) f m ((symbolTook n v rest s).bit (F.NAV_CH_STAT_POL (wordCh n v))) (symbolTook n v rest s) := by
  rw [pol_symbolTook, symbolTook, navUnits_navTook]

/-- Each state of synchronisation goes on from the symbol taken. -/
theorem symbolAdded_search (h : s.fld (F.NAV_CH_STAT_SYNC (wordCh n v)) = 0) :
    navAdvance (wordCh n v) f (symbolAdded n v rest s) = navSearch (wordCh n v) f (symbolTook n v rest s) :=
  navAdvance_search ((fld_symbolAdded (.inl rfl)).trans h) f

theorem symbolAdded_confirm (h : s.fld (F.NAV_CH_STAT_SYNC (wordCh n v)) = 1) :
    navAdvance (wordCh n v) f (symbolAdded n v rest s) = navConfirm (wordCh n v) f (symbolTook n v rest s) :=
  navAdvance_confirm ((fld_symbolAdded (.inl rfl)).trans h) f

theorem symbolAdded_track (h : s.fld (F.NAV_CH_STAT_SYNC (wordCh n v)) = 2) :
    navAdvance (wordCh n v) f (symbolAdded n v rest s) = navTrack (wordCh n v) f (symbolTook n v rest s) :=
  navAdvance_track ((fld_symbolAdded (.inl rfl)).trans h) f

theorem OneSymbol.settled (h : OneSymbol n v rest f s) : NavSettled (wordCh n v) (symbolTook n v rest s) := by
  rw [NavSettled, navCh_symbolTook, List.length_append, h.taken]
  exact Nat.le_refl _

/-- Synchronisation takes one step. -/
theorem OneSymbol.dequeued (h : OneSymbol n v rest f s) {t : State} (ha : navAdvance (wordCh n v) f (symbolAdded n v rest s) = t)
    (ht : NavSettled (wordCh n v) t) : exec (.symbolDequeue n w) s = .next t ∧ navQueue t n = rest ∧ MemsSame s t := by
  have hx := exec_symbolDequeue h.queue h.fmt rfl w
  have hb : wordAppended (wordCh n v) v 0 (setNavQueue s n rest) = symbolAdded n v rest s := by
    rw [wordAppended, resynced_of_no_resync h.plain, wordSyms_one h.noGap rfl, symbolAdded]
  have hc := navCh_navAppend (wordCh n v) [wordSym v] (setNavQueue s n rest)
  have hlt : (navCh (symbolAdded n v rest s) (wordCh n v)).seen < (navCh (symbolAdded n v rest s) (wordCh n v)).buf.length := by
    rw [symbolAdded, hc, navCh_setNavQueue, List.length_append, h.taken]
    exact Nat.lt_succ_self _
  have hr := navRun_last hlt (f := f) (ha ▸ ht)
  have hk := (NavKeeps.wordRun (wordCh_lt n v) (navFuel (wordCh n v) (symbolAdded n v rest s)) f v 0 (setNavQueue s n rest)).dequeued
  rw [hb, hr, ha] at hk
  dsimp only at hx
  rw [hb, hr, ha] at hx
  exact ⟨hx, hk⟩

theorem OneSymbol.matches (h : OneSymbol n v rest f s) (hy : s.fld (F.NAV_CH_STAT_SYNC (wordCh n v)) = 0) (hm : f.sync = .mark)
    (hv : v.getLsbD 11 = true) : Dequeues n w rest s fun t =>
      t.fld (F.NAV_CH_STAT_SYNC (wordCh n v)) = 1 ∧ (navCh t (wordCh n v)).start = (navCh s (wordCh n v)).seen := by
  have hc := navCh_symbolTook n v rest s
  have hb : ((navCh (symbolTook n v rest s) (wordCh n v)).buf[(navCh (symbolTook n v rest s) (wordCh n v)).seen - 1]?).map (·.mark) =
      some true := by
    rw [hc, Nat.add_sub_cancel, h.taken, List.getElem?_concat_length, Option.map_some, wordSym, hv]
  have ha := (symbolAdded_search hy).trans (navSearch_mark hm hb)
  have hd := navCh_navMatched (wordCh n v) ((navCh (symbolTook n v rest s) (wordCh n v)).seen - 1) 0 (symbolTook n v rest s)
  obtain ⟨hx, hq, hmem⟩ := h.dequeued (w := w) ha (h.settled.of_same (by rw [hd]) (by rw [hd]))
  exact ⟨_, hx, hq, hmem, sync_navMatched _ _ _ _, by rw [hd, hc]; rfl⟩

theorem OneSymbol.confirms_words (h : OneSymbol n v rest f s) (hy : s.fld (F.NAV_CH_STAT_SYNC (wordCh n v)) = 1)
    (hw : f.words = true) (hs : (navCh s (wordCh n v)).seen + 1 = (navCh s (wordCh n v)).start + 60)
    (hu : (navUnits (wordCh n v) f 60 (s.bit (F.NAV_CH_STAT_POL (wordCh n v))) (symbolAdded n v rest s)).all
      (fun o => (o.checks.take 2).all id) = true) :
    Dequeues n w rest s fun t =>
      t.fld (F.NAV_CH_STAT_SYNC (wordCh n v)) = 2 ∧ t.bit (F.NAV_CH_STAT_POL_VALID (wordCh n v)) = true ∧
      t.navUnits = s.navUnits := by
  have hc := navCh_symbolTook n v rest s
  have ha := (symbolAdded_confirm hy).trans
    (navConfirm_words (s := symbolTook n v rest s) hw (by rw [hc]; exact hs) (navUnits_symbolAdded _ ▸ hu))
  obtain ⟨hx, hq, hmem⟩ := h.dequeued (w := w) ha (h.settled.of_same (by rw [navCh_navSync]) (by rw [navCh_navSync]))
  obtain ⟨h2, hp⟩ := navSync_shows (wordCh n v) (symbolTook n v rest s)
  exact ⟨_, hx, hq, hmem, h2, hp, (navUnits_navSync _ _).trans navUnits_symbolTook⟩

theorem OneSymbol.confirms_unit (h : OneSymbol n v rest f s) (hy : s.fld (F.NAV_CH_STAT_SYNC (wordCh n v)) = 1)
    (hw : f.words = false) (hm : f.sync ≠ .mark)
    (hs : (navCh s (wordCh n v)).seen + 1 = (navCh s (wordCh n v)).start + f.unit + f.tail)
    (hu : navUnits (wordCh n v) f (f.unit + f.tail) (s.bit (F.NAV_CH_STAT_POL (wordCh n v))) (symbolAdded n v rest s) = o :: os)
    (ho : o.pass = true) : Dequeues n w rest s fun t =>
      t.fld (F.NAV_CH_STAT_SYNC (wordCh n v)) = 2 ∧ t.bit (F.NAV_CH_STAT_POL_VALID (wordCh n v)) = true ∧
      s.navUnits.length + os.length < t.navUnits.length := by
  have hc := navCh_symbolTook n v rest s
  have ha := (symbolAdded_confirm hy).trans
    (navConfirm_unit (s := symbolTook n v rest s) hw hm (by rw [hc]; exact hs) (navUnits_symbolAdded _ ▸ hu) ho)
  obtain ⟨h2, hp, hl, hd⟩ := confirmed_shows (wordCh_lt n v) f ((symbolTook n v rest s).bit (F.NAV_CH_STAT_POL (wordCh n v)))
    (o :: os) (symbolTook n v rest s)
  obtain ⟨hx, hq, hmem⟩ := h.dequeued (w := w) ha (hd h.settled)
  rw [navUnits_symbolTook, List.length_cons] at hl
  exact ⟨_, hx, hq, hmem, h2, hp, hl⟩

theorem OneSymbol.loses_sync (h : OneSymbol n v rest f s) (hy : s.fld (F.NAV_CH_STAT_SYNC (wordCh n v)) = 2) (hm : f.sync ≠ .mark)
    (hs : (navCh s (wordCh n v)).seen + 1 = (navCh s (wordCh n v)).start + f.unit + f.tail)
    (hp : ∀ p ∈ f.places, (navCh s (wordCh n v)).seen + 1 ≠ (navCh s (wordCh n v)).start + p + f.patLen)
    (hu : navUnits (wordCh n v) f (f.unit + f.tail) (s.bit (F.NAV_CH_STAT_POL (wordCh n v))) (symbolAdded n v rest s) = o :: os)
    (hv : o.verdict f = 1) (h0 : s.fld F.NAV_CFG_LOSS_N ≠ 0) (hl : s.fld F.NAV_CFG_LOSS_N ≤ (navCh s (wordCh n v)).fails + 1) :
    Dequeues n w rest s fun t =>
      t.fld (F.NAV_CH_STAT_SYNC (wordCh n v)) = 0 ∧ t.bit (F.NAV_CH_STAT_SYNC_LOST (wordCh n v)) = true ∧ EventUp 61 t ∧
      s.navUnits.length < t.navUnits.length := by
  have hk := wordCh_lt n v
  have hc := navCh_symbolTook n v rest s
  have hN : (symbolTook n v rest s).fld F.NAV_CFG_LOSS_N = s.fld F.NAV_CFG_LOSS_N := fld_symbolTook (.inr rfl)
  have hY : (symbolTook n v rest s).fld (F.NAV_CH_STAT_SYNC (wordCh n v)) = 2 := (fld_symbolTook (.inl rfl)).trans hy
  have ha := (symbolAdded_track hy).trans
    (navTrack_unit (s := symbolTook n v rest s) hm (by rw [hc]; exact hs) (by rw [hc]; exact hp))
  rw [← navUnits_symbolAdded, hu, syncUnits_last hk hY hv (hN ▸ h0) (by rw [hN, hc]; exact hl) os] at ha
  obtain ⟨h1, h2, h3, hlen, hd⟩ := lost_shows hk hY f o
  obtain ⟨hx, hq, hmem⟩ := h.dequeued (w := w) ha (hd h.settled)
  rw [navUnits_symbolTook] at hlen
  exact ⟨_, hx, hq, hmem, h1, h2, h3, hlen⟩

end Sys2Proof.Machine
end

section
/-! SUPPORT. What a record stream of the host port leaves of the navigation data path (R433 to R436). -/
namespace Sys2Proof.Machine

variable {s t u : State}

/-- The words from the navigation data path's up to the host port's, the device memory, and the units that wait, as they were. -/
structure HostOnly (s t : State) : Prop where
  words : ∀ a, 0x200000 ≤ a → a < 0x400000 → t.word a = s.word a
  mem : t.mem = s.mem
  units : t.navUnits = s.navUnits

theorem HostOnly.refl (s : State) : HostOnly s s := ⟨fun _ _ _ => rfl, rfl, rfl⟩

theorem HostOnly.trans (h : HostOnly s t) (g : HostOnly t u) : HostOnly s u :=
  ⟨fun a h1 h2 => (g.words a h1 h2).trans (h.words a h1 h2), g.mem.trans h.mem, g.units.trans h.units⟩

theorem HostOnly.ite {c : Prop} [Decidable c] (ht : HostOnly s t) (hu : HostOnly s u) : HostOnly s (if c then t else u) := by
  split <;> assumption

theorem WordsOnly.hostOnly {ks : List Nat} (h : WordsOnly ks s t) (hk : ∀ a, 0x200000 ≤ a → a < 0x400000 → a ∉ ks) :
    HostOnly s t :=
  ⟨fun a h1 h2 => h.words a (hk a h1 h2), h.mem, h.navUnits⟩

theorem HostOnly.setWord {a : Nat} (ha : 0x400000 ≤ a) (w : Word) (s : State) : HostOnly s (s.setWord a w) :=
  (WordsOnly.setWord a w s).hostOnly fun b _ hb hm => by
    rw [List.mem_singleton] at hm
    omega

theorem HostOnly.flagEvent {f : Fld} (hf : 0x400000 ≤ f.off) (n : Nat) (s : State) : HostOnly s (Machine.flagEvent f n s) :=
  (WordsOnly.flagEvent f n s).hostOnly fun a h1 h2 hm => by
    obtain ⟨hl, hb0, hb1⟩ := plainKey_nav h1 h2
    rcases List.mem_cons.1 hm with h | hm
    · omega
    · exact not_mem_evKeys hl hb0 hb1 n hm

theorem HostOnly.setNotifier (n : Nat) (x : Notifier) (s : State) : HostOnly s (Machine.setNotifier s n x) :=
  ⟨fun _ _ _ => rfl, rfl, rfl⟩

theorem HostOnly.putUnits (n : Nat) (us : List (List Byte)) (c : Word) (s : State) : HostOnly s (Machine.putUnits n us c s) := by
  induction us generalizing c s with
  | nil => exact .refl s
  | cons b us ih =>
    have hb : HostOnly s (s.setHostBytes (entryAddr n 64 c s) b) := ⟨fun _ _ _ => rfl, rfl, rfl⟩
    exact hb.trans (ih (c + 1) _)

theorem HostOnly.setCounts (n : Nat) (head tail : Word) (s : State) : HostOnly s (Machine.setCounts n head tail s) :=
  ((HostOnly.setWord (Nat.le_add_right_of_le (by decide)) _ s).trans (.setWord (Nat.le_add_right_of_le (by decide)) _ _)).trans
    (.setWord (Nat.le_add_right_of_le (by decide)) _ _)

theorem pendFld_off (n : Nat) : 0x400000 ≤ (pendFld n).off := by
  have hr : 0x400000 ≤ R.HOST_RES_PEND := by decide
  have hs : 0x400000 ≤ R.HOST_STREAM_PEND := by decide
  unfold pendFld
  split <;> assumption

theorem HostOnly.notifyUnits (n units : Nat) (s : State) : HostOnly s (Machine.notifyUnits n units s) := by
  unfold Machine.notifyUnits
  extract_lets x s₁ c
  have h₁ : HostOnly s s₁ := .setNotifier n _ s
  exact .ite (.refl s) (.ite (h₁.trans ((HostOnly.setNotifier n {} s₁).trans (.flagEvent (pendFld_off n) _ _))) h₁)

theorem HostOnly.ringWrite (n : Nat) (bs : List Byte) (s : State) : HostOnly s (Machine.ringWrite n bs s) :=
  ((HostOnly.putUnits n _ _ s).trans (.setCounts n _ _ _)).trans (.notifyUnits n _ _)

theorem HostOnly.streamPut (q : Nat) (batch : List (List Byte)) (s : State) : HostOnly s (Machine.streamPut q batch s) := by
  have hw (bs : List (List Byte)) (s : State) : HostOnly s (bs.foldl (fun s b => Machine.ringWrite (64 + q) b s) s) := by
    induction bs generalizing s with
    | nil => exact .refl s
    | cons b bs ih => exact (HostOnly.ringWrite _ b s).trans (ih _)
  exact .ite (.refl s) (.ite (hw batch s)
    ((HostOnly.setWord (Nat.le_add_right_of_le (by decide)) _ s).trans (.flagEvent (by decide) 7 _)))

end Sys2Proof.Machine
end

section
/-! PROOFS. O17, the staging ring: a unit is staged or dropped, RD consumes, and DROP clears (R182 to R184). -/
namespace Sys2Proof.Machine

variable {s t : State} {who : Reader} {v : Word} {r : NavRec} {rest : List NavRec}

/-- Whether WR is right behind RD (R182). -/
abbrev stgFull (s : State) : Bool := (s.fld F.NAV_STG_WR_WR + 1) % 512 == s.fld F.NAV_STG_RD_RD

theorem bit_syncStaging (s : State) : (syncStaging s).bit F.NAV_STG_STAT_FULL = stgFull s :=
  State.bit_setBit s F.NAV_STG_STAT_FULL _ rfl (by decide)

theorem WordsOnly.syncStaging (s : State) : WordsOnly [R.NAV_STG_STAT] s (Machine.syncStaging s) := .setFld F.NAV_STG_STAT_FULL _ s

theorem stgFull_congr (hw : t.fld F.NAV_STG_WR_WR = s.fld F.NAV_STG_WR_WR) (hr : t.fld F.NAV_STG_RD_RD = s.fld F.NAV_STG_RD_RD) :
    stgFull t = stgFull s := by rw [stgFull, hw, hr]

theorem full_syncStaging (s : State) : (syncStaging s).bit F.NAV_STG_STAT_FULL = stgFull (syncStaging s) := by
  have hw := (WordsOnly.syncStaging s).words
  rw [bit_syncStaging, stgFull_congr (hw.fld (by decide)) (hw.fld (by decide))]

/-! A unit (R182 to R184). -/

theorem length_stagedBytes (r : NavRec) (nseq : Nat) (s : State) : (stagedBytes r nseq s).length = 128 := by
  simp only [stagedBytes, List.length_append, length_leBytes, List.length_take, List.length_replicate, List.length_cons,
    List.length_nil]
  omega

/-- The oldest unit waits no longer. -/
def unitTaken (rest : List NavRec) (s : State) : State := { s with navUnits := rest }

@[simp] theorem fld_unitTaken (rest : List NavRec) (s : State) (f : Fld) : (unitTaken rest s).fld f = s.fld f := rfl

/-- A record is made of its unit, its number and the timebase. -/
@[simp] theorem stagedBytes_unitTaken (r : NavRec) (nseq : Nat) (rest : List NavRec) (s : State) :
    stagedBytes r nseq (unitTaken rest s) = stagedBytes r nseq s := rfl

theorem MemsSame.unitTaken (rest : List NavRec) (s : State) : MemsSame s (Machine.unitTaken rest s) := ⟨rfl, rfl, rfl, rfl⟩

/-- A unit's record is written at WR. -/
def recordWritten (r : NavRec) (s : State) : State :=
  s.setMemBytes (stagingBase + 0x80 * s.fld F.NAV_STG_WR_WR) (stagedBytes r (s.fld F.NAV_STG_WR_NSEQ) s)

theorem fld_recordWritten (r : NavRec) (s : State) (f : Fld) : (recordWritten r s).fld f = s.fld f := by
  have hf (a : Nat) (bs : List Byte) : (s.setMemBytes a bs).fld f = s.fld f := rfl
  rw [recordWritten, hf]

/-- WR, NSEQ and the channel's UNITS count a record (R172, R182, R183). -/
def recordCounted (r : NavRec) (s : State) : State :=
  ((s.setFld F.NAV_STG_WR_WR (s.fld F.NAV_STG_WR_WR + 1)).setFld F.NAV_STG_WR_NSEQ (s.fld F.NAV_STG_WR_NSEQ + 1)).setFld
    (F.NAV_CH_STAT_UNITS r.chan) (s.fld (F.NAV_CH_STAT_UNITS r.chan) + if r.tag = (navCh s r.chan).tag then 1 else 0)

/-- A copy of a record for the host (R184). -/
def recordCopied (bs : List Byte) (s : State) : State := if s.bit F.NAV_CFG_HOST_COPY then streamPut 1 [bs] s else s

theorem WordsOnly.recordCounted (r : NavRec) (s : State) :
    WordsOnly [R.NAV_STG_WR, R.NAV_CH_STAT r.chan] s (Machine.recordCounted r s) :=
  (((WordsOnly.setFld F.NAV_STG_WR_WR _ s).mono (by simp)).trans ((WordsOnly.setFld F.NAV_STG_WR_NSEQ _ _).mono (by simp))).trans
    ((WordsOnly.setFld (F.NAV_CH_STAT_UNITS r.chan) _ _).mono (by simp))

theorem recordCounted_shows (r : NavRec) (s : State) :
    (recordCounted r s).fld F.NAV_STG_WR_WR = (s.fld F.NAV_STG_WR_WR + 1) % 512 ∧
      (recordCounted r s).fld F.NAV_STG_WR_NSEQ = (s.fld F.NAV_STG_WR_NSEQ + 1) % 2 ^ 16 := by
  have hu (v : Nat) (u : State) := (WordsOnly.setFld (F.NAV_CH_STAT_UNITS r.chan) v u).words
  have hn : R.NAV_STG_WR ∉ [(F.NAV_CH_STAT_UNITS r.chan).off] := by
    simp only [List.mem_singleton, R.NAV_STG_WR]
    omega
  rw [recordCounted, (hu _ _).fld hn, (hu _ _).fld hn,
    State.fld_setFld_ne _ F.NAV_STG_WR_NSEQ F.NAV_STG_WR_WR _ (by decide) (by decide) (by decide)]
  exact ⟨State.fld_setFld s F.NAV_STG_WR_WR _ (by decide) (by decide),
    State.fld_setFld _ F.NAV_STG_WR_NSEQ _ (by decide) (by decide)⟩

theorem HostOnly.recordCopied (bs : List Byte) (s : State) : HostOnly s (Machine.recordCopied bs s) :=
  .ite (.streamPut 1 [bs] s) (.refl s)

theorem exec_unitStage_none (h : s.navUnits = []) : exec .unitStage s = .next s := by
  change execUnitStage s = _
  rw [execUnitStage, h]

/-- The state that a unit taken is staged in. -/
def unitStaged (r : NavRec) (s : State) : State :=
  recordCopied (stagedBytes r (s.fld F.NAV_STG_WR_NSEQ) s) (syncStaging (recordCounted r (recordWritten r s)))

/-- A unit on a full ring: DROP, its count and its event (R182). -/
def unitDropped (s : State) : State :=
  raise 60 ((s.setFld F.NAV_STG_STAT_DROP 1).setFld F.NAV_STG_STAT_DROP_CNT (satNat 0xFFFF (s.fld F.NAV_STG_STAT_DROP_CNT + 1)))

theorem exec_unitStage (h : s.navUnits = r :: rest) : exec .unitStage s = .next (
    let u := unitTaken rest s
    if (u.fld F.NAV_STG_WR_WR + 1) % 512 = u.fld F.NAV_STG_RD_RD then unitDropped u else unitStaged r u) := by
  change execUnitStage s = _
  rw [execUnitStage, h]
  rfl

theorem exec_unitStage_room (h : s.navUnits = r :: rest) (hr : (s.fld F.NAV_STG_WR_WR + 1) % 512 ≠ s.fld F.NAV_STG_RD_RD) :
    exec .unitStage s = .next (unitStaged r (unitTaken rest s)) := (exec_unitStage h).trans (congrArg _ (if_neg hr))

theorem exec_unitStage_full (h : s.navUnits = r :: rest) (hr : (s.fld F.NAV_STG_WR_WR + 1) % 512 = s.fld F.NAV_STG_RD_RD) :
    exec .unitStage s = .next (unitDropped (unitTaken rest s)) := (exec_unitStage h).trans (congrArg _ (if_pos hr))

theorem unit_staged (h : s.navUnits = r :: rest) (hr : (s.fld F.NAV_STG_WR_WR + 1) % 512 ≠ s.fld F.NAV_STG_RD_RD) :
    let at_ := stagingBase + 0x80 * s.fld F.NAV_STG_WR_WR
    ∃ t, exec .unitStage s = .next t ∧ t.navUnits = rest ∧
      t.memBytes at_ 128 = stagedBytes r (s.fld F.NAV_STG_WR_NSEQ) s ∧
      (∀ x, x < at_ ∨ at_ + 128 ≤ x → t.memByte x = s.memByte x) ∧
      t.fld F.NAV_STG_WR_WR = (s.fld F.NAV_STG_WR_WR + 1) % 512 ∧
      t.fld F.NAV_STG_WR_NSEQ = (s.fld F.NAV_STG_WR_NSEQ + 1) % 2 ^ 16 ∧ t.bit F.NAV_STG_STAT_FULL = stgFull t := by
  intro at_
  have hl := length_stagedBytes r (s.fld F.NAV_STG_WR_NSEQ) s
  have hc := WordsOnly.recordCounted r (recordWritten r (unitTaken rest s))
  have hs := WordsOnly.syncStaging (recordCounted r (recordWritten r (unitTaken rest s)))
  have ho := HostOnly.recordCopied (stagedBytes r ((unitTaken rest s).fld F.NAV_STG_WR_NSEQ) (unitTaken rest s))
    (syncStaging (recordCounted r (recordWritten r (unitTaken rest s))))
  have hm := (ho.mem.trans hs.mem).trans hc.mem
  have hf {f : Fld} (h1 : 0x200000 ≤ f.off) (h2 : f.off < 0x400000) := fld_congr (f := f) (ho.words f.off h1 h2)
  obtain ⟨hw, hn⟩ := recordCounted_shows r (recordWritten r (unitTaken rest s))
  rw [fld_recordWritten, fld_unitTaken] at hw hn
  refine ⟨_, exec_unitStage_room h hr, (ho.units.trans hs.navUnits).trans hc.navUnits, ?_, fun x hx => ?_, ?_, ?_, ?_⟩
  · exact (memBytes_of_mem hm _ _).trans (State.memBytes_setMemBytes _ _ hl)
  · exact (memByte_congr hm x).trans (State.memByte_setMemBytes_ne _ _ x _
      (by rw [stagedBytes_unitTaken, length_stagedBytes]; exact hx))
  · exact ((hf (by decide) (by decide)).trans (hs.words.fld (by decide))).trans hw
  · exact ((hf (by decide) (by decide)).trans (hs.words.fld (by decide))).trans hn
  · rw [unitStaged, State.bit, hf (by decide) (by decide), ← State.bit, full_syncStaging]
    exact (stgFull_congr (hf (by decide) (by decide)) (hf (by decide) (by decide))).symm

theorem unit_dropped (h : s.navUnits = r :: rest) (hr : (s.fld F.NAV_STG_WR_WR + 1) % 512 = s.fld F.NAV_STG_RD_RD) :
    ∃ t, exec .unitStage s = .next t ∧ t.navUnits = rest ∧ MemsSame s t ∧ t.bit F.NAV_STG_STAT_DROP = true ∧
      t.fld F.NAV_STG_STAT_DROP_CNT = min 0xFFFF (s.fld F.NAV_STG_STAT_DROP_CNT + 1) ∧ EventUp 60 t ∧
      t.fld F.NAV_STG_WR_WR = s.fld F.NAV_STG_WR_WR := by
  have hp : plainKey R.NAV_STG_STAT := by decide
  have hd (u : State) : WordsOnly (R.NAV_STG_STAT :: evKeys 60) u (unitDropped u) :=
    (((WordsOnly.setFld F.NAV_STG_STAT_DROP 1 u).trans (.setFld F.NAV_STG_STAT_DROP_CNT _ _)).mono (by simp)).trans
      ((WordsOnly.raise 60 _).mono (List.subset_cons_self _ _))
  refine ⟨_, exec_unitStage_full h hr, (hd _).navUnits, (MemsSame.unitTaken rest s).trans (hd _).memsSame, ?_, ?_,
    .raise_self 60 _, (hd _).words.fld (by decide)⟩
  · rw [unitDropped, bit_raise hp, State.bit_setFld_ne _ _ _ _ (by decide) (by decide) (by decide)]
    exact State.bit_setFld_one _ _ rfl (by decide)
  · rw [unitDropped, fld_raise hp, State.fld_setFld _ _ _ (by decide) (by decide), satNat_eq_min]
    exact Nat.mod_eq_of_lt (Nat.lt_succ_of_le (Nat.min_le_left _ _))

/-! The consumer (R182). -/

theorem exec_stgRdWrite (ho : Open who R.NAV_STG_RD s) : exec (.stgRdWrite who v) s = .next (opStgRdWrite v s) :=
  congrArg Host.Outcome.next (gate_open ho.1 ho.2)

theorem rd_consumes (ho : Open who R.NAV_STG_RD s)
    (h : (v.toNat % 512 + 512 - s.fld F.NAV_STG_RD_RD) % 512 ≤ (s.fld F.NAV_STG_WR_WR + 512 - s.fld F.NAV_STG_RD_RD) % 512) :
    ∃ t, exec (.stgRdWrite who v) s = .next t ∧ MemsSame s t ∧ t.fld F.NAV_STG_RD_RD = v.toNat % 512 ∧
      t.bit F.NAV_STG_STAT_FULL = stgFull t ∧ RegsBut [R.NAV_STG_RD, R.NAV_STG_STAT] s t := by
  have hop : opStgRdWrite v s = syncStaging (s.setFld F.NAV_STG_RD_RD (v.toNat % 512)) := if_pos h
  have hs := WordsOnly.syncStaging (s.setFld F.NAV_STG_RD_RD (v.toNat % 512))
  have hw : WordsOnly [R.NAV_STG_RD, R.NAV_STG_STAT] s (syncStaging (s.setFld F.NAV_STG_RD_RD (v.toNat % 512))) :=
    ((WordsOnly.setFld F.NAV_STG_RD_RD _ s).mono (by simp)).trans (hs.mono (by simp))
  refine ⟨_, (exec_stgRdWrite ho).trans (congrArg _ hop), hw.memsSame, ?_, full_syncStaging _, hw.words⟩
  rw [hs.words.fld (by decide), State.fld_setFld _ _ _ (by decide) (by decide)]
  exact Nat.mod_mod _ 512

theorem rd_ignored (ho : Open who R.NAV_STG_RD s)
    (h : (s.fld F.NAV_STG_WR_WR + 512 - s.fld F.NAV_STG_RD_RD) % 512 < (v.toNat % 512 + 512 - s.fld F.NAV_STG_RD_RD) % 512) :
    ∃ t, exec (.stgRdWrite who v) s = .next t ∧ MemsSame s t ∧ t.bit F.NAV_STG_STAT_BADRD = true ∧
      RegsBut [R.NAV_STG_STAT] s t := by
  have hop : opStgRdWrite v s = s.setFld F.NAV_STG_STAT_BADRD 1 := if_neg (Nat.not_le.2 h)
  have hw := WordsOnly.setFld F.NAV_STG_STAT_BADRD 1 s
  exact ⟨_, (exec_stgRdWrite ho).trans (congrArg _ hop), hw.memsSame, State.bit_setFld_one _ _ rfl (by decide), hw.words⟩

/-- The fields of NAV_STG_STAT. -/
def stgStatFields : List FieldSpec := [fs 31 31 .ro 0x0, fs 30 30 .w1c 0x0, fs 29 29 .w1c 0x0, fs 15 0 .ro 0x0]

theorem regAt_stgStat : regAt R.NAV_STG_STAT = some ⟨R.NAV_STG_STAT, [], 0, .d, false, stgStatFields⟩ := by decide

theorem fieldsApart_stgStat : fieldsApart stgStatFields := by
  simp [fieldsApart, FieldSpec.apart, stgStatFields, fs]

theorem drop_clears (ho : Open who R.NAV_STG_STAT s) (hv : v.getLsbD 30 = true) :
    ∃ t, exec (.dropClear who v) s = .next t ∧ MemsSame s t ∧ t.bit F.NAV_STG_STAT_DROP = false ∧
      t.fld F.NAV_STG_STAT_DROP_CNT = 0 ∧ RegsBut [R.NAV_STG_STAT] s t := by
  have hop : opStgStatWrite who v s = (plainWrite who R.NAV_STG_STAT v s).setFld F.NAV_STG_STAT_DROP_CNT 0 := if_pos hv
  have hx : exec (.dropClear who v) s = .next (opStgStatWrite who v s) := congrArg Host.Outcome.next (gate_open ho.1 ho.2)
  have hw : WordsOnly [R.NAV_STG_STAT] s ((plainWrite who R.NAV_STG_STAT v s).setFld F.NAV_STG_STAT_DROP_CNT 0) :=
    (WordsOnly.plainWrite_of_lawful v regAt_stgStat rfl (vltChecked_of_no_vlt fun _ _ => rfl)).trans
      (.setFld F.NAV_STG_STAT_DROP_CNT 0 _)
  refine ⟨_, hx.trans (congrArg _ hop), hw.memsSame, ?_, State.fld_setFld _ _ _ (by decide) (by decide), hw.words⟩
  rw [State.bit_setFld_ne _ _ _ _ (by decide) (by decide) (by decide),
    bit_plainWrite_w1c (rst := 0) (l := .any) v regAt_stgStat rfl fieldsApart_stgStat (by simp [stgStatFields, fs]), hv]
  exact Bool.and_false _

end Sys2Proof.Machine
end

section
/-! PROOFS. O17: navigation symbols are queued and dequeued, units are staged or dropped (R169 to R172, R178, R182 to R184). -/
namespace Sys2Proof.Machine

theorem exec_symbolDequeue_empty {s : State} {n : Fin 10} (h : navQueue s n = []) (w : Formed) :
    exec (.symbolDequeue n w) s = .next s := by
  change execSymbolDequeue n w s = _
  rw [execSymbolDequeue, h]

/-- Settles O17: a symbol port by the three ends of a write; a word that leaves its FIFO by the frame of the decoder, or where it
brings one symbol by synchronisation's step; the staging ring by its equations. -/
theorem navigationPath : Obligations.NavigationPath := by
  unfold Obligations.NavigationPath
  intro who n v s q k wr rd full
  refine ⟨fun ho => ⟨symbol_queued ho, symbol_dropped ho, symbol_refused ho⟩, fun h => exec_symbolDequeue_empty h _,
    fun tag owed rest f hq hf => ⟨word_of_earlier_start hq hf, word_counted hq hf, word_resyncs hq hf,
      fun ht hr hg howed hs => ?_⟩, exec_unitStage_none, fun r rest h => ⟨unit_staged h, unit_dropped h⟩,
    fun ho => ⟨rd_consumes ho, rd_ignored ho⟩, drop_clears⟩
  subst ht howed
  have h : OneSymbol n v rest f s := ⟨hq, hf, hr, hg, hs⟩
  exact ⟨h.matches, h.confirms_words, fun hy hw hm _ he o os hu ho => h.confirms_unit hy hw hm he hu ho,
    fun hy hm _ he hp o os hu hv h0 hl => h.loses_sync hy hm he hp hu (hv o List.mem_cons_self) h0 hl⟩

end Sys2Proof.Machine
end

section
/-! SUPPORT. The Sieve's plan (R188, R197): what a step on one entry leaves as it was, and what an entry shows once it is stored or
completes. -/
namespace Sys2Proof.Machine

variable {s t u : State} {i j : Nat} {ks : List Nat}

theorem planEntry_congr (h : t.sieve.plan = s.sieve.plan) (j : Nat) : planEntry t j = planEntry s j := by
  rw [planEntry, planEntry, h]

theorem planEntry_setPlan_ne (s : State) (e : PlanEntry) (h : j ≠ i) : planEntry (setPlan s i e) j = planEntry s j :=
  Sparse.get_put_ne _ _ h

/-- Every plan entry but the `i`-th stands as it was, and so do the memories. -/
structure EntryOnly (i : Nat) (s t : State) : Prop where
  entries : ∀ j, j ≠ i → planEntry t j = planEntry s j
  mems : MemsSame s t

theorem EntryOnly.trans (h : EntryOnly i s t) (k : EntryOnly i t u) : EntryOnly i s u :=
  ⟨fun j hj => (k.entries j hj).trans (h.entries j hj), h.mems.trans k.mems⟩

theorem EntryOnly.of_plan (h : t.sieve.plan = s.sieve.plan) (hm : MemsSame s t) : EntryOnly i s t :=
  ⟨fun j _ => planEntry_congr h j, hm⟩

theorem WordsOnly.entryOnly (h : WordsOnly ks s t) : EntryOnly i s t := .of_plan (congrArg Sieve.plan h.sieve) h.memsSame

theorem EntryOnly.setPlan (i : Nat) (e : PlanEntry) (s : State) : EntryOnly i s (Machine.setPlan s i e) :=
  ⟨fun _ hj => planEntry_setPlan_ne s e hj, rfl, rfl, rfl, rfl⟩

theorem EntryOnly.sieveStore (i : Nat) (w : List Word) (s : State) : EntryOnly i s (Machine.sieveStore i w s) :=
  ⟨fun _ hj => planEntry_setPlan_ne _ _ hj, memsSame_sieveStore i w s⟩

theorem EntryOnly.sieveDone (i res : Nat) (s : State) : EntryOnly i s (Machine.sieveDone i res s) :=
  (EntryOnly.setPlan i _ s).trans (WordsOnly.raise 64 _).entryOnly

/-- A command on the `i`-th plan entry takes effect; the other entries, private RAM and the flash stand as they were. -/
def Serves (i : Nat) (c : Instr) (s : State) (post : State → PlanEntry → Prop) : Prop :=
  ∃ t, exec c s = .next t ∧ post t (planEntry t i) ∧ (∀ j, j ≠ i → planEntry t j = planEntry s j) ∧ t.ram = s.ram ∧
    t.flash = s.flash

theorem EntryOnly.serves {c : Instr} {post : State → PlanEntry → Prop} (h : EntryOnly i s t) (hx : exec c s = .next t)
    (hp : post t (planEntry t i)) : Serves i c s post := by
  obtain ⟨_, hram, _, hflash⟩ := h.mems
  exact ⟨t, hx, hp, h.entries, hram, hflash⟩

/-- An entry has completed with a status (R197). -/
def Ended (res : Nat) (t : State) (f : PlanEntry) : Prop := f.state = 6 ∧ f.armed = false ∧ f.result = res ∧ EventUp 64 t

theorem ended_sieveDone (i res : Nat) (s : State) : Ended res (sieveDone i res s) (planEntry (sieveDone i res s) i) := by
  obtain ⟨ha, hs, hr⟩ := planEntry_sieveDone i res s
  exact ⟨hs, ha, hr, .raise_self 64 _⟩

/-- Completing an entry leaves what it shows of its hand-off. -/
theorem handoff_sieveDone (i res : Nat) (s : State) : let f := planEntry (sieveDone i res s) i
    f.ring = (planEntry s i).ring ∧ f.hslot = (planEntry s i).hslot ∧ f.hseq = (planEntry s i).hseq ∧
      f.issued = (planEntry s i).issued := by
  rw [sieveDone, (WordsOnly.raise 64 _).planEntry, planEntry_setPlan]
  exact ⟨rfl, rfl, rfl, rfl⟩

theorem hseq_sieveDone (i res : Nat) (s : State) : (sieveDone i res s).sieve.hseq = s.sieve.hseq :=
  (congrArg Sieve.hseq (WordsOnly.raise 64 (setPlan s i _)).sieve).trans rfl

/-- A request whose first word has bit 31 is armed. -/
theorem armed_of_bit31 {v : Nat} (hl : 2 ^ 31 ≤ v) (hh : v < 2 ^ 32) (ws : List Word) :
    ({ req := BitVec.ofNat 32 v :: ws } : PlanEntry).armed = true := by
  have hw : (BitVec.ofNat 32 v).toNat = v := by rw [BitVec.toNat_ofNat, Nat.mod_eq_of_lt hh]
  simp only [PlanEntry.armed, PlanEntry.flag, winWord, List.getD_cons_zero, hw, Nat.testBit_eq_decide_div_mod_eq]
  exact decide_eq_true (by omega)

/-- An armed request is queued. -/
theorem sieveStore_queues {w : List Word} (h : ({ req := w } : PlanEntry).armed = true) (i : Nat) (s : State) :
    let f := planEntry (sieveStore i w s) i
    f.armed = true ∧ f.state = 1 ∧ f.req = w := by
  obtain ⟨hr, hs⟩ := planEntry_sieveStore i w s
  refine ⟨?_, hs.trans (if_pos h), hr⟩
  rw [PlanEntry.armed, PlanEntry.flag, hr]
  exact h

/-- The state itself, or after one value was drawn. -/
def Drawn (s t : State) : Prop := t = s ∨ t = s.draw.2

theorem Drawn.regs (h : Drawn s t) : t.regs = s.regs := by rcases h with rfl | rfl <;> rfl

theorem Drawn.sieve (h : Drawn s t) : t.sieve = s.sieve := by rcases h with rfl | rfl <;> rfl

theorem Drawn.memsSame (h : Drawn s t) : MemsSame s t := by rcases h with rfl | rfl <;> exact ⟨rfl, rfl, rfl, rfl⟩

theorem Drawn.entryOnly (h : Drawn s t) : EntryOnly i s t := .of_plan (congrArg Sieve.plan h.sieve) h.memsSame

theorem Drawn.planEntry (h : Drawn s t) (j : Nat) : Machine.planEntry t j = Machine.planEntry s j :=
  planEntry_congr (congrArg Sieve.plan h.sieve) j

theorem requestStart_eq (d : Nat) (tt : Option Nat) (s : State) :
    ∃ b, WordsOnly (R.PWR_START_DEFER :: evKeys 28) { s with budget := b } (requestStart d tt s) := by
  have hq (u : State) : WordsOnly (R.PWR_START_DEFER :: evKeys 28) u (syncQueued u) :=
    (WordsOnly.setFld F.PWR_START_DEFER_QUEUED _ u).mono (by simp)
  unfold requestStart
  extract_lets waits _ s₁
  split
  · exact ⟨s.budget, .refl _ s⟩
  · split
    · exact ⟨_, (hq _).trans (WordsOnly.flagEvent F.PWR_START_DEFER_DEFER 28 s₁)⟩
    · exact ⟨_, hq _⟩

/-- A domain's start is asked for in the start budget alone; the plan stands. -/
theorem plan_requestStart (d : Nat) (tt : Option Nat) (s : State) : (requestStart d tt s).sieve.plan = s.sieve.plan := by
  obtain ⟨b, h⟩ := requestStart_eq d tt s
  rw [h.sieve]

theorem MemsSame.requestStart (d : Nat) (tt : Option Nat) (s : State) : MemsSame s (Machine.requestStart d tt s) := by
  obtain ⟨b, h⟩ := requestStart_eq d tt s
  exact MemsSame.trans ⟨rfl, rfl, rfl, rfl⟩ h.memsSame

end Sys2Proof.Machine
end

section
/-! PROOFS. O18, captures: the start of a search's capture, its end, and a capture taken again (R190 to R192). -/
namespace Sys2Proof.Machine

variable {s t u : State} {i : BitVec 7}

/-- A sample enters a capture, and nothing else of the entry changes. -/
theorem captureWord_eq (e : PlanEntry) (s : State) : ∃ g n, captureWord e s = { e with got := g, invalid := n } := by
  unfold captureWord
  extract_lets w
  split
  · exact ⟨_, e.invalid, rfl⟩
  · exact ⟨_, _, rfl⟩

theorem drawn_freqUnc (s : State) : Drawn s (freqUnc s).2 := by
  unfold freqUnc
  split
  · exact .inr rfl
  · exact .inl rfl

/-- Windows are set from the request or predicted; only an unknown frequency uncertainty draws a value (R192). -/
theorem setWindows_spec (e : PlanEntry) (n : Nat) (s : State) : let r := setWindows e n s
    Drawn s r.2 ∧ r.1.retries = e.retries ∧ (e.flag 29 = false →
      r.1.dopC = toSigned 32 (winWord e.req 2) ∧ r.1.dopHW = winWord e.req 3 ∧ r.1.codHW = winWord e.req 5) := by
  unfold setWindows
  cases h : e.flag 29
  · exact ⟨.inl rfl, rfl, fun _ => ⟨rfl, rfl, rfl⟩⟩
  · exact ⟨drawn_freqUnc s, rfl, nofun⟩

theorem EntryOnly.captureBegin (i : Nat) (s : State) : EntryOnly i s (Machine.captureBegin i s) := by
  unfold Machine.captureBegin
  extract_lets e₀ e n steps r
  split
  · exact .setPlan i _ s
  · exact (setWindows_spec e n s).1.entryOnly.trans (.setPlan i _ r.2)

theorem regs_captureBegin (i : Nat) (s : State) : (captureBegin i s).regs = s.regs := by
  unfold captureBegin
  extract_lets e₀ e n steps r
  split
  · rfl
  · exact (setWindows_spec e n s).1.regs

/-- An entry with its capture emptied, at the present tick. -/
def captureEmptied (i : Nat) (s : State) : PlanEntry := { planEntry s i with start := s.tick, got := [], invalid := 0 }

/-- The capture of a search begins (R191, R192). -/
theorem captureBegin_search {i : Nat} (h : (planEntry s i).conf = false) : let f := planEntry (captureBegin i s) i
    f.state = 2 ∧ f.t = captureTag s ∧ f.steps = s.fld F.TB_STATUS_STEP_SEQ ∧ f.samples = [] ∧
      f.retries = (planEntry s i).retries ∧ ((planEntry s i).flag 29 = false →
        f.dopC = toSigned 32 (winWord (planEntry s i).req 2) ∧ f.dopHW = winWord (planEntry s i).req 3 ∧
        f.codHW = winWord (planEntry s i).req 5) := by
  have he : captureBegin i s =
      let r := setWindows (captureEmptied i s) (captureTag s) s
      setPlan r.2 i (captureWord
        { r.1 with state := 2, t := captureTag s, steps := s.fld F.TB_STATUS_STEP_SEQ, samples := [] } s) :=
    if_neg (by rw [h]; exact Bool.false_ne_true)
  obtain ⟨_, hr, hw⟩ := setWindows_spec (captureEmptied i s) (captureTag s) s
  obtain ⟨g, m, hc⟩ := captureWord_eq { (setWindows (captureEmptied i s) (captureTag s) s).1 with
    state := 2, t := captureTag s, steps := s.fld F.TB_STATUS_STEP_SEQ, samples := [] } s
  rw [he, planEntry_setPlan, hc]
  exact ⟨rfl, rfl, rfl, rfl, hr, hw⟩

/-- The capture of a confirmation begins (R194). -/
theorem captureBegin_confirm {i : Nat} (h : (planEntry s i).conf = true) :
    (planEntry (captureBegin i s) i).state = 4 ∧ (planEntry (captureBegin i s) i).conf = true := by
  have he : captureBegin i s =
      let e := captureEmptied i s
      setPlan s i (captureWord { e with
        state := 4, codC := codeMoved e e.codC e.dopC e.t (captureTag s) s, t := captureTag s
        steps := s.fld F.TB_STATUS_STEP_SEQ, samples := [] } s) := if_pos h
  obtain ⟨g, m, hc⟩ := captureWord_eq { captureEmptied i s with
    state := 4, codC := codeMoved (captureEmptied i s) (captureEmptied i s).codC (captureEmptied i s).dopC
      (captureEmptied i s).t (captureTag s) s, t := captureTag s, steps := s.fld F.TB_STATUS_STEP_SEQ, samples := [] } s
  rw [he, planEntry_setPlan, hc]
  exact ⟨rfl, h⟩

theorem capture_starts (hen : s.bit F.SIEVE_CFG_EN = true) (hp : pstate s ≠ 2) (hs : (planEntry s i.toNat).state = 1)
    (hb : captureBusy (planEntry s i.toNat).chain s = false)
    (hf : planFirst (fun x => x.state == 1 && x.chain == (planEntry s i.toNat).chain) s = some i.toNat)
    (hc : (planEntry s i.toNat).conf = false) : Serves i.toNat (.sieveCaptureStart i) s fun t f =>
      f.state = 2 ∧ f.t = captureTag s ∧ f.steps = s.fld F.TB_STATUS_STEP_SEQ ∧ f.samples = [] ∧ t.regs = s.regs ∧
      ((planEntry s i.toNat).flag 29 = false → f.dopC = toSigned 32 (winWord (planEntry s i.toNat).req 2) ∧
        f.dopHW = winWord (planEntry s i.toNat).req 3 ∧ f.codHW = winWord (planEntry s i.toNat).req 5) := by
  have hx : exec (.sieveCaptureStart i) s = .next (captureBegin i.toNat s) :=
    congrArg Host.Outcome.next (if_pos (by simp [hen, hp, hs, hb, hf]))
  obtain ⟨h2, ht, hst, hsa, _, hw⟩ := captureBegin_search hc
  exact (EntryOnly.captureBegin _ s).serves hx ⟨h2, ht, hst, hsa, regs_captureBegin _ s, hw⟩

theorem capture_waits (hen : s.bit F.SIEVE_CFG_EN = false) : exec (.sieveCaptureStart i) s = .next s :=
  congrArg Host.Outcome.next (if_neg (by simp [hen]))

/-! The end of a capture (R191). -/

theorem EntryOnly.searchBegin (i : Nat) (l : List (BitVec 16)) (s : State) : EntryOnly i s (Machine.searchBegin i l s) := by
  unfold Machine.searchBegin
  extract_lets e s₁
  have h₁ : EntryOnly i s s₁ := .setPlan i _ s
  split
  · exact h₁.trans (.of_plan (plan_requestStart _ _ s₁) (.requestStart _ _ s₁))
  · exact h₁

/-- A complete capture of a search is searched, with its samples and two transforms for each bin and segment (R193). -/
theorem planEntry_searchBegin {i : Nat} (hc : (planEntry s i).conf = false) (l : List (BitVec 16)) :
    planEntry (searchBegin i l s) i = { planEntry s i with
      state := 3, samples := l, got := [], left := (2 * (planEntry s i).binHalf + 1) * (planEntry s i).nnc * 2 } := by
  unfold searchBegin
  extract_lets e s₁
  have h₁ : planEntry s₁ i = { e with
      state := 3, samples := l, got := [], left := (2 * e.binHalf + 1) * e.nnc * 2 } := by
    rw [planEntry_setPlan, show e.conf = false from hc]
    rfl
  split
  · exact (planEntry_congr (plan_requestStart _ _ s₁) i).trans h₁
  · exact h₁

theorem captureLen_eq {e : PlanEntry} {g : Sig} (hg : sigOf e.sig = some g) :
    e.captureLen = captureRate g.kcps * e.tcoh * e.nnc := by rw [PlanEntry.captureLen, hg]

section
variable (hs : (planEntry s i.toNat).state = 2) (hn : (planEntry s i.toNat).captureLen ≤ (planEntry s i.toNat).got.length)
include hs hn

theorem exec_sieveCaptureDone (v w : Formed) :
    exec (.sieveCaptureDone i v w) s = .next (
      let e := planEntry s i.toNat
      if e.captureLen < 8 * e.invalid ∨ s.fld F.TB_STATUS_STEP_SEQ ≠ e.steps then
        if e.retries < 3 then captureBegin i.toNat (setPlan s i.toNat { e with retries := e.retries + 1 })
        else sieveDone i.toNat ST.nosig s
      else searchBegin i.toNat e.got.reverse s) := by
  refine congrArg Host.Outcome.next (if_neg ?_)
  simp [PlanEntry.capturing, hs, Nat.not_lt.2 hn]

theorem capture_searched (hc : (planEntry s i.toNat).conf = false)
    (hv : 8 * (planEntry s i.toNat).invalid ≤ (planEntry s i.toNat).captureLen)
    (hst : s.fld F.TB_STATUS_STEP_SEQ = (planEntry s i.toNat).steps) (v w : Formed) :
    Serves i.toNat (.sieveCaptureDone i v w) s fun _ f => f.state = 3 ∧ f.samples = (planEntry s i.toNat).got.reverse ∧
      f.got = [] ∧ f.left = (2 * (planEntry s i.toNat).binHalf + 1) * (planEntry s i.toNat).nnc * 2 := by
  have hgood := not_or.2 ⟨Nat.not_lt.2 hv, not_not.2 hst⟩
  refine (EntryOnly.searchBegin _ _ s).serves ((exec_sieveCaptureDone hs hn v w).trans (congrArg _ (if_neg hgood))) ?_
  rw [planEntry_searchBegin hc]
  exact ⟨rfl, rfl, rfl, rfl⟩

variable (hbad : (planEntry s i.toNat).captureLen < 8 * (planEntry s i.toNat).invalid ∨
  s.fld F.TB_STATUS_STEP_SEQ ≠ (planEntry s i.toNat).steps)
include hbad

theorem capture_retaken (hc : (planEntry s i.toNat).conf = false) (hr : (planEntry s i.toNat).retries < 3) (v w : Formed) :
    Serves i.toNat (.sieveCaptureDone i v w) s fun _ f =>
      f.state = 2 ∧ f.retries = (planEntry s i.toNat).retries + 1 ∧ f.t = captureTag s ∧ f.samples = [] := by
  have hx := (exec_sieveCaptureDone hs hn v w).trans (congrArg _ ((if_pos hbad).trans (if_pos hr)))
  obtain ⟨h2, ht, _, hsa, hre, _⟩ := captureBegin_search (i := i.toNat)
    (s := setPlan s i.toNat { planEntry s i.toNat with retries := (planEntry s i.toNat).retries + 1 })
    (by rw [planEntry_setPlan]; exact hc)
  exact ((EntryOnly.setPlan _ _ s).trans (.captureBegin _ _)).serves hx
    ⟨h2, hre.trans (by rw [planEntry_setPlan]), ht, hsa⟩

theorem capture_given_up (hr : 3 ≤ (planEntry s i.toNat).retries) (v w : Formed) :
    Serves i.toNat (.sieveCaptureDone i v w) s (Ended ST.nosig) :=
  (EntryOnly.sieveDone _ ST.nosig s).serves
    ((exec_sieveCaptureDone hs hn v w).trans (congrArg _ ((if_pos hbad).trans (if_neg (Nat.not_lt.2 hr)))))
    (ended_sieveDone _ ST.nosig s)

end

theorem capture_goes_on (hn : (planEntry s i.toNat).got.length < (planEntry s i.toNat).captureLen) (v w : Formed) :
    exec (.sieveCaptureDone i v w) s = .next s := congrArg Host.Outcome.next (if_pos (by simp [hn]))

end Sys2Proof.Machine
end

section
/-! PROOFS. O18, transforms: lane cycles from the window's budget, its cap, a new window, and lane group 0 in LEAN (R198, R199). -/
namespace Sys2Proof.Machine

variable {s t u : State}

theorem lane_laneRun (l : Nat) (w : LaneWork) (s : State) : lane (laneRun l w s) l = { lane s l with work := some w } := by
  simp [lane, laneRun, setLane]

/-- A transform of an entry is counted, with its lane cycles (R198). -/
def transformCounted (i : Nat) (s : State) : State :=
  let e := planEntry s i
  let c := passCost e.size
  let u := setPlan s i { e with left := e.left - 1, busy := e.busy + 1, lcyc := e.lcyc + c }
  { u with sieve := { u.sieve with used := s.sieve.used + c, last := s.tick } }

theorem EntryOnly.transformCounted (i : Nat) (s : State) : EntryOnly i s (Machine.transformCounted i s) :=
  (EntryOnly.setPlan i _ s).trans (.of_plan rfl ⟨rfl, rfl, rfl, rfl⟩)

theorem planEntry_transformCounted (i : Nat) (s : State) : planEntry (transformCounted i s) i =
    { planEntry s i with left := (planEntry s i).left - 1, busy := (planEntry s i).busy + 1
                         lcyc := (planEntry s i).lcyc + passCost (planEntry s i).size } :=
  (planEntry_congr rfl i).trans (planEntry_setPlan s i _)

theorem sieveStart_room {i : Nat} (l : Nat) (hr : sieveReady s = some i)
    (hb : s.sieve.used + passCost (planEntry s i).size ≤ sieveBudget s) :
    sieveStart l s = (true, laneRun l (.sieve i (planEntry s i).order) (transformCounted i s)) := by
  rw [sieveStart, hr]
  exact if_neg (Nat.not_lt.2 hb)

theorem sieveStart_capped {i : Nat} (l : Nat) (hr : sieveReady s = some i)
    (hb : sieveBudget s < s.sieve.used + passCost (planEntry s i).size) : sieveStart l s = (false, sieveCapped s) := by
  rw [sieveStart, hr]
  exact if_pos hb

theorem exec_sieveTransformStart {l : Fin 64} (h : laneFree l s = true) :
    exec (.sieveTransformStart l) s = .next (sieveStart l s).2 := congrArg Host.Outcome.next (if_pos h)

theorem transform_starts {l : Fin 64} {i : Nat} (hl : laneFree l s = true) (hr : sieveReady s = some i)
    (hb : s.sieve.used + passCost (planEntry s i).size ≤ sieveBudget s) :
    Serves i (.sieveTransformStart l) s fun t f =>
      f = { planEntry s i with left := (planEntry s i).left - 1, busy := (planEntry s i).busy + 1
                               lcyc := (planEntry s i).lcyc + passCost (planEntry s i).size } ∧
      (lane t l).work = some (.sieve i (planEntry s i).order) ∧
      t.sieve.used = s.sieve.used + passCost (planEntry s i).size ∧ t.regs = s.regs := by
  have hx := exec_sieveTransformStart hl
  rw [sieveStart_room _ hr hb] at hx
  have hlane : EntryOnly i (transformCounted i s) (laneRun l (.sieve i (planEntry s i).order) (transformCounted i s)) :=
    .of_plan rfl ⟨rfl, rfl, rfl, rfl⟩
  exact ((EntryOnly.transformCounted i s).trans hlane).serves hx
    ⟨planEntry_transformCounted i s, by rw [lane_laneRun], rfl, rfl⟩

theorem transform_capped {l : Fin 64} {i : Nat} (hl : laneFree l s = true) (hr : sieveReady s = some i)
    (hb : sieveBudget s < s.sieve.used + passCost (planEntry s i).size) (hc : s.sieve.capped = false) :
    Serves i (.sieveTransformStart l) s fun t f => f = planEntry s i ∧ t.sieve.capped = true ∧
      t.bit F.SIEVE_STAT_CAPPED = true ∧ EventUp 66 t ∧ t.car = s.car := by
  have hx := exec_sieveTransformStart hl
  have hcap : sieveCapped s = raise 66 ({ s with sieve := { s.sieve with capped := true } }.setFld F.SIEVE_STAT_CAPPED 1) :=
    if_neg (by rw [hc]; exact Bool.false_ne_true)
  rw [sieveStart_capped _ hr hb, hcap] at hx
  have hw (u : State) : WordsOnly (R.SIEVE_STAT :: evKeys 66) u (raise 66 (u.setFld F.SIEVE_STAT_CAPPED 1)) :=
    ((WordsOnly.setFld F.SIEVE_STAT_CAPPED 1 u).mono (by simp)).trans ((WordsOnly.raise 66 _).mono (List.subset_cons_self _ _))
  have h₁ : EntryOnly i s { s with sieve := { s.sieve with capped := true } } := .of_plan rfl ⟨rfl, rfl, rfl, rfl⟩
  refine (h₁.trans (hw _).entryOnly).serves hx
    ⟨((hw _).planEntry i).trans (planEntry_congr rfl i), congrArg Sieve.capped (hw _).sieve, ?_, .raise_self 66 _, ?_⟩
  · rw [bit_raise (by decide)]
    exact State.bit_setFld_one _ _ rfl (by decide)
  · exact (congrArg State.car (hw _).rest :)

theorem transform_waits {l : Fin 64} (hl : laneFree l s = false) : exec (.sieveTransformStart l) s = .next s :=
  congrArg Host.Outcome.next (if_neg (by rw [hl]; exact Bool.false_ne_true))

theorem window_restarts (s : State) : ∃ t, exec .laneWindow s = .next t ∧
    t.sieve = { s.sieve with used := 0, capped := false } ∧ t.car = { s.car with used := 0, hit := false } ∧ t.regs = s.regs ∧
    MemsSame s t := ⟨_, rfl, rfl, rfl, rfl, rfl, rfl, rfl, rfl⟩

theorem MemsSame.domainStop (d : Nat) (s : State) : MemsSame s (Machine.domainStop d s) := by
  obtain ⟨b, h⟩ := domainStop_eq d s
  exact MemsSame.trans ⟨rfl, rfl, rfl, rfl⟩ h.memsSame

theorem domainOn_domainStop {d : Nat} (hd : d < 32) (s : State) : domainOn d (domainStop d s) = false :=
  (State.maskBit_setMaskBit _ _ _ _ _ _ hd).trans (if_pos ⟨rfl, rfl⟩)

theorem group0_stops (hp : pstate s = 1) (hd : domainOn 15 s = true) (ht : s.sieve.last + 1200000 ≤ s.tick)
    (hr : sieveReady s = none) (hl : ∀ l < 8, (lane s l).work = none) :
    ∃ t, exec .leanGroup0Stop s = .next t ∧ domainOn 15 t = false ∧ MemsSame s t := by
  have hi : ∀ l ∈ List.range 8, (lane s l).work.isNone = true := fun l hm => by rw [hl l (List.mem_range.1 hm)]; rfl
  exact ⟨_, congrArg Host.Outcome.next (if_pos ⟨hp, hd, ht, by rw [hr]; rfl, List.all_eq_true.2 hi⟩),
    domainOn_domainStop (by decide) s, .domainStop 15 s⟩

theorem group0_stays (hp : pstate s ≠ 1) : exec .leanGroup0Stop s = .next s :=
  congrArg Host.Outcome.next (if_neg fun h => hp h.1)

end Sys2Proof.Machine
end

section
/-! PROOFS. O18, detection: the ends of a search (R193 to R195). -/
namespace Sys2Proof.Machine

variable {s t u : State}

theorem drawn_noiseMean (cs : List Cell) (s : State) : Drawn s (noiseMean cs s).2 := by
  unfold noiseMean
  split
  · exact .inr rfl
  · exact .inl rfl

/-- How a search ends: a confirmation begins, a detection is to be placed or is reported, none is found or confirmed, or there is no
cell (R194). -/
def SearchEnds (e : PlanEntry) (t : State) (f : PlanEntry) : Prop :=
  (f.state = 4 ∧ f.conf = true ∧ e.conf = false ∧ e.flag 30 = true) ∨ (f.state = 5 ∧ e.flag 28 = true) ∨
    (Ended ST.ok t f ∧ e.flag 28 = false) ∨ Ended (if e.conf then ST.weak else ST.nosig) t f ∨ Ended ST.nosig t f

theorem searchDone_ends {i : Nat} (hx : searchDone i s = t) :
    EntryOnly i s t ∧ SearchEnds (planEntry s i) t (planEntry t i) := by
  unfold searchDone at hx
  extract_lets e cells r s₁ noise at hx
  have h₁ : EntryOnly i s s₁ := (drawn_noiseMean _ s).entryOnly
  have hset (f : PlanEntry) : EntryOnly i s (setPlan s₁ i f) := h₁.trans (.setPlan i f s₁)
  split at hx
  · subst hx
    exact ⟨h₁.trans (.sieveDone i _ s₁), .inr (.inr (.inr (.inr (ended_sieveDone i _ s₁))))⟩
  · extract_lets stat peak near kc kd dopp code x cn0 s₂ at hx
    split at hx
    · subst hx
      exact ⟨(hset _).trans (.sieveDone i _ _), .inr (.inr (.inr (.inl (ended_sieveDone i _ _))))⟩
    · split at hx
      · next hc =>
        subst hx
        simp only [Bool.and_eq_true, Bool.not_eq_true'] at hc
        obtain ⟨h30, hconf⟩ := hc
        obtain ⟨h4, hf⟩ := captureBegin_confirm (i := i)
          (s := setPlan s₁ i { e with conf := true, dopC := dopp, codC := code, peak := peak }) (by rw [planEntry_setPlan])
        exact ⟨(hset _).trans (.captureBegin i _), .inl ⟨h4, hf, hconf, h30⟩⟩
      · split at hx
        · next h28 =>
          subst hx
          exact ⟨hset _, .inr (.inl ⟨by rw [planEntry_setPlan], h28⟩)⟩
        · next h28 =>
          subst hx
          exact ⟨(hset _).trans (.sieveDone i _ _), .inr (.inr (.inl ⟨ended_sieveDone i _ _, Bool.not_eq_true _ ▸ h28⟩))⟩

theorem search_ends {i : BitVec 7} (hs : (planEntry s i.toNat).searching = true) (hl : (planEntry s i.toNat).left = 0)
    (hb : (planEntry s i.toNat).busy = 0) : Serves i.toNat (.sieveSearchDone i) s fun t f => t.mem = s.mem ∧
      SearchEnds (planEntry s i.toNat) t f := by
  have hx : exec (.sieveSearchDone i) s = .next (searchDone i.toNat s) :=
    congrArg Host.Outcome.next (if_pos (by simp [hs, hl, hb]))
  obtain ⟨ho, he⟩ := searchDone_ends (rfl : searchDone i.toNat s = _)
  exact ho.serves hx ⟨ho.mems.1, he⟩

theorem search_goes_on {i : BitVec 7} (hs : (planEntry s i.toNat).searching = false) :
    exec (.sieveSearchDone i) s = .next s := congrArg Host.Outcome.next (if_neg (by simp [hs]))

end Sys2Proof.Machine
end

section
/-! PROOFS. O18, hand-offs: a detection placed, one that finds no slot in time, and a stale hand-off (R155, R196, R197). -/
namespace Sys2Proof.Machine

variable {s t u : State} {i : BitVec 7} {n k : Nat}

theorem length_handBytes (e : PlanEntry) (h : Nat) : (handBytes e h).length = 32 := by simp [handBytes]

theorem handSlot_lt (h : handSlot n s = some k) : k < 16 := List.mem_range.1 (List.mem_of_find?_eq_some h)

/-- The ring picked is one of the ten. -/
theorem handRing_lt (h : handRing s = some n) : n < 10 := by
  refine List.mem_range.1 (List.mem_filter.1 ((mem_of_foldl_pick (fun b a => ?_) h).resolve_right nofun)).1
  cases b with
  | none => exact .inl rfl
  | some m => by_cases hm : idleChannels m s < idleChannels a s <;> simp [hm]

/-- A slot filled with its PEND set, and HSEQ counted (R155, R196). -/
def slotFilled (n k : Nat) (e : PlanEntry) (s : State) : State :=
  let s' := (s.setMemBytes (ringMem n + 0x1400 + 0x20 * k) (handBytes e s.sieve.hseq)).setMaskBit (R.TRK_RING_HANDOFF_PEND n) k true
  { s' with sieve := { s.sieve with hseq := (s.sieve.hseq + 1) % 2 ^ 16 } }

theorem exec_sieveHandoff (hs : (planEntry s i.toNat).state = 5) (hr : handRing s = some n) (hk : handSlot n s = some k) :
    exec (.sieveHandoff i) s = .next (sieveDone i.toNat ST.ok (setPlan (slotFilled n k (planEntry s i.toNat) s) i.toNat
      { planEntry s i.toNat with ring := n, hslot := k, hseq := s.sieve.hseq, issued := true })) := by
  change execSieveHandoff i s = _
  simp only [execSieveHandoff, hs, hr, hk]
  rfl

/-- Filling a slot leaves the plan and the memories but the device's, of which it writes 32 bytes, and sets the slot's PEND. -/
theorem slotFilled_spec (hk : k < 16) (e : PlanEntry) (s : State) : let u := slotFilled n k e s
    u.sieve = { s.sieve with hseq := (s.sieve.hseq + 1) % 2 ^ 16 } ∧ u.ram = s.ram ∧ u.flash = s.flash ∧
      u.memBytes (ringMem n + 0x1400 + 0x20 * k) 32 = handBytes e s.sieve.hseq ∧
      (∀ a, a < ringMem n + 0x1400 + 0x20 * k ∨ ringMem n + 0x1420 + 0x20 * k ≤ a → u.memByte a = s.memByte a) ∧
      u.maskBit (R.TRK_RING_HANDOFF_PEND n) k = true := by
  have hlen := length_handBytes e s.sieve.hseq
  intro u
  have hm : u.mem = (s.setMemBytes (ringMem n + 0x1400 + 0x20 * k) (handBytes e s.sieve.hseq)).mem := rfl
  have hp : u.word (R.TRK_RING_HANDOFF_PEND n) = (s.setMaskBit (R.TRK_RING_HANDOFF_PEND n) k true).word _ := rfl
  refine ⟨rfl, rfl, rfl, (memBytes_of_mem hm _ _).trans (State.memBytes_setMemBytes s _ hlen), fun a ha => ?_, ?_⟩
  · exact (memByte_congr hm a).trans (State.memByte_setMemBytes_ne s _ a _ (by rw [hlen]; omega))
  · exact (maskBit_congr hp k).trans ((State.maskBit_setMaskBit _ _ _ _ _ _ (hk.trans (by decide))).trans (if_pos ⟨rfl, rfl⟩))

theorem detection_placed (hs : (planEntry s i.toNat).state = 5) (hr : handRing s = some n) (hk : handSlot n s = some k) :
    Serves i.toNat (.sieveHandoff i) s fun t f => Ended ST.ok t f ∧
      f.ring = n ∧ f.hslot = k ∧ f.hseq = s.sieve.hseq ∧ f.issued = true ∧ t.sieve.hseq = (s.sieve.hseq + 1) % 2 ^ 16 ∧
      t.memBytes (ringMem n + 0x1400 + 0x20 * k) 32 = handBytes (planEntry s i.toNat) s.sieve.hseq ∧
      (∀ a, a < ringMem n + 0x1400 + 0x20 * k ∨ ringMem n + 0x1420 + 0x20 * k ≤ a → t.memByte a = s.memByte a) ∧
      t.maskBit (R.TRK_RING_HANDOFF_PEND n) k = true := by
  have hx := exec_sieveHandoff hs hr hk
  have hn := handRing_lt hr
  obtain ⟨hsv, hram, hflash, hbytes, hrest, hpend⟩ := slotFilled_spec (n := n) (handSlot_lt hk) (planEntry s i.toNat) s
  generalize slotFilled n k (planEntry s i.toNat) s = u at hx hsv hram hflash hbytes hrest hpend
  obtain ⟨hone, hmem, hram', _, hflash'⟩ := (EntryOnly.setPlan i.toNat
    { planEntry s i.toNat with ring := n, hslot := k, hseq := s.sieve.hseq, issued := true } u).trans (.sieveDone i.toNat ST.ok _)
  obtain ⟨h1, h2, h3, h4⟩ := handoff_sieveDone i.toNat ST.ok (setPlan u i.toNat
    { planEntry s i.toNat with ring := n, hslot := k, hseq := s.sieve.hseq, issued := true })
  rw [planEntry_setPlan] at h1 h2 h3 h4
  have hplan : u.sieve.plan = s.sieve.plan := by rw [hsv]
  have hseq : u.sieve.hseq = (s.sieve.hseq + 1) % 2 ^ 16 := by rw [hsv]
  refine ⟨_, hx, ⟨ended_sieveDone _ _ _, h1, h2, h3, h4, (hseq_sieveDone _ _ _).trans hseq,
    (memBytes_of_mem hmem _ _).trans hbytes, fun a ha => (memByte_congr hmem a).trans (hrest a ha), ?_⟩,
    fun j hj => (hone j hj).trans (planEntry_congr hplan j), hram'.trans hram, hflash'.trans hflash⟩
  refine (maskBit_congr (word_raise ?_ ?_ ?_ 64 _) k).trans hpend <;> simp only [R.TRK_RING_HANDOFF_PEND, R.MSIX_PBA] <;> omega

theorem detection_times_out (hs : (planEntry s i.toNat).state = 5) (hr : handRing s = none)
    (ht : (2 ^ 32 / 10 : Int) ≤ toSigned 64 ((s.now64 + 2 ^ 64 - (planEntry s i.toNat).t) % 2 ^ 64)) :
    Serves i.toNat (.sieveHandoffTimeout i) s fun t f => Ended ST.busy t f ∧ EventUp 65 t ∧ t.mem = s.mem := by
  have hx : exec (.sieveHandoffTimeout i) s = .next (raise 65 (sieveDone i.toNat ST.busy s)) :=
    congrArg Host.Outcome.next (if_pos ⟨hs, by rw [hr]; rfl, ht⟩)
  have hw := WordsOnly.raise 65 (sieveDone i.toNat ST.busy s)
  have ho := (EntryOnly.sieveDone i.toNat ST.busy s).trans hw.entryOnly
  obtain ⟨h6, ha, hres, hev⟩ := ended_sieveDone i.toNat ST.busy s
  refine ho.serves hx ⟨?_, .raise_self 65 _, ho.mems.1⟩
  rw [hw.planEntry]
  exact ⟨h6, ha, hres, hev.raise 65⟩

theorem not_placing (hs : (planEntry s i.toNat).state ≠ 5) :
    exec (.sieveHandoff i) s = .next s ∧ exec (.sieveHandoffTimeout i) s = .next s :=
  ⟨congrArg Host.Outcome.next (if_pos hs), congrArg Host.Outcome.next (if_neg fun h => hs h.1)⟩

theorem exec_sieveStale {who : Reader} {h : BitVec 16} (ho : Open who R.SIEVE_STALE s) :
    exec (.sieveStale who h) s = .next (opSieveStale h.toNat s) := congrArg Host.Outcome.next (gate_open ho.1 ho.2)

theorem stale_rearms {who : Reader} {h : BitVec 16} {j : Nat} {x : PlanEntry} (ho : Open who R.SIEVE_STALE s)
    (hf : s.sieve.plan.find? (fun x => x.2.issued && x.2.hseq == h.toNat) = some (j, x)) :
    Serves j (.sieveStale who h) s fun t f =>
      f.armed = true ∧ f.state = 1 ∧ f.req.drop 1 = x.req.drop 1 ∧ t.regs = s.regs := by
  have hx := exec_sieveStale (h := h) ho
  rw [opSieveStale, hf] at hx
  have hlt : winWord x.req 0 % 2 ^ 31 < 2 ^ 31 := Nat.mod_lt _ (by decide)
  have harm := armed_of_bit31 (v := winWord x.req 0 % 2 ^ 31 + 2 ^ 31) (Nat.le_add_left _ _) (by omega) (x.req.drop 1)
  obtain ⟨ha, h1, hq⟩ := sieveStore_queues harm j s
  exact (EntryOnly.sieveStore j _ s).serves hx ⟨ha, h1, by rw [hq]; rfl, rfl⟩

theorem stale_ignored {who : Reader} {h : BitVec 16} (ho : Open who R.SIEVE_STALE s)
    (hf : s.sieve.plan.find? (fun x => x.2.issued && x.2.hseq == h.toNat) = none) : exec (.sieveStale who h) s = .next s := by
  rw [exec_sieveStale ho, opSieveStale, hf]

end Sys2Proof.Machine
end

section
/-! PROOFS. O18, the automatic planner (R200). -/
namespace Sys2Proof.Machine

variable {s t u : State}

theorem mem_placeBy {α : Type} {key : α → Nat} {a b : α} {l : List α} (h : b ∈ placeBy key a l) : b = a ∨ b ∈ l := by
  induction l with
  | nil => exact .inl (List.mem_singleton.1 h)
  | cons c l ih =>
    rw [placeBy] at h
    split at h
    · exact List.mem_cons.1 h
    · rcases List.mem_cons.1 h with rfl | h
      · exact .inr List.mem_cons_self
      · exact (ih h).imp id (List.mem_cons_of_mem _)

theorem mem_of_foldl_placeBy {α : Type} {key : α → Nat} {b : α} {l acc : List α}
    (h : b ∈ l.foldl (fun acc a => placeBy key a acc) acc) : b ∈ l ∨ b ∈ acc := by
  induction l generalizing acc with
  | nil => exact .inr h
  | cons a l ih =>
    rcases ih h with h | h
    · exact .inl (List.mem_cons_of_mem _ h)
    · exact (mem_placeBy h).imp (fun he => List.mem_cons.2 (.inl he)) id

theorem mem_of_orderBy {α : Type} {key : α → Nat} {b : α} {l : List α} (h : b ∈ orderBy key l) : b ∈ l :=
  (mem_of_foldl_placeBy h).resolve_right List.not_mem_nil

theorem mem_of_coldLimit {n : Nat} {cs : List AutoCand} {c : AutoCand} (h : c ∈ coldLimit n cs) : c ∈ cs := by
  induction cs generalizing n with
  | nil => exact h
  | cons a cs ih =>
    unfold coldLimit at h
    split at h
    · cases n with
      | zero => exact List.mem_cons_of_mem _ (ih h)
      | succ n => exact (List.mem_cons.1 h).elim (· ▸ List.mem_cons_self) fun h => List.mem_cons_of_mem _ (ih h)
    · exact (List.mem_cons.1 h).elim (· ▸ List.mem_cons_self) fun h => List.mem_cons_of_mem _ (ih h)

theorem autoSigs_lt {sig : Nat} (h : sig ∈ autoSigs s) : sig < 64 := by
  obtain ⟨p, hp, hs⟩ := List.mem_filterMap.1 (List.mem_eraseDups.1 h)
  have hsig : sig = s.fld p.2 := by
    split at hs
    · exact (Option.some.inj hs).symm
    · cases hs
  simp only [List.mem_cons, List.not_mem_nil, or_false] at hp
  rcases hp with rfl | rfl | rfl | rfl <;> exact hsig ▸ bitsOf_lt _ _ _

/-- A candidate is a satellite of the catalogue with a signal code of six bits. -/
def CandSound (c : AutoCand) : Prop := c.1 < 221 ∧ c.2.1 < 64

theorem autoCands_sound {c : AutoCand} (h : c ∈ autoCands s) : CandSound c := by
  obtain ⟨sig, hsig, hc⟩ := List.mem_flatMap.1 (mem_of_orderBy h)
  obtain ⟨sat, hsat, hc⟩ := List.mem_filterMap.1 hc
  dsimp only at hc
  split at hc
  · cases hc
    exact ⟨List.mem_range.1 hsat, autoSigs_lt hsig⟩
  · cases hc

theorem chain_of_sigOf : ∀ sig < 64, ∀ g ∈ sigOf sig, g.chain < 4 := by decide

/-- What the planner writes for a candidate is armed (R200). -/
theorem armed_autoReq {c : AutoCand} (h : CandSound c) (s : State) :
    ({ req := autoReq c.2.1 c.1 s } : PlanEntry).armed = true := by
  obtain ⟨hsat, hsig⟩ := h
  unfold autoReq
  extract_lets ch
  have hch : ch < 4 := by
    dsimp only [ch]
    split
    · next g hg => exact chain_of_sigOf _ hsig g hg
    · decide
  have hp : s.fld (F.GRF_CH_CTRL_PROFILE ch) < 4 := bitsOf_lt _ _ _
  exact armed_of_bit31 (by omega) (by omega) _

/-- The planner writes none but the entries it is given, and those it writes are armed and queued. -/
theorem autoFill_spec {is : List Nat} {cs : List AutoCand} (hc : ∀ c ∈ cs, CandSound c) (s : State) :
    let t := autoFill is cs s
    t.regs = s.regs ∧ MemsSame s t ∧ ∀ j, planEntry t j = planEntry s j ∨
      j ∈ is ∧ (planEntry t j).armed = true ∧ (planEntry t j).state = 1 := by
  induction is generalizing cs s with
  | nil => exact ⟨rfl, ⟨rfl, rfl, rfl, rfl⟩, fun _ => .inl rfl⟩
  | cons i is ih =>
    cases cs with
    | nil => exact ⟨rfl, ⟨rfl, rfl, rfl, rfl⟩, fun _ => .inl rfl⟩
    | cons c cs =>
      have hs := EntryOnly.sieveStore i (autoReq c.2.1 c.1 s) s
      obtain ⟨ha, h1, _⟩ := sieveStore_queues (armed_autoReq (hc c List.mem_cons_self) s) i s
      obtain ⟨hregs, hm, hj⟩ := ih (fun c h => hc c (List.mem_cons_of_mem _ h)) (sieveStore i (autoReq c.2.1 c.1 s) s)
      refine ⟨hregs, hs.mems.trans hm, fun j => ?_⟩
      rcases hj j with he | ⟨hmem, hw⟩
      · by_cases hji : j = i
        · subst hji
          exact .inr ⟨List.mem_cons_self, by rw [autoFill, he]; exact ⟨ha, h1⟩⟩
        · exact .inl (he.trans (hs.entries j hji))
      · exact .inr ⟨List.mem_cons_of_mem _ hmem, hw⟩

/-- The entries that the planner may write (R200). -/
def plannerEntries (s : State) : List Nat :=
  (List.range 64).filterMap (fun k => if (planEntry s (64 + k)).armed then none else some (64 + k))

/-- They lie from 64 on, and none of them is armed. -/
theorem mem_plannerEntries {j : Nat} (h : j ∈ plannerEntries s) : 64 ≤ j ∧ j < 128 ∧ (planEntry s j).armed = false := by
  obtain ⟨k, hk, he⟩ := List.mem_filterMap.1 h
  have hk := List.mem_range.1 hk
  split at he
  · cases he
  · next hn =>
    cases he
    exact ⟨by omega, by omega, Bool.not_eq_true _ ▸ hn⟩

theorem planner_fills (ha : s.bit F.SIEVE_CFG_AUTO = true) (hen : s.bit F.SIEVE_CFG_EN = true)
    (hp : s.fld F.SIEVE_CFG_PERIOD ≠ 0) : ∃ t, exec .autoPlan s = .next t ∧ t.regs = s.regs ∧ MemsSame s t ∧
      (∀ j, (planEntry s j).armed = true ∨ j < 64 → planEntry t j = planEntry s j) ∧
      ∀ j, planEntry t j ≠ planEntry s j → j < 128 ∧ (planEntry t j).armed = true ∧ (planEntry t j).state = 1 := by
  have hx : exec .autoPlan s = .next (autoFill (plannerEntries s) (coldLimit 8 (autoCands s)) s) :=
    congrArg Host.Outcome.next (if_pos (by simp [ha, hen, hp]))
  obtain ⟨hregs, hm, hj⟩ := autoFill_spec (is := plannerEntries s)
    (fun c (h : c ∈ coldLimit 8 (autoCands s)) => autoCands_sound (mem_of_coldLimit h)) s
  refine ⟨_, hx, hregs, hm, fun j hkeep => (hj j).resolve_right fun ⟨hmem, _⟩ => ?_, fun j hne => ?_⟩
  · obtain ⟨h64, _, hfree⟩ := mem_plannerEntries hmem
    rcases hkeep with h | h
    · exact absurd h (hfree ▸ Bool.false_ne_true)
    · omega
  · obtain ⟨hmem, hw⟩ := (hj j).resolve_left hne
    exact ⟨(mem_plannerEntries hmem).2.1, hw⟩

theorem planner_off (ha : s.bit F.SIEVE_CFG_AUTO = false) : exec .autoPlan s = .next s :=
  congrArg Host.Outcome.next (if_neg (by simp [ha]))

end Sys2Proof.Machine
end

section
/-! PROOFS. O18: the Sieve's searches (R190 to R200). -/
namespace Sys2Proof.Machine

/-- Settles O18: each command of the Sieve by the lemma of its branch: captures, transforms, the ends of a search, hand-offs, the
planner, the windows and lane group 0. -/
theorem sieveSearches : Obligations.SieveSearches := by
  unfold Obligations.SieveSearches
  intro who i l h s
  exact ⟨capture_starts, capture_waits,
    fun g hg hs hc => by
      rw [← captureLen_eq hg]
      exact ⟨fun hn hv hst => capture_searched hs hn hc hv hst _ _, fun hn hbad hr => capture_retaken hs hn hbad hc hr _ _,
        fun hn hbad hr => capture_given_up hs hn hbad hr _ _, fun hn => capture_goes_on hn _ _⟩,
    fun hl hr => ⟨transform_starts hl hr, transform_capped hl hr⟩, transform_waits, search_ends, search_goes_on,
    fun _ _ => detection_placed, detection_times_out, not_placing,
    fun ho => ⟨fun _ hf => stale_rearms ho hf, stale_ignored ho⟩, planner_fills, planner_off, window_restarts s,
    group0_stops, group0_stays⟩

end Sys2Proof.Machine
end

section
/-! SUPPORT. The table of snapshot jobs (R216): what a step on one slot leaves as it was, and the end of a job (R222, R225). -/
namespace Sys2Proof.Machine

variable {s t u : State} {k i st dt : Nat} {j : Job} {ks : List Nat}

@[simp] theorem jobAt_setJob (s : State) (k : Nat) (j : Option Job) : jobAt (setJob s k j) k = j := Sparse.get_put_self _ k j

theorem jobAt_setJob_ne (s : State) (j : Option Job) (h : i ≠ k) : jobAt (setJob s k j) i = jobAt s i := Sparse.get_put_ne _ _ h

/-- Of two writes to one slot the later one stands. -/
theorem setJob_setJob (s : State) (k : Nat) (j b : Option Job) : setJob (setJob s k j) k b = setJob s k b := by
  simp [setJob]

theorem jobAt_congr (h : t.car.jobs = s.car.jobs) (i : Nat) : jobAt t i = jobAt s i := by rw [jobAt, h, jobAt]

theorem modJob_eq (h : jobAt s k = some j) (f : Job → Job) : modJob k f s = setJob s k (some (f j)) := by rw [modJob, h]

theorem jobAt_modJob (h : jobAt s k = some j) (f : Job → Job) : jobAt (modJob k f s) k = some (f j) := by
  rw [modJob_eq h, jobAt_setJob]

theorem WordsOnly.car (h : WordsOnly ks s t) : t.car = s.car := (congrArg State.car h.rest :)

theorem WordsOnly.ram (h : WordsOnly ks s t) : t.ram = s.ram := (congrArg State.ram h.rest :)

/-- Every job but that of slot `k`, the slots' generations, the device memory map and private RAM stand as they were. -/
structure SlotOnly (k : Nat) (s t : State) : Prop where
  others : ∀ i, i ≠ k → jobAt t i = jobAt s i
  gens : t.car.gens = s.car.gens
  mem : t.mem = s.mem
  ram : t.ram = s.ram

theorem SlotOnly.refl (k : Nat) (s : State) : SlotOnly k s s := ⟨fun _ _ => rfl, rfl, rfl, rfl⟩

theorem SlotOnly.trans (h : SlotOnly k s t) (g : SlotOnly k t u) : SlotOnly k s u :=
  ⟨fun i hi => (g.others i hi).trans (h.others i hi), g.gens.trans h.gens, g.mem.trans h.mem, g.ram.trans h.ram⟩

theorem SlotOnly.ite {c : Prop} [Decidable c] (ht : SlotOnly k s t) (hu : SlotOnly k s u) : SlotOnly k s (if c then t else u) := by
  split <;> assumption

/-- What leaves the table of jobs and the memories alone. -/
theorem SlotOnly.of_jobs (h : t.car.jobs = s.car.jobs) (hg : t.car.gens = s.car.gens) (hm : t.mem = s.mem)
    (hr : t.ram = s.ram) : SlotOnly k s t :=
  ⟨fun i _ => jobAt_congr h i, hg, hm, hr⟩

theorem WordsOnly.slotOnly (h : WordsOnly ks s t) : SlotOnly k s t :=
  .of_jobs (by rw [h.car]) (by rw [h.car]) h.mem h.ram

theorem SlotOnly.setJob (k : Nat) (j : Option Job) (s : State) : SlotOnly k s (Machine.setJob s k j) :=
  ⟨fun _ hi => jobAt_setJob_ne s j hi, rfl, rfl, rfl⟩

theorem SlotOnly.modJob (k : Nat) (f : Job → Job) (s : State) : SlotOnly k s (Machine.modJob k f s) := by
  unfold Machine.modJob
  split
  · exact .setJob k _ s
  · exact .refl k s

/-- A solve that begins concerns the sky table alone. -/
theorem liveNext_eq (s : State) : ∃ y, liveNext s = { s with sky := y } := by
  unfold liveNext
  split
  · split
    · exact ⟨s.sky, rfl⟩
    · exact ⟨_, rfl⟩
  · exact ⟨s.sky, rfl⟩

theorem car_liveNext (s : State) : (liveNext s).car = s.car := by
  obtain ⟨y, h⟩ := liveNext_eq s
  rw [h]

theorem regs_liveNext (s : State) : (liveNext s).regs = s.regs := by
  obtain ⟨y, h⟩ := liveNext_eq s
  rw [h]

theorem SlotOnly.liveNext (s : State) : SlotOnly k s (Machine.liveNext s) := by
  obtain ⟨y, h⟩ := liveNext_eq s
  rw [h]
  exact .of_jobs rfl rfl rfl rfl

/-! The end of a job. -/

/-- The count of the order of jobs moves on. -/
def seqMoved (s : State) : State := { s with car := { s.car with seq := s.car.seq + 1 } }

theorem SlotOnly.seqMoved (k : Nat) (s : State) : SlotOnly k s (Machine.seqMoved s) := .of_jobs rfl rfl rfl rfl

/-- The words that an error of chapter 08 may change: CAR_ERR and those of its event. -/
abbrev carErrKeys : List Nat := R.CAR_ERR :: evKeys 72

theorem WordsOnly.carErr {f : Fld} {n : Nat} (hf : f.off = R.CAR_ERR) (hn : n / 32 = 2) (s : State) :
    WordsOnly carErrKeys s (Machine.flagEvent f n s) := by
  have he : evKeys n = evKeys 72 := by rw [evKeys, hn]; rfl
  rw [carErrKeys, ← hf, ← he]
  exact .flagEvent f n s

/-- The job of a slot has its status, and its record waits (R222). -/
def Decided (k st dt : Nat) (t : State) : Prop :=
  ∃ b, jobAt t k = some b ∧ b.state = 6 ∧ b.status = st ∧ b.detail = dt ∧ b.record.isSome = true

theorem mayDecide_of_state (h : j.state ≠ 6) (st dt : Nat) (s : State) : mayDecide j st dt s = true := by simp [mayDecide, h]

/-- The end of a job flags its error and stores the job, decided, with its record; the sky table may begin a solve. -/
theorem jobEnd_eq (hj : jobAt s k = some j) (hm : mayDecide j st dt s = true) : ∃ u b,
    WordsOnly carErrKeys s u ∧ (b.state = 6 ∧ b.status = st ∧ b.detail = dt ∧ b.record.isSome = true) ∧
      jobEnd k st dt s = liveNext (setJob (seqMoved u) k (some b)) := by
  unfold jobEnd
  split
  case h_1 h => simp [h] at hj
  case h_2 j' h =>
  obtain rfl : j = j' := Option.some.inj (hj.symm.trans h)
  rw [if_neg (by rw [hm]; exact Bool.false_ne_true)]
  extract_lets s₁ s₂ s₃
  have ite {c : Prop} [Decidable c] {t u : State} (ht : WordsOnly carErrKeys s t) (hu : WordsOnly carErrKeys s u) :
      WordsOnly carErrKeys s (if c then t else u) := by split <;> assumption
  have h₁ : WordsOnly carErrKeys s s₁ := ite (.carErr rfl (by decide) s) (.refl _ s)
  have h₂ : WordsOnly carErrKeys s s₂ := ite (h₁.trans (.carErr rfl (by decide) s₁)) h₁
  have h₃ : WordsOnly carErrKeys s s₃ := ite (h₂.trans (.carErr rfl (by decide) s₂)) h₂
  exact ⟨s₃, _, h₃, ⟨rfl, rfl, rfl, rfl⟩, rfl⟩

/-- A job that is not there, or whose status may not be decided so any more, does not end. -/
theorem jobEnd_of_decided (h : ∀ j, jobAt s k = some j → mayDecide j st dt s = false) : jobEnd k st dt s = s := by
  unfold jobEnd
  split
  case h_1 => rfl
  case h_2 j hj => rw [if_pos (by rw [h j hj]; rfl)]

theorem jobEnd_decides (hj : jobAt s k = some j) (hm : mayDecide j st dt s = true) : Decided k st dt (jobEnd k st dt s) := by
  obtain ⟨u, b, -, hb, h⟩ := jobEnd_eq hj hm
  rw [h]
  exact ⟨b, (jobAt_congr (by rw [car_liveNext]) k).trans (jobAt_setJob _ k _), hb⟩

/-- An undecided job ends by any cause. -/
theorem jobEnd_decides_undecided (hj : jobAt s k = some j) (hs : j.state ≠ 6) (st dt : Nat) :
    Decided k st dt (jobEnd k st dt s) := jobEnd_decides hj (mayDecide_of_state hs st dt s)

theorem jobEnd_cases (k st dt : Nat) (s : State) :
    jobEnd k st dt s = s ∨ ∃ j, jobAt s k = some j ∧ mayDecide j st dt s = true := by
  by_cases h : ∀ j, jobAt s k = some j → mayDecide j st dt s = false
  · exact .inl (jobEnd_of_decided h)
  · simp only [not_forall, Bool.not_eq_false] at h
    obtain ⟨j, hj, hm⟩ := h
    exact .inr ⟨j, hj, hm⟩

theorem SlotOnly.jobEnd (k st dt : Nat) (s : State) : SlotOnly k s (Machine.jobEnd k st dt s) := by
  rcases jobEnd_cases k st dt s with h | ⟨j, hj, hm⟩
  · rw [h]
    exact .refl k s
  · obtain ⟨u, b, hu, -, h⟩ := jobEnd_eq hj hm
    rw [h]
    exact ((hu.slotOnly.trans (.seqMoved k u)).trans (.setJob k _ _)).trans (.liveNext _)

theorem RegsBut.jobEnd (k st dt : Nat) (s : State) : RegsBut carErrKeys s (Machine.jobEnd k st dt s) := by
  rcases jobEnd_cases k st dt s with h | ⟨j, hj, hm⟩
  · rw [h]
    exact fun _ _ => rfl
  · obtain ⟨u, b, hu, -, h⟩ := jobEnd_eq hj hm
    intro a ha
    rw [h, State.word, regs_liveNext]
    exact hu.words a ha

/-! Commands on one slot. -/

/-- A command takes effect; the device memory map and private RAM stand as they were. -/
def JobStep (c : Instr) (s : State) (post : State → Prop) : Prop :=
  ∃ t, exec c s = .next t ∧ t.mem = s.mem ∧ t.ram = s.ram ∧ post t

/-- The job of slot `k` has ended, and every other stands as it was. -/
def JobEnds (k st dt : Nat) (s t : State) : Prop := (∀ i, i ≠ k → jobAt t i = jobAt s i) ∧ Decided k st dt t

/-- A command that leaves every slot but one. -/
theorem SlotOnly.step {c : Instr} {post : State → Prop} (h : SlotOnly k s t) (hx : exec c s = .next t) (hp : post t) :
    JobStep c s fun t => (∀ i, i ≠ k → jobAt t i = jobAt s i) ∧ post t := ⟨t, hx, h.mem, h.ram, h.others, hp⟩

/-- A command that ends the undecided job of a slot. -/
theorem SlotOnly.step_ends {c : Instr} (h : SlotOnly k s u) (hx : exec c s = .next (Machine.jobEnd k st dt u))
    (hj : jobAt u k = some j) (hs : j.state ≠ 6) : JobStep c s (JobEnds k st dt s) :=
  (h.trans (.jobEnd k st dt u)).step hx (jobEnd_decides_undecided hj hs st dt)

end Sys2Proof.Machine
end

section
/-! PROOFS. O19, staging: blocks for the oldest waiting job, and a snapshot staged (R206 to R208, R213, R217, R223, R225). -/
namespace Sys2Proof.Machine

variable {s : State} {n : Nat} {b j : Job} {slot : BitVec 14}

/-! Staging blocks (R217). -/

/-- Blocks go to a job; a host source's snapshot is read from the host. -/
theorem stageGrant_eq {k : Nat} (h : jobAt s k = some j) :
    stageGrant k s = fetchStart j (setJob s k (some { j with blocks := blocksFor (descLen j.desc) })) := by rw [stageGrant, h]

/-- The fetch of a snapshot shows in the output alone. -/
theorem fetchStart_eq (j : Job) (s : State) : ∃ o, fetchStart j s = { s with out := o } ∧
    (j.src < 32 → o = s.out ++ [.hostRead (leAt j.desc 96 8) (descLen j.desc)]) := by
  unfold fetchStart
  split
  · exact ⟨_, rfl, fun _ => rfl⟩
  case isFalse h => exact ⟨s.out, rfl, fun hs => absurd hs h⟩

theorem SlotOnly.stageGrant (k : Nat) (s : State) : SlotOnly k s (Machine.stageGrant k s) := by
  unfold Machine.stageGrant
  split
  · exact .refl k s
  case h_2 j _ =>
    obtain ⟨o, ho, -⟩ := fetchStart_eq j (Machine.setJob s k (some { j with blocks := blocksFor (descLen j.desc) }))
    rw [ho]
    exact (SlotOnly.setJob k _ s).trans (.of_jobs rfl rfl rfl rfl)

/-- What a grant of blocks shows. -/
theorem stageGrant_shows {k : Nat} (h : jobAt s k = some j) : let t := stageGrant k s
    t.regs = s.regs ∧ jobAt t k = some { j with blocks := blocksFor (descLen j.desc) } ∧
      (j.src < 32 → t.out = s.out ++ [.hostRead (leAt j.desc 96 8) (descLen j.desc)]) := by
  obtain ⟨o, ho, hout⟩ := fetchStart_eq j (setJob s k (some { j with blocks := blocksFor (descLen j.desc) }))
  simp only [stageGrant_eq h, ho]
  exact ⟨rfl, (jobAt_congr rfl k).trans (jobAt_setJob s k _), hout⟩

theorem blocks_granted (hw : stageWaiting s = some (n, b)) (hj : jobAt s n = some b)
    (hb : blocksFor (descLen b.desc) ≤ stageFree s) : JobStep .stageBlocksGrant s fun t =>
      (∀ i, i ≠ n → jobAt t i = jobAt s i) ∧ t.regs = s.regs ∧
        jobAt t n = some { b with blocks := blocksFor (descLen b.desc) } ∧
        (b.src < 32 → t.out = s.out ++ [.hostRead (leAt b.desc 96 8) (descLen b.desc)]) := by
  have hx : exec .stageBlocksGrant s = .next (stageGrant n s) := by
    change execStageBlocksGrant s = _
    simp only [execStageBlocksGrant, hw, if_pos hb]
  exact (SlotOnly.stageGrant n s).step hx (stageGrant_shows hj)

theorem blocks_withheld (hw : stageWaiting s = some (n, b)) (hb : stageFree s < blocksFor (descLen b.desc)) :
    exec .stageBlocksGrant s = .next s := by
  change execStageBlocksGrant s = _
  simp only [execStageBlocksGrant, hw, if_neg (Nat.not_le.2 hb)]

/-! Entry to QUEUED (R223, R226). -/

/-- A job at the end of the queue of its source. -/
def jobInQueue (k : Nat) (j : Job) (s : State) : State :=
  setJob (seqMoved s) k (some { j with state := 2, order := s.car.seq })

theorem SlotOnly.jobInQueue (k : Nat) (j : Job) (s : State) : SlotOnly k s (Machine.jobInQueue k j s) :=
  (SlotOnly.seqMoved k s).trans (.setJob k _ _)

theorem jobAt_jobInQueue (k : Nat) (j : Job) (s : State) :
    jobAt (jobInQueue k j s) k = some { j with state := 2, order := s.car.seq } := jobAt_setJob _ k _

theorem modJob_queued {k : Nat} (hj : jobAt s k = some j) :
    modJob k (fun j => { j with state := 2, order := s.car.seq }) { s with car := { s.car with seq := s.car.seq + 1 } } =
      jobInQueue k j s := modJob_eq (s := seqMoved s) ((jobAt_congr rfl k).trans hj) _

/-- A job past its deadline ends on entry to QUEUED. -/
theorem jobQueued_late {k : Nat} (hj : jobAt s k = some j) (hd : deadlinePassed j.desc s = true) :
    jobQueued k s = jobEnd k ST.deadline 0x41 (jobInQueue k j s) := by
  simp only [jobQueued, modJob_queued hj, jobAt_jobInQueue]
  exact if_pos hd

/-- A job that may not be forwarded stays in QUEUED. -/
theorem jobQueued_stays {k : Nat} (hj : jobAt s k = some j) (hd : deadlinePassed j.desc s = false)
    (hf : descFlag j.desc 5 = false) : jobQueued k s = jobInQueue k j s := by
  simp only [jobQueued, modJob_queued hj, jobAt_jobInQueue]
  refine (if_neg ?_).trans (if_neg ?_)
  · exact fun h => absurd (hd.symm.trans h) Bool.false_ne_true
  · simp [hf]

/-! A fetch completes (R213, R214). -/

theorem profileFor_setJob (s : State) (k : Nat) (j : Option Job) (rate : Nat) : profileFor rate (setJob s k j) = profileFor rate s :=
  rfl

section
variable (hj : jobAt s slot.toNat = some j) (hs : j.state = 1) (hb : j.blocks ≠ 0) (he : j.ending = none) (hsrc : j.src < 32)
include hj hs hb he hsrc

theorem snapshot_faults : JobStep (.snapshotStaged slot none) s (JobEnds slot.toNat ST.abort 0x30 s) := by
  refine (SlotOnly.refl _ s).step_ends ?_ hj (by rw [hs]; decide)
  change execSnapshotStaged slot none s = _
  simp [execSnapshotStaged, hj, hs, hb, he, hsrc]

variable {b : List Byte} (hv : leAt b 1 1 = 2)
include hv

theorem snapshot_malformed {dt : Nat} (hc : snapCheck j.desc b = some dt) :
    JobStep (.snapshotStaged slot (some b)) s (JobEnds slot.toNat ST.format dt s) := by
  refine (SlotOnly.setJob _ (some { j with snap := b }) s).step_ends ?_ (jobAt_setJob s _ _) (by simp [hs])
  change execSnapshotStaged slot (some b) s = _
  simp [execSnapshotStaged, hj, hs, hb, he, hsrc, hv, hc]

variable (hc : snapCheck j.desc b = none)
include hc

theorem snapshot_without_profile (hp : profileFor (leAt b 4 4) s = none) :
    JobStep (.snapshotStaged slot (some b)) s (JobEnds slot.toNat 0x20 0 s) := by
  refine (SlotOnly.setJob _ (some { j with snap := b }) s).step_ends ?_ (jobAt_setJob s _ _) (by simp [hs])
  change execSnapshotStaged slot (some b) s = _
  simp [execSnapshotStaged, hj, hs, hb, he, hsrc, hv, hc, profileFor_setJob, hp]

variable {p : Nat} (hp : profileFor (leAt b 4 4) s = some p)
include hp

/-- A snapshot that passes its checks takes its job to QUEUED. -/
theorem exec_snapshotStaged_passed : exec (.snapshotStaged slot (some b)) s =
    .next (jobQueued slot.toNat (setJob s slot.toNat (some { j with snap := b, prof := some p }))) := by
  change execSnapshotStaged slot (some b) s = _
  simp [execSnapshotStaged, hj, hs, hb, he, hsrc, hv, hc, profileFor_setJob, hp, modJob_eq (jobAt_setJob s _ _), setJob_setJob]

theorem snapshot_late (hd : deadlinePassed j.desc s = true) :
    JobStep (.snapshotStaged slot (some b)) s (JobEnds slot.toNat ST.deadline 0x41 s) :=
  ((SlotOnly.setJob _ _ s).trans (.jobInQueue _ _ _)).step_ends
    ((exec_snapshotStaged_passed hj hs hb he hsrc hv hc hp).trans (congrArg _ (jobQueued_late (jobAt_setJob _ _ _) hd)))
    (jobAt_jobInQueue _ _ _) (by decide : (2 : Nat) ≠ 6)

theorem snapshot_queued (hd : deadlinePassed j.desc s = false) (hf : descFlag j.desc 5 = false) :
    JobStep (.snapshotStaged slot (some b)) s fun t => (∀ i, i ≠ slot.toNat → jobAt t i = jobAt s i) ∧ t.regs = s.regs ∧
      jobAt t slot.toNat = some { j with snap := b, prof := some p, state := 2, order := s.car.seq } :=
  ((SlotOnly.setJob _ _ s).trans (.jobInQueue _ _ _)).step
    ((exec_snapshotStaged_passed hj hs hb he hsrc hv hc hp).trans (congrArg _ (jobQueued_stays (jobAt_setJob _ _ _) hd hf)))
    ⟨rfl, jobAt_jobInQueue _ _ _⟩

end

end Sys2Proof.Machine
end

section
/-! PROOFS. O19, deadlines and forwards: a job past its deadline ends, and a lost forward is taken back (R223, R225, R229). -/
namespace Sys2Proof.Machine

variable {s : State} {j : Job} {slot : BitVec 14}

/-! Deadlines (R223, R225). -/

theorem deadline_ends (hj : jobAt s slot.toNat = some j) (hd : deadlinePassed j.desc s = true) (hs : j.state ≠ 6)
    (he : j.ending = none) : JobStep (.jobDeadline slot) s
      (JobEnds slot.toNat ST.deadline (if j.state = 7 then 0x42 else 0x41) s) := by
  refine (SlotOnly.refl _ s).step_ends ?_ hj hs
  change execJobDeadline slot s = _
  simp [execJobDeadline, hj, hd, hs, he, mayDecide_of_state]

theorem deadline_waits (hj : jobAt s slot.toNat = some j) (h : deadlinePassed j.desc s = false ∨ j.ending ≠ none) :
    exec (.jobDeadline slot) s = .next s := by
  change execJobDeadline slot s = _
  rcases h with h | h
  · simp [execJobDeadline, hj, h]
  · simp [execJobDeadline, hj, Option.isSome_iff_ne_none.2 h]

/-! A forward without a result (R229). -/

theorem deadlinePassed_of_zero {d : List Byte} (h : descDeadline d = 0) (s : State) : deadlinePassed d s = false := by
  simp [deadlinePassed, h]

/-- A flag that is set reads 1, whether it was set before or not. -/
theorem bit_flagEvent {f : Fld} (hf : plainKey f.off) (hl : f.lo = f.hi) (hh : f.hi < 32) (n : Nat) (s : State) :
    (flagEvent f n s).bit f = true := by
  unfold flagEvent
  split
  case isTrue h => exact h
  case isFalse =>
    rw [bit_raise hf]
    exact State.bit_setFld_one s f hl hh

/-- A forwarded job in QUEUED once more (R229). -/
def jobRequeued (k : Nat) (j : Job) (s : State) : State :=
  setJob (seqMoved s) k (some { j with state := 2, retaken := true, order := s.car.seq })

theorem jobAt_jobRequeued (k : Nat) (j : Job) (s : State) :
    jobAt (jobRequeued k j s) k = some { j with state := 2, retaken := true, order := s.car.seq } := jobAt_setJob _ k _

theorem SlotOnly.jobRequeued (k : Nat) (j : Job) (s : State) : SlotOnly k s (Machine.jobRequeued k j s) :=
  (SlotOnly.seqMoved k s).trans (.setJob k _ _)

/-- One more job is counted as taken back. -/
def retakeCounted (s : State) : State := s.setFld F.CAR_FWD_STAT_RETAKEN (satNat 0xFFFF (s.fld F.CAR_FWD_STAT_RETAKEN + 1))

theorem jobRetake_eq {k : Nat} (hj : jobAt s k = some j) (hd : descDeadline j.desc = 0) :
    jobRetake k s = flagEvent F.CAR_ERR_FWD_LOST 77 (retakeCounted (jobRequeued k j s)) := by
  have hm : modJob k (fun j => { j with state := 2, retaken := true, order := s.car.seq })
      { s with car := { s.car with seq := s.car.seq + 1 } } = jobRequeued k j s :=
    modJob_eq (s := seqMoved s) ((jobAt_congr rfl k).trans hj) _
  have hw : jobAt (flagEvent F.CAR_ERR_FWD_LOST 77 (retakeCounted (jobRequeued k j s))) k =
      some { j with state := 2, retaken := true, order := s.car.seq } :=
    (jobAt_congr (by rw [(WordsOnly.flagEvent _ _ _).car, retakeCounted, State.setFld_car]) k).trans (jobAt_jobRequeued k j s)
  unfold jobRetake
  rw [hm]
  extract_lets u v w
  rw [show w = flagEvent F.CAR_ERR_FWD_LOST 77 (retakeCounted (jobRequeued k j s)) from rfl, hw]
  exact if_neg (by rw [deadlinePassed_of_zero hd]; exact Bool.false_ne_true)

/-- The count of the forwards taken back stops at its greatest value. -/
theorem fld_retakeCounted (s : State) :
    (retakeCounted s).fld F.CAR_FWD_STAT_RETAKEN = min 0xFFFF (s.fld F.CAR_FWD_STAT_RETAKEN + 1) := by
  rw [retakeCounted, State.fld_setFld _ _ _ (by decide) (by decide), satNat_eq_min]
  exact Nat.mod_eq_of_lt ((Nat.min_le_left _ _).trans_lt (by decide))

section
variable (hj : jobAt s slot.toNat = some j) (hs : j.state = 7) (hd : descDeadline j.desc = 0)
  (ht : s.fld F.CAR_FWD_CFG_TIMEOUT ≠ 0)
include hj

theorem forward_waits (hw : s.tick < j.sentAt + s.fld F.CAR_FWD_CFG_TIMEOUT * 120000) : exec (.fwdTimeout slot) s = .next s := by
  change execFwdTimeout slot s = _
  simp only [execFwdTimeout, hj]
  rw [if_neg]
  rintro ⟨_, _, _, h⟩
  exact absurd hw (Nat.not_lt.2 h)

include hs hd ht

theorem forward_taken_back (hw : j.sentAt + s.fld F.CAR_FWD_CFG_TIMEOUT * 120000 ≤ s.tick) : JobStep (.fwdTimeout slot) s fun t =>
    (∀ i, i ≠ slot.toNat → jobAt t i = jobAt s i) ∧
      jobAt t slot.toNat = some { j with state := 2, retaken := true, order := s.car.seq } ∧ t.bit F.CAR_ERR_FWD_LOST = true ∧
      t.fld F.CAR_FWD_STAT_RETAKEN = min 0xFFFF (s.fld F.CAR_FWD_STAT_RETAKEN + 1) := by
  have hx : exec (.fwdTimeout slot) s = .next (jobRetake slot.toNat s) := by
    change execFwdTimeout slot s = _
    simp only [execFwdTimeout, hj]
    rw [if_pos ⟨hs, hd, ht, hw⟩]
  rw [jobRetake_eq hj hd] at hx
  have hc : WordsOnly _ (jobRequeued slot.toNat j s) (retakeCounted (jobRequeued slot.toNat j s)) := .setFld _ _ _
  have hf := WordsOnly.carErr (f := F.CAR_ERR_FWD_LOST) (n := 77) rfl (by decide) (retakeCounted (jobRequeued slot.toNat j s))
  refine (((SlotOnly.jobRequeued _ j s).trans hc.slotOnly).trans hf.slotOnly).step hx
    ⟨?_, bit_flagEvent (by decide) rfl (by decide) _ _, ?_⟩
  · exact (jobAt_congr (by rw [hf.car, hc.car]) _).trans (jobAt_jobRequeued _ j s)
  · exact (hf.words.fld (by decide)).trans (fld_retakeCounted _)

end

end Sys2Proof.Machine
end

section
/-! PROOFS. O19, windows: a job's entry to WINDOWS with its checks 10 to 12, and its way on (R213, R215, R241 to R246, R254). -/
namespace Sys2Proof.Machine

variable {s t u : State} {k tc p : Nat} {j b : Job}

/-- A job that has entered WINDOWS, its capture instant not known yet. -/
def jobEntered (j : Job) (s : State) : Job := { j with state := 3, scratch := jobScratch j s, epoch := some s.sky.epochs }

theorem windowsEnter_without_instant (h : jobInstant j s = none) :
    windowsEnter k j s = jobEnd k 0x21 0 (setJob s k (some (jobEntered j s))) := by
  have hi : jobInstant j (setJob s k (some (jobEntered j s))) = none := h
  unfold windowsEnter
  extract_lets u
  rw [show jobInstant j u = none from hi]
  rfl

/-- A job in WINDOWS at a capture instant. -/
def jobTimed (j : Job) (tc : Nat) (s : State) : Job := { jobEntered j s with tc := some tc }

theorem modJob_jobEntered (k tc : Nat) (j : Job) (s : State) :
    modJob k (fun j => { j with tc := some tc }) (setJob s k (some (jobEntered j s))) = setJob s k (some (jobTimed j tc s)) :=
  (modJob_eq (jobAt_setJob _ _ _) _).trans (setJob_setJob _ _ _ _)

/-- No signal of a job has a satellite with a usable slot at its capture instant. -/
def noSats (j : Job) (tc : Nat) (s : State) : Bool :=
  (maskSigs (descMask j.desc)).all (fun c => (usableSats c (s.widen tc) s).isEmpty)

theorem deadlinePassed_setJob (s : State) (k : Nat) (j : Option Job) (d : List Byte) :
    deadlinePassed d (setJob s k j) = deadlinePassed d s := rfl

theorem jobSegs_setJob (s : State) (k : Nat) (j : Option Job) (b : Job) (p : Nat) : jobSegs b p (setJob s k j) = jobSegs b p s := rfl

theorem WordsOnly.corrErr {f : Fld} (hf : f.off = R.CAR_CORR_ERR) (c : Prop) [Decidable c] (s : State) :
    WordsOnly (R.CAR_CORR_ERR :: evKeys 79) s (if c then Machine.flagEvent f 79 s else s) := by
  split
  · rw [← hf]
    exact .flagEvent f 79 s
  · exact .refl _ s

theorem Drawn.car (h : Drawn s t) : t.car = s.car := by rcases h with rfl | rfl <;> rfl

theorem Drawn.slotOnly (h : Drawn s t) : SlotOnly k s t :=
  .of_jobs (by rw [h.car]) (by rw [h.car]) h.memsSame.1 h.memsSame.2.1

/-- What a job that stays in WINDOWS has (R235, R241, R254). -/
def InWindows (k : Nat) (j : Job) (tc p : Nat) (s t : State) : Prop :=
  ∃ c, jobAt t k = some c ∧ c.state = 3 ∧ c.tc = some tc ∧ c.segs = jobSegs j p s ∧ c.scratch = jobScratch j s ∧
    c.cands.length ≤ leAt j.desc 4 1

/-- How an entry to WINDOWS with a usable satellite may end: without a candidate, past the deadline, or in WINDOWS. -/
def WindowsOutcome (k : Nat) (j : Job) (tc p : Nat) (s t : State) : Prop :=
  Decided k ST.empty 0x03 t ∨ (deadlinePassed j.desc s = true ∧ Decided k ST.deadline 0x41 t) ∨
    (deadlinePassed j.desc s = false ∧ InWindows k j tc p s t)

section
variable (hi : jobInstant j s = some tc) (hp : j.prof = some p)
include hi hp

theorem windowsEnter_without_sats (hn : noSats j tc s = true) :
    windowsEnter k j s = jobEnd k 0x22 0x51 (setJob s k (some (jobTimed j tc s))) := by
  unfold windowsEnter
  extract_lets u
  rw [show jobInstant j u = some tc from hi, hp]
  dsimp only
  rw [show modJob k (fun j => { j with tc := some tc }) u = _ from modJob_jobEntered k tc j s]
  exact if_pos hn

/-- With a usable satellite the candidates are made from the pairs that the monitor does not exclude, as many as the descriptor
allows; nothing but flags and a value drawn for the frequency uncertainty changes beside the job. -/
theorem windowsEnter_with_sats (hn : noSats j tc s = false) :
    SlotOnly k s (windowsEnter k j s) ∧ WindowsOutcome k j tc p s (windowsEnter k j s) := by
  unfold windowsEnter
  extract_lets u
  have hiu : jobInstant j u = some tc := hi
  split
  · next h => exact absurd (hiu.symm.trans h) (by simp)
  · next h _ => exact absurd (hp.symm.trans h) (by simp)
  next tc' p' h h' =>
  obtain rfl : tc = tc' := Option.some.inj (hiu.symm.trans h)
  obtain rfl : p = p' := Option.some.inj (hp.symm.trans h')
  extract_lets t v pairs ok w n fu x made y₁ y₂ y₃
  have hv : v = setJob s k (some (jobTimed j tc s)) := modJob_jobEntered k tc j s
  have hw : w = setJob s k (some { jobTimed j tc s with suspect := pairs.any (fun q => satExcluded q.1 v) }) :=
    (congrArg _ hv).trans ((modJob_eq (jobAt_setJob _ _ _) _).trans (setJob_setJob _ _ _ _))
  have hnv : ¬ ((maskSigs (descMask j.desc)).all (fun c => (usableSats c t v).isEmpty) = true) := by
    rw [hv]
    exact fun h => Bool.false_ne_true (hn.symm.trans h)
  rw [if_neg hnv]
  have ho : SlotOnly k s w := hw ▸ .setJob _ _ _
  have hjw : jobAt w k = _ := hw ▸ jobAt_setJob _ _ _
  have hd : deadlinePassed j.desc w = deadlinePassed j.desc s := by rw [hw, deadlinePassed_setJob]
  have hend (st dt : Nat) : SlotOnly k s (jobEnd k st dt w) ∧ Decided k st dt (jobEnd k st dt w) :=
    ⟨ho.trans (.jobEnd k st dt w), jobEnd_decides_undecided hjw (by decide : (3 : Nat) ≠ 6) st dt⟩
  split
  · exact (hend _ _).imp_right .inl
  split
  case isTrue h => exact (hend _ _).imp_right fun hdec => .inr (.inl ⟨hd ▸ h, hdec⟩)
  case isFalse h =>
    have hx : Drawn w x := drawn_freqUnc w
    have hy : WordsOnly (R.CAR_CORR_ERR :: evKeys 79) x y₃ :=
      ((WordsOnly.corrErr rfl _ x).trans (.corrErr rfl _ y₁)).trans (.corrErr rfl _ y₂)
    have hjy : jobAt y₃ k = _ := (jobAt_congr (by rw [hy.car, hx.car]) k).trans hjw
    refine ⟨((ho.trans hx.slotOnly).trans hy.slotOnly).trans (.modJob _ _ _), .inr (.inr
      ⟨by simpa [hd] using h, _, jobAt_modJob hjy _, rfl, rfl, ?_, rfl, ?_⟩)⟩
    · exact (congrArg (jobSegs j p) hw).trans (jobSegs_setJob _ _ _ _ _)
    · simp only [List.length_map, made, ok]
      exact List.length_take_le _ _

end

/-! The entry of the source that comes first (R254), and the end of WINDOWS (R244, R246). -/

theorem SlotOnly.backlogSync (k : Nat) (s : State) : SlotOnly k s (Machine.backlogSync s) := .of_jobs rfl rfl rfl rfl

section
variable {y : Fin 34} {n : Nat} (hf : windowsFree y (backlogSync s) = true)
  (hy : srcPick ((List.range 34).filter (fun i => windowsFree i (backlogSync s))) (backlogSync s) = some y.val)
  (hq : oldestQueued y (backlogSync s) = some (n, b))
include hf hy hq

theorem exec_windowsEntry : exec (.windowsEntry y) s = .next (windowsEnter n b (backlogSync s)) := by
  change execWindowsEntry y s = _
  simp [execWindowsEntry, hf, hy, hq]

theorem windows_without_instant (hi : jobInstant b (backlogSync s) = none) :
    JobStep (.windowsEntry y) s (JobEnds n 0x21 0 s) :=
  ((SlotOnly.backlogSync n s).trans (.setJob _ _ _)).step_ends
    ((exec_windowsEntry hf hy hq).trans (congrArg _ (windowsEnter_without_instant hi))) (jobAt_setJob _ _ _)
    (by decide : (3 : Nat) ≠ 6)

variable (hi : jobInstant b (backlogSync s) = some tc) (hp : b.prof = some p)
include hi hp

theorem windows_without_sats (hn : noSats b tc (backlogSync s) = true) :
    JobStep (.windowsEntry y) s (JobEnds n 0x22 0x51 s) :=
  ((SlotOnly.backlogSync n s).trans (.setJob _ _ _)).step_ends
    ((exec_windowsEntry hf hy hq).trans (congrArg _ (windowsEnter_without_sats hi hp hn))) (jobAt_setJob _ _ _)
    (by decide : (3 : Nat) ≠ 6)

theorem windows_entered (hn : noSats b tc (backlogSync s) = false) : JobStep (.windowsEntry y) s fun t =>
    JobEnds n ST.empty 0x03 s t ∨ (deadlinePassed b.desc (backlogSync s) = true ∧ JobEnds n ST.deadline 0x41 s t) ∨
      (deadlinePassed b.desc (backlogSync s) = false ∧ (∀ i, i ≠ n → jobAt t i = jobAt s i) ∧
        InWindows n b tc p (backlogSync s) t) := by
  obtain ⟨hw, ho⟩ := windowsEnter_with_sats (k := n) hi hp hn
  obtain ⟨hoth, _, hmem, hram⟩ := (SlotOnly.backlogSync n s).trans hw
  refine ⟨_, exec_windowsEntry hf hy hq, hmem, hram, ?_⟩
  rcases ho with h | ⟨hd, h⟩ | ⟨hd, h⟩
  · exact .inl ⟨hoth, h⟩
  · exact .inr (.inl ⟨hd, hoth, h⟩)
  · exact .inr (.inr ⟨hd, hoth, h⟩)

end

/-- A job leaves WINDOWS for CORRELATE with its transforms to come. -/
theorem windows_done {slot : BitVec 14} (hj : jobAt s slot.toNat = some j) (hs : j.state = 3)
    (hd : deadlinePassed j.desc s = false) : JobStep (.windowsDone slot) s fun t =>
      (∀ i, i ≠ slot.toNat → jobAt t i = jobAt s i) ∧ t.regs = s.regs ∧ ∃ b, jobAt t slot.toNat = some b ∧ b.state = 4 ∧
        b.epoch = none ∧ b.fwdLeft = jobOffsets j * j.segs ∧ b.cands = j.cands := by
  have hx : exec (.windowsDone slot) s = execWindowsDone slot s := rfl
  simp only [execWindowsDone, hj, hs, hd, ne_eq, not_true_eq_false, if_false, Bool.false_eq_true] at hx
  exact (SlotOnly.setJob _ _ s).step hx ⟨rfl, _, jobAt_setJob _ _ _, rfl, rfl, rfl, rfl⟩

end Sys2Proof.Machine
end

section
/-! SUPPORT. The counts of the host's rings (R429 to R431, R433): what an entry taken and a record written make of them, and what
they leave as it was. -/
namespace Sys2Proof.Machine

variable {s t u : State} {n m : Nat}

theorem plainKey_ringWord {a : Nat} (h : 0x400000 ≤ a) (h' : a < 0x500000) : plainKey a := by
  simp only [plainKey, R.MSIX_PBA]
  omega

theorem WordsOnly.setCounts (n : Nat) (head tail : Word) (s : State) :
    WordsOnly [R.HOST_RING_HEAD n, R.HOST_RING_TAIL n, R.HOST_RING_STAT n] s (Machine.setCounts n head tail s) :=
  (((WordsOnly.setWord _ _ s).mono (by simp)).trans ((WordsOnly.setWord _ _ _).mono (by simp))).trans
    ((WordsOnly.setFld (F.HOST_RING_STAT_LEVEL n) _ _).mono (by simp))

theorem word_setCounts (n : Nat) (head tail : Word) (s : State) :
    (setCounts n head tail s).word (R.HOST_RING_HEAD n) = head ∧ (setCounts n head tail s).word (R.HOST_RING_TAIL n) = tail := by
  have hs (a : Nat) (ha : a ≠ R.HOST_RING_STAT n) : (setCounts n head tail s).word a =
      ((s.setWord (R.HOST_RING_HEAD n) head).setWord (R.HOST_RING_TAIL n) tail).word a := State.word_setFld_ne _ _ ha
  refine ⟨?_, ?_⟩
  · rw [hs _ (by simp only [R.HOST_RING_HEAD, R.HOST_RING_STAT]; omega),
      State.word_setWord_ne _ _ (by simp only [R.HOST_RING_HEAD, R.HOST_RING_TAIL]; omega), State.word_setWord]
  · rw [hs _ (by simp only [R.HOST_RING_TAIL, R.HOST_RING_STAT]; omega), State.word_setWord]

/-- A word of a ring's counts, beside the words of a flag of the host port and its event. -/
theorem word_flagEvent_ring {a : Nat} {f : Fld} (h : 0x400000 ≤ a) (h' : a < 0x401200) (hf : 0x401200 ≤ f.off) (m : Nat) (s : State) :
    (flagEvent f m s).word a = s.word a := by
  obtain ⟨hl, h0, h1⟩ := plainKey_ringWord h (h'.trans (by decide))
  refine (WordsOnly.flagEvent f m s).words a fun hm => ?_
  rcases List.mem_cons.1 hm with h | hm
  · omega
  · exact not_mem_evKeys hl h0 h1 m hm

/-- An entry of a job ring is taken: HEAD moves on, and nothing but registers changes (R431). -/
theorem jobRingAdvance_spec (hn : n < 32) (s : State) : (∃ ks, WordsOnly ks s (jobRingAdvance n s)) ∧
    (jobRingAdvance n s).word (R.HOST_RING_HEAD n) = s.word (R.HOST_RING_HEAD n) + 1 := by
  obtain ⟨hh, -⟩ := word_setCounts n (s.word (R.HOST_RING_HEAD n) + 1) (s.word (R.HOST_RING_TAIL n)) s
  have hc := WordsOnly.setCounts n (s.word (R.HOST_RING_HEAD n) + 1) (s.word (R.HOST_RING_TAIL n)) s
  unfold jobRingAdvance
  extract_lets half before u after
  split
  · refine ⟨⟨_, (hc.mono (List.subset_append_left _ _)).trans
      ((WordsOnly.flagEvent _ 4 u).mono (List.subset_append_right _ _))⟩, ?_⟩
    exact (word_flagEvent_ring (by simp only [R.HOST_RING_HEAD]; omega) (by simp only [R.HOST_RING_HEAD]; omega)
      (by decide : 0x401200 ≤ R.HOST_SPACE_PEND) 4 u).trans hh
  · exact ⟨⟨_, hc⟩, hh⟩

/-! A record written (R433). -/

/-- A ring's TAIL, the Carousel, the device memory map and private RAM stand as they were. -/
structure TailSame (n : Nat) (s t : State) : Prop where
  tail : t.word (R.HOST_RING_TAIL n) = s.word (R.HOST_RING_TAIL n)
  car : t.car = s.car
  mem : t.mem = s.mem
  ram : t.ram = s.ram

theorem TailSame.refl (n : Nat) (s : State) : TailSame n s s := ⟨rfl, rfl, rfl, rfl⟩

theorem TailSame.trans (h : TailSame n s t) (g : TailSame n t u) : TailSame n s u :=
  ⟨g.tail.trans h.tail, g.car.trans h.car, g.mem.trans h.mem, g.ram.trans h.ram⟩

theorem TailSame.slotOnly (h : TailSame n s t) (k : Nat) : SlotOnly k s t := .of_jobs (by rw [h.car]) (by rw [h.car]) h.mem h.ram

theorem TailSame.setNotifier (m : Nat) (x : Notifier) (s : State) : TailSame n s (Machine.setNotifier s m x) := ⟨rfl, rfl, rfl, rfl⟩

theorem TailSame.putUnits (us : List (List Byte)) (c : Word) (s : State) : TailSame n s (Machine.putUnits m us c s) := by
  induction us generalizing c s with
  | nil => exact .refl n s
  | cons b us ih =>
    have hb : TailSame n s (s.setHostBytes (entryAddr m 64 c s) b) := ⟨rfl, rfl, rfl, rfl⟩
    exact hb.trans (ih (c + 1) _)

theorem TailSame.flagEvent (hn : n < 67) {f : Fld} (hf : 0x401200 ≤ f.off) (e : Nat) (s : State) :
    TailSame n s (Machine.flagEvent f e s) :=
  have h := WordsOnly.flagEvent f e s
  ⟨word_flagEvent_ring (by simp only [R.HOST_RING_TAIL]; omega) (by simp only [R.HOST_RING_TAIL]; omega) hf e s, h.car, h.mem, h.ram⟩

theorem pendFld_pends (m : Nat) : 0x401200 ≤ (pendFld m).off := by
  have hr : 0x401200 ≤ R.HOST_RES_PEND := by decide
  have hs : 0x401200 ≤ R.HOST_STREAM_PEND := by decide
  unfold pendFld
  split <;> assumption

theorem TailSame.notifyUnits (hn : n < 67) (m units : Nat) (s : State) : TailSame n s (Machine.notifyUnits m units s) := by
  unfold Machine.notifyUnits
  extract_lets x u c
  have hu : TailSame n s u := .setNotifier m _ s
  split
  · exact .refl n s
  · split
    · exact hu.trans ((TailSame.setNotifier m {} u).trans (.flagEvent hn (pendFld_pends m) _ _))
    · exact hu

theorem length_recordUnits (k : Nat) (bs : List Byte) : (recordUnits k bs).length = k := by
  induction k generalizing bs with
  | zero => rfl
  | succ k ih => rw [recordUnits, List.length_cons, ih]

/-- A record written moves TAIL by its units; the Carousel, the device memory map and private RAM stand as they were. -/
theorem ringWrite_spec (hn : n < 67) (bs : List Byte) (s : State) : (∀ k, SlotOnly k s (ringWrite n bs s)) ∧
    (ringWrite n bs s).car = s.car ∧
    (ringWrite n bs s).word (R.HOST_RING_TAIL n) = s.word (R.HOST_RING_TAIL n) + BitVec.ofNat 32 (unitsOf bs) := by
  unfold ringWrite
  extract_lets us tail u
  have hu : TailSame n s u := .putUnits us tail s
  obtain ⟨-, ht⟩ := word_setCounts n (u.word (R.HOST_RING_HEAD n)) (tail + BitVec.ofNat 32 us.length) u
  have hc := WordsOnly.setCounts n (u.word (R.HOST_RING_HEAD n)) (tail + BitVec.ofNat 32 us.length) u
  have hr := TailSame.notifyUnits hn n us.length (setCounts n (u.word (R.HOST_RING_HEAD n)) (tail + BitVec.ofNat 32 us.length) u)
  refine ⟨fun k => ((hu.slotOnly k).trans hc.slotOnly).trans (hr.slotOnly k), hr.car.trans (hc.car.trans hu.car), ?_⟩
  rw [hr.tail, ht, show us.length = unitsOf bs from length_recordUnits _ bs]

end Sys2Proof.Machine
end

section
/-! PROOFS. O19, records: a record is written in the order of its ring, or waits for room (R222, R433). -/
namespace Sys2Proof.Machine

variable {s : State} {j : Job} {slot : BitVec 14} {r : List Byte}

theorem SlotOnly.carDone (k : Nat) (s : State) : SlotOnly k s (Machine.carDone s) := .of_jobs rfl rfl rfl rfl

theorem word_carDone {a : Nat} (h0 : a ≠ R.CAR_DONE_LO) (h1 : a ≠ R.CAR_DONE_HI) (s : State) : (carDone s).word a = s.word a :=
  (State.word_setWord_ne _ _ h1).trans (State.word_setWord_ne _ _ h0)

/-- What a host source's record leaves when it is written. -/
theorem recordSend_host (hsrc : j.src < 32) (r : List Byte) (s : State) : let t := recordSend j.src j.desc r s
    (∀ k, SlotOnly k s t) ∧ t.car = { s.car with done := s.car.done + 1 } ∧
      t.word (R.HOST_RING_TAIL (32 + j.src)) = s.word (R.HOST_RING_TAIL (32 + j.src)) + BitVec.ofNat 32 (unitsOf r) := by
  obtain ⟨ho, hc, ht⟩ := ringWrite_spec (n := 32 + j.src) (by omega) r s
  simp only [recordSend, if_pos hsrc]
  refine ⟨fun k => (ho k).trans (.carDone k _), congrArg (fun c : Carousel => { c with done := c.done + 1 }) hc, ?_⟩
  rw [word_carDone (by simp only [R.HOST_RING_TAIL, R.CAR_DONE_LO]; omega) (by simp only [R.HOST_RING_TAIL, R.CAR_DONE_HI]; omega), ht]

/-- A slot becomes FREE. -/
theorem jobFree_eq {k : Nat} (hj : jobAt s k = some j) : jobFree k true s = liveNext (setJob s k none) := by
  rw [jobFree, hj]
  exact if_neg (by simp)

section
variable (hj : jobAt s slot.toNat = some j) (hr : j.record = some r) (hs : j.state = 6) (hq : j.silent = false) (hsrc : j.src < 32)
include hj hr hs hq hsrc

theorem exec_resultRecordWrite : exec (.resultRecordWrite slot) s = .next (
    if recordHeld j s then s
    else if recordRoom j.src r s then jobFree slot.toNat true (recordSend j.src j.desc r s)
    else flagEvent F.CAR_ERR_STALL 76 s) := by
  change Host.Outcome.next (recordWrite slot.toNat s) = _
  have h32 : ¬ 32 ≤ j.src := Nat.not_le.2 hsrc
  simp [recordWrite, hj, hr, hs, hq, h32]

theorem record_held (hh : recordHeld j s = true) : exec (.resultRecordWrite slot) s = .next s :=
  (exec_resultRecordWrite hj hr hs hq hsrc).trans (congrArg _ (if_pos hh))

variable (hh : recordHeld j s = false)
include hh

theorem record_written (hm : recordRoom j.src r s = true) : JobStep (.resultRecordWrite slot) s fun t =>
    (∀ i, i ≠ slot.toNat → jobAt t i = jobAt s i) ∧ jobAt t slot.toNat = none ∧ t.car.done = s.car.done + 1 ∧
      t.word (R.HOST_RING_TAIL (32 + j.src)) = s.word (R.HOST_RING_TAIL (32 + j.src)) + BitVec.ofNat 32 (unitsOf r) := by
  obtain ⟨ho, hc, ht⟩ := recordSend_host hsrc r s
  have hx := (exec_resultRecordWrite hj hr hs hq hsrc).trans
    (congrArg _ ((if_neg (by rw [hh]; exact Bool.false_ne_true)).trans (if_pos hm)))
  have hjs : jobAt (recordSend j.src j.desc r s) slot.toNat = some j := (jobAt_congr (by rw [hc]) _).trans hj
  rw [jobFree_eq hjs] at hx
  refine (((ho _).trans (.setJob _ none _)).trans (.liveNext _)).step hx ⟨?_, ?_, ?_⟩
  · exact (jobAt_congr (by rw [car_liveNext]) _).trans (jobAt_setJob _ _ _)
  · rw [car_liveNext]
    exact congrArg Carousel.done hc
  · rw [State.word, regs_liveNext]
    exact ht

theorem record_stalls (hm : recordRoom j.src r s = false) : JobStep (.resultRecordWrite slot) s fun t =>
    t.car = s.car ∧ t.bit F.CAR_ERR_STALL = true ∧ t.hostMem = s.hostMem := by
  have hx := (exec_resultRecordWrite hj hr hs hq hsrc).trans (congrArg _
    ((if_neg (by rw [hh]; exact Bool.false_ne_true)).trans (if_neg (by rw [hm]; exact Bool.false_ne_true))))
  have hw := WordsOnly.flagEvent F.CAR_ERR_STALL 76 s
  obtain ⟨hmem, hram, hhost, -⟩ := hw.memsSame
  exact ⟨_, hx, hmem, hram, hw.car, bit_flagEvent (by decide) rfl (by decide) 76 s, hhost⟩

end

end Sys2Proof.Machine
end

section
/-! PROOFS. O19, descriptors: one that was read gets a slot and its first checks, or stays in its ring (R204, R205, R213, R216, R217,
R431). -/
namespace Sys2Proof.Machine

variable {s : State} {x : Fin 32} {d : List Byte} {n src : Nat}

/-- No descriptor is being read. -/
def readDone (s : State) : State := { s with car := { s.car with reading := none } }

/-- A slot taken for a descriptor, its job in STAGING (R216). -/
def slotTaken (src : Nat) (d : List Byte) (k : Nat) (s : State) : State :=
  setJob { s with car := { s.car with
    seq := s.car.seq + 1, gens := Sparse.put (fun _ => 0) s.car.gens k ((slotGen s k + 1) % 256) } } k
    (some { src := src, state := 1, desc := d, order := s.car.seq })

/-- A descriptor as it is taken: 128 bytes, those not read 0. -/
def descPadded (d : List Byte) : List Byte := d.take 128 ++ List.replicate (128 - d.length) 0

theorem slotTaken_spec (src : Nat) (d : List Byte) (k : Nat) (s : State) : let t := slotTaken src d k s
    (∀ i, i ≠ k → jobAt t i = jobAt s i) ∧ jobAt t k = some { src := src, state := 1, desc := d, order := s.car.seq } ∧
      slotGen t k = (slotGen s k + 1) % 256 ∧ t.regs = s.regs :=
  ⟨fun _ hi => (jobAt_setJob_ne _ _ hi).trans (jobAt_congr rfl _), jobAt_setJob _ k _, Sparse.get_put_self _ k _, rfl⟩

theorem descCheck_slotTaken (src : Nat) (l : Bool) (d b : List Byte) (k : Nat) (s : State) :
    descCheck src l d (slotTaken src b k s) = descCheck src l d s := rfl

theorem head_not_mem_carErrKeys (x : Fin 32) : R.HOST_RING_HEAD x ∉ carErrKeys := fun hm => by
  obtain ⟨hl, h0, h1⟩ := plainKey_ringWord (a := R.HOST_RING_HEAD x) (by simp only [R.HOST_RING_HEAD]; omega)
    (by simp only [R.HOST_RING_HEAD]; omega)
  rcases List.mem_cons.1 hm with h | hm
  · simp only [R.HOST_RING_HEAD, R.CAR_ERR] at h
    omega
  · exact not_mem_evKeys hl h0 h1 _ hm

/-! Taking a descriptor (R205, R213, R217). -/

/-- A descriptor that fails a check ends its job; one that passes receives staging blocks, or waits for them. -/
theorem takeDescriptor_slot (hm : s.fld (F.CAR_SRC_LIMIT_MAXSLOT src) ≠ 0) (hn : nextSlot s = some n) :
    (∀ st dt, descCheck src false d s = some (st, dt) →
      takeDescriptor src false d none s = jobEnd n st dt (slotTaken src d n s)) ∧
    (descCheck src false d s = none → takeDescriptor src false d none s = stageGrant n (slotTaken src d n s) ∨
      takeDescriptor src false d none s = flagEvent F.CAR_ERR_STAGE_WAIT 75 (slotTaken src d n s)) := by
  unfold takeDescriptor
  rw [if_neg hm]
  split
  · next h => exact absurd (hn.symm.trans h) (by simp)
  next k h =>
  obtain rfl : n = k := Option.some.inj (hn.symm.trans h)
  extract_lets j c u v
  have hv : descCheck src false d v = descCheck src false d s := descCheck_slotTaken src false d d n s
  rw [hv]
  refine ⟨fun st dt hc => ?_, fun hc => ?_⟩
  · rw [hc]
    rfl
  · rw [hc]
    dsimp only
    split
    · exact .inl rfl
    · exact .inr rfl

/-! The end of the read (R431). -/

theorem take_without_read (h : s.car.reading ≠ some x.val ∨ s.host.d3hot = true) : exec (.descriptorTake x d) s = .next s :=
  congrArg Host.Outcome.next (if_pos (by simpa using h))

section
variable (hr : s.car.reading = some x.val) (hh : s.host.d3hot = false)
include hr hh

theorem exec_descriptorTake : exec (.descriptorTake x d) s = .next (
    if !descTakes x s then readDone s
    else
      let t := takeDescriptor x false (descPadded d) none (readDone s)
      if ringOn x s then jobRingAdvance x t else t) :=
  congrArg Host.Outcome.next (if_neg (by simp [hr, hh]))

theorem descriptor_stays (ht : descTakes x s = false) :
    exec (.descriptorTake x d) s = .next { s with car := { s.car with reading := none } } :=
  (exec_descriptorTake hr hh).trans (congrArg _ (if_pos (by rw [ht]; rfl)))

variable (hm : s.fld (F.CAR_SRC_LIMIT_MAXSLOT x) ≠ 0) (hon : ringOn x s = true) (hn : nextSlot s = some n)
include hm hon hn

/-- What taking a descriptor leaves of the slot it takes shows when its ring has moved on: the slot's job and generation,
the other slots, and HEAD by one. -/
theorem descriptor_taken {u : State} (hu : takeDescriptor x false (descPadded d) none (readDone s) = u)
    (ho : SlotOnly n (slotTaken x (descPadded d) n (readDone s)) u)
    (hw : RegsBut carErrKeys (slotTaken x (descPadded d) n (readDone s)) u) {post : Job → Prop}
    (hp : ∃ b, jobAt u n = some b ∧ post b) :
    JobStep (.descriptorTake x d) s fun t => (∀ i, i ≠ n → jobAt t i = jobAt s i) ∧ (∃ b, jobAt t n = some b ∧ post b) ∧
      t.word (R.HOST_RING_HEAD x) = s.word (R.HOST_RING_HEAD x) + 1 ∧ slotGen t n = (slotGen s n + 1) % 256 := by
  have ht : descTakes x s = true := by
    rw [descTakes, if_neg hm, hn]
    rfl
  have hx := (exec_descriptorTake (d := d) hr hh).trans
    (congrArg _ ((if_neg (by rw [ht]; exact Bool.false_ne_true)).trans (if_pos hon)))
  rw [hu] at hx
  obtain ⟨⟨ks, ha⟩, hhead⟩ := jobRingAdvance_spec x.isLt u
  obtain ⟨hothers, -, hgen, hregs⟩ := slotTaken_spec x (descPadded d) n (readDone s)
  obtain ⟨huo, hug, hum, hur⟩ := ho.trans (ha.slotOnly (k := n))
  refine ⟨_, hx, hum, hur, fun i hi => (huo i hi).trans (hothers i hi), ?_, ?_, ?_⟩
  · obtain ⟨b, hb, hpost⟩ := hp
    exact ⟨b, (jobAt_congr (by rw [ha.car]) n).trans hb, hpost⟩
  · rw [hhead, hw _ (head_not_mem_carErrKeys x), State.word, hregs]
    rfl
  · rw [slotGen, hug]
    exact hgen

theorem descriptor_fails {st dt : Nat} (hc : descCheck x false (descPadded d) s = some (st, dt)) :
    JobStep (.descriptorTake x d) s fun t => JobEnds n st dt s t ∧
      t.word (R.HOST_RING_HEAD x) = s.word (R.HOST_RING_HEAD x) + 1 ∧ slotGen t n = (slotGen s n + 1) % 256 := by
  obtain ⟨-, hj, -, -⟩ := slotTaken_spec x (descPadded d) n (readDone s)
  obtain ⟨hfail, -⟩ := takeDescriptor_slot (s := readDone s) hm hn
  obtain ⟨t, hx, hmem, hram, hoth, hdec, hw⟩ := descriptor_taken hr hh hm hon hn (hfail st dt hc)
    (.jobEnd n st dt _) (.jobEnd n st dt _) (jobEnd_decides_undecided hj (by decide : (1 : Nat) ≠ 6) st dt)
  exact ⟨t, hx, hmem, hram, ⟨hoth, hdec⟩, hw⟩

theorem descriptor_passes (hc : descCheck x false (descPadded d) s = none) :
    JobStep (.descriptorTake x d) s fun t => (∀ i, i ≠ n → jobAt t i = jobAt s i) ∧
      (∃ b, jobAt t n = some b ∧ b.state = 1 ∧ b.src = x.val ∧ b.desc = descPadded d ∧
        (b.blocks = 0 ∨ b.blocks = blocksFor (descLen (descPadded d)))) ∧
      t.word (R.HOST_RING_HEAD x) = s.word (R.HOST_RING_HEAD x) + 1 ∧ slotGen t n = (slotGen s n + 1) % 256 := by
  obtain ⟨-, hj, -, -⟩ := slotTaken_spec x (descPadded d) n (readDone s)
  rcases (takeDescriptor_slot (s := readDone s) hm hn).2 hc with h | h
  · obtain ⟨hregs, hg, -⟩ := stageGrant_shows hj
    exact descriptor_taken hr hh hm hon hn h (.stageGrant n _) (fun a _ => by rw [State.word, hregs, State.word])
      ⟨_, hg, rfl, rfl, rfl, .inr rfl⟩
  · have hf := WordsOnly.carErr (f := F.CAR_ERR_STAGE_WAIT) (n := 75) rfl (by decide) (slotTaken x (descPadded d) n (readDone s))
    exact descriptor_taken hr hh hm hon hn h hf.slotOnly hf.words
      ⟨_, (jobAt_congr (by rw [hf.car]) n).trans hj, rfl, rfl, rfl, .inl rfl⟩

end

end Sys2Proof.Machine
end

section
/-! PROOFS. O19, cancels: CAR_CANCEL_CTRL ends the jobs that it hits and counts them (R224). -/
namespace Sys2Proof.Machine

variable {s t : State} {k i : Nat} {j : Job} {who : Reader} {v : Word}

theorem SlotOnly.linkSendRel (p kind : Nat) (body : List Byte) (s : State) : SlotOnly k s (Machine.linkSendRel p kind body s) := by
  unfold Machine.linkSendRel
  exact .ite (.of_jobs rfl rfl rfl rfl) (.of_jobs rfl rfl rfl rfl)

theorem SlotOnly.jobAbort (k st dt : Nat) (s : State) : SlotOnly k s (Machine.jobAbort k st dt s) := by
  unfold Machine.jobAbort
  split
  · exact .refl k s
  · exact .ite (.setJob k _ s) (.jobEnd k st dt s)

theorem SlotOnly.jobCancel (k : Nat) (s : State) : SlotOnly k s (Machine.jobCancel k s) := by
  unfold Machine.jobCancel
  split
  · exact .refl k s
  · exact (SlotOnly.ite (.linkSendRel _ _ _ s) (.refl k s)).trans (.jobAbort k _ _ _)

/-- A job whose status a cancel has decided. -/
def Cancelled (k : Nat) (s : State) : Prop :=
  ∃ c, jobAt s k = some c ∧ c.state = 6 ∧ c.status = ST.abort ∧ c.detail = 0x31

/-- A job in QUEUED or decided by a cancel is decided by a cancel after one. -/
theorem cancelled_of_jobCancel (hj : jobAt s k = some j) (h : j.state = 2 ∨ Cancelled k s) : Cancelled k (jobCancel k s) := by
  have hs : j.state = 2 ∨ j.state = 6 := h.imp_right fun ⟨c, hc, h6, _⟩ => by
    rwa [Option.some.inj (hj.symm.trans hc)]
  have he : jobCancel k s = jobEnd k ST.abort 0x31 s := by
    rcases hs with hs | hs <;> simp [jobCancel, jobAbort, hj, hs]
  rw [he]
  by_cases hm : mayDecide j ST.abort 0x31 s = true
  · obtain ⟨b, hb, h6, hst, hdt, -⟩ := jobEnd_decides hj hm
    exact ⟨b, hb, h6, hst, hdt⟩
  · rcases h with h | h
    · exact absurd (mayDecide_of_state (by rw [h]; decide) ST.abort 0x31 s) hm
    · rwa [jobEnd_of_decided fun b hb => by
        rw [← Option.some.inj (hj.symm.trans hb)]
        exact Bool.eq_false_iff.2 hm]

theorem Cancelled.jobCancel (h : Cancelled k s) (i : Nat) : Cancelled k (jobCancel i s) := by
  obtain ⟨c, hc, hd⟩ := h
  by_cases hi : k = i
  · subst hi
    exact cancelled_of_jobCancel hc (.inr ⟨c, hc, hd⟩)
  · exact ⟨c, ((SlotOnly.jobCancel i s).others k hi).trans hc, hd⟩

/-- The jobs of a list cancelled in turn. -/
def cancelAll (l : List (Nat × Job)) (s : State) : State := l.foldl (fun s e => jobCancel e.1 s) s

theorem Cancelled.cancelAll (h : Cancelled k s) (l : List (Nat × Job)) : Cancelled k (cancelAll l s) := by
  induction l generalizing s with
  | nil => exact h
  | cons e l ih => exact ih (h.jobCancel e.1)

theorem mems_cancelAll (l : List (Nat × Job)) (s : State) : (cancelAll l s).mem = s.mem ∧ (cancelAll l s).ram = s.ram := by
  induction l generalizing s with
  | nil => exact ⟨rfl, rfl⟩
  | cons e l ih =>
    have h := SlotOnly.jobCancel e.1 s
    obtain ⟨hm, hr⟩ := ih (s := jobCancel e.1 s)
    exact ⟨hm.trans h.mem, hr.trans h.ram⟩

/-- A job in QUEUED that is in the list is cancelled. -/
theorem cancelAll_cancels {l : List (Nat × Job)} {e : Nat × Job} (he : e ∈ l) (hj : jobAt s e.1 = some j) (hs : j.state = 2) :
    Cancelled e.1 (cancelAll l s) := by
  induction l generalizing s with
  | nil => cases he
  | cons a l ih =>
    by_cases ha : e.1 = a.1
    · have hc : Cancelled e.1 (jobCancel a.1 s) := ha ▸ cancelled_of_jobCancel hj (.inl hs)
      exact hc.cancelAll l
    · have hm : e ∈ l := (List.mem_cons.1 he).resolve_left fun h => ha (congrArg Prod.fst h)
      exact ih hm (((SlotOnly.jobCancel a.1 s).others e.1 ha).trans hj)

/-! The write of CAR_CANCEL_CTRL. -/

/-- The fields of CAR_CANCEL_CTRL. -/
def cancelCtrlFields : List FieldSpec := [fs 31 31 .wo 0x0, fs 30 30 .rw 0x0, fs 29 16 .ro 0x0, fs 5 0 .rw 0x0]

theorem regAt_cancelCtrl : regAt R.CAR_CANCEL_CTRL = some ⟨R.CAR_CANCEL_CTRL, [], 0, .f, false, cancelCtrlFields⟩ := by decide

theorem WordsOnly.plainWrite_cancelCtrl (who : Reader) (v : Word) (s : State) :
    WordsOnly [R.CAR_CANCEL_CTRL] s (plainWrite who R.CAR_CANCEL_CTRL v s) :=
  .plainWrite_of_lawful v regAt_cancelCtrl rfl
    (vltChecked_of_no_vlt (vltOffends_of_lawful (by simp [cancelCtrlFields, fs])))

/-- The jobs that a cancel hits: of its source, with its tag or all, and not decided by a cause that goes before (R224, R225). -/
def cancelHits (v : Word) (s : State) : List (Nat × Job) :=
  let tag := s.fld F.CAR_CANCEL_TAG_HI_TAG_HI * 2 ^ 32 + s.fld F.CAR_CANCEL_TAG_LO_TAG_LO
  (jobList s).filter (fun e => e.2.src == v.toNat % 64 && mayDecide e.2 ST.abort 0x31 s && (v.getLsbD 30 || leAt e.2.desc 8 8 == tag))

theorem cancelHits_congr (h : WordsOnly [R.CAR_CANCEL_CTRL] s t) (v : Word) : cancelHits v t = cancelHits v s := by
  have hm (b : Job) : mayDecide b ST.abort 0x31 t = mayDecide b ST.abort 0x31 s := by
    rw [mayDecide, (congrArg State.tick h.rest :), mayDecide]
  simp only [cancelHits, jobList, h.car, hm, h.words.fld (f := F.CAR_CANCEL_TAG_HI_TAG_HI) (by decide),
    h.words.fld (f := F.CAR_CANCEL_TAG_LO_TAG_LO) (by decide)]

theorem exec_carCancel (ho : Open who R.CAR_CANCEL_CTRL s) (hg : v.getLsbD 31 = true) (hsrc : v.toNat % 64 ≤ 33) :
    exec (.carCancel who v) s = .next ((cancelAll (cancelHits v s) (plainWrite who R.CAR_CANCEL_CTRL v s)).setFld
      F.CAR_CANCEL_CTRL_COUNT (min 0x3FFF (cancelHits v s).length)) := by
  have hg' : v.toNat.testBit 31 = true := hg
  have hx : opCarCancel who v s =
      let u := plainWrite who R.CAR_CANCEL_CTRL v s
      (cancelAll (cancelHits v u) u).setFld F.CAR_CANCEL_CTRL_COUNT (satNat 0x3FFF (cancelHits v u).length) :=
    if_neg (by rw [hg', decide_eq_false (Nat.not_lt.2 hsrc)]; exact Bool.false_ne_true)
  refine congrArg Host.Outcome.next ((gate_open ho.1 ho.2).trans ?_)
  simp only [hx, cancelHits_congr (.plainWrite_cancelCtrl who v s), satNat_eq_min]

theorem cancel_counts (ho : Open who R.CAR_CANCEL_CTRL s) (hg : v.getLsbD 31 = true) (hsrc : v.toNat % 64 ≤ 33) :
    JobStep (.carCancel who v) s fun t => t.fld F.CAR_CANCEL_CTRL_COUNT = min 0x3FFF (cancelHits v s).length ∧
      (cancelHits v s = [] → t.car = s.car) ∧ ∀ e ∈ cancelHits v s, ∀ b, jobAt s e.1 = some b → b.state = 2 →
        Cancelled e.1 t := by
  have hp := WordsOnly.plainWrite_cancelCtrl who v s
  obtain ⟨hm, hr⟩ := mems_cancelAll (cancelHits v s) (plainWrite who R.CAR_CANCEL_CTRL v s)
  refine ⟨_, exec_carCancel ho hg hsrc, ?_, ?_, ?_, fun h0 => ?_, fun e he b hj hs => ?_⟩
  · rw [State.setFld_mem, hm, hp.mem]
  · rw [State.setFld_ram, hr, hp.ram]
  · rw [State.fld_setFld _ _ _ (by decide) (by decide)]
    exact Nat.mod_eq_of_lt ((Nat.min_le_left _ _).trans_lt (by decide))
  · rw [State.setFld_car, h0]
    exact hp.car
  · obtain ⟨c, hc, hd⟩ := cancelAll_cancels he ((jobAt_congr (by rw [hp.car]) e.1).trans hj) hs
    exact ⟨c, (jobAt_congr (by rw [State.setFld_car]) e.1).trans hc, hd⟩

end Sys2Proof.Machine
end

section
/-! PROOFS. O19: snapshot jobs from descriptor to result record, with deadlines and cancels (R204 to R229, R254, R431, R433). -/
namespace Sys2Proof.Machine

/-- Settles O19: each command on a job by the lemmas of its branches: descriptors, staging, windows, records, deadlines, cancels, and
forwards taken back. -/
theorem snapshotJobs : Obligations.SnapshotJobs := by
  unfold Obligations.SnapshotJobs
  intro who x y d slot block v j s k desc w others goes ends
  refine ⟨fun hr hh hm hon n hn => ⟨fun st dt => descriptor_fails hr hh hm hon hn, descriptor_passes hr hh hm hon hn⟩,
    take_without_read, descriptor_stays, fun n b hw hj => ⟨blocks_granted hw hj, blocks_withheld hw⟩, ?_, ?_, windows_done,
    fun r hj hr hs hq hsrc => ⟨record_held hj hr hs hq hsrc, record_written hj hr hs hq hsrc, record_stalls hj hr hs hq hsrc⟩,
    deadline_ends, deadline_waits, cancel_counts,
    fun hj hs hd ht => ⟨forward_taken_back hj hs hd ht, forward_waits hj⟩⟩
  · intro hj hs hb he hsrc
    refine ⟨?_, ?_⟩
    · rintro b rfl hv
      exact ⟨fun p hc hp => snapshot_late hj hs hb he hsrc hv hc hp, fun p hc hp => snapshot_queued hj hs hb he hsrc hv hc hp,
        fun dt => snapshot_malformed hj hs hb he hsrc hv, snapshot_without_profile hj hs hb he hsrc hv⟩
    · rintro rfl
      exact snapshot_faults hj hs hb he hsrc
  · exact fun n b hf hy hq => ⟨windows_without_instant hf hy hq,
      fun tc p hi hp => ⟨windows_without_sats hf hy hq hi hp, windows_entered hf hy hq hi hp⟩⟩

end Sys2Proof.Machine
end
